-- ==== Sys2Proof/Word.lean ====
section
/-! DEFINITION. The word types of the machine: scalars, bytes, vectors and tiles (spec 00, "Registers and names"), the numbers of dies, clusters, cores and ports (01 R18), and the types of the fields instructions carry: operand layouts (10 R253), control registers by name (01 R7), messages. -/

namespace Sys2Proof

/-- A 64-bit scalar (00, "Registers and names"). -/
abbrev Word := BitVec 64
/-- One byte of memory or scratchpad. -/
abbrev Byte := BitVec 8
/-- A vector register: 128 lanes of 32 bits, lane 0 in the low bits (R3, R300). -/
abbrev Vec := BitVec 4096
/-- An accumulator tile: 256 cells of 32 bits (R331). -/
abbrev Tile := BitVec 8192

/-- A die, 0 to 3 (R18). -/
abbrev Die := Fin 4
/-- A cluster of the module, 12 × die + cluster (R18). -/
abbrev Cluster := Fin 48
/-- A global core number, 96 × die + 8 × cluster + core (R18). -/
abbrev Core := Fin 384
/-- An HBM4E stack, 2 × die + j (R18). -/
abbrev Stack := Fin 8
/-- A Wovor port, 9 × die + j (R18). -/
abbrev Port := Fin 36
/-- An Ethernet port, 2 × die + j (R18). -/
abbrev EthPort := Fin 8
/-- A partition, 0 to 15 (R80). -/
abbrev Part := Fin 16
/-- A PCIe function: 0 is the physical function, v in 1 to 16 serves partition v − 1 (R77). -/
abbrev Fn := Fin 17

/-- The control registers, by name (R7); the tables of their fields are in Machine/Csr.lean. -/
inductive Csr where
  | DLS_PWR_CFG | DLS_THERM_STAT | FAB_DOM_CFG | FAB_WIN
  | FAB_SLOT_CFG | FAB_PORT_STAT | FAB_ROUTE | FAB_PTAG
  | FAB_BARR_CFG | FAB_PORT_CTL | UEE_MATCH | UEE_RXQ_CFG
  | UEE_RXQ_STAT | UEE_TXQ_CFG | UEE_CLASS_DSCP | UEE_DROP_NOMATCH
  | UEE_CKPT_CTL | UEE_CKPT_RESUME | PTC_TIME_LO | PTC_TIME_HI
  | PTC_LATCH_TICK | PTC_EPOCH | PTC_INCR | PTC_OFFSET
  | PTC_CFG | PTC_STAT | PTC_CTL | PRT_CLUSTERS
  | PRT_LLC_WAYS | PRT_TT_ROOT | PRT_CTL | PRT_RESET
  | PRT_STAT | PRT_ATT_NONCE | PRT_ATT_CTL | HIF_LQ_CFG
  | HIF_LQ_STAT | HIF_QOS | HIF_SIG_CFG | SJ_STAT
  | SJ_LAST_STEP | SJ_MARKS | SJ_CFG | SJ_CTL
  | SJ_IMG_CTL | SNP_CTL | SNP_STAT | SNP_TICK
  | DLS_REG_CTL | DLS_TREC_CFG | DLS_SES | DLS_READY_HEAD
  | ADM_CFG | ADM_GRP | BWS_FRAME_CFG | BWS_USE
  | BWS_PRT_CAP | BWS_FAB_IN | PRT_MEM_OWN | PRT_LOCK
  | PRT_TLBI | PRT_WALK_STAT | CCC_L1_CFG | MSL_SUB_BASE
  | MSL_STAT | CCC_CTX | CCC_EVT | CCC_RPL_CTL
  | CCC_RPL_BUF | CCC_RPL_EVT | CCC_TG_STAT | CCC_EWT
  | CCC_ESTAT | CCC_ECNT | CCC_EIDLE | DST_SVC_CFG
  | DST_SVC_CTL | DST_SAVE_BASE | DST_MC_STAT | BBT_CFG
  | BBT_EDIT_DATA | BBT_EDIT_CTL | BBT_STAT
  deriving DecidableEq, Repr

/-- Operand layout `CJ`: a bundle-relative target (R253). -/
structure CJ where
  ofs : BitVec 20
  deriving DecidableEq, Repr

/-- Operand layout `CL`: a loop level and a bundle-relative target (R253). -/
structure CL where
  lvl : BitVec 2
  ofs : BitVec 18
  deriving DecidableEq, Repr

/-- Operand layout `CR`: a scalar register (R253). -/
structure CR where
  a : BitVec 6
  deriving DecidableEq, Repr

/-- Operand layout `CT`: an 8-bit number (R253). -/
structure CT where
  n : BitVec 8
  deriving DecidableEq, Repr

/-- Operand layout `CW`: an address, a value and a scope (R253). -/
structure CW where
  a : BitVec 6
  b : BitVec 6
  scope : BitVec 3
  deriving DecidableEq, Repr

/-- Operand layout `CF`: a scalar and a field mask of fmt (R253). -/
structure CF where
  a : BitVec 6
  fmask : BitVec 11
  deriving DecidableEq, Repr

/-- Operand layout `S3`: three scalars, `ba` reads bs for b (R253). -/
structure S3 where
  d : BitVec 6
  a : BitVec 6
  b : BitVec 6
  ba : BitVec 1
  deriving DecidableEq, Repr

/-- Operand layout `SI`: two scalars and a signed byte (R253). -/
structure SI where
  d : BitVec 6
  a : BitVec 6
  imm : BitVec 8
  deriving DecidableEq, Repr

/-- Operand layout `SM`: a scalar and a 14-bit immediate (R253). -/
structure SM where
  d : BitVec 6
  imm : BitVec 14
  deriving DecidableEq, Repr

/-- Operand layout `SP`: a predicate and two scalars (R253). -/
structure SP where
  pd : BitVec 4
  a : BitVec 6
  b : BitVec 6
  ba : BitVec 1
  deriving DecidableEq, Repr

/-- Operand layout `SS`: two scalars and a predicate (R253). -/
structure SS where
  d : BitVec 6
  a : BitVec 6
  p : BitVec 4
  deriving DecidableEq, Repr

/-- Operand layout `SQ`: three predicates and a truth table (R253). -/
structure SQ where
  pd : BitVec 4
  pa : BitVec 4
  pb : BitVec 4
  fn : BitVec 4
  deriving DecidableEq, Repr

/-- Operand layout `SX`: two scalars and a type code (R253). -/
structure SX where
  d : BitVec 6
  a : BitVec 6
  ty : BitVec 4
  deriving DecidableEq, Repr

/-- Operand layout `SV`: a scalar and a selector (R253). -/
structure SV where
  d : BitVec 6
  sel : BitVec 8
  deriving DecidableEq, Repr

/-- Operand layout `AL`: a loop level and a scalar (R253). -/
structure AL where
  lvl : BitVec 2
  a : BitVec 6
  deriving DecidableEq, Repr

/-- Operand layout `AK`: a k register, a scalar and a 10-bit immediate (R253). -/
structure AK where
  k : BitVec 4
  a : BitVec 6
  imm : BitVec 10
  deriving DecidableEq, Repr

/-- Operand layout `AH`: a shape register, a field and a scalar (R253). -/
structure AH where
  eng : BitVec 2
  h : BitVec 2
  field : BitVec 4
  a : BitVec 6
  deriving DecidableEq, Repr

/-- Operand layout `AN`: an 8-bit number (R253). -/
structure AN where
  n : BitVec 8
  deriving DecidableEq, Repr

/-- Operand layout `V3`: three vectors and a type code, `byp` reads the slot's bypass (R253). -/
structure V3 where
  d : BitVec 5
  a : BitVec 5
  b : BitVec 5
  ty : BitVec 4
  byp : BitVec 1
  deriving DecidableEq, Repr

/-- Operand layout `VC`: two vectors and two type codes (R253). -/
structure VC where
  d : BitVec 5
  a : BitVec 5
  tys : BitVec 4
  tyd : BitVec 4
  byp : BitVec 1
  deriving DecidableEq, Repr

/-- Operand layout `VS`: a vector and a scalar (R253). -/
structure VS where
  d : BitVec 5
  a : BitVec 6
  ty : BitVec 4
  deriving DecidableEq, Repr

/-- Operand layout `VI`: a vector and a signed 10-bit immediate (R253). -/
structure VI where
  d : BitVec 5
  imm : BitVec 10
  ty : BitVec 4
  deriving DecidableEq, Repr

/-- Operand layout `VX`: two vectors and a control code (R253). -/
structure VX where
  d : BitVec 5
  a : BitVec 5
  ctl : BitVec 9
  byp : BitVec 1
  deriving DecidableEq, Repr

/-- Operand layout `VQ`: a vector and half a tile (R253). -/
structure VQ where
  d : BitVec 5
  bank : BitVec 4
  tile : BitVec 4
  h : BitVec 1
  bm : BitVec 1
  deriving DecidableEq, Repr

/-- Operand layout `VF`: a vector and a control code (R253). -/
structure VF where
  a : BitVec 5
  ctl : BitVec 14
  byp : BitVec 1
  deriving DecidableEq, Repr

/-- Operand layout `MC`: a cube operation (R253). -/
structure MC where
  hm : BitVec 2
  sw : BitVec 1
  mode : BitVec 2
  bank : BitVec 4
  tile : BitVec 4
  ctl : BitVec 7
  deriving DecidableEq, Repr

/-- Operand layout `MW`: a vector and half a tile (R253). -/
structure MW where
  a : BitVec 5
  bank : BitVec 4
  tile : BitVec 4
  h : BitVec 1
  deriving DecidableEq, Repr

/-- Operand layout `MK`: a bank and a mask of tiles (R253). -/
structure MK where
  bank : BitVec 4
  mask : BitVec 16
  deriving DecidableEq, Repr

/-- Operand layout `MT`: two tiles (R253). -/
structure MT where
  bank : BitVec 4
  tile : BitVec 4
  sbank : BitVec 4
  stile : BitVec 4
  deriving DecidableEq, Repr

/-- Operand layout `MF`: a scalar and a tile (R253). -/
structure MF where
  a : BitVec 6
  bank : BitVec 4
  tile : BitVec 4
  deriving DecidableEq, Repr

/-- Operand layout `MH`: a scalar and a kind (R253). -/
structure MH where
  a : BitVec 6
  kind : BitVec 2
  deriving DecidableEq, Repr

/-- Operand layout `LS`: a scalar access (R253). -/
structure LS where
  d : BitVec 6
  a : BitVec 6
  ty : BitVec 4
  rd : BitVec 3
  deriving DecidableEq, Repr

/-- Operand layout `LV`: a vector access (R253). -/
structure LV where
  d : BitVec 5
  a : BitVec 6
  ty : BitVec 4
  rd : BitVec 3
  deriving DecidableEq, Repr

/-- Operand layout `LR`: a scalar access at a scope (R253). -/
structure LR where
  d : BitVec 6
  a : BitVec 6
  ty : BitVec 4
  scope : BitVec 3
  deriving DecidableEq, Repr

/-- Operand layout `LA`: an atomic (R253). -/
structure LA where
  d : BitVec 6
  a : BitVec 6
  op : BitVec 4
  w : BitVec 1
  deriving DecidableEq, Repr

/-- Operand layout `LB`: a buffer ring (R253). -/
structure LB where
  d : BitVec 6
  n : BitVec 8
  deriving DecidableEq, Repr

/-- Operand layout `LG`: a gather or scatter (R253). -/
structure LG where
  d : BitVec 5
  a : BitVec 5
  b : BitVec 6
  ty : BitVec 4
  deriving DecidableEq, Repr

/-- Operand layout `LK`: a k register and a scalar (R253). -/
structure LK where
  k : BitVec 4
  a : BitVec 6
  deriving DecidableEq, Repr

/-- Operand layout `XE`: an engine command (R253). -/
structure XE where
  hx : BitVec 2
  sw : BitVec 1
  a : BitVec 6
  b : BitVec 6
  ctl : BitVec 5
  deriving DecidableEq, Repr

/-- Operand layout `XB`: a barrier (R253). -/
structure XB where
  level : BitVec 2
  bar : BitVec 8
  a : BitVec 6
  deriving DecidableEq, Repr

/-- Operand layout `XS`: a sampler command (R253). -/
structure XS where
  a : BitVec 6
  b : BitVec 6
  ctl : BitVec 8
  deriving DecidableEq, Repr

/-- Operand layout `XC`: cache maintenance (R253). -/
structure XC where
  a : BitVec 6
  b : BitVec 6
  op : BitVec 2
  lvl : BitVec 2
  deriving DecidableEq, Repr

/-- Which of the two vector slots holds a vector operation (R254). -/
inductive VUnit where
  /-- Slot 3. -/
  | v0
  /-- Slot 4. -/
  | v1
  deriving DecidableEq, Repr

/-- A commit heartbeat (R129). -/
structure Heartbeat where
  session : Nat
  stream : Nat
  period : Nat
  tick : Nat
  level : Nat
  crc : BitVec 32
  deriving DecidableEq, Repr

/-- A message that a die of the other pair forwards (R23). -/
inductive PairMsg where
  | heartbeat (h : Heartbeat)
  | ack (stream period : Nat)
  | level (session level tick : Nat)
  deriving DecidableEq, Repr

/-- What an access of another module asks for (R42, R46). -/
inductive AccessKind where
  | read
  | write
  | atomic (op : BitVec 4) (w : Bool) (operand : Word)
  deriving DecidableEq, Repr

/-- An access from another module, or looped back, at the window check (R41, R42). -/
structure RemoteAccess where
  id : Nat
  module : Nat
  tag : BitVec 16
  cls : Nat
  kind : AccessKind
  offset : Nat
  bytes : List Byte
  mask : List Bool
  len : Nat
  /-- Of an atomic: the fields of its logical key and its issue tick (R164). -/
  key : List Nat := []
  tick : Nat := 0
  deriving DecidableEq, Repr

/-- How a remote access ends (R42, R46, R48). -/
inductive RespStatus where
  | done
  | windowRefused
  | unreachable
  deriving DecidableEq, Repr

/-- One part of a data flit's payload (R33): an access of one sector, or the answer of one. -/
inductive FlitItem where
  | access (a : RemoteAccess)
  | response (id : Nat) (st : RespStatus) (data : List Byte)
  deriving DecidableEq, Repr

/-- What a flit carries (R33): up to three sectors, or one control message. -/
inductive FlitMsg where
  | data (l : List FlitItem)
  | arrival (bar child : Nat)
  | release (bar : Nat)
  | contribution (bar child : Nat) (data : List Byte)
  | result (bar : Nat) (data : List Byte)
  | replay (seq : Nat)
  | idle
  deriving DecidableEq, Repr

/-- A flit as a port receives it whole (R33, R52). -/
structure Flit where
  seq : Nat
  cls : Nat
  part : Nat
  msg : FlitMsg
  /-- Source and target module of the header, and whether the replay fields mark it as sent again (R33, R52). -/
  source : Nat := 0
  target : Nat := 0
  again : Bool := false
  deriving DecidableEq, Repr

/-- A message at an Ethernet endpoint, received whole (R58 to R60). -/
structure SensorMsg where
  jobid : BitVec 24
  pid : BitVec 12
  ridx : BitVec 12
  source : Nat
  /-- Cycles from the message's first packet to its last byte. -/
  span : Nat
  bytes : List Byte
  deriving DecidableEq, Repr

/-- A write of a message to a receive ring that is done (R60, R63): the ring, the message, and which of its writes. -/
structure RingPut where
  ring : Fin 512
  msg : Nat
  put : Fin 8
  deriving DecidableEq, Repr

/-- A timestamped timing message as the clock takes it (R70): on which port, in which profile, over which transport, of which
domain; the dataset that its sender announces, in the order in which the best master clock algorithm compares it (priority 1,
class, accuracy, variance, priority 2, grandmaster identity, steps removed, sender; notes/assumptions/84.md); and the
measured offset in ns, none in an announcement. -/
structure PtpMsg where
  port : Nat
  profile : Nat
  transport : Nat
  domain : Nat
  master : List Nat
  offset : Option Int
  deriving DecidableEq, Repr

/-- What the checks of a step's image find (R95). -/
structure ImageCheck where
  digest : BitVec 256
  keyIdx : Bool
  version : BitVec 32
  signatureOk : Bool
  versionOk : Bool
  deriving DecidableEq, Repr

/-- What an uncorrectable error strikes (R212). -/
inductive McTarget where
  /-- The whole die (causes 0x37, 0x38). -/
  | die
  /-- A word of a context's register bank. -/
  | register (core : Core) (ctx : Fin 8) (word : Fin 64)
  /-- A word of a context's scratchpad partition. -/
  | spad (core : Core) (ctx : Fin 8) (offset : Nat)
  /-- A tile of an accumulator bank. -/
  | bank (core : Core) (bank tile : Fin 16)
  /-- A poisoned sector consumed by a task. -/
  | sector (task : Nat) (offset : Nat)
  deriving DecidableEq, Repr

/-- The half of a cycle's landings (R157): registers and banks land before the reads of the cycle, and scratchpad
writes of core slots after the engines' writes of the tick. -/
inductive LandPhase where
  | registers
  | storage
  deriving DecidableEq, Repr

end Sys2Proof
end

