-- ==== Sys2Proof/Machine/Data.lean ====
section
/-! DEFINITION. Plain data the state is made of: sparse maps in one canonical form, bytes and little-endian values (R3), bit fields. -/

namespace Sys2Proof.Machine

/-- A sparse map from numbers: pairs with rising keys, none holding the default value. -/
abbrev SMap (α : Type) := List (Nat × α)

/-- The value at a key; a key not listed holds the default. -/
def SMap.look {α : Type} [Inhabited α] : SMap α → Nat → α
  | [], _ => default
  | (k, v) :: m, n => if n = k then v else SMap.look m n

/-- The map with a value that is not the default put at a key, before the first larger key. -/
def SMap.ins {α : Type} : SMap α → Nat → α → SMap α
  | [], n, v => [(n, v)]
  | (k, w) :: m, n, v =>
    if n = k then (n, v) :: m else if n < k then (n, v) :: (k, w) :: m else (k, w) :: SMap.ins m n v

/-- The map with the value at a key replaced, in the canonical form. -/
def SMap.put {α : Type} [Inhabited α] [DecidableEq α] (m : SMap α) (n : Nat) (v : α) : SMap α :=
  if v = default then m.filter fun p => p.1 ≠ n else m.ins n v

/-- The map with the value at a key changed by a function. -/
def SMap.upd {α : Type} [Inhabited α] [DecidableEq α] (m : SMap α) (n : Nat) (f : α → α) : SMap α :=
  m.put n (f (m.look n))

/-- The canonical form: rising keys, no default value listed. -/
def SMap.wf {α : Type} [Inhabited α] [DecidableEq α] : SMap α → Bool
  | [] => true
  | (k, v) :: m => decide (v ≠ default) && m.all (fun p => decide (k < p.1)) && SMap.wf m

/-- The values of a map. -/
def SMap.vals {α : Type} (m : SMap α) : List α := m.map (·.2)

/-- The keys of a map. -/
def SMap.keys {α : Type} (m : SMap α) : List Nat := m.map (·.1)

/-- The map without the pairs a test names (R90: contents that a scrub zeroes). -/
def SMap.drop {α : Type} (m : SMap α) (f : Nat → Bool) : SMap α := m.filter (fun p => !f p.1)

/-- The bytes from an address up, lowest first. -/
def bytesAt (m : SMap Byte) (a : Nat) : Nat → List Byte
  | 0 => []
  | n + 1 => m.look a :: bytesAt m (a + 1) n

/-- The map with bytes stored from an address up. -/
def putBytes (m : SMap Byte) (a : Nat) : List Byte → SMap Byte
  | [] => m
  | b :: bs => putBytes (m.put a b) (a + 1) bs

/-- The map with the bytes stored whose mask bit is set; a mask that ends early selects nothing more. -/
def putMasked (m : SMap Byte) (a : Nat) : List Byte → List Bool → SMap Byte
  | b :: bs, x :: xs => putMasked (if x then m.put a b else m) (a + 1) bs xs
  | _, _ => m

/-- The natural number whose little-endian bytes these are (R3). -/
def leNat : List Byte → Nat
  | [] => 0
  | b :: bs => b.toNat + 256 * leNat bs

/-- The n little-endian bytes of a number (R3). -/
def natLe : Nat → Nat → List Byte
  | 0, _ => []
  | n + 1, v => BitVec.ofNat 8 v :: natLe n (v / 256)

/-- The number in bits hi to lo of a number. -/
def bits (v hi lo : Nat) : Nat := v / 2 ^ lo % 2 ^ (hi + 1 - lo)

/-- A bit of a number. -/
def bit (v n : Nat) : Bool := v / 2 ^ n % 2 == 1

/-- The number with bits hi to lo replaced. -/
def setBits (v hi lo x : Nat) : Nat :=
  v - bits v hi lo * 2 ^ lo + x % 2 ^ (hi + 1 - lo) * 2 ^ lo

/-- The two's-complement value of the low n bits of a number. -/
def sintN (n v : Nat) : Int :=
  let x := v % 2 ^ n
  if 2 * x ≥ 2 ^ n then (x : Int) - 2 ^ n else x

/-- Bit mask of the bits hi to lo of a 64-bit word. -/
def mask64 (hi lo : Nat) : Word := BitVec.ofNat 64 ((2 ^ (hi + 1 - lo) - 1) * 2 ^ lo)

/-- The word with the bits under the mask taken from another. -/
def underMask (old mask new : Word) : Word := (old &&& ~~~mask) ||| (new &&& mask)

/-- Ceiling division. -/
def ceilDiv (a b : Nat) : Nat := (a + b - 1) / b

/-- Leading zeros of an n-bit number. -/
def clzN (n v : Nat) : Nat := if v % 2 ^ n = 0 then n else n - 1 - (v % 2 ^ n).log2

/-- Set bits of an n-bit number. -/
def popN : Nat → Nat → Nat
  | 0, _ => 0
  | n + 1, v => v % 2 + popN n (v / 2)

/-- The first number below n that a test accepts, counted from a start. -/
def firstFrom (f : Nat → Bool) : Nat → Nat → Option Nat
  | 0, _ => none
  | n + 1, k => if f k then some k else firstFrom f n (k + 1)

/-- The least element of a list under a strict order, the earliest on a tie. -/
def leastBy {α : Type} (lt : α → α → Bool) : List α → Option α
  | [] => none
  | x :: xs =>
    match leastBy lt xs with
    | none => some x
    | some y => if lt y x then some y else some x

/-- A list of numbers compared field by field, the first difference deciding (R118, R164). -/
def lexLt : List Nat → List Nat → Bool
  | a :: as, b :: bs => if a < b then true else if b < a then false else lexLt as bs
  | _, _ => false

/-- One step of a reflected CRC over a bit: the polynomial is given with its bits reversed. -/
def crcStep (poly : Nat) : Nat → Nat → Nat
  | 0, c => c
  | n + 1, c => crcStep poly n (if c % 2 = 1 then Nat.xor (c / 2) poly else c / 2)

/-- A reflected 32-bit CRC over bytes, continued from a register value. -/
def crcBytes (poly : Nat) : List Byte → Nat → Nat
  | [], c => c
  | b :: bs, c => crcBytes poly bs (crcStep poly 8 (Nat.xor c b.toNat))

/-- CRC-32 (R96, R129) of a byte string. -/
def crc32 (b : List Byte) : BitVec 32 := ~~~ BitVec.ofNat 32 (crcBytes 0xEDB88320 b 0xFFFFFFFF)

/-- CRC-32C register after bytes (R190); the initial value is 0xFFFF_FFFF and the result is inverted at the end. -/
def crc32cStep (b : List Byte) (c : Nat) : Nat := crcBytes 0x82F63B78 b c

end Sys2Proof.Machine
end

