-- ==== Sys2Proof/Machine/Numerics.lean ====
section
/-! DEFINITION. Number formats, exact values and rounding (09 R215 to R225, R231). Irrational results are formed with 200 bits after the binary point and an odd last bit that stands for the rest (notes/assumptions/6.md). -/

namespace Sys2Proof.Machine

/-- A real of R220: NaN (from a signalling operand or not), an infinity, or a signed magnitude num ÷ den. -/
inductive FpVal where
  | nan (sig : Bool)
  | inf (s : Bool)
  | fin (s : Bool) (num den : Nat)
  deriving DecidableEq, Repr, Inhabited

/-- A floating-point layout (R215, R216). -/
structure Fmt where
  width : Nat
  fbits : Nat
  bias : Nat
  /-- E4M3: no infinity, one NaN per sign. -/
  e4m3 : Bool := false
  /-- The stem format: no subnormals. -/
  stem : Bool := false
  deriving DecidableEq, Repr, Inhabited

def fp32 : Fmt := ⟨32, 23, 127, false, false⟩
def fp16 : Fmt := ⟨16, 10, 15, false, false⟩
def bf16 : Fmt := ⟨16, 7, 127, false, false⟩
def fpE4M3 : Fmt := ⟨8, 3, 7, true, false⟩
def fpE5M2 : Fmt := ⟨8, 2, 15, false, false⟩
def fpStem : Fmt := ⟨24, 15, 127, false, true⟩

/-- Rounding modes (R221). -/
inductive RMode where
  | rne
  | rtz
  | rdn
  | rup
  | rna
  | rto
  deriving DecidableEq, Repr, Inhabited

/-- Flags of fmt.FLG as bits of a number: invalid, division by zero, overflow, underflow, inexact, integer overflow
(R226). -/
def flInvalid : Nat := 1
def flDivZero : Nat := 2
def flOverflow : Nat := 4
def flUnderflow : Nat := 8
def flInexact : Nat := 16
def flIntOvf : Nat := 32

/-- Exponent field of all ones. -/
def Fmt.emaxField (f : Fmt) : Nat := 2 ^ (f.width - 1 - f.fbits) - 1
/-- Exponent of the smallest normal binade. -/
def Fmt.emin (f : Fmt) : Int := 1 - (f.bias : Int)
/-- The encoding of sign, exponent field and fraction. -/
def Fmt.pack (f : Fmt) (s : Bool) (e fr : Nat) : Nat :=
  (if s then 2 ^ (f.width - 1) else 0) + e * 2 ^ f.fbits + fr
/-- Default NaN (R216). -/
def Fmt.defaultNan (f : Fmt) : Nat :=
  if f.e4m3 then 0x7F else f.pack false f.emaxField (2 ^ (f.fbits - 1))
/-- The infinity of a sign. -/
def Fmt.infinity (f : Fmt) (s : Bool) : Nat := f.pack s f.emaxField 0
/-- The largest finite value of a sign. -/
def Fmt.largest (f : Fmt) (s : Bool) : Nat :=
  if f.e4m3 then f.pack s 15 6 else f.pack s (f.emaxField - 1) (2 ^ f.fbits - 1)

/-- m × 2^e as a magnitude. -/
def FpVal.scaled (s : Bool) (m : Nat) (e : Int) : FpVal :=
  if 0 ≤ e then .fin s (m * 2 ^ e.toNat) 1 else .fin s m (2 ^ (-e).toNat)

/-- An integer as a real; zero is +0. -/
def FpVal.ofInt (i : Int) : FpVal := .fin (decide (i < 0)) i.natAbs 1

/-- val(x, f) (R215, R216). -/
def Fmt.val (f : Fmt) (x : Nat) : FpVal :=
  let s := bit x (f.width - 1)
  let e := bits x (f.width - 2) f.fbits
  let fr := x % 2 ^ f.fbits
  if f.e4m3 && e = 15 && fr = 7 then .nan false
  else if !f.e4m3 && e = f.emaxField then
    if fr = 0 then .inf s else .nan (!f.stem && !bit fr (f.fbits - 1))
  else if e = 0 then
    if f.stem then .fin s 0 1 else FpVal.scaled s fr (f.emin - f.fbits)
  else FpVal.scaled s (2 ^ f.fbits + fr) ((e : Int) - f.bias - f.fbits)

/-- Whether an encoding is subnormal. -/
def Fmt.isSub (f : Fmt) (x : Nat) : Bool :=
  bits x (f.width - 2) f.fbits = 0 && x % 2 ^ f.fbits ≠ 0

/-- floor_log2 of num ÷ den, both positive (R220). -/
def floorLog2 (num den : Nat) : Int :=
  let l : Int := (num.log2 : Int) - den.log2
  let ge : Bool := if 0 ≤ l then decide (den * 2 ^ l.toNat ≤ num) else decide (den ≤ num * 2 ^ (-l).toNat)
  if ge then l else l - 1

/-- sign(v): true for a negative value or −0. -/
def FpVal.sign : FpVal → Bool
  | .nan _ => false
  | .inf s => s
  | .fin s _ _ => s

def FpVal.isZero : FpVal → Bool
  | .fin _ n _ => n = 0
  | _ => false

def FpVal.isNan : FpVal → Bool
  | .nan _ => true
  | _ => false

def FpVal.neg : FpVal → FpVal
  | .nan q => .nan q
  | .inf s => .inf !s
  | .fin s n d => .fin (!s) n d

/-- Magnitude of a sum or difference over a common denominator. -/
def addMag (s : Bool) (a : Nat) (t : Bool) (b d : Nat) : FpVal :=
  if s = t then .fin s (a + b) d
  else if b < a then .fin s (a - b) d
  else if a < b then .fin t (b - a) d
  else .fin false 0 d

/-- x + y exactly (R220). A zero sum of opposite signs is +0 here; `FpVal.addZ` gives the sign of R306. -/
def FpVal.add : FpVal → FpVal → FpVal
  | .nan p, .nan q => .nan (p || q)
  | .nan p, _ => .nan p
  | _, .nan q => .nan q
  | .inf s, .inf t => if s = t then .inf s else .nan true
  | .inf s, _ => .inf s
  | _, .inf t => .inf t
  | .fin s a d, .fin t b e =>
    if d = e then addMag s a t b d
    else if e % d = 0 then addMag s (a * (e / d)) t b e
    else if d % e = 0 then addMag s a t (b * (d / e)) d
    else addMag s (a * e) t (b * d) (d * e)

/-- x + y with the zero sign of VADD (R306): an exact zero sum of opposite signs is +0, or −0 under RDN; two zeros of
one sign keep it. -/
def FpVal.addZ (m : RMode) (x y : FpVal) : FpVal :=
  match FpVal.add x y with
  | .fin s n d =>
    if n = 0 then (if x.sign = y.sign then .fin x.sign 0 1 else .fin (decide (m = .rdn)) 0 1) else .fin s n d
  | r => r

/-- Whether an addition is ∞ − ∞, which sets invalid (R220, R221). -/
def FpVal.addInvalid : FpVal → FpVal → Bool
  | .inf s, .inf t => s ≠ t
  | _, _ => false

/-- x × y exactly; ∞ × 0 is NaN and sets invalid, so it counts as signalling (R220, R306). -/
def FpVal.mul : FpVal → FpVal → FpVal
  | .nan p, .nan q => .nan (p || q)
  | .nan p, _ => .nan p
  | _, .nan q => .nan q
  | .inf s, .inf t => .inf (s ≠ t)
  | .inf s, .fin t n _ => if n = 0 then .nan true else .inf (s ≠ t)
  | .fin s n _, .inf t => if n = 0 then .nan true else .inf (s ≠ t)
  | .fin s a d, .fin t b e => .fin (s ≠ t) (a * b) (d * e)

/-- x < y numerically, false when either is NaN. -/
def FpVal.lt : FpVal → FpVal → Bool
  | .nan _, _ => false
  | _, .nan _ => false
  | .inf s, .inf t => s && !t
  | .inf s, _ => s
  | _, .inf t => !t
  | .fin s a d, .fin t b e =>
    if a = 0 && b = 0 then false
    else if s && !t then true
    else if !s && t then false
    else if s then b * d < a * e
    else a * e < b * d

/-- x = y numerically; NaN equals nothing. -/
def FpVal.eq (x y : FpVal) : Bool := !x.isNan && !y.isNan && !x.lt y && !y.lt x

/-- The integer m rounds to, m = num ÷ den, under a mode (R221). -/
def roundMag (mode : RMode) (s : Bool) (num den : Nat) : Nat :=
  let n := num / den
  let r := num % den
  if r = 0 then n
  else
    match mode with
    | .rne => if den < 2 * r || (2 * r = den && n % 2 = 1) then n + 1 else n
    | .rna => if den ≤ 2 * r then n + 1 else n
    | .rup => if s then n else n + 1
    | .rdn => if s then n + 1 else n
    | .rto => if n % 2 = 0 then n + 1 else n
    | .rtz => n

/-- The result of an overflow and its flags (R221). -/
def overflowFp (f : Fmt) (s : Bool) (mode : RMode) (sat : Bool) : Nat × Nat :=
  let toInf := !sat && (match mode with
    | .rne | .rna => true
    | .rup => !s
    | .rdn => s
    | _ => false)
  (if !toInf then f.largest s else if f.e4m3 then f.pack s 15 7 else f.infinity s, flOverflow ||| flInexact)

/-- round_fp of a finite nonzero magnitude num ÷ den (R221). -/
def roundFin (s : Bool) (num den : Nat) (f : Fmt) (mode : RMode) (sat : Bool) : Nat × Nat :=
  let l := floorLog2 num den
  if f.stem && decide (l < f.emin) then (f.pack s 0 0, flInexact)
  else
    let e := max l f.emin
    let k : Int := (f.fbits : Int) - e
    let mn := if 0 ≤ k then num * 2 ^ k.toNat else num
    let md := if 0 ≤ k then den else den * 2 ^ (-k).toNat
    let inex := mn % md ≠ 0
    let fl := if inex then (if l < f.emin then flInexact ||| flUnderflow else flInexact) else 0
    let n0 := roundMag mode s mn md
    let carry := n0 = 2 ^ (f.fbits + 1)
    let n := if carry then n0 / 2 else n0
    let e := if carry then e + 1 else e
    let field := (e + f.bias).toNat
    if f.emaxField + (if f.e4m3 then 1 else 0) ≤ field || (f.e4m3 && field = 15 && n = 15) then
      let o := overflowFp f s mode sat
      (o.1, o.2 ||| fl)
    else if n < 2 ^ f.fbits then (f.pack s 0 n, fl)
    else (f.pack s field (n - 2 ^ f.fbits), fl)

/-- round_fp(v, f, mode, sat): the encoding and the flags (R221). -/
def roundFp (v : FpVal) (f : Fmt) (mode : RMode) (sat : Bool) : Nat × Nat :=
  match v with
  | .nan sig => (f.defaultNan, if sig then flInvalid else 0)
  | .inf s =>
    if f.e4m3 then
      if sat then (f.largest s, flOverflow ||| flInexact) else (f.pack s 15 7, flInvalid)
    else (f.infinity s, 0)
  | .fin s n d => if n = 0 then (f.pack s 0 0, 0) else roundFin s n d f mode sat

/-- to_stem(v) as a value, with its flags (R217, R220). -/
def toStem (v : FpVal) : FpVal × Nat :=
  let r := roundFp v fpStem .rto false
  (fpStem.val r.1, r.2)

/-- round_fp to FP32 under RNE, as a value again. -/
def rne32 (v : FpVal) : Nat × Nat := roundFp v fp32 .rne false

/-- Integer square root by bits from the top. -/
def isqrtAux : Nat → Nat → Nat → Nat
  | 0, _, r => r
  | k + 1, n, r =>
    let c := r + 2 ^ k
    isqrtAux k n (if c * c ≤ n then c else r)

/-- floor(√n). -/
def isqrt (n : Nat) : Nat := isqrtAux (n.log2 / 2 + 1) n 0

/-- Bits after the binary point of an irrational result. -/
def fixBits : Nat := 200

/-- A value whose magnitude is n ÷ 2^k, with a last bit that stands for the part cut off. -/
def sticky (s : Bool) (n k : Nat) (exact : Bool) : FpVal :=
  if exact then .fin s n (2 ^ k) else .fin s (2 * n + 1) (2 ^ (k + 1))

/-- √(num ÷ den) (R306). The scaling 2^(2k) leaves at least 128 significant bits. -/
def sqrtReal (num den : Nat) : FpVal :=
  let k := 128 + den.log2 + 1
  let q := num * 2 ^ (2 * k) / den
  let r := isqrt q
  sticky false r k (r * r = q && num * 2 ^ (2 * k) % den = 0)

/-- ln 2 in units of 2^-prec: Σ 1 ÷ (i × 2^i). -/
def ln2Aux : Nat → Nat → Nat → Nat → Nat
  | 0, _, _, acc => acc
  | n + 1, i, prec, acc => ln2Aux n (i + 1) prec (acc + 2 ^ (prec - i) / i)

/-- ln 2 with 240 bits. -/
def ln2 : Nat := ln2Aux 239 1 240 0

/-- Σ y^i ÷ i! in units of 2^-240, y in the same units. -/
def expAux : Nat → Nat → Nat → Nat → Nat → Nat
  | 0, _, _, _, acc => acc
  | n + 1, i, y, term, acc =>
    let t := term * y / 2 ^ 240 / i
    expAux n (i + 1) y t (acc + t)

/-- 2^f for f = num ÷ den in [0, 1), in units of 2^-240. -/
def exp2Frac (num den : Nat) : Nat :=
  expAux 80 1 (num * ln2 / den) (2 ^ 240) (2 ^ 240)

/-- 2^A (R306): exact for an integer, otherwise cut to `fixBits` significant bits and an odd last bit. Beyond ±4,096
every format over- or underflows alike. -/
def exp2Real (v : FpVal) : FpVal :=
  match v with
  | .nan q => .nan q
  | .inf s => if s then .fin false 0 1 else .inf false
  | .fin s n d =>
    let q := n / d
    let r := n % d
    if q ≥ 4096 then (if s then .fin false 1 (2 ^ 4096) else .fin false (2 ^ 4096 + 1) 1)
    else if r = 0 then (if s then .fin false 1 (2 ^ q) else .fin false (2 ^ q) 1)
    else
      -- floor(A) and A − floor(A)
      let i : Int := if s then -(q : Int) - 1 else q
      let m := exp2Frac (if s then d - r else r) d / 2 ^ (240 - fixBits)
      let k : Int := i - fixBits
      if 0 ≤ k then .fin false ((2 * m + 1) * 2 ^ k.toNat) 2 else .fin false (2 * m + 1) (2 ^ ((-k).toNat + 1))

/-- 2 × atanh(z) ÷ z-series in units of 2^-240: Σ z^(2i+1) ÷ (2i+1). -/
def atanhAux : Nat → Nat → Nat → Nat → Nat → Nat
  | 0, _, _, _, acc => acc
  | n + 1, i, z2, pw, acc => atanhAux n (i + 2) z2 (pw * z2 / 2 ^ 240) (acc + pw / i)

/-- log2 m for m = num ÷ den in [1, 2), in units of 2^-fixBits, rounded down. -/
def log2Frac (num den : Nat) : Nat :=
  let z := (num - den) * 2 ^ 240 / (num + den)
  let l := 2 * atanhAux 100 1 (z * z / 2 ^ 240) z 0
  l * 2 ^ fixBits / ln2

/-- log2 A for A > 0 (R306): exact for a power of two. -/
def log2Real (num den : Nat) : FpVal :=
  let e := floorLog2 num den
  let n := if 0 ≤ e then num else num * 2 ^ (-e).toNat
  let d := if 0 ≤ e then den * 2 ^ e.toNat else den
  if n = d then .ofInt e
  else
    -- e + frac, cut toward −∞, the rest as an odd last bit
    let x : Int := 2 * (e * 2 ^ fixBits + log2Frac n d) + 1
    .fin (decide (x < 0)) x.natAbs (2 ^ (fixBits + 1))

/-- Exact sum of a list of finite reals. -/
def sumReals (l : List FpVal) : FpVal := l.foldl FpVal.add (.fin false 0 1)

/-- align_sum(terms, w), w = none for exact (R231): FP32 bits and flags. -/
def alignSum (terms : List FpVal) (w : Option Nat) : Nat × Nat :=
  if terms.any FpVal.isNan || (terms.any (· == .inf false) && terms.any (· == .inf true)) then
    (fp32.defaultNan, flInvalid)
  else
    match terms.find? (fun t => match t with | .inf _ => true | _ => false) with
    | some t => (fp32.infinity t.sign, 0)
    | none =>
      let nz := terms.filter (fun t => !t.isZero)
      if nz.isEmpty then ((fp32.pack (terms.all FpVal.sign) 0 0), 0)
      else
        let cut (t : FpVal) : FpVal :=
          match w, t with
          | some w, .fin s n d =>
            let e := nz.foldl (fun m t => match t with | .fin _ n d => max m (floorLog2 n d) | _ => m) (-100000)
            let k : Int := (w : Int) - 1 - e
            FpVal.scaled s (if 0 ≤ k then n * 2 ^ k.toNat / d else n / (d * 2 ^ (-k).toNat)) (-k)
          | _, t => t
        match sumReals (nz.map cut) with
        | .fin s n d => if n = 0 then (fp32.pack false 0 0, 0) else rne32 (.fin s n d)
        | r => rne32 r

/-- A conversion to an n-bit integer, signed or natural (R223): the integer and the flags. -/
def realToInt (v : FpVal) (n : Nat) (signed : Bool) (mode : RMode) : Int × Nat :=
  let lo : Int := if signed then -(2 ^ (n - 1)) else 0
  let hi : Int := if signed then 2 ^ (n - 1) - 1 else 2 ^ n - 1
  match v with
  | .nan _ => (0, flInvalid)
  | .inf s => (if s then lo else hi, flInvalid)
  | .fin s a d =>
    let m : Int := roundMag mode s a d
    let i := if s then -m else m
    if i < lo then (lo, flInvalid)
    else if hi < i then (hi, flInvalid)
    else (i, if a % d = 0 then 0 else flInexact)

/-- Saturation to n bits (R14): the clamped integer, and whether it was clamped. -/
def satInt (v : Int) (n : Nat) (signed : Bool) : Int × Bool :=
  let lo : Int := if signed then -(2 ^ (n - 1)) else 0
  let hi : Int := if signed then 2 ^ (n - 1) - 1 else 2 ^ n - 1
  if v < lo then (lo, true) else if hi < v then (hi, true) else (v, false)

/-- trunc_bits(v, n) (R14) as a natural number. -/
def truncInt (v : Int) (n : Nat) : Nat := (v % (2 ^ n : Int)).toNat

/-- IEEE 754 totalOrder on two non-NaN FP32 encodings, −0 below +0: the key rises with the value (R307, R370). -/
def fpKey (f : Fmt) (x : Nat) : Int :=
  let m : Int := x % 2 ^ (f.width - 1)
  if bit x (f.width - 1) then -m - 1 else m

/-- minimumNumber or maximumNumber of two encodings, with flags (R307). -/
def minMaxFp (f : Fmt) (isMax : Bool) (x y : Nat) : Nat × Nat :=
  let fl := if f.val x == .nan true || f.val y == .nan true then flInvalid else 0
  let nx := (f.val x).isNan
  let ny := (f.val y).isNan
  (if nx && ny then f.defaultNan
   else if nx then y
   else if ny then x
   else if (fpKey f x < fpKey f y) = isMax then y else x, fl)

end Sys2Proof.Machine
end

