-- ==== Sys2Proof/Config.lean ====
section
/-! DEFINITION. What the spec leaves open and the machine goes on with: free values, opaque constants applied to the counter `State.free` (or to the value they depend on). Nothing in Lean can evaluate them, and no statement rests on a value of theirs (notes/assumptions/5.md). -/

namespace Sys2Proof

/-- A free natural number for the n-th open choice: a latency inside its bound, a position left open. -/
opaque Config.freeNat : Nat → Nat
/-- A free 64-bit value for the n-th open value. -/
opaque Config.freeWord : Nat → BitVec 64
/-- A free byte string of the length given: what an agent reads of another module without an access of its own
(notes/assumptions/5.md), and the answer to an SPDM request (R99). -/
opaque Config.freeBytes : Nat → Nat → List (BitVec 8)
/-- The static power of one awake cluster of a die, in W (R24 names it and gives no number). -/
opaque Config.clusterWatts : Nat → Nat
/-- The partition whose tables translate for a die's checkpoint engine (R67 names virtual addresses and no partition). -/
opaque Config.ckptPart : Nat → Nat

/-! The start's cryptography and what is fused in a die (R95, R99): the spec names SM2 and SM3 and the form of a flash image by
name only, so they are functions without a body (notes/assumptions/87.md). -/

/-- SM3. -/
opaque Config.sm3 : List (BitVec 8) → BitVec 256
/-- The image that a slot holds for a step of a die. -/
opaque Config.stepImage : List (BitVec 8) → Nat → Nat → List (BitVec 8)
/-- The SM3 digest of the public key that an image names, whether that key's signature of the image verifies, and its
security version. -/
opaque Config.imageKey : List (BitVec 8) → BitVec 256
opaque Config.imageSigned : List (BitVec 8) → Bool
opaque Config.imageVersion : List (BitVec 8) → BitVec 32
/-- The two key digests fused in a die, whether one is revoked, and the least version. -/
opaque Config.fusedKey : Nat → Nat → BitVec 256
opaque Config.keyRevoked : Nat → Nat → Bool
opaque Config.minVersion : Nat → Nat
/-- The attestation key of a die's secret and two digests, the public key of a pair, a die's identity key, and an SM2
signature. -/
opaque Config.attestKey : Nat → BitVec 256 → BitVec 256 → List (BitVec 8)
opaque Config.publicKey : List (BitVec 8) → List (BitVec 8)
opaque Config.deviceKey : Nat → List (BitVec 8)
opaque Config.sm2Sign : List (BitVec 8) → BitVec 256 → List (BitVec 8)

end Sys2Proof
end

