-- ==== Sys2Proof/Syntax.lean ====
section
/-! DEFINITION. The instructions: one constructor per row of the opcode table. A slot operation carries the operand layout of R253 as a structure of its fields (Word.lean; the zero fields of a layout carry nothing; the guard belongs to the slot word, R247); a logit instruction its register fields (R365); an event or device step of file 95 what comes with it from outside the step (the die, the register index and value written, a message). -/

namespace Sys2Proof

/-- One constructor per row of the opcode table, in the table's order but for the slot operations, which stand first. -/
inductive Instr where
  /-- NOP: no operation, in any slot (R249). -/
  | nop (slot : Fin 8)
  /-- BR: branch to a bundle-relative target (R271). -/
  | br (o : CJ)
  /-- BRR: branch to the address in a register (R271). -/
  | brr (o : CR)
  /-- BTREE: chooses a path of a branch-tree entry, enables its path guards and transfers to its target (R275). -/
  | btree (o : CT)
  /-- CALL: branch that saves the return address in s47 (R271). -/
  | call (o : CJ)
  /-- CALLR: register branch that saves the return address in s47 (R271). -/
  | callr (o : CR)
  /-- RET: branch to the address in s47 (R271). -/
  | ret
  /-- LEND: closes a hardware loop, decrementing the count and rotating a staged loop (R278). -/
  | lend (o : CL)
  /-- LREP: starts a loop-buffer replay of the following block (R281). -/
  | lrep (o : CT)
  /-- LEXIT: ends a replay after its own bundle (R282). -/
  | lexit
  /-- END: the task's final bundle (R272). -/
  | endTask
  /-- TRAP: ends the task at once as an abort with reason 0x0400 plus n (R273). -/
  | trap (o : CT)
  /-- FMTW: replaces selected fields of fmt (R283). -/
  | fmtw (o : CF)
  /-- FENCE: orders the context's later accesses at a scope (R284). -/
  | fence (o : CW)
  /-- AWAIT: waits until a word reaches a value, then acquires (R285). -/
  | await (o : CW)
  /-- WAITA: waits until a word differs from a value, then acquires (R285). -/
  | waita (o : CW)
  /-- TWAIT: parks a dynamic-mode context until a tick (R287). -/
  | twait (o : CW)
  /-- MARK: annotation with no architectural effect (R288). -/
  | mark (o : CT)
  /-- ADD: scalar add modulo 2^64 (R289). -/
  | add (o : S3)
  /-- SUB: scalar subtract (R289). -/
  | sub (o : S3)
  /-- MUL: low 64 bits of a product (R289). -/
  | mul (o : S3)
  /-- MULH: high 64 bits of a signed product (R289). -/
  | mulh (o : S3)
  /-- MULHN: high 64 bits of an unsigned product (R289). -/
  | mulhn (o : S3)
  /-- DIV: signed division with defined exceptional results (R290). -/
  | div (o : S3)
  /-- DIVN: unsigned division (R290). -/
  | divn (o : S3)
  /-- REM: signed remainder (R290). -/
  | rem (o : S3)
  /-- REMN: unsigned remainder (R290). -/
  | remn (o : S3)
  /-- AND: bitwise and (R289). -/
  | and (o : S3)
  /-- OR: bitwise or (R289). -/
  | or (o : S3)
  /-- XOR: bitwise exclusive or (R289). -/
  | xor (o : S3)
  /-- ANDN: a and not b (R289). -/
  | andn (o : S3)
  /-- SHL: logical left shift (R289). -/
  | shl (o : S3)
  /-- SHR: logical right shift (R289). -/
  | shr (o : S3)
  /-- SAR: arithmetic right shift (R289). -/
  | sar (o : S3)
  /-- ROTL: rotate left (R289). -/
  | rotl (o : S3)
  /-- CLZ: count leading zeros (R289). -/
  | clz (o : S3)
  /-- POPC: count set bits (R289). -/
  | popc (o : S3)
  /-- MIN: signed minimum (R289). -/
  | min (o : S3)
  /-- MAX: signed maximum (R289). -/
  | max (o : S3)
  /-- MINN: unsigned minimum (R289). -/
  | minn (o : S3)
  /-- MAXN: unsigned maximum (R289). -/
  | maxn (o : S3)
  /-- EXT: sign or zero extension from a narrower width (R292). -/
  | ext (o : SX)
  /-- CMPEQ: compare equal into a predicate pair (R291). -/
  | cmpeq (o : SP)
  /-- CMPNE: compare not equal (R291). -/
  | cmpne (o : SP)
  /-- CMPLT: signed less than (R291). -/
  | cmplt (o : SP)
  /-- CMPLTN: unsigned less than (R291). -/
  | cmpltn (o : SP)
  /-- CMPLE: signed less or equal (R291). -/
  | cmple (o : SP)
  /-- CMPLEN: unsigned less or equal (R291). -/
  | cmplen (o : SP)
  /-- SEL: a when the predicate is true, otherwise 0 (R292). -/
  | sel (o : SS)
  /-- ADDI: add a signed 8-bit immediate (R292). -/
  | addi (o : SI)
  /-- MOVI: load a sign-extended 14-bit immediate (R292). -/
  | movi (o : SM)
  /-- MOVHI: shift left 14 and insert an immediate (R292). -/
  | movhi (o : SM)
  /-- PLOG: predicate logic by truth table (R292). -/
  | plog (o : SQ)
  /-- SRD: reads a selected special value (R293). -/
  | srd (o : SV)
  /-- LSET: sets a loop count register (R277). -/
  | lset (o : AL)
  /-- KSET: sets a k register (R295). -/
  | kset (o : AK)
  /-- KADD: adds to a k register (R295). -/
  | kadd (o : AK)
  /-- KGET: reads a k register into a scalar (R295). -/
  | kget (o : AK)
  /-- AADD: address add (R294). -/
  | aadd (o : S3)
  /-- ASUB: address subtract (R294). -/
  | asub (o : S3)
  /-- AADDI: address add of an immediate (R294). -/
  | aaddi (o : SI)
  /-- AMOV: address move (R294). -/
  | amov (o : S3)
  /-- AIDX: add of a slice index scaled by 256 (R294). -/
  | aidx (o : S3)
  /-- AWRAP: one wrap step of a ring pointer (R294). -/
  | awrap (o : S3)
  /-- SHF: writes a field of a shape register's shadow (R296). -/
  | shf (o : AH)
  /-- SHCP: copies a shape register's live value into its shadow (R296). -/
  | shcp (o : AH)
  /-- NTQ: requests the next tile of a tile space (R297). -/
  | ntq (o : AN)
  /-- RRBW: writes the rotating base (R279). -/
  | rrbw (o : AN)
  /-- PSTG: starts a staged loop (R279). -/
  | pstg (o : AN)
  /-- LCNT: sets a replay count (R280). -/
  | lcnt (o : AK)
  /-- LREPT: writes a replay delta table entry (R280). -/
  | lrept (o : AK)
  /-- VADD: vector add (R306). -/
  | vadd (u : VUnit) (o : V3)
  /-- VSUB: vector subtract (R306). -/
  | vsub (u : VUnit) (o : V3)
  /-- VMUL: vector float multiply (R306). -/
  | vmul (u : VUnit) (o : V3)
  /-- VFMA: fused multiply-add (R306). -/
  | vfma (u : VUnit) (o : V3)
  /-- VFMS: fused multiply-subtract (R306). -/
  | vfms (u : VUnit) (o : V3)
  /-- VFNMA: d minus a times b, rounded once (R306). -/
  | vfnma (u : VUnit) (o : V3)
  /-- VMIN: vector minimum (R307). -/
  | vmin (u : VUnit) (o : V3)
  /-- VMAX: vector maximum (R307). -/
  | vmax (u : VUnit) (o : V3)
  /-- VABS: absolute value (R307). -/
  | vabs (u : VUnit) (o : V3)
  /-- VNEG: negation (R307). -/
  | vneg (u : VUnit) (o : V3)
  /-- VRCP: reciprocal (R306). -/
  | vrcp (u : VUnit) (o : V3)
  /-- VRSQ: reciprocal square root (R306). -/
  | vrsq (u : VUnit) (o : V3)
  /-- VSQRT: square root (R306). -/
  | vsqrt (u : VUnit) (o : V3)
  /-- VEXP2: power of two (R306). -/
  | vexp2 (u : VUnit) (o : V3)
  /-- VLOG2: base-2 logarithm (R306). -/
  | vlog2 (u : VUnit) (o : V3)
  /-- VCVT: element conversion of equal width (R313). -/
  | vcvt (u : VUnit) (o : VC)
  /-- VCMPEQ: element compare equal (R309). -/
  | vcmpeq (u : VUnit) (o : V3)
  /-- VCMPLT: element compare less than (R309). -/
  | vcmplt (u : VUnit) (o : V3)
  /-- VCMPLE: element compare less or equal (R309). -/
  | vcmple (u : VUnit) (o : V3)
  /-- VCMPUN: element unordered compare (R309). -/
  | vcmpun (u : VUnit) (o : V3)
  /-- VSEL: selects elements by the mask in d (R309). -/
  | vsel (u : VUnit) (o : V3)
  /-- VAND: bitwise and (R308). -/
  | vand (u : VUnit) (o : V3)
  /-- VOR: bitwise or (R308). -/
  | vor (u : VUnit) (o : V3)
  /-- VXOR: bitwise exclusive or (R308). -/
  | vxor (u : VUnit) (o : V3)
  /-- VSHL: element left shift (R308). -/
  | vshl (u : VUnit) (o : V3)
  /-- VSHR: element logical right shift (R308). -/
  | vshr (u : VUnit) (o : V3)
  /-- VSAR: element arithmetic right shift (R308). -/
  | vsar (u : VUnit) (o : V3)
  /-- VADDS: saturating add (R308). -/
  | vadds (u : VUnit) (o : V3)
  /-- VSUBS: saturating subtract (R308). -/
  | vsubs (u : VUnit) (o : V3)
  /-- VMULLO: low bits of an integer product (R308). -/
  | vmullo (u : VUnit) (o : V3)
  /-- VDOT: saturating 4-element dot product per lane (R310). -/
  | vdot (u : VUnit) (o : V3)
  /-- VDOTA: saturating dot product that accumulates onto d (R310). -/
  | vdota (u : VUnit) (o : V3)
  /-- VRSUM: sum reduction within each lane group (R311). -/
  | vrsum (u : VUnit) (o : V3)
  /-- VRMAX: max reduction within each lane group (R311). -/
  | vrmax (u : VUnit) (o : V3)
  /-- VRMIN: min reduction within each lane group (R311). -/
  | vrmin (u : VUnit) (o : V3)
  /-- VBCAST: broadcasts a scalar (R315). -/
  | vbcast (u : VUnit) (o : VS)
  /-- VMOVI: broadcasts an immediate (R315). -/
  | vmovi (u : VUnit) (o : VI)
  /-- VMOV: vector copy (R315). -/
  | vmov (u : VUnit) (o : V3)
  /-- VIDX: writes the element index plus an immediate (R315). -/
  | vidx (u : VUnit) (o : VI)
  /-- VCLZ: element leading zeros (R308). -/
  | vclz (u : VUnit) (o : V3)
  /-- VPOPC: element set bits (R308). -/
  | vpopc (u : VUnit) (o : V3)
  /-- VROUND: round to an integral value (R306). -/
  | vround (u : VUnit) (o : V3)
  /-- VCLAMP: clamps d between a and b (R307). -/
  | vclamp (u : VUnit) (o : V3)
  /-- VPERM: in-group permute by the indices in d (R316). -/
  | vperm (o : VX)
  /-- VXGRP: moves lanes between lane groups (R316). -/
  | vxgrp (o : VX)
  /-- VSHUF: fixed in-group shuffle (R316). -/
  | vshuf (o : VX)
  /-- VPACK: narrowing conversion of several registers into one (R314). -/
  | vpack (o : VC)
  /-- VUNPK: widening conversion of one register into several (R314). -/
  | vunpk (o : VC)
  /-- QRD: reads half an accumulator tile into a vector register (R317). -/
  | qrd (o : VQ)
  /-- SFEED: feeds 128 logits to the sampler for a sequence slot (R369). -/
  | sfeed (o : VF)
  /-- CMUL: cube operation accumulating onto the destination tile (R327). -/
  | cmul (o : MC)
  /-- CMULC: cube operation starting from zero (R327). -/
  | cmulc (o : MC)
  /-- CMULQ: grouped quantised cube operation (R327). -/
  | cmulq (o : MC)
  /-- CMULI: integer cube operation (R327). -/
  | cmuli (o : MC)
  /-- CMULA: approximate cube operation with threshold refinement (R238). -/
  | cmula (o : MC)
  /-- QWR: writes a vector into half an accumulator tile (R331). -/
  | qwr (o : MW)
  /-- QCLR: clears the masked tiles of a bank (R331). -/
  | qclr (o : MK)
  /-- QMOV: copies one tile to another (R331). -/
  | qmov (o : MT)
  /-- QADD: adds one tile into another as FP32 (R331). -/
  | qadd (o : MT)
  /-- QFILL: fills a tile with a scalar (R331). -/
  | qfill (o : MF)
  /-- QSAVE: stores a tile to scratchpad (R331). -/
  | qsave (o : MF)
  /-- QLOAD: loads a tile from scratchpad (R331). -/
  | qload (o : MF)
  /-- QTHR: sets the cube threshold and its kind (R331). -/
  | qthr (o : MH)
  /-- LDS: scratchpad scalar load (R341). -/
  | lds (o : LS)
  /-- STS: scratchpad scalar store (R341). -/
  | sts (o : LS)
  /-- LDSV: scratchpad vector load (R341). -/
  | ldsv (o : LV)
  /-- STSV: scratchpad vector store (R341). -/
  | stsv (o : LV)
  /-- LDG: global scalar load (R342). -/
  | ldg (o : LS)
  /-- STG: global scalar store (R342). -/
  | stg (o : LS)
  /-- LDGV: global vector load (R342). -/
  | ldgv (o : LV)
  /-- STGV: global vector store (R342). -/
  | stgv (o : LV)
  /-- STNT: streaming scalar store (R344). -/
  | stnt (o : LS)
  /-- STNTV: streaming vector store (R344). -/
  | stntv (o : LV)
  /-- LDA: load with acquire at a scope (R343). -/
  | lda (o : LR)
  /-- STL: store with release at a scope (R343). -/
  | stl (o : LR)
  /-- RMWS: scratchpad read-modify-write (R347). -/
  | rmws (o : LA)
  /-- ATOMG: value-returning global atomic (R347). -/
  | atomg (o : LA)
  /-- ATOMN: global atomic that returns no value (R347). -/
  | atomn (o : LA)
  /-- ACQB: acquires the next buffer of a buffer ring (R348). -/
  | acqb (o : LB)
  /-- RELB: frees the oldest buffer of a buffer ring (R348). -/
  | relb (o : LB)
  /-- LDP: loads the physical predicates from scratchpad (R341). -/
  | ldp (o : LS)
  /-- STP: stores the physical predicates to scratchpad (R341). -/
  | stp (o : LS)
  /-- GATH: scratchpad gather (R341). -/
  | gath (o : LG)
  /-- SCAT: scratchpad scatter (R341). -/
  | scat (o : LG)
  /-- LDK: loads a k register from scratchpad (R341). -/
  | ldk (o : LK)
  /-- PREF: prefetches a line (R345). -/
  | pref (o : LS)
  /-- COPY: issues a copy-engine command (R350). -/
  | copy (o : XE)
  /-- SUBS: starts a rhizoid subscription on a ring (R353). -/
  | subs (o : XE)
  /-- UNSUB: stops a ring's active subscription (R353). -/
  | unsub (o : XE)
  /-- BARA: barrier arrival (R356). -/
  | bara (o : XB)
  /-- BARW: barrier wait (R357). -/
  | barw (o : XB)
  /-- BARAW: barrier arrival, then wait (R356). -/
  | baraw (o : XB)
  /-- FPUT: fabric put from scratchpad (R354). -/
  | fput (o : XE)
  /-- FGET: fabric get into scratchpad (R354). -/
  | fget (o : XE)
  /-- FRED: starts a small-message all-reduce (R355). -/
  | fred (o : XE)
  /-- CMO: cache maintenance of a range (R358). -/
  | cmo (o : XC)
  /-- RPUB: publishes ring slots (R353). -/
  | rpub (o : XE)
  /-- RPOP: pops ring slots (R353). -/
  | rpop (o : XE)
  /-- SMP.BIND: binds a sequence descriptor to a sampler slot (R373). -/
  | smpBind (o : XS)
  /-- SMP.LOAD: loads the shard tables into table memory (R373). -/
  | smpLoad (o : XS)
  /-- SMP.RESET: starts a sampler step (R373). -/
  | smpReset (o : XS)
  /-- SMP.MERGE_OUT: writes a candidate image (R374). -/
  | smpMergeOut (o : XS)
  /-- SMP.MERGE_IN: merges a candidate image into the list (R375). -/
  | smpMergeIn (o : XS)
  /-- SMP.DRAW: draws a token with Philox (R377). -/
  | smpDraw (o : XS)
  /-- SMP.COMMIT: commits a result word's token (R379). -/
  | smpCommit (o : XS)
  /-- SMP.COMMIT_PEND: appends a token to the pending list (R379). -/
  | smpCommitPend (o : XS)
  /-- SMP.COMMIT_SETTLE: settles the first n pending tokens (R379). -/
  | smpCommitSettle (o : XS)
  /-- SMP.GREEDY: returns the best candidate (R377). -/
  | smpGreedy (o : XS)
  /-- SMP.THR: sets the threshold source slot (R371). -/
  | smpThr (o : XS)
  /-- SMP.FLUSH: writes counts back to the count table (R373). -/
  | smpFlush (o : XS)
  /-- BFLIP: flips the batching table's live image (R385). -/
  | bflip
  /-- LGNOP: no operation (R366). -/
  | lgnop
  /-- LGMOV: ed := ea (R366). -/
  | lgmov (d a : BitVec 3)
  /-- LGADD: ed := ea + eb (R366). -/
  | lgadd (d a b : BitVec 3)
  /-- LGSUB: ed := ea − eb (R366). -/
  | lgsub (d a b : BitVec 3)
  /-- LGMUL: ed := ea × eb (R366). -/
  | lgmul (d a b : BitVec 3)
  /-- LGFMA: ed := ea × eb + ed (R366). -/
  | lgfma (d a b : BitVec 3)
  /-- LGMIN: minimumNumber (R366). -/
  | lgmin (d a b : BitVec 3)
  /-- LGMAX: maximumNumber (R366). -/
  | lgmax (d a b : BitVec 3)
  /-- LGNEG: inverts the sign (R366). -/
  | lgneg (d a : BitVec 3)
  /-- LGRCP: reciprocal (R366). -/
  | lgrcp (d a : BitVec 3)
  /-- LGCST: loads a constant (R366). -/
  | lgcst (d c : BitVec 3)
  /-- LGIMM: loads a signed immediate (R366). -/
  | lgimm (d : BitVec 3) (imm : BitVec 8)
  /-- LGCNT: token count plus pending occurrences (R366). -/
  | lgcnt (d : BitVec 3)
  /-- LGBIAS: token bias (R366). -/
  | lgbias (d : BitVec 3)
  /-- LGBAN: 1.0 when the token is banned (R366). -/
  | lgban (d : BitVec 3)
  /-- LGTOK: token number as FP32 (R366). -/
  | lgtok (d : BitVec 3)
  /-- LGSEL: selects by F (R366). -/
  | lgsel (d a b : BitVec 3)
  /-- LGCGT: F := ea > eb (R366). -/
  | lgcgt (a b : BitVec 3)
  /-- LGCGE: F := ea ≥ eb (R366). -/
  | lgcge (a b : BitVec 3)
  /-- LGCEQ: F := ea = eb (R366). -/
  | lgceq (a b : BitVec 3)
  /-- LGKEEP: K := K and F (R366). -/
  | lgkeep
  /-- LGDROP: K := K and not F (R366). -/
  | lgdrop
  /-- LGMAXV: value of the best merged candidate (R366). -/
  | lgmaxv (d : BitVec 3)
  /-- LGOUT: emits the element value and ends the phase (R366). -/
  | lgout (a : BitVec 3)
  /-- REGISTER_WRITE: A write to a control register that has no row of its own stores, ignores, clears or sets fields under its access codes, or is refused as a partition fault (R8). -/
  | registerWrite (f : Fn) (c : Csr) (i : Nat) (v : BitVec 128)
  /-- LANE_GROUP_LOSS: loss of one lane group of the pair link halves its bandwidth and sets PLDEG (R23). -/
  | laneGroupLoss (pr g : Fin 2)
  /-- PAIR_LINK_LOSS: both lane groups of the pair link are lost. Both dies set PLLOSS and report machine check 0x36, and heartbeats move to the relay (R23). -/
  | pairLinkLoss (pr : Fin 2)
  /-- CROSS_LINK_LOSS: loss of a cross link raises machine check 0x39, and later accesses across it end as cause 0x31 (R212). -/
  | crossLinkLoss (a b : Die)
  /-- COMMIT_HEARTBEAT: the partner receives a home die's commit heartbeat for a period, frees its chunk and acknowledges on both lane groups (R129). -/
  | commitHeartbeat (d : Die) (h : Heartbeat)
  /-- HEARTBEAT_ACK: the home die receives the partner's acknowledgement of a heartbeat (R22). -/
  | heartbeatAck (d : Die) (stream period : Nat)
  /-- HEARTBEAT_RELAY: A die of the other pair forwards a heartbeat, an acknowledgement or a level change between the dies of a pair whose link is lost (R23). -/
  | heartbeatRelay (via dst : Die) (m : PairMsg)
  /-- LEVEL_CHANGE_MESSAGE: A die receives a level change decided by the other die of a shadowed session and applies it from the decision tick plus 8,000 (R128). -/
  | levelChangeMessage (d : Die) (session : Fin 256) (level : Fin 4) (tick : Nat)
  /-- CHECK_TICK: the partner's check tick for a shadowed period arrives, and the partner decides on its chunk, a divergence or a take-over (R129). -/
  | checkTick (d : Die) (stream period : Nat)
  /-- THERMAL_SAMPLE: every 10 µs the die compares its highest junction temperature with the thresholds and changes its thermal state (R26). -/
  | thermalSample (d : Die) (temp : Nat)
  /-- FREEZE_TIMEOUT: A freeze that reaches 400 µs trips the die (R26). -/
  | freezeTimeout (d : Die)
  /-- DIE_STOP_DETECT: surviving dies detect a stopped die. The lowest-numbered survivor reports it, and shadowed streams pass to the partner (R213). -/
  | dieStopDetect (d : Die)
  /-- CLUSTER_GATE: an idle cluster whose idle time reaches GATEIDLE is gated, and its dirty L1 sectors are first written back (R29). -/
  | clusterGate (c : Cluster)
  /-- WAKE_COMPLETE: the wake ends and the cluster accepts its first launch (R30). -/
  | wakeComplete (c : Cluster)
  /-- LINK_TRAINING_DONE: link training ends, and the port comes up or stays down after the slot-map ingress test (R36). -/
  | linkTrainingDone (p : Port) (partner : Bool) (map : List (BitVec 8))
  /-- RETRAIN: A write of 1 to FAB_PORT_CTL.RETRAIN starts training of a port (R53). -/
  | retrain (f : Fn) (p : Port) (v : BitVec 64)
  /-- FAB_FRAME_BOUNDARY: A 2 µs fabric frame begins, and ports that went down or rejoined are updated in the route masks (R34). -/
  | fabFrameBoundary
  /-- FAB_SLOT: A fabric slot begins and carries its owner's flits, or else bulk and system flits (R35). -/
  | fabSlot (p : Port)
  /-- FLIT_RECEIVE: A port receives a flit whole. A CRC failure discards it and requests a replay (R33). -/
  | flitReceive (p : Port) (crcOk : Bool) (fl : Flit)
  /-- REPLAY_REQUEST: A sender receives a replay request and resends the flit and all later flits (R52). -/
  | replayRequest (p : Port) (flit : Nat)
  /-- LANE_LOCK_LOSS: A port loses lane lock, goes down and retrains (R53). -/
  | laneLockLoss (p : Port)
  /-- RETRAIN_COMPLETE: retraining succeeds or fails, and accesses sent on the port are replayed elsewhere (R53). -/
  | retrainComplete (p : Port) (map : Option (List (BitVec 8)))
  /-- FAB_ACCESS_ARRIVE: A remote access arrives at the target module and is performed or refused by the window check (R42). -/
  | fabAccessArrive (a : RemoteAccess)
  /-- FAB_RESPONSE: A response reaches the requester. It completes the access, frees its entry and lowers pending-byte counts (R46). -/
  | fabResponse (id : Nat) (st : RespStatus) (data : List Byte)
  /-- FAB_TIMEOUT: A remote access exceeds FAB_TMO and ends with machine check 0x32 (R48). -/
  | fabTimeout (id : Nat)
  /-- FAB_BARRIER_ARRIVAL: A barrier-tree instance receives a child's arrival and forwards when all have arrived and the count is zero (R47). -/
  | fabBarrierArrival (bar : Fin 256) (child : Fin 64)
  /-- FAB_BARRIER_RELEASE: A barrier release arrives from the parent and is forwarded to the children (R47). -/
  | fabBarrierRelease (bar : Fin 256)
  /-- ALLREDUCE_CONTRIBUTION: A tree level receives an all-reduce contribution and combines it in fixed order (R50). -/
  | allreduceContribution (bar : Fin 256) (level : Fin 4) (die : Die) (src : Nat) (data : List Byte)
  /-- ALLREDUCE_RESULT: the broadcast all-reduce result lands at DST, followed by the barrier's release (R50). -/
  | allreduceResult (bar : Fin 256) (data : List Byte)
  /-- FAB_WIN_WRITE: A write to an export window checks alignment and size, and leaves the window disabled with ERR set on failure (R43). -/
  | fabWinWrite (f : Fn) (w : Fin 64) (v : BitVec 128)
  /-- BWS_FAB_IN_WRITE: A write to a fabric-ingress reservation is ignored with ERR set when it would exceed the class count (R37). -/
  | bwsFabInWrite (f : Fn) (n : Fin 128) (v : BitVec 64)
  /-- SENSOR_TOKEN: an endpoint receives a message whole, matches it to a ring, checks its header and writes it into the ring's next slot (R59). -/
  | sensorToken (d : Die) (m : SensorMsg)
  /-- UNSUPPORTED_REQUEST: A packet that asks for an unsupported part of UET receives the unsupported error response (R56). -/
  | unsupportedRequest (d : Die) (source : Nat)
  /-- UUD_TIMEOUT: A UUD message not complete within 10 µs of its first packet is discarded and counted in BADHDR (R60). -/
  | uudTimeout (d : Die) (ring : Fin 512)
  /-- RING_PUBLISH: with the message written (and its partner copy for a shadowed ring), the endpoint writes the publish word and releases one task (R61). -/
  | ringPublish (d : Die) (w : RingPut)
  /-- ACTION_CHUNK: the endpoint fills the chunk header and sends the committed chunk as one send (R65). -/
  | actionChunk (d : Die) (task : Nat)
  /-- CKPT_GO: A write of 1 to UEE_CKPT_CTL.GO starts or resumes the checkpoint engine (R67). -/
  | ckptGo (f : Fn) (d : Die) (v : BitVec 64)
  /-- CKPT_DONE: the target acknowledges the last byte, and the engine writes DONEVAL to DONE (R67). -/
  | ckptDone (d : Die)
  /-- CKPT_FAULT: A translation fault or target failure stops the checkpoint engine at a sector and records the resume address (R68). -/
  | ckptFault (d : Die) (sector : Nat)
  /-- PTP_MESSAGE: the PTP clock receives a timestamped timing message (R70). -/
  | ptpMessage (m : PtpMsg)
  /-- PTP_SECOND_BOUNDARY: at a PTP second boundary the clock latches S and T, applies a servo correction to INCR and any pending step (R73). -/
  | ptpSecondBoundary
  /-- LOCKWAIT_EXPIRE: no master within LOCKWAIT leaves the clock in Free-run (R71). -/
  | lockwaitExpire
  /-- HOLDMAX_EXPIRE: HOLDMAX seconds of holdover raise ALARM (R71). -/
  | holdmaxExpire
  /-- MASTER_LOST: loss of the master puts the clock in Holdover with INCR frozen (R71). -/
  | masterLost
  /-- ETH_LINK_DOWN: an Ethernet port's link goes down, and timing messages move to the backup port (R70). -/
  | ethLinkDown (p : EthPort)
  /-- PTC_STEP: A write of PTC_CTL.STEP steps device time at the next boundary, or is ignored with STEPREF set (R71). -/
  | ptcStep (f : Fn) (v : BitVec 64)
  /-- PTC_TIME_LO_READ: A read of PTC_TIME_LO latches device time and tick for the reading function (R74). -/
  | ptcTimeLoRead (f : Fn)
  /-- LAUNCH_PUSH: the host pushes a 64-byte launch block, which is queued, dropped, or checked and released (R84). -/
  | launchPush (f : Fn) (d : Die) (block : Option (BitVec 512))
  /-- HOST_SIGNAL: A host write to a signal window stores 8 bytes into the bound scratchpad word, or is dropped (R88). -/
  | hostSignal (f : Fn) (i : Fin 64) (v : Word)
  /-- SIGNAL_DEFERRED_STORE: A signal that arrived during a hold or freeze performs at the first tick after it ends (R88). -/
  | signalDeferredStore (core : Core) (ctx : Fin 8)
  /-- PRT_OWNERSHIP_WRITE: A write to PRT_CLUSTERS or PRT_LLC_WAYS reassigns resources or is ignored with CFGERR set, and removal starts a scrub (R81). -/
  | prtOwnershipWrite (f : Fn) (ways : Bool) (p : Part) (v : BitVec 128)
  /-- PRT_SCRUB_DONE: the scrub of a removed resource completes and BUSY clears (R81). -/
  | prtScrubDone (p : Part)
  /-- VF_FLR: A function level reset of a virtual function triggers a partition reset (R89). -/
  | vfFlr (p : Part)
  /-- PRT_RESET_GO: A write of 1 to PRT_RESET.GO triggers a partition reset (R89). -/
  | prtResetGo (f : Fn) (p : Part) (v : BitVec 64)
  /-- PF_FLR: A function level reset of the PF resets every partition and then the interface (R89). -/
  | pfFlr
  /-- RESET_STOP: the stop phase stops contexts, copies and fabric accesses of the partition (R90). -/
  | resetStop (p : Part)
  /-- RESET_SCRUB: the scrub phase zeroes the partition's state and invalidates its cached lines and translations (R90). -/
  | resetScrub (p : Part)
  /-- RESET_RELEASE: the release phase returns occupancies, clears RST and sends vector 0 (R90). -/
  | resetRelease (p : Part)
  /-- POWER_ON_RESET: power-on reset starts the measured start on every die, which reads the journal and sets its marks (R94). -/
  | powerOnReset
  /-- START_STEP_PASS: A start step completes and Pass is written, and a die that finishes step 10 reports Ready (R94). -/
  | startStepPass (d : Die) (step : Fin 11)
  /-- START_STEP_FAIL: A step fails and Fail is written. The module restarts with BOOT incremented, or enters recovery or halts (R96). -/
  | startStepFail (d : Die) (code : BitVec 16)
  /-- START_STEP_TIMEOUT: A start step exceeds its timeout and Fail is written with CODE 0xFFFF (R96). -/
  | startStepTimeout (d : Die)
  /-- SJ_RESTART: A write of SJ_CTL.RESTART restarts the module from step 0 (R98). -/
  | sjRestart (f : Fn) (v : BitVec 64)
  /-- SJ_CLEAR: A write of SJ_CTL.CLEAR clears every mark at the next start (R97). -/
  | sjClear (f : Fn) (v : BitVec 64)
  /-- SJ_IMG_GO: A write of SJ_IMG_CTL.GO starts writing an image into a slot (R98). -/
  | sjImgGo (f : Fn) (v : BitVec 64)
  /-- SJ_IMG_DONE: the image write ends with STATE Done or Error (R98). -/
  | sjImgDone (ok : Bool)
  /-- ATT_GO: A write of PRT_ATT_CTL.GO starts an attestation report (R99). -/
  | attGo (f : Fn) (p : Part) (v : BitVec 64)
  /-- ATT_REPORT: the signed report is written to DEST with STATE Done and vector 6 (R99). -/
  | attReport (p : Part)
  /-- SPDM_REQUEST: the PF obtains certificates and measurements through an SPDM request over DOE (R99). -/
  | spdmRequest (f : Fn)
  /-- SNP_TRIG: A write of SNP_CTL.TRIG triggers a snapshot (R100). -/
  | snpTrig (f : Fn) (v : BitVec 64)
  /-- SNAP_IN_EDGE: A rising edge on SNAP_IN while PIN is 1 triggers a snapshot (R100). -/
  | snapInEdge
  /-- SNP_LATCH: at trigger plus 64 ticks every block latches its state and SNAP_OUT goes high (R100). -/
  | snpLatch
  /-- SNAP_OUT_END: SNAP_OUT returns low 64 ticks after the latch (R100). -/
  | snapOutEnd
  /-- SNP_ARM: writing ARM to 1 discards any snapshot and returns STATE to Armed (R102). -/
  | snpArm (f : Fn) (v : BitVec 64)
  /-- STREAM_REGISTER: A GO with OP 1 starts the admission of a stream descriptor (R107). -/
  | streamRegister (f : Fn) (d : Die) (p : Part) (v : BitVec 128)
  /-- ADMISSION_COMPLETE: the admission unit ends its tests and sets Done with stream and level, or Refused with a reason (R114). -/
  | admissionComplete (d : Die)
  /-- STREAM_DEREGISTER: A GO with OP 2 withdraws a stream's tasks and frees its reservations (R107). -/
  | streamDeregister (f : Fn) (d : Die) (p : Part) (v : BitVec 128)
  /-- TIMER_RELEASE: A stream timer expires at PHASE plus n times PERIOD and releases a task (R106). -/
  | timerRelease (d : Die) (stream : Fin 1024)
  /-- TASK_READY: the tick reaches r and the task enters its group's ready order (R126). -/
  | taskReady (t : Nat)
  /-- TASK_LAUNCH: the launch path ends and the task's first bundle issues. A system or bulk launch may be refused instead (R87). -/
  | taskLaunch (t : Nat)
  /-- DEADLINE_ABORT: A fast or slow task that has not committed at d_abort is aborted with reason 0x0201 (R123). -/
  | deadlineAbort (t : Nat)
  /-- HOLD_BUDGET_EXHAUSTED: A hold exhausts the task's budget, and the task takes a timing fault and is aborted (R177). -/
  | holdBudgetExhausted (t : Nat)
  /-- TASK_COMMIT: the final bundle's results have landed. The task hands off its chunk, sends its heartbeat, appends its record and writes its status (R124). -/
  | taskCommit (t : Nat)
  /-- DLS_SES_FLOOR_WRITE: A write of FLOOR above the current level raises the session to FLOOR (R128). -/
  | dlsSesFloorWrite (f : Fn) (d : Die) (session : Fin 256) (v : BitVec 64)
  /-- ADM_GRP_WRITE: A write to a placement group is ignored with ERR set when groups would overlap or the group holds an admitted stream (R109). -/
  | admGrpWrite (f : Fn) (d : Die) (g : Fin 96) (v : BitVec 64)
  /-- BWS_FRAME_CFG_WRITE: A write to a stack's class slot counts is ignored with ERR set when it breaks the limits (R115). -/
  | bwsFrameCfgWrite (f : Fn) (j : Stack) (v : BitVec 64)
  /-- BWS_FRAME_BOUNDARY: A 2 µs HBM bandwidth frame begins on a stack (R115). -/
  | bwsFrameBoundary (j : Stack)
  /-- BWS_SLOT: an HBM bandwidth slot begins and serves its owner or the fallback order (R115). -/
  | bwsSlot (j : Stack)
  /-- PRT_MEM_OWN_WRITE: A write to a memory block owner starts the invalidation, or is ignored with ERR set while a locked translation maps into the block (R135). -/
  | prtMemOwnWrite (f : Fn) (b : Fin 512) (v : BitVec 64)
  /-- PRT_MEM_OWN_DONE: the invalidation ends and the new owner takes effect (R135). -/
  | prtMemOwnDone (b : Fin 512)
  /-- PRT_LOCK: writing EN 1 to PRT_LOCK starts walking the range to lock it (R150). -/
  | prtLock (f : Fn) (d : Die) (p i : Fin 16) (v : BitVec 128)
  /-- PRT_LOCK_DONE: the lock walk ends with STATE Locked or Refused (R150). -/
  | prtLockDone (d : Die) (p i : Fin 16)
  /-- PRT_UNLOCK: writing EN 0 unlocks the range, or is ignored with ERR set when a fast kernel image or an enabled ring lies in it (R151). -/
  | prtUnlock (f : Fn) (d : Die) (p i : Fin 16) (v : BitVec 128)
  /-- TLBI: A GO to PRT_TLBI starts invalidating cached translations of a range (R148). -/
  | tlbi (f : Fn) (p : Part) (v : BitVec 128)
  /-- TLBI_DONE: the invalidation completes and STATE becomes Done (R148). -/
  | tlbiDone (p : Part)
  /-- TABLE_WALK_DONE: A table walk returns a translation or a fault, and its miss entry goes to the next queued miss (R147). -/
  | tableWalkDone (d : Die) (walk : Nat)
  /-- L1_MODE_WRITE: A write of FUSED starts the clean and invalidation of the cluster's L1s, or is ignored with ERR set (R141). -/
  | l1ModeWrite (f : Fn) (c : Cluster) (v : BitVec 64)
  /-- L1_MODE_DONE: the L1 clean ends and the cluster's L1 mode changes (R141). -/
  | l1ModeDone (c : Cluster)
  /-- LOAD_DATA_LAND: the data of a missing global load arrives and lands, ending the hold or blocking switch (R343). -/
  | loadDataLand (load : Nat)
  /-- RHIZOID_TILE: A rhizoid serves one tile of a subscription, advances the pointer and writes the publish word (R154). -/
  | rhizoidTile (j : Stack) (sub : Nat)
  /-- SUBSCRIPTION_GRANT: A subscription entry freed on a stack is granted to the waiting subscribe of earliest d_ord (R155). -/
  | subscriptionGrant (j : Stack)
  /-- ATOMIC_GROUP: the group of atomics to one word in one 256-tick interval performs as one unit in logical-key order (R164). -/
  | atomicGroup (word : Nat) (interval : Nat)
  /-- WCB_DRAIN: A write-combining buffer drains its written bytes to the memory side (R344). -/
  | wcbDrain (core : Core) (buf : Fin 16)
  /-- BUNDLE_SEND: the CCC checks hold conditions and decode, then sends the next bundle of the team, or holds or switches (R176). -/
  | bundleSend (t : Nat)
  /-- EMPTY_BUNDLE: an empty bundle counted in a header, or a header with MASK 0, issues as one cycle of nothing (R244). -/
  | emptyBundle (t : Nat)
  /-- HOLD_END: the CCC sees a hold condition cleared and sends the held bundle on the next tick (R176). -/
  | holdEnd (t : Nat)
  /-- CONTEXT_ELIGIBLE: the last exposed write of a yielded or blocked context lands and the context becomes eligible (R172). -/
  | contextEligible (t : Nat)
  /-- ICACHE_FILL: an instruction-cache line fill completes, ending a fetch hold (R174). -/
  | icacheFill (c : Cluster) (part : Part) (line : Nat)
  /-- WRITE_LANDING: an issued write to a register, bypass, scratchpad, ring or bank lands at its landing offset, with its flags (R12). -/
  | writeLanding (core : Core) (ctx : Fin 8) (cyc : Nat) (ph : LandPhase)
  /-- DRAIN_END: the drain completes and the task is Parked or Evicted (R204). -/
  | drainEnd (t : Nat)
  /-- RESTORE: A parked or evicted task heads its group again and loads its record and runs its re-entry sequence (R205). -/
  | restore (t : Nat)
  /-- SVC_RESUME: A service answer RESUME makes the parked task eligible again or restarts the engine at RESUMEAT (R199). -/
  | svcResume (f : Fn) (d : Die) (p : Part) (v : BitVec 64)
  /-- SVC_ABORT: A service answer ABORT raises the offered fault on the task (R199). -/
  | svcAbort (f : Fn) (d : Die) (p : Part) (v : BitVec 64)
  /-- DST_SVC_CFG_WRITE: A write to the service queue configuration. Clearing EN raises every fault still awaiting an answer (R214). -/
  | dstSvcCfgWrite (f : Fn) (d : Die) (p : Part) (v : BitVec 128)
  /-- DST_SAVE_BASE_WRITE: A write to the save area sets EN only if the area is Locked, and is ignored while a context is Evicted (R214). -/
  | dstSaveBaseWrite (f : Fn) (d : Die) (p : Part) (v : BitVec 64)
  /-- MACHINE_CHECK: an uncorrectable hardware error is detected and handled by its cause, with PF vector 0 (R212). -/
  | machineCheck (d : Die) (cause : BitVec 8) (target : McTarget)
  /-- CORRECTED_ERROR: A correctable soft error is corrected in place and counted in CE (R212). -/
  | correctedError (d : Die)
  /-- TG_WALK_RESUME: A walk waiting on a successor or on a walk slot continues when it ends or frees (R187). -/
  | tgWalkResume (c : Cluster) (walk : Nat)
  /-- SISTER_REPORT: A sister die's placement report reaches the launching die, which sets the common start tick when all have arrived (R181). -/
  | sisterReport (launch : Nat) (rank : Fin 4) (ok : Bool)
  /-- RPL_ARM: A write of ARM to CCC_RPL_CTL walks the capture and result ranges and arms a replay measurement (R189). -/
  | rplArm (f : Fn) (c : Cluster) (v : BitVec 64)
  /-- RPL_PASS_END: A non-final pass of a measured task ends. Caches are reset, captured sectors restored and the next pass started (R189). -/
  | rplPassEnd (t : Nat)
  /-- ECNT_CLR: A PF write of CLR clears a context's energy counter, F and SAT (R192). -/
  | ecntClr (f : Fn) (n : Fin 3072) (v : BitVec 64)
  /-- ENGINE_START: at local cycle START plus D an engine accepts the command, or the team holds until the queue accepts it (R349). -/
  | engineStart (cmd : Nat)
  /-- COPY_SECTOR: A copy engine writes one destination sector whole and lowers the named barrier's pending count, or stops on a fault (R351). -/
  | copySector (cmd : Nat)
  /-- COPY_COMPLETE: in the tick after the last sector the completion word is written and the descriptor and buffer entry are freed (R352). -/
  | copyComplete (cmd : Nat)
  /-- BARRIER_RELEASE: A barrier instance with all participants arrived and a zero count releases its waiters (R357). -/
  | barrierRelease (inst : Nat)
  /-- CMO_COMPLETE: A cache maintenance operation completes or stops at a faulting page (R358). -/
  | cmoComplete (cmd : Nat)
  /-- SAMPLER_OP_BEGIN: the sampler begins its oldest queued operation and reads its inputs (R380). -/
  | samplerOpBegin (core : Core)
  /-- SAMPLER_OP_LAND: after its occupancy the sampler operation's writes land (R380). -/
  | samplerOpLand (core : Core)
  /-- BBT_EDIT: A host edit submitted by GO writes the shadow image and the edit log, or is ignored with ERR set (R384). -/
  | bbtEdit (f : Fn) (d : Die) (p : Part) (v : BitVec 64)
  /-- BFLIP_PERFORM: once earlier edits have performed, the flip word is written with the live index inverted and the generation plus 1 (R385). -/
  | bflipPerform (d : Die) (p : Part)
  /-- BFLIP_REPLAY_DONE: the edit log has been replayed onto the new shadow and cleared (R385). -/
  | bflipReplayDone (d : Die) (p : Part)
  /-- PAIR_LINK_RETURN: the pair link, or a lost lane group of it, comes back, ending the relay and letting a stream be shadowed again once registered (R23). -/
  | pairLinkReturn (pr : Fin 2) (g : Option (Fin 2))
  /-- ETH_LINK_UP: an Ethernet port's link comes up, so the port can carry timing messages and traffic again (R70). -/
  | ethLinkUp (p : EthPort)
  /-- POWER_LOSS: the module loses power, stopping every die, and a Begin without Pass or Fail later counts as Fail (R96). -/
  | powerLoss
  /-- TWAIT_TICK_REACHED: the tick reaches the value a parked TWAIT context waits for, and the context becomes eligible again (R287). -/
  | twaitTickReached (t : Nat)
  /-- DRAIN_BOUND_EXCEEDED: A drain or restore passes the header's DRAIN or RESTORE bound and takes timing fault 0x43 (R204). -/
  | drainBoundExceeded (t : Nat)
  /-- RMA_WRITE_ACKNOWLEDGED: the transport acknowledgement, or error response, of an RMA write of an Ethernet copy arrives, so its sectors count as delivered or the copy ends with cause 0x31 (R351). -/
  | rmaWriteAcknowledged (cmd : Nat) (sectors : Nat) (ok : Bool)
  /-- STORE_ACKNOWLEDGED: the owning die acknowledges a write-through or uncached store once its LLC or stack holds it, which lets waiting module-scope releases and fences perform (R142). -/
  | storeAcknowledged (id : Nat)
  deriving DecidableEq, Repr

end Sys2Proof
end

