-- ==== Sys2Proof/Machine/Csr.lean ====
section
/-! DEFINITION. The control registers' tables: every field with its bits, access code (R8) and reset value (R10), as the register tables of the chapters give them (01 R31, 02 R54, 03 R75, 04 R103, 05 R131, 06 R165, 07 R193, 08 R214, 15 R386). Bits in no field are reserved (R9). A register that each die holds is indexed die-major: die × (registers per die) + index. -/

namespace Sys2Proof.Machine

/-- An access code (R8). -/
inductive Access where
  | ro
  | rw
  | wo
  | w1c
  deriving DecidableEq, Repr

/-- A field of a control register (R7, R8, R10). -/
structure CsrField where
  reg : Csr
  hi : Nat
  lo : Nat
  acc : Access
  reset : Nat
  deriving DecidableEq, Repr

def DLS_PWR_CFG.GATEIDLE : CsrField := ⟨.DLS_PWR_CFG, 47, 32, .rw, 50⟩
def DLS_PWR_CFG.LIMIT : CsrField := ⟨.DLS_PWR_CFG, 11, 0, .rw, 800⟩
def DLS_THERM_STAT.FREEZECNT : CsrField := ⟨.DLS_THERM_STAT, 63, 32, .ro, 0⟩
def DLS_THERM_STAT.PLLOSS : CsrField := ⟨.DLS_THERM_STAT, 17, 17, .w1c, 0⟩
def DLS_THERM_STAT.PLDEG : CsrField := ⟨.DLS_THERM_STAT, 16, 16, .w1c, 0⟩
def DLS_THERM_STAT.STATE : CsrField := ⟨.DLS_THERM_STAT, 15, 14, .ro, 0⟩
def DLS_THERM_STAT.CAPPED : CsrField := ⟨.DLS_THERM_STAT, 13, 13, .ro, 0⟩
def DLS_THERM_STAT.TEMP : CsrField := ⟨.DLS_THERM_STAT, 7, 0, .ro, 0⟩
def FAB_DOM_CFG.TMO : CsrField := ⟨.FAB_DOM_CFG, 63, 32, .rw, 100⟩
def FAB_DOM_CFG.EN : CsrField := ⟨.FAB_DOM_CFG, 15, 15, .rw, 0⟩
def FAB_DOM_CFG.SIZE : CsrField := ⟨.FAB_DOM_CFG, 12, 6, .rw, 1⟩
def FAB_DOM_CFG.MODID : CsrField := ⟨.FAB_DOM_CFG, 5, 0, .rw, 0⟩
def FAB_WIN.SIZE : CsrField := ⟨.FAB_WIN, 107, 88, .rw, 0⟩
def FAB_WIN.BASE : CsrField := ⟨.FAB_WIN, 87, 69, .rw, 0⟩
def FAB_WIN.TAG : CsrField := ⟨.FAB_WIN, 63, 48, .rw, 0⟩
def FAB_WIN.PRT : CsrField := ⟨.FAB_WIN, 7, 4, .rw, 0⟩
def FAB_WIN.ERR : CsrField := ⟨.FAB_WIN, 1, 1, .w1c, 0⟩
def FAB_WIN.EN : CsrField := ⟨.FAB_WIN, 0, 0, .rw, 0⟩
def FAB_SLOT_CFG.PRT : CsrField := ⟨.FAB_SLOT_CFG, 7, 4, .rw, 0⟩
def FAB_SLOT_CFG.CLASS : CsrField := ⟨.FAB_SLOT_CFG, 1, 0, .rw, 2⟩
def FAB_PORT_STAT.REPLAYS : CsrField := ⟨.FAB_PORT_STAT, 63, 32, .ro, 0⟩
def FAB_PORT_STAT.REASON : CsrField := ⟨.FAB_PORT_STAT, 11, 8, .ro, 0⟩
def FAB_PORT_STAT.STATE : CsrField := ⟨.FAB_PORT_STAT, 1, 0, .ro, 0⟩
def FAB_ROUTE.PORTS : CsrField := ⟨.FAB_ROUTE, 35, 0, .rw, 0⟩
def FAB_PTAG.TAG : CsrField := ⟨.FAB_PTAG, 15, 0, .rw, 0⟩
def FAB_BARR_CFG.PARENT : CsrField := ⟨.FAB_BARR_CFG, 21, 16, .rw, 0⟩
def FAB_BARR_CFG.ROOT : CsrField := ⟨.FAB_BARR_CFG, 15, 15, .rw, 1⟩
def FAB_BARR_CFG.CHILDREN : CsrField := ⟨.FAB_BARR_CFG, 7, 0, .rw, 0⟩
def FAB_PORT_CTL.RETRAIN : CsrField := ⟨.FAB_PORT_CTL, 0, 0, .wo, 0⟩
def UEE_MATCH.JOBID : CsrField := ⟨.UEE_MATCH, 63, 40, .rw, 0⟩
def UEE_MATCH.PID : CsrField := ⟨.UEE_MATCH, 39, 28, .rw, 0⟩
def UEE_MATCH.RIDX : CsrField := ⟨.UEE_MATCH, 27, 16, .rw, 0⟩
def UEE_MATCH.PRT : CsrField := ⟨.UEE_MATCH, 15, 12, .rw, 0⟩
def UEE_MATCH.RING : CsrField := ⟨.UEE_MATCH, 9, 1, .rw, 0⟩
def UEE_MATCH.EN : CsrField := ⟨.UEE_MATCH, 0, 0, .rw, 0⟩
def UEE_RXQ_CFG.BASE : CsrField := ⟨.UEE_RXQ_CFG, 127, 79, .rw, 0⟩
def UEE_RXQ_CFG.PUB : CsrField := ⟨.UEE_RXQ_CFG, 78, 25, .rw, 0⟩
def UEE_RXQ_CFG.STREAM : CsrField := ⟨.UEE_RXQ_CFG, 24, 15, .rw, 0⟩
def UEE_RXQ_CFG.PRT : CsrField := ⟨.UEE_RXQ_CFG, 14, 11, .rw, 0⟩
def UEE_RXQ_CFG.SHADOW : CsrField := ⟨.UEE_RXQ_CFG, 10, 10, .rw, 0⟩
def UEE_RXQ_CFG.MODE : CsrField := ⟨.UEE_RXQ_CFG, 9, 8, .rw, 0⟩
def UEE_RXQ_CFG.DEPTH : CsrField := ⟨.UEE_RXQ_CFG, 7, 5, .rw, 1⟩
def UEE_RXQ_CFG.SLOTSZ : CsrField := ⟨.UEE_RXQ_CFG, 4, 1, .rw, 0⟩
def UEE_RXQ_CFG.EN : CsrField := ⟨.UEE_RXQ_CFG, 0, 0, .rw, 0⟩
def UEE_RXQ_STAT.DROPFULL : CsrField := ⟨.UEE_RXQ_STAT, 63, 48, .ro, 0⟩
def UEE_RXQ_STAT.OVERSIZE : CsrField := ⟨.UEE_RXQ_STAT, 47, 32, .ro, 0⟩
def UEE_RXQ_STAT.BADHDR : CsrField := ⟨.UEE_RXQ_STAT, 31, 16, .ro, 0⟩
def UEE_RXQ_STAT.OCC : CsrField := ⟨.UEE_RXQ_STAT, 7, 0, .ro, 0⟩
def UEE_TXQ_CFG.BASE : CsrField := ⟨.UEE_TXQ_CFG, 127, 79, .rw, 0⟩
def UEE_TXQ_CFG.RIDX : CsrField := ⟨.UEE_TXQ_CFG, 78, 67, .rw, 0⟩
def UEE_TXQ_CFG.RXQ : CsrField := ⟨.UEE_TXQ_CFG, 66, 58, .rw, 0⟩
def UEE_TXQ_CFG.STREAM : CsrField := ⟨.UEE_TXQ_CFG, 57, 48, .rw, 0⟩
def UEE_TXQ_CFG.PRT : CsrField := ⟨.UEE_TXQ_CFG, 47, 44, .rw, 0⟩
def UEE_TXQ_CFG.MODE : CsrField := ⟨.UEE_TXQ_CFG, 43, 43, .rw, 0⟩
def UEE_TXQ_CFG.DEPTH : CsrField := ⟨.UEE_TXQ_CFG, 42, 40, .rw, 1⟩
def UEE_TXQ_CFG.SLOTSZ : CsrField := ⟨.UEE_TXQ_CFG, 39, 36, .rw, 0⟩
def UEE_TXQ_CFG.EN : CsrField := ⟨.UEE_TXQ_CFG, 0, 0, .rw, 0⟩
def UEE_CLASS_DSCP.DSCP : CsrField := ⟨.UEE_CLASS_DSCP, 23, 0, .rw, 0⟩
def UEE_DROP_NOMATCH.COUNT : CsrField := ⟨.UEE_DROP_NOMATCH, 31, 0, .ro, 0⟩
def UEE_CKPT_CTL.DESC : CsrField := ⟨.UEE_CKPT_CTL, 63, 6, .rw, 0⟩
def UEE_CKPT_CTL.STATE : CsrField := ⟨.UEE_CKPT_CTL, 5, 4, .ro, 0⟩
def UEE_CKPT_CTL.GO : CsrField := ⟨.UEE_CKPT_CTL, 0, 0, .wo, 0⟩
def UEE_CKPT_RESUME.RESUME : CsrField := ⟨.UEE_CKPT_RESUME, 63, 0, .ro, 0⟩
def PTC_TIME_LO.NS : CsrField := ⟨.PTC_TIME_LO, 31, 0, .ro, 0⟩
def PTC_TIME_HI.NS : CsrField := ⟨.PTC_TIME_HI, 31, 0, .ro, 0⟩
def PTC_LATCH_TICK.TICK : CsrField := ⟨.PTC_LATCH_TICK, 63, 0, .ro, 0⟩
def PTC_EPOCH.SEC : CsrField := ⟨.PTC_EPOCH, 63, 0, .ro, 0⟩
def PTC_INCR.INCR : CsrField := ⟨.PTC_INCR, 63, 0, .ro, 0x400000000000⟩
def PTC_OFFSET.OFS : CsrField := ⟨.PTC_OFFSET, 63, 0, .ro, 0⟩
def PTC_CFG.HOLDMAX : CsrField := ⟨.PTC_CFG, 63, 56, .rw, 30⟩
def PTC_CFG.LOCKWAIT : CsrField := ⟨.PTC_CFG, 55, 48, .rw, 60⟩
def PTC_CFG.OFFMAX : CsrField := ⟨.PTC_CFG, 47, 32, .rw, 1000⟩
def PTC_CFG.BACKUP : CsrField := ⟨.PTC_CFG, 16, 14, .rw, 4⟩
def PTC_CFG.PORT : CsrField := ⟨.PTC_CFG, 13, 11, .rw, 0⟩
def PTC_CFG.TRANSPORT : CsrField := ⟨.PTC_CFG, 10, 9, .rw, 0⟩
def PTC_CFG.PROFILE : CsrField := ⟨.PTC_CFG, 8, 8, .rw, 0⟩
def PTC_CFG.DOMAIN : CsrField := ⟨.PTC_CFG, 7, 0, .rw, 0⟩
def PTC_STAT.TICKRUN : CsrField := ⟨.PTC_STAT, 6, 6, .ro, 0⟩
def PTC_STAT.PRIMARY : CsrField := ⟨.PTC_STAT, 5, 4, .ro, 0⟩
def PTC_STAT.STEPREF : CsrField := ⟨.PTC_STAT, 3, 3, .w1c, 0⟩
def PTC_STAT.ALARM : CsrField := ⟨.PTC_STAT, 2, 2, .w1c, 0⟩
def PTC_STAT.STATE : CsrField := ⟨.PTC_STAT, 1, 0, .ro, 0⟩
def PTC_CTL.STEP : CsrField := ⟨.PTC_CTL, 0, 0, .wo, 0⟩
def PRT_CLUSTERS.MASK : CsrField := ⟨.PRT_CLUSTERS, 47, 0, .rw, 0⟩
def PRT_LLC_WAYS.MASK : CsrField := ⟨.PRT_LLC_WAYS, 127, 0, .rw, 0⟩
def PRT_TT_ROOT.ROOT : CsrField := ⟨.PRT_TT_ROOT, 51, 16, .rw, 0⟩
def PRT_CTL.EN : CsrField := ⟨.PRT_CTL, 0, 0, .rw, 0⟩
def PRT_RESET.GO : CsrField := ⟨.PRT_RESET, 0, 0, .wo, 0⟩
def PRT_STAT.SIGDROP : CsrField := ⟨.PRT_STAT, 4, 4, .w1c, 0⟩
def PRT_STAT.ACCERR : CsrField := ⟨.PRT_STAT, 3, 3, .w1c, 0⟩
def PRT_STAT.CFGERR : CsrField := ⟨.PRT_STAT, 2, 2, .w1c, 0⟩
def PRT_STAT.BUSY : CsrField := ⟨.PRT_STAT, 1, 1, .ro, 0⟩
def PRT_STAT.RST : CsrField := ⟨.PRT_STAT, 0, 0, .ro, 0⟩
def PRT_ATT_NONCE.NONCE : CsrField := ⟨.PRT_ATT_NONCE, 63, 0, .rw, 0⟩
def PRT_ATT_CTL.DEST : CsrField := ⟨.PRT_ATT_CTL, 63, 6, .rw, 0⟩
def PRT_ATT_CTL.STATE : CsrField := ⟨.PRT_ATT_CTL, 2, 1, .ro, 0⟩
def PRT_ATT_CTL.GO : CsrField := ⟨.PRT_ATT_CTL, 0, 0, .wo, 0⟩
def HIF_LQ_CFG.DEPTH : CsrField := ⟨.HIF_LQ_CFG, 7, 4, .rw, 4⟩
def HIF_LQ_CFG.EN : CsrField := ⟨.HIF_LQ_CFG, 0, 0, .rw, 0⟩
def HIF_LQ_STAT.BADPUSH : CsrField := ⟨.HIF_LQ_STAT, 63, 48, .ro, 0⟩
def HIF_LQ_STAT.OVF : CsrField := ⟨.HIF_LQ_STAT, 47, 32, .ro, 0⟩
def HIF_LQ_STAT.REJECT : CsrField := ⟨.HIF_LQ_STAT, 31, 16, .ro, 0⟩
def HIF_LQ_STAT.OCC : CsrField := ⟨.HIF_LQ_STAT, 8, 0, .ro, 0⟩
def HIF_QOS.WEIGHT : CsrField := ⟨.HIF_QOS, 7, 0, .rw, 1⟩
def HIF_SIG_CFG.DIE : CsrField := ⟨.HIF_SIG_CFG, 39, 38, .rw, 0⟩
def HIF_SIG_CFG.CLUSTER : CsrField := ⟨.HIF_SIG_CFG, 37, 34, .rw, 0⟩
def HIF_SIG_CFG.CORE : CsrField := ⟨.HIF_SIG_CFG, 33, 31, .rw, 0⟩
def HIF_SIG_CFG.CTX : CsrField := ⟨.HIF_SIG_CFG, 30, 28, .rw, 0⟩
def HIF_SIG_CFG.OFFSET : CsrField := ⟨.HIF_SIG_CFG, 27, 10, .rw, 0⟩
def HIF_SIG_CFG.EN : CsrField := ⟨.HIF_SIG_CFG, 0, 0, .rw, 0⟩
def SJ_STAT.BOOT : CsrField := ⟨.SJ_STAT, 63, 32, .ro, 0⟩
def SJ_STAT.RECOVERY : CsrField := ⟨.SJ_STAT, 1, 1, .ro, 0⟩
def SJ_STAT.READY : CsrField := ⟨.SJ_STAT, 0, 0, .ro, 0⟩
def SJ_LAST_STEP.STEP : CsrField := ⟨.SJ_LAST_STEP, 15, 8, .ro, 0⟩
def SJ_LAST_STEP.DIE : CsrField := ⟨.SJ_LAST_STEP, 7, 6, .ro, 0⟩
def SJ_LAST_STEP.EVENT : CsrField := ⟨.SJ_LAST_STEP, 3, 0, .ro, 0⟩
def SJ_MARKS.MARKS : CsrField := ⟨.SJ_MARKS, 21, 0, .ro, 0⟩
def SJ_CFG.PRIMARY : CsrField := ⟨.SJ_CFG, 0, 0, .rw, 0⟩
def SJ_CTL.RESTART : CsrField := ⟨.SJ_CTL, 1, 1, .wo, 0⟩
def SJ_CTL.CLEAR : CsrField := ⟨.SJ_CTL, 0, 0, .wo, 0⟩
def SJ_IMG_CTL.SRC : CsrField := ⟨.SJ_IMG_CTL, 63, 12, .rw, 0⟩
def SJ_IMG_CTL.LEN : CsrField := ⟨.SJ_IMG_CTL, 11, 4, .rw, 0⟩
def SJ_IMG_CTL.SLOT : CsrField := ⟨.SJ_IMG_CTL, 3, 3, .rw, 0⟩
def SJ_IMG_CTL.STATE : CsrField := ⟨.SJ_IMG_CTL, 2, 1, .ro, 0⟩
def SJ_IMG_CTL.GO : CsrField := ⟨.SJ_IMG_CTL, 0, 0, .wo, 0⟩
def SNP_CTL.FAULTS : CsrField := ⟨.SNP_CTL, 15, 8, .rw, 0⟩
def SNP_CTL.PIN : CsrField := ⟨.SNP_CTL, 2, 2, .rw, 0⟩
def SNP_CTL.TRIG : CsrField := ⟨.SNP_CTL, 1, 1, .wo, 0⟩
def SNP_CTL.ARM : CsrField := ⟨.SNP_CTL, 0, 0, .rw, 0⟩
def SNP_STAT.MISSED : CsrField := ⟨.SNP_STAT, 63, 32, .ro, 0⟩
def SNP_STAT.CAUSE : CsrField := ⟨.SNP_STAT, 25, 16, .ro, 0⟩
def SNP_STAT.STATE : CsrField := ⟨.SNP_STAT, 1, 0, .ro, 0⟩
def SNP_TICK.TICK : CsrField := ⟨.SNP_TICK, 63, 0, .ro, 0⟩
def DLS_REG_CTL.DESC : CsrField := ⟨.DLS_REG_CTL, 127, 72, .rw, 0⟩
def DLS_REG_CTL.REASON : CsrField := ⟨.DLS_REG_CTL, 63, 48, .ro, 0⟩
def DLS_REG_CTL.STREAM : CsrField := ⟨.DLS_REG_CTL, 47, 38, .rw, 0⟩
def DLS_REG_CTL.LEVEL : CsrField := ⟨.DLS_REG_CTL, 37, 36, .ro, 0⟩
def DLS_REG_CTL.STATE : CsrField := ⟨.DLS_REG_CTL, 5, 4, .ro, 0⟩
def DLS_REG_CTL.OP : CsrField := ⟨.DLS_REG_CTL, 3, 2, .rw, 0⟩
def DLS_REG_CTL.GO : CsrField := ⟨.DLS_REG_CTL, 0, 0, .wo, 0⟩
def DLS_TREC_CFG.HEAD : CsrField := ⟨.DLS_TREC_CFG, 127, 96, .ro, 0⟩
def DLS_TREC_CFG.DEPTH : CsrField := ⟨.DLS_TREC_CFG, 69, 64, .rw, 0⟩
def DLS_TREC_CFG.BASE : CsrField := ⟨.DLS_TREC_CFG, 63, 6, .rw, 0⟩
def DLS_TREC_CFG.DROP : CsrField := ⟨.DLS_TREC_CFG, 1, 1, .w1c, 0⟩
def DLS_TREC_CFG.EN : CsrField := ⟨.DLS_TREC_CFG, 0, 0, .rw, 0⟩
def DLS_SES.MISSES : CsrField := ⟨.DLS_SES, 63, 32, .ro, 0⟩
def DLS_SES.CLEAN : CsrField := ⟨.DLS_SES, 31, 24, .ro, 0⟩
def DLS_SES.PRT : CsrField := ⟨.DLS_SES, 15, 12, .ro, 0⟩
def DLS_SES.HOME : CsrField := ⟨.DLS_SES, 11, 11, .ro, 0⟩
def DLS_SES.SHADOW : CsrField := ⟨.DLS_SES, 10, 10, .ro, 0⟩
def DLS_SES.VALID : CsrField := ⟨.DLS_SES, 9, 9, .ro, 0⟩
def DLS_SES.FLOOR : CsrField := ⟨.DLS_SES, 5, 4, .rw, 0⟩
def DLS_SES.LEVEL : CsrField := ⟨.DLS_SES, 1, 0, .ro, 0⟩
def DLS_READY_HEAD.DORD : CsrField := ⟨.DLS_READY_HEAD, 127, 64, .ro, 0⟩
def DLS_READY_HEAD.PERIOD : CsrField := ⟨.DLS_READY_HEAD, 63, 32, .ro, 0⟩
def DLS_READY_HEAD.STREAM : CsrField := ⟨.DLS_READY_HEAD, 31, 22, .ro, 0⟩
def DLS_READY_HEAD.VALID : CsrField := ⟨.DLS_READY_HEAD, 0, 0, .ro, 0⟩
def ADM_CFG.BULKSPAD : CsrField := ⟨.ADM_CFG, 63, 52, .rw, 256⟩
def ADM_CFG.SWITCH : CsrField := ⟨.ADM_CFG, 51, 36, .rw, 4096⟩
def ADM_CFG.UMAX : CsrField := ⟨.ADM_CFG, 19, 0, .rw, 950000⟩
def ADM_GRP.DENS : CsrField := ⟨.ADM_GRP, 63, 44, .ro, 0⟩
def ADM_GRP.BPGAP : CsrField := ⟨.ADM_GRP, 43, 12, .rw, 0⟩
def ADM_GRP.ERR : CsrField := ⟨.ADM_GRP, 3, 3, .w1c, 0⟩
def ADM_GRP.SIZE : CsrField := ⟨.ADM_GRP, 2, 1, .rw, 0⟩
def ADM_GRP.EN : CsrField := ⟨.ADM_GRP, 0, 0, .rw, 0⟩
def BWS_FRAME_CFG.SLOTS : CsrField := ⟨.BWS_FRAME_CFG, 41, 32, .ro, 512⟩
def BWS_FRAME_CFG.SYSTEM : CsrField := ⟨.BWS_FRAME_CFG, 29, 20, .rw, 16⟩
def BWS_FRAME_CFG.SLOW : CsrField := ⟨.BWS_FRAME_CFG, 19, 10, .rw, 0⟩
def BWS_FRAME_CFG.FAST : CsrField := ⟨.BWS_FRAME_CFG, 9, 0, .rw, 0⟩
def BWS_USE.ERR : CsrField := ⟨.BWS_USE, 32, 32, .w1c, 0⟩
def BWS_USE.SLOWRES : CsrField := ⟨.BWS_USE, 25, 16, .ro, 0⟩
def BWS_USE.FASTRES : CsrField := ⟨.BWS_USE, 9, 0, .ro, 0⟩
def BWS_PRT_CAP.SLOWMAX : CsrField := ⟨.BWS_PRT_CAP, 25, 16, .rw, 0⟩
def BWS_PRT_CAP.FASTMAX : CsrField := ⟨.BWS_PRT_CAP, 9, 0, .rw, 0⟩
def BWS_FAB_IN.SLOW : CsrField := ⟨.BWS_FAB_IN, 25, 16, .rw, 0⟩
def BWS_FAB_IN.FAST : CsrField := ⟨.BWS_FAB_IN, 9, 0, .rw, 0⟩
def PRT_MEM_OWN.ERR : CsrField := ⟨.PRT_MEM_OWN, 7, 7, .w1c, 0⟩
def PRT_MEM_OWN.BUSY : CsrField := ⟨.PRT_MEM_OWN, 6, 6, .ro, 0⟩
def PRT_MEM_OWN.EN : CsrField := ⟨.PRT_MEM_OWN, 4, 4, .rw, 0⟩
def PRT_MEM_OWN.PRT : CsrField := ⟨.PRT_MEM_OWN, 3, 0, .rw, 0⟩
def PRT_LOCK.SIZE : CsrField := ⟨.PRT_LOCK, 127, 96, .rw, 0⟩
def PRT_LOCK.BASE : CsrField := ⟨.PRT_LOCK, 95, 55, .rw, 0⟩
def PRT_LOCK.CAUSE : CsrField := ⟨.PRT_LOCK, 23, 16, .ro, 0⟩
def PRT_LOCK.ERR : CsrField := ⟨.PRT_LOCK, 3, 3, .w1c, 0⟩
def PRT_LOCK.STATE : CsrField := ⟨.PRT_LOCK, 2, 1, .ro, 0⟩
def PRT_LOCK.EN : CsrField := ⟨.PRT_LOCK, 0, 0, .rw, 0⟩
def PRT_TLBI.SIZE : CsrField := ⟨.PRT_TLBI, 127, 96, .rw, 0⟩
def PRT_TLBI.BASE : CsrField := ⟨.PRT_TLBI, 95, 55, .rw, 0⟩
def PRT_TLBI.STATE : CsrField := ⟨.PRT_TLBI, 2, 1, .ro, 0⟩
def PRT_TLBI.GO : CsrField := ⟨.PRT_TLBI, 0, 0, .wo, 0⟩
def PRT_WALK_STAT.QUEUED : CsrField := ⟨.PRT_WALK_STAT, 63, 32, .ro, 0⟩
def PRT_WALK_STAT.INUSE : CsrField := ⟨.PRT_WALK_STAT, 12, 0, .ro, 0⟩
def CCC_L1_CFG.ERR : CsrField := ⟨.CCC_L1_CFG, 2, 2, .w1c, 0⟩
def CCC_L1_CFG.BUSY : CsrField := ⟨.CCC_L1_CFG, 1, 1, .ro, 0⟩
def CCC_L1_CFG.FUSED : CsrField := ⟨.CCC_L1_CFG, 0, 0, .rw, 0⟩
def MSL_SUB_BASE.BASE : CsrField := ⟨.MSL_SUB_BASE, 56, 6, .rw, 0⟩
def MSL_SUB_BASE.LOG2N : CsrField := ⟨.MSL_SUB_BASE, 3, 0, .rw, 0⟩
def MSL_STAT.FAULTS : CsrField := ⟨.MSL_STAT, 63, 32, .ro, 0⟩
def MSL_STAT.ACTIVE : CsrField := ⟨.MSL_STAT, 13, 0, .ro, 0⟩
def CCC_CTX.STATE : CsrField := ⟨.CCC_CTX, 63, 61, .ro, 0⟩
def CCC_CTX.DYN : CsrField := ⟨.CCC_CTX, 60, 60, .ro, 0⟩
def CCC_CTX.PC : CsrField := ⟨.CCC_CTX, 56, 0, .ro, 0⟩
def CCC_EVT.SAT : CsrField := ⟨.CCC_EVT, 63, 63, .w1c, 0⟩
def CCC_EVT.EN : CsrField := ⟨.CCC_EVT, 60, 60, .rw, 0⟩
def CCC_EVT.ALL : CsrField := ⟨.CCC_EVT, 59, 59, .rw, 0⟩
def CCC_EVT.CTX : CsrField := ⟨.CCC_EVT, 58, 56, .rw, 0⟩
def CCC_EVT.SEL : CsrField := ⟨.CCC_EVT, 55, 48, .rw, 0⟩
def CCC_EVT.COUNT : CsrField := ⟨.CCC_EVT, 47, 0, .rw, 0⟩
def CCC_RPL_CTL.STREAM : CsrField := ⟨.CCC_RPL_CTL, 63, 54, .rw, 0⟩
def CCC_RPL_CTL.NEV : CsrField := ⟨.CCC_RPL_CTL, 53, 48, .rw, 0⟩
def CCC_RPL_CTL.FIRSTMM : CsrField := ⟨.CCC_RPL_CTL, 11, 9, .ro, 0⟩
def CCC_RPL_CTL.MISMATCH : CsrField := ⟨.CCC_RPL_CTL, 8, 8, .ro, 0⟩
def CCC_RPL_CTL.STATE : CsrField := ⟨.CCC_RPL_CTL, 2, 1, .ro, 0⟩
def CCC_RPL_CTL.ARM : CsrField := ⟨.CCC_RPL_CTL, 0, 0, .wo, 0⟩
def CCC_RPL_BUF.RES : CsrField := ⟨.CCC_RPL_BUF, 120, 64, .rw, 0⟩
def CCC_RPL_BUF.CAP : CsrField := ⟨.CCC_RPL_BUF, 63, 16, .rw, 0⟩
def CCC_RPL_BUF.CAPSZ : CsrField := ⟨.CCC_RPL_BUF, 15, 0, .rw, 0⟩
def CCC_RPL_EVT.CODES : CsrField := ⟨.CCC_RPL_EVT, 63, 0, .rw, 0⟩
def CCC_TG_STAT.ACTIVE : CsrField := ⟨.CCC_TG_STAT, 8, 4, .ro, 0⟩
def CCC_TG_STAT.ERR : CsrField := ⟨.CCC_TG_STAT, 1, 0, .w1c, 0⟩
def CCC_EWT.W : CsrField := ⟨.CCC_EWT, 127, 0, .rw, 0x1020402100e0d0d020203010101⟩
def CCC_ESTAT.STATIC : CsrField := ⟨.CCC_ESTAT, 7, 0, .rw, 64⟩
def CCC_ECNT.SAT : CsrField := ⟨.CCC_ECNT, 63, 63, .ro, 0⟩
def CCC_ECNT.CLR : CsrField := ⟨.CCC_ECNT, 56, 56, .wo, 0⟩
def CCC_ECNT.F : CsrField := ⟨.CCC_ECNT, 55, 48, .ro, 0⟩
def CCC_ECNT.COUNT : CsrField := ⟨.CCC_ECNT, 47, 0, .ro, 0⟩
def CCC_EIDLE.SAT : CsrField := ⟨.CCC_EIDLE, 63, 63, .ro, 0⟩
def CCC_EIDLE.COUNT : CsrField := ⟨.CCC_EIDLE, 47, 0, .ro, 0⟩
def DST_SVC_CFG.HEAD : CsrField := ⟨.DST_SVC_CFG, 127, 96, .ro, 0⟩
def DST_SVC_CFG.LOST : CsrField := ⟨.DST_SVC_CFG, 95, 80, .ro, 0⟩
def DST_SVC_CFG.DEPTH : CsrField := ⟨.DST_SVC_CFG, 69, 64, .rw, 0⟩
def DST_SVC_CFG.BASE : CsrField := ⟨.DST_SVC_CFG, 63, 6, .rw, 0⟩
def DST_SVC_CFG.EN : CsrField := ⟨.DST_SVC_CFG, 0, 0, .rw, 0⟩
def DST_SVC_CTL.SEQ : CsrField := ⟨.DST_SVC_CTL, 63, 32, .rw, 0⟩
def DST_SVC_CTL.ERR : CsrField := ⟨.DST_SVC_CTL, 3, 3, .w1c, 0⟩
def DST_SVC_CTL.ACTION : CsrField := ⟨.DST_SVC_CTL, 2, 1, .rw, 0⟩
def DST_SVC_CTL.GO : CsrField := ⟨.DST_SVC_CTL, 0, 0, .wo, 0⟩
def DST_SAVE_BASE.BASE : CsrField := ⟨.DST_SAVE_BASE, 56, 16, .rw, 0⟩
def DST_SAVE_BASE.ERR : CsrField := ⟨.DST_SAVE_BASE, 1, 1, .w1c, 0⟩
def DST_SAVE_BASE.EN : CsrField := ⟨.DST_SAVE_BASE, 0, 0, .rw, 0⟩
def DST_MC_STAT.CE : CsrField := ⟨.DST_MC_STAT, 63, 32, .ro, 0⟩
def DST_MC_STAT.UE : CsrField := ⟨.DST_MC_STAT, 31, 16, .ro, 0⟩
def DST_MC_STAT.LAST : CsrField := ⟨.DST_MC_STAT, 7, 0, .ro, 0⟩
def BBT_CFG.FLIPW : CsrField := ⟨.BBT_CFG, 120, 64, .rw, 0⟩
def BBT_CFG.BASE : CsrField := ⟨.BBT_CFG, 56, 7, .rw, 0⟩
def BBT_CFG.LOG2N : CsrField := ⟨.BBT_CFG, 6, 3, .rw, 0⟩
def BBT_CFG.EN : CsrField := ⟨.BBT_CFG, 0, 0, .rw, 0⟩
def BBT_EDIT_DATA.DATA : CsrField := ⟨.BBT_EDIT_DATA, 63, 0, .rw, 0⟩
def BBT_EDIT_CTL.IDX : CsrField := ⟨.BBT_EDIT_CTL, 19, 8, .rw, 0⟩
def BBT_EDIT_CTL.ERR : CsrField := ⟨.BBT_EDIT_CTL, 2, 2, .w1c, 0⟩
def BBT_EDIT_CTL.BUSY : CsrField := ⟨.BBT_EDIT_CTL, 1, 1, .ro, 0⟩
def BBT_EDIT_CTL.GO : CsrField := ⟨.BBT_EDIT_CTL, 0, 0, .wo, 0⟩
def BBT_STAT.GEN : CsrField := ⟨.BBT_STAT, 63, 32, .ro, 0⟩
def BBT_STAT.LIVE : CsrField := ⟨.BBT_STAT, 16, 16, .ro, 0⟩
def BBT_STAT.ERR : CsrField := ⟨.BBT_STAT, 9, 9, .w1c, 0⟩
def BBT_STAT.LOG : CsrField := ⟨.BBT_STAT, 8, 0, .ro, 0⟩

/-- The fields of a register. -/
def csrFields : Csr → List CsrField
  | .DLS_PWR_CFG => [DLS_PWR_CFG.GATEIDLE, DLS_PWR_CFG.LIMIT]
  | .DLS_THERM_STAT => [DLS_THERM_STAT.FREEZECNT, DLS_THERM_STAT.PLLOSS, DLS_THERM_STAT.PLDEG, DLS_THERM_STAT.STATE, DLS_THERM_STAT.CAPPED, DLS_THERM_STAT.TEMP]
  | .FAB_DOM_CFG => [FAB_DOM_CFG.TMO, FAB_DOM_CFG.EN, FAB_DOM_CFG.SIZE, FAB_DOM_CFG.MODID]
  | .FAB_WIN => [FAB_WIN.SIZE, FAB_WIN.BASE, FAB_WIN.TAG, FAB_WIN.PRT, FAB_WIN.ERR, FAB_WIN.EN]
  | .FAB_SLOT_CFG => [FAB_SLOT_CFG.PRT, FAB_SLOT_CFG.CLASS]
  | .FAB_PORT_STAT => [FAB_PORT_STAT.REPLAYS, FAB_PORT_STAT.REASON, FAB_PORT_STAT.STATE]
  | .FAB_ROUTE => [FAB_ROUTE.PORTS]
  | .FAB_PTAG => [FAB_PTAG.TAG]
  | .FAB_BARR_CFG => [FAB_BARR_CFG.PARENT, FAB_BARR_CFG.ROOT, FAB_BARR_CFG.CHILDREN]
  | .FAB_PORT_CTL => [FAB_PORT_CTL.RETRAIN]
  | .UEE_MATCH => [UEE_MATCH.JOBID, UEE_MATCH.PID, UEE_MATCH.RIDX, UEE_MATCH.PRT, UEE_MATCH.RING, UEE_MATCH.EN]
  | .UEE_RXQ_CFG => [UEE_RXQ_CFG.BASE, UEE_RXQ_CFG.PUB, UEE_RXQ_CFG.STREAM, UEE_RXQ_CFG.PRT, UEE_RXQ_CFG.SHADOW, UEE_RXQ_CFG.MODE, UEE_RXQ_CFG.DEPTH, UEE_RXQ_CFG.SLOTSZ, UEE_RXQ_CFG.EN]
  | .UEE_RXQ_STAT => [UEE_RXQ_STAT.DROPFULL, UEE_RXQ_STAT.OVERSIZE, UEE_RXQ_STAT.BADHDR, UEE_RXQ_STAT.OCC]
  | .UEE_TXQ_CFG => [UEE_TXQ_CFG.BASE, UEE_TXQ_CFG.RIDX, UEE_TXQ_CFG.RXQ, UEE_TXQ_CFG.STREAM, UEE_TXQ_CFG.PRT, UEE_TXQ_CFG.MODE, UEE_TXQ_CFG.DEPTH, UEE_TXQ_CFG.SLOTSZ, UEE_TXQ_CFG.EN]
  | .UEE_CLASS_DSCP => [UEE_CLASS_DSCP.DSCP]
  | .UEE_DROP_NOMATCH => [UEE_DROP_NOMATCH.COUNT]
  | .UEE_CKPT_CTL => [UEE_CKPT_CTL.DESC, UEE_CKPT_CTL.STATE, UEE_CKPT_CTL.GO]
  | .UEE_CKPT_RESUME => [UEE_CKPT_RESUME.RESUME]
  | .PTC_TIME_LO => [PTC_TIME_LO.NS]
  | .PTC_TIME_HI => [PTC_TIME_HI.NS]
  | .PTC_LATCH_TICK => [PTC_LATCH_TICK.TICK]
  | .PTC_EPOCH => [PTC_EPOCH.SEC]
  | .PTC_INCR => [PTC_INCR.INCR]
  | .PTC_OFFSET => [PTC_OFFSET.OFS]
  | .PTC_CFG => [PTC_CFG.HOLDMAX, PTC_CFG.LOCKWAIT, PTC_CFG.OFFMAX, PTC_CFG.BACKUP, PTC_CFG.PORT, PTC_CFG.TRANSPORT, PTC_CFG.PROFILE, PTC_CFG.DOMAIN]
  | .PTC_STAT => [PTC_STAT.TICKRUN, PTC_STAT.PRIMARY, PTC_STAT.STEPREF, PTC_STAT.ALARM, PTC_STAT.STATE]
  | .PTC_CTL => [PTC_CTL.STEP]
  | .PRT_CLUSTERS => [PRT_CLUSTERS.MASK]
  | .PRT_LLC_WAYS => [PRT_LLC_WAYS.MASK]
  | .PRT_TT_ROOT => [PRT_TT_ROOT.ROOT]
  | .PRT_CTL => [PRT_CTL.EN]
  | .PRT_RESET => [PRT_RESET.GO]
  | .PRT_STAT => [PRT_STAT.SIGDROP, PRT_STAT.ACCERR, PRT_STAT.CFGERR, PRT_STAT.BUSY, PRT_STAT.RST]
  | .PRT_ATT_NONCE => [PRT_ATT_NONCE.NONCE]
  | .PRT_ATT_CTL => [PRT_ATT_CTL.DEST, PRT_ATT_CTL.STATE, PRT_ATT_CTL.GO]
  | .HIF_LQ_CFG => [HIF_LQ_CFG.DEPTH, HIF_LQ_CFG.EN]
  | .HIF_LQ_STAT => [HIF_LQ_STAT.BADPUSH, HIF_LQ_STAT.OVF, HIF_LQ_STAT.REJECT, HIF_LQ_STAT.OCC]
  | .HIF_QOS => [HIF_QOS.WEIGHT]
  | .HIF_SIG_CFG => [HIF_SIG_CFG.DIE, HIF_SIG_CFG.CLUSTER, HIF_SIG_CFG.CORE, HIF_SIG_CFG.CTX, HIF_SIG_CFG.OFFSET, HIF_SIG_CFG.EN]
  | .SJ_STAT => [SJ_STAT.BOOT, SJ_STAT.RECOVERY, SJ_STAT.READY]
  | .SJ_LAST_STEP => [SJ_LAST_STEP.STEP, SJ_LAST_STEP.DIE, SJ_LAST_STEP.EVENT]
  | .SJ_MARKS => [SJ_MARKS.MARKS]
  | .SJ_CFG => [SJ_CFG.PRIMARY]
  | .SJ_CTL => [SJ_CTL.RESTART, SJ_CTL.CLEAR]
  | .SJ_IMG_CTL => [SJ_IMG_CTL.SRC, SJ_IMG_CTL.LEN, SJ_IMG_CTL.SLOT, SJ_IMG_CTL.STATE, SJ_IMG_CTL.GO]
  | .SNP_CTL => [SNP_CTL.FAULTS, SNP_CTL.PIN, SNP_CTL.TRIG, SNP_CTL.ARM]
  | .SNP_STAT => [SNP_STAT.MISSED, SNP_STAT.CAUSE, SNP_STAT.STATE]
  | .SNP_TICK => [SNP_TICK.TICK]
  | .DLS_REG_CTL => [DLS_REG_CTL.DESC, DLS_REG_CTL.REASON, DLS_REG_CTL.STREAM, DLS_REG_CTL.LEVEL, DLS_REG_CTL.STATE, DLS_REG_CTL.OP, DLS_REG_CTL.GO]
  | .DLS_TREC_CFG => [DLS_TREC_CFG.HEAD, DLS_TREC_CFG.DEPTH, DLS_TREC_CFG.BASE, DLS_TREC_CFG.DROP, DLS_TREC_CFG.EN]
  | .DLS_SES => [DLS_SES.MISSES, DLS_SES.CLEAN, DLS_SES.PRT, DLS_SES.HOME, DLS_SES.SHADOW, DLS_SES.VALID, DLS_SES.FLOOR, DLS_SES.LEVEL]
  | .DLS_READY_HEAD => [DLS_READY_HEAD.DORD, DLS_READY_HEAD.PERIOD, DLS_READY_HEAD.STREAM, DLS_READY_HEAD.VALID]
  | .ADM_CFG => [ADM_CFG.BULKSPAD, ADM_CFG.SWITCH, ADM_CFG.UMAX]
  | .ADM_GRP => [ADM_GRP.DENS, ADM_GRP.BPGAP, ADM_GRP.ERR, ADM_GRP.SIZE, ADM_GRP.EN]
  | .BWS_FRAME_CFG => [BWS_FRAME_CFG.SLOTS, BWS_FRAME_CFG.SYSTEM, BWS_FRAME_CFG.SLOW, BWS_FRAME_CFG.FAST]
  | .BWS_USE => [BWS_USE.ERR, BWS_USE.SLOWRES, BWS_USE.FASTRES]
  | .BWS_PRT_CAP => [BWS_PRT_CAP.SLOWMAX, BWS_PRT_CAP.FASTMAX]
  | .BWS_FAB_IN => [BWS_FAB_IN.SLOW, BWS_FAB_IN.FAST]
  | .PRT_MEM_OWN => [PRT_MEM_OWN.ERR, PRT_MEM_OWN.BUSY, PRT_MEM_OWN.EN, PRT_MEM_OWN.PRT]
  | .PRT_LOCK => [PRT_LOCK.SIZE, PRT_LOCK.BASE, PRT_LOCK.CAUSE, PRT_LOCK.ERR, PRT_LOCK.STATE, PRT_LOCK.EN]
  | .PRT_TLBI => [PRT_TLBI.SIZE, PRT_TLBI.BASE, PRT_TLBI.STATE, PRT_TLBI.GO]
  | .PRT_WALK_STAT => [PRT_WALK_STAT.QUEUED, PRT_WALK_STAT.INUSE]
  | .CCC_L1_CFG => [CCC_L1_CFG.ERR, CCC_L1_CFG.BUSY, CCC_L1_CFG.FUSED]
  | .MSL_SUB_BASE => [MSL_SUB_BASE.BASE, MSL_SUB_BASE.LOG2N]
  | .MSL_STAT => [MSL_STAT.FAULTS, MSL_STAT.ACTIVE]
  | .CCC_CTX => [CCC_CTX.STATE, CCC_CTX.DYN, CCC_CTX.PC]
  | .CCC_EVT => [CCC_EVT.SAT, CCC_EVT.EN, CCC_EVT.ALL, CCC_EVT.CTX, CCC_EVT.SEL, CCC_EVT.COUNT]
  | .CCC_RPL_CTL => [CCC_RPL_CTL.STREAM, CCC_RPL_CTL.NEV, CCC_RPL_CTL.FIRSTMM, CCC_RPL_CTL.MISMATCH, CCC_RPL_CTL.STATE, CCC_RPL_CTL.ARM]
  | .CCC_RPL_BUF => [CCC_RPL_BUF.RES, CCC_RPL_BUF.CAP, CCC_RPL_BUF.CAPSZ]
  | .CCC_RPL_EVT => [CCC_RPL_EVT.CODES]
  | .CCC_TG_STAT => [CCC_TG_STAT.ACTIVE, CCC_TG_STAT.ERR]
  | .CCC_EWT => [CCC_EWT.W]
  | .CCC_ESTAT => [CCC_ESTAT.STATIC]
  | .CCC_ECNT => [CCC_ECNT.SAT, CCC_ECNT.CLR, CCC_ECNT.F, CCC_ECNT.COUNT]
  | .CCC_EIDLE => [CCC_EIDLE.SAT, CCC_EIDLE.COUNT]
  | .DST_SVC_CFG => [DST_SVC_CFG.HEAD, DST_SVC_CFG.LOST, DST_SVC_CFG.DEPTH, DST_SVC_CFG.BASE, DST_SVC_CFG.EN]
  | .DST_SVC_CTL => [DST_SVC_CTL.SEQ, DST_SVC_CTL.ERR, DST_SVC_CTL.ACTION, DST_SVC_CTL.GO]
  | .DST_SAVE_BASE => [DST_SAVE_BASE.BASE, DST_SAVE_BASE.ERR, DST_SAVE_BASE.EN]
  | .DST_MC_STAT => [DST_MC_STAT.CE, DST_MC_STAT.UE, DST_MC_STAT.LAST]
  | .BBT_CFG => [BBT_CFG.FLIPW, BBT_CFG.BASE, BBT_CFG.LOG2N, BBT_CFG.EN]
  | .BBT_EDIT_DATA => [BBT_EDIT_DATA.DATA]
  | .BBT_EDIT_CTL => [BBT_EDIT_CTL.IDX, BBT_EDIT_CTL.ERR, BBT_EDIT_CTL.BUSY, BBT_EDIT_CTL.GO]
  | .BBT_STAT => [BBT_STAT.GEN, BBT_STAT.LIVE, BBT_STAT.ERR, BBT_STAT.LOG]

/-- How many instances of a register the module holds, over all dies. -/
def csrCount : Csr → Nat
  | .DLS_PWR_CFG => 4
  | .DLS_THERM_STAT => 4
  | .FAB_DOM_CFG => 1
  | .FAB_WIN => 64
  | .FAB_SLOT_CFG => 9000
  | .FAB_PORT_STAT => 36
  | .FAB_ROUTE => 64
  | .FAB_PTAG => 16
  | .FAB_BARR_CFG => 256
  | .FAB_PORT_CTL => 36
  | .UEE_MATCH => 16384
  | .UEE_RXQ_CFG => 2048
  | .UEE_RXQ_STAT => 2048
  | .UEE_TXQ_CFG => 2048
  | .UEE_CLASS_DSCP => 4
  | .UEE_DROP_NOMATCH => 4
  | .UEE_CKPT_CTL => 4
  | .UEE_CKPT_RESUME => 4
  | .PTC_TIME_LO => 1
  | .PTC_TIME_HI => 1
  | .PTC_LATCH_TICK => 1
  | .PTC_EPOCH => 1
  | .PTC_INCR => 1
  | .PTC_OFFSET => 1
  | .PTC_CFG => 1
  | .PTC_STAT => 1
  | .PTC_CTL => 1
  | .PRT_CLUSTERS => 16
  | .PRT_LLC_WAYS => 16
  | .PRT_TT_ROOT => 16
  | .PRT_CTL => 16
  | .PRT_RESET => 16
  | .PRT_STAT => 16
  | .PRT_ATT_NONCE => 64
  | .PRT_ATT_CTL => 16
  | .HIF_LQ_CFG => 64
  | .HIF_LQ_STAT => 64
  | .HIF_QOS => 16
  | .HIF_SIG_CFG => 1024
  | .SJ_STAT => 1
  | .SJ_LAST_STEP => 1
  | .SJ_MARKS => 4
  | .SJ_CFG => 1
  | .SJ_CTL => 1
  | .SJ_IMG_CTL => 1
  | .SNP_CTL => 1
  | .SNP_STAT => 1
  | .SNP_TICK => 1
  | .DLS_REG_CTL => 64
  | .DLS_TREC_CFG => 64
  | .DLS_SES => 1024
  | .DLS_READY_HEAD => 384
  | .ADM_CFG => 4
  | .ADM_GRP => 384
  | .BWS_FRAME_CFG => 8
  | .BWS_USE => 8
  | .BWS_PRT_CAP => 128
  | .BWS_FAB_IN => 128
  | .PRT_MEM_OWN => 512
  | .PRT_LOCK => 1024
  | .PRT_TLBI => 16
  | .PRT_WALK_STAT => 4
  | .CCC_L1_CFG => 48
  | .MSL_SUB_BASE => 64
  | .MSL_STAT => 8
  | .CCC_CTX => 3072
  | .CCC_EVT => 1536
  | .CCC_RPL_CTL => 48
  | .CCC_RPL_BUF => 48
  | .CCC_RPL_EVT => 192
  | .CCC_TG_STAT => 48
  | .CCC_EWT => 48
  | .CCC_ESTAT => 48
  | .CCC_ECNT => 3072
  | .CCC_EIDLE => 384
  | .DST_SVC_CFG => 64
  | .DST_SVC_CTL => 64
  | .DST_SAVE_BASE => 64
  | .DST_MC_STAT => 4
  | .BBT_CFG => 64
  | .BBT_EDIT_DATA => 256
  | .BBT_EDIT_CTL => 64
  | .BBT_STAT => 64

/-- The value a register holds after power-on reset (R10). -/
def csrReset (c : Csr) : BitVec 128 :=
  (csrFields c).foldl (fun v f => v ||| BitVec.ofNat 128 (f.reset * 2 ^ f.lo)) 0

end Sys2Proof.Machine
end

