-- ==== Sys2Proof/Machine/State.lean ====
section
/-! DEFINITION. The state of the module as plain data, and its value after power-on. Default field values are the power-on values (notes/assumptions/1.md where the spec gives none). -/

namespace Sys2Proof.Machine

/-- A stop of the machine. No meaning raises one: every fault of the spec is taken as a next state (R195 to R199). -/
inductive Fault where
  /-- A word the fetch of `step` cannot read at all. Raised by nobody; safe. -/
  | unreachable
  deriving DecidableEq, Repr

/-- A refusal. -/
inductive Refusal where
  /-- The instruction has no meaning yet: raised by the dispatcher; safe. -/
  | notModelled (mnemonic : String)
  /-- The logit program's word at the position in work does not decode; raised by `step`; safe. -/
  | notDecoded
  deriving DecidableEq, Repr

/-- A shape register: its live copy and its shadow (R296). -/
structure Shape where
  live : Word := 0
  shadow : Word := 0
  deriving DecidableEq, Repr, Inhabited

/-- Where a value that was read at an access offset goes when it lands. -/
inductive Dest where
  | s (n : Nat)
  /-- Bits of v(n) from `lo` up. -/
  | v (n lo : Nat)
  | k (n : Nat)
  deriving DecidableEq, Repr

/-- A line of an L1 or LLC (R137): which bytes are held, which are dirty, who wrote the two sectors last, and the
re-reference value. -/
structure Line where
  pa : Nat := 0
  v : Nat := 0
  data : List Byte := []
  held : List Bool := []
  dirty : List Bool := []
  /-- Writer context of each sector, 8 × core + context (R137). -/
  writer : Nat × Nat := (0, 0)
  part : Nat := 0
  deriving DecidableEq, Repr, Inhabited

/-- A write-combining buffer (R344). -/
structure Wcb where
  /-- Physical address of its line; none when the buffer is free. -/
  line : Option Nat := none
  data : List Byte := []
  mask : List Bool := []
  ctx : Nat := 0
  task : Nat := 0
  /-- Order in which the buffers were taken. -/
  age : Nat := 0
  draining : Bool := false
  deriving DecidableEq, Repr, Inhabited

/-- A translation held by a translator or by the lock array (R148, R150). -/
structure Xlate where
  part : Nat := 0
  va : Nat := 0
  /-- log2 of the page. -/
  size : Nat := 16
  entry : Word := 0
  deriving DecidableEq, Repr, Inhabited

/-- A ring as a cube operation uses it, captured at its issue (R319, R320): where it lies, the slot number of its slot
offset 0, the slots it reads, the bytes of a slice, and whether it is kept. -/
structure RingUse where
  ring : Nat := 0
  base : Nat := 0
  slot : Nat := 0
  count : Nat := 0
  pub : Nat := 0
  first : Nat := 0
  n : Nat := 0
  slice : Nat := 0
  kept : Bool := false
  deriving DecidableEq, Repr, Inhabited

/-- A running cube operation (R324 to R329). -/
structure CubeOp where
  id : Nat := 0
  ctx : Nat := 0
  task : Nat := 0
  /-- OPC of its form: 1 CMUL, 2 CMULC, 3 CMULQ, 4 CMULI, 5 CMULA. -/
  form : Nat := 0
  mode : Nat := 0
  prof : Nat := 0
  fmt : Word := 0
  bank : Nat := 0
  tile : Nat := 0
  /-- Team cycle of its issue, k-slices, cycles per k-slice, k-slices that one G or group-word slice serves. -/
  start : Nat := 0
  n : Nat := 0
  c : Nat := 1
  rep : Nat := 1
  a : RingUse := {}
  b : RingUse := {}
  g : Option RingUse := none
  thr : Nat := 0
  thrKind : Nat := 0
  slot : Nat := 0
  pc : Word := 0
  init : Tile := 0
  /-- Slices read so far, latest first: A, B, and G or group words. -/
  reads : List (Nat × Nat × Nat) := []
  /-- Its tile has landed; its ring heads land in the same tick (R329). -/
  retired : Bool := false
  deriving DecidableEq, Repr, Inhabited

/-- A candidate of a sampler list (R370). -/
structure Cand where
  value : BitVec 32 := 0
  token : Nat := 0
  deriving DecidableEq, Repr, Inhabited

/-- A sampler slot record (R363). `issued` is the descriptor of the latest issued SMP.BIND of the task. -/
structure SlotRec where
  issued : List Byte := []
  desc : List Byte := []
  step : Nat := 0
  pending : List Nat := []
  fptr : Nat := 0
  mask : Nat := 0
  cands : List Cand := []
  deriving DecidableEq, Repr, Inhabited

/-- What a queued sampler operation does (R368, R372). -/
inductive SmpKind where
  /-- Lanes and their AF bits. -/
  | feed (v : Vec) (af : BitVec 256)
  /-- A half-tile, read as the operation enters the queue. -/
  | feedTile (bank tile h : Nat)
  | bind (desc : List Byte)
  | reset (keep : Bool)
  | mergeOut (off : Nat)
  | mergeIn (off : Nat)
  | draw (off : Nat) (sb : Word)
  | greedy (off : Nat)
  | commit (off : Nat)
  | pend (token : Nat)
  | settle (n : Nat)
  | thr (en : Bool)
  /-- SMP.LOAD or SMP.FLUSH: the command it hands to the copy engine. -/
  | tables (cmd : Nat)
  deriving DecidableEq, Repr

/-- A sampler operation: of which context, task and slot record, and its occupancy (R380). -/
structure SmpOp where
  ctx : Nat
  task : Nat
  slot : Nat
  occ : Nat
  kind : SmpKind
  deriving DecidableEq, Repr

/-- An edit of a batching table (R384): the entry, and the bytes written of it. -/
structure Edit where
  idx : Nat
  bytes : List Byte
  mask : List Bool
  deriving DecidableEq, Repr

/-- What lands at the end of a sampler operation (R380). -/
structure SmpLand where
  record : SlotRec := {}
  /-- A store into the partition: offset and bytes. -/
  store : Option (Nat × List Byte) := none
  /-- Counts that are written: offset in the share, and the new count. -/
  bumps : List (Nat × Nat) := []
  edit : Option Edit := none
  deriving DecidableEq, Repr, Inhabited

/-- A write that has been issued and not landed (R12, R269), or an access that its instruction makes at a later
offset. Register numbers are physical (R268). -/
inductive Write where
  | s (n : Nat) (v : Word)
  | p (n : Nat) (v : Bool)
  /-- All physical predicates at once (LDP). -/
  | preds (v : BitVec 16)
  | k (n : Nat) (v : Word)
  /-- A replay delta is added to a k register (R281). -/
  | kAdd (n : Nat) (v : Word)
  | rrb (mask v : Word)
  | fmt (mask v : Word)
  /-- Exception flags, bits as in fmt.FLG, of the operation of a slot of the bundle at an address (R227). -/
  | flags (f : Nat) (slot : Nat) (pc : Word)
  | v (n : Nat) (v : Vec)
  | bs (v : Word)
  | bv (u : Nat) (v : Vec)
  | bm (bank tile : Nat)
  /-- Bits of the shadow of shape register h of set eng (R296). -/
  | shape (eng h : Nat) (mask v : Word)
  /-- Bits of both copies of hm0 to hm3 (QTHR). -/
  | thr (mask v : Word)
  | replayCount (l n : Nat)
  | replayEntry (e : Nat) (k l : Nat) (delta : Word)
  /-- Half h of a tile is written (QWR), with its AF bits cleared. -/
  | half (bank tile h : Nat) (v : Vec)
  | tile (bank tile : Nat) (v : Tile) (af : BitVec 256)
  /-- The masked tiles of a bank are cleared (QCLR). -/
  | clearTiles (bank mask : Nat)
  /-- At this cycle one tile is read and, added as FP32 or copied, goes into another (QADD, QMOV). -/
  | tileOp (add : Bool) (bank tile sbank stile : Nat) (pc : Word)
  /-- At this cycle the destination of QADD is read; the sum lands two cycles later. -/
  | tileAdd (bank tile : Nat) (src : Tile) (pc : Word)
  /-- At this cycle half a tile is read; it lands in v(d) three cycles later (QRD). -/
  | readHalf (u d bank tile h : Nat)
  /-- At this cycle four rows of a tile are read, the fourth such cycle being followed by the store (QSAVE). -/
  | saveTile (bank tile : Nat) (quarter : Nat) (got : Tile) (off : Nat)
  /-- At this cycle a tile's bytes are read from scratchpad (QLOAD). -/
  | loadTile (bank tile : Nat) (off : Nat)
  /-- Bytes are stored to the scratchpad partition at an offset. -/
  | spad (off : Nat) (b : List Byte)
  /-- At this cycle bytes are read from the scratchpad partition: `width` bytes, extended when `sx`, landing at
  local cycle `land`. -/
  | loadS (off width : Nat) (sx : Bool) (dst : Dest) (land : Nat)
  /-- At this cycle the 4-byte elements at these offsets are read into bits of v(d) from `lo` up (GATH). -/
  | gather (offs : List Nat) (d lo : Nat) (land : Nat)
  /-- Bits lo to lo + len − 1 of v(n). -/
  | vpart (n lo len : Nat) (v : Nat)
  /-- A store to global memory performs (R343): physical address, memory type, bytes, whether it streams, and the scope
  of a release. -/
  | store (pa mt : Nat) (b : List Byte) (stream : Bool) (scope : Nat)
  /-- At this cycle the predicates are read from scratchpad (LDP). -/
  | loadP (off : Nat) (land : Nat)
  /-- At this cycle the word is read; its new value is stored, and its old one lands, at local cycle `wcyc` (RMWS). -/
  | rmw (off width : Nat) (op : Nat) (operand : Word) (d wcyc : Nat)
  /-- A cube operation retires: tile, AF bits, flags (R329). -/
  | retire (op : Nat)
  /-- Its ring HEAD fields and pending counts (R320, R329). -/
  | popRings (op : Nat)
  /-- A sampler operation enters its core's queue (R380). -/
  | smpEnter (op : SmpOp)
  /-- A RELB raises F of a buffer-ring entry (R348). -/
  | relb (n : Nat)
  deriving DecidableEq, Repr

/-- An issued write with the local cycle at which it lands; `ord` orders the writes of one cycle by issuing bundle and
slot (R269). -/
structure Landing where
  due : Nat
  ord : Nat
  w : Write
  deriving DecidableEq, Repr

/-- A store that waits for the release actions of its scope to have performed (R158, R160, R284). -/
structure HeldStore where
  pa : Nat
  mt : Nat
  bytes : List Byte
  stream : Bool
  /-- 0 of a plain store, otherwise the scope of its release plus 1. -/
  scope : Nat
  /-- An atomic to another module that waits behind the context's stores, and the load of its result. -/
  atom : Option RemoteAccess := none
  load : Option Nat := none
  deriving DecidableEq, Repr

/-- A hardware context's resident bank (R169). -/
structure Bank where
  s : SMap Word := []
  p : BitVec 16 := 0
  v : SMap Vec := []
  k : SMap Word := []
  hm : SMap Shape := []
  hl : SMap Shape := []
  hx : SMap Shape := []
  rrb : Word := 0
  /-- Reset of R226: FLG, TEN zero, ZPM and the format codes at their reset values. -/
  fmt : Word := 0x0000000800000000
  bs : Word := 0
  bv0 : Vec := 0
  bv1 : Vec := 0
  /-- The tile bm names (R252). -/
  bm : Option (Nat × Nat) := none
  spadBase : Nat := 0
  spadSize : Nat := 0
  /-- Issued writes that have not landed, and accesses that their instructions make later (R12, R269). -/
  pend : List Landing := []
  /-- Buffer rings: counts acquired and freed, by entry (R348). -/
  brA : SMap Nat := []
  brF : SMap Nat := []
  /-- Entry and tick of the latest raises of F (R176). -/
  brRecent : List (Nat × Nat) := []
  /-- Pending slots of a ring: claimed and not yet published (R320). -/
  ringP : SMap Nat := []
  /-- Barrier arrivals and releases seen, by barrier (R357). -/
  barA : SMap Nat := []
  barR : SMap Nat := []
  /-- Barrier and tick of the latest releases (R176). -/
  barRecent : List (Nat × Nat) := []
  /-- Vector registers that slot writes of the tick `lastTick` reached (R351). -/
  wroteV : List Nat := []
  /-- The sampler slot that is the threshold source (R371). -/
  thrSrc : Option Nat := none
  /-- Maintenance operations of the context not complete (R145). -/
  maint : Nat := 0
  /-- Widest scope of a fence in force, plus one, and the stores that wait (R284). -/
  fence : Nat := 0
  heldStores : List HeldStore := []
  /-- Local cycle and tick of the core's latest pulse for this context. -/
  lastCyc : Nat := 0
  lastTick : Nat := 0
  deriving DecidableEq, Repr, Inhabited

/-- A core (R18, R166). -/
structure CoreSt where
  spad : SMap Byte := []
  /-- Scratchpad bytes written lately: tick, offset in the core's scratchpad, and the byte before (R176). -/
  fresh : List (Nat × Nat × Byte) := []
  tiles : SMap Tile := []
  af : SMap (BitVec 256) := []
  /-- Local cycles at which slot L holds the scratchpad port, with the owning context (R339). -/
  port : List (Nat × Nat) := []
  l1 : SMap Line := []
  wcb : SMap Wcb := []
  tlb : List Xlate := []
  cube : List CubeOp := []
  smpQ : List SmpOp := []
  smpOp : Option SmpOp := none
  /-- Cycles until the operation in work lands, and what lands (R380). -/
  smpLeft : Nat := 0
  smpLand : SmpLand := {}
  /-- Scratchpad bytes that the next operation reads at its begin, as they were before the landings of its cycle. -/
  smpPre : List Byte := []
  slots : SMap SlotRec := []
  tm : SMap Byte := []
  idleF : Nat := 0
  /-- Ticks accounted to CCC_EIDLE or to a context (R191). -/
  idleTo : Nat := 0
  evKept : List Word := []
  deriving DecidableEq, Repr, Inhabited

/-- A task-graph walk (R187). -/
structure Walk where
  id : Nat := 0
  dord : Nat := 0
  part : Nat := 0
  die : Nat := 0
  graph : Nat := 0
  tgn : Nat := 0
  node : Nat := 0
  steps : Nat := 0
  it : SMap Nat := []
  waitFor : Option Nat := none
  running : Bool := false
  deriving DecidableEq, Repr, Inhabited

/-- A replay measurement on a cluster (R189). -/
structure Replay where
  armed : Bool := false
  /-- The task of the stream that has been placed since the ARM (R189). -/
  next : Option Nat := none
  task : Option Nat := none
  pass : Nat := 0
  passes : Nat := 0
  /-- Physical and virtual numbers of the 64 KiB pages that the task's writes translated, latest first (R402). -/
  pages : List (Nat × Nat) := []
  /-- Captured sectors, latest first: where, address or offset, old contents. -/
  cap : List (Nat × Nat × List Byte) := []
  /-- Captured blocks of table memory, latest first: core, offset, old contents (R390). -/
  tmCap : List (Nat × Nat × List Byte) := []
  used : Nat := 0
  counts : List Nat := []
  sigs : List (BitVec 32) := []
  last : Bool := false
  deriving DecidableEq, Repr, Inhabited

/-- A line of an instruction cache: partition, virtual line address and its 128 bytes. -/
structure IcLine where
  part : Nat
  line : Nat
  data : List Byte
  deriving DecidableEq, Repr, Inhabited

/-- A cluster (R166, R29). -/
structure ClusterSt where
  /-- Lines of the instruction cache; fills whose slots have been asked for; sectors of lines that come from another
  module. -/
  icache : List IcLine := []
  icWait : List (Nat × Nat) := []
  icPart : List (Nat × Nat × Nat × List Byte) := []
  gated : Bool := false
  wakingTo : Option Nat := none
  /-- A context held a task at the end of the latest tick; the cycle from which none has. -/
  busy : Bool := false
  idleSince : Nat := 0
  walks : List Walk := []
  rpl : Replay := {}
  deriving DecidableEq, Repr, Inhabited

/-- A placement group in work: the context that runs and what R173 counts. -/
structure Group where
  running : Option Nat := none
  /-- The tick before which the next run's first bundle cannot issue (R174). -/
  freeAt : Nat := 0
  deriving DecidableEq, Repr, Inhabited

/-- What an engine command does (R349 to R358). -/
inductive CmdKind where
  | copy
  | put
  | get
  | subs
  | unsub
  | fred
  | cmo
  | rpub
  | rpop
  | smpLoad
  | smpFlush
  deriving DecidableEq, Repr

/-- An engine command issued by a context (R349 to R358, R373), and how far it is. -/
structure Cmd where
  id : Nat := 0
  kind : CmdKind := .copy
  task : Nat := 0
  idx : Nat := 0
  core : Nat := 0
  ctx : Nat := 0
  die : Nat := 0
  part : Nat := 0
  /-- The engine that accepts it: copy engine 0 to 31, or 100 + the core of a fabric interface; none where no rule names
  an engine. -/
  engine : Option Nat := none
  /-- Local cycle at which it begins, while it has not been accepted. -/
  start : Option Nat := none
  /-- It holds its copy descriptor or its fabric-buffer entry. -/
  holds : Bool := true
  /-- Its engine has begun it; acceptance order; set aside by a fault; the one its engine serves. -/
  begun : Bool := false
  order : Nat := 0
  setAside : Bool := false
  serving : Bool := false
  /-- Address spaces of source and destination: 0 virtual, 2 scratchpad, 3 register, 4 table memory, 5 Ethernet. -/
  srcSpace : Nat := 0
  dstSpace : Nat := 0
  src : Nat := 0
  dst : Nat := 0
  len : Nat := 0
  rows : Nat := 1
  sstr : Int := 0
  dstr : Int := 0
  done : Option Nat := none
  doneVal : Word := 0
  /-- Barrier instance whose pending count it lowers, and buffer-ring entry it frees. -/
  barrier : Option Nat := none
  brt : Option Nat := none
  job : Nat := 0
  pid : Nat := 0
  ridx : Nat := 0
  desc : List Byte := []
  /-- Where it stands: row, byte of the row, sectors done. -/
  row : Nat := 0
  off : Nat := 0
  pos : Nat := 0
  /-- HBM sides granted of its bandwidth slots: 0 none, 1 the source, 2 both. -/
  stage : Nat := 0
  /-- Tick of its latest sector and sectors moved in that tick. -/
  tickOf : Nat := 0
  inTick : Nat := 0
  /-- Bytes of a register image, and of a source read from another module. -/
  img : List Byte := []
  buf : List Byte := []
  /-- It waits for answers from another module, to a write or a read; their number, or the sectors acknowledged over
  Ethernet. -/
  awaiting : Bool := false
  writes : Bool := false
  acked : Nat := 0
  /-- All its sectors have performed. -/
  ended : Bool := false
  /-- Ring and count of a ring command; level and operation of maintenance. -/
  ring : Nat := 0
  count : Nat := 0
  op : Nat := 0
  lvl : Nat := 0
  /-- A subscribe waits for an entry of its stack, or has been granted one (R155). -/
  waiting : Bool := false
  granted : Bool := false
  deriving DecidableEq, Repr, Inhabited

/-- A load in flight (R343). -/
structure Load where
  id : Nat := 0
  task : Nat := 0
  idx : Nat := 0
  core : Nat := 0
  ctx : Nat := 0
  pc : Word := 0
  /-- Team cycle of its landing offset, and the order of its landing. -/
  land : Nat := 0
  ord : Nat := 0
  va : Nat := 0
  /-- Where its bytes lie: physical address, length and memory type of each piece of a page. -/
  pieces : List (Nat × Nat × Nat) := []
  width : Nat := 0
  sx : Bool := false
  dst : Dest := .s 0
  rd : Nat := 0
  /-- A result of an atomic, for which the team holds from its next bundle (R347). -/
  atomic : Bool := false
  /-- Its bytes are read when it arrives. -/
  late : Bool := false
  /-- Earliest tick at which it lands. -/
  notBefore : Nat := 0
  /-- Bytes read so far, by offset, and parts still outstanding. -/
  data : SMap Byte := []
  need : Nat := 0
  /-- Stores of the context that had not performed when it was issued (R159). -/
  older : List HeldStore := []
  /-- The acquire of the context that it waits for, and the scope of its own plus 1 (R160). -/
  behind : Option Nat := none
  acq : Nat := 0
  deriving DecidableEq, Repr, Inhabited

/-- A store whose acknowledgement is outstanding (R142, R46). -/
structure PendStore where
  id : Nat := 0
  core : Nat := 0
  ctx : Nat := 0
  task : Nat := 0
  /-- Acknowledgements outstanding. -/
  n : Nat := 1
  /-- Bytes that a write-combining buffer of the core held (R163). -/
  wcb : Bool := false
  deriving DecidableEq, Repr, Inhabited

/-- An atomic operation waiting for its group (R164). -/
structure Atom where
  key : List Nat := []
  task : Nat := 0
  core : Nat := 0
  ctx : Nat := 0
  pa : Nat := 0
  interval : Nat := 0
  w : Bool := false
  op : Nat := 0
  operand : Word := 0
  load : Option Nat := none
  /-- Memory type of its page (R140). -/
  mt : Nat := 0
  /-- An access that came from another module, or looped back, and the partition of its window (R42, R164). -/
  arrived : Option RemoteAccess := none
  part : Nat := 0
  deriving DecidableEq, Repr, Inhabited

/-- A barrier instance (R357, R47). -/
structure Barrier where
  level : Nat := 0
  bar : Nat := 0
  /-- Task of the first arrival, which names the participants. -/
  task : Nat := 0
  /-- Participants, from the first arrival on, and arrivals: core and context. -/
  parties : List (Nat × Nat) := []
  arrived : List (Nat × Nat) := []
  pending : Nat := 0
  /-- Children of a domain barrier's node of the module that have arrived, modules and 64 + die (R47), and whether the arrival has gone to the parent or the release is due. -/
  children : List Nat := []
  releasing : Bool := false
  deriving DecidableEq, Repr, Inhabited

/-- A subscription (R153 to R156). -/
structure Sub where
  id : Nat := 0
  task : Nat := 0
  idx : Nat := 0
  core : Nat := 0
  ctx : Nat := 0
  part : Nat := 0
  die : Nat := 0
  dord : Nat := 0
  ring : Nat := 0
  stack : Nat := 0
  desc : List Byte := []
  /-- Tile in work. -/
  tile : Nat := 0
  /-- The tile's bytes have been granted their slots and are under way. -/
  moving : Bool := false
  /-- Stopped by a fault; told by UNSUB to end after its tile; its source lies in another module. -/
  stopped : Bool := false
  ending : Bool := false
  remote : Bool := false
  /-- Bytes of a tile from another module, by offset, and accesses outstanding. -/
  buf : SMap Byte := []
  need : Nat := 0
  /-- Sectors of a tile for another module that have performed. -/
  pos : Nat := 0
  /-- A pull's tail, and the count that it wrote to the publish word last. -/
  tail : Nat := 0
  wrote : Option Nat := none
  deriving DecidableEq, Repr, Inhabited

/-- What the module itself puts on its agenda: the events of file 95 that follow from earlier steps, with the arguments of
their constructors of Instr. -/
inductive Ev where
  | commitHeartbeat (d : Die) (h : Heartbeat)
  | heartbeatAck (d : Die) (stream period : Nat)
  | heartbeatRelay (via dst : Die) (m : PairMsg)
  | pairLinkLoss (pr : Fin 2)
  | levelChangeMessage (d : Die) (session : Fin 256) (level : Fin 4) (tick : Nat)
  | checkTick (d : Die) (stream period : Nat)
  | freezeTimeout (d : Die)
  | dieStopDetect (d : Die)
  | clusterGate (c : Cluster)
  | wakeComplete (c : Cluster)
  | linkTrainingDone (p : Port) (partner : Bool) (map : List (BitVec 8))
  | fabFrameBoundary
  | fabSlot (p : Port)
  | retrainComplete (p : Port) (map : Option (List (BitVec 8)))
  | fabAccessArrive (a : RemoteAccess)
  | fabResponse (id : Nat) (st : RespStatus) (data : List Byte)
  | fabTimeout (id : Nat)
  | fabBarrierArrival (bar : Fin 256) (child : Fin 64)
  | fabBarrierRelease (bar : Fin 256)
  | allreduceContribution (bar : Fin 256) (level : Fin 4) (die : Die) (src : Nat) (data : List Byte)
  | allreduceResult (bar : Fin 256) (data : List Byte)
  | ringPublish (d : Die) (w : RingPut)
  | actionChunk (d : Die) (task : Nat)
  | ckptFault (d : Die) (sector : Nat)
  /-- The transfer of the checkpoint engine's next bytes has been served (R68): a part of the engine's work without a name of
  its own in the table. -/
  | ckptPage (d : Die)
  /-- The host link is free for the next copy payload (R79). -/
  | hifServe
  | ptpSecondBoundary
  | lockwaitExpire
  | holdmaxExpire
  | signalDeferredStore (core : Core) (ctx : Fin 8)
  | prtScrubDone (p : Part)
  | resetStop (p : Part)
  | resetScrub (p : Part)
  | resetRelease (p : Part)
  | startStepTimeout (d : Die)
  | attReport (p : Part)
  | snpLatch
  | snapOutEnd
  | admissionComplete (d : Die)
  | timerRelease (d : Die) (stream : Fin 1024)
  | taskReady (t : Nat)
  | taskLaunch (t : Nat)
  | deadlineAbort (t : Nat)
  | holdBudgetExhausted (t : Nat)
  | taskCommit (t : Nat)
  | bwsFrameBoundary (j : Stack)
  | bwsSlot (j : Stack)
  | prtMemOwnDone (b : Fin 512)
  | prtLockDone (d : Die) (p i : Fin 16)
  | tlbiDone (p : Part)
  | tableWalkDone (d : Die) (walk : Nat)
  | l1ModeDone (c : Cluster)
  | loadDataLand (load : Nat)
  | rhizoidTile (j : Stack) (sub : Nat)
  | subscriptionGrant (j : Stack)
  | atomicGroup (word : Nat) (interval : Nat)
  | wcbDrain (core : Core) (buf : Fin 16)
  | bundleSend (t : Nat)
  | emptyBundle (t : Nat)
  | holdEnd (t : Nat)
  | contextEligible (t : Nat)
  | icacheFill (c : Cluster) (part : Part) (line : Nat)
  | writeLanding (core : Core) (ctx : Fin 8) (cyc : Nat) (ph : LandPhase)
  | drainEnd (t : Nat)
  | restore (t : Nat)
  | tgWalkResume (c : Cluster) (walk : Nat)
  | sisterReport (launch : Nat) (rank : Fin 4) (ok : Bool)
  | rplPassEnd (t : Nat)
  | engineStart (cmd : Nat)
  | copySector (cmd : Nat)
  | copyComplete (cmd : Nat)
  | barrierRelease (inst : Nat)
  | cmoComplete (cmd : Nat)
  | samplerOpBegin (core : Core)
  | samplerOpLand (core : Core)
  | bflipPerform (d : Die) (p : Part)
  | bflipReplayDone (d : Die) (p : Part)
  | twaitTickReached (t : Nat)
  | drainBoundExceeded (t : Nat)
  | storeAcknowledged (id : Nat)
  deriving DecidableEq, Repr

/-- Who waits for a walk: the task it is for, the translator, the kind and the address. Translators are the cores by their
numbers, copy engine or fabric interface e as 1000 + e, the rhizoid of stack j as 2000 + j, the endpoint of die d as 3000 + d
and the walkers themselves as 4000. An agent that is not a core is told by an event at a phase. -/
structure Asker where
  task : Nat := 0
  tr : Nat := 0
  kind : Nat := 0
  va : Nat := 0
  wake : Option Ev := none
  ph : Nat := 0
  deriving DecidableEq, Repr, Inhabited

/-- A miss entry of a die's walkers, or a miss that waits for one (R149). -/
structure Miss where
  id : Nat := 0
  part : Nat := 0
  page : Nat := 0
  dord : Nat := 0
  tick : Nat := 0
  req : Nat := 0
  held : Bool := false
  walking : Bool := false
  /-- The level that is walked, 0 for T3, and its table; what the walk found when it is over: a cause or a leaf. -/
  lvl : Nat := 0
  table : Nat := 0
  res : Option (Nat × Xlate) := none
  reqs : List Asker := []
  deriving DecidableEq, Repr, Inhabited

/-- A walk for an agent that is not a core ended in a fault: translator, partition, page, kind and cause, until it asks
again. -/
structure BadWalk where
  tr : Nat := 0
  part : Nat := 0
  page : Nat := 0
  kind : Nat := 0
  cause : Nat := 0
  deriving DecidableEq, Repr, Inhabited

/-- A transfer waiting for an HBM bandwidth slot (R115, R143). -/
structure Xfer where
  cls : Nat := 0
  part : Nat := 0
  /-- Whose slots it takes first: a session of a die, or a partition's fabric arrivals. -/
  owner : Nat := 0
  tick : Nat := 0
  /-- Bytes still to be moved. -/
  n : Nat := 0
  /-- What happens when the last slot has served: an event, if anything waits for it. -/
  ev : Option Ev := none
  /-- The maintenance operation whose write-back it is, plus 1 (R145). -/
  who : Nat := 0
  deriving DecidableEq, Repr, Inhabited

/-- A flit waiting for a slot of a port (R35). Its sequence number is 0 until it has been sent (R52); `who` is the
context, 8 × core + number plus 1, that the order of R45 binds. -/
structure OutFlit where
  cls : Nat := 0
  part : Nat := 0
  who : Nat := 0
  fl : Flit := ⟨0, 0, 0, .idle, 0, 0, false⟩
  deriving DecidableEq, Repr, Inhabited

/-- A Wovor port beyond its FAB_PORT_STAT (R34 to R36, R52, R53). -/
structure PortSt where
  q : List OutFlit := []
  control : List OutFlit := []
  /-- The last 64 flits sent, oldest first, and the number of flits sent. -/
  sent : List OutFlit := []
  seqTx : Nat := 0
  /-- Replays in the frame. -/
  replays : Nat := 0
  /-- The sequence number asked for again, until it arrives whole. -/
  want : Option Nat := none
  slotMap : List (BitVec 8) := []
  /-- Partition that the round-robin of bulk and system flits served last. -/
  lastPart : Nat := 15
  /-- Sequence numbers of the last flits taken, latest first: a flit sent again that has been taken is passed over (R52). -/
  got : List Nat := []
  /-- It has gone down and its bits of FAB_ROUTE are cleared at a frame boundary; the modules whose masks held them; and
  whether it rejoins those at the next one (R53). -/
  fell : Bool := false
  routes : List Nat := []
  rejoin : Bool := false
  deriving DecidableEq, Repr, Inhabited

/-- An outstanding access of another module (R38, R46). -/
structure Fabric where
  id : Nat := 0
  task : Nat := 0
  part : Nat := 0
  module : Nat := 0
  /-- Command, load, store or subscription that waits for it, and the offset of its bytes there. -/
  cmd : Option Nat := none
  load : Option Nat := none
  store : Option Nat := none
  sub : Option Nat := none
  /-- The walk of a die, the line of a cluster and partition, or the wait of a task that reads (R42). -/
  walk : Option (Nat × Nat) := none
  line : Option (Nat × Nat × Nat) := none
  poll : Option Nat := none
  at_ : Nat := 0
  port : Nat := 0
  acc : RemoteAccess := ⟨0, 0, 0, 0, .read, 0, [], [], 0, [], 0⟩
  /-- Its physical address; it stays in the module, its target's die being out of reach (R213); a write to its sector has
  gone out since, so its bytes are not cached. -/
  pa : Nat := 0
  inside : Bool := false
  noFill : Bool := false
  deriving DecidableEq, Repr, Inhabited

/-- All-reduce contributions of a barrier's tree (R50). -/
structure AllRed where
  /-- Commands issued that contribute. -/
  expect : Nat := 0
  op : Nat := 0
  ty : Nat := 0
  n : Nat := 0
  own : List (Nat × List Byte) := []
  dies : List (Nat × List Byte) := []
  mods : List (Nat × List Byte) := []
  dsts : List (Nat × Nat × Nat) := []
  deriving DecidableEq, Repr, Inhabited

/-- A message in a ring's slot that is not published yet (R60, R61): the writes of it that are outstanding, on the home
die and for the partner's copy. -/
structure PubMsg where
  id : Nat := 0
  slot : Nat := 0
  release : Nat := 0
  deadline : Nat := 0
  seq : Nat := 0
  source : Nat := 0
  /-- Its bytes, ARRIVAL filled in, and the writes not done yet: 2 × die for the message, that plus 1 for the publish word in
  a stack of its own. -/
  b : List Byte := []
  wait : List Nat := []
  /-- Those whose address is being translated. -/
  look : List Nat := []
  /-- The partner takes a copy. -/
  both : Bool := false
  deriving DecidableEq, Repr, Inhabited

/-- A receive ring's own counts (R60, R61). -/
structure RxRing where
  tail : Nat := 0
  /-- Source of the latest message published (R65). -/
  lastSrc : Nat := 0
  /-- Slots occupied. -/
  occ : List Nat := []
  /-- Messages not yet published, oldest first. -/
  pubQ : List PubMsg := []
  deriving DecidableEq, Repr, Inhabited

/-- A transmit ring's slots: the task that holds each (R65). -/
structure TxRing where
  holders : SMap (Option Nat) := []
  next : Nat := 0
  deriving DecidableEq, Repr, Inhabited

/-- A partition's batching table on a die (R383 to R385). -/
structure Bbt where
  live : Nat := 0
  gen : Nat := 0
  log : List Edit := []
  replaying : Bool := false
  flips : Nat := 0
  waiting : List Edit := []
  deriving DecidableEq, Repr, Inhabited

/-- A variant of a stream (R107). -/
structure Variant where
  kernel : Nat := 0
  tlen : Nat := 0
  hold : Nat := 0
  pgap : Nat := 0
  spad : Nat := 0
  slots : List Nat := []
  hdr : List Byte := []
  deriving DecidableEq, Repr, Inhabited

/-- A registered stream (R104 to R108). -/
structure Stream where
  valid : Bool := false
  part : Nat := 0
  session : Nat := 0
  cls : Nat := 0
  timer : Bool := false
  shadow : Bool := false
  copy : Bool := false
  group : Nat := 0
  gsize : Nat := 0
  period : Nat := 0
  rdl : Nat := 0
  phase : Nat := 0
  timerN : Nat := 0
  vars : List Variant := []
  nextPeriod : Nat := 0
  prevRel : Option Nat := none
  lastDord : Nat := 0
  /-- Number of its latest task. -/
  lastTask : Nat := 0
  ctx : Nat := 0
  spadBase : List Nat := []
  deferred : Option Nat := none
  leaving : Bool := false
  deriving DecidableEq, Repr, Inhabited

/-- What the admission unit has decided and not yet shown (R107, R114). -/
structure Admission where
  part : Nat := 0
  /-- 0, or the reason of the refusal. -/
  code : Nat := 0
  level : Nat := 0
  stream : Nat := 0
  st : Stream := {}
  /-- The copy on the partner die. -/
  copy : Option Stream := none
  deriving DecidableEq, Repr, Inhabited

/-- A die beyond its registers. -/
structure DieSt where
  llc : SMap Line := []
  lockArr : List Xlate := []
  walkQ : List Miss := []
  badWalks : List BadWalk := []
  /-- Its step 0 has failed (R96); its attestation key pair and the signature of its identity key over the public one
  (R99). -/
  absent : Bool := false
  attKey : List Byte := []
  attCert : List Byte := []
  /-- The endpoint's translator (R148). -/
  epTlb : List Xlate := []
  walkTlb : List Xlate := []
  stopped : Bool := false
  stopCause : Nat := 0
  frozen : Option Nat := none
  frozenSessions : List Nat := []
  /-- Power: the estimate, capping steps applied, earliest tick of the next application. -/
  watts : Nat := 0
  capStep : Nat := 0
  capTick : Nat := 0
  /-- Checkpoint engine: its descriptor, and the first sector not written (R67, R68). -/
  ckptDesc : List Byte := []
  ckptPos : Nat := 0
  /-- It waits for the translation of its position. -/
  ckptLook : Bool := false
  /-- Heartbeats sent and not acknowledged (R23). -/
  unacked : List Heartbeat := []
  /-- Heartbeats received (R129). -/
  hbs : List Heartbeat := []
  /-- Registrations waiting for the admission unit: partition, descriptor address and cycle of the GO; the one in test. -/
  regQ : List (Nat × Nat × Nat) := []
  regTest : Option Admission := none
  /-- The step in work, whether one is, and the image slot that PRIMARY selected at this start (R94, R97). -/
  startStep : Nat := 0
  starting : Bool := false
  startImg : Bool := false
  heldInReset : Bool := false
  ready : Bool := false
  deriving DecidableEq, Repr, Inhabited

/-- A task's place in R126. -/
inductive TState where
  | pending
  | deferred
  | ready
  | placing
  | running
  | draining
  | parked
  | evicted
  | committed
  | aborted
  | refused
  deriving DecidableEq, Repr, Inhabited

/-- What a running team does at the control core. -/
inductive Run where
  /-- No bundle is due: not placed, parked or ended. -/
  | off
  /-- Eligible, waiting for its group (R172). -/
  | eligible
  /-- A bundle is to be sent. -/
  | sending
  /-- Holding before its next bundle (R176). -/
  | holding
  /-- After a yield, until its exposed writes have landed (R172). -/
  | yielded
  /-- Switched out until a condition clears (R178). -/
  | blocked
  /-- In the stub, or counting drain cycles (R204). -/
  | draining
  /-- In the re-entry sequence (R205). -/
  | restoring
  /-- The final bundle has issued; results land (R124). -/
  | ending
  /-- Aborted; results land (R123). -/
  | aborting
  deriving DecidableEq, Repr, Inhabited

/-- A wait of a team on a word, a barrier, a tick or a load (R178, R285 to R287, R357). -/
inductive WaitOn where
  /-- A scratchpad word at an offset; `ne` asks for a different value (WAITA), otherwise for one at least as large. -/
  | spadWord (off : Nat) (v : Word) (ne : Bool) (scope : Nat)
  /-- A global word, read every 64 ticks from `since`. -/
  | memWord (va : Nat) (v : Word) (ne : Bool) (scope : Nat) (since : Nat)
  /-- A barrier and the number of releases that the wait needs. -/
  | barrier (level bar need : Nat)
  | tick (v : Nat)
  deriving DecidableEq, Repr

/-- A wait, with the core index and the team cycle of the bundle that waits. -/
structure Wait where
  idx : Nat
  cyc : Nat
  on : WaitOn
  deriving DecidableEq, Repr

/-- The outcome of a walk that a bundle waits for: 0 or the cause, and the translation. -/
structure WalkRes where
  core : Nat := 0
  page : Nat := 0
  kind : Nat := 0
  cause : Nat := 0
  x : Xlate := {}
  deriving DecidableEq, Repr, Inhabited

/-- A fault as it is detected (R194 to R198). -/
structure FaultRec where
  cause : Nat := 0
  slot : Nat := 8
  faddr : Nat := 0
  idx : Nat := 0
  straddle : Bool := false
  drain : Bool := false
  pc : Word := 0
  engine : Nat := 0
  resumeAt : Nat := 0
  deriving DecidableEq, Repr, Inhabited

/-- A packed bundle as it is expanded: its header, the words present with their slots, its address and the next. -/
structure Bundle where
  hdr : Nat := 0
  words : List (Nat × Nat) := []
  pc : Word := 0
  next : Word := 0
  deriving DecidableEq, Repr, Inhabited

/-- A task: one invocation of a kernel (R116 to R126), with what the control core keeps of it (R298). -/
structure Task where
  /-- Its header is on the way from HBM, as its launch path waits for it (R87). -/
  hdrWait : Bool := false
  /-- Its run has sent nothing yet (R174). -/
  runFirst : Bool := false
  /-- The next cycle is the first of a run, a stub or a re-entry sequence: the bypasses read as zero in it (R252). -/
  fresh : Bool := false
  /-- Stack of whose entries its next bundle's subscribe waits for one (R155). -/
  subWait : Option Nat := none
  die : Nat := 0
  part : Nat := 0
  stream : Nat := 0
  session : Nat := 0
  cls : Nat := 0
  period : Nat := 0
  r : Nat := 0
  dord : Nat := 0
  dabort : Nat := 0
  late : Bool := false
  level : Nat := 0
  copy : Bool := false
  /-- Released with a copy on the partner (R23, R129). -/
  shadow : Bool := false
  tookOver : Bool := false
  st : TState := .pending
  /-- It is to be restored when its group grants it its next run (R205). -/
  resume : Bool := false
  var : Variant := {}
  /-- The launch block's values (R84): DONE, DONEVAL, TAG, INTR, PROFILE, and ARGS or the receive slot address. -/
  doneVa : Nat := 0
  doneVal : Word := 0
  tag : Nat := 0
  intr : Bool := false
  hasDone : Bool := false
  profile : Nat := 0
  args : Word := 0
  rxRing : Option (Nat × Nat) := none
  rxSeq : Nat := 0
  txSlot : Option (Nat × Nat) := none
  /-- The place of its chunk among those handed to the endpoint, 0 for none, and whether it has been read (R66). -/
  chunkNo : Nat := 0
  chunkRead : Bool := false
  chunkLook : Bool := false
  /-- Device time of its commit, for its chunk's header (R65). -/
  txHdr : Word := 0
  /-- No group was a candidate when its placement was considered last (R119). -/
  unplaced : Bool := false
  /-- Placement: global group number, context, team size. -/
  group : Nat := 0
  ctx : Nat := 0
  team : Nat := 0
  hdrVa : Nat := 0
  hdr : List Byte := []
  /-- Branch-tree and drain-stub tables as the control core read them at launch (R166). -/
  btt : List Byte := []
  dst : List Byte := []
  /-- Occupancies taken at placement or launch and not returned (R182). -/
  occ : Bool := false
  /-- Offset of its scratchpad range on each core of its team (R133). -/
  spadBase : List Nat := []
  /-- Sisters (R181): the launch, this task's rank, the number of sisters. -/
  launch : Option Nat := none
  srk : Nat := 0
  nsr : Nat := 1
  /-- Control core: next bundle, its state, local cycles (R175) and team cycles (landing clock), shift D. -/
  pc : Word := 0
  run : Run := .off
  lc : Nat := 0
  cyc : Nat := 0
  shift : Nat := 0
  holdUsed : Nat := 0
  empties : Nat := 0
  yieldAfter : Bool := false
  endAfter : Bool := false
  started : Bool := false
  energy0 : List Nat := []
  waits : List Wait := []
  /-- Waits set aside by a drain, and the team cycle of the latest bundle sent. -/
  keptWaits : List Wait := []
  prevCyc : Nat := 0
  eligTick : Nat := 0
  cnt : Nat := 0
  nt0 : Nat := 0
  nt1 : Nat := 0
  /-- Loop-buffer replay (R280): counts, table, and the block in work. -/
  rc : List Nat := [1, 1, 1, 1]
  rtab : SMap (Option (Nat × Nat × Word)) := []
  rblock : Option (Nat × Nat × Nat) := none
  rpass : List Nat := []
  rpos : Nat := 0
  /-- The loop buffer: bundles of the block as its first pass fetched them (R281). -/
  loopBuf : List Bundle := []
  /-- Its latest cycle in a drain, a stub or a re-entry was a hold (R177). -/
  held : Bool := false
  /-- The last value that came of a word of another module that it waits for, and by core (R42, R285). -/
  polled : List (Nat × Nat × Nat) := []
  /-- Port touches recorded (R256): port, bank, cycle. -/
  touches : List (Nat × Nat × Nat) := []
  /-- Cube reservations recorded: bank (16 is the array), first and last cycle. -/
  reserves : List (Nat × Nat × Nat) := []
  preempts : Nat := 0
  preemptReq : Bool := false
  evicting : Bool := false
  /-- Its record is being saved or loaded (R207, R208), and the ticks of that still to come. -/
  saving : Bool := false
  left : Nat := 0
  /-- Drain: start, stub position end, and the address to resume at. -/
  drainFrom : Nat := 0
  stubEnd : Nat := 0
  resumePc : Word := 0
  entryPc : Word := 0
  rlen : Nat := 0
  drainHold : Nat := 0
  awaitSvc : Bool := false
  /-- Number of its task record plus one, and the CRC of its committed chunk (R125, R129). -/
  recNo : Nat := 0
  chunkCrc : Option (BitVec 32) := none
  /-- A trap that landed during a stub or re-entry sequence, raised when it ends (R202). -/
  lateFault : Option FaultRec := none
  sig : Nat := 0xFFFFFFFF
  walkRes : List WalkRes := []
  deriving DecidableEq, Repr, Inhabited

/-- Which operation is being executed: of which task on which core, in which bundle (R166, R167). -/
structure Env where
  task : Nat := 0
  idx : Nat := 0
  core : Nat := 0
  ctx : Nat := 0
  slot : Nat := 0
  pc : Word := 0
  next : Word := 0
  prof : Nat := 0
  /-- Path the bundle's BTREE chose. -/
  path : Option Nat := none
  cyc : Nat := 0
  lc : Nat := 0
  stub : Bool := false
  /-- A bundle issues in the cycle; otherwise it is an empty bundle or, with `landOnly`, one that carries landings only. -/
  bundle : Bool := false
  landOnly : Bool := false
  /-- The cycle is the first of a run or of a stub or re-entry sequence (R252). -/
  fresh : Bool := false
  /-- NTQ request counts of the two tile spaces when the bundle was sent (R297). -/
  nt0 : Nat := 0
  nt1 : Nat := 0
  /-- The context's energy counter with every charge of earlier ticks (R293). -/
  energy : Nat := 0
  /-- The control core looks ahead on a copy of the state (R176, R195): faults are noted, not taken. -/
  probe : Bool := false
  deriving DecidableEq, Repr, Inhabited

/-- A slot operation on its way: its guard and the instruction (R247). -/
structure SlotOp where
  slot : Nat
  guard : Nat
  instr : Instr
  deriving DecidableEq, Repr

/-- Something due at a time: an event, and for the issue cycle of a core the operations that follow it. Order: time,
then the phase within the tick (R117, R157), then the stream number where R117 orders by it, then the order of scheduling. -/
structure Due where
  time : Nat
  phase : Nat
  seq : Nat
  ev : Ev
  env : Env := {}
  ops : List SlotOp := []
  /-- Order within its phase, before that of scheduling (R117). -/
  sub : Nat := 0
  deriving DecidableEq, Repr

/-- The logit unit: the element in work, and what remains of its phase (R365 to R369, R377). -/
structure Logit where
  active : Bool := false
  core : Nat := 0
  ctx : Nat := 0
  slot : Nat := 0
  e : SMap (BitVec 32) := []
  f : Bool := false
  k : Bool := true
  /-- Program words of the phase, and the position. -/
  prog : List (BitVec 16) := []
  pos : Nat := 0
  token : Nat := 0
  /-- 0 feed, 1 draw. -/
  phase : Nat := 0
  /-- Elements still to come: value and token. -/
  todo : List Cand := []
  /-- Results of the elements ended, in order: value, token, kept. -/
  results : List (BitVec 32 × Nat × Bool) := []
  maxv : BitVec 32 := 0
  deriving DecidableEq, Repr, Inhabited

/-- What the module sends to the outside. -/
inductive Msg where
  /-- An MSI-X vector of a function (R83). -/
  | msix (f vec : Nat)
  | ethSend (die cls mode : Nat) (dest : Nat) (ridx : Nat) (b : List Byte)
  /-- An RMA write (R57, R67, R350): traffic class, target (job, PIDonFEP, resource index), offset, bytes. -/
  | rmaWrite (die cls job pid ridx offset : Nat) (b : List Byte)
  | ethError (die : Nat) (dest : Nat) (noMatch : Bool)
  | announce (die : Nat)
  | flit (port : Nat) (f : Flit)
  | snapOut (high : Bool)
  | spdm (b : List Byte)
  | mcReport (die cause : Nat)
  deriving DecidableEq, Repr

/-- A journal record before its CRC (R96). -/
structure Journal where
  boot : Nat
  step : Nat
  die : Nat
  event : Nat
  img : Bool
  code : BitVec 16
  deriving DecidableEq, Repr

/-- A measurement log entry (R99). -/
structure Meas where
  die : Nat
  step : Nat
  img : Bool
  check : ImageCheck
  deriving DecidableEq, Repr

/-- A launch of several sisters (R181). -/
structure Launch where
  tasks : List Nat := []
  reports : Nat := 0
  refused : Bool := false
  start : Option Nat := none
  ends : List (Nat × Nat × Nat) := []
  deriving DecidableEq, Repr, Inhabited

/-- Copy traffic that waits for the host link (R79): partition, command and bytes of each payload in its order of arrival; the
partition whose turn it is, and what each may still send in its turn. -/
structure HifQ where
  q : List (Nat × Nat × Nat) := []
  part : Nat := 15
  left : SMap Nat := []
  deriving DecidableEq, Repr, Inhabited

/-- The PTP clock beyond its registers (R69 to R73). -/
structure Ptp where
  /-- Device time of the latest second boundary, and its cycle. -/
  s : Nat := 0
  t : Nat := 0
  /-- Cycle of power-on, from which LOCKWAIT counts; whether it has passed without a master. -/
  from_ : Nat := 0
  waited : Bool := false
  /-- Latest measured offset, device time minus master time, and consecutive seconds within OFFMAX. -/
  offset : Int := 0
  good : Nat := 0
  /-- The offset has been measured since the master was selected; it has been within OFFMAX since the latest boundary. -/
  heard : Bool := false
  within : Bool := false
  /-- Masters that have announced themselves, and the one selected (R70). -/
  masters : List (List Nat) := []
  master : Option (List Nat) := none
  /-- The clock has reached Locked (R72). -/
  reached : Bool := false
  stepPending : Bool := false
  deriving DecidableEq, Repr, Inhabited

/-- The snapshot unit (R100 to R102). -/
structure Snap where
  pending : Option Nat := none
  cause : Nat := 0
  regs : List (Nat × BitVec 128) := []
  banks : SMap Bank := []
  pcs : SMap Nat := []
  high : Bool := false
  deriving DecidableEq, Repr, Inhabited

/-- The module (R18) and the model's own bookkeeping (notes/assumptions/2.md). -/
structure State where
  /-- Cycles of the 4 GHz clock since power-on. -/
  now : Nat := 0
  /-- The value of `now` at tick 0 (R72). -/
  tickBase : Option Nat := none
  seq : Nat := 0
  free : Nat := 0
  nextId : Nat := 1
  agenda : List Due := []
  env : Env := {}
  /-- On the control core's copy only: faults noted, and translations still to be walked (core, address, kind). -/
  found : List FaultRec := []
  wants : List (Nat × Nat × Nat) := []
  issueQ : List SlotOp := []
  out : List Msg := []
  /-- Memory by physical OFFSET (R40, R134): HBM and host memory. -/
  mem : List Host.Cell := []
  /-- Registers that differ from their reset value, as the difference (exclusive or) from it. -/
  csr : SMap (BitVec 128) := []
  banks : SMap Bank := []
  cores : SMap CoreSt := []
  clusters : SMap ClusterSt := []
  dies : SMap DieSt := []
  groups : SMap Group := []
  streams : SMap Stream := []
  tasks : SMap Task := []
  launches : SMap Launch := []
  cmds : SMap Cmd := []
  /-- Engines that have accepted a command at a tick, now or by arrangement of a control core (R349). -/
  ceTaken : List (Nat × Nat) := []
  loads : SMap Load := []
  stores : SMap PendStore := []
  atoms : List Atom := []
  barriers : SMap Barrier := []
  allred : SMap AllRed := []
  subs : SMap Sub := []
  bwsQ : SMap (List Xfer) := []
  ceTlb : SMap (List Xlate) := []
  mslTlb : SMap (List Xlate) := []
  ports : SMap PortSt := []
  fabric : SMap Fabric := []
  /-- Writes of other modules, or looped back, that have performed and wait for their slots (R37). -/
  fabIn : List (RemoteAccess × List Byte) := []
  ethUp : BitVec 8 := 0
  pairUp : BitVec 4 := 0xF
  crossDown : SMap Bool := []
  /-- The host link's copy traffic to the host (R79). -/
  hif : HifQ := {}
  /-- Pairs whose dies have detected the loss of both lane groups (R23). -/
  pairLost : SMap Bool := []
  /-- Tick from which a pair has had a path, direct or relayed, since it last had none (R23). -/
  pathFrom : SMap Nat := []
  /-- Sessions whose 64th clean period has just ended, by 256 × die + session (R128). -/
  lowering : List Nat := []
  /-- Sessions raised by a take-over until a slow stream is registered there (R128), by 256 × die + session. -/
  tookSes : SMap Bool := []
  rx : SMap RxRing := []
  tx : SMap TxRing := []
  ptp : Ptp := {}
  latch : SMap (Nat × Nat) := []
  /-- NumVFs of the SR-IOV capability (R77). -/
  numVfs : Nat := 16
  /-- Cycles at which the blocks arrived that a launch queue may still hold, by 16 × die + partition (R84, R87). -/
  lq : SMap (List Nat) := []
  /-- A function level reset of the PF is in progress (R89). -/
  flr : Bool := false
  /-- 4 KiB host pages whose accesses the host refuses (R136): set from outside. -/
  hostDeny : SMap Bool := []
  sigDef : List (Nat × Nat × Nat × Word × Nat) := []
  /-- What the contexts of a die have counted in the window of R24, latest first: cycle, and 1/16 nJ. -/
  energyLog : SMap (List (Nat × Nat)) := []
  /-- Tick plus one of the latest fault, abort, freeze or power excess of a session (R128), by 256 × die + session. -/
  dirtyAt : SMap Nat := []
  bbt : SMap Bbt := []
  /-- Removed clusters and ways being scrubbed, by partition: one mask per ownership write, oldest first (R81). -/
  scrubbing : SMap (List (BitVec 176)) := []
  memOwnNew : SMap (Option Nat) := []
  l1New : SMap (Option Bool) := []
  snap : Snap := {}
  journal : List Journal := []
  meas : List Meas := []
  flash : SMap (List Byte) := []
  sjClear : Bool := false
  halted : Bool := false
  powered : Bool := true
  /-- Records that await an answer (R199): 16 × die + partition, SEQ, what waits (0 task, 1 command, 2 subscription,
  3 checkpoint engine), its number and the cause. -/
  svcAwait : List (Nat × Nat × Nat × Nat × Nat) := []
  /-- Edits of the host, accepted at the end of the tick (R384). -/
  hostEdits : List (Nat × Edit) := []
  lg : Logit := {}
  deriving DecidableEq, Repr, Inhabited

/-- The module right after power-on reset (R10): every register at its reset value, memory with nothing listed, no
task, nothing due. -/
def State.reset : State := {}

end Sys2Proof.Machine
end

