-- ==== Sys2Proof/Machine/Access.lean ====
section
/-! DEFINITION. Reading and changing the parts of the state: control registers and their fields (R7 to R10), the maps of cores, contexts, tasks and dies, the agenda of what is due, free values, counters that saturate. -/

namespace Sys2Proof.Machine

/-- The key of a register instance. -/
def csrKey (c : Csr) (i : Nat) : Nat := 128 * i + c.ctorIdx
/-- The value of a control register. -/
def State.csrVal (s : State) (c : Csr) (i : Nat) : BitVec 128 := s.csr.look (csrKey c i) ^^^ csrReset c
/-- The state with a control register holding a value, whatever its access codes. -/
def State.csrPut (s : State) (c : Csr) (i : Nat) (v : BitVec 128) : State :=
  { s with csr := s.csr.put (csrKey c i) (v ^^^ csrReset c) }
/-- The value of a field of a control register. -/
def State.getF (s : State) (f : CsrField) (i : Nat) : Nat := bits (s.csrVal f.reg i).toNat f.hi f.lo
/-- The state with a field of a control register replaced. -/
def State.setF (s : State) (f : CsrField) (i v : Nat) : State :=
  s.csrPut f.reg i (BitVec.ofNat 128 (setBits (s.csrVal f.reg i).toNat f.hi f.lo v))
/-- The largest value of a field. -/
def CsrField.top (f : CsrField) : Nat := 2 ^ (f.hi + 1 - f.lo) - 1
/-- A counting field raised, stopping at its largest value. -/
def State.bump (s : State) (f : CsrField) (i n : Nat) : State := s.setF f i (min (s.getF f i + n) f.top)

/-- Register banks: context 8 × core + ctx. -/
def State.bank (s : State) (b : Nat) : Bank := s.banks.look b
def State.modBank (s : State) (b : Nat) (f : Bank → Bank) : State := { s with banks := s.banks.upd b f }
def State.core (s : State) (c : Nat) : CoreSt := s.cores.look c
def State.modCore (s : State) (c : Nat) (f : CoreSt → CoreSt) : State := { s with cores := s.cores.upd c f }
def State.cluster (s : State) (c : Nat) : ClusterSt := s.clusters.look c
def State.modCluster (s : State) (c : Nat) (f : ClusterSt → ClusterSt) : State :=
  { s with clusters := s.clusters.upd c f }
def State.die (s : State) (d : Nat) : DieSt := s.dies.look d
def State.modDie (s : State) (d : Nat) (f : DieSt → DieSt) : State := { s with dies := s.dies.upd d f }
def State.group (s : State) (g : Nat) : Group := s.groups.look g
def State.modGroup (s : State) (g : Nat) (f : Group → Group) : State := { s with groups := s.groups.upd g f }
def State.task (s : State) (t : Nat) : Task := s.tasks.look t
def State.modTask (s : State) (t : Nat) (f : Task → Task) : State := { s with tasks := s.tasks.upd t f }
def State.cmd (s : State) (c : Nat) : Cmd := s.cmds.look c
def State.modCmd (s : State) (c : Nat) (f : Cmd → Cmd) : State := { s with cmds := s.cmds.upd c f }
/-- Streams: 1,024 per die (R104). -/
def State.stream (s : State) (d n : Nat) : Stream := s.streams.look (1024 * d + n)
def State.modStream (s : State) (d n : Nat) (f : Stream → Stream) : State :=
  { s with streams := s.streams.upd (1024 * d + n) f }

/-- Die, cluster of the module, and position in its cluster, of a global core number (R18). -/
def dieOf (core : Nat) : Nat := core / 96
def clusterOf (core : Nat) : Nat := core / 8
/-- The context number of the module, as CCC_CTX and CCC_ECNT count them (R193). -/
def ctxOf (core ctx : Nat) : Nat := 8 * core + ctx

/-- The operation being executed: its bank and its core's cluster. -/
def State.b (s : State) : Nat := ctxOf s.env.core s.env.ctx
/-- The task of the operation being executed. -/
def State.cur (s : State) : Task := s.task s.env.task
/-- The operation's core and bank. -/
def State.me (s : State) : CoreSt := s.core s.env.core
def State.mine (s : State) : Bank := s.bank s.b

/-- The global tick: 0 until it runs (R72). -/
def State.tick (s : State) : Nat :=
  match s.tickBase with
  | some b => s.now - b
  | none => 0

/-- The order of the agenda. -/
def Due.before (a b : Due) : Bool := lexLt [a.time, a.phase, a.sub, a.seq] [b.time, b.phase, b.sub, b.seq]

/-- Insertion in the agenda's order. -/
def insertDue (d : Due) : List Due → List Due
  | [] => [d]
  | x :: xs => if d.before x then d :: x :: xs else x :: insertDue d xs

/-- Within a step of R117 a scheduler takes tasks in ascending stream number. -/
def State.streamOrder (s : State) (ev : Ev) : Nat :=
  match ev with
  | .taskReady t | .deadlineAbort t | .taskCommit t => 1024 * (s.task t).die + (s.task t).stream
  | _ => 0

/-- The state with something due at a time and phase. -/
def State.sched (s : State) (time phase : Nat) (ev : Ev) (env : Env := {}) (ops : List SlotOp := []) : State :=
  { s with
    agenda := insertDue ⟨time, phase, s.seq, ev, env, ops, s.streamOrder ev⟩ s.agenda
    seq := s.seq + 1 }

/-- The state without the due events a test names. -/
def State.unsched (s : State) (f : Due → Bool) : State :=
  { s with agenda := s.agenda.filter (fun d => !f d) }

/-- Phases within a tick: what comes from outside, arrivals of data, the control cores by the number of the group's base core
(R349), the cores' cycles, engines that begin, engine writes in the order of R157, then scratchpad writes of core slots, and
last, after every fault of the tick, the scheduler's aborts, commits and releases (R117). -/
def phHost : Nat := 0
def phDls : Nat := 4
def phMem : Nat := 5
def phChoice : Nat := 9
def phSend (core : Nat) : Nat := 10 + core
def phPulse : Nat := 400
def phStart (core : Nat) : Nat := 410 + core
def phSignal : Nat := 800
def phEndpoint : Nat := 801
/-- Copy engine e, 0 to 31, writes at phase 810 + e; the rhizoids of stack j at 850 + j. -/
def phEngine (e : Nat) : Nat := 810 + e
def phRhizoid (j : Nat) : Nat := 850 + j
def phStore : Nat := 860
def phSampler : Nat := 861
def phEnd : Nat := 862
def phAbort : Nat := 863
def phCommit : Nat := 864
def phReady : Nat := 865

/-- A free number in [lo, hi]: a latency or choice the spec bounds and does not fix (notes/assumptions/5.md). -/
def State.freeIn (s : State) (lo hi : Nat) : Nat := lo + Config.freeNat s.free % (hi + 1 - lo)
/-- The state after a free value has been taken. -/
def State.freed (s : State) : State := { s with free := s.free + 1 }
/-- Something due after a free number of cycles, 1 to a bound. -/
def State.schedWithin (s : State) (bound phase : Nat) (ev : Ev) : State :=
  (s.sched (s.now + s.freeIn 1 bound) phase ev).freed
/-- A latency without a stated bound is free as well. -/
def State.schedSome (s : State) (phase : Nat) (ev : Ev) : State :=
  (s.sched (s.now + 1 + Config.freeNat s.free) phase ev).freed

/-- A new identifier, and the state that has given it. -/
def State.newId (s : State) : Nat × State := (s.nextId, { s with nextId := s.nextId + 1 })

/-- A message to the outside. -/
def State.send (s : State) (m : Msg) : State := { s with out := s.out ++ [m] }
/-- Whether the host reaches the module: die 0 holds the interface (R28, R76, R97). -/
def State.hostUp (s : State) : Bool := s.powered && !s.halted && !(s.die 0).stopped
/-- Vector of a virtual function: function v serves partition v − 1 (R77, R83). A partition in reset sends none but
vector 0 (R93), and no function sends one once the host link has gone down with die 0 (R28). -/
def State.vec (s : State) (part vec : Nat) : State :=
  if !s.hostUp || (s.getF PRT_STAT.RST part = 1 && vec ≠ 0) then s else s.send (.msix (part + 1) vec)
/-- Vector of the physical function. -/
def State.pfVec (s : State) (vec : Nat) : State := if s.hostUp then s.send (.msix 0 vec) else s

/-- Ring entry, slot base and so on are scratchpad bytes of a context's partition; the offset in the core. -/
def Bank.at_ (b : Bank) (off : Nat) : Nat := b.spadBase + off
/-- Whether an access of n bytes at an offset lies in the partition (R132). -/
def Bank.holds (b : Bank) (off n : Nat) : Bool := decide (off + n ≤ b.spadSize)

/-- Scratchpad bytes of a context's partition. -/
def State.spadBytes (s : State) (core ctx off n : Nat) : List Byte :=
  bytesAt (s.core core).spad ((s.bank (ctxOf core ctx)).at_ off) n
/-- A little-endian number in a context's partition. -/
def State.spadNat (s : State) (core ctx off n : Nat) : Nat := leNat (s.spadBytes core ctx off n)

/-- The bytes the state had before a store, with their tick: what the control core goes on seeing for two ticks
(R176). -/
def freshen (now : Nat) (m : SMap Byte) (a n : Nat) (old : List (Nat × Nat × Byte)) : List (Nat × Nat × Byte) :=
  (old.filter (fun e => now < e.1 + 2)) ++ (List.range n).map (fun i => (now, a + i, m.look (a + i)))

/-- The state with bytes stored in a context's partition, at an offset that lies in it. -/
def State.spadStore (s : State) (core ctx off : Nat) (b : List Byte) : State :=
  let a := (s.bank (ctxOf core ctx)).at_ off
  s.modCore core fun c =>
    { c with spad := putBytes c.spad a b, fresh := freshen s.now c.spad a b.length c.fresh }

/-- A byte as the control core sees it now: writes of this tick and the tick before are not seen yet (R176). -/
def CoreSt.seenByte (c : CoreSt) (now a : Nat) : Byte :=
  match c.fresh.find? (fun e => e.2.1 = a && now < e.1 + 2) with
  | some e => e.2.2
  | none => c.spad.look a
/-- A number in a context's partition as the control core sees it (R176). -/
def State.seenNat (s : State) (core ctx off n : Nat) : Nat :=
  let a := (s.bank (ctxOf core ctx)).at_ off
  leNat ((List.range n).map fun i => (s.core core).seenByte s.now (a + i))
/-- Bytes of a context's partition as an engine reads them: from before every write of the tick (R157). -/
def State.engineBytes (s : State) (core ctx off n : Nat) : List Byte :=
  let a := (s.bank (ctxOf core ctx)).at_ off
  let c := s.core core
  (List.range n).map fun i =>
    match c.fresh.find? (fun e => e.2.1 = a + i && e.1 = s.now) with
    | some e => e.2.2
    | none => c.spad.look (a + i)

/-- Counter fields that saturate with a sticky flag (R188, R191, R192). -/
def State.addSat (s : State) (count sat : CsrField) (i n : Nat) : State :=
  let v := s.getF count i + n
  if v ≤ count.top then s.setF count i v else (s.setF count i count.top).setF sat i 1

/-- The weight of an energy class of a cluster (R191). -/
def State.weight (s : State) (cluster k : Nat) : Nat := bits (s.csrVal .CCC_EWT cluster).toNat (8 * k + 7) (8 * k)
/-- Energy counted at a cycle joins a die's log. -/
def logEnergy (now n : Nat) (l : List (Nat × Nat)) : List (Nat × Nat) :=
  if n = 0 then l
  else match l with
    | (t, e) :: r => if t = now then (t, e + n) :: r else (now, n) :: l
    | [] => [(now, n)]
/-- A charge to a context's energy counter (R191, R192), which the power estimate of its die follows (R24). -/
def State.charge (s : State) (core ctx n : Nat) : State :=
  let s := s.addSat CCC_ECNT.COUNT CCC_ECNT.SAT (ctxOf core ctx) n
  { s with energyLog := s.energyLog.upd (dieOf core) (logEnergy s.now n) }

/-- The ticks of a core without a charged context, up to a time, charged to CCC_EIDLE (R191). -/
def State.accountIdle (s : State) (core upTo : Nat) : State :=
  let c := s.core core
  let f := c.idleF + (upTo - c.idleTo) * s.getF CCC_ESTAT.STATIC (clusterOf core)
  (s.addSat CCC_EIDLE.COUNT CCC_EIDLE.SAT core (f / 256)).modCore core fun c =>
    { c with idleF := f % 256, idleTo := max c.idleTo upTo }

/-- The static charge of a tick in which a context issues, holds, drains or restores (R191). -/
def State.chargeStaticAt (s : State) (core ctx at_ : Nat) : State :=
  let s := (s.accountIdle core at_).modCore core fun c => { c with idleTo := max c.idleTo (at_ + 1) }
  let b := ctxOf core ctx
  let f := s.getF CCC_ECNT.F b + s.getF CCC_ESTAT.STATIC (clusterOf core)
  (s.setF CCC_ECNT.F b (f % 256)).charge core ctx (f / 256)
/-- The same for the present tick. -/
def State.chargeStatic (s : State) (core ctx : Nat) : State := s.chargeStaticAt core ctx s.now

/-- Event counter i of a core takes n counts of an event of a context (R188). -/
def State.countOne (s : State) (core ctx code n i : Nat) : State :=
  let k := 4 * core + i
  if s.getF CCC_EVT.EN k = 1 && s.getF CCC_EVT.SEL k = code &&
      (s.getF CCC_EVT.ALL k = 1 || s.getF CCC_EVT.CTX k = ctx) then
    s.addSat CCC_EVT.COUNT CCC_EVT.SAT k n
  else s
/-- An event of R188 at a core, for the four counters. -/
def State.count (s : State) (core ctx code n : Nat) : State :=
  (List.range 4).foldl (fun s i => s.countOne core ctx code n i) s

/-- A slot operation issues with its guard true: event 0x03 and the weight of its class, times n, at the energy
percentage pct (R191). -/
def State.issued (s : State) (cls n pct : Nat) : State :=
  let c := s.env.core
  (s.count c s.env.ctx 0x03 1).charge c s.env.ctx (ceilDiv (s.weight (clusterOf c) cls * n * pct) 100)

/-- One of the operation's class, without a percentage. -/
def State.issued1 (s : State) (cls : Nat) : State := s.issued cls 1 100

/-- Whether the operation's task runs in dynamic mode (R179, byte 2 bit 0 of its header). -/
def Task.dynamic (t : Task) : Bool := (t.hdr.getD 2 0).getLsbD 0
/-- A field of the task's kernel header (R179): n little-endian bytes at an offset. -/
def Task.hdrNat (t : Task) (off n : Nat) : Nat := leNat ((t.hdr.drop off).take n)
/-- KIND of a loop level (R180). -/
def Task.loopKind (t : Task) (l : Nat) : Nat := bits (t.hdrNat (64 + 8 * l) 8) 63 62
/-- Whether the class is fast or slow: classes 0 fast, 1 slow, 2 system, 3 bulk are codes of R105. -/
def Task.rt (t : Task) : Bool := t.cls = 0 || t.cls = 1

/-- Core of a team index (R168): the lowest cores of the placement group. -/
def Task.coreAt (t : Task) (i : Nat) : Nat := t.group + i
/-- Core indices of the team. -/
def Task.idxs (t : Task) : List Nat := List.range t.team
/-- The distribution skew of a core index (R167). -/
def skew (i : Nat) : Nat := if i = 0 then 0 else if i ≤ 2 then 1 else 2

end Sys2Proof.Machine
end

