-- ==== Sys2Proof/Machine/Mem.lean ====
section
/-! DEFINITION. Memory by physical address: the local map and ownership (R40, R41, R134, R135), the caches (R137 to R142), translation (R146, R147), the actions of releases and acquires (R158), uncached and write-combining traffic (R152). Every write performs at once at the point the rules name; how long an access takes is decided where it is issued. -/

namespace Sys2Proof.Machine

/-- Fields of a physical address (R40). -/
def paD (pa : Nat) : Bool := bit pa 51
def paMod (pa : Nat) : Nat := bits pa 45 40
def paOff (pa : Nat) : Nat := pa % 2 ^ 40
/-- Host memory of the local map (R134). -/
def isHost (pa : Nat) : Bool := !paD pa && decide (2 ^ 39 ≤ paOff pa)
/-- HBM stack of a local offset below 2^39, and the die that owns it (R134). -/
def stackOf (pa : Nat) : Nat := paOff pa / 2 ^ 36
def ownerDie (pa : Nat) : Nat := stackOf pa / 2
/-- Whether a local offset lies in a stack's 64 × 10^9 bytes or in host memory (R134). -/
def backed (pa : Nat) : Bool := isHost pa || decide (paOff pa % 2 ^ 36 < 64000000000)

/-- Modules of the domain (R54). -/
def State.domSize (s : State) : Nat :=
  let n := s.getF FAB_DOM_CFG.SIZE 0
  if n = 0 || 64 < n then 1 else n
/-- Whether a physical address with D set names this module, so that the access loops back (R41). -/
def State.loops (s : State) (pa : Nat) : Bool := paD pa && paMod pa = s.getF FAB_DOM_CFG.MODID 0
/-- Whether the data lies in another module. -/
def State.abroad (s : State) (pa : Nat) : Bool := paD pa && !s.loops pa

/-- check_target (R147): 0, or the cause. -/
def State.checkTarget (s : State) (part pa : Nat) : Nat :=
  if bits pa 50 46 ≠ 0 then 0x21
  else if paD pa then
    (if s.getF FAB_DOM_CFG.EN 0 = 0 || s.domSize ≤ paMod pa then 0x22 else 0)
  else if paMod pa ≠ 0 then 0x21
  else if isHost pa then 0
  else if !backed pa then 0x15
  else
    let b := bits pa 38 30
    if s.getF PRT_MEM_OWN.EN b = 1 && s.getF PRT_MEM_OWN.PRT b = part then 0 else 0x24

/-- The canonical form of memory: rising addresses, and no listed byte equal to what an unlisted address reads as, 0
(notes/assumptions/4.md). -/
abbrev Memory.wf (m : List Host.Cell) : Bool := SMap.wf m
/-- Bytes of a stack or of host memory. -/
def State.memBytes (s : State) (off n : Nat) : List Byte := bytesAt s.mem off n
def State.memStore (s : State) (off : Nat) (b : List Byte) : State := { s with mem := putBytes s.mem off b }
def State.memStoreMasked (s : State) (off : Nat) (b : List Byte) (m : List Bool) : State :=
  { s with mem := putMasked s.mem off b m }

/-! Bandwidth slots -/

/-- Whether an event of a kind already stands on the agenda. -/
def State.due (s : State) (ev : Ev) : Bool := s.agenda.any fun d => decide (d.ev = ev)

/-- Ticks from now to the next start of an HBM slot; slot n of a frame starts at frame tick (125 × n) div 8 (R115). -/
def bwsWait (tick : Nat) : Nat :=
  let ft := tick % 8000
  let n0 := ft * 8 / 125
  match firstFrom (fun n => decide (ft < 125 * n / 8)) 3 n0 with
  | some n => 125 * n / 8 - ft
  | none => 8000 - ft

/-- The number by which a session of a die owns slots and queues its transfers (R115); partition p's fabric arrivals
have 1024 + p (R37). -/
def ownerKey (die session : Nat) : Nat := 256 * die + session
/-- Owners of one class take turns in ascending session number, fabric arrivals last (R37, R115). -/
def ownerRank (k : Nat) : Nat := if k < 1024 then 4 * (k % 256) + k / 256 else k

/-- A transfer of bytes joins the queue of a stack; when they have all been served, the event follows, if it names one
(R115, R143). `who` is the maintenance operation that it belongs to, plus 1. -/
def State.hbm (s : State) (j cls part owner bytes : Nat) (ev : Option Ev) (who : Nat := 0) : State :=
  let x : Xfer := { cls := cls, part := part, owner := owner, tick := s.now, n := max 1 bytes, ev := ev, who := who }
  let s := { s with bwsQ := s.bwsQ.put j (s.bwsQ.look j ++ [x]) }
  let e := Ev.bwsSlot (Fin.ofNat 8 j)
  if s.due e || s.tickBase.isNone then s else s.sched (s.now + bwsWait s.tick) phHost e

/-- A transfer in the slots of a task's stream; one that no task asked for is bulk traffic. -/
def State.hbmTask (s : State) (j task bytes : Nat) (ev : Option Ev) (who : Nat := 0) : State :=
  let t := s.task task
  if bytes = 0 then s
  else s.hbm j (if task = 0 then 3 else t.cls) t.part (ownerKey t.die t.session) bytes ev who

/-- The state after a step taken on behalf of a task: what it moves on its way takes that task's slots (R143). -/
def State.asTask (s : State) (task : Nat) (f : State → State) : State :=
  { f { s with env := { s.env with task := task } } with env := s.env }

/-- The line of an address, and the sector of an offset in a line. -/
def lineOf (pa : Nat) : Nat := pa - pa % 128

/-- The ways of a partition in a die's LLC (R80). -/
def State.llcWays (s : State) (die part : Nat) : List Nat :=
  let m := (s.csrVal .PRT_LLC_WAYS part).toNat
  (List.range 32).filter fun w => bit m (32 * die + w)

/-- Key of a line in a cache of 32 places per set. -/
def lineKey (set way : Nat) : Nat := set * 32 + way
/-- LLC set and L1 sets (R138). -/
def llcSet (pa : Nat) : Nat := bits pa 22 7
def l1Set (fused : Bool) (pa : Nat) : Nat := if fused then bits pa 16 10 else bits pa 13 7

/-- Where a cache holds a line. -/
def findLine (m : SMap Line) (set : Nat) (ways : List Nat) (la : Nat) : Option Nat :=
  (ways.map (lineKey set)).find? fun k => let l := m.look k; !l.data.isEmpty && l.pa = la

/-- The way of a new line and the re-reference values after the choice (R139): a free way, the lowest first,
otherwise the line with V = 7 in the lowest way, after raising every line by 7 minus the largest V when none has. -/
def chooseVictim (m : SMap Line) (set : Nat) (ways : List Nat) : Option (Nat × SMap Line) :=
  let ks := ways.map (lineKey set)
  match ks.find? (fun k => (m.look k).data.isEmpty) with
  | some k => some (k, m)
  | none =>
    let top := ks.foldl (fun t k => max t (m.look k).v) 0
    let m := ks.foldl (fun m k => m.upd k fun l => { l with v := l.v + (7 - top) }) m
    match ks.find? (fun k => (m.look k).v = 7) with
    | some k => some (k, m)
    | none => none

/-- 128 copies of a value. -/
def whole {α : Type} (x : α) : List α := List.replicate 128 x
/-- A mask of n places from o in a line. -/
def spanMask (o n : Nat) : List Bool := (List.range 128).map fun i => decide (o ≤ i ∧ i < o + n)
/-- The bytes b placed from o in a line. -/
def placed (o : Nat) (b : List Byte) : List Byte := (List.range 128).map fun i => if o ≤ i then b.getD (i - o) 0 else 0
/-- Bytes of the second under the mask, of the first elsewhere. -/
def mergeBytes (a b : List Byte) (m : List Bool) : List Byte :=
  (List.range 128).map fun i => if m.getD i false then b.getD i 0 else a.getD i 0
def orMask (a b : List Bool) : List Bool := (List.range 128).map fun i => a.getD i false || b.getD i false
def andNot (a b : List Bool) : List Bool := (List.range 128).map fun i => a.getD i false && !b.getD i false
/-- Masks widened to whole sectors. -/
def sectorMask (m : List Bool) : List Bool :=
  let lo := (m.take 64).any id
  let hi := (m.drop 64).any id
  List.replicate 64 lo ++ List.replicate 64 hi
/-- Whether every place of a mask is in another. -/
def covers (a b : List Bool) : Bool := (List.range 128).all fun i => a.getD i false || !b.getD i false
/-- Set places of a mask. -/
def countMask (m : List Bool) : Nat := (m.filter id).length
/-- A line none of whose bytes is held leaves its cache. -/
def Line.settle (l : Line) : Line := if l.held.any id then l else {}

/-- The stack's bytes of a line of the module. -/
def State.stackLine (s : State) (la : Nat) : List Byte := s.memBytes (paOff la) 128

/-- The memory side's bytes of a line on a stack: the owning die's LLC ways of the partition, then the stack (R152). -/
def State.sideLine (s : State) (part la : Nat) : List Byte :=
  let d := ownerDie la
  match findLine (s.die d).llc (llcSet la) (s.llcWays d part) la with
  | some k => let l := (s.die d).llc.look k; mergeBytes (s.stackLine la) l.data l.held
  | none => s.stackLine la

/-- The bytes of an access at the memory side (R152): n bytes that may span lines; host memory at the host ordering
point. -/
def State.sideBytes (s : State) (part pa n : Nat) : List Byte :=
  if 2 ^ 39 ≤ paOff pa then s.memBytes (paOff pa) n
  else
    let la := lineOf (paOff pa)
    (((List.range (n / 128 + 2)).map fun i => s.sideLine part (la + 128 * i)).flatten.drop (paOff pa - la)).take n

/-- The stack takes bytes of a line under a mask. -/
def State.stackStore (s : State) (la : Nat) (data : List Byte) (mask : List Bool) : State :=
  s.memStoreMasked (paOff la) data mask

/-- A line leaves a die's LLC: its dirty sectors are written whole (R137), in the slots of the stream whose fill evicts
them (R143). -/
def State.llcEvict (s : State) (l : Line) : State :=
  if l.dirty.any id then
    (s.stackStore l.pa l.data (sectorMask l.dirty)).hbmTask (stackOf l.pa) s.env.task (countMask (sectorMask l.dirty)) none
  else s

/-- A line of a die's LLC with sectors filled and bytes merged: data under `fill` becomes held, data under `dirt` held
and dirty. A new line takes V = v; an existing one V = 0 where `touch` (R139). Without ways, own dirty bytes go on to
the stack. -/
def State.llcPut (s : State) (die part la : Nat) (fill : List Byte) (fillM : List Bool) (data : List Byte)
    (dirt : List Bool) (v : Nat) (touch : Bool) : State :=
  let set := llcSet la
  let ways := s.llcWays die part
  let upd (l : Line) : Line :=
    { l with
      data := mergeBytes (mergeBytes l.data fill (andNot fillM l.held)) data dirt
      held := orMask (orMask l.held fillM) dirt
      dirty := orMask l.dirty dirt }
  match findLine (s.die die).llc set ways la with
  | some k => s.modDie die fun d => { d with llc := d.llc.upd k fun l => { upd l with v := if touch then 0 else l.v } }
  | none =>
    match chooseVictim (s.die die).llc set ways with
    | none => s.stackStore la data dirt
    | some (k, m) =>
      let old := m.look k
      let s := s.modDie die fun d => { d with llc := m }
      let s := if old.data.isEmpty then s else s.llcEvict old
      let l : Line := { pa := la, v := v, data := whole 0, held := whole false, dirty := whole false, part := part }
      s.modDie die fun d => { d with llc := d.llc.put k (upd l) }

/-- A line of another die's stack, or of another module, merged into a remote copy in place (R142). -/
def State.mergeRemote (s : State) (die part la : Nat) (data : List Byte) (mask : List Bool) : State :=
  match findLine (s.die die).llc (llcSet la) (s.llcWays die part) la with
  | some k => s.modDie die fun d =>
      { d with llc := d.llc.upd k fun l =>
        { l with v := 0, data := mergeBytes l.data data (andNot mask (andNot mask l.held)) } }
  | none => s

/-- The sectors of a die's line that a store touches and that it does not hold are filled in slots first (R137, R143). -/
def State.fillSlots (s : State) (die part la : Nat) (mask : List Bool) : State :=
  let held := match findLine (s.die die).llc (llcSet la) (s.llcWays die part) la with
    | some k => ((s.die die).llc.look k).held
    | none => whole false
  s.hbmTask (stackOf la) s.env.task (countMask (sectorMask (andNot (sectorMask mask) held))) none

/-- The stack's bytes are read into a die's own line, then bytes stored and marked dirty: an LLC store (R137). -/
def State.llcStore (s : State) (die part la : Nat) (data : List Byte) (mask : List Bool) (v : Nat) : State :=
  s.llcPut die part la (s.stackLine la) (sectorMask mask) data mask v true

/-- Masked bytes of a line on a stack of the module written through the memory side from a die (R142, R152): the
owning die's LLC holds them, and a remote copy on the writing die takes them in place. With V = 2 a core writes, and
sectors to be filled take slots of its task's stream; an engine, with V = 6, has taken its command's (R143). -/
def State.sideStore (s : State) (die part la : Nat) (data : List Byte) (mask : List Bool) (v : Nat) : State :=
  if 2 ^ 39 ≤ paOff la then s.memStoreMasked (paOff la) data mask
  else
    let s := if v = 2 then s.fillSlots (ownerDie la) part la mask else s
    let s := s.llcStore (ownerDie la) part la data mask v
    if ownerDie la = die then s else s.mergeRemote die part la data mask

/-- Bytes written to the stack itself, and to the copy that the owning die's LLC holds (R152): uncached stores and
drained write-combining buffers. -/
def State.stackAndCopy (s : State) (part la : Nat) (data : List Byte) (mask : List Bool) : State :=
  if 2 ^ 39 ≤ paOff la then s.memStoreMasked (paOff la) data mask
  else
    let d := ownerDie la
    let s := s.stackStore la data mask
    match findLine (s.die d).llc (llcSet la) (s.llcWays d part) la with
    | some k => s.modDie d fun dd => { dd with llc := dd.llc.upd k fun l =>
        { l with v := 0, data := mergeBytes l.data data (andNot mask (andNot mask l.held)) } }
    | none => s

/-- Bytes written to the stack, with the written sectors invalidated in the owning die's LLC ways of the partition:
rhizoids and the endpoint (R152). -/
def State.stackDrop (s : State) (part la : Nat) (data : List Byte) (mask : List Bool) : State :=
  if 2 ^ 39 ≤ paOff la then s.memStoreMasked (paOff la) data mask
  else
    let d := ownerDie la
    let s := s.stackStore la data mask
    match findLine (s.die d).llc (llcSet la) (s.llcWays d part) la with
    | some k => s.modDie d fun dd => { dd with llc := dd.llc.upd k fun l =>
        { l with held := andNot l.held (sectorMask mask), dirty := andNot l.dirty (sectorMask mask) }.settle }
    | none => s

/-- Bytes that may span lines, cut into lines: line address, data placed, mask. -/
def linesOf (pa : Nat) (b : List Byte) : List (Nat × List Byte × List Bool) :=
  let la := lineOf pa
  (List.range (b.length / 128 + 2)).filterMap fun i =>
    let l := la + 128 * i
    let o := pa - l
    let b' := if l ≤ pa then b.take (128 - o) else b.drop (l - pa)
    let b' := b'.take (128 - o)
    if (l ≤ pa && 128 ≤ pa - l) || b'.isEmpty then none else some (l, placed o b', spanMask o b'.length)

/-- A store of bytes at the memory side, by lines: f is one of the line stores above. -/
def State.byLines (s : State) (pa : Nat) (b : List Byte)
    (f : State → Nat → List Byte → List Bool → State) : State :=
  (linesOf pa b).foldl (fun s l => f s l.1 l.2.1 l.2.2) s

/-- A read at the memory side that hits a line of the owning die's LLC sets its V to 0 (R139). -/
def State.sideTouch (s : State) (part pa n : Nat) : State :=
  if paD pa || isHost pa then s
  else s.byLines pa (List.replicate n 0) fun s la _ m =>
    let d := ownerDie la
    match findLine (s.die d).llc (llcSet la) (s.llcWays d part) la with
    | some k =>
      if (andNot m (andNot m ((s.die d).llc.look k).held)).any id then
        s.modDie d fun x => { x with llc := x.llc.upd k fun l => { l with v := 0 } }
      else s
    | none => s

/-- A cluster's L1s are fused (R141). -/
def State.fused (s : State) (core : Nat) : Bool := s.getF CCC_L1_CFG.FUSED (clusterOf core) = 1
/-- The core that holds a line for a core (R138). -/
def State.l1Home (s : State) (core la : Nat) : Nat :=
  if s.fused core then 8 * clusterOf core + bits la 9 7 else core
/-- The cores whose L1s a core uses: its own, or the whole fused L1. -/
def State.l1Cores (s : State) (core : Nat) : List Nat :=
  if s.fused core then (List.range 8).map (8 * clusterOf core + ·) else [core]
/-- Where the L1 that a core uses holds a line. -/
def State.l1Find (s : State) (core la : Nat) : Option Nat :=
  findLine (s.core (s.l1Home core la)).l1 (l1Set (s.fused core) la) (List.range 16) la
/-- The line as the L1 that a core uses holds it. -/
def State.l1Line (s : State) (core la : Nat) : Line :=
  match s.l1Find core la with
  | some k => (s.core (s.l1Home core la)).l1.look k
  | none => {}

/-- A write to the memory side that its LLC lacks the line of: event 0x0D of the context that caused it (R188). `who` is its
core and context as one number. -/
def State.countLack (s : State) (part la who : Nat) : State :=
  let d := ownerDie la
  if isHost la || (findLine (s.die d).llc (llcSet la) (s.llcWays d part) la).isSome then s
  else s.count (who / 8) (who % 8) 0x0D 1

/-- Dirty bytes of an L1 line are written to the LLC of its die (R137, R139): only the masked bytes. A miss there counts for the
context that wrote them. -/
def State.l1WriteBack (s : State) (core : Nat) (l : Line) (sel : List Bool) : State :=
  let m := andNot l.dirty (andNot l.dirty sel)
  if m.any id then
    (s.countLack l.part l.pa (if (m.take 64).any id then l.writer.1 else l.writer.2)).sideStore (dieOf core) l.part l.pa l.data m 2
  else s

/-- A line of the L1 that a core uses, changed by a function; allocated with V = v when absent, its victim written
back. Nothing changes when no way is free, which the 16 ways exclude. -/
def State.l1Upd (s : State) (core part la v : Nat) (f : Line → Line) : State :=
  let h := s.l1Home core la
  let set := l1Set (s.fused core) la
  match s.l1Find core la with
  | some k => s.modCore h fun c => { c with l1 := c.l1.upd k f }
  | none =>
    match chooseVictim (s.core h).l1 set (List.range 16) with
    | none => s
    | some (k, m) =>
      let old := m.look k
      let s := s.modCore h fun c => { c with l1 := m }
      let s := if old.data.isEmpty then s else s.l1WriteBack h old (whole true)
      let l : Line := { pa := la, v := v, data := whole 0, held := whole false, dirty := whole false, part := part }
      s.modCore h fun c => { c with l1 := c.l1.put k (f l) }

/-- The writer tags of the sectors a mask touches (R137). -/
def tagWriter (w : Nat × Nat) (mask : List Bool) (who : Nat) : Nat × Nat :=
  (if (mask.take 64).any id then who else w.1, if (mask.drop 64).any id then who else w.2)

/-- A cacheable store performs in the L1 (R137, R139). -/
def State.l1Store (s : State) (core ctx part la : Nat) (data : List Byte) (mask : List Bool) : State :=
  let hit := (s.l1Find core la).isSome
  s.l1Upd core part la 2 fun l =>
    { l with
      v := if hit then 0 else 2
      data := mergeBytes l.data data mask
      held := orMask l.held mask
      dirty := orMask l.dirty mask
      writer := tagWriter l.writer mask (ctxOf core ctx) }

/-- A written-through store updates the bytes that the L1 holds of the line, without making them dirty (R142). -/
def State.l1Through (s : State) (core la : Nat) (data : List Byte) (mask : List Bool) : State :=
  match s.l1Find core la with
  | some k => s.modCore (s.l1Home core la) fun c => { c with l1 := c.l1.upd k fun l =>
      { l with v := 0, data := mergeBytes l.data data (andNot mask (andNot mask l.held)) } }
  | none => s

/-- Sectors that a mask touches leave the L1 that a core uses (R344). -/
def State.l1Drop (s : State) (core la : Nat) (mask : List Bool) : State :=
  match s.l1Find core la with
  | some k => s.modCore (s.l1Home core la) fun c => { c with l1 := c.l1.upd k fun l =>
      { l with held := andNot l.held (sectorMask mask), dirty := andNot l.dirty (sectorMask mask) }.settle }
  | none => s

/-- What a fill of a die's LLC brings of a line of the module: the stack's bytes, or the owning die's memory side
(R142). -/
def State.fillLine (s : State) (die part la : Nat) : List Byte :=
  if paD la then whole 0 else if ownerDie la = die then s.stackLine la else s.sideLine part la

/-- The sectors of a line that a fill touches enter a die's LLC with the bytes it brings (R137, R139). -/
def State.llcFill (s : State) (die part la rd : Nat) (want : List Bool) (src : List Byte) : State :=
  if rd = 7 && (findLine (s.die die).llc (llcSet la) (s.llcWays die part) la).isNone then s
  else s.llcPut die part la src (sectorMask want) (whole 0) (whole false) rd (rd ≠ 7)

/-- Whether a cacheable piece is in the LLC of the core's die already. -/
def State.llcHas (s : State) (die part pa n : Nat) : Bool :=
  (linesOf pa (List.replicate n 0)).all fun l =>
    match findLine (s.die die).llc (llcSet l.1) (s.llcWays die part) l.1 with
    | some k => covers ((s.die die).llc.look k).held l.2.2
    | none => false

/-- The line below the L1 as a core of a die reads it: the bytes that a fill would bring, under those its LLC holds. -/
def State.belowL1 (s : State) (die part la : Nat) (src : List Byte) : List Byte :=
  match findLine (s.die die).llc (llcSet la) (s.llcWays die part) la with
  | some k => let l := (s.die die).llc.look k; mergeBytes src l.data l.held
  | none => src

/-- A miss fills the sectors it touches into the L1, merging under the mask of bytes held (R137, R139). RD 7
allocates at neither level. `src` are the bytes that come from the stack, another die or another module (R142). -/
def State.l1FillFrom (s : State) (core part la rd : Nat) (want : List Bool) (src : List Byte) : State :=
  let s := s.llcFill (dieOf core) part la rd want src
  if rd = 7 && (s.l1Find core la).isNone then s
  else
    let data := s.belowL1 (dieOf core) part la src
    let hit := (s.l1Find core la).isSome
    s.l1Upd core part la rd fun l =>
      { l with
        v := if hit && rd ≠ 7 then 0 else l.v
        data := mergeBytes l.data data (andNot (sectorMask want) l.held)
        held := orMask l.held (sectorMask want) }

/-- The fill of a line of the module. -/
def State.l1Fill (s : State) (core part la rd : Nat) (want : List Bool) : State :=
  s.l1FillFrom core part la rd want (s.fillLine (dieOf core) part la)

/-- Whether every byte of an access of n bytes within lines hits the L1 (R141, R343). -/
def State.l1Hits (s : State) (core pa n : Nat) : Bool :=
  (linesOf pa (List.replicate n 0)).all fun l => covers (s.l1Line core l.1).held l.2.2

/-- A load's bytes as the core sees them: L1 bytes held, over what lies below. -/
def State.coreBytes (s : State) (core part pa n : Nat) : List Byte :=
  ((linesOf pa (List.replicate n 0)).map fun l =>
    let c := s.l1Line core l.1
    let d := mergeBytes (s.belowL1 (dieOf core) part l.1 (s.fillLine (dieOf core) part l.1)) c.data c.held
    (d.zip l.2.2).filterMap fun p => if p.2 then some p.1 else none).flatten

/-- A hit sets V to 0, but under RD 7 (R139). -/
def State.l1Touch (s : State) (core pa n rd : Nat) : State :=
  if rd = 7 then s
  else (linesOf pa (List.replicate n 0)).foldl (fun s l =>
    match s.l1Find core l.1 with
    | some k => s.modCore (s.l1Home core l.1) fun c => { c with l1 := c.l1.upd k fun x => { x with v := 0 } }
    | none => s) s

/-- Every line of a set of L1s changed, its selected dirty bytes first written back. -/
def State.l1Sweep (s : State) (cores : List Nat) (clean : Line → List Bool) (f : Line → Line) : State :=
  cores.foldl (fun s c =>
    (s.core c).l1.foldl (fun s kl =>
      let s := s.l1WriteBack c kl.2 (clean kl.2)
      s.modCore c fun cs => { cs with l1 := cs.l1.upd kl.1 f }) s) s

/-- The sectors a context wrote last, as a mask (R137). -/
def Line.writtenBy (l : Line) (who : Nat) : List Bool :=
  List.replicate 64 (decide (l.writer.1 = who)) ++ List.replicate 64 (decide (l.writer.2 = who))

/-- The context's dirty L1 sectors are cleaned into the LLC (R158). -/
def State.cleanOwn (s : State) (core ctx : Nat) : State :=
  let who := ctxOf core ctx
  s.l1Sweep (s.l1Cores core) (·.writtenBy who) fun l => { l with dirty := andNot l.dirty (l.writtenBy who) }

/-- Clean sectors of the L1s are dropped; in a dirty sector the bytes outside its mask are dropped (R158). -/
def State.dropClean (s : State) (cores : List Nat) : State :=
  s.l1Sweep cores (fun _ => whole false) fun l => { l with held := l.dirty }.settle

/-- All L1 lines of cores cleaned and invalidated (R141, R29, R189). -/
def State.l1CleanAll (s : State) (cores : List Nat) : State :=
  cores.foldl (fun s c => (((s.core c).l1.foldl (fun s kl => s.l1WriteBack c kl.2 (whole true)) s).modCore c
    fun cs => { cs with l1 := [] })) s

/-- Remote copies of a partition on a die are dropped: of other dies' stacks, and of other modules (R158). -/
def State.dropRemote (s : State) (die part : Nat) (dies modules : Bool) : State :=
  s.modDie die fun d => { d with llc := d.llc.filter fun kl =>
    !(kl.2.part = part && ((dies && !paD kl.2.pa && ownerDie kl.2.pa ≠ die) || (modules && paD kl.2.pa))) }

/-! The links between dies (R21) -/

/-- Whether a lane group of a pair's link is up. -/
def State.pairLive (s : State) (pr : Nat) : Bool := s.pairUp.getLsbD (2 * pr) || s.pairUp.getLsbD (2 * pr + 1)
/-- Key of the link between two dies. -/
def linkKey (a b : Nat) : Nat := 4 * min a b + max a b
/-- Whether what one die sends another arrives: the one link that joins them is up, and neither has stopped (R21, R212, R213;
the last is DEDUCED, notes/assumptions/70.md). -/
def State.joined (s : State) (a b : Nat) : Bool :=
  a = b || (!(s.die a).stopped && !(s.die b).stopped &&
    if a / 2 = b / 2 then s.pairLive (a / 2) else !s.crossDown.look (linkKey a b))

/-! Translation -/

/-- A level of the walk (R146): index bits, log2 of the leaf page, log2 of the table's alignment. -/
structure WalkLevel where
  hi : Nat
  lo : Nat
  shift : Nat
  align : Nat

/-- Kinds of access: 0 read, 1 write, 2 rmw, 3 exec (R147). -/
def permitted (e kind : Nat) : Bool :=
  match kind with
  | 0 => bit e 2
  | 1 => bit e 3
  | 2 => bit e 2 && bit e 3
  | _ => bit e 4

/-- The four levels T3 to T0 (R146). -/
def walkLevels : List WalkLevel := [⟨56, 39, 39, 16⟩, ⟨38, 30, 30, 12⟩, ⟨29, 21, 21, 12⟩, ⟨20, 16, 16, 8⟩]

/-- An entry as the walker reads it through the memory side. A table in another module cannot be seen from here:
its entry is a free value. -/
def State.readEntry (s : State) (part pa : Nat) : Nat :=
  if s.abroad pa then (Config.freeWord pa).toNat else leNat (s.sideBytes part pa 8)

/-- Whether the host refuses a partition's access to one of its pages (R136). -/
def State.hostRefuses (s : State) (part pa : Nat) : Bool :=
  isHost pa && s.hostDeny.look (part * 2 ^ 27 + paOff pa / 4096)

/-- Bytes of 2 MiB. -/
def mib2 : Nat := 2 ^ 21

/-- The window that decides an access: the enabled one of lowest number in which it lies (R42, R43). -/
def State.window (s : State) (off n : Nat) : Option Nat :=
  (List.range 64).find? fun w =>
    s.getF FAB_WIN.EN w = 1 &&
    decide (mib2 * s.getF FAB_WIN.BASE w ≤ off ∧ off + n ≤ mib2 * (s.getF FAB_WIN.BASE w + s.getF FAB_WIN.SIZE w))

/-- Whether the window check refuses a partition's access that loops back (R41, R42). -/
def State.loopRefuses (s : State) (part pa n : Nat) : Bool :=
  s.loops pa && match s.window (paOff pa) n with
    | none => true
    | some w => s.getF FAB_WIN.TAG w ≠ s.getF FAB_PTAG.TAG part || !backed (paOff pa)

/-- The cause that a table's address raises before it is read, 0 for none (R136, R147). -/
def State.tableCause (s : State) (part : Nat) (lv : WalkLevel) (table : Nat) : Nat :=
  if table % 2 ^ lv.align ≠ 0 then 0x14
  else
    let c := s.checkTarget part table
    if c ≠ 0 then c else if s.hostRefuses part table then 0x25 else 0

/-- What an entry that has been read means: a fault, the next table, or a leaf. -/
inductive Entry where
  | fault (cause : Nat)
  | table (pa : Nat)
  | leaf (x : Xlate)
  deriving DecidableEq, Repr

/-- An entry of a level as the walk takes it (R147). -/
def WalkLevel.entry (lv : WalkLevel) (last : Bool) (part va e : Nat) : Entry :=
  if !bit e 0 then .fault 0x12
  else if bits e 63 52 ≠ 0 then .fault 0x14
  else if bit e 1 then
    if last || bits e 6 5 ≠ 0 then .fault 0x14 else .table (bits e 51 8 * 2 ^ 8)
  else if lv.shift = 39 || bits e 6 5 = 3 then .fault 0x14
  else if bits e 51 8 * 2 ^ 8 % 2 ^ lv.shift ≠ 0 then .fault 0x14
  else .leaf { part := part, va := va - va % 2 ^ lv.shift, size := lv.shift, entry := BitVec.ofNat 64 e }

/-- The physical address a translation gives. -/
def Xlate.pa (x : Xlate) (va : Nat) : Nat := bits x.entry.toNat 51 8 * 2 ^ 8 + va % 2 ^ x.size

/-- The cause that an access meets at a leaf, 0 for none (R147). -/
def State.leafCause (s : State) (x : Xlate) (va kind : Nat) : Nat :=
  if !permitted x.entry.toNat kind then 0x13 else s.checkTarget x.part (x.pa va)

/-- The walk of R147 below address bits 63:57: cause (0 none) and the translation found. -/
def State.walkFrom (s : State) (part va kind : Nat) : List WalkLevel → Nat → Nat × Xlate
  | [], _ => (0x14, {})
  | lv :: rest, table =>
    let c := s.tableCause part lv table
    if c ≠ 0 then (c, {})
    else
      match lv.entry rest.isEmpty part va (s.readEntry part (table + 8 * bits va lv.hi lv.lo)) with
      | .fault c => (c, {})
      | .table t => s.walkFrom part va kind rest t
      | .leaf x => let c := s.leafCause x va kind; (c, if c = 0 then x else {})

/-- translate (R147) by a walk: cause and translation. A partition's tree is rooted at PRT_TT_ROOT. -/
def State.walk (s : State) (part va kind : Nat) : Nat × Xlate :=
  if bits va 63 57 ≠ 0 then (0x11, {})
  else s.walkFrom part va kind walkLevels (s.getF PRT_TT_ROOT.ROOT part * 2 ^ 16)

/-- A cached translation that covers an address. -/
def findX (l : List Xlate) (part va : Nat) : Option Xlate :=
  l.find? fun x => x.part = part && va / 2 ^ x.size = x.va / 2 ^ x.size
/-- Memory type of a translation; type 0 on a host page acts as 1 (R140). -/
def Xlate.mt (x : Xlate) (va : Nat) : Nat :=
  let m := bits x.entry.toNat 6 5
  if m = 0 && isHost (x.pa va) then 1 else m

/-- A list of at most n translations with one more; which leaves a full translator is free (R148 gives sizes). -/
def putX (n : Nat) (l : List Xlate) (x : Xlate) (free : Nat) : List Xlate :=
  if l.contains x then l
  else if l.length < n then x :: l
  else x :: l.eraseIdx (Config.freeNat free % n)

/-- What a translator answers (R148, R150): a translation, a fault cause, or a walk is needed. -/
inductive Trans where
  | hit (x : Xlate)
  | fault (cause : Nat)
  | miss
  deriving DecidableEq, Repr

/-- The lock array is consulted before the translator's own cache (R150). A permission violation on a held page is
cause 0x13 (R151); an access of the domain is judged by the registers of the moment (R41, R54). -/
def State.translate (s : State) (die part va kind : Nat) (tlb : List Xlate) : Trans :=
  if bits va 63 57 ≠ 0 then .fault 0x11
  else
    match (findX (s.die die).lockArr part va).or (findX tlb part va) with
    | some x =>
      if !permitted x.entry.toNat kind then .fault 0x13
      else if paD (x.pa va) && (s.getF FAB_DOM_CFG.EN 0 = 0 || s.domSize ≤ paMod (x.pa va)) then .fault 0x22
      else .hit x
    | none => .miss

/-- A translation at once, for agents whose walk time is part of their own latency: cached, or walked now. -/
def State.translateNow (s : State) (die part va kind : Nat) (tlb : List Xlate) : Nat × Xlate :=
  match s.translate die part va kind tlb with
  | .hit x => (0, x)
  | .fault c => (c, {})
  | .miss => s.walk part va kind

/-- The class of a translation or partition cause as a fetch cause: bit 3 set (R147). -/
def fetchCause (c : Nat) : Nat := c + 8

end Sys2Proof.Machine
end

