-- ==== Sys2Proof/Machine/Link.lean ====
section
/-! DEFINITION. The queues through which traffic leaves: HBM bandwidth slots (05 R115, 06 R143) and Wovor port slots (02 R33 to R38, R44 to R48). -/

namespace Sys2Proof.Machine

/-- The number of the HBM slot that starts at a frame tick. -/
def bwsIndex (tick : Nat) : Nat :=
  let ft := tick % 8000
  (firstFrom (fun n => 125 * n / 8 = ft) 3 (ft * 8 / 125)).getD 0

/-- The SLOTS entry of a stream for a stack, at the level in force of its session (R107, R115). -/
def State.slotsOf (s : State) (die : Nat) (st : Stream) (j : Nat) : Nat :=
  let lv := s.getF DLS_SES.LEVEL (256 * die + st.session)
  if st.cls = 1 && 2 ≤ lv then 0 else (st.vars.getD lv {}).slots.getD j 0

/-- The owners of a class's slots of a stack in order: (owner, count); reservations of fabric arrivals of partition p
follow (R37, R115). -/
def State.bwsOwners (s : State) (j cls : Nat) : List (Nat × Nat) :=
  let of (session : Nat) : List (Nat × Nat) :=
    (List.range 4).filterMap fun d =>
      (s.streams.find? fun e => e.1 / 1024 = d && e.2.valid && e.2.cls = cls && e.2.session = session).map
        fun e => (ownerKey d session, s.slotsOf d e.2 j)
  ((List.range 256).map of).flatten ++
    (List.range 16).map fun p =>
      (1024 + p, min 512 <| s.getF (if cls = 0 then BWS_FAB_IN.FAST else BWS_FAB_IN.SLOW) (16 * j + p))

/-- The entry of a list of counts that a position falls into. -/
def ownerAt : List (Nat × Nat) → Nat → Option Nat
  | [], _ => none
  | (o, n) :: l, i => if i < n then some o else ownerAt l (i - n)

/-- Class of an HBM slot and the session that owns it, if one does (R115). -/
def State.bwsOwner (s : State) (j n : Nat) : Nat × Option Nat :=
  let f := s.getF BWS_FRAME_CFG.FAST j
  let w := s.getF BWS_FRAME_CFG.SLOW j
  let y := s.getF BWS_FRAME_CFG.SYSTEM j
  if n < f then (0, ownerAt (s.bwsOwners j 0) n)
  else if n < f + w then (1, ownerAt (s.bwsOwners j 1) (n - f))
  else if n < f + w + y then (2, none)
  else (3, none)

/-- Which queued transfer a slot serves (R115): its owner's, then its class's in session order, then bulk, then
system. -/
def bwsPick (q : List Xfer) (cls : Nat) (owner : Option Nat) : Option Nat :=
  let idx := List.range q.length
  let at_ (i : Nat) : Xfer := q.getD i {}
  let least (f : Xfer → Bool) : Option Nat :=
    leastBy (fun a b => decide (ownerRank (at_ a).owner < ownerRank (at_ b).owner)) (idx.filter fun i => f (at_ i))
  ((idx.find? fun i => (at_ i).cls = cls && some (at_ i).owner = owner).or (least fun x => x.cls = cls)).or
    ((idx.find? fun i => (at_ i).cls = 3).or (idx.find? fun i => (at_ i).cls = 2))

/-- A slot that finds nothing to serve in R115's order serves the oldest transfer of a class that has no slots in its stack's
frame (notes/assumptions/92.md). -/
def State.bwsStray (s : State) (j : Nat) (q : List Xfer) : Option Nat :=
  (List.range q.length).find? fun i =>
    let c := (q.getD i {}).cls
    (c = 0 && s.getF BWS_FRAME_CFG.FAST j = 0) || (c = 1 && s.getF BWS_FRAME_CFG.SLOW j = 0)

/-- What a slot moves: of the transfers of one class and owner, in order, as many bytes as it has room for. The queue that
is left, and the events of what is whole. -/
def bwsTake (cls owner : Nat) : Nat → List Xfer → List Xfer × List Ev
  | _, [] => ([], [])
  | 0, q => (q, [])
  | room + 1, x :: q =>
    if x.cls = cls && x.owner = owner then
      if x.n ≤ room + 1 then
        let r := bwsTake cls owner (room + 1 - x.n) q
        (r.1, x.ev.toList ++ r.2)
      else ({ x with n := x.n - (room + 1) } :: q, [])
    else
      let r := bwsTake cls owner (room + 1) q
      (x :: r.1, r.2)

/-! Wovor ports -/

/-- Member h of a port mask, counted from the lowest set bit. -/
def maskMember (m h : Nat) : Nat := ((List.range 36).filter (bit m)).getD h 0

/-- The routes to a module (R44); a port that has gone down is not among them from the next frame boundary on (R53). -/
def State.routeMask (s : State) (m : Nat) : Nat := s.getF FAB_ROUTE.PORTS m

/-- The port of a sector (R44). -/
def routePort (mask pa : Nat) : Nat := maskMember mask (bits pa 45 6 % 65521 % max 1 (popN 36 mask))

/-- A flit waits for a slot of its class and partition at a port (R35); control messages wait for control positions. -/
def State.enqueue (s : State) (p target cls part : Nat) (m : FlitMsg) (control : Bool) (who : Nat := 0) : State :=
  let f : OutFlit := { cls := cls, part := part, who := who,
                       fl := { seq := 0, cls := cls, part := part, msg := m, source := s.getF FAB_DOM_CFG.MODID 0, target := target } }
  let s := { s with ports := s.ports.upd p fun o =>
    if control then { o with control := o.control ++ [f] } else { o with q := o.q ++ [f] } }
  let e := Ev.fabSlot (Fin.ofNat 36 p)
  if s.due e || s.tickBase.isNone then s else s.sched (s.now + (32 - s.tick % 32)) phHost e

/-- FAB_TMO in ticks of 4 GHz (R48, R54). -/
def State.fabTmo (s : State) : Nat := max 1 (s.getF FAB_DOM_CFG.TMO 0) * 4000

/-- The context that issued an access, plus 1; 0 when none did. -/
def State.fabWho (s : State) (f : Fabric) : Nat :=
  match f.load, f.store, f.cmd, f.sub with
  | some l, _, _, _ => let x := s.loads.look l; ctxOf x.core x.ctx + 1
  | _, some p, _, _ => let x := s.stores.look p; ctxOf x.core x.ctx + 1
  | _, _, some c, _ => let x := s.cmd c; ctxOf x.core x.ctx + 1
  | _, _, _, some u => let x := s.subs.look u; ctxOf x.core x.ctx + 1
  | _, _, _, _ => match f.poll with | some core => ctxOf core (s.task f.task).ctx + 1 | none => 0

/-- A looped-back access arrives after those to its sector that were sent before (R41, R45). -/
def State.loopBack (s : State) (a : RemoteAccess) : State :=
  let last := s.agenda.foldl (fun t d => match d.ev with
    | .fabAccessArrive b => if b.offset / 64 = a.offset / 64 then max t d.time else t
    | _ => t) 0
  (s.sched (max last (s.now + 1 + Config.freeNat s.free)) phMem (.fabAccessArrive a)).freed

/-- The port of an access: that of an earlier one of its context to its sector which still waits for a port that is down,
behind which it goes (R45, R53), otherwise the one that R44 gives. -/
def State.accessPort (s : State) (f : Fabric) (mask pa : Nat) : Nat :=
  let who := s.fabWho f
  match s.fabric.find? fun e => who ≠ 0 && e.2.pa / 64 = pa / 64 && !e.2.inside && s.fabWho e.2 = who &&
      s.getF FAB_PORT_STAT.STATE e.2.port ≠ 2 with
  | some e => e.2.port
  | none => routePort mask pa

/-- A remote or looped-back access is sent (R38, R41, R44): the entry is taken, and the answer comes as an event. `f`
says who waits for it. -/
def State.sendAccess (s : State) (f : Fabric) (cls pa : Nat) (kind : AccessKind) (b : List Byte) (mask : List Bool)
    (len : Nat) (key : List Nat := []) : State :=
  let (id, s) := s.newId
  let a : RemoteAccess :=
    { id := id, module := s.getF FAB_DOM_CFG.MODID 0, tag := BitVec.ofNat 16 (s.getF FAB_PTAG.TAG f.part),
      cls := cls, kind := kind, offset := paOff pa, bytes := b, mask := mask, len := len, key := key, tick := s.tick }
  let m := paMod pa
  let mask := s.routeMask m
  let port := s.accessPort f mask pa
  let s := if kind = .read then s
    else { s with fabric := s.fabric.foldl (fun q e =>
      if e.2.pa / 64 = pa / 64 && e.2.acc.kind = .read then q.upd e.1 fun x => { x with noFill := true } else q) s.fabric }
  let s := { s with fabric := s.fabric.put id { f with id := id, module := m, port := port, acc := a, pa := pa } }
  if s.loops pa then s.loopBack a
  else if mask = 0 then s.sched (s.now + 1) phMem (.fabResponse id .unreachable [])
  else
    let s := s.enqueue port m cls f.part (.data [.access a]) false (s.fabWho f)
    s.sched (s.now + s.fabTmo) phMem (.fabTimeout id)

/-- An access to memory of a die that cannot be reached ends as cause 0x31 (R212, R213). -/
def State.strand (s : State) (f : Fabric) : State :=
  let (id, s) := s.newId
  { s with fabric := s.fabric.put id { f with id := id, inside := true } }.sched (s.now + 1) phMem
    (.fabResponse id .unreachable [])

/-- Bytes cut at 64-byte sectors: address and bytes of each. -/
def sectorsOf (pa : Nat) (b : List Byte) : List (Nat × List Byte) :=
  let s0 := pa - pa % 64
  (List.range (b.length / 64 + 2)).filterMap fun i =>
    let lo := max pa (s0 + 64 * i)
    let hi := min (pa + b.length) (s0 + 64 * (i + 1))
    if lo < hi then some (lo, (b.drop (lo - pa)).take (hi - lo)) else none

/-- A write of bytes to another module or through the loop, sector by sector (R46). -/
def State.sendWrite (s : State) (f : Fabric) (cls pa : Nat) (b : List Byte) : State :=
  (sectorsOf pa b).foldl (fun s e =>
    s.sendAccess f cls e.1 .write e.2 (List.replicate e.2.length true) e.2.length) s

/-- Contexts of a task. -/
def Task.banks (t : Task) : List Nat := t.idxs.map fun i => ctxOf (t.coreAt i) t.ctx

/-- Entries of the fabric buffer table that a task holds (R38), from the issue of an access: one for each load or store with
an access outstanding, for each store that has not performed yet, for each write-combining buffer of another module's line,
for each put, get and all-reduce, and for each subscription with a source in another module. -/
def State.fabHeld (s : State) (task : Nat) : Nat :=
  let t := s.task task
  ((s.fabric.filter fun e => e.2.task = task && !e.2.inside && e.2.cmd.isNone && e.2.sub.isNone).map fun e =>
    (e.2.load, e.2.store)).eraseDups.length +
  (t.banks.map fun k =>
    let b := s.bank k
    (b.pend.filter fun l => match l.w with | .store pa .. => paD pa | _ => false).length +
      (b.heldStores.filter fun h => paD h.pa).length).foldl (· + ·) 0 +
  (t.idxs.map fun i => ((s.core (t.coreAt i)).wcb.filter fun e =>
    e.2.task = task && match e.2.line with | some la => paD la | none => false).length).foldl (· + ·) 0 +
  (s.cmds.filter fun e => e.2.task = task && e.2.holds && (e.2.kind = .put || e.2.kind = .get || e.2.kind = .fred)).length +
  (s.subs.filter fun e => e.2.task = task && e.2.remote).length

/-- A store of a context waits for n acknowledgements (R46, R142). -/
def State.pendStore (s : State) (core ctx task n : Nat) (wcb : Bool := false) : Nat × State :=
  let (id, s) := s.newId
  (id, { s with stores := s.stores.put id { id := id, core := core, ctx := ctx, task := task, n := n, wcb := wcb } })
/-- Masked sectors of one store of a context go to another module or through the loop (R46). -/
def State.sendStore (s : State) (core ctx task part : Nat) (l : List (Nat × List Byte × List Bool)) (wcb : Bool := false) :
    State :=
  let (id, s) := s.pendStore core ctx task l.length wcb
  l.foldl (fun s e =>
    s.sendAccess { task := task, part := part, store := some id } (s.tasks.look task).cls e.1 .write e.2.1 e.2.2 e.2.1.length) s
/-- A store of a context to a die that cannot be reached (R213). -/
def State.strandStore (s : State) (core ctx task part : Nat) (wcb : Bool := false) : State :=
  let (id, s) := s.pendStore core ctx task 1 wcb
  s.strand { task := task, part := part, store := some id }

/-! Write-combining buffers and the actions of scopes -/

/-- A write-combining buffer's written bytes go to the memory side (R152, R344), in slots of its task's stream, which a
full buffer has had before (R143). -/
def State.wcbFlush (s : State) (core buf : Nat) (part : Nat) : State :=
  let w := (s.core core).wcb.look buf
  let s := s.modCore core fun c => { c with wcb := c.wcb.put buf {} }
  match w.line with
  | none => s
  | some la =>
    if paD la then
      (s.mergeRemote (dieOf core) part la w.data w.mask).sendStore core w.ctx w.task part ([0, 64].filterMap fun o =>
        let m := (w.mask.drop o).take 64
        if m.any id then some (la + o, (w.data.drop o).take 64, m) else none) true
    else if isHost la then s.stackAndCopy part la w.data w.mask
    else if !s.joined (dieOf core) (ownerDie la) then s.strandStore core w.ctx w.task part true
    else
      let s := s.stackAndCopy part la w.data w.mask
      let s := if ownerDie la = dieOf core then s else s.mergeRemote (dieOf core) part la w.data w.mask
      if w.draining then s else s.hbmTask (stackOf la) w.task (countMask w.mask) none

/-- Every buffer of a context's core drains (R163). -/
def State.wcbFlushAll (s : State) (core part : Nat) : State :=
  (List.range 16).foldl (fun s b => s.wcbFlush core b part) s

/-- Release actions of a scope (R158): 0 context, 1 team, 2 cluster, 3 die, 4 module, 5 domain, 6 system. -/
def State.releaseActs (s : State) (core ctx part scope : Nat) : State :=
  if scope = 0 then s
  else if scope ≤ 2 then (if s.fused core then s else s.cleanOwn core ctx)
  else (s.cleanOwn core ctx).wcbFlushAll core part

/-- Acquire actions of a scope (R158). -/
def State.acquireActs (s : State) (core part scope : Nat) : State :=
  if scope = 0 then s
  else if scope ≤ 2 then (if s.fused core then s else s.dropClean [core])
  else
    let s := s.dropClean (s.l1Cores core)
    if scope = 3 then s else s.dropRemote (dieOf core) part true (5 ≤ scope)

/-- The bytes at the point of coherence of a scope, as an acquire reads them (R158): the core's view at context scope
and within a fused L1, the die's LLC, or the memory side. -/
def State.scopeBytes (s : State) (core part scope pa n : Nat) : List Byte :=
  if isHost pa then s.memBytes (paOff pa) n
  else if scope = 0 || (scope ≤ 2 && s.fused core) then s.coreBytes core part pa n
  else if scope ≤ 3 then
    ((linesOf pa (List.replicate n 0)).map fun l =>
      ((s.belowL1 (dieOf core) part l.1 (s.fillLine (dieOf core) part l.1)).zip l.2.2).filterMap fun p => if p.2 then some p.1 else none).flatten
  else s.sideBytes part pa n

end Sys2Proof.Machine
end

