-- ==== Sys2Proof/Machine/Tasks.lean ====
section
/-! DEFINITION. What surrounds a task: memory that the device's agents read and write for it, its place and context, the links between dies (01 R21 to R23), session levels (R128), the snapshot trigger (R100). -/

namespace Sys2Proof.Machine

/-! Virtual memory for agents without a translator of their own: scheduler, interface, control core -/

/-- A range cut at 64 KiB pages: virtual address and length of each piece. -/
def pagesOf (va n : Nat) : List (Nat × Nat) :=
  let p0 := va / 65536
  (List.range (n / 65536 + 2)).filterMap fun i =>
    let lo := max va ((p0 + i) * 65536)
    let hi := min (va + n) ((p0 + i + 1) * 65536)
    if lo < hi then some (lo, hi - lo) else none

/-- A translation through the lock array, the walkers' shared cache, or a walk (R148, R150). -/
def State.agentXlate (s : State) (die part va kind : Nat) : Nat × Xlate :=
  s.translateNow die part va kind (s.die die).walkTlb

/-- The first cause met when an agent translates a range, with the page, or none. -/
def State.rangeFault (s : State) (die part va n kind : Nat) : Option (Nat × Nat) :=
  (pagesOf va n).findSome? fun p =>
    let r := s.agentXlate die part p.1 kind
    if r.1 ≠ 0 then some (r.1, p.1)
    else if s.hostRefuses part (r.2.pa p.1) then some (0x25, p.1)
    else if s.loopRefuses part (r.2.pa p.1) p.2 then some (0x23, p.1) else none

/-- A free string of n bytes (notes/assumptions/5.md). -/
def freeString (seed n : Nat) : List Byte := (Config.freeBytes seed n ++ List.replicate n 0).take n
/-- Bytes that another module holds are not seen from here: free values. -/
def abroadBytes (va n : Nat) : List Byte := freeString va n

/-- The bytes of a virtual range at the memory side, none when a page does not translate. -/
def State.vread (s : State) (die part va n kind : Nat) : Option (List Byte) :=
  match s.rangeFault die part va n kind with
  | some _ => none
  | none => some ((pagesOf va n).map fun p =>
      let pa := (s.agentXlate die part p.1 kind).2.pa p.1
      if s.abroad pa then abroadBytes p.1 p.2 else s.sideBytes part pa p.2).flatten

/-- Bytes stored at a physical address at the memory side, from a die: the owning die's LLC, host memory, or another
module (R46, R152). -/
def State.sideWrite (s : State) (die part task cls pa : Nat) (b : List Byte) (v : Nat) : State :=
  if paD pa then s.sendWrite { task := task, part := part } cls pa b
  else s.byLines pa b fun s la d m => s.sideStore die part la d m v

/-- A virtual range stored by an agent, none when a page does not translate with W. -/
def State.vwrite (s : State) (die part task cls va : Nat) (b : List Byte) : Option State :=
  match s.rangeFault die part va b.length 1 with
  | some _ => none
  | none => some ((pagesOf va b.length).foldl (fun s p =>
      s.sideWrite die part task cls ((s.agentXlate die part p.1 1).2.pa p.1)
        ((b.drop (p.1 - va)).take p.2) 2) s)

/-! Places -/

/-- Tasks that hold a context. -/
def Task.resident (t : Task) : Bool :=
  match t.st with
  | .placing | .running | .draining | .parked => true
  | _ => false

/-- The task that holds a context of a core. -/
def State.holder (s : State) (core ctx : Nat) : Option Nat :=
  (s.tasks.find? fun e => e.2.resident && e.2.ctx = ctx && e.2.group ≤ core && core < e.2.group + e.2.team).map (·.1)

/-- A context that no task holds and whose last writes have landed (R123). -/
def State.ctxFree (s : State) (core ctx : Nat) : Bool :=
  (s.holder core ctx).isNone && (s.bank (ctxOf core ctx)).pend.isEmpty && (s.bank (ctxOf core ctx)).heldStores.isEmpty

/-- The group's GROUP code of a task record (R107, R125). -/
def State.groupCode (s : State) (g : Nat) : Nat :=
  g / 8 % 12 + g % 8 * 16 + s.getF ADM_GRP.SIZE g * 128

/-- Whether a session's streams are shadowed (R129). -/
def State.shadowed (s : State) (die session : Nat) : Bool := s.getF DLS_SES.SHADOW (256 * die + session) = 1
/-- The partner die of a pair (R18). -/
def partnerOf (die : Nat) : Nat := if die % 2 = 0 then die + 1 else die - 1

/-! Snapshot -/

/-- A trigger of a snapshot (R100, R102): bit c of CAUSE. A trigger of a later tick that meets a latch on its way has no
effect and is not counted in MISSED (DESIGN CHOICE, notes/assumptions/73.md). -/
def State.snapTrigger (s : State) (c : Nat) : State :=
  if s.getF SNP_STAT.STATE 0 = 2 then s.bump SNP_STAT.MISSED 0 1
  else if s.getF SNP_CTL.ARM 0 = 0 then s
  else
    match s.snap.pending with
    | some t => if t = s.now then { s with snap := { s.snap with cause := s.snap.cause ||| 2 ^ c } } else s
    | none =>
      { s with snap := { s.snap with pending := some s.now, cause := 2 ^ c } }.sched (s.now + 64) phEnd .snpLatch

/-- Row of R15 of a cause, counted from 0. -/
def faultClass (cause : Nat) : Nat :=
  if cause ≤ 0x0A then 0
  else if (0x19 ≤ cause && cause ≤ 0x1D) || (0x29 ≤ cause && cause ≤ 0x2D) then 1
  else if cause ≤ 0x18 then 2
  else if cause ≤ 0x25 then 6
  else if cause ≤ 0x39 then 7
  else if cause ≤ 0x43 then 3
  else if cause ≤ 0x58 then 4
  else 5

/-- The snapshot that a fault's class triggers (R100). -/
def State.faultSnap (s : State) (cause : Nat) : State :=
  let c := faultClass cause
  if bit (s.getF SNP_CTL.FAULTS 0) c then s.snapTrigger (2 + c) else s

/-- A field of DLS_THERM_STAT takes a value; a change of the register is the PF's vector 1 (R83). -/
def State.setTherm (s : State) (f : CsrField) (die v : Nat) : State :=
  let t := s.setF f die v
  if t.csrVal .DLS_THERM_STAT die = s.csrVal .DLS_THERM_STAT die then s else t.pfVec 1

/-- A machine check is reported by a die (R212). -/
def State.mcReport (s : State) (die cause : Nat) : State :=
  ((s.bump DST_MC_STAT.UE die 1).setF DST_MC_STAT.LAST die cause).pfVec 0

/-! The links between dies (R21 to R23) -/

/-- The die that relays for a pair, when one can: the lowest of the other pair that has not stopped, both its cross links
up (R23). -/
def State.relayOf (s : State) (pr : Nat) : Option Nat :=
  match [2 * (1 - pr), 2 * (1 - pr) + 1].find? fun d => !(s.die d).stopped with
  | some v => if s.crossDown.look (linkKey v (2 * pr)) || s.crossDown.look (linkKey v (2 * pr + 1)) then none else some v
  | none => none
/-- The relay in use: from the tick at which the dies of a pair have detected the loss of its link (R23). -/
def State.relay (s : State) (pr : Nat) : Option Nat :=
  if !s.pairLive pr && s.pairLost.look pr then s.relayOf pr else none
/-- A path between the dies of a pair, direct or relayed. -/
def State.hasPath (s : State) (pr : Nat) : Bool := s.pairLive pr || (s.relay pr).isSome
/-- Receive rings whose messages wait for their writes are looked at again (R63). -/
def State.rxLook (s : State) : State :=
  (s.rx.filter fun e => !e.2.pubQ.isEmpty).foldl (fun s e =>
    s.sched s.now phEndpoint (.ringPublish (Fin.ofNat 4 (e.1 / 512)) ⟨Fin.ofNat 512 e.1, 0, 0⟩)) s
/-- A change of links or of stopped dies, after which a path that has come up counts from now. -/
def State.linksChange (s : State) (f : State → State) : State :=
  let t := f s
  ((List.range 2).foldl (fun u pr => if t.hasPath pr && !s.hasPath pr then { u with pathFrom := u.pathFrom.put pr u.tick } else u) t).rxLook
/-- A message of the dies of a pair arrives at a die. -/
def pairEvent (dst : Nat) (m : PairMsg) : Ev :=
  match m with
  | .heartbeat h => .commitHeartbeat (Fin.ofNat 4 dst) h
  | .ack st pe => .heartbeatAck (Fin.ofNat 4 dst) st pe
  | .level se lv tk => .levelChangeMessage (Fin.ofNat 4 dst) (Fin.ofNat 256 se) (Fin.ofNat 4 lv) tk
/-- A die sends its partner a message: over the pair link within 120 ns, or by the relay; it is lost without either
(R21 to R23). -/
def State.sendPair (s : State) (die : Nat) (m : PairMsg) : State :=
  let dst := partnerOf die
  if s.pairLive (die / 2) then s.schedWithin 480 phHost (pairEvent dst m)
  else
    match s.relay (die / 2) with
    | some v => s.schedWithin 480 phHost (.heartbeatRelay (Fin.ofNat 4 v) (Fin.ofNat 4 dst) m)
    | none => s

/-! Session levels -/

/-- The variant that a stream runs at a level (R108, R127). -/
def Stream.at_ (st : Stream) (level : Nat) : Variant := st.vars.getD (if st.cls < 2 then level else 0) {}
/-- Level of a session on a die. -/
def State.levelOf (s : State) (die session : Nat) : Nat := s.getF DLS_SES.LEVEL (256 * die + session)

/-- The largest SPAD of a stream's variants, in bytes. -/
def Stream.spadBytes (st : Stream) : Nat := (st.vars.map (·.spad)).foldl max 0 * 1024

/-- The partition of a context takes a size: bytes at and beyond the new size are zeroed (R133). -/
def State.sizeSpad (s : State) (core ctx base held size : Nat) : State :=
  let s := s.modBank (ctxOf core ctx) fun b => { b with spadBase := base, spadSize := size }
  s.modCore core fun c => { c with spad := c.spad.drop fun a => decide (base + size ≤ a ∧ a < base + held) }

/-- The partition of a stream's resident context takes the size of the variant in force on every core that no task holds it
on: the bytes beyond are zeroed, those added read zero (R133). A task that holds it keeps its own variant's size until it
ends (DEDUCED, notes/assumptions/74.md). -/
def State.fitSpad (s : State) (die n : Nat) : State :=
  let st := s.stream die n
  if !st.valid || decide (2 ≤ st.cls) then s
  else
    (List.range st.gsize).foldl (fun s i =>
      let core := st.group + i
      if (s.holder core st.ctx).isSome then s
      else s.sizeSpad core st.ctx (st.spadBase.getD i 0) st.spadBytes ((st.at_ (s.levelOf die st.session)).spad * 1024)) s

/-- Something happened to a session that makes its current period unclean (R128). -/
def State.dirty (s : State) (die session : Nat) : State :=
  { s with dirtyAt := s.dirtyAt.put (256 * die + session) (s.tick + 1) }

/-- Whether a session holds a valid stream of a class. -/
def State.hasStream (s : State) (die session cls : Nat) : Bool :=
  s.streams.any fun e => e.1 / 1024 = die && e.2.valid && e.2.session = session && e.2.cls = cls

/-- A held deferred release of a slow stream becomes Ready at the change of level (R127). Its d_abort is its new d_ord (DESIGN
CHOICE, notes/assumptions/75.md). -/
def State.undefer (s : State) (die session : Nat) : State :=
  (s.streams.filter fun e => e.1 / 1024 = die && e.2.valid && e.2.session = session && e.2.cls = 1).foldl (fun s e =>
    match e.2.deferred with
    | none => s
    | some t =>
      let d := s.tick + e.2.rdl * 39999 / 10000
      let s := s.modTask t fun x => { x with r := s.tick, dord := d, dabort := d,
                                             var := e.2.vars.getD (s.getF DLS_SES.LEVEL (256 * die + session)) {} }
      let s := { s with streams := s.streams.upd e.1 fun st => { st with deferred := none, prevRel := some s.tick } }
      (s.sched s.now phReady (.taskReady t)).sched (s.now + (d - s.tick)) phAbort (.deadlineAbort t)) s

/-- A session takes a level on a die: DLS_SES, vector 4, and the deferred release (R127, R128). -/
def State.applyLevel (s : State) (die session level : Nat) : State :=
  let k := 256 * die + session
  if s.getF DLS_SES.VALID k = 0 || s.getF DLS_SES.LEVEL k = level then s
  else
    let s := ((s.setF DLS_SES.LEVEL k level).setF DLS_SES.CLEAN k 0).vec (s.getF DLS_SES.PRT k) 4
    let s := (s.streams.filter fun e => e.1 / 1024 = die && e.2.session = session).foldl (fun s e => s.fitSpad die (e.1 % 1024)) s
    if level ≤ 1 then s.undefer die session else s

/-- A change of level decided on a die (R128): at once, or for a shadowed session on both dies 8,000 ticks later. A
session without a fast stream stays at or below D2 (R127). -/
def State.changeLevel (s : State) (die session level : Nat) : State :=
  let level := if s.hasStream die session 0 then level else min level 2
  if s.shadowed die session then
    let m (d : Nat) : Ev := .levelChangeMessage (Fin.ofNat 4 d) (Fin.ofNat 256 session) (Fin.ofNat 4 level) s.tick
    (s.sched (s.now + 8000) phHost (m die)).sendPair die (.level session level s.tick)
  else s.applyLevel die session level

/-- The level raised one step, at most to D3 (R128). -/
def State.raiseLevel (s : State) (die session : Nat) : State :=
  s.changeLevel die session (min 3 (s.getF DLS_SES.LEVEL (256 * die + session) + 1))

/-- The end of a period of the session's fast stream, or of its slow stream without one, by a commit or an abort (R128). With
64 clean periods in a row the session may be lowered. -/
def State.periodEnd (s : State) (t : Task) (committed : Bool) : State :=
  let counted := t.cls = 0 || (t.cls = 1 && !s.hasStream t.die t.session 0)
  let k := 256 * t.die + t.session
  if !counted then s
  else if committed && decide (s.dirtyAt.look k ≤ t.r) && (s.die t.die).frozen.isNone then
    let n := min 64 (s.getF DLS_SES.CLEAN k + 1)
    let s := s.setF DLS_SES.CLEAN k n
    if n = 64 then { s with lowering := k :: s.lowering } else s
  else s.setF DLS_SES.CLEAN k 0

end Sys2Proof.Machine
end

