-- ==== Sys2Proof/Machine/Power.lean ====
section
/-! DEFINITION. Clusters that are gated (01 R29), and the power estimate of a die with its capping steps (01 R24, R25), made at task boundaries. -/

namespace Sys2Proof.Machine

/-- Whether a context of a cluster holds a task. -/
def State.clusterBusy (s : State) (cl : Nat) : Bool :=
  s.tasks.any fun e => e.2.resident && decide (e.2.group / 8 = cl)

/-- A cluster is gated (R29): dirty L1 sectors are written back; scratchpads, L1s, accumulator banks and instruction cache
are lost. What was lost reads 0 afterwards, and the samplers' table memory is lost with it (DESIGN CHOICE,
notes/assumptions/69.md). -/
def State.gate (s : State) (cl : Nat) : State :=
  let cores := (List.range 8).map (8 * cl + ·)
  let s := s.l1CleanAll cores
  let s := cores.foldl (fun s c => s.modCore c fun k => { k with spad := [], fresh := [], tiles := [], af := [], tm := [] }) s
  s.modCluster cl fun c => { c with icache := [], gated := true, wakingTo := none }

/-! The estimate (R24) -/

/-- LIMIT as it acts (R31). -/
def State.powerLimit (s : State) (die : Nat) : Nat := max 1 (min 800 (s.getF DLS_PWR_CFG.LIMIT die))
/-- Ticks of the sliding window. -/
def powerWindow : Nat := 4000000
/-- What lies in the window that ends now. -/
def windowOf (now : Nat) (l : List (Nat × Nat)) : List (Nat × Nat) := l.filter fun p => decide (now < p.1 + powerWindow)

/-- The estimate in W: the energy counted in the last 1 ms, and the static power of the awake clusters. It is rounded down to
whole watts (DESIGN CHOICE, notes/assumptions/67.md). -/
def State.powerUpdate (s : State) (die : Nat) : State :=
  let l := windowOf s.now (s.energyLog.look die)
  let awake := ((List.range 12).filter fun c => !(s.cluster (12 * die + c)).gated).length
  let w := (l.map (·.2)).foldl (· + ·) 0 / 16000000 + awake * Config.clusterWatts die
  let s := { s with energyLog := s.energyLog.put die l }.modDie die fun d => { d with watts := w }
  s.setTherm DLS_THERM_STAT.CAPPED die (if s.powerLimit die < w then 1 else 0)

/-! Capping (R25) -/

/-- Sessions with a task placed on a die. -/
def State.sessionsOn (s : State) (die : Nat) : List Nat :=
  ((s.tasks.filter fun e => e.2.die = die && e.2.resident).map (·.2.session)).eraseDups
/-- The d_ord of a session's most recently released fast or slow task. -/
def State.lastDordOf (s : State) (die session : Nat) : Nat :=
  let l := (s.streams.filter fun e => e.1 / 1024 = die && e.2.valid && e.2.session = session && decide (e.2.cls < 2)).map (·.2)
  match leastBy (fun a b => decide (b.lastTask < a.lastTask)) l with
  | some st => st.lastDord
  | none => 0
/-- The session that a step takes: latest d_ord, then higher number. -/
def State.capSession (s : State) (die : Nat) (f : Nat → Bool) : Option Nat :=
  leastBy (fun a b => lexLt [s.lastDordOf die b, b] [s.lastDordOf die a, a]) ((s.sessionsOn die).filter f)

/-- One application of the next step. -/
def State.capStepOnce (s : State) (die : Nat) : State :=
  let lv (x : Nat) : Nat := s.getF DLS_SES.LEVEL (256 * die + x)
  let k := (s.die die).capStep
  let s := s.modDie die fun d => { d with capStep := min 3 (k + 1), capTick := s.now + powerWindow }
  match k with
  | 0 => s
  | 1 => (List.range 12).foldl (fun s c =>
      let cl := 12 * die + c
      if s.clusterBusy cl || (s.cluster cl).gated || (s.cluster cl).wakingTo.isSome then s else s.gate cl) s
  | _ =>
    match s.capSession die fun x => decide (lv x < 2) with
    | some x => s.changeLevel die x (lv x + 1)
    | none =>
      match s.capSession die fun x => lv x = 2 && s.hasStream die x 0 with
      | some x => s.changeLevel die x 3
      | none => s

/-- Capping at a task boundary: while the estimate exceeds the limit or the die is in the Cap state (R26), one
application per window. At the first boundary with the estimate at or below the limit the sequence stands at step 1 again,
and the restriction of step 1 lifts (DESIGN CHOICE, notes/assumptions/68.md). -/
def State.capApply (s : State) (die : Nat) : State :=
  let k := s.die die
  if s.getF DLS_THERM_STAT.CAPPED die = 0 && s.getF DLS_THERM_STAT.STATE die ≠ 1 then
    s.modDie die fun d => { d with capStep := 0 }
  else if s.now < k.capTick then s
  else s.capStepOnce die

/-- Sessions that hold a stream of a die. -/
def State.sessionsOf (s : State) (die : Nat) : List Nat :=
  ((s.streams.filter fun e => e.1 / 1024 = die && e.2.valid).map (·.2.session)).eraseDups

/-- A task boundary on a die (R24, R25, R128): the estimate, the periods it makes unclean, the capping. -/
def State.taskBoundary (s : State) (die : Nat) : State :=
  let s := s.powerUpdate die
  let s := if 95 * s.powerLimit die < 100 * (s.die die).watts then
      (s.sessionsOf die).foldl (fun s x => s.dirty die x) s
    else s
  s.capApply die

end Sys2Proof.Machine
end

