-- ==== Sys2Proof/Machine/Ending.lean ====
section
/-! DEFINITION. The end of a task by commit, refusal or abort (05 R123, R124): its record (R125) and status pair (04 R86), what is discarded and freed, and the end of its replay measurement (07 R189). -/

namespace Sys2Proof.Machine

/-! Replay measurement (R189): counters taken and given back, results -/

/-- The counters of a team's cores return to what the measurement kept aside. -/
def State.rplRestore (s : State) (t : Task) : State :=
  t.idxs.foldl (fun s x =>
    let c := t.coreAt x
    let kept := (s.core c).evKept
    if kept.isEmpty then s
    else ((List.range 4).foldl (fun s i => s.csrPut .CCC_EVT (4 * c + i) ((kept.getD i 0).setWidth 128)) s).modCore c
      fun k => { k with evKept := [] }) s

/-- The results of the passes that completed are written: 8 bytes per event, then one signature per pass. A write that
does not translate sets STATE to Overflow. -/
def State.rplResults (s : State) (cl : Nat) (t : Task) : State :=
  let r := (s.cluster cl).rpl
  let res := s.getF CCC_RPL_BUF.RES cl
  let nev := s.getF CCC_RPL_CTL.NEV cl
  let put (s : State) (va n v : Nat) : State :=
    match s.vwrite t.die t.part 0 3 va (natLe n v) with
    | some s => s
    | none => s.setF CCC_RPL_CTL.STATE cl 2
  let s := (List.range (min nev r.counts.length)).foldl (fun s i => put s (res + 8 * i) 8 (r.counts.getD i 0)) s
  (List.range r.sigs.length).foldl (fun s i => put s (res + 8 * nev + 4 * i) 4 (r.sigs.getD i 0).toNat) s

/-- The measurement of a cluster ends (R189): counters restored, results written, STATE 0 unless it overflowed. -/
def State.rplFinish (s : State) (cl : Nat) (t : Task) : State :=
  let s := (s.rplRestore t).rplResults cl t
  let s := if s.getF CCC_RPL_CTL.STATE cl = 2 then s else s.setF CCC_RPL_CTL.STATE cl 0
  s.modCluster cl fun c => { c with rpl := {} }

/-- A fault or abort of the measured task ends its measurement (R189). -/
def State.rplAbort (s : State) (t : Nat) : State :=
  let k := s.task t
  let cl := clusterOf k.group
  if (s.cluster cl).rpl.task = some t then s.rplFinish cl k else s

/-! The end of a task -/

/-- Energy of a task (R192): over the cores of its team, counters now less counters at the first bundle. -/
def State.taskEnergy (s : State) (t : Task) : Nat :=
  let top := 2 ^ 48 - 1
  if !t.started then 0
  else
    let parts := t.idxs.map fun i =>
      let b := ctxOf (t.coreAt i) t.ctx
      if s.getF CCC_ECNT.SAT b = 1 then top else s.getF CCC_ECNT.COUNT b - t.energy0.getD i 0
    min top (parts.foldl (· + ·) 0)

/-- The 64 bytes of a task record (R125). -/
def State.recordBytes (s : State) (t : Task) (outcome reason : Nat) : List Byte :=
  natLe 8 t.r ++ natLe 8 t.dord ++ natLe 8 s.tick ++ natLe 4 t.period ++ natLe 2 t.stream ++ natLe 1 t.session ++
  natLe 1 (t.level + 4 * t.cls + (if t.dabort < t.dord then 16 else 0) + (if t.late then 32 else 0)) ++
  natLe 2 t.profile ++ natLe 1 outcome ++
  natLe 1 (t.die + (if t.copy then 4 else 0) + (if t.tookOver then 8 else 0)) ++ natLe 2 reason ++
  natLe 2 (s.groupCode t.group) ++ natLe 4 t.holdUsed ++ natLe 4 t.preempts ++ natLe 6 (s.taskEnergy t) ++
  natLe 2 (match t.rxRing with | some p => p.2 | none => 0xFFFF) ++ natLe 8 0

/-- The record is appended to the partition's ring (R125). -/
def State.appendRecord (s : State) (t outcome reason : Nat) : State :=
  let k := s.task t
  let i := 16 * k.die + k.part
  if s.getF DLS_TREC_CFG.EN i = 0 then s
  else
    let head := s.getF DLS_TREC_CFG.HEAD i
    let va := s.getF DLS_TREC_CFG.BASE i * 64 + head % 2 ^ min 32 (s.getF DLS_TREC_CFG.DEPTH i) * 64
    let s := (s.setF DLS_TREC_CFG.HEAD i ((head + 1) % 2 ^ 32)).modTask t fun x => { x with recNo := head + 1 }
    match s.vwrite k.die k.part t k.cls va (s.recordBytes k outcome reason) with
    | some s => s
    | none => s.setF DLS_TREC_CFG.DROP i 1

/-- The status pair of a launch block (R86): the status word, then DONEVAL, one release at system scope. `who` cleans
the caches of the task's cores first (DEDUCED, notes/assumptions/9.md). -/
def State.statusPair (s : State) (die part task cls done doneVal tag : Nat) (intr : Bool) (outcome reason : Nat) : State :=
  let w := tag % 2 ^ 32 * 2 ^ 32 + reason % 2 ^ 16 * 2 ^ 16 + outcome
  let put (s : State) (va v : Nat) : State := (s.vwrite die part task cls va (natLe 8 v)).getD s
  let s := put (put s (done + 8) w) done doneVal
  if intr then s.vec part 2 else s

/-- The release actions of every core of a task's team, for its context (R158). -/
def State.teamRelease (s : State) (t : Task) (scope : Nat) : State :=
  t.idxs.foldl (fun s i => s.releaseActs (t.coreAt i) t.ctx t.part scope) s

/-- The status of a task: of a sister launch when its last sister ends (R181). While the task's partition is being reset none is
written (R86). -/
def State.taskStatus (s : State) (id outcome reason : Nat) : State :=
  let t := s.task id
  let reset := s.getF PRT_STAT.RST t.part = 1
  let one (s : State) (o r : Nat) : State :=
    if t.hasDone && !reset then s.statusPair t.die t.part id t.cls t.doneVa t.doneVal.toNat t.tag t.intr o r else s
  let s := if t.started then s.teamRelease t 6 else s
  match t.launch with
  | none => one s outcome reason
  | some l =>
    let s := { s with launches := s.launches.upd l fun x => { x with ends := (t.srk, outcome, reason) :: x.ends } }
    let x := s.launches.look l
    if x.ends.length < x.tasks.length then s
    else
      let bad := leastBy (fun a b => decide (a.1 < b.1)) (x.ends.filter fun e => e.2.1 ≠ 0)
      let lead := s.task (x.tasks.headD id)
      let (o, r) := match bad with | some b => (b.2.1, b.2.2) | none => (0, reason)
      if lead.hasDone && !reset then s.statusPair lead.die lead.part id lead.cls lead.doneVa lead.doneVal.toNat lead.tag lead.intr o r
      else s

/-- The receive slot that released the task is free again (R61, R124). -/
def State.freeRx (s : State) (t : Task) : State :=
  match t.rxRing with
  | none => s
  | some (ring, slot) =>
    let k := 512 * t.die + ring
    let s := { s with rx := s.rx.upd k fun r => { r with occ := r.occ.filter (· ≠ slot) } }
    s.setF UEE_RXQ_STAT.OCC k ((s.rx.look k).occ.length)
/-- The transmit slot of a task is free again (R123). -/
def State.freeTx (s : State) (t : Task) : State :=
  match t.txSlot with
  | none => s
  | some (ring, slot) => { s with tx := s.tx.upd (512 * t.die + ring) fun r => { r with holders := r.holders.put slot none } }

/-- Events of a control core that drive a task. -/
def Ev.drives (e : Ev) (t : Nat) : Bool :=
  match e with
  | .bundleSend u | .emptyBundle u | .holdEnd u | .contextEligible u | .twaitTickReached u | .drainEnd u | .restore u
  | .taskCommit u | .taskLaunch u | .drainBoundExceeded u | .holdBudgetExhausted u | .rplPassEnd u => u = t
  | _ => false

/-- The control core sends nothing more for the task. -/
def State.stopTask (s : State) (t : Nat) : State := s.unsched fun d => d.ev.drives t

/-- The task's group no longer runs it; the next run starts three ticks after (R174). -/
def State.leaveGroup (s : State) (t : Nat) : State :=
  let k := s.task t
  s.modGroup k.group fun g => if g.running = some t then { g with running := none, freeAt := max g.freeAt (s.now + 3) } else g

/-- A core's pulses go on without bundles until the writes of a context have landed (R123, R172): the next one is
scheduled unless one is on its way. -/
def State.kick (s : State) (t core ctx : Nat) : State :=
  let b := s.bank (ctxOf core ctx)
  let flying := s.agenda.any fun d =>
    match d.ev with
    | .writeLanding c x _ _ => c.val = core && x.val = ctx
    | _ => false
  let k := s.core core
  let works := !b.pend.isEmpty || k.cube.any (fun o => o.ctx = ctx) || k.smpQ.any (fun o => o.ctx = ctx) ||
    (match k.smpOp with | some o => o.ctx = ctx | none => false) || ((s.task t).run = .aborting && !b.heldStores.isEmpty)
  if flying || !works then s
  else
    let cyc := b.lastCyc + 1
    let k := s.task t
    let env : Env := { task := t, idx := core - k.group, core := core, ctx := ctx, cyc := cyc, lc := k.lc, landOnly := true }
    let c := Fin.ofNat 384 core
    let x := Fin.ofNat 8 ctx
    let at_ := max (s.now + 1) (b.lastTick + 1)
    (s.sched at_ phPulse (.writeLanding c x cyc .registers) env).sched at_ phStore (.writeLanding c x cyc .storage) env
/-- The same for every core of a team. -/
def State.kickAll (s : State) (t : Nat) : State :=
  let k := s.task t
  k.idxs.foldl (fun s i => s.kick t (k.coreAt i) k.ctx) s

/-- An exposed write: one to registers, bypasses, scratchpad, rings or accumulator banks, and no store to global memory
(R172). -/
def Write.exposed (w : Write) : Bool := match w with | .store .. => false | _ => true

/-- Whether every exposed write of a task has landed: no pending write, no pulse on its way, no cube operation, no
sampler operation of its contexts (R172). -/
def State.quiet (s : State) (t : Nat) : Bool :=
  let k := s.task t
  k.idxs.all fun i =>
    let c := k.coreAt i
    (s.bank (ctxOf c k.ctx)).pend.all (fun l => !l.w.exposed) && s.loads.all (fun e => e.2.task ≠ t || e.2.width = 0) &&
    (s.core c).cube.all (fun o => o.ctx ≠ k.ctx) &&
    (s.core c).smpQ.all (fun o => o.task ≠ t) &&
    ((s.core c).smpOp.all fun o => o.task ≠ t) &&
    !(s.agenda.any fun d => match d.ev with
        | .writeLanding cc x _ .registers => cc.val = c && x.val = k.ctx && !d.ops.isEmpty
        | _ => false)

/-- Whether the stores of a task to global memory have left its contexts too: its end and its eviction wait for that. -/
def State.storesOut (s : State) (t : Nat) : Bool :=
  let k := s.task t
  k.idxs.all fun i =>
    let b := s.bank (ctxOf (k.coreAt i) k.ctx)
    b.heldStores.isEmpty && b.pend.all fun l => l.w.exposed

/-- Discards what an abort stops on one core (R123, R335): running cube operations, whose ring counts return to zero,
and queued sampler operations. -/
def State.discardCore (s : State) (t core ctx : Nat) : State :=
  let s := s.modCore core fun c =>
    { c with cube := c.cube.filter fun o => o.task ≠ t || o.retired
             smpQ := c.smpQ.filter (·.task ≠ t)
             smpOp := match c.smpOp with
               | some o => if o.task = t && (match o.kind with | .tables _ => true | _ => false) then none else some o
               | none => none }
  s.modBank (ctxOf core ctx) fun b => { b with ringP := [], fence := 0 }

/-- Phase of an engine's writes (R157). -/
def enginePhase (e : Nat) : Nat := if e < 32 then phEngine e else phEngine 32

/-- An engine that serves nothing takes its next command: the earliest accepted one not set aside (R351, R352). -/
def State.engineNext (s : State) (e : Nat) : State :=
  let l := (s.cmds.filter fun x => x.2.engine = some e && x.2.begun && !x.2.ended).map (·.2)
  if l.any (·.serving) then s
  else
    match leastBy (fun (a b : Cmd) => decide (a.order < b.order)) (l.filter fun c => !c.setAside) with
    | none => s
    | some c => (s.modCmd c.id fun c => { c with serving := true }).sched (s.now + 1) (enginePhase e) (.copySector c.id)

/-- The commands of a task that an abort or a reset stops (R123); cache maintenance and ring commands already begun go on. The records of its faults await no
answer any more (R211). -/
def State.stopCmds (s : State) (t : Nat) : State :=
  let gone : List Nat := (s.cmds.filter fun e => decide (e.2.task = t ∧ e.2.kind ≠ .cmo) &&
    !(e.2.start.isNone && (e.2.kind = .rpub || e.2.kind = .rpop))).map (·.1)
  let loads : List Nat := (s.loads.filter fun e => decide (e.2.task = t)).map (·.1)
  let waits (kind n : Nat) : Bool :=
    match kind with | 0 => n = t | 1 => gone.contains n || (s.cmd n).task = t | 2 => (s.subs.look n).task = t | _ => false
  let s := { s with
    svcAwait := s.svcAwait.filter fun a => !waits a.2.2.1 a.2.2.2.1
    cmds := s.cmds.drop (gone.contains ·)
    loads := s.loads.drop (loads.contains ·)
    stores := s.stores.drop fun i => (s.stores.look i).task = t
    fabric := s.fabric.drop fun i => (s.fabric.look i).task = t
    subs := s.subs.drop fun i => (s.subs.look i).task = t
    barriers := s.barriers.drop fun i =>
      let b := s.barriers.look i
      b.task = t && (decide (b.level ≤ 1) || (b.level = 2 && match (s.task t).launch with
        | some l => (s.launches.look l).tasks.all fun x => x = t || !(s.task x).resident
        | none => true)) }
  let s := if s.cmds.any (fun e => e.2.kind = .subs && e.2.waiting) then
      (List.range 8).foldl (fun s j => s.sched s.now phMem (.subscriptionGrant (Fin.ofNat 8 j))) s
    else s
  s.unsched fun d => match d.ev with
    | .engineStart c | .copySector c | .copyComplete c => gone.contains c
    | .loadDataLand l => loads.contains l
    | _ => false

/-- Every engine of a die goes on after commands have been taken from it. -/
def State.enginesNext (s : State) (die : Nat) : State :=
  let es := (s.cmds.filterMap fun e => if e.2.die = die then e.2.engine else none).eraseDups
  es.foldl (fun s e => s.engineNext e) s

/-- The ready system and bulk tasks of a partition for which no group was a candidate are considered again: at a commit, an
abort, a park, or a wake on its groups (R119). -/
def State.reconsider (s : State) (part : Nat) : State :=
  (s.tasks.filter fun e => e.2.part = part && e.2.unplaced).foldl (fun s e => s.modTask e.1 fun t => { t with unplaced := false }) s

/-- A task leaves the machine: its stream's slots, occupancies and contexts are free, its period ends, and its end is a task
boundary (R24). -/
def State.retire (s : State) (t : Nat) (st : TState) : State :=
  let k := s.task t
  let s := (s.freeRx k).periodEnd k (st = .committed)
  let s := s.leaveGroup t
  let s := (s.modTask t fun x => { x with st := st, occ := false }).reconsider k.part
  (if k.cls < 2 then s.fitSpad k.die k.stream else s).taskBoundary k.die

/-- The DLS aborts a task (R123). -/
def State.abort (s : State) (t reason : Nat) : State :=
  let k := s.task t
  let s := s.stopTask t
  let s := if k.resident then k.idxs.foldl (fun s i => s.discardCore t (k.coreAt i) k.ctx) s else s
  let s := ((s.stopCmds t).enginesNext k.die).freeTx k
  let s := (s.dirty k.die k.session).rplAbort t
  let s := s.appendRecord t 2 reason
  let s := s.taskStatus t 2 reason
  let s := s.retire t .aborted
  let s := s.modTask t fun x => { x with run := .aborting, awaitSvc := false }
  if k.resident then s.kickAll t else s

end Sys2Proof.Machine
end

