-- ==== Sys2Proof/WellFormed.lean ====
section
/-! DEFINITION. When an instruction is well formed: check 6 of R255 on the field values of a slot operation (R250 to R253 and the chapters' own rules), and for an event that the register it names exists. -/

namespace Sys2Proof

/-- Type codes of the set I (R302). -/
def isI (ty : BitVec 4) : Bool := ty = 1 || ty = 2 || ty = 5 || ty = 6
/-- Type codes of the set F (R302). -/
def isF (ty : BitVec 4) : Bool := ty = 8 || ty = 9 || ty = 10
/-- Type codes of LDSV and its kin (R341). -/
def isBulk (ty : BitVec 4) : Bool := !(ty = 3 || ty = 7 || ty.ule 12 = false)
/-- The width of a type code that VCVT, VPACK and VUNPK admit (R313). -/
def cvtWidth (ty : BitVec 4) : Option Nat :=
  if ty = 2 || ty = 6 || ty = 8 then some 32
  else if ty = 1 || ty = 5 || ty = 9 || ty = 10 then some 16
  else if ty = 0 || ty = 4 || ty = 11 || ty = 12 then some 8
  else none

/-- The ratio 2 or 4 of a wide to a narrow width (R314). -/
def widthRatio (wide narrow : BitVec 4) : Option Nat :=
  match cvtWidth wide, cvtWidth narrow with
  | some w, some n => if w = 2 * n then some 2 else if w = 4 * n then some 4 else none
  | _, _ => none

/-- A two-source vector form: the bypass replaces b (R302). -/
def V3.two (o : V3) (types : BitVec 4 → Bool) : Bool := types o.ty && (o.byp = 0 || o.b = 0)
/-- A one-source vector form: b is zero and the bypass replaces a (R302). -/
def V3.one (o : V3) (types : BitVec 4 → Bool) : Bool := types o.ty && o.b = 0 && (o.byp = 0 || o.a = 0)
/-- I or F. -/
def isIF (ty : BitVec 4) : Bool := isI ty || isF ty

/-- BA set leaves b zero (R252). -/
def S3.okB (o : S3) : Bool := o.ba = 0 || o.b = 0
/-- A form without b (R289, R294). -/
def S3.noB (o : S3) : Bool := o.ba = 0 && o.b = 0
/-- BA set leaves b zero (R252). -/
def SP.okB (o : SP) : Bool := o.ba = 0 || o.b = 0

/-- Selectors of SRD (R293). -/
def SV.ok (o : SV) : Bool := o.sel.ule 0x0D || (BitVec.ule 0x10 o.sel && o.sel.ule 0x13)

/-- CTL of a permute (R316): which fields are zero in which form and mode. -/
def VX.ok (o : VX) (perm shuf : Bool) : Bool :=
  (o.byp = 0 || o.a = 0) && o.ctl.getLsbD 5 = false &&
  (if perm then o.ctl &&& 0x1BF#9 = 0
   else if shuf then
     (o.ctl.getLsbD 6 || o.ctl.getLsbD 4 = false) &&
     (o.ctl.extractLsb' 7 2 != 3 || o.ctl.extractLsb' 0 5 = 0)
   else o.ctl &&& 0x058#9 = 0 && (o.ctl.extractLsb' 7 2 != 3 || o.ctl.extractLsb' 0 3 = 0))

/-- Fields of SFEED (R368). -/
def VF.ok (o : VF) : Bool :=
  o.ctl.getLsbD 3 = false &&
  (if o.ctl.getLsbD 13 then o.a = 0 && o.byp = 0
   else o.ctl.extractLsb' 4 9 = 0 && (o.byp = 0 || o.a = 0))

/-- Fields of a cube form (R324): bits 6:4 zero, CLR only where the form has it, mode GN where the form takes no
other. -/
def MC.ok (o : MC) (clr gn : Bool) : Bool :=
  o.ctl.extractLsb' 4 3 = 0 && (clr || o.ctl.getLsbD 0 = false) && (!gn || o.mode = 0)

/-- Fields of a scalar access: types 0 to 7, and RD only where the form has one (R341, R342). -/
def LS.ok (o : LS) (rd : Bool) : Bool := o.ty.ule 7 && (rd || o.rd = 0)
/-- Fields of a vector access (R341, R342). -/
def LV.ok (o : LV) (rd : Bool) : Bool := isBulk o.ty && (rd || o.rd = 0)
/-- Fields of an access at a scope (R342, R343). -/
def LR.ok (o : LR) : Bool := o.ty.ule 7 && o.scope != 7

/-- Fields of a sampler command (R372): which of a and b are zero, and which CTL bits above 2:0 may be set. -/
def XS.ok (o : XS) (a b : Bool) (ctl : BitVec 8) : Bool :=
  (a || o.a = 0) && (b || o.b = 0) && o.ctl &&& ~~~ctl = 0

/-- Check 6 of R255 for a slot operation; for an event, that its register exists. -/
def Instr.wf : Instr → Bool
  | .lrep o => o.n.getLsbD 7 = false
  | .fence o => o.a = 0 && o.b = 0 && o.scope != 7
  | .await o | .waita o => o.scope != 7
  | .twait o => o.b = 0 && o.scope = 0
  | .add o | .sub o | .mul o | .mulh o | .mulhn o | .div o | .divn o | .rem o | .remn o | .and o | .or o | .xor o
  | .andn o | .shl o | .shr o | .sar o | .rotl o | .min o | .max o | .minn o | .maxn o
  | .aadd o | .asub o | .aidx o | .awrap o => o.okB
  | .clz o | .popc o | .amov o => o.noB
  | .ext o => o.ty.ule 7
  | .cmpeq o | .cmpne o | .cmplt o | .cmpltn o | .cmple o | .cmplen o => o.okB
  | .srd o => o.ok
  | .lcnt o => o.k.ule 3
  | .lrept o => o.imm.extractLsb' 5 5 = 0
  | .shf o => o.eng != 3 && o.field != 15
  | .shcp o => o.eng != 3 && o.field = 0 && o.a = 0
  | .ntq o => o.n.extractLsb' 1 7 = 0
  | .rrbw o => o.n.extractLsb' 4 4 = 0
  | .vadd _ o | .vsub _ o | .vmin _ o | .vmax _ o | .vcmpeq _ o | .vcmplt _ o | .vcmple _ o | .vsel _ o
  | .vrsum _ o | .vrmax _ o | .vrmin _ o | .vclamp _ o => o.two isIF
  | .vmul _ o | .vfma _ o | .vfms _ o | .vfnma _ o | .vcmpun _ o => o.two isF
  | .vand _ o | .vor _ o | .vxor _ o | .vshl _ o | .vshr _ o | .vsar _ o | .vadds _ o | .vsubs _ o | .vmullo _ o
  | .vdot _ o | .vdota _ o => o.two isI
  | .vabs _ o | .vneg _ o | .vmov _ o => o.one isIF
  | .vrcp _ o | .vrsq _ o | .vsqrt _ o | .vexp2 _ o | .vlog2 _ o | .vround _ o => o.one isF
  | .vclz _ o | .vpopc _ o => o.one isI
  | .vcvt _ o => (o.byp = 0 || o.a = 0) && (cvtWidth o.tys).isSome && cvtWidth o.tys = cvtWidth o.tyd
  | .vpack o =>
    match widthRatio o.tys o.tyd with
    | some k => o.byp = 0 && o.a.toNat % k = 0
    | none => false
  | .vunpk o =>
    match widthRatio o.tyd o.tys with
    | some k => (o.byp = 0 || o.a = 0) && o.d.toNat % k = 0
    | none => false
  | .vbcast _ o => isIF o.ty
  | .vmovi _ o => isI o.ty || o.ty = 8 || o.ty = 9
  | .vidx _ o => isI o.ty
  | .vperm o => o.ok true false
  | .vxgrp o => o.ok false false
  | .vshuf o => o.ok false true
  | .qrd o => o.bm = 0 || (o.bank = 0 && o.tile = 0)
  | .sfeed o => o.ok
  | .cmul o | .cmulc o => o.ok false false
  | .cmulq o | .cmuli o => o.ok true true
  | .cmula o => o.ok false true
  | .qthr o => o.kind != 3
  | .lds o | .sts o | .stg o | .stnt o => o.ok false
  | .ldg o => o.ok true
  | .ldp o | .stp o => o.ty = 0 && o.rd = 0 && o.d = 0
  | .pref o => o.ty = 0 && o.d = 0
  | .ldsv o | .stsv o | .stgv o | .stntv o => o.ok false
  | .ldgv o => o.ok true
  | .lda o | .stl o => o.ok
  | .rmws o | .atomg o | .atomn o => o.op.ule 8
  | .relb o => o.d = 0
  | .gath o | .scat o => o.ty = 2 || o.ty = 6 || o.ty = 8
  | .copy o | .fput o | .fget o => o.ctl.getLsbD 4 = false
  | .subs o | .rpub o | .rpop o => o.b = 0 && o.ctl.getLsbD 4 = false
  | .unsub o => o.a = 0 && o.b = 0 && o.ctl.getLsbD 4 = false
  | .fred o => o.b = 0 && o.ctl = 0
  | .barw o => o.a = 0
  | .cmo o => o.op != 3 && o.lvl != 3
  | .smpBind o => o.ok true false 0x07
  | .smpLoad o | .smpFlush o => o.ok false true 0x07
  | .smpReset o => o.ok false false 0x0F
  | .smpThr o => o.ok false false 0x0F
  | .smpMergeOut o => o.ok true false 0x07
  | .smpMergeIn o => o.ok true false 0x0F && o.ctl.getLsbD 3
  | .smpDraw o => o.ok true true 0x07
  | .smpGreedy o => o.ok true false 0x07
  | .smpCommit o => o.ok true true 0x07
  | .smpCommitPend o => o.ok true true 0x0F && o.ctl.getLsbD 3
  | .smpCommitSettle o => o.ok true true 0x17 && o.ctl.getLsbD 4
  | .registerWrite _ c i _ => i < Machine.csrCount c
  | _ => true

end Sys2Proof
end

