-- ==== Sys2Proof/Machine/Ops.lean ====
section
/-! DEFINITION. The operations that slot operations share: reading registers under the rotating base (R250, R268), issuing writes that land later (R12, R269), the checks made at issue (R195, R410), taking a fault (R194 to R199) and returning from one (R199, R205), the capture of a measured task's writes (R189). -/

namespace Sys2Proof.Machine

/-! Registers by written name -/

/-- BASE of rrb as landed (R268). -/
def Bank.base (b : Bank) : Nat := b.rrb.toNat % 16
/-- STG, SLV and EC of rrb (R268). -/
def Bank.stg (b : Bank) : Bool := b.rrb.getLsbD 12
def Bank.slv (b : Bank) : Nat := bits b.rrb.toNat 11 10
def Bank.ec (b : Bank) : Nat := bits b.rrb.toNat 9 4
/-- The physical scalar a written name names (R268). -/
def physS (base n : Nat) : Nat := if 48 ≤ n then 48 + (n - 48 + base) % 16 else n
/-- The physical predicate a written name names (R268). -/
def physP (base n : Nat) : Nat := if 8 ≤ n then 8 + (n - 8 + base) % 8 else n
/-- A scalar by written name; s0 reads as zero (R250). -/
def Bank.sNamed (b : Bank) (n : Nat) : Word := if n = 0 then 0 else b.s.look (physS b.base n)
/-- A predicate by written name; p0 reads as true (R250). -/
def Bank.pNamed (b : Bank) (n : Nat) : Bool := n = 0 || b.p.getLsbD (physP b.base n)

/-- Sources of the operation being executed. -/
def State.sv (s : State) (n : BitVec 6) : Word := s.mine.sNamed n.toNat
def State.pv (s : State) (n : BitVec 4) : Bool := s.mine.pNamed n.toNat
def State.vv (s : State) (n : BitVec 5) : Vec := s.mine.v.look n.toNat
def State.kv (s : State) (n : BitVec 4) : Word := s.mine.k.look n.toNat

/-! Issuing writes -/

/-- A write of the operation that lands at an offset (R12); landings of one cycle are ordered by issuing bundle, then
slot (R269). -/
def State.after (s : State) (off : Nat) (w : Write) : State :=
  s.modBank s.b fun b => { b with pend := b.pend ++ [⟨s.env.cyc + off, s.env.cyc * 8 + s.env.slot, w⟩] }

/-- A scalar result (R269): a write to s0 is discarded. -/
def State.writeS (s : State) (off : Nat) (d : BitVec 6) (v : Word) : State :=
  if d = 0 then s else s.after off (.s (physS s.mine.base d.toNat) v)
/-- A scalar result of slot S: bs shows it, whatever the destination, from one cycle before its landing, not before
offset 1 (R252, R269). -/
def State.writeSbs (s : State) (off : Nat) (d : BitVec 6) (v : Word) : State :=
  (s.after (max 1 (off - 1)) (.bs v)).writeS off d v

/-- A predicate result; a write to p0 is discarded (R250). -/
def State.writeP (s : State) (off : Nat) (pd : Nat) (v : Bool) : State :=
  if pd = 0 then s else s.after off (.p (physP s.mine.base pd) v)

/-- A vector result of slot 3 or 4: its bypass shows it one cycle before the landing, not before offset 1 (R252). -/
def State.writeV (s : State) (u : Nat) (off : Nat) (d : Nat) (v : Vec) : State :=
  (s.after (max 1 (off - 1)) (.bv u v)).after off (.v d v)

/-- Flags of the operation, landing with its result (R227). -/
def State.writeFlags (s : State) (off : Nat) (f : Nat) : State :=
  if f = 0 then s else s.after off (.flags f s.env.slot s.env.pc)

/-! The kernel's tables -/

/-- Address of the code's first byte (R179). -/
def Task.codeBase (t : Task) : Nat := t.hdrVa + t.hdrNat 36 4

/-- A drain-stub entry (R200). -/
structure StubEntry where
  lo : Nat := 0
  hi : Nat := 0
  stub : Nat := 0
  entry : Nat := 0
  dlen : Nat := 0
  rlen : Nat := 0
  flags : Nat := 0
  deriving DecidableEq, Repr, Inhabited

/-- Entry i of a drain-stub table of bytes. -/
def stubAt (b : List Byte) (i : Nat) : StubEntry :=
  let f (o n : Nat) : Nat := leNat ((b.drop (32 * i + o)).take n)
  { lo := f 0 4, hi := f 4 4, stub := f 8 4, entry := f 12 4, dlen := f 16 2, rlen := f 18 2, flags := f 20 1 }
def StubEntry.point (e : StubEntry) : Bool := bit e.flags 0
def StubEntry.quiet (e : StubEntry) : Bool := bit e.flags 1

/-- The entries of the task's table (R200). -/
def Task.stubs (t : Task) : List StubEntry := (List.range (t.hdrNat 50 2)).map (stubAt t.dst)
/-- The entry that covers a bundle (R197, R204). -/
def Task.covering (t : Task) (pc : Nat) : Option StubEntry :=
  t.stubs.find? fun e => t.codeBase + e.lo ≤ pc && pc ≤ t.codeBase + e.hi

/-! Checks at issue -/

/-- What the issue checks of a slot operation find on one core (R195, R410): a cause, or 0 and the addresses still to be
translated, with their kinds (R147). -/
structure Check where
  cause : Nat := 0
  faddr : Nat := 0
  accesses : List (Nat × Nat) := []
  deriving DecidableEq, Repr, Inhabited

/-- No fault and nothing to translate. -/
def Check.pass : Check := {}
/-- A fault when a condition holds. -/
def Check.when (c : Bool) (cause : Nat) (faddr : Nat := 0) : Check := if c then { cause := cause, faddr := faddr } else {}
/-- The first fault of two checks in order; the accesses of both. -/
def Check.and (a b : Check) : Check :=
  if a.cause ≠ 0 then a else if b.cause ≠ 0 then b else { accesses := a.accesses ++ b.accesses }

/-- A core's translation of an address: lock array, its own cache, the walkers' cache, a walk (R148, R150). -/
def State.coreXlate (s : State) (core part va kind : Nat) : Nat × Xlate :=
  let r := s.translateNow (dieOf core) part va kind ((s.core core).tlb ++ (s.die (dieOf core)).walkTlb)
  if r.1 = 0 && s.hostRefuses part (r.2.pa va) then (0x25, r.2) else r

/-- The result of a walk that the task's bundle waited for. -/
def Task.walked (t : Task) (core va kind : Nat) : Option WalkRes :=
  t.walkRes.find? fun w => w.core = core && w.page = va / 65536 && w.kind = kind
/-- Cause that an access meets (R147, R195): on the control core's copy, a page that misses the core's translator is
judged by the walk that it waited for. -/
def State.accessCause (s : State) (a : Nat × Nat) : Nat :=
  let core := s.env.core
  if s.env.probe then
    match s.translate (dieOf core) s.cur.part a.1 a.2 (s.core core).tlb with
    | .hit x => if s.hostRefuses s.cur.part (x.pa a.1) then 0x25 else 0
    | .fault c => c
    | .miss => match s.cur.walked core a.1 a.2 with | some w => w.cause | none => 0
  else (s.coreXlate core s.cur.part a.1 a.2).1
/-- Cause and address of a check on the operation's core, its accesses translated. -/
def State.finding (s : State) (c : Check) : Nat × Nat :=
  if c.cause ≠ 0 then (c.cause, c.faddr)
  else (c.accesses.findSome? fun a => if s.accessCause a ≠ 0 then some (s.accessCause a, a.1) else none).getD (0, 0)
/-- The accesses of a check that still have to be walked. -/
def State.missing (s : State) (c : Check) : List (Nat × Nat × Nat) :=
  c.accesses.filterMap fun a =>
    match s.translate (dieOf s.env.core) s.cur.part a.1 a.2 (s.core s.env.core).tlb with
    | .miss => if (s.cur.walked s.env.core a.1 a.2).isSome then none else some (s.env.core, a.1, a.2)
    | _ => none

/-! Taking a fault -/

/-- Priority of a class (R196). -/
def faultPriority (cause : Nat) : Nat :=
  match faultClass cause with
  | 7 => 1
  | 1 => 2
  | 0 => 3
  | 3 => 4
  | 6 => 5
  | 2 => 6
  | 4 => 7
  | _ => 8

/-- The 64 bytes of a fault record (R198). -/
def State.faultBytes (s : State) (t : Task) (r : FaultRec) (await : Bool) (seq : Nat) : List Byte :=
  let core := t.coreAt r.idx
  natLe 8 s.tick ++ natLe 8 r.pc.toNat ++ natLe 8 r.faddr ++ natLe 1 (faultClass r.cause) ++ natLe 1 r.cause ++
  natLe 1 r.slot ++ natLe 1 ((if await then 1 else 0) + (if r.straddle then 2 else 0) + (if r.drain then 4 else 0)) ++
  natLe 1 t.die ++ natLe 1 (core / 8 % 12) ++ natLe 1 (core % 8 * 8 + t.ctx) ++ natLe 1 t.session ++
  natLe 2 t.stream ++ natLe 2 r.engine ++ natLe 4 t.period ++ natLe 4 seq ++ natLe 4 0 ++ natLe 8 r.resumeAt ++ natLe 8 0

/-- A record written into the partition's service queue as a release at die scope (R198, R199), none when it is
dropped. `wait` is what waits for the answer. -/
def State.queueRecordOf (s : State) (t : Task) (id : Nat) (r : FaultRec) (wait : Option (Nat × Nat)) : Option State :=
  let i := 16 * t.die + t.part
  let seq := s.getF DST_SVC_CFG.HEAD i
  let n := 2 ^ min 16 (s.getF DST_SVC_CFG.DEPTH i)
  if s.getF DST_SVC_CFG.EN i = 0 || s.svcAwait.any (fun a => a.1 = i && a.2.1 % n = seq % n) then none
  else
    (s.vwrite t.die t.part id t.cls (s.getF DST_SVC_CFG.BASE i * 64 + seq % n * 64)
      (s.faultBytes t r wait.isSome seq)).map fun s =>
        { s.setF DST_SVC_CFG.HEAD i ((seq + 1) % 2 ^ 32) with
          svcAwait := s.svcAwait ++ (match wait with | some w => [(i, seq, w.1, w.2, r.cause)] | none => []) }

/-- The record of a fault of a task. -/
def State.queueRecord (s : State) (id : Nat) (r : FaultRec) (wait : Option (Nat × Nat)) : Option State :=
  s.queueRecordOf (s.task id) id r wait

/-- A dropped record counts in LOST while the queue is enabled (R199). -/
def State.lostRecord (s : State) (id : Nat) : State :=
  let t := s.task id
  let i := 16 * t.die + t.part
  if s.getF DST_SVC_CFG.EN i = 1 then s.bump DST_SVC_CFG.LOST i 1 else s

/-- A fault is raised on its task (R197): vector 3, a timing fault's change of level (R128), the abort of R123. -/
def State.raise (s : State) (id cause : Nat) : State :=
  let t := s.task id
  let s := (s.vec t.part 3).faultSnap cause
  let s := s.abort id cause
  if faultClass cause = 3 then s.raiseLevel t.die t.session else s

/-- The bypasses read as zero, and bm names no tile (R252). -/
def State.clearBypass (s : State) (core ctx : Nat) : State :=
  s.modBank (ctxOf core ctx) fun b => { b with bs := 0, bv0 := 0, bv1 := 0, bm := none }
/-- A stop of a task at a bundle (R121, R204): the drain begins after `wait` ticks, with the stub of the entry that
covers the bundle, or without one under QUIET and at a yield. Waits not yet satisfied are kept for the restore (R286). -/
def State.beginDrain (s : State) (id : Nat) (stub : Option StubEntry) (wait : Nat) : State :=
  let t := s.task id
  let s := s.stopTask id
  let runs := match stub with | some e => !e.quiet && e.dlen ≠ 0 | none => false
  let s := s.modTask id fun t =>
    { t with
      st := .draining, run := .draining, resumePc := t.pc, drainFrom := t.lc, stubEnd := t.lc
      entryPc := t.pc, rlen := 0, drainHold := 0, preemptReq := false, lateFault := none, fresh := runs
      keptWaits := t.waits.filter (·.cyc = t.prevCyc), waits := [], walkRes := [], empties := 0 }
  let s := match stub with
    | some e =>
      if e.quiet then s
      else s.modTask id fun t =>
        { t with
          pc := BitVec.ofNat 64 (t.codeBase + e.stub), stubEnd := t.lc + e.dlen
          entryPc := BitVec.ofNat 64 (t.codeBase + e.entry), rlen := e.rlen }
    | none => s
  let s := s.modGroup t.group fun x => { x with running := x.running.or (some id) }
  s.sched (s.now + wait) (phSend t.group) (if runs then .bundleSend id else .drainEnd id)

/-- Whether a fault is offered for service (R197, R202, R282): class, cause, a covering entry, outside a drain and a
replay. -/
def State.offers (s : State) (id : Nat) (r : FaultRec) : Option StubEntry :=
  let t := s.task id
  let live := match t.run with
    | .sending | .holding | .blocked | .eligible => true
    | _ => false
  if live && !r.drain && t.rblock.isNone && 2 ≤ t.cls &&
      (r.cause = 0x1A || r.cause = 0x1B || r.cause = 0x12 || r.cause = 0x13) then
    t.covering r.pc.toNat
  else none

/-- A fault on a context is taken (R194 to R199): offered for service, with a record that awaits an answer and a drain,
or raised on its task. A task that no longer runs takes none. -/
def State.takeFault (s : State) (id : Nat) (r : FaultRec) : State :=
  let t := s.task id
  if !t.resident || t.run = .aborting then s
  else
    let s := s.dirty t.die t.session
    match s.offers id r, s.queueRecord id r (some (0, id)) with
    | some e, some s' =>
      let s' := (s'.vec t.part 3).faultSnap r.cause
      let s' := s'.modTask id fun t => { t with awaitSvc := true }
      s'.beginDrain id (some e) 1
    | _, _ =>
      match s.queueRecord id r none with
      | some s' => s'.raise id r.cause
      | none => (s.lostRecord id).raise id r.cause

/-- A fault that one core finds at its own issue, or at a landing (R195, R410): never offered, so it is raised. A machine
check is reported as well (R212). -/
def State.raiseHere (s : State) (id : Nat) (r : FaultRec) : State :=
  let t := s.task id
  if s.env.probe then { s with found := s.found ++ [r] }
  else if !t.resident || t.run = .aborting then s
  else
    let s := if faultClass r.cause = 7 then s.mcReport t.die r.cause else s
    let s := s.dirty t.die t.session
    match s.queueRecord id r none with
    | some s' => s'.raise id r.cause
    | none => (s.lostRecord id).raise id r.cause

/-- After an arithmetic trap no bundle of the team issues on any core in a later tick (R195): what was on its way down the
distribution tree carries landings only. -/
def State.cutIssue (s : State) (id : Nat) : State :=
  { s with agenda := s.agenda.map fun d =>
      match d.ev with
      | .writeLanding _ _ _ _ =>
        if d.env.task = id && decide (s.now < d.time) then { d with env := { d.env with landOnly := true, bundle := false }, ops := [] } else d
      | _ => d }

/-- A fault of the operation being executed, at its slot. -/
def State.faultHere (s : State) (cause faddr : Nat) : State :=
  s.raiseHere s.env.task
    { cause := cause, slot := s.env.slot, faddr := faddr, idx := s.env.idx, drain := s.env.stub, pc := s.env.pc }

/-- An engine's fault (R211): offered in every class while the queue accepts a record, otherwise raised on the issuing
task. The second result says whether it awaits an answer. -/
def State.engineFault (s : State) (id kind num : Nat) (r : FaultRec) : State × Bool :=
  let t := s.task id
  let s := s.dirty t.die t.session
  if faultClass r.cause = 7 then (s.raiseHere id r, false)
  else
    match s.queueRecord id r (some (kind, num)) with
    | some s' => ((s'.vec t.part 3).faultSnap r.cause, true)
    | none => (((s.lostRecord id).raise id r.cause), false)

/-! Returning from a fault -/

/-- The record with a SEQ that awaits an answer, taken from the list (R199). -/
def State.takeAwait (s : State) (i seq : Nat) : Option ((Nat × Nat × Nat) × State) :=
  (s.svcAwait.find? fun a => a.1 = i && a.2.1 = seq).map fun a =>
    (a.2.2, { s with svcAwait := s.svcAwait.filter fun b => !(b.1 = i && b.2.1 = seq) })

/-- The parked task may head its group again (R199): the scheduler restores it (R205). -/
def State.allowResume (s : State) (id : Nat) : State :=
  s.modTask id fun t => { t with awaitSvc := false, walkRes := [] }

/-! Slot operations -/

/-- A slot operation at its issue: check 6 of R255, its issue checks, then its effect. A check that fails only here is
R410's. -/
def State.issue (s : State) (i : Instr) (c : Check) (effect : State → State) :
    Host.Outcome State Fault Refusal :=
  if !i.wf then .next (s.faultHere 0x04 0)
  else
    let f := s.finding c
    let s := if s.env.probe then { s with wants := s.wants ++ s.missing c } else s
    if f.1 ≠ 0 then .next (s.faultHere f.1 f.2) else .next (effect s)

/-- The guard of a slot operation on the operation's core (R248). -/
def State.guardTrue (s : State) (op : SlotOp) : Bool :=
  if op.guard < 16 then s.mine.pNamed op.guard else decide (s.env.path = some (op.guard - 16))

/-- A slot operation whose guard is false has no effect beyond event 0x04 (R188, R248). -/
def State.guardedOff (s : State) : State := s.count s.env.core s.env.ctx 0x04 1

/-! The capture of a measured task's writes (R189) -/

/-- Whether a measurement captures the writes of a task: its first pass. -/
def State.capturing (s : State) (t : Nat) : Bool :=
  let r := (s.cluster (clusterOf (s.task t).group)).rpl
  r.task = some t && r.pass = 0 && s.getF CCC_RPL_CTL.STATE (clusterOf (s.task t).group) ≠ 2

/-- The pages of a range that a measured task writes are kept, so that entries can name virtual addresses (R402). -/
def State.notePages (s : State) (t va n : Nat) : State :=
  if !s.capturing t then s
  else
    let k := s.task t
    (pagesOf va n).foldl (fun s p =>
      let pa := (s.agentXlate k.die k.part p.1 1).2.pa p.1
      s.modCluster (clusterOf k.group) fun c => { c with rpl := { c.rpl with pages := (pa / 65536, p.1 / 65536) :: c.rpl.pages } }) s

/-- One 64-byte sector is appended to the buffer before its first write: its address as R402 gives it, then its old
contents. `space` is 0 for global memory and 1 + core for scratchpad. -/
def State.capture1 (s : State) (t space a addr : Nat) (old : List Byte) : State :=
  let k := s.task t
  let cl := clusterOf k.group
  let r := (s.cluster cl).rpl
  if !s.capturing t || r.cap.any (fun e => e.1 = space && e.2.1 = a) then s
  else
    let stop (s : State) : State :=
      (s.setF CCC_RPL_CTL.STATE cl 2).modCluster cl fun c => { c with rpl := { c.rpl with last := true } }
    let va := s.getF CCC_RPL_BUF.CAP cl * 65536 + r.used
    if s.getF CCC_RPL_BUF.CAPSZ cl * 65536 < r.used + 72 then stop s
    else
      match s.vwrite k.die k.part 0 3 va (natLe 8 addr ++ old) with
      | none => stop s
      | some s => s.modCluster cl fun c =>
          { c with rpl := { c.rpl with cap := (space, a, old) :: c.rpl.cap, used := c.rpl.used + 72 } }

/-- The sectors of a scratchpad range of a core, captured. -/
def State.captureSpad (s : State) (t core off n : Nat) : State :=
  if !s.capturing t || n = 0 then s
  else (List.range ((off + n - 1) / 64 + 1 - off / 64)).foldl (fun s i =>
    let a := (off / 64 + i) * 64
    s.capture1 t (1 + core) a (2 ^ 63 + (a - (s.bank (ctxOf core (s.task t).ctx)).spadBase)) (bytesAt (s.core core).spad a 64)) s

/-- The sectors of a physical range, captured with the bytes a core would read; those of another module are not seen from
here. -/
def State.captureMem (s : State) (t core pa n : Nat) : State :=
  if !s.capturing t || n = 0 then s
  else (List.range ((pa + n - 1) / 64 + 1 - pa / 64)).foldl (fun s i =>
    let a := (pa / 64 + i) * 64
    let pages := (s.cluster (clusterOf (s.task t).group)).rpl.pages
    let page := ((pages.find? fun p => p.1 = a / 65536).map (·.2)).getD (a / 65536)
    s.capture1 t 0 a (page * 65536 + a % 65536) (if s.abroad a then abroadBytes (a + s.now) 64 else s.coreBytes core (s.task t).part a 64)) s

/-- The 128-byte blocks of a range of a core's table memory, captured beside the buffer (15 R390). -/
def State.captureTm (s : State) (t core off n : Nat) : State :=
  if !s.capturing t || n = 0 then s
  else (List.range ((off + n - 1) / 128 + 1 - off / 128)).foldl (fun s i =>
    let a := (off / 128 + i) * 128
    s.modCluster (clusterOf (s.task t).group) fun c =>
      if c.rpl.tmCap.any fun e => e.1 = core && e.2.1 = a then c
      else { c with rpl := { c.rpl with tmCap := (core, a, bytesAt (s.core core).tm a 128) :: c.rpl.tmCap } }) s

/-- A task's write into a context's share of table memory, captured first (15 R362, R390). -/
def State.taskTm (s : State) (t core ctx off : Nat) (b : List Byte) : State :=
  let a := (s.bank (ctxOf core ctx)).spadBase / 4 + off
  (s.captureTm t core a b.length).modCore core fun c => { c with tm := putBytes c.tm a b }

/-- A task's store into a context's scratchpad partition, captured first. -/
def State.taskSpad (s : State) (t core ctx off : Nat) (b : List Byte) : State :=
  (s.captureSpad t core ((s.bank (ctxOf core ctx)).at_ off) b.length).spadStore core ctx off b

end Sys2Proof.Machine
end

