-- ==== Sys2Proof/Machine/Operands.lean ====
section
/-! DEFINITION. Operand forms: the second source of layouts S3 and SP (R252), elements of vectors by type code (R251, R300, R302), addresses of slot 6 (R338), shape registers and their swap (R296, R323), branch targets (R253, R271). -/

namespace Sys2Proof.Machine

/-- Source b of layout S3: sb, or bs with BA (R252). -/
def State.bS3 (s : State) (o : S3) : Word := if o.ba = 1 then s.mine.bs else s.sv o.b
/-- Source b of layout SP. -/
def State.bSP (s : State) (o : SP) : Word := if o.ba = 1 then s.mine.bs else s.sv o.b

/-- A bundle-relative target: bundle address + 4 × OFS (R253). -/
def target (pc : Word) {n : Nat} (ofs : BitVec n) : Word := pc + 4 * ofs.signExtend 64
/-- A target taken from a register has bits 1:0 cleared (R246, R270). -/
def regTarget (v : Word) : Word := v &&& ~~~3#64

/-- Width in bits of a type code, and whether it is signed (R251). -/
def tyWidth (ty : BitVec 4) : Nat :=
  match ty.toNat with
  | 0 | 4 | 11 | 12 => 8
  | 1 | 5 | 9 | 10 => 16
  | 3 | 7 => 64
  | _ => 32
def tySigned (ty : BitVec 4) : Bool := ty.ule 3
/-- Bytes of a scalar element of a type code in 0 to 7. -/
def tyBytes (ty : BitVec 4) : Nat := tyWidth ty / 8
/-- The layout of a floating type code (R215, R251). -/
def tyFmt (ty : BitVec 4) : Fmt :=
  match ty.toNat with
  | 8 => fp32
  | 9 => fp16
  | 10 => bf16
  | 11 => fpE4M3
  | _ => fpE5M2
/-- A floating type code (8 to 12). -/
def tyFloat (ty : BitVec 4) : Bool := BitVec.ule 8 ty && ty.ule 12

/-- The elements of a vector, element 0 first, w bits each (R300). -/
def elems (w : Nat) (v : Vec) : List Nat := (List.range (4096 / w)).map fun i => bits v.toNat (w * i + w - 1) (w * i)
/-- A number from elements of w bits, element 0 lowest. -/
def packElems (w : Nat) : List Nat → Nat
  | [] => 0
  | x :: xs => x % 2 ^ w + 2 ^ w * packElems w xs
/-- The vector of elements of w bits. -/
def ofElems (w : Nat) (l : List Nat) : Vec := BitVec.ofNat 4096 (packElems w l)
/-- The bytes of a vector, lowest first (R300). -/
def vecBytes (v : Vec) : List Byte := natLe 512 v.toNat
/-- The vector of 512 bytes. -/
def bytesVec (b : List Byte) : Vec := BitVec.ofNat 4096 (leNat b)

/-- A source of slot 3 or 4: the bypass of the slot that holds the operation, or v(n) (R252). -/
def State.vsrc (s : State) (u : VUnit) (byp : BitVec 1) (n : BitVec 5) : Vec :=
  if byp = 1 then (match u with | .v0 => s.mine.bv0 | .v1 => s.mine.bv1) else s.vv n
/-- Number of a vector slot's bypass. -/
def unitNum : VUnit → Nat
  | .v0 => 0
  | .v1 => 1

/-- A scalar address of slot 6: the low bits of the size are ignored (R338). -/
def alignedTo (a n : Nat) : Nat := a - a % n
/-- The sign- or zero-extended element of w bits (R292, R341). -/
def extend (w : Nat) (signed : Bool) (v : Nat) : Word :=
  if signed then BitVec.ofInt 64 (sintN w v) else BitVec.ofNat 64 (v % 2 ^ w)

/-- A scratchpad access of n bytes at an offset: beyond the partition it is cause 0x16 (R132, R338). -/
def State.spadCheck (s : State) (off n : Nat) : Check := .when (!s.mine.holds off n) 0x16 off

/-- Shape registers of a set: 0 hm, 1 hl, 2 hx (R250). -/
def Bank.shapes (b : Bank) (eng : Nat) : SMap Shape := if eng = 0 then b.hm else if eng = 1 then b.hl else b.hx
def Bank.modShape (b : Bank) (eng h : Nat) (f : Shape → Shape) : Bank :=
  if eng = 0 then { b with hm := b.hm.upd h f }
  else if eng = 1 then { b with hl := b.hl.upd h f }
  else { b with hx := b.hx.upd h f }
/-- The value an engine operation reads: the live copy, or the shadow that its swap makes live (R323). -/
def State.shapeRead (s : State) (eng : Nat) (h : BitVec 2) (sw : BitVec 1) : Word :=
  let x := (s.mine.shapes eng).look h.toNat
  if sw = 1 then x.shadow else x.live
/-- The swap that SW asks for (R296, R323). -/
def State.shapeSwap (s : State) (eng : Nat) (h : BitVec 2) (sw : BitVec 1) : State :=
  if sw = 1 then s.modBank s.b fun b => b.modShape eng h.toNat fun x => { live := x.shadow, shadow := x.live } else s

end Sys2Proof.Machine
end

