-- ==== Sys2Proof/Machine/Flags.lean ====
section
/-! DEFINITION. The format register fmt and its flags: fields as an operation reads them (R226, R227), flags and traps at landing, flush of subnormals (R222), the flags of scalar division (R290). -/

namespace Sys2Proof.Machine

/-- The rounding mode of an RM code; 6 and 7 act as 0 (R226). -/
def rmOf (n : Nat) : RMode :=
  match n with
  | 1 => .rtz
  | 2 => .rdn
  | 3 => .rup
  | 4 => .rna
  | 5 => .rto
  | _ => .rne

/-- Fields of fmt (R226). -/
def fmtFA (f : Word) : Nat := bits f.toNat 3 0
def fmtFB (f : Word) : Nat := bits f.toNat 7 4
def fmtFG (f : Word) : Nat := bits f.toNat 11 8
def fmtRM (f : Word) : RMode := rmOf (bits f.toNat 33 31)
def fmtFTZ (f : Word) : Bool := f.getLsbD 34
def fmtF8SAT (f : Word) : Bool := f.getLsbD 35
/-- Zero-point mode; 3 acts as 0. -/
def fmtZPM (f : Word) : Nat := bits f.toNat 37 36 % 3
/-- Group size G; 3 acts as 0. -/
def fmtG (f : Word) : Nat := match bits f.toNat 39 38 with | 1 => 64 | 2 => 128 | _ => 32
/-- Approximation setting; 5 to 15 act as 0. -/
def fmtAPX (f : Word) : Nat := if bits f.toNat 43 40 ≤ 4 then bits f.toNat 43 40 else 0
def fmtFLG (f : Word) : Nat := bits f.toNat 49 44
def fmtTEN (f : Word) : Nat := bits f.toNat 55 50

/-- The bits of fmt that an FMASK selects (R283). -/
def fmtMask (m : BitVec 11) : Word :=
  let sel (i hi lo : Nat) : Word := if m.getLsbD i then mask64 hi lo else 0
  sel 0 3 0 ||| sel 1 7 4 ||| sel 2 11 8 ||| sel 3 33 31 ||| sel 4 34 34 ||| sel 5 35 35 ||| sel 6 37 36 |||
  sel 7 39 38 ||| sel 8 43 40 ||| sel 9 49 44 ||| sel 10 55 50

/-- Integer overflow of a trapping integer form: the flag, and beyond the six flags a mark that it may trap (R290,
R310). -/
def flTrapInt : Nat := flIntOvf ||| 64
/-- Flags ORed into FLG (R227). -/
def orFlags (fmt : Word) (fl : Nat) : Word := fmt ||| BitVec.ofNat 64 (fl % 64 * 2 ^ 44)
/-- The cause of the trap that landing flags take: the lowest whose TEN bit is set, or none (R195, R227). Integer
overflow traps only for the trapping integer forms (R194). -/
def trapCause (fmt : Word) (fl : Nat) : Option Nat :=
  (firstFrom (fun i => bit fl i && bit (fmtTEN fmt) i && (i ≠ 5 || bit fl 6)) 6 0).map (0x61 + ·)

/-- A subnormal operand or result reads as a zero of its sign under FTZ (R222). -/
def flushFp (ftz : Bool) (f : Fmt) (x : Nat) : Nat :=
  if ftz && f.isSub x then f.pack (bit x (f.width - 1)) 0 0 else x

/-- Flags of a signed or natural division (R290). -/
def divFlags (signed : Bool) (a b : Word) : Nat :=
  if b = 0 then flDivZero
  else if signed && a = 0x8000000000000000#64 && b = -1#64 then flTrapInt else 0

end Sys2Proof.Machine
end

