-- ==== Sys2Proof/Machine/Address.lean ====
section
/-! DEFINITION. The address slot A (11 R277, R279, R280, R294 to R297). -/

namespace Sys2Proof.Machine

/-- An address form that lands at offset 1 and charges class 2 (R294). -/
def State.address (s : State) (i : Instr) (d : BitVec 6) (v : Word) : Host.Outcome State Fault Refusal :=
  s.issue i .pass fun s => (s.issued1 2).writeS 1 d v

/-- A form that issues one write landing at offset 1. -/
def State.address1 (s : State) (i : Instr) (c : Check) (w : Write) : Host.Outcome State Fault Refusal :=
  s.issue i c fun s => (s.issued1 2).after 1 w

/-- A write to the count register of a spatial level is cause 0x04 (R277, R295, R341). -/
def State.levelCheck (s : State) (k : Nat) : Check :=
  .when (decide (k < 4) && (s.cur.loopKind k = 1 || s.cur.loopKind k = 2)) 0x04

/-- AADD (R294). -/
def execAadd (o : S3) (s : State) : Host.Outcome State Fault Refusal :=
  s.address (.aadd o) o.d (s.sv o.a + s.bS3 o)

/-- ASUB (R294). -/
def execAsub (o : S3) (s : State) : Host.Outcome State Fault Refusal :=
  s.address (.asub o) o.d (s.sv o.a - s.bS3 o)

/-- AMOV (R294). -/
def execAmov (o : S3) (s : State) : Host.Outcome State Fault Refusal :=
  s.address (.amov o) o.d (s.sv o.a)

/-- AIDX (R294). -/
def execAidx (o : S3) (s : State) : Host.Outcome State Fault Refusal :=
  s.address (.aidx o) o.d (s.sv o.a + 256 * s.bS3 o)

/-- AWRAP (R294). -/
def execAwrap (o : S3) (s : State) : Host.Outcome State Fault Refusal :=
  s.address (.awrap o) o.d (if (s.sv o.a).ult (s.bS3 o) then s.sv o.a else s.sv o.a - s.bS3 o)

/-- AADDI (R294). -/
def execAaddi (o : SI) (s : State) : Host.Outcome State Fault Refusal :=
  s.address (.aaddi o) o.d (s.sv o.a + o.imm.signExtend 64)

/-- LSET (R277): k of the level takes sa. -/
def execLset (o : AL) (s : State) : Host.Outcome State Fault Refusal :=
  s.address1 (.lset o) (s.levelCheck o.lvl.toNat) (.k o.lvl.toNat (s.sv o.a))

/-- KSET (R295). -/
def execKset (o : AK) (s : State) : Host.Outcome State Fault Refusal :=
  s.address1 (.kset o) (s.levelCheck o.k.toNat) (.k o.k.toNat (s.sv o.a + o.imm.signExtend 64))

/-- KADD (R295). -/
def execKadd (o : AK) (s : State) : Host.Outcome State Fault Refusal :=
  s.address1 (.kadd o) (s.levelCheck o.k.toNat) (.k o.k.toNat (s.kv o.k + s.sv o.a + o.imm.signExtend 64))

/-- KGET (R295): a field of 0 discards the result. -/
def execKget (o : AK) (s : State) : Host.Outcome State Fault Refusal :=
  s.address (.kget o) o.a (s.kv o.k + o.imm.signExtend 64)

/-- Bits of the shadow that a FIELD of SHF writes (R296). -/
def shfMask (field : Nat) : Word :=
  if field ≤ 7 then mask64 (8 * field + 7) (8 * field)
  else if field ≤ 11 then mask64 (16 * (field - 8) + 15) (16 * (field - 8))
  else if field ≤ 13 then mask64 (32 * (field - 12) + 31) (32 * (field - 12))
  else mask64 63 0
/-- The source bits of SHF in their place (R296). -/
def shfValue (field : Nat) (a : Word) : Word :=
  if field ≤ 7 then a <<< (8 * field)
  else if field ≤ 11 then a <<< (16 * (field - 8))
  else if field ≤ 13 then a <<< (32 * (field - 12))
  else a

/-- SHF (R296). -/
def execShf (o : AH) (s : State) : Host.Outcome State Fault Refusal :=
  s.address1 (.shf o) .pass
    (.shape o.eng.toNat o.h.toNat (shfMask o.field.toNat) (shfValue o.field.toNat (s.sv o.a)))

/-- SHCP: the live value into the shadow (R296). -/
def execShcp (o : AH) (s : State) : Host.Outcome State Fault Refusal :=
  s.address1 (.shcp o) .pass
    (.shape o.eng.toNat o.h.toNat (mask64 63 0) ((s.mine.shapes o.eng.toNat).look o.h.toNat).live)

/-- Tile of a request (R297): s48 and p8. -/
def tileOf (i nsr srk tsz cid total width : Nat) : Word × Bool :=
  let t := (i * nsr + srk) * tsz + cid
  let x := if width = 0 then 1 else width
  if t < total then (BitVec.ofNat 64 (t / x % 2 ^ 32 * 2 ^ 32 + t % x), true) else (-1#64, false)

/-- NTQ (R297): every core forms its own tile from the request count of the control core, which grows by one. -/
def execNtq (o : AN) (s : State) : Host.Outcome State Fault Refusal :=
  s.issue (.ntq o) .pass fun s =>
    let sp := o.n.getLsbD 0
    let i := if sp then s.env.nt1 else s.env.nt0
    let r := tileOf i s.cur.nsr s.cur.srk s.cur.team s.env.idx
      ((s.mine.k.look (if sp then 14 else 12)).toNat % 2 ^ 32) ((s.mine.k.look (if sp then 15 else 13)).toNat % 2 ^ 32)
    let t := ((s.issued1 2).writeS 12 48 r.1).writeP 12 8 r.2
    if s.env.idx = 0 then
      t.modTask s.env.task fun k => if sp then { k with nt1 := i + 1 } else { k with nt0 := i + 1 }
    else t

/-- RRBW: BASE (R279). -/
def execRrbw (o : AN) (s : State) : Host.Outcome State Fault Refusal :=
  s.address1 (.rrbw o) .pass (.rrb (mask64 3 0) (o.n.setWidth 64))

/-- PSTG: STG, SLV and EC (R279). -/
def execPstg (o : AN) (s : State) : Host.Outcome State Fault Refusal :=
  s.address1 (.pstg o) .pass (.rrb (mask64 12 4) (0x1000#64 ||| (o.n.setWidth 64 <<< (4 : Nat))))

/-- LCNT: replay count of a level, kept by the control core from core index 0 (R280). -/
def execLcnt (o : AK) (s : State) : Host.Outcome State Fault Refusal :=
  s.issue (.lcnt o) .pass fun s =>
    let n := truncInt ((s.sv o.a).toNat + o.imm.toInt) 32
    let t := s.issued1 2
    if s.env.idx = 0 then t.after 1 (.replayCount o.k.toNat (if n = 0 then 1 else n)) else t

/-- LREPT: a replay table entry, kept by the control core from core index 0 (R280). -/
def execLrept (o : AK) (s : State) : Host.Outcome State Fault Refusal :=
  s.issue (.lrept o) .pass fun s =>
    let t := s.issued1 2
    if s.env.idx = 0 then
      t.after 1 (.replayEntry (o.imm.extractLsb' 2 3).toNat o.k.toNat (o.imm.extractLsb' 0 2).toNat (s.sv o.a))
    else t

end Sys2Proof.Machine
end

