-- ==== Sys2Proof/Machine/Kernel.lean ====
section
/-! DEFINITION. Kernel headers and their tables (07 R179, R180; 08 R200, R201; 11 R274), the occupancies they declare and the pools these are taken from (07 R182), scratchpad ranges (06 R133). -/

namespace Sys2Proof.Machine

/-- n little-endian bytes of a byte string at an offset. -/
def natAt (b : List Byte) (off n : Nat) : Nat := leNat ((b.drop off).take n)
/-- Whether n bytes at an offset are zero. -/
def zerosAt (b : List Byte) (off n : Nat) : Bool := natAt b off n = 0

/-- A profile that is published on the part (R228). -/
def published (p : Nat) : Bool := [0x001, 0x002, 0x003, 0x004, 0x010, 0x011, 0x020, 0x030].contains p

/-! Headers -/

/-- KIND and COUNT of loop level l in a header (R180). -/
def hdrKind (h : List Byte) (l : Nat) : Nat := bits (natAt h (64 + 8 * l) 8) 63 62
def hdrCount (h : List Byte) (l : Nat) : Nat := natAt h (64 + 8 * l) 4
/-- Dynamic mode, and the L1 mode compiled for (R179). -/
def hdrDynamic (h : List Byte) : Bool := bit (natAt h 2 1) 0
def hdrFused (h : List Byte) : Bool := bit (natAt h 2 1) 1
/-- Sisters of a launch: COUNT of the level of KIND 2 (R181). -/
def hdrSisters (h : List Byte) : Nat :=
  match (List.range 4).find? fun l => hdrKind h l = 2 with
  | some l => hdrCount h l
  | none => 1

/-- A loop-table entry is well formed (R180). -/
def loopOk (h : List Byte) (l : Nat) : Bool :=
  let c := hdrCount h l
  zerosAt h (64 + 8 * l + 4) 3 && bits (natAt h (64 + 8 * l) 8) 61 56 = 0 &&
  (match hdrKind h l with
   | 0 => c ≠ 0
   | 1 => c = natAt h 3 1
   | 2 => decide (2 ≤ c ∧ c ≤ 4)
   | _ => true)

/-- The fields of a header are in their ranges (R179, R180). -/
def headerOk (va : Nat) (h : List Byte) : Bool :=
  let f (o n : Nat) : Nat := natAt h o n
  let dyn := hdrDynamic h
  va % 128 = 0 && h.length = 128 && f 0 2 = 1 && decide (f 2 1 < 4) && decide (1 ≤ f 3 1 ∧ f 3 1 ≤ 8) &&
  decide (1 ≤ f 4 2 ∧ f 4 2 < 4096) && decide (f 6 2 ≤ 2048) && (!dyn || (f 8 4 = 0 && f 12 4 = 0)) &&
  decide (1 ≤ f 16 4 ∧ f 16 4 ≤ max (f 8 4) 1) && decide (f 34 2 ≤ 4096) && f 36 4 % 4 = 0 &&
  decide (4 ≤ f 40 4 ∧ f 40 4 ≤ 2 ^ 24) && decide (f 48 2 ≤ 256) && decide (f 50 2 ≤ 1024) &&
  (dyn || decide (1 ≤ f 50 2)) && decide (f 60 2 ≤ 256) && zerosAt h 62 2 && zerosAt h 96 32 &&
  (List.range 4).all (loopOk h) &&
  decide (((List.range 4).filter fun l => hdrKind h l = 1).length ≤ 1) &&
  decide (((List.range 4).filter fun l => hdrKind h l = 2).length ≤ 1)

/-- A branch-tree entry is well formed (R274). -/
def treeOk (e : List Byte) : Bool :=
  let t (i : Nat) : Nat := natAt e i 1
  let m := ((List.range 4).takeWhile fun i => bit (t i) 7).length
  (List.range 4).all (fun i => bits (t i) 6 5 = 0 && (decide (i < m) || !bit (t i) 7)) && zerosAt e 4 4 && zerosAt e 28 4 &&
  (List.range 5).all fun i =>
    let v := natAt e (8 + 4 * i) 4
    if m < i then v = 0 else v = 0xFFFFFFFF || (v % 4 = 0 && decide (v < 2 ^ 24))

/-- The bundles of a code image from an offset: offset, and local cycles with its empty bundles (R242, R244). -/
def bundlesOf (code : List Byte) : Nat → Nat → List (Nat × Nat)
  | 0, _ => []
  | n + 1, off =>
    if code.length < off + 4 then []
    else
      let h := natAt code off 4
      (off, 1 + bits h 11 8) :: bundlesOf code n (off + 4 * (1 + popN 8 h))

/-- Offsets of the bundles that fill a number of cycles from an offset. -/
def sequence (code : List Byte) : Nat → Nat → Nat → List Nat
  | 0, _, _ => []
  | n + 1, off, cyc =>
    if cyc = 0 then []
    else
      let h := natAt code off 4
      off :: sequence code n (off + 4 * (1 + popN 8 h)) (cyc - (1 + bits h 11 8))

/-- One stub entry is well formed (R200, R201). -/
def stubOk (b : List Byte) (i : Nat) : Bool :=
  let e := stubAt b i
  decide (e.lo < 2 ^ 24) && decide (e.lo ≤ e.hi) && decide (e.flags < 4) && zerosAt b (32 * i + 21) 11 &&
  (decide (e.lo = e.hi) || e.quiet)

/-- The drain-stub table obeys R200 and R201: ascending entries that do not overlap, stubs and re-entry sequences in the
code image outside every covered range, and in timetable mode every other bundle covered. -/
def stubsOk (h code dst : List Byte) : Bool :=
  let n := natAt h 50 2
  let es := (List.range n).map (stubAt dst)
  let covered (o : Nat) : Bool := es.any fun e => decide (e.lo ≤ o ∧ o ≤ e.hi)
  let seqs := (es.map fun e =>
    if e.quiet then [] else sequence code (e.dlen + 1) e.stub e.dlen ++ sequence code (e.rlen + 1) e.entry e.rlen).flatten
  (List.range n).all (stubOk dst) &&
  (List.range (n - 1)).all (fun i => decide ((stubAt dst i).hi < (stubAt dst (i + 1)).lo)) &&
  seqs.all (fun o => decide (o + 4 ≤ code.length) && !covered o) &&
  (hdrDynamic h || (bundlesOf code (code.length / 4 + 1) 0).all fun b => seqs.contains b.1 || covered b.1)

/-- What the control core and the admission unit read of a kernel. -/
structure Kernel where
  hdr : List Byte := []
  btt : List Byte := []
  dst : List Byte := []
  deriving DecidableEq, Repr, Inhabited

/-- Whether n bytes from an address translate with R and X. -/
def State.mappedRX (s : State) (die part va n : Nat) : Bool :=
  (s.rangeFault die part va n 0).isNone && (s.rangeFault die part va n 3).isNone

/-- A kernel read through its partition's translation: none where the header cannot be read, and whether header, tables
and code are well formed and mapped (R179, R180, R201, R274). -/
def State.readKernel (s : State) (die part va : Nat) : Option (Kernel × Bool) :=
  match s.vread die part va 128 0 with
  | none => none
  | some h =>
    let f (o n : Nat) : Nat := natAt h o n
    if !headerOk va h then some ({ hdr := h }, false)
    else
      match s.vread die part (va + f 36 4) (f 40 4) 0, s.vread die part (va + f 44 4) (32 * f 48 2) 0,
        s.vread die part (va + f 52 4) (32 * f 50 2) 0 with
      | some code, some btt, some dst =>
        let ok := s.mappedRX die part va 128 && s.mappedRX die part (va + f 36 4) (f 40 4) && stubsOk h code dst &&
          (List.range (f 48 2)).all fun i => treeOk ((btt.drop (32 * i)).take 32)
        some ({ hdr := h, btt := btt, dst := dst }, ok)
      | _, _, _ => some ({ hdr := h }, false)

/-- The kernel image's ranges (R179): header, code, tables, task graph, as one range of bytes from the header. An empty table
adds none. -/
def imageBytes (h : List Byte) : Nat :=
  let f (o n : Nat) : Nat := natAt h o n
  let table (o n : Nat) : Nat := if f n 2 = 0 then 0 else f o 4 + 32 * f n 2
  max (max (f 36 4 + f 40 4) (table 44 48)) (max (table 52 50) (table 56 60))

/-! Occupancies (R182) -/

/-- What one task or stream takes: its cores, and the count of each kind. -/
structure Demand where
  die : Nat := 0
  part : Nat := 0
  base : Nat := 0
  cores : Nat := 0
  wt : Nat := 0
  brt : Nat := 0
  ced : Nat := 0
  bar : Nat := 0
  fbe : Nat := 0
  btt : Nat := 0
  dst : Nat := 0
  /-- Pinned instruction-cache lines. -/
  lines : Nat := 0
  deriving DecidableEq, Repr, Inhabited

/-- Lines of code that a header pins. -/
def hdrLines (h : List Byte) : Nat := ceilDiv (natAt h 40 4) 128

/-- The declarations of a header, on cores from a base. -/
def demandOf (die part base cores : Nat) (h : List Byte) : Demand :=
  let f (o : Nat) : Nat := natAt h o 2
  { die := die, part := part, base := base, cores := cores, wt := f 26, brt := f 28, ced := f 30, bar := f 32,
    fbe := f 34, btt := f 48, dst := f 50, lines := hdrLines h }

/-- Distinct kernels of a stream's variants. -/
def Stream.kernels (st : Stream) : List Variant :=
  st.vars.foldl (fun l v => if l.any (fun w => w.kernel = v.kernel) then l else l ++ [v]) []

/-- First core of a group and its size. -/
def State.groupSize (s : State) (g : Nat) : Nat := 2 ^ s.getF ADM_GRP.SIZE g

/-- What a registered fast or slow stream holds (R112, R113, R170, R182) with its session at a level: the counts of its
variant at that level, of variant 1 for a slow one at D2 or D3, and the tables and pinned code of all its variants
(notes/assumptions/12.md). -/
def streamDemand (die : Nat) (st : Stream) (level : Nat) : Demand :=
  let v := st.at_ (if st.cls = 1 then min level 1 else level)
  let of (f : Nat) : Nat := natAt v.hdr f 2
  let all (f : List Byte → Nat) : Nat := (st.kernels.map fun v => f v.hdr).foldl (· + ·) 0
  { die := die, part := st.part, base := st.group, cores := st.gsize, wt := of 26, brt := of 28, ced := of 30, bar := of 32,
    fbe := of 34, btt := all (natAt · 48 2), dst := all (natAt · 50 2), lines := all hdrLines }

/-- Streams whose registration has passed its test and is not shown yet, with their dies (R107). -/
def State.passed (s : State) : List (Nat × Stream) :=
  (List.range 4).flatMap fun d =>
    match (s.die d).regTest with
    | some a => if a.code ≠ 0 then [] else (d, a.st) :: (a.copy.toList.map fun c => (partnerOf d, c))
    | none => []
/-- Fast and slow streams that hold contexts, ranges and occupancies, with their dies: the registered ones, and those whose
registration has passed its test. -/
def State.reserved (s : State) : List (Nat × Stream) :=
  ((s.streams.filter fun (e : Nat × Stream) => e.2.valid).map (fun (e : Nat × Stream) => (e.1 / 1024, e.2)) ++ s.passed).filter fun p =>
    decide (p.2.cls < 2)
/-- System and bulk tasks that hold occupancies. -/
def State.holders (s : State) : List Task := (s.tasks.filter fun e => e.2.occ && decide (2 ≤ e.2.cls)).map (·.2)

/-- Everything that is taken from the pools, with the sessions of each die at levels. -/
def State.demands (s : State) (lv : Nat → Nat → Nat) : List Demand :=
  (s.reserved.map fun p => streamDemand p.1 p.2 (lv p.1 p.2.session)) ++ s.holders.map fun t => demandOf t.die t.part t.group t.team t.hdr

/-- Whether two spans of cores meet. -/
def meet (a n b m : Nat) : Bool := decide (a < b + m) && decide (b < a + n)
/-- Sum of a count over the demands that a test names. -/
def sumOf (l : List Demand) (p : Demand → Bool) (f : Demand → Nat) : Nat := ((l.filter p).map f).foldl (· + ·) 0

/-- Pools that a demand would overrun, as the codes of R185 in order: 0x0305 to 0x030A. -/
def State.overruns (s : State) (d : Demand) (lv : Nat → Nat → Nat) : List Nat :=
  let l := s.demands lv
  let cl (e : Demand) : Bool := e.base / 8 = d.base / 8
  let die (e : Demand) : Bool := e.die = d.die
  let short (c : Bool) (code : Nat) : List Nat := if c then [code] else []
  short (decide (256 < d.wt + sumOf l cl (·.wt))) 0x0305 ++
  short ((List.range d.cores).any fun i =>
    decide (64 < d.brt + sumOf l (fun e => decide (e.base ≤ d.base + i ∧ d.base + i < e.base + e.cores)) (·.brt))) 0x0306 ++
  short (decide (1024 < d.ced + sumOf l die (·.ced))) 0x0307 ++
  short (decide (256 < d.bar + sumOf l die (·.bar))) 0x0308 ++
  short (decide (4096 < d.fbe + sumOf l (fun e => e.part = d.part) (·.fbe))) 0x0309 ++
  short (decide (1024 < d.btt + sumOf l cl (·.btt)) || decide (4096 < d.dst + sumOf l cl (·.dst)) ||
    decide (1536 < d.lines + sumOf l cl (·.lines))) 0x030A

/-- Accumulator banks taken on a core: by the streams whose groups cover it, and by system and bulk tasks. `skip` leaves
out the group whose tasks share their banks (R170). -/
def State.banksTaken (s : State) (core : Nat) (skip : Option Nat) : Nat :=
  let a := s.reserved.map fun p =>
    if some p.2.group = skip || !meet p.2.group p.2.gsize core 1 then 0
    else (p.2.kernels.map fun v => natAt v.hdr 24 2).foldl Nat.lor 0
  let b := s.holders.map fun t => if meet t.group t.team core 1 then natAt t.hdr 24 2 else 0
  (a ++ b).foldl Nat.lor 0

/-- Whether banks of a mask are free on every core of a span. -/
def State.banksFree (s : State) (base n mask : Nat) (skip : Option Nat) : Bool :=
  (List.range n).all fun i => Nat.land mask (s.banksTaken (base + i) skip) = 0

/-! Scratchpad ranges (R133) -/

/-- Ranges held on a core: offset and bytes. -/
def State.rangesOn (s : State) (core : Nat) : List (Nat × Nat) :=
  (s.reserved.filterMap fun p =>
    if meet p.2.group p.2.gsize core 1 then some (p.2.spadBase.getD (core - p.2.group) 0, p.2.spadBytes) else none) ++
  (s.holders.filterMap fun t =>
    if meet t.group t.team core 1 then some (t.spadBase.getD (core - t.group) 0, natAt t.hdr 6 2 * 1024) else none)

/-- The lowest free offset of a core at which n bytes fit. -/
def State.spadFit (s : State) (core n : Nat) : Option Nat :=
  let rs := s.rangesOn core
  let fits (o : Nat) : Bool :=
    decide (o + n ≤ 2 ^ 21) && (n = 0 || rs.all fun r => decide (o + n ≤ r.1) || decide (r.1 + r.2 ≤ o))
  leastBy (fun a b => decide (a < b)) ((0 :: rs.map fun r => r.1 + r.2).filter fits)

/-- The lowest free offsets on each core of a span, none where one does not fit. -/
def State.spadFits (s : State) (base n bytes : Nat) : Option (List Nat) :=
  (List.range n).foldr (fun i acc =>
    match acc, s.spadFit (base + i) bytes with
    | some l, some o => some (o :: l)
    | _, _ => none) (some [])

end Sys2Proof.Machine
end

