-- ==== Sys2Proof/Machine/Walkers.lean ====
section
/-! DEFINITION. The table walkers of a die (06 R147 to R149): miss entries, their order, and what a walk that ends gives. -/

namespace Sys2Proof.Machine

/-- The order of misses (R149): earliest d_ord, earliest tick, lowest requester. -/
def Miss.before (a b : Miss) : Bool := lexLt [a.dord, a.tick, a.req] [b.dord, b.tick, b.req]

/-- The first miss in that order with a property. -/
def firstMiss (l : List Miss) (f : Miss → Bool) : Option Miss := leastBy Miss.before (l.filter f)

/-- A miss of a die changed. -/
def State.modMiss (s : State) (die id : Nat) (f : Miss → Miss) : State :=
  s.modDie die fun d => { d with walkQ := d.walkQ.map fun m => if m.id = id then f m else m }

/-- A walk that is over is answered after a free latency. -/
def State.walkEnds (s : State) (die id : Nat) (r : Nat × Xlate) : State :=
  (s.modMiss die id fun m => { m with res := some r }).schedSome phMem (.tableWalkDone (Fin.ofNat 4 die) id)

/-- The table of a level is checked, and the walker asks for its entry: in system slots of its stack, unless the LLC of
the owning die holds it; of another module with a tagged access of the partition (R42, R147). -/
def State.walkAsk (s : State) (die : Nat) (m : Miss) : State :=
  let ev : Ev := .tableWalkDone (Fin.ofNat 4 die) m.id
  match walkLevels[m.lvl]? with
  | none => s.walkEnds die m.id (0x14, {})
  | some lv =>
    let c := s.tableCause m.part lv m.table
    let pa := m.table + 8 * bits (m.page * 65536) lv.hi lv.lo
    if c ≠ 0 then s.walkEnds die m.id (c, {})
    else if paD pa then s.sendAccess { part := m.part, walk := some (die, m.id) } 2 pa .read [] [] 8
    else if isHost pa || s.llcHas (ownerDie pa) m.part pa 8 then s.schedSome phMem ev
    else s.hbm (stackOf pa) 2 m.part (ownerKey die 0) 8 (some ev)

/-- A walker takes a miss: the walkers' own cache, or the tree from its root (R147, R148). -/
def State.walkBegin (s : State) (die : Nat) (m : Miss) : State :=
  let root := s.getF PRT_TT_ROOT.ROOT m.part * 2 ^ 16
  let s := s.modMiss die m.id fun m => { m with walking := true, lvl := 0, table := root }
  match findX (s.die die).walkTlb m.part (m.page * 65536) with
  | some x => s.walkEnds die m.id (0, x)
  | none => s.walkAsk die { m with lvl := 0, table := root }

/-- Free miss entries are given to queued misses, free walkers to held ones, in order (R149). -/
def State.walkStep (s : State) (die : Nat) : Nat → State
  | 0 => s
  | n + 1 =>
    let q := (s.die die).walkQ
    if (q.filter (·.held)).length < 4096 && q.any (!·.held) then
      match firstMiss q (!·.held) with
      | some m => (s.modMiss die m.id fun m => { m with held := true }).walkStep die n
      | none => s
    else if (q.filter (·.walking)).length < 32 then
      match firstMiss q (fun m => m.held && !m.walking) with
      | some m => (s.walkBegin die m).walkStep die n
      | none => s
    else s

/-- A miss is taken, merged with one of its partition and page. -/
def State.askWalk (s : State) (die part dord req : Nat) (who : Asker) : State :=
  let page := who.va / 65536
  match (s.die die).walkQ.find? fun m => m.part = part && m.page = page with
  | some m => s.modMiss die m.id fun m => { m with reqs := if m.reqs.contains who then m.reqs else m.reqs ++ [who] }
  | none =>
    let (id, s) := s.newId
    let m : Miss := { id := id, part := part, page := page, dord := dord, tick := s.tick, req := req, reqs := [who] }
    let s := s.modDie die fun d => { d with walkQ := d.walkQ ++ [m] }
    s.walkStep die (2 * (s.die die).walkQ.length)

/-- A translation enters a translator (R148). -/
def State.putTlb (s : State) (tr : Nat) (x : Xlate) : State :=
  let s := s.freed
  if tr < 1000 then s.modCore tr fun c => { c with tlb := putX 256 c.tlb x s.free }
  else if tr < 2000 then { s with ceTlb := s.ceTlb.put (tr - 1000) (putX 512 (s.ceTlb.look (tr - 1000)) x s.free) }
  else if tr < 3000 then { s with mslTlb := s.mslTlb.put (tr - 2000) (putX 1024 (s.mslTlb.look (tr - 2000)) x s.free) }
  else if tr < 4000 then s.modDie (tr - 3000) fun d => { d with epTlb := putX 4096 d.epTlb x s.free }
  else s

/-- What a walk that ended gives one requester: a cached translation, or the cause for its task or its agent. -/
def State.walkAnswer (s : State) (die part : Nat) (r : Nat × Xlate) (who : Asker) : State :=
  let c := if r.1 ≠ 0 then r.1 else s.leafCause r.2 who.va who.kind
  let s :=
    if c = 0 then
      let s := s.putTlb who.tr r.2
      s.modDie die fun d => { d with walkTlb := putX 32768 d.walkTlb r.2 s.free }
    else if who.tr < 1000 then s.modTask who.task fun t =>
      { t with walkRes := t.walkRes ++ [{ core := who.tr, page := who.va / 65536, kind := who.kind, cause := c }] }
    else s.modDie die fun d =>
      { d with badWalks := d.badWalks ++ [⟨who.tr, part, who.va / 65536, who.kind, c⟩] }
  match who.wake with
  | some e => s.sched s.now who.ph e
  | none => s

/-- A walk that is over answers its requesters, and its entry goes to the next queued miss. -/
def State.walkOver (s : State) (die : Nat) (m : Miss) (r : Nat × Xlate) : State :=
  let s := m.reqs.foldl (fun s w => s.walkAnswer die m.part r w) s
  let s := s.modDie die fun k => { k with walkQ := k.walkQ.filter (·.id ≠ m.id) }
  s.walkStep die (2 * (s.die die).walkQ.length)

/-- An entry has come: the walk goes down a level or is over (R147). -/
def State.walkEntry (s : State) (die : Nat) (m : Miss) (e : Nat) : State :=
  match walkLevels[m.lvl]? with
  | none => s.walkOver die m (0x14, {})
  | some lv =>
    match lv.entry (decide (m.lvl = 3)) m.part (m.page * 65536) e with
    | .fault c => s.walkOver die m (c, {})
    | .leaf x => s.walkOver die m (0, x)
    | .table t =>
      let s := s.modMiss die m.id fun m => { m with lvl := m.lvl + 1, table := t }
      s.walkAsk die { m with lvl := m.lvl + 1, table := t }

/-- The miss of a number. -/
def State.miss (s : State) (die id : Nat) : Option Miss := (s.die die).walkQ.find? (·.id = id)

/-- TABLE_WALK_DONE (R147, R148): a level's entry is read, or the walk is over. -/
def execTableWalkDone (d : Die) (walk : Nat) (s : State) : Host.Outcome State Fault Refusal :=
  match s.miss d.val walk with
  | none => .next s
  | some m =>
    match m.res, walkLevels[m.lvl]? with
    | some r, _ => .next (s.walkOver d.val m r)
    | none, some lv => .next (s.walkEntry d.val m (s.readEntry m.part (m.table + 8 * bits (m.page * 65536) lv.hi lv.lo)))
    | none, none => .next (s.walkOver d.val m (0x14, {}))

/-! Agents that are not cores -/

/-- What an agent's translator answers: a translation, a cause, or the walk that it now waits for. -/
inductive Found where
  | hit (x : Xlate)
  | fault (cause : Nat)
  | wait
  deriving DecidableEq, Repr

/-- An agent's translation (R148, R149): the lock array and its own cache, the cause that its last walk ended in, or a miss,
of whose end an event tells it. -/
def State.findXlate (s : State) (die part : Nat) (tlb : List Xlate) (dord : Nat) (who : Asker) : Found × State :=
  match s.translate die part who.va who.kind tlb with
  | .hit x => (if s.hostRefuses part (x.pa who.va) then .fault 0x25 else .hit x, s)
  | .fault c => (.fault c, s)
  | .miss =>
    let mine (b : BadWalk) : Bool := b.tr = who.tr && b.part = part && b.page = who.va / 65536 && b.kind = who.kind
    match (s.die die).badWalks.find? mine with
    | some b => (.fault b.cause, s.modDie die fun d => { d with badWalks := d.badWalks.filter fun x => !mine x })
    | none => (.wait, s.askWalk die part dord (4096 + (who.tr - 1000)) who)

end Sys2Proof.Machine
end

