-- ==== Sys2Proof/Machine/Lines.lean ====
section
/-! DEFINITION. The instruction caches of the cluster control cores (07 R166, R174, R182; 10 R246): lines with their bytes, the pinned code of fast and slow streams, fills through the LLC. -/

namespace Sys2Proof.Machine

/-- Line address of each end of a variant's code, in 128-byte lines. -/
def Variant.codeLines (v : Variant) : Nat × Nat :=
  let lo := v.kernel + natAt v.hdr 36 4
  (lo / 128, (lo + natAt v.hdr 40 4 + 127) / 128)

/-- Whether a line is pinned in a cluster: code of a fast or slow stream registered on a group of the cluster (R182). -/
def State.pinnedLine (s : State) (cl part line : Nat) : Bool :=
  s.streams.any fun e => e.2.valid && decide (e.2.cls < 2) && e.2.part = part && e.2.group / 8 = cl && e.1 / 1024 = cl / 12 &&
    e.2.kernels.any fun v => decide (v.codeLines.1 ≤ line ∧ line < v.codeLines.2)

/-- A line's bytes in a cluster's instruction cache. -/
def State.lineData (s : State) (cl part line : Nat) : Option (List Byte) :=
  ((s.cluster cl).icache.find? fun x => x.part = part && x.line = line).map (·.data)

/-- A line enters: of the 2,048 lines one that is not pinned makes room, which one is free (R166, R182). -/
def State.linePut (s : State) (cl part line : Nat) (data : List Byte) : State :=
  let l := (s.cluster cl).icache.filter fun x => !(x.part = part && x.line = line)
  let new : IcLine := ⟨part, line, data⟩
  let room := (List.range l.length).filter fun i => !s.pinnedLine cl (l.getD i new).part (l.getD i new).line
  if l.length < 2048 then s.modCluster cl fun c => { c with icache := new :: l }
  else match room with
    | [] => s
    | _ => s.freed.modCluster cl fun c => { c with icache := new :: l.eraseIdx (room.getD (Config.freeNat s.free % room.length) 0) }

/-- The pinned code of a cluster that is not held enters it: at an admission, and when the cluster has woken (R29, R182). -/
def State.fillPins (s : State) (cl : Nat) : State :=
  (s.streams.filter fun e => e.2.valid && decide (e.2.cls < 2) && e.2.group / 8 = cl && e.1 / 1024 = cl / 12).foldl (fun s e =>
    e.2.kernels.foldl (fun s v =>
      let r := v.codeLines
      (List.range (r.2 - r.1)).foldl (fun s i =>
        if (s.lineData cl e.2.part (r.1 + i)).isSome then s
        else match s.vread (cl / 12) e.2.part (128 * (r.1 + i)) 128 3 with
          | some b => s.linePut cl e.2.part (r.1 + i) b
          | none => s) s) s) s

/-- Lines of a partition in a range of pages are dropped as their translations are invalidated, and pinned ones read again
(R148; notes/assumptions/22.md). -/
def State.linesInvalidate (s : State) (p base n : Nat) : State :=
  (List.range 48).foldl (fun s cl =>
    let out (x : IcLine) : Bool := x.part = p && (n = 0 || decide (base ≤ x.line / 512 ∧ x.line / 512 < base + n))
    if (s.cluster cl).icache.any out then (s.modCluster cl fun c => { c with icache := c.icache.filter fun x => !out x }).fillPins cl
    else s) s

/-! Fills -/

/-- Tasks of a partition on a cluster whose next bundle may lie in a page. -/
def State.lineTasks (s : State) (cl part page : Nat) : List Nat :=
  (s.tasks.filter fun e => e.2.part = part && e.2.resident && decide (e.2.group / 8 = cl) &&
    (e.2.pc.toNat / 65536 = page || (e.2.pc.toNat + 36) / 65536 = page)).map (·.1)

/-- A fill that failed: its page's cause is kept for the tasks that need it (R210). -/
def State.lineLost (s : State) (cl part line cause : Nat) : State :=
  let page := line / 512
  (s.lineTasks cl part page).foldl (fun s id => s.modTask id fun t =>
    { t with walkRes := t.walkRes ++ [{ core := 400, page := page, kind := 3, cause := cause }] }) s

/-- The line's bytes have been read through the LLC. -/
def State.lineHave (s : State) (cl part line : Nat) (data : List Byte) : State :=
  (s.modCluster cl fun c => { c with icWait := c.icWait.filter (· ≠ (part, line)) }).linePut cl part line data

/-- A sector of a line that lies in another module has come (R42); with the second the line is whole. -/
def State.lineTake (s : State) (cl part line off : Nat) (b : List Byte) : State :=
  let l := (s.cluster cl).icPart
  match l.find? fun x => x.1 = part && x.2.1 = line && x.2.2.1 ≠ off with
  | some x =>
    let s := s.modCluster cl fun c => { c with icPart := c.icPart.filter (· ≠ x) }
    s.lineHave cl part line (if off = 0 then b ++ x.2.2.2 else x.2.2.2 ++ b)
  | none => s.modCluster cl fun c => { c with icPart := c.icPart ++ [(part, line, off, b)] }

/-- A line that has been translated is read: of the module through the LLC of the cluster's die, in slots of the task that
needs it where the LLC lacks it; of another module by two reads. -/
def State.lineRead (s : State) (cl part line : Nat) (x : Xlate) : State :=
  let die := cl / 12
  let pa := x.pa (128 * line)
  let task := (s.lineTasks cl part (line / 512)).headD 0
  if paD pa then
    [0, 64].foldl (fun s o => s.sendAccess { task := task, part := part, line := some (cl, part, line), at_ := o }
      (s.task task).cls (pa + o) .read [] [] 64) s
  else if isHost pa then s.lineHave cl part line (s.sideBytes part pa 128)
  else if s.llcHas die part pa 128 || (s.cluster cl).icWait.contains (part, line) then
    let s := if x.mt (128 * line) = 0 then s.llcFill die part pa 0 (whole true) (s.fillLine die part pa) else s
    s.lineHave cl part line (s.sideBytes part pa 128)
  else
    (s.modCluster cl fun c => { c with icWait := c.icWait ++ [(part, line)] }).hbmTask (stackOf pa) task 128
      (some (.icacheFill (Fin.ofNat 48 cl) (Fin.ofNat 16 part) line))

/-- Whether a line's walk or its reads of another module are under way. -/
def State.lineComing (s : State) (cl part line : Nat) : Bool :=
  s.fabric.any (fun e => e.2.line = some (cl, part, line)) ||
  (s.die (cl / 12)).walkQ.any fun m => m.reqs.any fun w =>
    w.wake = some (.icacheFill (Fin.ofNat 48 cl) (Fin.ofNat 16 part) line)

/-- The fill of a line is asked for, to begin as `plan` says, unless it is on its way already. -/
def State.askLine (s : State) (cl part line : Nat) (plan : State → Ev → State) : State :=
  let ev : Ev := .icacheFill (Fin.ofNat 48 cl) (Fin.ofNat 16 part) line
  if s.due ev || (s.cluster cl).icWait.contains (part, line) || s.lineComing cl part line then s else plan s ev

/-- Fills of lines are asked for, each counted as a miss of the team (R174, R188). -/
def State.askFills (s : State) (id : Nat) (lines : List Nat) : State :=
  let t := s.task id
  lines.foldl (fun s l => s.askLine (t.group / 8) t.part l fun s ev =>
    t.idxs.foldl (fun s i => s.count (t.coreAt i) t.ctx 0x11 1) (s.schedSome phMem ev)) s

/-- ICACHE_FILL (R149, R174, R210): the line's address is translated, its bytes are read, and it enters; or its page's cause is
kept for the tasks that need it. -/
def execIcacheFill (c : Cluster) (part : Part) (line : Nat) (s : State) : Host.Outcome State Fault Refusal :=
  let die := c.val / 12
  let tasks := s.lineTasks c.val part.val (line / 512)
  let dord := tasks.foldl (fun d id => min d (s.task id).dord) (2 ^ 64 - 1)
  match s.findXlate die part.val (s.die die).walkTlb dord
    { task := tasks.headD 0, tr := 4000, kind := 3, va := 128 * line, wake := some (.icacheFill c part line), ph := phMem } with
  | (.wait, s) => .next s
  | (.fault k, s) => .next (s.lineLost c.val part.val line k)
  | (.hit x, s) => .next (s.lineRead c.val part.val line x)

end Sys2Proof.Machine
end

