-- ==== Sys2Proof/Machine/LoadStore.lean ====
section
/-! DEFINITION. Slot 6: scratchpad, global memory and atomics (14 R338 to R348), with the point at which a global store performs (06 R137, R140, R142, R152) and at which a load's data arrives (R343). -/

namespace Sys2Proof.Machine

/-! The scratchpad port (R339) -/

/-- A write, or an access at its own cycle, due at a team cycle. -/
def State.atCyc (s : State) (due : Nat) (w : Write) : State :=
  s.modBank s.b fun b => { b with pend := b.pend ++ [⟨due, s.env.cyc * 8 + s.env.slot, w⟩] }

/-- The first team cycle from c at which no earlier access of the context has the port. -/
def portFrom (port : List (Nat × Nat)) (ctx c : Nat) : Nat :=
  (firstFrom (fun x => !port.contains (x, ctx)) (port.length + 1) c).getD c

/-- Port cycles for accesses listed at offsets, in order, and the state in which they are taken. -/
def State.takePort (s : State) : List Nat → List Nat × State
  | [] => ([], s)
  | o :: os =>
    let c := portFrom s.me.port s.env.ctx (s.env.cyc + o)
    let s := s.modCore s.env.core fun k =>
      { k with port := k.port.filter (fun p => p.2 ≠ s.env.ctx || s.env.cyc ≤ p.1) ++ [(c, s.env.ctx)] }
    let r := s.takePort os
    (c :: r.1, r.2)

/-- A scratchpad access of slot 6: class 10 and event 0x0A (R340), with its port cycles. -/
def State.padAccess (s : State) (i : Instr) (c : Check) (offs : List Nat) (f : State → List Nat → State) :
    Host.Outcome State Fault Refusal :=
  s.issue i c fun s =>
    let r := ((s.issued1 10).count s.env.core s.env.ctx 0x0A 1).takePort offs
    f r.2 r.1

/-- The n-th port cycle. -/
def cycAt (cs : List Nat) (n : Nat) : Nat := cs.getD n 0

/-- Scalar register of a destination field, none for s0 (R250). -/
def State.destS (s : State) (d : BitVec 6) : Option Dest :=
  if d = 0 then none else some (.s (physS s.mine.base d.toNat))

/-- LDS (R341). -/
def execLds (o : LS) (s : State) : Host.Outcome State Fault Refusal :=
  let n := tyBytes o.ty
  let off := alignedTo (s.sv o.a).toNat n
  s.padAccess (.lds o) (s.spadCheck off n) [1] fun s cs =>
    match s.destS o.d with
    | some d => s.atCyc (cycAt cs 0) (.loadS off n (tySigned o.ty) d (cycAt cs 0 + 2))
    | none => s

/-- STS (R341). -/
def execSts (o : LS) (s : State) : Host.Outcome State Fault Refusal :=
  let n := tyBytes o.ty
  let off := alignedTo (s.sv o.a).toNat n
  s.padAccess (.sts o) (s.spadCheck off n) [1] fun s cs =>
    s.atCyc (cycAt cs 0) (.spad off (natLe n (s.sv o.d).toNat))

/-- LDSV: the two halves in their port cycles (R339, R341). -/
def execLdsv (o : LV) (s : State) : Host.Outcome State Fault Refusal :=
  let off := alignedTo (s.sv o.a).toNat 128
  s.padAccess (.ldsv o) (s.spadCheck off 512) [1, 2] fun s cs =>
    (s.atCyc (cycAt cs 0) (.loadS off 256 false (.v o.d.toNat 0) (cycAt cs 1 + 2))).atCyc (cycAt cs 1)
      (.loadS (off + 256) 256 false (.v o.d.toNat 2048) (cycAt cs 1 + 2))

/-- STSV (R339, R341). -/
def execStsv (o : LV) (s : State) : Host.Outcome State Fault Refusal :=
  let off := alignedTo (s.sv o.a).toNat 128
  s.padAccess (.stsv o) (s.spadCheck off 512) [1, 2] fun s cs =>
    let b := vecBytes (s.vv o.d)
    (s.atCyc (cycAt cs 0) (.spad off (b.take 256))).atCyc (cycAt cs 1) (.spad (off + 256) (b.drop 256))

/-- LDP (R341). -/
def execLdp (o : LS) (s : State) : Host.Outcome State Fault Refusal :=
  let off := alignedTo (s.sv o.a).toNat 2
  s.padAccess (.ldp o) (s.spadCheck off 2) [1] fun s cs => s.atCyc (cycAt cs 0) (.loadP off (cycAt cs 0 + 2))

/-- STP: physical predicates, bit 0 set (R341). -/
def execStp (o : LS) (s : State) : Host.Outcome State Fault Refusal :=
  let off := alignedTo (s.sv o.a).toNat 2
  s.padAccess (.stp o) (s.spadCheck off 2) [1] fun s cs =>
    s.atCyc (cycAt cs 0) (.spad off (natLe 2 (s.mine.p ||| 1).toNat))

/-- LDK (R341). -/
def execLdk (o : LK) (s : State) : Host.Outcome State Fault Refusal :=
  let off := alignedTo (s.sv o.a).toNat 8
  s.padAccess (.ldk o) ((s.levelCheck o.k.toNat).and (s.spadCheck off 8)) [1] fun s cs =>
    s.atCyc (cycAt cs 0) (.loadS off 8 false (.k o.k.toNat) (cycAt cs 0 + 2))

/-- Offsets of the lanes of GATH and SCAT: bits 1:0 of the sum ignored (R341). -/
def laneOffsets (a : Vec) (b : Word) : List Nat :=
  (elems 32 a).map fun x => alignedTo (b.toNat + x) 4
/-- Every lane's offset is checked at issue (R341). -/
def State.laneCheck (s : State) (offs : List Nat) : Check :=
  match offs.find? (fun x => !s.mine.holds x 4) with
  | some x => .when true 0x16 x
  | none => .pass

/-- GATH: lane group g reads in its port cycle (R341). -/
def execGath (o : LG) (s : State) : Host.Outcome State Fault Refusal :=
  let offs := laneOffsets (s.vv o.a) (s.sv o.b)
  s.padAccess (.gath o) (s.laneCheck offs) [1, 2, 3, 4, 5, 6, 7, 8] fun s cs =>
    (List.range 8).foldl (fun s g =>
      s.atCyc (cycAt cs g) (.gather ((offs.drop (16 * g)).take 16) o.d.toNat (512 * g) (cycAt cs 7 + 2))) s

/-- SCAT: lane group g writes in its port cycle, the higher lane standing (R341). -/
def execScat (o : LG) (s : State) : Host.Outcome State Fault Refusal :=
  let offs := laneOffsets (s.vv o.a) (s.sv o.b)
  s.padAccess (.scat o) (s.laneCheck offs) [1, 2, 3, 4, 5, 6, 7, 8] fun s cs =>
    let vals := elems 32 (s.vv o.d)
    (List.range 8).foldl (fun s g =>
      (((offs.zip vals).drop (16 * g)).take 16).foldl (fun s e => s.atCyc (cycAt cs g) (.spad e.1 (natLe 4 e.2))) s) s

/-! Atomic operations (R346) -/

/-- apply(op, old, v) at a width of w bits. -/
def applyAtomic (op w old v : Nat) : Nat :=
  let old := old % 2 ^ w
  let v := v % 2 ^ w
  match op with
  | 0 => (old + v) % 2 ^ w
  | 1 => Nat.land old v
  | 2 => Nat.lor old v
  | 3 => Nat.xor old v
  | 4 => if sintN w old < sintN w v then old else v
  | 5 => if sintN w old < sintN w v then v else old
  | 6 => min old v
  | 7 => max old v
  | _ => v

/-- Bytes of an atomic's word. -/
def atomBytes (o : LA) : Nat := if o.w = 1 then 8 else 4

/-- RMWS: reads in its first port cycle, stores and lands in its second (R347). -/
def execRmws (o : LA) (s : State) : Host.Outcome State Fault Refusal :=
  let off := alignedTo (s.sv o.a).toNat (atomBytes o)
  s.padAccess (.rmws o) (s.spadCheck off (atomBytes o)) [1, 3] fun s cs =>
    s.atCyc (cycAt cs 0)
      (.rmw off (atomBytes o) o.op.toNat (s.sv o.d) (if o.d = 0 then 0 else physS s.mine.base o.d.toNat) (cycAt cs 1))

/-! Buffer rings (R348) -/

/-- Descriptor of entry n, at bytes 256 + 16n of the partition: BASE, SIZE, COUNT. -/
def State.bufRing (s : State) (core ctx n : Nat) : Nat × Nat × Nat :=
  let f (o k : Nat) : Nat := s.spadNat core ctx (256 + 16 * n + o) k
  (f 0 4, f 4 2, f 6 1)
/-- Whether a descriptor follows the table of R348. -/
def State.bufRingOk (s : State) (core ctx n : Nat) : Bool :=
  let (b, z, c) := s.bufRing core ctx n
  b % 128 = 0 && decide (1 ≤ z ∧ z ≤ 4096 ∧ 1 ≤ c ∧ c ≤ 64) &&
  decide (b + c * z * 128 ≤ (s.bank (ctxOf core ctx)).spadSize) &&
  s.spadNat core ctx (256 + 16 * n + 7) 8 = 0 && s.spadNat core ctx (256 + 16 * n + 15) 1 = 0

/-- The checks of ACQB: the declaration, then the descriptor (R348). -/
def State.acqbCheck (s : State) (n : Nat) : Check :=
  (Check.when (decide (s.cur.hdrNat 28 2 ≤ n)) 0x54).and
    ((s.spadCheck (256 + 16 * n) 16).and (.when (!s.bufRingOk s.env.core s.env.ctx n) 0x08))

/-- Raises of F that the control core has not seen yet (R176). -/
def State.freedSeen (s : State) (b : Bank) (n : Nat) : Nat :=
  b.brF.look n - (b.brRecent.filter fun e => e.1 = n && decide (s.now < e.2 + 2)).length
/-- Whether ACQB finds a free buffer (R348), with F in the role of a flag word. -/
def State.acqbFree (s : State) (core ctx n : Nat) : Bool :=
  let b := s.bank (ctxOf core ctx)
  decide (b.brA.look n - s.freedSeen b n < (s.bufRing core ctx n).2.2)
/-- F of an entry rises by 1 when it is below A (R348, R352). -/
def State.raiseF (s : State) (core ctx n : Nat) : State :=
  s.modBank (ctxOf core ctx) fun b =>
    if b.brF.look n < b.brA.look n then
      { b with brF := b.brF.upd n (· + 1)
               brRecent := b.brRecent.filter (fun e => decide (s.now < e.2 + 2)) ++ [(n, s.now)] }
    else b

/-- ACQB: the next buffer of the ring (R348). A bundle is not sent while none is free. -/
def execAcqb (o : LB) (s : State) : Host.Outcome State Fault Refusal :=
  let n := o.n.toNat
  s.padAccess (.acqb o) (s.acqbCheck n) [1] fun s cs =>
    let (b, z, c) := s.bufRing s.env.core s.env.ctx n
    let a := s.mine.brA.look n
    let s := s.modBank s.b fun k => { k with brA := k.brA.put n (a + 1) }
    match s.destS o.d with
    | some (.s d) => s.atCyc (cycAt cs 0 + 1) (.s d (BitVec.ofNat 64 (b + a % max 1 c * z * 128)))
    | _ => s

/-- RELB (R340, R348): no scratchpad access, F rises at offset 1. -/
def execRelb (o : LB) (s : State) : Host.Outcome State Fault Refusal :=
  s.issue (.relb o) (.when (decide (s.cur.hdrNat 28 2 ≤ o.n.toNat)) 0x54) fun s =>
    (s.issued1 10).after 1 (.relb o.n.toNat)

/-! Where a global access goes -/

/-- The pieces of a virtual range by page, as the operation's core translates them: address, length, memory type. -/
def State.pieces (s : State) (core part va n kind : Nat) : List (Nat × Nat × Nat) :=
  (pagesOf va n).map fun p =>
    let x := (s.coreXlate core part p.1 kind).2
    (x.pa p.1, p.2, x.mt p.1)
/-- Pages of an access, for its check (R195). -/
def pageChecks (va n kind : Nat) : Check := { accesses := (pagesOf va n).map fun p => (p.1, kind) }
/-- An access that leaves the module, or loops back, takes a fabric-buffer entry of the declaration (R38, R183). -/
def State.fabricCheck (s : State) (ps : List (Nat × Nat × Nat)) : Check :=
  .when (ps.any (fun p => paD p.1) && decide (s.cur.hdrNat 34 2 ≤ s.fabHeld s.env.task)) 0x53
/-- Checks of a global access: its pages, then its fabric-buffer entry. -/
def State.globalCheck (s : State) (va n kind : Nat) : Check :=
  let c := pageChecks va n kind
  if (s.finding c).1 ≠ 0 then c else c.and (s.fabricCheck (s.pieces s.env.core s.cur.part va n kind))
/-- A global access of slot 6 charges class 11 (R340). -/
def State.globalOp (s : State) (i : Instr) (c : Check) (f : State → State) : Host.Outcome State Fault Refusal :=
  s.issue i c fun s => f (s.issued1 11)

/-! Stores -/

/-- A buffer for a line: its own, a free one, or the oldest after it has drained (R344). A buffer of the line that is
draining drains first. -/
def State.wcbTake (s : State) (core part la : Nat) : Nat × State :=
  let at_ (s : State) (b : Nat) : Wcb := (s.core core).wcb.look b
  let own := (List.range 16).find? fun b => (at_ s b).line = some la
  match own with
  | some b => if (at_ s b).draining then (b, s.wcbFlush core b part) else (b, s)
  | none =>
    match (List.range 16).find? (fun b => (at_ s b).line.isNone) with
    | some b => (b, s)
    | none =>
      let b := (leastBy (fun a b => decide ((at_ s a).age < (at_ s b).age)) (List.range 16)).getD 0
      (b, s.wcbFlush core b part)

/-- Bytes of a line merge into a write-combining buffer; a full buffer drains in the slots of the task's stream
(R143, R344). -/
def State.wcbMerge (s : State) (core ctx task part la : Nat) (data : List Byte) (mask : List Bool) : State :=
  let (b, s) := s.wcbTake core part la
  let old := (s.core core).wcb.look b
  let fresh := old.line.isNone
  let w : Wcb :=
    { line := some la, ctx := ctx, task := task
      data := mergeBytes (if fresh then whole 0 else old.data) data mask
      mask := orMask (if fresh then whole false else old.mask) mask
      age := if fresh then s.seq else old.age, draining := old.draining }
  let s := { s with seq := s.seq + 1 }
  let full := w.mask.all id
  let s := s.modCore core fun c => { c with wcb := c.wcb.put b { w with draining := full } }
  let ev : Ev := .wcbDrain (Fin.ofNat 384 core) (Fin.ofNat 16 b)
  if !full then s
  else if paD la || isHost la || !s.joined (dieOf core) (ownerDie la) then s.schedSome phMem ev
  else s.hbmTask (stackOf la) task 128 (some ev)

/-- Whether a line finds a buffer without waiting: R344 holds the team while all 16 drain. -/
def State.wcbReady (s : State) (core la : Nat) : Bool :=
  (List.range 16).any fun b => let w := (s.core core).wcb.look b; w.line = some la || w.line.isNone || !w.draining

/-- A buffer that holds bytes which a store writes drains before it (R45, R159). -/
def State.wcbBefore (s : State) (core part la : Nat) (m : List Bool) : State :=
  (List.range 16).foldl (fun s b =>
    let w := (s.core core).wcb.look b
    if w.line = some la && (paD la || (andNot m (andNot m w.mask)).any id) then s.wcbFlush core b part else s) s

/-- A store of a context performs (R343): into a write-combining buffer, the L1, the memory side, another die (R142) or
another module (R46). -/
def State.performStore (s : State) (core ctx task pa mt : Nat) (b : List Byte) (stream : Bool) : State :=
  let part := (s.task task).part
  let die := dieOf core
  let s := s.captureMem task core pa b.length
  if stream || mt = 2 then
    s.byLines pa b fun s la d m =>
      let s := if stream then s.l1Drop core la m else s
      s.wcbMerge core ctx task part la d m
  else
  let s := s.byLines pa b fun s la _ m => s.wcbBefore core part la m
  if paD pa then
    let s := s.byLines pa b fun s la d m => (s.l1Through core la d m).mergeRemote die part la d m
    s.sendStore core ctx task part ((sectorsOf pa b).map fun e => (e.1, e.2, List.replicate e.2.length true))
  else if isHost pa then s.byLines pa b fun s la d m => s.stackAndCopy part la d m
  else if !s.joined die (ownerDie pa) then s.strandStore core ctx task part
  else if mt = 1 then
    let s := (s.byLines pa b fun s la d m => s.stackAndCopy part la d m).hbmTask (stackOf pa) task b.length none
    if ownerDie pa = die then s
    else
      let (id, s) := s.pendStore core ctx task 1
      s.schedSome phMem (.storeAcknowledged id)
  else if ownerDie pa = die then s.asTask task fun s => s.byLines pa b fun s la d m => s.l1Store core ctx part la d m
  else
    let s := s.asTask task fun s =>
      s.byLines pa b fun s la d m =>
        ((s.countLack part la (ctxOf core ctx)).sideStore die part la d m 2).l1Through core la d m
    let (id, s) := s.pendStore core ctx task 1
    s.schedSome phMem (.storeAcknowledged id)

/-- Whether an access of the fabric was issued by a context (R46). -/
def State.fabricOf (s : State) (core ctx : Nat) (f : Fabric) : Bool := s.fabWho f = ctxOf core ctx + 1

/-- Whether a release of a scope must still wait (R46, R145, R158, R160, R163): at any scope for maintenance of the context;
beyond the context for its atomics and for loads that have not read; from die scope up for bytes of the core's
write-combining buffers on their way to another module; from module scope up for its unacknowledged stores and every access
that it has on the fabric. -/
def State.releaseWaits (s : State) (core ctx scope : Nat) : Bool :=
  decide (0 < (s.bank (ctxOf core ctx)).maint) ||
  (1 ≤ scope && (s.atoms.any (fun a => a.core = core && a.ctx = ctx && a.arrived.isNone) ||
    s.loads.any fun e => e.2.core = core && e.2.ctx = ctx && e.2.width ≠ 0 && (e.2.late || e.2.atomic || e.2.pieces.any fun p => paD p.1))) ||
  (3 ≤ scope && s.stores.any fun e => e.2.core = core && e.2.wcb) ||
  (4 ≤ scope && (s.stores.any (fun e => e.2.core = core && e.2.ctx = ctx) ||
    s.fabric.any (fun e => s.fabricOf core ctx e.2) ||
    s.cmds.any fun e => e.2.core = core && e.2.ctx = ctx && e.2.holds && (e.2.kind = .put || e.2.kind = .get)))

/-- The buffers of a context's core drain before a release of die scope or wider asks what it must wait for (R163). -/
def State.releaseDrain (s : State) (core task scope : Nat) : State :=
  if 3 ≤ scope then s.wcbFlushAll core (s.task task).part else s

/-- A release's own write, after its scope's actions, at the scope's point of coherence (R158). -/
def State.performRelease (s : State) (core ctx task pa mt : Nat) (b : List Byte) (scope : Nat) : State :=
  let part := (s.task task).part
  s.asTask task fun s =>
    let s := s.releaseActs core ctx part scope
    let s := s.performStore core ctx task pa mt b false
    if mt = 0 && !paD pa then s.releaseActs core ctx part scope else s

/-- A store or release goes behind those of its context that wait. -/
def State.holdStore (s : State) (core ctx : Nat) (h : HeldStore) : State :=
  s.modBank (ctxOf core ctx) fun k => { k with heldStores := k.heldStores ++ [h] }

/-- A store, release or atomic that waited performs. -/
def State.performHeld (s : State) (core ctx task : Nat) (h : HeldStore) : State :=
  match h.atom with
  | some a =>
    let (sid, s) := match h.load with
      | some _ => (none, s)
      | none => (some s.nextId, (s.pendStore core ctx task 1).2)
    (s.captureMem task core h.pa a.len).sendAccess { task := task, part := (s.task task).part, load := h.load, store := sid } a.cls h.pa a.kind [] [] a.len a.key
  | none =>
    if h.scope = 0 then s.performStore core ctx task h.pa h.mt h.bytes h.stream
    else s.performRelease core ctx task h.pa h.mt h.bytes (h.scope - 1)

/-- Stores that waited perform in order as far as they may: each behind the release that it is, and behind a fence of the
context (R160, R284). -/
def State.freeStores (s : State) (core ctx task : Nat) : Nat → State
  | 0 => s
  | n + 1 =>
    let k := s.bank (ctxOf core ctx)
    match k.heldStores with
    | [] =>
      if k.fence ≠ 0 && !s.releaseWaits core ctx (k.fence - 1) then
        s.modBank (ctxOf core ctx) fun k => { k with fence := 0 }
      else s
    | h :: rest =>
      let s := if 0 < h.scope then s.releaseDrain core task (h.scope - 1) else s
      if (0 < h.scope && s.releaseWaits core ctx (h.scope - 1)) || (0 < k.fence && s.releaseWaits core ctx (k.fence - 1)) then s
      else
        let s := s.modBank (ctxOf core ctx) fun k => { k with heldStores := rest, fence := 0 }
        (s.performHeld core ctx task h).freeStores core ctx task n

/-- A store or release reaches the point where it performs, unless it has to wait (R160, R284). -/
def State.storeNow (s : State) (core ctx task pa mt : Nat) (b : List Byte) (stream : Bool) (scope : Nat) : State :=
  let h : HeldStore := { pa := pa, mt := mt, bytes := b, stream := stream, scope := scope }
  if (s.bank (ctxOf core ctx)).heldStores.isEmpty then (s.holdStore core ctx h).freeStores core ctx task 1
  else s.holdStore core ctx h
/-- Every held store of a context that may perform does. -/
def State.tryStores (s : State) (core ctx task : Nat) : State :=
  s.freeStores core ctx task ((s.bank (ctxOf core ctx)).heldStores.length + 1)

/-- The store of an operation: each page's piece performs at offset 1. -/
def State.storeOp (s : State) (va : Nat) (b : List Byte) (stream : Bool) (scope : Nat) : State :=
  (s.pieces s.env.core s.cur.part va b.length 1).foldl (fun st p =>
    let x := (st.2.drop 0).take p.2.1
    (st.1.after 1 (.store p.1 p.2.2 x stream scope), st.2.drop p.2.1)) (s.notePages s.env.task va b.length, b) |>.1

/-- A scalar store form. -/
def State.storeS (s : State) (i : Instr) (o : LS) (stream : Bool) : Host.Outcome State Fault Refusal :=
  let n := tyBytes o.ty
  let va := alignedTo (s.sv o.a).toNat n
  s.globalOp i (s.globalCheck va n 1) fun s => s.storeOp va (natLe n (s.sv o.d).toNat) stream 0
/-- A vector store form. -/
def State.storeV (s : State) (i : Instr) (o : LV) (stream : Bool) : Host.Outcome State Fault Refusal :=
  let va := alignedTo (s.sv o.a).toNat 128
  s.globalOp i (s.globalCheck va 512 1) fun s => s.storeOp va (vecBytes (s.vv o.d)) stream 0

/-- STG (R342, R343). -/
def execStg (o : LS) (s : State) : Host.Outcome State Fault Refusal := s.storeS (.stg o) o false

/-- STGV (R342, R343). -/
def execStgv (o : LV) (s : State) : Host.Outcome State Fault Refusal := s.storeV (.stgv o) o false

/-- STNT: streaming (R344). -/
def execStnt (o : LS) (s : State) : Host.Outcome State Fault Refusal := s.storeS (.stnt o) o true

/-- STNTV: streaming (R344). -/
def execStntv (o : LV) (s : State) : Host.Outcome State Fault Refusal := s.storeV (.stntv o) o true

/-- STL: a store with release at a scope; at context scope a plain store (R343). -/
def execStl (o : LR) (s : State) : Host.Outcome State Fault Refusal :=
  let n := tyBytes o.ty
  let va := alignedTo (s.sv o.a).toNat n
  s.globalOp (.stl o) (s.globalCheck va n 1) fun s => s.storeOp va (natLe n (s.sv o.d).toNat) false (if o.scope = 0 then 0 else o.scope.toNat + 1)

/-! Loads -/

/-- Bytes with those of waiting stores of the context over them (R159). -/
def overlayHeld (hs : List HeldStore) (pa : Nat) (b : List Byte) : List Byte :=
  hs.foldl (fun b h => (List.range b.length).map fun i =>
    if h.pa ≤ pa + i && pa + i < h.pa + h.bytes.length then h.bytes.getD (pa + i - h.pa) 0 else b.getD i 0) b

/-- Bytes with those over them that the context itself wrote and that lie dirty in the L1 its core uses (R159). -/
def State.overlayDirty (s : State) (core ctx pa : Nat) (b : List Byte) : List Byte :=
  (List.range b.length).map fun i =>
    let l := s.l1Line core (lineOf (pa + i))
    if l.dirty.getD ((pa + i) % 128) false && (l.writtenBy (ctxOf core ctx)).getD ((pa + i) % 128) false then l.data.getD ((pa + i) % 128) 0 else b.getD i 0

/-- The bytes of a piece inside the module as a load reads them: at the point of coherence of an acquire, in the caches,
or at the memory side for a page that is not cached. -/
def State.pieceBytes (s : State) (core ctx part scope : Nat) (p : Nat × Nat × Nat) : List Byte :=
  let hs := (s.bank (ctxOf core ctx)).heldStores
  let b :=
    if isHost p.1 then s.memBytes (paOff p.1) p.2.1
    else if p.2.2 ≠ 0 then s.sideBytes part p.1 p.2.1
    else if scope = 0 then s.coreBytes core part p.1 p.2.1
    else s.overlayDirty core ctx p.1 (s.scopeBytes core part scope p.1 p.2.1)
  overlayHeld hs p.1 b

/-- Bytes put into a load's data from an offset. -/
def Load.fill (l : Load) (off : Nat) (b : List Byte) : Load := { l with data := putBytes l.data off b }

/-- Offset of each piece in its access. -/
def pieceOffsets : Nat → List (Nat × Nat × Nat) → List (Nat × (Nat × Nat × Nat))
  | _, [] => []
  | o, p :: ps => (o, p) :: pieceOffsets (o + p.2.1) ps

/-- The buffers of a core that hold bytes of an access drain (R344); whether there were any. -/
def State.drainHits (s : State) (core part : Nat) (ps : List (Nat × Nat × Nat)) : Bool × State :=
  let hit (w : Wcb) : Bool := ps.any fun p =>
    (linesOf p.1 (List.replicate p.2.1 0)).any fun l => w.line = some l.1 && (List.range 128).any fun i => w.mask.getD i false && l.2.2.getD i false
  (List.range 16).foldl (fun r b =>
    if hit ((r.2.core core).wcb.look b) then (true, r.2.wcbFlush core b part) else r) (false, s)

/-- Sectors that a miss asks another module for: whole ones of a cacheable page, the bytes wanted of another (R137, R140). -/
def missSectors (p : Nat × Nat × Nat) : List (Nat × Nat) :=
  (sectorsOf p.1 (List.replicate p.2.1 0)).map fun e => if p.2.2 = 0 then (e.1 - e.1 % 64, 64) else (e.1, e.2.length)

/-- A miss of a piece goes out; the load is told when it is back (R38, R142, R143). -/
def State.missOut (s : State) (id core part scope off : Nat) (p : Nat × Nat × Nat) : State :=
  let l := s.loads.look id
  let t := s.task l.task
  let more (s : State) (n : Nat) : State := { s with loads := s.loads.upd id fun l => { l with need := l.need + n } }
  let ev : Ev := .loadDataLand id
  let cached := p.2.2 = 0 && s.llcHas (dieOf core) part p.1 p.2.1
  if paD p.1 && !(cached && scope ≤ 3) then
    let s := if p.2.2 = 0 then s.count core l.ctx 0x0D 1 else s
    (missSectors p).foldl (fun s e =>
      (more s 1).sendAccess { task := l.task, part := part, load := some id } t.cls e.1 .read [] [] e.2) s
  else if !paD p.1 && !isHost p.1 && !s.joined (dieOf core) (ownerDie p.1) then
    (more s 1).strand { task := l.task, part := part, load := some id }
  else
    let s := { s with loads := s.loads.upd id fun l => l.fill off (s.pieceBytes core l.ctx part scope p) }
    let s := more (if p.2.2 = 0 then s else s.sideTouch part p.1 p.2.1) 1
    if isHost p.1 || cached then s.schedSome phMem ev
    else
      let s := if p.2.2 = 0 then s.count core l.ctx 0x0D 1 else s
      s.hbmTask (stackOf p.1) l.task p.2.1 (some ev)

/-- A load that waited reads now (R159, R160): its parts go out. -/
def State.loadGo (s : State) (id : Nat) : State :=
  let l := s.loads.look id
  let s := { s with loads := s.loads.upd id fun l => { l with late := false, behind := none, need := 0 } }
  (pieceOffsets 0 l.pieces).foldl (fun s p => s.missOut id l.core (s.task l.task).part 0 p.1 p.2) s

/-- Whether an atomic of the context on a byte of an access waits for its group. -/
def State.atomPending (s : State) (core ctx : Nat) (ps : List (Nat × Nat × Nat)) : Option Nat :=
  (s.atoms.find? fun a => a.core = core && a.ctx = ctx &&
    ps.any fun p => decide (p.1 < a.pa + (if a.w then 8 else 4) ∧ a.pa < p.1 + p.2.1)).map (·.interval)

/-- The tick of R164 at which a group of an interval performs, as cycles since power-on. -/
def State.groupTime (s : State) (interval : Nat) : Nat := s.now - s.tick + 256 * (interval + 1)

/-- A load of the operation: a hit lands at offset 12 or 18, a miss when its data has come (R141, R343). An acquire acts when
it has read: at issue, or when the data of another module is there; later loads of the context wait for it (R160). -/
def State.loadOp (s : State) (va n : Nat) (sx : Bool) (dst : Option Dest) (rd scope : Nat) : State :=
  let core := s.env.core
  let ctx := s.env.ctx
  let part := s.cur.part
  let ps := s.pieces core part va n 0
  let land := s.env.cyc + (if s.fused core then 18 else 12)
  let ord := s.env.cyc * 8 + s.env.slot
  let (drained, s) := s.drainHits core part ps
  let pending := s.atomPending core ctx ps
  let plain := scope = 0 || (scope ≤ 2 && s.fused core)
  let behind := (s.loads.find? fun e => e.2.core = core && e.2.ctx = ctx && e.2.acq ≠ 0).map (·.1)
  let waits := pending.isSome || behind.isSome
  let hit := plain && !drained && !waits && ps.all fun p => p.2.2 = 0 && s.l1Hits core p.1 p.2.1
  let abroad := ps.any fun p => paD p.1
  let s := s.count core ctx (if hit then 0x0B else 0x0C) 1
  let (id, s) := s.newId
  let l : Load :=
    { id := id, task := s.env.task, idx := s.env.idx, core := core, ctx := ctx, pc := s.env.pc, land := land, ord := ord
      va := va, pieces := ps, width := n, sx := sx, dst := dst.getD (.s 0), rd := rd, late := waits
      older := (s.bank s.b).heldStores, behind := if pending.isSome then none else behind
      acq := if 0 < scope && (abroad || waits) then scope + 1 else 0 }
  if hit then
    let s := ps.foldl (fun s p => s.l1Touch core p.1 p.2.1 rd) s
    let bytes := (ps.map (s.pieceBytes core ctx part 0)).flatten
    match dst with
    | none => s
    | some (.s d) => s.atCyc land (.s d (extend (8 * n) sx (leNat bytes)))
    | some (.k d) => s.atCyc land (.k d (BitVec.ofNat 64 (leNat bytes)))
    | some (.v d lo) => s.atCyc land (.vpart d lo (8 * n) (leNat bytes))
  else
    let s := { s with loads := s.loads.put id l }
    let s := match pending with
      | some iv => { s with loads := s.loads.upd id fun l => { l with need := 1 } }.sched (s.groupTime iv) (phMem + 1) (.loadDataLand id)
      | none =>
        if behind.isSome then { s with loads := s.loads.upd id fun l => { l with need := 1 } }
        else (pieceOffsets 0 ps).foldl (fun s p => s.missOut id core part (if plain then 0 else scope) p.1 p.2) s
    if scope = 0 || abroad || waits then s else s.acquireActs core part scope

/-- LDG (R342, R343). -/
def execLdg (o : LS) (s : State) : Host.Outcome State Fault Refusal :=
  let n := tyBytes o.ty
  let va := alignedTo (s.sv o.a).toNat n
  s.globalOp (.ldg o) (s.globalCheck va n 0) fun s => s.loadOp va n (tySigned o.ty) (s.destS o.d) o.rd.toNat 0

/-- LDGV (R342, R343). -/
def execLdgv (o : LV) (s : State) : Host.Outcome State Fault Refusal :=
  let va := alignedTo (s.sv o.a).toNat 128
  s.globalOp (.ldgv o) (s.globalCheck va 512 0) fun s => s.loadOp va 512 false (some (.v o.d.toNat 0)) o.rd.toNat 0

/-- LDA: a load with acquire at a scope (R343). -/
def execLda (o : LR) (s : State) : Host.Outcome State Fault Refusal :=
  let n := tyBytes o.ty
  let va := alignedTo (s.sv o.a).toNat n
  s.globalOp (.lda o) (s.globalCheck va n 0) fun s =>
    s.loadOp va n (tySigned o.ty) (s.destS o.d) 0 o.scope.toNat

/-- PREF: the line is filled, unless the page is not cached, lies in another module or does not translate, or RD is 7
(R345). -/
def execPref (o : LS) (s : State) : Host.Outcome State Fault Refusal :=
  s.globalOp (.pref o) .pass fun s =>
    let va := alignedTo (s.sv o.a).toNat 128
    let r := s.coreXlate s.env.core s.cur.part va 0
    let p := (r.2.pa va, 128, r.2.mt va)
    if r.1 ≠ 0 || o.rd = 7 || p.2.2 ≠ 0 || paD p.1 || isHost p.1 then s
    else
      let (id, s) := s.newId
      let l : Load := { id := id, task := s.env.task, idx := s.env.idx, core := s.env.core, ctx := s.env.ctx,
                        va := va, pieces := [p], rd := o.rd.toNat }
      { s with loads := s.loads.put id l }.missOut id s.env.core s.cur.part 0 0 p

/-! Atomics on global memory (R347) -/

/-- What the L1 that a core uses holds of a line is written back and dropped. -/
def State.l1Flush (s : State) (core pa n : Nat) : State :=
  (linesOf pa (List.replicate n 0)).foldl (fun s l =>
    (s.l1WriteBack core (s.l1Line core l.1) (sectorMask l.2.2)).l1Drop core l.1 l.2.2) s

/-- The logical key of an atomic (R164). -/
def State.atomKey (s : State) : List Nat :=
  let t := s.cur
  [t.session, t.cls, t.stream, t.period, t.srk, s.env.idx, s.tick, 0]

/-- An atomic joins the group of its interval, or goes to the module that holds the word. `ret` asks for the old
value. -/
def State.atomicOp (s : State) (o : LA) (ret : Bool) : State :=
  let core := s.env.core
  let ctx := s.env.ctx
  let part := s.cur.part
  let n := (atomBytes o)
  let va := alignedTo (s.sv o.a).toNat n
  let x := (s.coreXlate core part va 2).2
  let pa := x.pa va
  let (_, s) := s.drainHits core part [(pa, n, x.mt va)]
  let s := (s.notePages s.env.task va n).l1Flush core pa n
  let (id, s) := s.newId
  let l : Load :=
    { id := id, task := s.env.task, idx := s.env.idx, core := core, ctx := ctx, pc := s.env.pc, land := s.env.cyc + 1
      ord := s.env.cyc * 8 + s.env.slot, va := va, width := n, dst := (s.destS o.d).getD (.s 0), atomic := true
      notBefore := s.now + 12, need := 1 }
  let s := if ret then { s with loads := s.loads.put id l } else s
  let link := if ret then some id else none
  if paD pa then
    let a : RemoteAccess := { id := 0, module := 0, tag := 0, cls := s.cur.cls, kind := .atomic o.op (o.w = 1) (s.sv o.d),
                              offset := paOff pa, bytes := [], mask := [], len := n, key := s.atomKey }
    let h : HeldStore := { pa := pa, mt := x.mt va, bytes := [], stream := false, scope := 0, atom := some a, load := link }
    if (s.bank s.b).heldStores.isEmpty then s.performHeld core ctx s.env.task h else s.holdStore core ctx h
  else if !isHost pa && !s.joined (dieOf core) (ownerDie pa) then
    let (sid, s) := if ret then (none, s) else (some s.nextId, (s.pendStore core ctx s.env.task 1).2)
    s.strand { task := s.env.task, part := part, load := link, store := sid }
  else
    let iv := s.tick / 256
    let a : Atom := { key := s.atomKey, task := s.env.task, core := core, ctx := ctx, pa := pa, interval := iv,
                      w := o.w = 1, op := o.op.toNat, operand := s.sv o.d, load := link, mt := x.mt va, part := part }
    let ev : Ev := .atomicGroup pa iv
    let s := { s with atoms := s.atoms ++ [a] }
    if s.due ev then s else s.sched (s.groupTime iv) phMem ev

/-- The checks of a global atomic. -/
def State.atomicCheck (s : State) (o : LA) : Check := s.globalCheck (alignedTo (s.sv o.a).toNat (atomBytes o)) (atomBytes o) 2

/-- ATOMG: the old value, for which the team holds (R347). -/
def execAtomg (o : LA) (s : State) : Host.Outcome State Fault Refusal :=
  s.globalOp (.atomg o) (s.atomicCheck o) fun s => s.atomicOp o true

/-- ATOMN: no register, no hold (R347). -/
def execAtomn (o : LA) (s : State) : Host.Outcome State Fault Refusal :=
  s.globalOp (.atomn o) (s.atomicCheck o) fun s => s.atomicOp o false

end Sys2Proof.Machine
end

