-- ==== Sys2Proof/Machine/Control.lean ====
section
/-! DEFINITION. The control slot C and the no-operation of every slot (10 R249; 11 R270 to R288). Every core of the team executes the operation on its own registers; the transfer itself, and what the control core keeps, follow core index 0 (DEDUCED, notes/assumptions/10.md). -/

namespace Sys2Proof.Machine

/-- A control form: class 0 is charged (R191). -/
def State.control (s : State) (i : Instr) (c : Check) (f : State → State) : Host.Outcome State Fault Refusal :=
  s.issue i c fun s => f (s.issued1 0)

/-- A change of what the control core keeps of the task, made from core index 0. -/
def State.ccc (s : State) (f : Task → Task) : State :=
  if s.env.idx = 0 then s.modTask s.env.task f else s

/-- The next bundle of the team is the one at an address (R270). -/
def State.transfer (s : State) (pc : Word) : State := s.ccc fun t => { t with pc := pc }

/-- NOP: no effect (R249). -/
def execNop (slot : Fin 8) (s : State) : Host.Outcome State Fault Refusal :=
  .next { s with env := { s.env with slot := slot.val } }

/-- BR (R271). -/
def execBr (o : CJ) (s : State) : Host.Outcome State Fault Refusal :=
  s.control (.br o) .pass fun s => s.transfer (target s.env.pc o.ofs)

/-- BRR (R271). -/
def execBrr (o : CR) (s : State) : Host.Outcome State Fault Refusal :=
  s.control (.brr o) .pass fun s => s.transfer (regTarget (s.sv o.a))

/-- CALL (R271). -/
def execCall (o : CJ) (s : State) : Host.Outcome State Fault Refusal :=
  s.control (.call o) .pass fun s => (s.writeS 1 47 s.env.next).transfer (target s.env.pc o.ofs)

/-- CALLR reads its register before s47 is written (R271). -/
def execCallr (o : CR) (s : State) : Host.Outcome State Fault Refusal :=
  s.control (.callr o) .pass fun s => (s.writeS 1 47 s.env.next).transfer (regTarget (s.sv o.a))

/-- RET (R271). -/
def execRet (s : State) : Host.Outcome State Fault Refusal :=
  s.control .ret .pass fun s => s.transfer (regTarget (s.sv 47))

/-! The branch tree -/

/-- Entry n of a branch-tree table (R274). -/
def treeEntry (b : List Byte) (n : Nat) : List Byte := (b.drop (32 * n)).take 32

/-- The path of an entry (R275): the first valid test that holds, otherwise the number of valid tests. -/
def treePath (e : List Byte) (p : Nat → Bool) : Nat :=
  let t (i : Nat) : Byte := e.getD i 0
  let m := (List.range 4).takeWhile fun i => (t i).getLsbD 7
  (m.find? fun i => p ((t i).toNat % 16) != (t i).getLsbD 4).getD m.length

/-- Address of a path's target; 0xFFFF_FFFF is the next bundle (R274). -/
def treeTarget (e : List Byte) (path : Nat) (codeBase : Nat) (next : Word) : Word :=
  let v := leNat ((e.drop (8 + 4 * path)).take 4)
  if v = 0xFFFFFFFF then next else BitVec.ofNat 64 (codeBase + v)

/-- The path holds for the rest of the bundle, on this core and on those that issue it later (R248, R275). -/
def State.setPath (s : State) (path : Nat) : State :=
  { s with
    env := { s.env with path := some path }
    agenda := s.agenda.map fun d =>
      if d.env.task = s.env.task ∧ d.env.cyc = s.env.cyc ∧ d.env.landOnly = false then { d with env := { d.env with path := some path } } else d }

/-- The task whose passes a measurement signs (R190). -/
def State.measured (s : State) (t : Nat) : Bool := (s.cluster (clusterOf (s.task t).group)).rpl.task = some t

/-- Bytes added to the path signature of a measured task (R190). -/
def State.sign (s : State) (b : List Byte) : State :=
  if s.measured s.env.task then s.ccc fun t => { t with sig := crc32cStep b t.sig } else s

/-- BTREE (R274, R275). -/
def execBtree (o : CT) (s : State) : Host.Outcome State Fault Refusal :=
  s.control (.btree o) (.when (decide (s.cur.hdrNat 48 2 ≤ o.n.toNat)) 0x04) fun s =>
    if s.env.idx = 0 then
      let e := treeEntry s.cur.btt o.n.toNat
      let path := treePath e s.mine.pNamed
      ((s.setPath path).transfer (treeTarget e path s.cur.codeBase s.env.next)).sign [BitVec.ofNat 8 path]
    else s

/-! Hardware loops -/

/-- What LEND does on a core: its register writes, all landing at offset 1, and whether the loop is taken (R278). -/
def State.lend (s : State) (l : Nat) : State × Bool :=
  if s.cur.loopKind l = 1 || s.cur.loopKind l = 2 then (s, false)
  else
    let b := s.mine
    let staged := b.stg && b.slv = l
    let n := (b.k.look l).toNat
    let newBase := (b.base + 15) % 16
    let rotate (s : State) (stage : Bool) : State :=
      (s.after 1 (.rrb (mask64 3 0) (BitVec.ofNat 64 newBase))).after 1 (.p (physP newBase 8) stage)
    if 1 < n then
      let s := s.after 1 (.k l (BitVec.ofNat 64 (n - 1)))
      (if staged then rotate s true else s, true)
    else if staged && 0 < b.ec then
      let s := (s.after 1 (.k l 0)).after 1 (.rrb (mask64 9 4) (BitVec.ofNat 64 ((b.ec - 1) * 16)))
      (rotate s false, true)
    else
      let s := s.after 1 (.k l 0)
      (if staged then s.after 1 (.rrb (mask64 12 12) 0) else s, false)

/-- LEND (R278). -/
def execLend (o : CL) (s : State) : Host.Outcome State Fault Refusal :=
  s.control (.lend o) .pass fun s =>
    let r := s.lend o.lvl.toNat
    if r.2 then r.1.transfer (target s.env.pc o.ofs) else r.1

/-! Replay mode -/

/-- LREP (R281): the block that follows, its length and its levels; all pass counters are 0. -/
def execLrep (o : CT) (s : State) : Host.Outcome State Fault Refusal :=
  s.control (.lrep o) .pass fun s => s.ccc fun t =>
    { t with rblock := some (s.env.next.toNat, (o.n.extractLsb' 0 5).toNat + 1, (o.n.extractLsb' 5 2).toNat + 1)
             rpass := List.replicate ((o.n.extractLsb' 5 2).toNat + 1) 0, rpos := 0, loopBuf := [] }

/-- The replay state as a normal end leaves it (R281, R282). -/
def Task.endReplay (t : Task) (pc : Word) : Task :=
  { t with rblock := none, rpass := [], rpos := 0, loopBuf := [], rtab := [], rc := [1, 1, 1, 1], pc := pc }

/-- The address n bundles after one, by their headers (R242, R243). -/
def State.skipBundles (s : State) (t : Task) : Nat → Nat → Nat
  | 0, a => a
  | n + 1, a =>
    let h := leNat (match s.lineData (t.group / 8) t.part (a / 128) with
      | some b => (b.drop (a % 128)).take 4
      | none => (s.vread t.die t.part a 4 3).getD [])
    s.skipBundles t n (a + 4 * (1 + popN 8 h))

/-- LEXIT (R282): inside a block, issue continues after the block; outside replay mode it is a no-op. -/
def execLexit (s : State) : Host.Outcome State Fault Refusal :=
  s.control .lexit .pass fun s =>
    match s.cur.rblock with
    | none => s
    | some (_, n, _) =>
      s.ccc fun t => t.endReplay (BitVec.ofNat 64 (s.skipBundles t (n - t.rpos) s.env.next.toNat))

/-! End, trap, format register -/

/-- END (R272): the control core sends nothing more after the bundle's empty bundles. -/
def execEndTask (s : State) : Host.Outcome State Fault Refusal :=
  s.control .endTask .pass fun s => s.ccc fun t => { t with endAfter := true }

/-- TRAP (R273): the task is aborted with reason 0x0400 + n. -/
def execTrap (o : CT) (s : State) : Host.Outcome State Fault Refusal :=
  s.control (.trap o) .pass fun s =>
    if s.env.idx = 0 then s.abort s.env.task (0x0400 + o.n.toNat) else s

/-- FMTW (R283): the selected fields land at offset 4. -/
def execFmtw (o : CF) (s : State) : Host.Outcome State Fault Refusal :=
  s.control (.fmtw o) .pass fun s =>
    if fmtMask o.fmask = 0 then s else s.after 4 (.fmt (fmtMask o.fmask) (s.sv o.a))

/-! Fences and waits -/

/-- Loads of a context that have still to read take the acquire of a fence behind them: a later load waits for it (R160). -/
def State.acquireLater (s : State) (core ctx scope : Nat) : State :=
  { s with loads := s.loads.foldl (fun m e =>
    if e.2.core = core && e.2.ctx = ctx && e.2.width ≠ 0 && (e.2.late || e.2.pieces.any fun p => paD p.1) then
      m.upd e.1 fun l => { l with acq := max l.acq (scope + 1) }
    else m) s.loads }

/-- FENCE (R284): the release actions of the scope perform before any later store of the context, and its acquire
actions before any later load. Later stores wait while earlier accesses that the scope orders have not completed (R46,
R145, R160). -/
def execFence (o : CW) (s : State) : Host.Outcome State Fault Refusal :=
  s.control (.fence o) .pass fun s =>
    let c := s.env.core
    let sc := o.scope.toNat
    let s := ((s.releaseActs c s.env.ctx s.cur.part sc).acquireActs c s.cur.part sc).acquireLater c s.env.ctx sc
    if s.releaseWaits c s.env.ctx sc then s.modBank s.b fun b => { b with fence := max b.fence (sc + 1) } else s

/-- The word of a wait (R285): an offset of the partition, or a virtual address. -/
def awaitWord (a : Word) : Nat ⊕ Nat :=
  if a.getLsbD 63 then .inl (bits a.toNat 20 3 * 8) else .inr (a.toNat - a.toNat % 8)

/-- The value of the awaited word now: at the point of coherence of the scope, of die scope when it is narrower
(R285). A word of the domain is known as its latest read brought it. -/
def State.awaitValue (s : State) (t : Task) (core scope : Nat) (w : Nat ⊕ Nat) : Option Nat :=
  match w with
  | .inl off => some (s.seenNat core t.ctx off 8)
  | .inr va =>
    let pa := (s.coreXlate core t.part va 0).2.pa va
    if paD pa then (t.polled.find? fun p => p.1 = core && p.2.1 = pa).map (·.2.2)
    else some (leNat (s.scopeBytes core t.part (max 3 scope) pa 8))

/-- A read of a word of the domain goes out for a wait, unless one is under way (R42, R285). -/
def State.sendPoll (s : State) (id core pa : Nat) : State :=
  if s.fabric.any fun e => e.2.poll = some core && e.2.task = id && e.2.pa = pa then s
  else
    let t := s.task id
    (s.modTask id fun t => { t with polled := t.polled.filter fun p => !(p.1 = core && p.2.1 = pa) }).sendAccess
      { task := id, part := t.part, poll := some core } t.cls pa .read [] [] 8

/-- The word comes. -/
def State.pollTake (s : State) (id core pa v : Nat) : State :=
  s.modTask id fun t => { t with polled := (core, pa, v) :: t.polled.filter fun p => !(p.1 = core && p.2.1 = pa) }

/-- AWAIT is satisfied by a word at least as large, WAITA by a different one (R285). -/
def satisfied (ne : Bool) (word : Option Nat) (v : Nat) : Bool := word.any fun w => if ne then w ≠ v else decide (v ≤ w)

/-- The address checks of R285. -/
def State.awaitAddr (s : State) (a : Word) : Check :=
  if a.getLsbD 63 then
    (Check.when (bits a.toNat 62 21 ≠ 0) 0x16 (a.toNat)).and (s.spadCheck (bits a.toNat 20 3 * 8) 8)
  else { accesses := [(a.toNat - a.toNat % 8, 0)] }

/-- The checks of AWAIT and WAITA: the address, and in dynamic mode a park beyond WT (R286). -/
def State.awaitCheck (s : State) (ne : Bool) (o : CW) : Check :=
  let c := s.awaitAddr (s.sv o.a)
  let v := s.awaitValue s.cur s.env.core o.scope.toNat (awaitWord (s.sv o.a))
  if c.cause = 0 && (s.finding c).1 = 0 && s.cur.dynamic && s.cur.hdrNat 26 2 = 0 && !satisfied ne v (s.sv o.b).toNat then
    { c with cause := 0x51 }
  else c

/-- A wait of the team before its next bundle (R176, R286). -/
def State.addWait (s : State) (w : WaitOn) : State :=
  s.modTask s.env.task fun t => { t with waits := t.waits ++ [⟨s.env.idx, s.env.cyc, w⟩] }

/-- The wait of AWAIT or WAITA: satisfied at once, its acquire is taken; otherwise it is registered (R285, R286). -/
def State.awaitOn (s : State) (ne : Bool) (o : CW) : State :=
  let sc := o.scope.toNat
  let w := awaitWord (s.sv o.a)
  let v := s.sv o.b
  if satisfied ne (s.awaitValue s.cur s.env.core sc w) v.toNat then
    s.acquireActs s.env.core s.cur.part sc
  else
    match w with
    | .inl off => s.addWait (.spadWord off v ne sc)
    | .inr va =>
      let pa := (s.coreXlate s.env.core s.cur.part va 0).2.pa va
      let s := s.addWait (.memWord va v ne sc (s.now - skew s.env.idx))
      if paD pa then s.sendPoll s.env.task s.env.core pa else s

/-- AWAIT (R285, R286). -/
def execAwait (o : CW) (s : State) : Host.Outcome State Fault Refusal :=
  s.control (.await o) (s.awaitCheck false o) fun s => s.awaitOn false o

/-- WAITA (R285, R286). -/
def execWaita (o : CW) (s : State) : Host.Outcome State Fault Refusal :=
  s.control (.waita o) (s.awaitCheck true o) fun s => s.awaitOn true o

/-- The checks of TWAIT (R287): dynamic mode, and the wait table. -/
def State.twaitCheck (s : State) (o : CW) : Check :=
  (Check.when (!s.cur.dynamic) 0x04).and
    (.when (decide (s.cur.hdrNat 26 2 = 0 ∧ s.tick < (s.sv o.a).toNat)) 0x51)

/-- TWAIT (R287). -/
def execTwait (o : CW) (s : State) : Host.Outcome State Fault Refusal :=
  s.control (.twait o) (s.twaitCheck o) fun s =>
    if s.tick < (s.sv o.a).toNat then s.addWait (.tick (s.sv o.a).toNat) else s

/-- MARK: no architectural effect beyond event 0x03 and the charge of class 0 (R288). -/
def execMark (o : CT) (s : State) : Host.Outcome State Fault Refusal :=
  s.control (.mark o) .pass id

end Sys2Proof.Machine
end

