-- ==== Sys2Proof/Machine/Barriers.lean ====
section
/-! DEFINITION. Barriers (02 R47; 14 R356, R357): instances with their arrivals and pending bytes, releases, and the all-reduce that rides on a domain barrier (02 R49, R50). -/

namespace Sys2Proof.Machine

/-- The key of a domain barrier's node of this module (R47). -/
def domKey (bar : Nat) : Nat := 3 + 4 * bar
/-- The key of a domain barrier's instance of a die. -/
def dieKey (bar die : Nat) : Nat := 3 + 4 * (bar + 256 * (1 + die))

/-- Number of an instance: level 0 team, 1 die, 2 module, 3 the die instance of a domain barrier; the barrier's number; and
what it belongs to, a task, a launch, or the die (R47, R356). -/
def State.barKey (s : State) (level bar task : Nat) : Nat :=
  let x :=
    if level ≤ 1 then task
    else if level = 2 then (match (s.task task).launch with | some l => l | none => task)
    else 1 + (s.task task).die
  level + 4 * (bar + 256 * x)
/-- A barrier's number among the counts that a core keeps. -/
def barCount (level bar : Nat) : Nat := 256 * level + bar
/-- Scope of a level's release and acquire (R162). -/
def barScope (level : Nat) : Nat := match level with | 0 => 1 | 1 => 3 | 2 => 4 | _ => 5

/-- The state with a barrier instance changed. -/
def State.modBarrier (s : State) (k : Nat) (f : Barrier → Barrier) : State :=
  { s with barriers := s.barriers.upd k f }

/-- Cores and contexts that take part in an instance at which a task arrives first (R356): its team, at module level every
sister's. -/
def State.barParties (s : State) (level task : Nat) : List (Nat × Nat) :=
  let of (t : Nat) : List (Nat × Nat) := (s.task t).idxs.map fun i => ((s.task t).coreAt i, (s.task t).ctx)
  if level ≠ 2 then of task
  else match (s.task task).launch with
    | some l => ((s.launches.look l).tasks.map of).flatten
    | none => of task

/-- Dies on which a launch has teams: those whose instances a domain barrier's node of the module waits for. -/
def State.barDies (s : State) (task : Nat) : List Nat :=
  match (s.task task).launch with
  | some l => ((s.launches.look l).tasks.map fun t => (s.task t).die).eraseDups
  | none => [(s.task task).die]

/-- Whether every participant inside the module has arrived, over a link that joins its die to that of the first (R21), with its
release performed, and the pending count is zero (R47, R162, R357). -/
def State.barComplete (s : State) (b : Barrier) : Bool :=
  !b.arrived.isEmpty && b.pending = 0 &&
  b.parties.all (fun p => b.arrived.contains p && s.joined (dieOf p.1) (s.task b.task).die) &&
  b.arrived.all fun p => (s.bank (ctxOf p.1 p.2)).heldStores.isEmpty && !s.releaseWaits p.1 p.2 (barScope b.level)

/-- The releases of an instance's arrivals act again, on what performed after them. -/
def State.barActs (s : State) (b : Barrier) : State :=
  b.arrived.foldl (fun s p => s.releaseActs p.1 p.2 (s.task b.task).part (barScope b.level)) s

/-- Children of a domain barrier's tree that its root or node waits for (R47). -/
def State.barChildren (s : State) (bar : Nat) : Nat := min 8 (s.getF FAB_BARR_CFG.CHILDREN bar)
/-- Whether this module is the root of a barrier's tree. -/
def State.barRoot (s : State) (bar : Nat) : Bool := s.getF FAB_BARR_CFG.ROOT bar = 1

/-- Ticks within which an instance releases after it is complete (R357); a domain instance's budget is that of R51. -/
def barBound (level : Nat) : Nat := match level with | 0 => 1 | 1 => 64 | 2 => 1088 | _ => 4000

/-- A control message to a module, over its lowest routed port (R36, R47). -/
def State.sendControl (s : State) (m part : Nat) (f : FlitMsg) : State :=
  let mask := s.routeMask m
  if mask = 0 then s else s.enqueue (maskMember mask 0) m 0 part f true

/-! All-reduce (R49, R50) -/

/-- Bytes of an element: INT64 has 8. -/
def redWidth (ty : Nat) : Nat := if ty = 2 then 8 else 4
/-- One step of the fold: OP 0 sum, 1 max, 2 min over FP32, INT32 or INT64. -/
def redStep (op ty a b : Nat) : Nat :=
  let w := 8 * redWidth ty
  if ty = 0 then
    match op with
    | 0 => (rne32 (FpVal.addZ .rne (fp32.val a) (fp32.val b))).1
    | 1 => (minMaxFp fp32 true a b).1
    | _ => (minMaxFp fp32 false a b).1
  else
    match op with
    | 0 => (a + b) % 2 ^ w
    | 1 => if sintN w a < sintN w b then b else a
    | _ => if sintN w a < sintN w b then a else b
/-- The fold of contributions, element by element, left to right. -/
def redFold (op ty n : Nat) (l : List (List Byte)) : List Byte :=
  let w := redWidth ty
  let el (b : List Byte) (i : Nat) : Nat := leNat ((b.drop (w * i)).take w)
  ((List.range n).map fun i =>
    natLe w (match l with | [] => 0 | b :: bs => bs.foldl (fun a c => redStep op ty a (el c i)) (el b i))).flatten

/-- Contributions in ascending order of their source. -/
def inOrder (l : List (Nat × List Byte)) : List (List Byte) :=
  (l.foldl (fun acc x => (acc.takeWhile fun y => decide (y.1 ≤ x.1)) ++ [x] ++ (acc.dropWhile fun y => decide (y.1 ≤ x.1))) []).map (·.2)

/-- The result of the module and the children heard of (R50): each die folds its cores in order; the module folds the
dies in order, then its children. -/
def AllRed.result (a : AllRed) : List Byte :=
  let of (d : Nat) : List (Nat × List Byte) := a.own.filter fun e => e.1 / 96 = d
  let perDie := (List.range 4).filterMap fun d =>
    if (of d).isEmpty then (a.dies.find? fun e => e.1 = d) else some (d, redFold a.op a.ty a.n (inOrder (of d)))
  redFold a.op a.ty a.n (perDie.map (·.2) ++ inOrder a.mods)

/-- A domain barrier's node of this module (R47, R50): when every die that takes part and every child module has arrived, it
forwards its arrival to the parent, or as the root releases. -/
def State.domCheck (s : State) (bar : Nat) : State :=
  let k := domKey bar
  let b := s.barriers.look k
  let a := s.allred.look bar
  if b.releasing || b.children.isEmpty || (s.barDies b.task).any (fun d => !b.children.contains (64 + d)) ||
      (b.children.filter fun c => decide (c < 64)).length < s.barChildren bar || a.own.length ≠ a.expect then s
  else
    let s := s.modBarrier k fun b => { b with releasing := true }
    if s.barRoot bar then
      if a.n = 0 then s.schedWithin (barBound 3) phMem (.fabBarrierRelease (Fin.ofNat 256 bar))
      else (s.sched (s.now + s.freeIn 1 4000) phMem (.allreduceResult (Fin.ofNat 256 bar) a.result)).freed
    else
      let m := s.getF FAB_BARR_CFG.PARENT bar
      let me := s.getF FAB_DOM_CFG.MODID 0
      s.sendControl m 0 (if a.n = 0 then .arrival bar me else .contribution bar me a.result)

/-- A child of a domain barrier's node has arrived: a module, or 64 + a die. The first die names the launch. -/
def State.childArrives (s : State) (bar child : Nat) (task : Nat := 0) : State :=
  (s.modBarrier (domKey bar) fun b => { b with
    level := 3, bar := bar, task := if b.task = 0 then task else b.task
    children := if b.children.contains child then b.children else b.children ++ [child] }).domCheck bar

/-- An instance is complete (R47, R162): a die's of a domain barrier forwards its arrival to the module's node, another
releases. -/
def State.barrierCheck (s : State) (k : Nat) : State :=
  let b := s.barriers.look k
  let s := if b.releasing || b.parties.any (fun p => !b.arrived.contains p) then s else s.barActs b
  if b.releasing || !s.barComplete b then s
  else
    let s := s.modBarrier k fun b => { b with releasing := true }
    if b.level = 3 then s.childArrives b.bar (64 + (s.task b.task).die) b.task
    else s.schedWithin (barBound b.level) phMem (.barrierRelease k)

/-- Bytes of a put or copy that names an instance are added at issue (R47). -/
def State.barAdd (s : State) (k task n : Nat) : State :=
  s.modBarrier k fun b => { b with level := k % 4, bar := k / 4 % 256, pending := b.pending + n,
                                   task := if b.arrived.isEmpty then task else b.task }
/-- Delivered bytes are subtracted. -/
def State.barSub (s : State) (k n : Nat) : State :=
  (s.modBarrier k fun b => { b with pending := b.pending - n }).barrierCheck k

/-- Every instance at which a context has arrived is looked at again. -/
def State.barRecheck (s : State) (core ctx : Nat) : State :=
  (s.barriers.filter fun e => e.2.arrived.contains (core, ctx)).foldl (fun s e => s.barrierCheck e.1) s

/-- An access of a context has completed: what waits for it, releases and barriers, is looked at again. -/
def State.orderFree (s : State) (core ctx task : Nat) : State := (s.tryStores core ctx task).barRecheck core ctx

/-- The operation's core arrives (R162, R357): a release at the barrier's scope. -/
def State.arrive (s : State) (level bar : Nat) : State :=
  let core := s.env.core
  let k := s.barKey level bar s.env.task
  let s := s.releaseActs core s.env.ctx s.cur.part (barScope level)
  let s := s.modBank s.b fun b => { b with barA := b.barA.upd (barCount level bar) (· + 1) }
  let s := s.modBarrier k fun b =>
    { b with level := level, bar := bar, task := if b.arrived.isEmpty then s.env.task else b.task
             parties := if b.arrived.isEmpty then s.barParties level s.env.task else b.parties
             arrived := b.arrived ++ [(core, s.env.ctx)] }
  s.barrierCheck k

/-- The release reaches every participant (R357): r rises, and it acts as an acquire. Bytes that have been added since count
in the next generation. -/
def State.barRelease (s : State) (k : Nat) : State :=
  let b := s.barriers.look k
  let n := barCount b.level b.bar
  let s := b.arrived.foldl (fun s p =>
    let part := match s.holder p.1 p.2 with | some t => (s.task t).part | none => (s.task b.task).part
    (s.modBank (ctxOf p.1 p.2) fun c =>
      { c with barR := c.barR.upd n (· + 1)
               barRecent := c.barRecent.filter (fun e => decide (s.now < e.2 + 2)) ++ [(n, s.now)] }).acquireActs p.1 part
        (barScope b.level)) s
  { s with barriers := s.barriers.put k (if b.pending = 0 then {} else { level := b.level, bar := b.bar, pending := b.pending }) }

/-- Releases of a barrier that the control core has seen (R176). -/
def State.barSeen (s : State) (core ctx n : Nat) : Nat :=
  let c := s.bank (ctxOf core ctx)
  c.barR.look n - (c.barRecent.filter fun e => e.1 = n && decide (s.now < e.2 + 2)).length

/-- Checks of a barrier instruction (R356, R357): a number beyond the declaration, a count at another level than die, and
an arrival while one is not released. -/
def State.barCheck (s : State) (o : XB) (arrives : Bool) : Check :=
  let lv := o.level.toNat
  let n := barCount lv o.bar.toNat
  (Check.when (arrives && (s.sv o.a != 0) && lv ≠ 1) 0x08).and
    (.when ((decide (lv < 3) && decide (s.cur.hdrNat 32 2 ≤ o.bar.toNat)) ||
      (arrives && decide (s.mine.barR.look n < s.mine.barA.look n))) 0x55)

/-- A wait for a barrier: the releases that it needs are the arrivals made (R357). -/
def State.barWait (s : State) (o : XB) : State :=
  let n := barCount o.level.toNat o.bar.toNat
  if s.mine.barR.look n < s.mine.barA.look n then s.addWait (.barrier o.level.toNat o.bar.toNat (s.mine.barA.look n)) else s

/-- A slot-7 command charges class 12 and counts in event 0x0E (R340). -/
def State.command (s : State) (i : Instr) (c : Check) (f : State → State) : Host.Outcome State Fault Refusal :=
  s.issue i c fun s => f ((s.issued1 12).count s.env.core s.env.ctx 0x0E 1)

/-- BARA (R356, R357). -/
def execBara (o : XB) (s : State) : Host.Outcome State Fault Refusal :=
  s.command (.bara o) (s.barCheck o true) fun s => s.arrive o.level.toNat o.bar.toNat

/-- BARW (R356, R357). -/
def execBarw (o : XB) (s : State) : Host.Outcome State Fault Refusal :=
  s.command (.barw o) (s.barCheck o false) fun s => s.barWait o

/-- BARAW: arrival, then wait (R356, R357). -/
def execBaraw (o : XB) (s : State) : Host.Outcome State Fault Refusal :=
  s.command (.baraw o) (s.barCheck o true) fun s => (s.arrive o.level.toNat o.bar.toNat).barWait o

/-- BARRIER_RELEASE: an instance inside the module releases (R357). -/
def execBarrierRelease (inst : Nat) (s : State) : Host.Outcome State Fault Refusal := .next (s.barRelease inst)

end Sys2Proof.Machine
end

