-- ==== Sys2Proof/Machine/Release.lean ====
section
/-! DEFINITION. Device time and the global tick (03 R72, R73), and releases (05 R106, R116, R127). -/

namespace Sys2Proof.Machine

/-! Device time -/

/-- INCR in force (R71). -/
def State.incr (s : State) : Nat := s.getF PTC_INCR.INCR 0
/-- Device time in ns at a cycle (R73); `ptp.t` is the cycle of the latest second boundary. -/
def State.timeAt (s : State) (cycle : Nat) : Nat :=
  ((s.ptp.s : Int) + ((cycle : Int) - s.ptp.t) * s.incr / 2 ^ 48).toNat
/-- Device time now. -/
def State.deviceTime (s : State) : Nat := s.timeAt s.now
/-- Tick of the latest second boundary. -/
def State.boundaryTick (s : State) : Int := (s.ptp.t : Int) - (s.tickBase.getD 0 : Nat)
/-- tick_to_time (R73). -/
def State.tickToTime (s : State) (x : Nat) : Nat := ((s.ptp.s : Int) + ((x : Int) - s.boundaryTick) * s.incr / 2 ^ 48).toNat
/-- time_to_tick (R73). -/
def State.timeToTick (s : State) (t : Nat) (up : Bool) : Nat :=
  let n : Int := ((t : Int) - s.ptp.s) * 2 ^ 48
  let q := n / (s.incr : Int)
  let q := if up && q * (s.incr : Int) ≠ n then q + 1 else q
  (s.boundaryTick + q).toNat
/-- The conversion of a duration in ns to ticks (R110). -/
def durTicks (ns : Nat) : Nat := ns * 39999 / 10000

/-- The cycle of a tick. -/
def State.cycleOf (s : State) (tick : Nat) : Nat := s.tickBase.getD 0 + tick
/-- An event due at a tick, or now when the tick has passed. -/
def State.schedTick (s : State) (tick phase : Nat) (ev : Ev) : State := s.sched (max s.now (s.cycleOf tick)) phase ev

/-! Releases -/

/-- A task leaves the machine without status or record: a dropped deferred release, a deregistration, a reset (R107,
R126, R127). -/
def State.dropTask (s : State) (t : Nat) : State :=
  let s := (s.freeRx (s.task t)).freeTx (s.task t)
  (s.unsched fun d => match d.ev with
    | .taskReady u | .deadlineAbort u => decide (u = t)
    | e => e.drives t).modTask t fun x => { x with st := .aborted, run := .off, occ := false }

/-- A release of a slow stream becomes Deferred; an earlier one held is dropped (R127). -/
def State.defer (s : State) (t : Nat) : State :=
  let k := s.task t
  let st := s.stream k.die k.stream
  let s := match st.deferred with | some u => s.dropTask u | none => s
  let s := s.unsched fun d => match d.ev with | .deadlineAbort u => decide (u = t) | _ => false
  (s.modTask t fun x => { x with st := .deferred }).modStream k.die k.stream fun st => { st with deferred := some t }

/-- A release arrives for a stream of a die (R116): the task formed, and the state with it Pending, aborted at once or
deferred. Nothing reaches a scheduler before the tick runs (R72). `late` is a LATE slot; `f` gives the task what its way
of release carries. -/
def State.release (s : State) (die n : Nat) (relNs dlNs : Nat) (late : Bool) (f : Task → Task) : Option Nat × State :=
  let st := s.stream die n
  if s.tickBase.isNone || (s.die die).stopped || !st.valid || st.leaving || (st.copy && !st.shadow) ||
      s.getF PRT_STAT.RST st.part = 1 then (none, s)
  else
    let (id, s) := s.newId
    let r := s.timeToTick relNs true
    let r := match st.prevRel with | some p => max r (p + durTicks st.period) | none => r
    let dab := s.timeToTick dlNs false
    let dord := max dab (r + durTicks st.rdl)
    let cut := if st.shadow then 400480 else 0
    let dab := dab - cut
    let dord := dord - cut
    let level := s.levelOf die st.session
    let t : Task := f
      { die := die, part := st.part, stream := n, session := st.session, cls := st.cls, period := st.nextPeriod % 2 ^ 64,
        r := r, dord := dord, dabort := dab, late := late, level := level, copy := st.copy, shadow := st.shadow, group := st.group,
        ctx := st.ctx, var := st.at_ level }
    let s := { s with tasks := s.tasks.put id t }
    let s := s.modStream die n fun st => { st with nextPeriod := st.nextPeriod + 1, lastDord := if st.cls < 2 then dord else st.lastDord, lastTask := id }
    let s := if st.copy && st.shadow then
        s.schedTick (dab + 480) phDls (.checkTick (Fin.ofNat 4 die) n t.period)
      else s
    if late || decide (dab ≤ r) || decide (dab ≤ s.tick) then (some id, s.abort id 0x0202)
    else if t.cls = 1 && 2 ≤ level then (some id, s.defer id)
    else
      let s := s.modStream die n fun st => { st with prevRel := some r }
      let s := s.schedTick r phReady (.taskReady id)
      (some id, if t.cls < 2 then s.schedTick dab phAbort (.deadlineAbort id) else s)

/-- TASK_READY: the tick has reached r, and the task enters its group's order with the variant of its session's level; a
slow one of a session at D2 or D3 is deferred (R116, R126, R127). -/
def State.becomeReady (s : State) (t : Nat) : State :=
  let k := s.task t
  if k.st ≠ .pending && k.st ≠ .deferred then s
  else
    let st := s.stream k.die k.stream
    let level := s.levelOf k.die k.session
    if k.cls = 1 && 2 ≤ level then s.defer t
    else
      s.modTask t fun x =>
        { x with st := .ready, level := level, eligTick := s.now
                 var := if x.cls < 2 then st.at_ level else x.var }

/-- TASK_READY (R126). -/
def execTaskReady (t : Nat) (s : State) : Host.Outcome State Fault Refusal := .next (s.becomeReady t)

/-- DEADLINE_ABORT (R123): a fast or slow task that has not committed; MISSES counts it. -/
def execDeadlineAbort (t : Nat) (s : State) : Host.Outcome State Fault Refusal :=
  let k := s.task t
  match k.st with
  | .committed | .aborted | .refused | .deferred => .next s
  | _ => .next ((s.bump DLS_SES.MISSES (256 * k.die + k.session) 1).abort t 0x0201)

/-- The tick at which release n of a timer stream is due. -/
def State.timerTick (s : State) (st : Stream) : Nat := s.timeToTick (st.phase + st.timerN * st.period) true

/-- TIMER_RELEASE (R106): release n at PHASE + n × PERIOD with deadline release + RDEADLINE; INCR may have moved the
tick. -/
def execTimerRelease (d : Die) (stream : Fin 1024) (s : State) : Host.Outcome State Fault Refusal :=
  let st := s.stream d.val stream.val
  let ev : Ev := .timerRelease d stream
  if !st.valid || !st.timer || st.leaving then .next s
  else if s.tick < s.timerTick st then .next (s.schedTick (s.timerTick st) phReady ev)
  else
    let rel := st.phase + st.timerN * st.period
    let s := (s.release d.val stream.val rel (rel + st.rdl) false id).2
    let s := s.modStream d.val stream.val fun st => { st with timerN := st.timerN + 1 }
    .next (s.schedTick (max (s.tick + 1) (s.timerTick (s.stream d.val stream.val))) phReady ev)

end Sys2Proof.Machine
end

