-- ==== Sys2Proof/Machine/Pair.lean ====
section
/-! DEFINITION. Shadowed streams: chunks, heartbeats, the partner's check tick and the take-over (05 R128 to R130; 01 R22), and the links between dies that are lost and come back (01 R23; 08 R212). -/

namespace Sys2Proof.Machine

/-! Chunks (R65) -/

/-- The endpoint's translation at once: the lock array, its own translator, a walk (R148). -/
def State.epXlate (s : State) (die part va kind : Nat) : Nat × Xlate :=
  let r := s.translateNow die part va kind (s.die die).epTlb
  if r.1 = 0 && s.hostRefuses part (r.2.pa va) then (0x25, r.2) else r

/-- The endpoint's translation, with a miss where its translator has none; an event tells it of the walk's end (R149). -/
def State.epFind (s : State) (die part va kind dord : Nat) (ev : Ev) : Found × State :=
  s.findXlate die part (s.die die).epTlb dord { tr := 3000 + die, kind := kind, va := va, wake := some ev, ph := phEndpoint }

/-- The endpoint reads a virtual range straight from the stacks (R152). -/
def State.epRead (s : State) (die part va n : Nat) : Option (List Byte) :=
  if (pagesOf va n).any fun p => (s.epXlate die part p.1 0).1 ≠ 0 then none
  else some ((pagesOf va n).map fun p =>
    let pa := (s.epXlate die part p.1 0).2.pa p.1
    if s.abroad pa then abroadBytes p.1 p.2 else s.memBytes (paOff pa) p.2).flatten

/-- Address of a slot of a transmit ring, by 512 × die + ring. -/
def State.txSlotVa (s : State) (k slot : Nat) : Nat :=
  s.getF UEE_TXQ_CFG.BASE k * 256 + slot * 2 ^ (s.getF UEE_TXQ_CFG.SLOTSZ k + 8)
/-- Slots of a transmit ring. -/
def State.txDepth (s : State) (k : Nat) : Nat := 2 ^ max 1 (s.getF UEE_TXQ_CFG.DEPTH k)
/-- LEN of a task's chunk as the task wrote it. -/
def State.chunkLen (s : State) (t : Task) : Nat :=
  match t.txSlot with
  | some (ring, slot) => leNat ((s.epRead t.die t.part (s.txSlotVa (512 * t.die + ring) slot) 4).getD [])
  | none => 0
/-- Whether the chunk is longer than its slot allows. -/
def State.chunkLong (s : State) (t : Task) : Bool :=
  match t.txSlot with
  | some (ring, _) => decide (2 ^ (s.getF UEE_TXQ_CFG.SLOTSZ (512 * t.die + ring) + 8) - 32 < s.chunkLen t)
  | none => false
/-- The payload of a task's chunk. -/
def State.chunkBytes (s : State) (t : Task) : List Byte :=
  match t.txSlot with
  | some (ring, slot) => (s.epRead t.die t.part (s.txSlotVa (512 * t.die + ring) slot + 32) (s.chunkLen t)).getD []
  | none => []
/-- CRC-32 over LEN and payload (R129). -/
def State.chunkSum (s : State) (t : Task) : BitVec 32 := crc32 (natLe 4 (s.chunkLen t) ++ s.chunkBytes t)

/-- A chunk is read in the slots of its stream (R65, R143), once its address is translated. -/
def State.chunkSlots (s : State) (id : Nat) : State :=
  let t := s.task id
  match t.txSlot with
  | none => s
  | some (ring, slot) =>
    let va := s.txSlotVa (512 * t.die + ring) slot
    let ev : Ev := .actionChunk (Fin.ofNat 4 t.die) id
    match s.epFind t.die t.part va 0 t.dord ev with
    | (.wait, s) => s.modTask id fun t => { t with chunkLook := true }
    | (.fault _, s) => (s.modTask id fun t => { t with chunkLook := false }).sched (s.now + 1) phEndpoint ev
    | (.hit x, s) =>
      let pa := x.pa va
      let s := s.modTask id fun t => { t with chunkLook := false }
      if paD pa || isHost pa then s.schedWithin 8000 phEndpoint ev
      else s.hbm (stackOf pa) t.cls t.part (ownerKey t.die t.session) (32 + s.chunkLen t) (some ev)

/-- A committed chunk is handed to the endpoint of its task's die (R65, R66). -/
def State.handChunk (s : State) (id : Nat) : State :=
  if (s.task id).txSlot.isNone then s
  else ({ (s.modTask id fun t => { t with chunkNo := s.nextId, chunkRead := false }) with nextId := s.nextId + 1 }).chunkSlots id

/-! Heartbeats -/

/-- The home die sends the heartbeat of a period that commits (R22, R129). -/
def State.sendHeartbeat (s : State) (t : Task) : State :=
  let h : Heartbeat :=
    { session := t.session, stream := t.stream, period := t.period, tick := s.tick, level := t.level, crc := s.chunkSum t }
  (s.modDie t.die fun d => { d with unacked := d.unacked ++ [h] }).sendPair t.die (.heartbeat h)

/-- The partner's task of a period. -/
def State.copyOf (s : State) (die stream period : Nat) : Option Nat :=
  (s.tasks.find? fun e => e.2.die = die && e.2.stream = stream && e.2.period = period && e.2.copy).map (·.1)

/-- A copy's transmit slot is free again. -/
def State.freeChunk (s : State) (id : Nat) : State := (s.freeTx (s.task id)).modTask id fun t => { t with txSlot := none, chunkNo := 0 }

/-- COMMIT_HEARTBEAT (R66, R129): the partner keeps it, frees the chunk of its committed copy, and acknowledges. -/
def execCommitHeartbeat (d : Die) (h : Heartbeat) (s : State) : Host.Outcome State Fault Refusal :=
  if (s.die d.val).stopped then .next s
  else
    let s := s.modDie d.val fun k => { k with hbs := if k.hbs.contains h then k.hbs else k.hbs ++ [h] }
    let s := match s.copyOf d.val h.stream h.period with
      | some id => if (s.task id).st = TState.committed then s.freeChunk id else s
      | none => s
    .next (s.sendPair d.val (.ack h.stream h.period))

/-- HEARTBEAT_ACK (R22). -/
def execHeartbeatAck (d : Die) (stream period : Nat) (s : State) : Host.Outcome State Fault Refusal :=
  .next (s.modDie d.val fun k => { k with unacked := k.unacked.filter fun h => !(h.stream = stream && h.period = period) })

/-- HEARTBEAT_RELAY (R23): inside the relaying die 120 ns at most, then the second crossing. -/
def execHeartbeatRelay (via dst : Die) (m : PairMsg) (s : State) : Host.Outcome State Fault Refusal :=
  if (s.die via.val).stopped || s.crossDown.look (linkKey via.val dst.val) then .next s
  else .next (s.schedWithin 960 phHost (pairEvent dst.val m))

/-- LEVEL_CHANGE_MESSAGE (R128): a die applies a change 8,000 ticks after its decision. -/
def execLevelChangeMessage (d : Die) (session : Fin 256) (level : Fin 4) (tick : Nat) (s : State) :
    Host.Outcome State Fault Refusal :=
  if s.tick < tick + 8000 then .next (s.schedTick (tick + 8000) phHost (.levelChangeMessage d session level tick))
  else .next (s.applyLevel d.val session.val level.val)

/-! Take-over -/

/-- It has been up through the last 8,000 ticks (R23). -/
def State.pathHeld (s : State) (pr : Nat) : Bool :=
  s.hasPath pr && (s.pathFrom.look pr = 0 || decide (s.pathFrom.look pr + 8000 ≤ s.tick))
/-- DLS_SES of a session on a die no longer shows shadowing (R131). -/
def State.endShadow (s : State) (die session : Nat) : State :=
  let k := 256 * die + session
  (s.setF DLS_SES.SHADOW k 0).setF DLS_SES.HOME k 0
/-- Shadowing of a stream of a pair stops (R23, R129). -/
def State.unshadow (s : State) (die stream : Nat) : State :=
  let x := (s.stream die stream).session
  let f (st : Stream) : Stream := { st with shadow := false }
  (((s.modStream die stream f).modStream (partnerOf die) stream f).endShadow die x).endShadow (partnerOf die) x

/-- The record of a task notes the take-over, while it is still in its ring (R125, R130). -/
def State.markRecord (s : State) (id : Nat) : State :=
  let t := s.task id
  let i := 16 * t.die + t.part
  let n := 2 ^ min 32 (s.getF DLS_TREC_CFG.DEPTH i)
  if t.recNo = 0 || s.getF DLS_TREC_CFG.EN i = 0 || decide (n < s.getF DLS_TREC_CFG.HEAD i + 1 - t.recNo) then s
  else
    let va := s.getF DLS_TREC_CFG.BASE i * 64 + (t.recNo - 1) % n * 64 + 35
    (s.vwrite t.die t.part id t.cls va (natLe 1 (t.die + (if t.copy then 4 else 0) + 8))).getD s

/-- The partner becomes home of a stream (R130). -/
def State.takeOver (s : State) (die stream : Nat) (id : Option Nat) : State :=
  let old := partnerOf die
  let st := s.stream die stream
  let s := (s.modStream die stream fun x => { x with copy := false }).modStream old stream fun x => { x with copy := true }
  let s := (s.setF DLS_SES.HOME (256 * die + st.session) 1).setF DLS_SES.HOME (256 * old + st.session) 0
  let s : State := if (s.die old).stopped then s
    else (s.tasks.filter fun e => e.2.die = old && e.2.stream = stream && (match e.2.st with
        | .committed | .aborted | .refused => false
        | _ => true)).foldl (fun s e => s.abort e.1 0x0203) s
  let s : State := match id with
    | some t => (s.modTask t fun x => { x with tookOver := true }).markRecord t
    | none => s
  let s : State := (s.vec st.part 3).send (.announce die)
  let k := 256 * die + st.session
  if s.hasStream old st.session 1 && decide (s.getF DLS_SES.LEVEL k < 2) then
    { s.applyLevel die st.session 2 with tookSes := s.tookSes.put k true }
  else s

/-- CHECK_TICK (R129, R23): the partner's decision on a period. -/
def execCheckTick (d : Die) (stream period : Nat) (s : State) : Host.Outcome State Fault Refusal :=
  let die := d.val
  match s.copyOf die stream period with
  | none => .next s
  | some id =>
    let t := s.task id
    if (s.die die).stopped then .next s
    else if (s.relay (die / 2)).isSome && decide (s.tick < t.dabort + 1440) then
      .next (s.schedTick (t.dabort + 1440) phDls (.checkTick d stream period))
    else
      let done := t.st = .committed
      let (hb, s) := ((s.die die).hbs.find? fun h => h.stream = stream && h.period = period,
        s.modDie die fun k => { k with hbs := k.hbs.filter fun h => !(h.stream = stream && h.period = period) })
      match hb with
      | some h =>
        if done && some h.crc ≠ t.chunkCrc then
          .next (((((s.mcReport die 0x35).mcReport (partnerOf die) 0x35).faultSnap 0x35).unshadow die stream).freeChunk id)
        else .next (if done then s.freeChunk id else s)
      | none =>
        if !s.pathHeld (die / 2) then .next (s.freeChunk id)
        else
          let s := s.takeOver die stream (some id)
          .next (if done then s.handChunk id else s)

/-! Links -/

/-- LANE_GROUP_LOSS (R23): PLDEG on both dies. With the other group lost before, the dies detect the loss of both within
1 µs. -/
def execLaneGroupLoss (pr g : Fin 2) (s : State) : Host.Outcome State Fault Refusal :=
  let was := s.pairLive pr.val
  let s := s.linksChange fun s => { s with pairUp := s.pairUp &&& ~~~ (1#4 <<< (2 * pr.val + g.val)) }
  let s := if was && !s.pairLive pr.val then s.schedWithin 4000 phHost (.pairLinkLoss pr) else s
  .next ((s.setTherm DLS_THERM_STAT.PLDEG (2 * pr.val) 1).setTherm DLS_THERM_STAT.PLDEG (2 * pr.val + 1) 1)

/-- PAIR_LINK_LOSS (R23, R212): both dies have detected the loss; both report, the multicast stops, and unacknowledged heartbeats are sent again over
the relay. -/
def execPairLinkLoss (pr : Fin 2) (s : State) : Host.Outcome State Fault Refusal :=
  let s := s.unsched fun e => decide (e.ev = Ev.pairLinkLoss pr)
  let s := s.linksChange fun s => { s with
    pairUp := s.pairUp &&& ~~~ (3#4 <<< (2 * pr.val)), pairLost := s.pairLost.put pr.val true }
  let s := [2 * pr.val, 2 * pr.val + 1].foldl (fun s d =>
    if (s.die d).stopped then s else (s.setTherm DLS_THERM_STAT.PLLOSS d 1).mcReport d 0x36) s
  let s := s.faultSnap 0x36
  let s := (s.streams.filter fun e => e.1 / 2048 = pr.val && e.2.valid && e.2.shadow).foldl
    (fun s e => s.unshadow (e.1 / 1024) (e.1 % 1024)) s
  .next ([2 * pr.val, 2 * pr.val + 1].foldl (fun s d =>
    (s.die d).unacked.foldl (fun s h => s.sendPair d (.heartbeat h)) s) s)

/-- CROSS_LINK_LOSS (R212): machine check 0x39. -/
def execCrossLinkLoss (a b : Die) (s : State) : Host.Outcome State Fault Refusal :=
  if a.val / 2 = b.val / 2 then .next s
  else
    let s := s.linksChange fun s => { s with crossDown := s.crossDown.put (linkKey a.val b.val) true }
    .next (((s.mcReport a.val 0x39).mcReport b.val 0x39).faultSnap 0x39)

/-- PAIR_LINK_RETURN (R23). -/
def execPairLinkReturn (pr : Fin 2) (g : Option (Fin 2)) (s : State) : Host.Outcome State Fault Refusal :=
  let m : BitVec 4 := match g with
    | some g => 1#4 <<< (2 * pr.val + g.val)
    | none => 3#4 <<< (2 * pr.val)
  let s := s.unsched fun e => decide (e.ev = Ev.pairLinkLoss pr)
  let s := s.linksChange fun s => { s with pairUp := s.pairUp ||| m, pairLost := s.pairLost.put pr.val false }
  .next (s.barriers.foldl (fun s e => s.barrierCheck e.1) s)

end Sys2Proof.Machine
end

