-- ==== Sys2Proof/Machine/Place.lean ====
section
/-! DEFINITION. The deadline scheduler (05 R117 to R122; 17 R396): the order of a group, placement, pre-emption requests, the launch path with its refusals (07 R182 to R185), sister launches (07 R181), waking and gating of clusters (01 R29, R30). -/

namespace Sys2Proof.Machine

/-! Orders -/

/-- The ready key (R118). -/
def Task.key (t : Task) : List Nat :=
  [if t.cls < 2 then 0 else if t.cls = 2 then 1 else 2, t.dord, t.cls, t.r, t.session, t.stream, t.period]

/-- Tasks of a placement group by number: those of its streams, and system and bulk tasks placed there. -/
def State.onGroup (s : State) (g : Nat) : List (Nat × Task) := s.tasks.filter fun e => e.2.group = g && (e.2.team ≠ 0 || decide (e.2.cls < 2))
/-- Tasks that stand on a group: in Placing, Running or Draining. -/
def Task.placed (t : Task) : Bool := t.st = .placing || t.st = .running || t.st = .draining
/-- A band-0 task is ready or running on a group (R118, R119). -/
def State.band0 (s : State) (g : Nat) : Bool :=
  (s.onGroup g).any fun e => decide (e.2.cls < 2) && (e.2.placed || e.2.st = .ready || e.2.st = .parked)

/-- The earliest of a list of tasks by key. -/
def headOf (l : List (Nat × Task)) : Option (Nat × Task) := leastBy (fun a b => lexLt a.2.key b.2.key) l

/-! Clusters: gating and waking (R29, R30) -/

/-- The idle time after which a die gates its clusters, in cycles. -/
def State.gateIdle (s : State) (die : Nat) : Nat := s.getF DLS_PWR_CFG.GATEIDLE die * 4000
/-- A cluster's idle time may end in gating. -/
def State.armGate (s : State) (cl : Nat) : State :=
  let d := cl / 12
  if s.gateIdle d = 0 || (s.cluster cl).gated then s
  else s.sched (max (s.now + 1) ((s.cluster cl).idleSince + s.gateIdle d)) phDls (.clusterGate (Fin.ofNat 48 cl))
/-- Clusters of which no context holds a task any more are idle from now. Once the tick runs, every idle cluster has its
gating due, those that never held a task among them. -/
def State.idleClusters (s : State) : State :=
  (List.range 48).foldl (fun s cl =>
    let was := (s.cluster cl).busy
    let now := s.clusterBusy cl
    let s := if was = now then s
      else s.modCluster cl fun c => { c with busy := now, idleSince := if now then c.idleSince else s.now }
    if now || s.tickBase.isNone || s.due (.clusterGate (Fin.ofNat 48 cl)) then s else s.armGate cl) s

/-- CLUSTER_GATE (R29): the idle time has reached GATEIDLE. -/
def execClusterGate (c : Cluster) (s : State) : Host.Outcome State Fault Refusal :=
  let k := s.cluster c.val
  let d := c.val / 12
  if k.gated || s.clusterBusy c.val || s.gateIdle d = 0 then .next s
  else if s.now < k.idleSince + s.gateIdle d then .next (s.armGate c.val)
  else .next (s.gate c.val)

/-! The launch path (R87) -/

/-- A gated cluster starts to wake, unless it is waking (R30, R120). -/
def State.wake (s : State) (cl : Nat) : State :=
  let k := s.cluster cl
  if k.gated && k.wakingTo.isNone then
    (s.modCluster cl fun c => { c with wakingTo := some (s.now + 8000) }).sched (s.now + 8000) phDls (.wakeComplete (Fin.ofNat 48 cl))
  else s

/-- A task of STREAM that is placed on an armed cluster is the one to be measured, unless one placed before still stands
there (R189). -/
def State.rplPlaced (s : State) (id : Nat) : State :=
  let t := s.task id
  let r := (s.cluster (t.group / 8)).rpl
  if r.armed && s.getF CCC_RPL_CTL.STREAM (t.group / 8) = t.stream && (r.next.all fun u => !(s.task u).resident) then
    s.modCluster (t.group / 8) fun c => { c with rpl := { c.rpl with next := some id } }
  else s

/-- The launch path of a task starts: after the wake of a gated cluster (R30, R120); the header has been read and the
occupancies are taken 96 ticks in, and the first bundle issues after 200. -/
def State.startPath (s : State) (id : Nat) : State :=
  let t := s.task id
  let cl := t.group / 8
  let s := s.wake cl
  let from_ := match (s.cluster cl).wakingTo with | some w => max s.now w | none => s.now
  let s := s.modTask id fun t => 
    { t with st := .placing, run := .off, resume := false, occ := false, hdrWait := false
             team := if t.cls < 2 then natAt t.var.hdr 3 1 else t.team }
  (s.rplPlaced id).sched (from_ + 96) phDls (.taskLaunch id)

/-- Clusters of a die that a partition owns. -/
def State.ownsCluster (s : State) (part cl : Nat) : Bool := bit (s.csrVal .PRT_CLUSTERS part).toNat cl

/-- WAKE_COMPLETE (R30, R119). -/
def execWakeComplete (c : Cluster) (s : State) : Host.Outcome State Fault Refusal :=
  let s := (s.modCluster c.val fun k => { k with gated := false, wakingTo := none, idleSince := s.now }).fillPins c.val
  .next ((List.range 16).foldl (fun s p => if s.ownsCluster p c.val then s.reconsider p else s) s)

/-- A task in Placing is withdrawn (R121): it returns to Ready, its occupancies to their pools. -/
def State.withdraw (s : State) (id : Nat) : State :=
  ((s.stopTask id).leaveGroup id).modTask id fun t =>
    { t with st := .ready, run := .off, occ := false, hdrWait := false, preemptReq := false, team := if t.cls < 2 then t.team else 0 }

/-- A launch is refused (R126, R185): OUTCOME 1, with its record and status. -/
def State.refuse (s : State) (id code : Nat) : State :=
  let s := s.stopTask id
  let s := s.modTask id fun t => { t with started := false }
  let s := (s.appendRecord id 1 code).taskStatus id 1 code
  s.retire id .refused

/-- Sisters of a launch are refused together with 0x030B (R181). -/
def State.refuseLaunch (s : State) (id code : Nat) : State :=
  match (s.task id).launch with
  | none => s.refuse id code
  | some l =>
    let x := s.launches.look l
    if x.refused then s
    else
      let s := { s with launches := s.launches.upd l fun x => { x with refused := true } }
      x.tasks.foldl (fun s u => match (s.task u).st with
        | .committed | .aborted | .refused => s
        | _ => s.refuse u 0x030B) s

/-- Profile bound to a task with a header (R184). -/
def Task.bound (t : Task) (h : List Byte) : Nat := if t.profile ≠ 0 then t.profile % 4096 else natAt h 4 2

/-- The first refusal cause of a system or bulk launch on its group (R185), or 0. -/
def State.refusal (s : State) (t : Task) (k : Kernel) (ok : Bool) : Nat :=
  let team := natAt k.hdr 3 1
  if !ok then 0x0301
  else if !published (t.bound k.hdr) then 0x0302
  else if hdrFused k.hdr ≠ s.fused t.group then 0x0303
  else if !s.banksFree t.group team (natAt k.hdr 24 2) none then 0x0304
  else
    match s.overruns (demandOf t.die t.part t.group team k.hdr) s.levelOf with
    | c :: _ => c
    | [] => if (s.spadFits t.group team (natAt k.hdr 6 2 * 1024)).isNone then 0x030C else 0

/-- The occupancies of a system or bulk launch are taken, or it is refused (R182, R185); a sister reports (R181). -/
def State.occupy (s : State) (id : Nat) : State :=
  let t := s.task id
  match s.readKernel t.die t.part t.var.kernel with
  | none => s.refuseLaunch id 0x0301
  | some (k, ok) =>
    let c := s.refusal t k ok
    if c ≠ 0 then s.refuseLaunch id c
    else
      let team := natAt k.hdr 3 1
      let bases := (s.spadFits t.group team (natAt k.hdr 6 2 * 1024)).getD []
      let s := s.modTask id fun t =>
        { t with occ := true, hdr := k.hdr, btt := k.btt, dst := k.dst, team := team, spadBase := bases
                 profile := t.bound k.hdr, hdrVa := t.var.kernel }
      match t.launch with
      | some l =>
        if s.joined t.die (s.task ((s.launches.look l).tasks.headD id)).die then
          s.schedWithin 480 phDls (.sisterReport l (Fin.ofNat 4 t.srk) true)
        else s.refuseLaunch id 0x030B
      | none => s.sched (s.now + 101) phDls (.taskLaunch id)

/-- The header of a fast or slow task has been read (R179): its variant's kernel, as the control core reads it. Its team and
its scratchpad are those that its stream has reserved; of a header that no longer reads well, the one read at registration
stands, for such a launch is never refused (R185). -/
def State.loadVariant (s : State) (id : Nat) : State :=
  let t := s.task id
  let st := s.stream t.die t.stream
  let k := match s.readKernel t.die t.part t.var.kernel with
    | some (k, true) => k
    | some (k, false) => { k with hdr := t.var.hdr }
    | none => { hdr := t.var.hdr }
  (s.modTask id fun t =>
    { t with occ := true, hdr := k.hdr, btt := k.btt, dst := k.dst, team := natAt t.var.hdr 3 1
             spadBase := st.spadBase, profile := t.bound k.hdr, hdrVa := t.var.kernel }).sched (s.now + 101) phDls (.taskLaunch id)

/-- Where a kernel header lies, when it lies in the module. -/
def State.kernelAt (s : State) (die part va : Nat) : Option Nat :=
  let x := s.agentXlate die part va 0
  let pa := x.2.pa va
  if x.1 ≠ 0 || isHost pa || paD pa then none else some pa
/-- Where a task's header lies, when it lies in the module. -/
def State.headerAt (s : State) (t : Task) : Option Nat := s.kernelAt t.die t.part t.var.kernel
/-- A header that has been read is in the partition's LLC ways (R87). -/
def State.headerIn (s : State) (die part va : Nat) : State :=
  match s.kernelAt die part va with
  | some pa => if s.llcHas die part pa 128 then s else s.llcFill die part pa 0 (whole true) (s.fillLine die part pa)
  | none => s

/-- The header is not in the partition's LLC ways: the path waits for its service by HBM (R87). -/
def State.headerAway (s : State) (t : Task) : Bool :=
  !t.hdrWait && (match s.headerAt t with | some pa => !s.llcHas t.die t.part pa 128 | none => false)

/-- The first line to fetch is read once the occupancies are taken, 64 ticks before the first bundle is distributed (R87). -/
def State.firstLine (s : State) (id : Nat) : State :=
  let t := s.task id
  if !t.occ || t.st ≠ .placing then s
  else
    let s := s.modTask id fun t => { t with pc := BitVec.ofNat 64 t.codeBase }
    let line := (s.task id).codeBase / 128
    if (s.lineData (t.group / 8) t.part line).isSome then s
    else s.askLine (t.group / 8) t.part line fun s ev => s.schedWithin 64 phMem ev

/-- TASK_LAUNCH (R87, R126): first the header, with its service by HBM where the LLC lacks it, the occupancies and the first
line; at the end of the path the context waits for its group, as one that has become eligible, three ticks before its
bundle issues (R174, R405). -/
def execTaskLaunch (id : Nat) (s : State) : Host.Outcome State Fault Refusal :=
  let t := s.task id
  if t.st ≠ .placing then .next s
  else if !t.occ then
    if s.headerAway t then
      .next ((s.modTask id fun t => { t with hdrWait := true }).hbmTask (stackOf ((s.headerAt t).getD 0)) id 128 (some (.taskLaunch id)))
    else
      let s := match s.headerAt t with
        | some pa => if t.hdrWait then s.llcFill t.die t.part pa 0 (whole true) (s.fillLine t.die t.part pa) else s
        | none => s
      .next ((if t.cls < 2 then s.loadVariant id else (s.taskBoundary t.die).occupy id).firstLine id)
  else
    let s := s.taskBoundary t.die
    .next ((s.modTask id fun t => { t with run := .eligible, eligTick := s.now, cnt := 0 }).sched s.now phChoice (.contextEligible id))

/-- SISTER_REPORT (R181): with every report in, the common start tick is 512 ticks on; a refusal refuses the launch. -/
def execSisterReport (launch : Nat) (rank : Fin 4) (ok : Bool) (s : State) : Host.Outcome State Fault Refusal :=
  let x := s.launches.look launch
  if x.refused then .next s
  else if !ok then .next (s.refuseLaunch (x.tasks.getD rank.val (x.tasks.headD 0)) 0x030B)
  else
    let n := x.reports + 1
    let s := { s with launches := s.launches.upd launch fun x => { x with reports := n } }
    if n < x.tasks.length then .next s
    else
      let s := { s with launches := s.launches.upd launch fun x => { x with start := some (s.tick + 512) } }
      .next (x.tasks.foldl (fun s u => s.sched (s.now + 509) phDls (.taskLaunch u)) s)

/-- A launch that has lost a sister before its start, with her stream or her die, is refused with the others
(notes/assumptions/89.md). -/
def State.launchBroken (s : State) (id : Nat) : State :=
  match (s.task id).launch with
  | some l => if (s.launches.look l).start.isNone then s.refuseLaunch id 0x030B else s
  | none => s

/-- A sister of a launch on another die (R181): a release of the same stream number, with the launch's own tick and deadline,
which its policing has settled. -/
def State.sister (s : State) (d n : Nat) (t : Task) (l rank nsr : Nat) : Nat × State :=
  let st := s.stream d n
  let (id, s) := s.newId
  let u : Task :=
    { die := d, part := st.part, stream := n, session := st.session, cls := st.cls, period := st.nextPeriod % 2 ^ 64
      r := t.r, dord := t.dord, dabort := t.dabort, late := t.late, level := s.levelOf d st.session, group := st.group
      ctx := st.ctx, var := t.var, args := t.args, profile := t.profile, launch := some l, srk := rank, nsr := nsr }
  let s := { s with tasks := s.tasks.put id u }
  (id, (s.modStream d n fun st => { st with nextPeriod := st.nextPeriod + 1, prevRel := some t.r, lastTask := id }).schedTick
    t.r phReady (.taskReady id))

/-- A launch with a level of KIND 2 expands into its sisters, each a release of the same stream number (R181). -/
def State.expand (s : State) (id n : Nat) : State :=
  let t := s.task id
  let (l, s) := s.newId
  let s := { s with launches := s.launches.put l { tasks := [id] } }
  let s := s.modTask id fun t => { t with launch := some l, srk := 0, nsr := n }
  (List.range (n - 1)).foldl (fun s i =>
    let d := (t.die + i + 1) % 4
    let st := s.stream d t.stream
    if (s.launches.look l).refused then s
    else if !s.joined t.die d || !(st.valid && !st.leaving && st.part = t.part && decide (2 ≤ st.cls)) then s.refuseLaunch id 0x030B
    else
      let (u, s) := s.sister d t.stream t l (i + 1) n
      { s with launches := s.launches.upd l fun x => { x with tasks := x.tasks ++ [u] } }) s

/-! Placement of system and bulk tasks (R119) -/

/-- The lowest context number free on cores of a span: no stream keeps it, no task holds it, its last writes have
landed. -/
def State.freeCtx (s : State) (g n : Nat) : Option Nat :=
  (List.range 8).find? fun x =>
    (List.range n).all fun i =>
      s.ctxFree (g + i) x && !(s.reserved.any fun p => p.2.ctx = x && meet p.2.group p.2.gsize (g + i) 1)

/-- Cost of a group for a task with a header, none where it is no candidate (R119, and capping step 1 of R25). -/
def State.placeCost (s : State) (t : Task) (h : List Byte) (g : Nat) : Option Nat :=
  let cl := g / 8
  let capped := 1 ≤ (s.die t.die).capStep &&
    some cl ≠ (List.range 12).findSome? fun c => if s.ownsCluster t.part (12 * t.die + c) then some (12 * t.die + c) else none
  if s.getF ADM_GRP.EN g = 0 || !s.ownsCluster t.part cl || s.groupSize g < natAt h 3 1 ||
      s.getF ADM_GRP.BPGAP g < natAt h 16 4 || (s.freeCtx g (natAt h 3 1)).isNone || capped then none
  else if (s.cluster cl).gated then some 8000
  else if s.band0 g then none
  else some 0

/-- The candidate of least cost, the lowest group on a tie. -/
def State.bestGroup (s : State) (t : Task) (h : List Byte) : Option Nat :=
  let l := (List.range 96).filterMap fun i => (s.placeCost t h (96 * t.die + i)).map fun c => (c, 96 * t.die + i)
  (leastBy (fun a b => lexLt [a.1, a.2] [b.1, b.2]) l).map (·.2)

/-- A ready system or bulk task is placed where R119 puts it; one whose header is malformed goes to its refusal; one with
sisters expands first. -/
def State.placeOne (s : State) (id : Nat) : State :=
  let t := s.task id
  match s.vread t.die t.part t.var.kernel 128 0 with
  | none => s.refuseLaunch id 0x0301
  | some h =>
    if !headerOk t.var.kernel h then s.refuseLaunch id 0x0301
    else
      let s := if 1 < hdrSisters h && t.launch.isNone then s.expand id (hdrSisters h) else s
      if (s.task id).st ≠ .ready then s
      else
        match s.bestGroup t h with
        | none => s.modTask id fun t => { t with unplaced := true }
        | some g =>
          let ctx := (s.freeCtx g (natAt h 3 1)).getD 7
          (s.modTask id fun t => { t with group := g, ctx := ctx, team := natAt h 3 1, hdr := h }).startPath id

/-- An evicted task re-enters placement on its own cores, in the lowest free context (R121, R208), once they are awake
(R120). -/
def State.placeEvicted (s : State) (id : Nat) : State :=
  let t := s.task id
  if s.band0 t.group then s
  else if (s.cluster (t.group / 8)).gated then s.wake (t.group / 8)
  else
    match s.freeCtx t.group t.team with
    | none => s
    | some x => s.modTask id fun t => { t with st := .placing, ctx := x, run := .eligible, resume := true, eligTick := s.now, cnt := 0 }

/-! Groups -/

/-- What the head of a group does to a task of a later key that stands there (R121). -/
def State.preempt (s : State) (id : Nat) : State :=
  let t := s.task id
  match t.st with
  | .placing => if t.resume then s.modTask id fun t => { t with st := .evicted, run := .off, resume := false } else s.withdraw id
  | .running =>
    match t.run with
    | .sending | .holding | .restoring => s.modTask id fun t => { t with preemptReq := true }
    | .yielded => s.modTask id fun t => { t with preemptReq := true }
    | .blocked | .eligible =>
      if t.resume then s.modTask id fun t => { t with st := .parked, run := .off, resume := false }
      else s.beginDrain id none 1
    | _ => s
  | _ => s

/-- A system or bulk task that holds the context which a fast or slow task needs is evicted (R121): the contexts of a stream
are fixed, so no other eviction would free them (DEDUCED, notes/assumptions/77.md). -/
def State.evictFor (s : State) (h : Task) : State :=
  let l := s.tasks.filter fun e =>
    e.2.resident && decide (2 ≤ e.2.cls) && e.2.ctx = h.ctx && meet e.2.group e.2.team h.group (max 1 (s.stream h.die h.stream).gsize)
  l.foldl (fun s e =>
    match e.2.st with
    | .parked =>
      let s := s.modTask e.1 fun t =>
        { t with st := .draining, run := .draining, evicting := true, resume := true, stubEnd := t.lc, drainFrom := t.lc, drainHold := 0 }
      (s.modGroup e.2.group fun x => { x with running := x.running.or (some e.1) }).sched (s.now + 1) (phSend e.2.group) (.drainEnd e.1)
    | .draining | .running => s.modTask e.1 fun t => { t with evicting := true }
    | _ => s) s

/-- The cores that a fast or slow task needs have its context free (R126). -/
def State.roomFor (s : State) (h : Task) : Bool :=
  (List.range (max 1 (s.stream h.die h.stream).gsize)).all fun i => s.ctxFree (h.group + i) h.ctx

/-- Fast and slow tasks that wait for a group: ready, or parked and not held by a fault's service. -/
def State.waiting (s : State) (g : Nat) : List (Nat × Task) :=
  (s.onGroup g).filter fun e => decide (e.2.cls < 2) && (e.2.st = .ready || (e.2.st = .parked && !e.2.awaitSvc))

/-- A pre-emption asked of a running task falls away when no earlier task waits for its group any more, be it on its launch
path already (R121, R126). -/
def State.recall (s : State) (g : Nat) : State :=
  let head := headOf (s.waiting g ++ (s.onGroup g).filter fun e => decide (e.2.cls < 2) && (e.2.st = .placing || e.2.st = .running))
  ((s.onGroup g).filter fun e => e.2.st = .running && (e.2.preemptReq || e.2.evicting) &&
    !(match head with | some h => lexLt h.2.key e.2.key | none => false)).foldl
    (fun s e => s.modTask e.1 fun t => { t with preemptReq := false, evicting := false }) s

/-- Placement and pre-emption decisions of a group (R117 step 5, R121, R396). -/
def State.dlsGroup (s : State) (g : Nat) : State :=
  let s := s.recall g
  let l := s.onGroup g
  match headOf (s.waiting g) with
  | some (id, h) =>
    if l.any fun e => e.2.placed && lexLt e.2.key h.key then s
    else
      let s := (l.filter fun e => e.2.placed).foldl (fun s e => s.preempt e.1) s
      let s := s.evictFor h
      if h.st = .parked then
        (s.modGroup g fun x => { x with freeAt := max x.freeAt (s.now + 3) }).modTask id fun t =>
          { t with st := .running, run := .eligible, resume := true, eligTick := s.now, cnt := 0 }
      else if s.roomFor h then s.startPath id
      else s
  | none =>
    if l.any fun e => decide (e.2.cls < 2) && e.2.placed then s
    else
      (l.filter fun e => e.2.st = .parked && !e.2.awaitSvc).foldl (fun s e =>
        s.modTask e.1 fun t => { t with st := .running, run := .eligible, resume := true, eligTick := s.now, cnt := 0 }) s

/-- Groups on which tasks stand or wait. -/
def State.groupsInUse (s : State) : List Nat :=
  (s.tasks.filter fun e => match e.2.st with
    | .ready | .placing | .running | .draining | .parked => e.2.team ≠ 0 || decide (e.2.cls < 2)
    | _ => false).map (·.2.group) |>.eraseDups

/-- Tasks in a state, in key order. -/
def State.inOrder (s : State) (f : Task → Bool) : List Nat :=
  ((s.tasks.filter fun e => f e.2).foldl (fun (acc : List (Nat × Task)) e =>
    (acc.takeWhile fun y => !lexLt e.2.key y.2.key) ++ [e] ++ (acc.dropWhile fun y => !lexLt e.2.key y.2.key)) []).map (·.1)

/-- The placement step of every die (R117 step 5); a frozen or stopped die dispatches nothing (R27). -/
def State.dls (s : State) : State :=
  let live (d : Nat) : Bool := (s.die d).frozen.isNone && !(s.die d).stopped
  let s := (s.groupsInUse.filter fun g => live (g / 96)).foldl (fun s g => s.dlsGroup g) s
  let s := (s.inOrder fun t => t.st = .ready && decide (2 ≤ t.cls) && !t.unplaced && live t.die).foldl (fun s id => s.placeOne id) s
  (s.inOrder fun t => t.st = .evicted && !t.awaitSvc && live t.die).foldl (fun s id => s.placeEvicted id) s

end Sys2Proof.Machine
end

