-- ==== Sys2Proof/Machine/Admission.lean ====
section
/-! DEFINITION. The admission unit (05 R104 to R114): descriptors, the tests of a level, registration and deregistration; the lowering of a session's level (R128). -/

namespace Sys2Proof.Machine

/-! Descriptors (R107, R108) -/

/-- A GROUP field: cluster, base core, log2 of the size. -/
def grpCluster (g : Nat) : Nat := bits g 3 0
def grpBase (g : Nat) : Nat := bits g 6 4
def grpSize (g : Nat) : Nat := bits g 8 7
/-- A GROUP field's reserved bits are zero (R107). -/
def grpOk (g : Nat) : Bool := bits g 15 9 = 0
/-- The group of a die that a GROUP field names; a field that names none of the 384 gives a number beyond them, which no
ADM_GRP enables (R109). -/
def grpIndex (die g : Nat) : Nat :=
  if grpCluster g < 12 && grpBase g % 2 ^ grpSize g = 0 then 96 * die + 8 * grpCluster g + grpBase g else 384 + g

/-- Variant L of a descriptor. -/
def variantAt (d : List Byte) (l : Nat) : Variant :=
  let o := 64 + 48 * l
  { kernel := natAt d o 8, tlen := natAt d (o + 8) 4, hold := natAt d (o + 12) 4, pgap := natAt d (o + 16) 4
    spad := natAt d (o + 20) 4, slots := (List.range 8).map fun j => natAt d (o + 24 + 2 * j) 2 }
/-- Variant L has its fields in range. -/
def variantOk (d : List Byte) (l : Nat) : Bool :=
  let v := variantAt d l
  decide (1 ≤ v.pgap ∧ v.pgap ≤ max v.tlen 1) && decide (v.spad ≤ 2048) && v.slots.all (fun n => decide (n ≤ 512)) &&
  zerosAt d (64 + 48 * l + 40) 8

/-- The levels whose variants a class reads. -/
def levelsRead (cls : Nat) : Nat := if cls = 0 then 4 else if cls = 1 then 2 else 1
/-- The variant that level l uses. -/
def variantFor (d : List Byte) (cls : Nat) : Nat → Variant
  | 0 => variantAt d 0
  | l + 1 => if levelsRead cls ≤ l + 1 || natAt d (64 + 48 * (l + 1)) 8 = 0 then variantFor d cls l else variantAt d (l + 1)

/-- A descriptor is well formed (R107, R108). Of a variant whose KERNEL is zero, which another stands for, no other field is
checked (DESIGN CHOICE, notes/assumptions/76.md). -/
def descOk (d : List Byte) : Bool :=
  let cls := natAt d 1 1
  let fl := natAt d 2 1
  let shadow := bit fl 1
  let rt := decide (cls < 2)
  d.length = 256 && decide (cls < 4) && decide (fl < 4) && zerosAt d 3 1 && zerosAt d 32 32 &&
  (!rt || (grpOk (natAt d 4 2) && (if shadow then grpOk (natAt d 6 2) else natAt d 6 2 = 0))) && (!shadow || cls = 0) &&
  decide (10000 ≤ natAt d 8 8 ∧ natAt d 8 8 ≤ 60000000000) && decide (1 ≤ natAt d 16 8 ∧ natAt d 16 8 ≤ natAt d 8 8) &&
  (!shadow || decide (200000 ≤ natAt d 16 8)) && (bit fl 0 || natAt d 24 8 = 0) && natAt d 64 8 ≠ 0 &&
  (List.range (levelsRead cls)).all fun l => natAt d (64 + 48 * l) 8 = 0 || variantOk d l

/-- A variant exceeds another in a demand (R108). -/
def variantRises (a b : Variant) : Bool :=
  decide (a.tlen + a.hold < b.tlen + b.hold) || decide (a.pgap < b.pgap) || decide (a.spad < b.spad) ||
  (List.range 8).any fun j => decide (a.slots.getD j 0 < b.slots.getD j 0)

/-- The stream that a descriptor asks for on a die; `pgroup` gives the copy on the partner. -/
def streamOf (d : List Byte) (die part : Nat) (pgroup : Bool) : Stream :=
  let cls := natAt d 1 1
  let g := natAt d (if pgroup then 6 else 4) 2
  let rt := decide (cls < 2)
  { valid := true, part := part, session := natAt d 0 1, cls := cls, timer := bit (natAt d 2 1) 0, shadow := bit (natAt d 2 1) 1
    copy := pgroup, group := if rt then grpIndex die g else 0, gsize := if rt then 2 ^ grpSize g else 0
    period := natAt d 8 8, rdl := natAt d 16 8, phase := natAt d 24 8
    vars := (List.range 4).map (variantFor d cls) }

/-! Kernel headers of the variants (R108, R111, R141) -/

/-- SWITCH of a die as it acts. -/
def State.switchOf (s : State) (die : Nat) : Nat := max 1 (s.getF ADM_CFG.SWITCH die)

/-- A kernel header disagrees with its variant or its place: cause 0x010C. -/
def State.hdrBad (s : State) (die : Nat) (st : Stream) (v : Variant) (h : List Byte) : Bool :=
  let rt := decide (st.cls < 2)
  natAt h 8 4 ≠ v.tlen || natAt h 12 4 ≠ v.hold || decide (s.switchOf die < natAt h 20 2 + natAt h 22 2) ||
  (rt && (decide (st.gsize < natAt h 3 1) || !published (natAt h 4 2) || hdrDynamic h || decide (1 < hdrSisters h) ||
    hdrFused h ≠ s.fused st.group))

/-- The variants with their headers as read, or the reason of a refusal. -/
def State.readVariants (s : State) (die : Nat) (st : Stream) : Nat ⊕ List Variant :=
  (st.vars.take (levelsRead st.cls)).foldl (fun acc v =>
    match acc with
    | .inl c => .inl c
    | .inr l =>
      match s.readKernel die st.part v.kernel with
      | none => .inl 0x010F
      | some (k, ok) => if !ok || s.hdrBad die st v k.hdr then .inl 0x010C else .inr (l ++ [{ v with hdr := k.hdr }])) (.inr [])

/-! Density (R110, R111) -/

/-- Worst-case duration of a variant. -/
def Variant.wcd (v : Variant) : Nat := v.tlen + v.hold + 8000 + 200
/-- A stream's relative deadline in ticks. -/
def Stream.deadline (st : Stream) : Nat := durTicks st.rdl - (if st.shadow then 400480 else 0)
/-- The terms of a group: variant and deadline of each stream that counts, under levels by session. -/
def State.groupTerms (s : State) (g : Nat) (extra : List Stream) (lv : Nat → Nat) : List (Variant × Nat) :=
  let own := (s.streams.filter fun e => e.1 / 1024 = g / 96 && e.2.valid && decide (e.2.cls < 2)).map (·.2)
  ((own ++ extra).filter fun st => st.group = g && !(st.cls = 1 && decide (2 ≤ lv st.session))).map fun st =>
    (st.at_ (lv st.session), st.deadline)
/-- The density sum of a group. -/
def State.density (s : State) (g : Nat) (extra : List Stream) (lv : Nat → Nat) : Nat :=
  let l := s.groupTerms g extra lv
  match leastBy (fun a b => decide (a < b)) (l.map (·.2)) with
  | none => 0
  | some d =>
    let b := max ((l.map fun p => p.1.pgap).foldl max 0) (s.getF ADM_GRP.BPGAP g) + s.switchOf (g / 96)
    (l.map fun p => ceilDiv (1000000 * p.1.wcd) p.2).foldl (· + ·) 0 + ceilDiv (1000000 * b) d
/-- UMAX of a die as it acts. -/
def State.umax (s : State) (die : Nat) : Nat := min 1000000 (s.getF ADM_CFG.UMAX die)

/-! Slots (R112) -/

/-- SLOTS of a stream on a stack at its session's level. -/
def slotsAt (st : Stream) (j : Nat) (lv : Nat) : Nat := if st.cls = 1 && 2 ≤ lv then 0 else (st.at_ lv).slots.getD j 0
/-- Slots of a class reserved on a stack: of streams, by die and session levels, and of fabric arrivals; of one partition
or of all. -/
def State.slotSum (s : State) (j cls : Nat) (extra : List (Nat × Stream)) (lv : Nat → Nat → Nat) (part : Option Nat) : Nat :=
  let own := (s.streams.filter fun e => e.2.valid).map fun e => (e.1 / 1024, e.2)
  let mine (p : Nat) : Bool := match part with | some q => p = q | none => true
  (((own ++ extra).filter fun e => e.2.cls = cls && mine e.2.part).map fun e => slotsAt e.2 j (lv e.1 e.2.session)).foldl (· + ·) 0 +
  (((List.range 16).filter mine).map fun p =>
    min 512 (s.getF (if cls = 0 then BWS_FAB_IN.FAST else BWS_FAB_IN.SLOW) (16 * j + p))).foldl (· + ·) 0

/-! The tests of a level -/

/-- Levels of a die's sessions, with one session at a level under test. -/
def State.levelsWith (s : State) (session level : Nat) (dies : List Nat) (d x : Nat) : Nat :=
  if x = session && dies.contains d then level else s.levelOf d x

/-- Groups of a session's streams on a die. -/
def State.sessionGroups (s : State) (die session : Nat) : List Nat :=
  (s.streams.filter fun e => e.1 / 1024 = die && e.2.valid && e.2.session = session && decide (e.2.cls < 2)).map (·.2.group)

/-- First failing test among density, slots and caps of a session at a level, with new streams, or 0 (R111, R112). -/
def State.loadTest (s : State) (part session level : Nat) (new : List (Nat × Stream)) (dies : List Nat) : Nat :=
  let lv := s.levelsWith session level dies
  let dense := dies.any fun d =>
    let extra := (new.filter (·.1 = d)).map (·.2)
    ((extra.map (·.group) ++ s.sessionGroups d session).eraseDups).any fun g => decide (s.umax d < s.density g extra (lv d))
  let past (cls : Nat) (f : CsrField) : Bool := (List.range 8).any fun j => decide (s.getF f j < s.slotSum j cls new lv none)
  let cap (cls : Nat) (f : CsrField) : Bool := (List.range 8).any fun j =>
    decide (min 512 (s.getF f (16 * j + part)) < s.slotSum j cls new lv (some part))
  if dense then 0x0101
  else if past 0 BWS_FRAME_CFG.FAST then 0x0102
  else if past 1 BWS_FRAME_CFG.SLOW then 0x0103
  else if cap 0 BWS_PRT_CAP.FASTMAX || cap 1 BWS_PRT_CAP.SLOWMAX then 0x0104
  else 0

/-- The lowest context number free on every core of a group, below 7, where at most 7 streams hold contexts (R112). Where
system and bulk tasks leave none free, it is the lowest that no stream has; R121 evicts them from it (DEDUCED,
notes/assumptions/77.md). -/
def State.ctxFor (s : State) (st : Stream) : Option Nat :=
  let on (i : Nat) : List Nat := (s.reserved.filter fun p => meet p.2.group p.2.gsize (st.group + i) 1).map (·.2.ctx)
  let open_ (x : Nat) : Bool := (List.range st.gsize).all fun i => !(on i).contains x
  if (List.range st.gsize).any fun i => decide (7 ≤ (on i).length) then none
  else ((List.range 7).find? fun x => open_ x && (List.range st.gsize).all fun i => s.ctxFree (st.group + i) x).or
    ((List.range 7).find? open_)

/-- A stream number that a registration which has passed its test will take. -/
def State.passedNumber (s : State) (d n : Nat) : Bool :=
  [d, partnerOf d].any fun x => match (s.die x).regTest with
    | some a => a.code = 0 && a.stream = n && (x = d || a.copy.isSome)
    | none => false

/-- Whether a group of a die that a partition owns is enabled as a stream names it (R109). -/
def State.groupNamed (s : State) (st : Stream) : Bool :=
  decide (st.group < 384) && s.ownsCluster st.part (st.group / 8) && s.getF ADM_GRP.EN st.group = 1 && s.groupSize st.group = st.gsize

/-- Whether n bytes from an address lie in Locked ranges of a partition on a die (R113, R151). -/
def State.lockedRange (s : State) (die part va n : Nat) : Bool :=
  (pagesOf va n).all fun p => (List.range 16).any fun i =>
    let k := 256 * die + 16 * part + i
    s.getF PRT_LOCK.STATE k = 2 &&
    decide (s.getF PRT_LOCK.BASE k ≤ p.1 / 65536 ∧ p.1 / 65536 < s.getF PRT_LOCK.BASE k + s.getF PRT_LOCK.SIZE k)

/-- First failing test of a fast or slow stream's place on a die with the sessions at levels, in the order of R114, or 0. -/
def State.placeTest (s : State) (die : Nat) (st : Stream) (lv : Nat → Nat → Nat) : Nat :=
  let kib (core : Nat) : Nat :=
    ((s.reserved.map fun p => if meet p.2.group p.2.gsize core 1 then p.2.spadBytes / 1024 else 0).foldl (· + ·) 0) +
      st.spadBytes / 1024 + min 2048 (s.getF ADM_CFG.BULKSPAD die)
  if (List.range st.gsize).any (fun i => decide (2048 < kib (st.group + i))) || (s.spadFits st.group st.gsize st.spadBytes).isNone then
    0x0105
  else if (s.ctxFor st).isNone then 0x0106
  else if !(s.overruns (streamDemand die st (lv die st.session)) lv).isEmpty ||
      !s.banksFree st.group st.gsize ((st.kernels.map fun v => natAt v.hdr 24 2).foldl Nat.lor 0) (some st.group) then 0x0107
  else if !s.groupNamed st then 0x010A
  else if st.cls = 0 && !(st.kernels.all fun v => s.lockedRange die st.part v.kernel (imageBytes v.hdr)) then 0x010B
  else 0

/-- An enabled group of the partition on a die is as large as a team (R112). -/
def State.teamFits (s : State) (die part team : Nat) : Bool :=
  (List.range 96).any fun i =>
    let g := 96 * die + i
    s.getF ADM_GRP.EN g = 1 && s.ownsCluster part (g / 8) && decide (team ≤ s.groupSize g)

/-- Lowest stream number free on the dies that register. -/
def State.streamFree (s : State) (dies : List Nat) : Option Nat :=
  firstFrom (fun n => dies.all fun d => !(s.stream d n).valid && !(s.passedNumber d n)) 1024 0

/-- The partner die can take the copy of a shadowed stream (R23, R105, R108, R129): a path to it, its session, no other fast
stream there, headers that agree with its SWITCH, group and L1s. -/
def State.partnerOk (s : State) (die : Nat) (c : Stream) : Bool :=
  let p := partnerOf die
  let kp := 256 * p + c.session
  s.joined die p && !s.hasStream p c.session 0 && !(c.kernels.any fun v => s.hdrBad p c v v.hdr) &&
  !(s.getF DLS_SES.VALID kp = 1 && s.getF DLS_SES.PRT kp ≠ c.part)

/-- First failing test of new streams of a session at a level, or 0 (R114). -/
def State.admTest (s : State) (die level : Nat) (st : Stream) (copy : Option Stream) : Nat :=
  let rt := decide (st.cls < 2)
  let dies := match copy with | some _ => [die, partnerOf die] | none => [die]
  let own : Nat :=
    if !rt then (if s.teamFits die st.part (natAt (st.vars.headD {}).hdr 3 1) then 0 else 0x0106)
    else
      let home := s.loadTest st.part st.session level [(die, st)] [die]
      if home ≠ 0 then home else s.placeTest die st (s.levelsWith st.session level [die])
  let k := 256 * die + st.session
  if own ≠ 0 && own < 0x010A then own
  else if s.getF DLS_SES.VALID k = 1 && s.getF DLS_SES.PRT k ≠ st.part then 0x010A
  else if own ≠ 0 then own
  else if (s.streamFree dies).isNone then 0x010D
  else
    match copy with
    | none => 0
    | some c =>
      let p := partnerOf die
      let both := s.loadTest st.part st.session level [(die, st), (p, c)] dies
      if both ≠ 0 || s.placeTest p c (s.levelsWith st.session level dies) ≠ 0 || !s.partnerOk die c then 0x010E else 0

/-- A stream with the context and the scratchpad ranges that it is to hold (R112, R133). -/
def State.seat (s : State) (st : Stream) : Stream :=
  if st.cls < 2 then
    { st with ctx := (s.ctxFor st).getD 0, spadBase := (s.spadFits st.group st.gsize st.spadBytes).getD [] }
  else st

/-- A registration is decided (R107 to R114). -/
def State.admissionOf (s : State) (die part va : Nat) : Admission :=
  let no (c : Nat) : Admission := { part := part, code := c }
  match s.vread die part va 256 0 with
  | none => no 0x010F
  | some d =>
    if !descOk d then no 0x0108
    else
      let st := streamOf d die part false
      if (List.range 3).any fun l => variantRises (st.vars.getD l {}) (st.vars.getD (l + 1) {}) then no 0x0109
      else
        match s.readVariants die st with
        | .inl c => no c
        | .inr vs =>
          if st.cls < 2 && s.hasStream die st.session st.cls then no 0x0110
          else
            let full (l : Nat) : Variant :=
              let v := st.vars.getD l {}
              (vs.find? fun w => w.kernel = v.kernel && w.tlen = v.tlen && w.hold = v.hold).getD { v with hdr := (vs.headD {}).hdr }
            let st := { st with vars := (List.range 4).map fun l => { st.vars.getD l {} with hdr := (full l).hdr } }
            let copy := if st.shadow then some { streamOf d (partnerOf die) part true with vars := st.vars } else none
            let top := if st.cls = 0 || s.hasStream die st.session 0 then 3 else 2
            let now := s.levelOf die st.session
            let levels := if st.cls < 2 then (List.range (max top now + 1 - now)).map (now + ·) else [now]
            let dies := if st.shadow then [die, partnerOf die] else [die]
            match levels.find? fun l => s.admTest die l st copy = 0 with
            | none => no (s.admTest die (levels.getLastD now) st copy)
            | some l =>
              { part := part, level := l, stream := (s.streamFree dies).getD 0, st := s.seat st, copy := copy.map s.seat }

/-- The admission unit takes the next registration; it ends within 50 µs of its GO, and leaves the ones behind it a tick each
(R107). -/
def State.nextTest (s : State) (die : Nat) : State :=
  let k := s.die die
  match k.regTest, k.regQ with
  | none, (p, va, go) :: rest =>
    (s.modDie die fun d => { d with regQ := rest, regTest := some (s.admissionOf die p va) }).schedWithin
      (max 1 (go + 200000 - s.now - rest.length)) phDls (.admissionComplete (Fin.ofNat 4 die))
  | _, _ => s

/-- A stream takes its place on a die: context, scratchpad ranges, session, timer (R104, R112, R133). The headers that
admission has read are in the LLC (notes/assumptions/94.md). -/
def State.install (s : State) (die n : Nat) (st : Stream) : State :=
  let k := 256 * die + st.session
  let now := s.deviceTime
  let first := if st.timer && decide (st.phase < now) then ceilDiv (now - st.phase) st.period else 0
  let s := s.modStream die n fun _ => { st with timerN := first }
  let s := (s.setF DLS_SES.VALID k 1).setF DLS_SES.PRT k st.part
  let s := if st.shadow then (s.setF DLS_SES.SHADOW k 1).setF DLS_SES.HOME k (if st.copy then 0 else 1) else s
  let s := (s.fitSpad die n).fillPins (st.group / 8)
  let s := st.kernels.foldl (fun s v => s.headerIn die st.part v.kernel) s
  if st.timer then s.schedTick (s.timerTick (s.stream die n)) phReady (.timerRelease (Fin.ofNat 4 die) (Fin.ofNat 1024 n)) else s

/-- ADMISSION_COMPLETE (R107, R114). -/
def execAdmissionComplete (d : Die) (s : State) : Host.Outcome State Fault Refusal :=
  let die := d.val
  match (s.die die).regTest with
  | none => .next s
  | some a =>
    let i := 16 * die + a.part
    let s := s.modDie die fun k => { k with regTest := none }
    if a.code ≠ 0 then .next (((s.setF DLS_REG_CTL.STATE i 3).setF DLS_REG_CTL.REASON i a.code).nextTest die)
    else
      let s := s.install die a.stream a.st
      let s := match a.copy with | some c => s.install (partnerOf die) a.stream c | none => s
      let k := 256 * die + a.st.session
      let s := if s.tookSes.look k && a.st.cls = 1 then { s.applyLevel die a.st.session a.level with tookSes := s.tookSes.put k false }
        else if s.levelOf die a.st.session < a.level then s.changeLevel die a.st.session a.level
        else s
      let s := (((s.setF DLS_REG_CTL.STATE i 2).setF DLS_REG_CTL.REASON i 0).setF DLS_REG_CTL.STREAM i a.stream).setF
        DLS_REG_CTL.LEVEL i a.level
      .next (s.nextTest die)

/-- A GO with OP 1 joins the unit's queue, in the order of the GO writes (R107, R114). -/
def State.register (s : State) (die part : Nat) : State :=
  let i := 16 * die + part
  let va := s.getF DLS_REG_CTL.DESC i * 256
  ((s.setF DLS_REG_CTL.STATE i 1).modDie die fun d => { d with regQ := d.regQ ++ [(part, va, s.now)] }).nextTest die

/-! Deregistration -/

/-- A session without streams is removed (R104). -/
def State.closeSession (s : State) (die session : Nat) : State :=
  if s.streams.any fun e => e.1 / 1024 = die && e.2.valid && e.2.session = session then s
  else { s.csrPut .DLS_SES (256 * die + session) 0 with tookSes := s.tookSes.put (256 * die + session) false }
/-- A stream's reservations are free (R107). -/
def State.freeStream (s : State) (die n : Nat) : State :=
  let st := s.stream die n
  let ev : Ev := .timerRelease (Fin.ofNat 4 die) (Fin.ofNat 1024 n)
  let s := (s.modStream die n fun _ => {}).unsched fun d => decide (d.ev = ev)
  let s := if st.shadow then s.endShadow die st.session else s
  s.closeSession die st.session
/-- Tasks of a stream that still stand. -/
def State.tasksOf (s : State) (die n : Nat) : List (Nat × Task) :=
  s.tasks.filter fun e => e.2.die = die && e.2.stream = n && (match e.2.st with
    | .committed | .aborted | .refused => false
    | _ => true)
/-- A stream that leaves is freed once none of its tasks stands. -/
def State.sweepStreams (s : State) : State :=
  (s.streams.filter fun e => e.2.leaving).foldl (fun s e =>
    if (s.tasksOf (e.1 / 1024) (e.1 % 1024)).isEmpty then s.freeStream (e.1 / 1024) (e.1 % 1024) else s) s

/-- A stream leaves a die: its waiting tasks are withdrawn without status (R107), and so is one in Placing, whose first bundle
has not issued (DESIGN CHOICE, notes/assumptions/78.md). -/
def State.leaveStream (s : State) (die n : Nat) : State :=
  let s := s.modStream die n fun st => { st with leaving := true, deferred := none }
  let s := (s.tasksOf die n).foldl (fun s e => match e.2.st with
    | .pending | .ready | .deferred => (s.dropTask e.1).launchBroken e.1
    | .placing => ((s.withdraw e.1).dropTask e.1).launchBroken e.1
    | _ => s) s
  s.sweepStreams

/-- A GO with OP 2 (R107): a stream of the partition leaves, with its copy. -/
def State.deregister (s : State) (die part : Nat) : State :=
  let i := 16 * die + part
  let n := s.getF DLS_REG_CTL.STREAM i
  let st := s.stream die n
  if !st.valid || st.part ≠ part then (s.setF DLS_REG_CTL.STATE i 3).setF DLS_REG_CTL.REASON i 0x010A
  else
    let s := s.leaveStream die n
    let p := partnerOf die
    let q := s.stream p n
    let s := if (st.copy || q.copy) && q.valid && q.part = part && q.session = st.session then s.leaveStream p n else s
    (s.setF DLS_REG_CTL.STATE i 2).setF DLS_REG_CTL.REASON i 0

/-! Lowering (R128) -/

/-- A session with 64 clean periods is lowered one step, where FLOOR allows it and the tests pass; a failed test restarts the
count. A session that a take-over raised stays at D2 or above until a slow stream is registered there. -/
def State.lowerOne (s : State) (k : Nat) : State :=
  let die := k / 256
  let session := k % 256
  let lv := s.getF DLS_SES.LEVEL k
  let dies := if s.shadowed die session then [die, partnerOf die] else [die]
  if s.getF DLS_SES.VALID k = 0 || lv = 0 || lv ≤ s.getF DLS_SES.FLOOR k || (s.tookSes.look k && decide (lv ≤ 2)) then s
  else if s.loadTest (s.getF DLS_SES.PRT k) session (lv - 1) [] dies ≠ 0 then s.setF DLS_SES.CLEAN k 0
  else (s.setF DLS_SES.CLEAN k 0).changeLevel die session (lv - 1)
/-- The sessions whose 64th clean period has just ended, in ascending number. -/
def State.lowerLevels (s : State) : State :=
  (List.range 1024).foldl (fun t k => if s.lowering.contains k then t.lowerOne k else t) { s with lowering := [] }

end Sys2Proof.Machine
end

