-- ==== Sys2Proof/Decode.lean ====
section
/-! DEFINITION. From bits to instructions and back: the operand layouts (R253), the opcode maps of the slots (R254), the slot word (R247) and the logit word (R365). Decoding is total and refuses by name; a field violation of R250 to R253 is `reservedField`. The bundle header is in Machine/Ccc.lean, where a bundle is checked (R255). -/

namespace Sys2Proof

/-- Why bits are no instruction: the decode-fault causes of R194 that a word alone gives. -/
inductive DecodeError where
  /-- A code the slot's map does not assign (R254), cause 0x01. -/
  | reservedOpcode
  /-- GUARD in 21 to 31 (R247), cause 0x02. -/
  | reservedGuard
  /-- A zero field that is nonzero, or a field value outside R250 to R253, cause 0x04. -/
  | reservedField
  /-- No such word length. -/
  | noSuchForm
  deriving DecidableEq, Repr

/-- The fault cause of a decode error (R194). -/
def DecodeError.cause : DecodeError → Nat
  | .reservedOpcode => 0x01
  | .reservedGuard => 0x02
  | .reservedField => 0x04
  | .noSuchForm => 0x01

/-- Layout CJ read from bits 19:0 (R253). -/
def CJ.ofBits (w : BitVec 20) : CJ := ⟨w.extractLsb' 0 20⟩
/-- The bits of layout CJ, its zero fields zero (R253). -/
def CJ.toBits (o : CJ) : BitVec 20 := o.ofs
/-- The operands under a layout-CJ opcode: refused when a zero field is not zero. -/
def CJ.read (c : CJ → Instr) (w : BitVec 20) : Except DecodeError Instr :=
  .ok (c (CJ.ofBits w))

/-- Layout CL read from bits 19:0 (R253). -/
def CL.ofBits (w : BitVec 20) : CL := ⟨w.extractLsb' 18 2, w.extractLsb' 0 18⟩
/-- The bits of layout CL, its zero fields zero (R253). -/
def CL.toBits (o : CL) : BitVec 20 := (o.lvl ++ o.ofs : BitVec 20)
/-- The operands under a layout-CL opcode: refused when a zero field is not zero. -/
def CL.read (c : CL → Instr) (w : BitVec 20) : Except DecodeError Instr :=
  .ok (c (CL.ofBits w))

/-- Layout CR read from bits 19:0 (R253). -/
def CR.ofBits (w : BitVec 20) : CR := ⟨w.extractLsb' 14 6⟩
/-- The bits of layout CR, its zero fields zero (R253). -/
def CR.toBits (o : CR) : BitVec 20 := (o.a ++ 0#14 : BitVec 20)
/-- The operands under a layout-CR opcode: refused when a zero field is not zero. -/
def CR.read (c : CR → Instr) (w : BitVec 20) : Except DecodeError Instr :=
  if w &&& 0x3fff#20 = 0#20 then .ok (c (CR.ofBits w)) else .error .reservedField

/-- Layout CT read from bits 19:0 (R253). -/
def CT.ofBits (w : BitVec 20) : CT := ⟨w.extractLsb' 0 8⟩
/-- The bits of layout CT, its zero fields zero (R253). -/
def CT.toBits (o : CT) : BitVec 20 := (0#12 ++ o.n : BitVec 20)
/-- The operands under a layout-CT opcode: refused when a zero field is not zero. -/
def CT.read (c : CT → Instr) (w : BitVec 20) : Except DecodeError Instr :=
  if w &&& 0xfff00#20 = 0#20 then .ok (c (CT.ofBits w)) else .error .reservedField

/-- Layout CW read from bits 19:0 (R253). -/
def CW.ofBits (w : BitVec 20) : CW := ⟨w.extractLsb' 14 6, w.extractLsb' 8 6, w.extractLsb' 0 3⟩
/-- The bits of layout CW, its zero fields zero (R253). -/
def CW.toBits (o : CW) : BitVec 20 := (o.a ++ o.b ++ 0#5 ++ o.scope : BitVec 20)
/-- The operands under a layout-CW opcode: refused when a zero field is not zero. -/
def CW.read (c : CW → Instr) (w : BitVec 20) : Except DecodeError Instr :=
  if w &&& 0xf8#20 = 0#20 then .ok (c (CW.ofBits w)) else .error .reservedField

/-- Layout CF read from bits 19:0 (R253). -/
def CF.ofBits (w : BitVec 20) : CF := ⟨w.extractLsb' 14 6, w.extractLsb' 0 11⟩
/-- The bits of layout CF, its zero fields zero (R253). -/
def CF.toBits (o : CF) : BitVec 20 := (o.a ++ 0#3 ++ o.fmask : BitVec 20)
/-- The operands under a layout-CF opcode: refused when a zero field is not zero. -/
def CF.read (c : CF → Instr) (w : BitVec 20) : Except DecodeError Instr :=
  if w &&& 0x3800#20 = 0#20 then .ok (c (CF.ofBits w)) else .error .reservedField

/-- Layout S3 read from bits 19:0 (R253). -/
def S3.ofBits (w : BitVec 20) : S3 := ⟨w.extractLsb' 14 6, w.extractLsb' 8 6, w.extractLsb' 2 6, w.extractLsb' 1 1⟩
/-- The bits of layout S3, its zero fields zero (R253). -/
def S3.toBits (o : S3) : BitVec 20 := (o.d ++ o.a ++ o.b ++ o.ba ++ 0#1 : BitVec 20)
/-- The operands under a layout-S3 opcode: refused when a zero field is not zero. -/
def S3.read (c : S3 → Instr) (w : BitVec 20) : Except DecodeError Instr :=
  if w &&& 0x1#20 = 0#20 then .ok (c (S3.ofBits w)) else .error .reservedField

/-- Layout SI read from bits 19:0 (R253). -/
def SI.ofBits (w : BitVec 20) : SI := ⟨w.extractLsb' 14 6, w.extractLsb' 8 6, w.extractLsb' 0 8⟩
/-- The bits of layout SI, its zero fields zero (R253). -/
def SI.toBits (o : SI) : BitVec 20 := (o.d ++ o.a ++ o.imm : BitVec 20)
/-- The operands under a layout-SI opcode: refused when a zero field is not zero. -/
def SI.read (c : SI → Instr) (w : BitVec 20) : Except DecodeError Instr :=
  .ok (c (SI.ofBits w))

/-- Layout SM read from bits 19:0 (R253). -/
def SM.ofBits (w : BitVec 20) : SM := ⟨w.extractLsb' 14 6, w.extractLsb' 0 14⟩
/-- The bits of layout SM, its zero fields zero (R253). -/
def SM.toBits (o : SM) : BitVec 20 := (o.d ++ o.imm : BitVec 20)
/-- The operands under a layout-SM opcode: refused when a zero field is not zero. -/
def SM.read (c : SM → Instr) (w : BitVec 20) : Except DecodeError Instr :=
  .ok (c (SM.ofBits w))

/-- Layout SP read from bits 19:0 (R253). -/
def SP.ofBits (w : BitVec 20) : SP := ⟨w.extractLsb' 16 4, w.extractLsb' 10 6, w.extractLsb' 4 6, w.extractLsb' 3 1⟩
/-- The bits of layout SP, its zero fields zero (R253). -/
def SP.toBits (o : SP) : BitVec 20 := (o.pd ++ o.a ++ o.b ++ o.ba ++ 0#3 : BitVec 20)
/-- The operands under a layout-SP opcode: refused when a zero field is not zero. -/
def SP.read (c : SP → Instr) (w : BitVec 20) : Except DecodeError Instr :=
  if w &&& 0x7#20 = 0#20 then .ok (c (SP.ofBits w)) else .error .reservedField

/-- Layout SS read from bits 19:0 (R253). -/
def SS.ofBits (w : BitVec 20) : SS := ⟨w.extractLsb' 14 6, w.extractLsb' 8 6, w.extractLsb' 4 4⟩
/-- The bits of layout SS, its zero fields zero (R253). -/
def SS.toBits (o : SS) : BitVec 20 := (o.d ++ o.a ++ o.p ++ 0#4 : BitVec 20)
/-- The operands under a layout-SS opcode: refused when a zero field is not zero. -/
def SS.read (c : SS → Instr) (w : BitVec 20) : Except DecodeError Instr :=
  if w &&& 0xf#20 = 0#20 then .ok (c (SS.ofBits w)) else .error .reservedField

/-- Layout SQ read from bits 19:0 (R253). -/
def SQ.ofBits (w : BitVec 20) : SQ := ⟨w.extractLsb' 16 4, w.extractLsb' 12 4, w.extractLsb' 8 4, w.extractLsb' 4 4⟩
/-- The bits of layout SQ, its zero fields zero (R253). -/
def SQ.toBits (o : SQ) : BitVec 20 := (o.pd ++ o.pa ++ o.pb ++ o.fn ++ 0#4 : BitVec 20)
/-- The operands under a layout-SQ opcode: refused when a zero field is not zero. -/
def SQ.read (c : SQ → Instr) (w : BitVec 20) : Except DecodeError Instr :=
  if w &&& 0xf#20 = 0#20 then .ok (c (SQ.ofBits w)) else .error .reservedField

/-- Layout SX read from bits 19:0 (R253). -/
def SX.ofBits (w : BitVec 20) : SX := ⟨w.extractLsb' 14 6, w.extractLsb' 8 6, w.extractLsb' 4 4⟩
/-- The bits of layout SX, its zero fields zero (R253). -/
def SX.toBits (o : SX) : BitVec 20 := (o.d ++ o.a ++ o.ty ++ 0#4 : BitVec 20)
/-- The operands under a layout-SX opcode: refused when a zero field is not zero. -/
def SX.read (c : SX → Instr) (w : BitVec 20) : Except DecodeError Instr :=
  if w &&& 0xf#20 = 0#20 then .ok (c (SX.ofBits w)) else .error .reservedField

/-- Layout SV read from bits 19:0 (R253). -/
def SV.ofBits (w : BitVec 20) : SV := ⟨w.extractLsb' 14 6, w.extractLsb' 0 8⟩
/-- The bits of layout SV, its zero fields zero (R253). -/
def SV.toBits (o : SV) : BitVec 20 := (o.d ++ 0#6 ++ o.sel : BitVec 20)
/-- The operands under a layout-SV opcode: refused when a zero field is not zero. -/
def SV.read (c : SV → Instr) (w : BitVec 20) : Except DecodeError Instr :=
  if w &&& 0x3f00#20 = 0#20 then .ok (c (SV.ofBits w)) else .error .reservedField

/-- Layout AL read from bits 19:0 (R253). -/
def AL.ofBits (w : BitVec 20) : AL := ⟨w.extractLsb' 18 2, w.extractLsb' 12 6⟩
/-- The bits of layout AL, its zero fields zero (R253). -/
def AL.toBits (o : AL) : BitVec 20 := (o.lvl ++ o.a ++ 0#12 : BitVec 20)
/-- The operands under a layout-AL opcode: refused when a zero field is not zero. -/
def AL.read (c : AL → Instr) (w : BitVec 20) : Except DecodeError Instr :=
  if w &&& 0xfff#20 = 0#20 then .ok (c (AL.ofBits w)) else .error .reservedField

/-- Layout AK read from bits 19:0 (R253). -/
def AK.ofBits (w : BitVec 20) : AK := ⟨w.extractLsb' 16 4, w.extractLsb' 10 6, w.extractLsb' 0 10⟩
/-- The bits of layout AK, its zero fields zero (R253). -/
def AK.toBits (o : AK) : BitVec 20 := (o.k ++ o.a ++ o.imm : BitVec 20)
/-- The operands under a layout-AK opcode: refused when a zero field is not zero. -/
def AK.read (c : AK → Instr) (w : BitVec 20) : Except DecodeError Instr :=
  .ok (c (AK.ofBits w))

/-- Layout AH read from bits 19:0 (R253). -/
def AH.ofBits (w : BitVec 20) : AH := ⟨w.extractLsb' 18 2, w.extractLsb' 16 2, w.extractLsb' 12 4, w.extractLsb' 6 6⟩
/-- The bits of layout AH, its zero fields zero (R253). -/
def AH.toBits (o : AH) : BitVec 20 := (o.eng ++ o.h ++ o.field ++ o.a ++ 0#6 : BitVec 20)
/-- The operands under a layout-AH opcode: refused when a zero field is not zero. -/
def AH.read (c : AH → Instr) (w : BitVec 20) : Except DecodeError Instr :=
  if w &&& 0x3f#20 = 0#20 then .ok (c (AH.ofBits w)) else .error .reservedField

/-- Layout AN read from bits 19:0 (R253). -/
def AN.ofBits (w : BitVec 20) : AN := ⟨w.extractLsb' 0 8⟩
/-- The bits of layout AN, its zero fields zero (R253). -/
def AN.toBits (o : AN) : BitVec 20 := (0#12 ++ o.n : BitVec 20)
/-- The operands under a layout-AN opcode: refused when a zero field is not zero. -/
def AN.read (c : AN → Instr) (w : BitVec 20) : Except DecodeError Instr :=
  if w &&& 0xfff00#20 = 0#20 then .ok (c (AN.ofBits w)) else .error .reservedField

/-- Layout V3 read from bits 19:0 (R253). -/
def V3.ofBits (w : BitVec 20) : V3 := ⟨w.extractLsb' 15 5, w.extractLsb' 10 5, w.extractLsb' 5 5, w.extractLsb' 1 4, w.extractLsb' 0 1⟩
/-- The bits of layout V3, its zero fields zero (R253). -/
def V3.toBits (o : V3) : BitVec 20 := (o.d ++ o.a ++ o.b ++ o.ty ++ o.byp : BitVec 20)
/-- The operands under a layout-V3 opcode: refused when a zero field is not zero. -/
def V3.read (c : V3 → Instr) (w : BitVec 20) : Except DecodeError Instr :=
  .ok (c (V3.ofBits w))

/-- Layout VC read from bits 19:0 (R253). -/
def VC.ofBits (w : BitVec 20) : VC := ⟨w.extractLsb' 15 5, w.extractLsb' 10 5, w.extractLsb' 6 4, w.extractLsb' 2 4, w.extractLsb' 0 1⟩
/-- The bits of layout VC, its zero fields zero (R253). -/
def VC.toBits (o : VC) : BitVec 20 := (o.d ++ o.a ++ o.tys ++ o.tyd ++ 0#1 ++ o.byp : BitVec 20)
/-- The operands under a layout-VC opcode: refused when a zero field is not zero. -/
def VC.read (c : VC → Instr) (w : BitVec 20) : Except DecodeError Instr :=
  if w &&& 0x2#20 = 0#20 then .ok (c (VC.ofBits w)) else .error .reservedField

/-- Layout VS read from bits 19:0 (R253). -/
def VS.ofBits (w : BitVec 20) : VS := ⟨w.extractLsb' 15 5, w.extractLsb' 9 6, w.extractLsb' 1 4⟩
/-- The bits of layout VS, its zero fields zero (R253). -/
def VS.toBits (o : VS) : BitVec 20 := (o.d ++ o.a ++ 0#4 ++ o.ty ++ 0#1 : BitVec 20)
/-- The operands under a layout-VS opcode: refused when a zero field is not zero. -/
def VS.read (c : VS → Instr) (w : BitVec 20) : Except DecodeError Instr :=
  if w &&& 0x1e1#20 = 0#20 then .ok (c (VS.ofBits w)) else .error .reservedField

/-- Layout VI read from bits 19:0 (R253). -/
def VI.ofBits (w : BitVec 20) : VI := ⟨w.extractLsb' 15 5, w.extractLsb' 5 10, w.extractLsb' 1 4⟩
/-- The bits of layout VI, its zero fields zero (R253). -/
def VI.toBits (o : VI) : BitVec 20 := (o.d ++ o.imm ++ o.ty ++ 0#1 : BitVec 20)
/-- The operands under a layout-VI opcode: refused when a zero field is not zero. -/
def VI.read (c : VI → Instr) (w : BitVec 20) : Except DecodeError Instr :=
  if w &&& 0x1#20 = 0#20 then .ok (c (VI.ofBits w)) else .error .reservedField

/-- Layout VX read from bits 19:0 (R253). -/
def VX.ofBits (w : BitVec 20) : VX := ⟨w.extractLsb' 15 5, w.extractLsb' 10 5, w.extractLsb' 1 9, w.extractLsb' 0 1⟩
/-- The bits of layout VX, its zero fields zero (R253). -/
def VX.toBits (o : VX) : BitVec 20 := (o.d ++ o.a ++ o.ctl ++ o.byp : BitVec 20)
/-- The operands under a layout-VX opcode: refused when a zero field is not zero. -/
def VX.read (c : VX → Instr) (w : BitVec 20) : Except DecodeError Instr :=
  .ok (c (VX.ofBits w))

/-- Layout VQ read from bits 19:0 (R253). -/
def VQ.ofBits (w : BitVec 20) : VQ := ⟨w.extractLsb' 15 5, w.extractLsb' 11 4, w.extractLsb' 7 4, w.extractLsb' 6 1, w.extractLsb' 5 1⟩
/-- The bits of layout VQ, its zero fields zero (R253). -/
def VQ.toBits (o : VQ) : BitVec 20 := (o.d ++ o.bank ++ o.tile ++ o.h ++ o.bm ++ 0#5 : BitVec 20)
/-- The operands under a layout-VQ opcode: refused when a zero field is not zero. -/
def VQ.read (c : VQ → Instr) (w : BitVec 20) : Except DecodeError Instr :=
  if w &&& 0x1f#20 = 0#20 then .ok (c (VQ.ofBits w)) else .error .reservedField

/-- Layout VF read from bits 19:0 (R253). -/
def VF.ofBits (w : BitVec 20) : VF := ⟨w.extractLsb' 15 5, w.extractLsb' 1 14, w.extractLsb' 0 1⟩
/-- The bits of layout VF, its zero fields zero (R253). -/
def VF.toBits (o : VF) : BitVec 20 := (o.a ++ o.ctl ++ o.byp : BitVec 20)
/-- The operands under a layout-VF opcode: refused when a zero field is not zero. -/
def VF.read (c : VF → Instr) (w : BitVec 20) : Except DecodeError Instr :=
  .ok (c (VF.ofBits w))

/-- Layout MC read from bits 19:0 (R253). -/
def MC.ofBits (w : BitVec 20) : MC := ⟨w.extractLsb' 18 2, w.extractLsb' 17 1, w.extractLsb' 15 2, w.extractLsb' 11 4, w.extractLsb' 7 4, w.extractLsb' 0 7⟩
/-- The bits of layout MC, its zero fields zero (R253). -/
def MC.toBits (o : MC) : BitVec 20 := (o.hm ++ o.sw ++ o.mode ++ o.bank ++ o.tile ++ o.ctl : BitVec 20)
/-- The operands under a layout-MC opcode: refused when a zero field is not zero. -/
def MC.read (c : MC → Instr) (w : BitVec 20) : Except DecodeError Instr :=
  .ok (c (MC.ofBits w))

/-- Layout MW read from bits 19:0 (R253). -/
def MW.ofBits (w : BitVec 20) : MW := ⟨w.extractLsb' 15 5, w.extractLsb' 11 4, w.extractLsb' 7 4, w.extractLsb' 6 1⟩
/-- The bits of layout MW, its zero fields zero (R253). -/
def MW.toBits (o : MW) : BitVec 20 := (o.a ++ o.bank ++ o.tile ++ o.h ++ 0#6 : BitVec 20)
/-- The operands under a layout-MW opcode: refused when a zero field is not zero. -/
def MW.read (c : MW → Instr) (w : BitVec 20) : Except DecodeError Instr :=
  if w &&& 0x3f#20 = 0#20 then .ok (c (MW.ofBits w)) else .error .reservedField

/-- Layout MK read from bits 19:0 (R253). -/
def MK.ofBits (w : BitVec 20) : MK := ⟨w.extractLsb' 16 4, w.extractLsb' 0 16⟩
/-- The bits of layout MK, its zero fields zero (R253). -/
def MK.toBits (o : MK) : BitVec 20 := (o.bank ++ o.mask : BitVec 20)
/-- The operands under a layout-MK opcode: refused when a zero field is not zero. -/
def MK.read (c : MK → Instr) (w : BitVec 20) : Except DecodeError Instr :=
  .ok (c (MK.ofBits w))

/-- Layout MT read from bits 19:0 (R253). -/
def MT.ofBits (w : BitVec 20) : MT := ⟨w.extractLsb' 16 4, w.extractLsb' 12 4, w.extractLsb' 8 4, w.extractLsb' 4 4⟩
/-- The bits of layout MT, its zero fields zero (R253). -/
def MT.toBits (o : MT) : BitVec 20 := (o.bank ++ o.tile ++ o.sbank ++ o.stile ++ 0#4 : BitVec 20)
/-- The operands under a layout-MT opcode: refused when a zero field is not zero. -/
def MT.read (c : MT → Instr) (w : BitVec 20) : Except DecodeError Instr :=
  if w &&& 0xf#20 = 0#20 then .ok (c (MT.ofBits w)) else .error .reservedField

/-- Layout MF read from bits 19:0 (R253). -/
def MF.ofBits (w : BitVec 20) : MF := ⟨w.extractLsb' 14 6, w.extractLsb' 10 4, w.extractLsb' 6 4⟩
/-- The bits of layout MF, its zero fields zero (R253). -/
def MF.toBits (o : MF) : BitVec 20 := (o.a ++ o.bank ++ o.tile ++ 0#6 : BitVec 20)
/-- The operands under a layout-MF opcode: refused when a zero field is not zero. -/
def MF.read (c : MF → Instr) (w : BitVec 20) : Except DecodeError Instr :=
  if w &&& 0x3f#20 = 0#20 then .ok (c (MF.ofBits w)) else .error .reservedField

/-- Layout MH read from bits 19:0 (R253). -/
def MH.ofBits (w : BitVec 20) : MH := ⟨w.extractLsb' 14 6, w.extractLsb' 12 2⟩
/-- The bits of layout MH, its zero fields zero (R253). -/
def MH.toBits (o : MH) : BitVec 20 := (o.a ++ o.kind ++ 0#12 : BitVec 20)
/-- The operands under a layout-MH opcode: refused when a zero field is not zero. -/
def MH.read (c : MH → Instr) (w : BitVec 20) : Except DecodeError Instr :=
  if w &&& 0xfff#20 = 0#20 then .ok (c (MH.ofBits w)) else .error .reservedField

/-- Layout LS read from bits 19:0 (R253). -/
def LS.ofBits (w : BitVec 20) : LS := ⟨w.extractLsb' 14 6, w.extractLsb' 8 6, w.extractLsb' 4 4, w.extractLsb' 1 3⟩
/-- The bits of layout LS, its zero fields zero (R253). -/
def LS.toBits (o : LS) : BitVec 20 := (o.d ++ o.a ++ o.ty ++ o.rd ++ 0#1 : BitVec 20)
/-- The operands under a layout-LS opcode: refused when a zero field is not zero. -/
def LS.read (c : LS → Instr) (w : BitVec 20) : Except DecodeError Instr :=
  if w &&& 0x1#20 = 0#20 then .ok (c (LS.ofBits w)) else .error .reservedField

/-- Layout LV read from bits 19:0 (R253). -/
def LV.ofBits (w : BitVec 20) : LV := ⟨w.extractLsb' 15 5, w.extractLsb' 9 6, w.extractLsb' 5 4, w.extractLsb' 2 3⟩
/-- The bits of layout LV, its zero fields zero (R253). -/
def LV.toBits (o : LV) : BitVec 20 := (o.d ++ o.a ++ o.ty ++ o.rd ++ 0#2 : BitVec 20)
/-- The operands under a layout-LV opcode: refused when a zero field is not zero. -/
def LV.read (c : LV → Instr) (w : BitVec 20) : Except DecodeError Instr :=
  if w &&& 0x3#20 = 0#20 then .ok (c (LV.ofBits w)) else .error .reservedField

/-- Layout LR read from bits 19:0 (R253). -/
def LR.ofBits (w : BitVec 20) : LR := ⟨w.extractLsb' 14 6, w.extractLsb' 8 6, w.extractLsb' 4 4, w.extractLsb' 1 3⟩
/-- The bits of layout LR, its zero fields zero (R253). -/
def LR.toBits (o : LR) : BitVec 20 := (o.d ++ o.a ++ o.ty ++ o.scope ++ 0#1 : BitVec 20)
/-- The operands under a layout-LR opcode: refused when a zero field is not zero. -/
def LR.read (c : LR → Instr) (w : BitVec 20) : Except DecodeError Instr :=
  if w &&& 0x1#20 = 0#20 then .ok (c (LR.ofBits w)) else .error .reservedField

/-- Layout LA read from bits 19:0 (R253). -/
def LA.ofBits (w : BitVec 20) : LA := ⟨w.extractLsb' 14 6, w.extractLsb' 8 6, w.extractLsb' 4 4, w.extractLsb' 3 1⟩
/-- The bits of layout LA, its zero fields zero (R253). -/
def LA.toBits (o : LA) : BitVec 20 := (o.d ++ o.a ++ o.op ++ o.w ++ 0#3 : BitVec 20)
/-- The operands under a layout-LA opcode: refused when a zero field is not zero. -/
def LA.read (c : LA → Instr) (w : BitVec 20) : Except DecodeError Instr :=
  if w &&& 0x7#20 = 0#20 then .ok (c (LA.ofBits w)) else .error .reservedField

/-- Layout LB read from bits 19:0 (R253). -/
def LB.ofBits (w : BitVec 20) : LB := ⟨w.extractLsb' 14 6, w.extractLsb' 0 8⟩
/-- The bits of layout LB, its zero fields zero (R253). -/
def LB.toBits (o : LB) : BitVec 20 := (o.d ++ 0#6 ++ o.n : BitVec 20)
/-- The operands under a layout-LB opcode: refused when a zero field is not zero. -/
def LB.read (c : LB → Instr) (w : BitVec 20) : Except DecodeError Instr :=
  if w &&& 0x3f00#20 = 0#20 then .ok (c (LB.ofBits w)) else .error .reservedField

/-- Layout LG read from bits 19:0 (R253). -/
def LG.ofBits (w : BitVec 20) : LG := ⟨w.extractLsb' 15 5, w.extractLsb' 10 5, w.extractLsb' 4 6, w.extractLsb' 0 4⟩
/-- The bits of layout LG, its zero fields zero (R253). -/
def LG.toBits (o : LG) : BitVec 20 := (o.d ++ o.a ++ o.b ++ o.ty : BitVec 20)
/-- The operands under a layout-LG opcode: refused when a zero field is not zero. -/
def LG.read (c : LG → Instr) (w : BitVec 20) : Except DecodeError Instr :=
  .ok (c (LG.ofBits w))

/-- Layout LK read from bits 19:0 (R253). -/
def LK.ofBits (w : BitVec 20) : LK := ⟨w.extractLsb' 16 4, w.extractLsb' 10 6⟩
/-- The bits of layout LK, its zero fields zero (R253). -/
def LK.toBits (o : LK) : BitVec 20 := (o.k ++ o.a ++ 0#10 : BitVec 20)
/-- The operands under a layout-LK opcode: refused when a zero field is not zero. -/
def LK.read (c : LK → Instr) (w : BitVec 20) : Except DecodeError Instr :=
  if w &&& 0x3ff#20 = 0#20 then .ok (c (LK.ofBits w)) else .error .reservedField

/-- Layout XE read from bits 19:0 (R253). -/
def XE.ofBits (w : BitVec 20) : XE := ⟨w.extractLsb' 18 2, w.extractLsb' 17 1, w.extractLsb' 11 6, w.extractLsb' 5 6, w.extractLsb' 0 5⟩
/-- The bits of layout XE, its zero fields zero (R253). -/
def XE.toBits (o : XE) : BitVec 20 := (o.hx ++ o.sw ++ o.a ++ o.b ++ o.ctl : BitVec 20)
/-- The operands under a layout-XE opcode: refused when a zero field is not zero. -/
def XE.read (c : XE → Instr) (w : BitVec 20) : Except DecodeError Instr :=
  .ok (c (XE.ofBits w))

/-- Layout XB read from bits 19:0 (R253). -/
def XB.ofBits (w : BitVec 20) : XB := ⟨w.extractLsb' 18 2, w.extractLsb' 10 8, w.extractLsb' 4 6⟩
/-- The bits of layout XB, its zero fields zero (R253). -/
def XB.toBits (o : XB) : BitVec 20 := (o.level ++ o.bar ++ o.a ++ 0#4 : BitVec 20)
/-- The operands under a layout-XB opcode: refused when a zero field is not zero. -/
def XB.read (c : XB → Instr) (w : BitVec 20) : Except DecodeError Instr :=
  if w &&& 0xf#20 = 0#20 then .ok (c (XB.ofBits w)) else .error .reservedField

/-- Layout XS read from bits 19:0 (R253). -/
def XS.ofBits (w : BitVec 20) : XS := ⟨w.extractLsb' 14 6, w.extractLsb' 8 6, w.extractLsb' 0 8⟩
/-- The bits of layout XS, its zero fields zero (R253). -/
def XS.toBits (o : XS) : BitVec 20 := (o.a ++ o.b ++ o.ctl : BitVec 20)
/-- The operands under a layout-XS opcode: refused when a zero field is not zero. -/
def XS.read (c : XS → Instr) (w : BitVec 20) : Except DecodeError Instr :=
  .ok (c (XS.ofBits w))

/-- Layout XC read from bits 19:0 (R253). -/
def XC.ofBits (w : BitVec 20) : XC := ⟨w.extractLsb' 14 6, w.extractLsb' 8 6, w.extractLsb' 6 2, w.extractLsb' 4 2⟩
/-- The bits of layout XC, its zero fields zero (R253). -/
def XC.toBits (o : XC) : BitVec 20 := (o.a ++ o.b ++ o.op ++ o.lvl ++ 0#4 : BitVec 20)
/-- The operands under a layout-XC opcode: refused when a zero field is not zero. -/
def XC.read (c : XC → Instr) (w : BitVec 20) : Except DecodeError Instr :=
  if w &&& 0xf#20 = 0#20 then .ok (c (XC.ofBits w)) else .error .reservedField

/-- The operands of an opcode without operands: OPD is zero (R253, layout N). -/
def readN (i : Instr) (w : BitVec 20) : Except DecodeError Instr :=
  if w = 0#20 then .ok i else .error .reservedField

/-- Slot 0: the opcode map (R254). -/
def decodeC (opc : Nat) (w : BitVec 20) : Except DecodeError Instr :=
  match opc with
  | 0x00 => readN (.nop 0) w
  | 0x01 => CJ.read .br w
  | 0x02 => CR.read .brr w
  | 0x03 => CT.read .btree w
  | 0x04 => CJ.read .call w
  | 0x05 => CR.read .callr w
  | 0x06 => readN .ret w
  | 0x07 => CL.read .lend w
  | 0x08 => CT.read .lrep w
  | 0x09 => readN .lexit w
  | 0x0a => readN .endTask w
  | 0x0b => CT.read .trap w
  | 0x0c => CF.read .fmtw w
  | 0x0d => CW.read .fence w
  | 0x0e => CW.read .await w
  | 0x0f => CW.read .waita w
  | 0x10 => CW.read .twait w
  | 0x11 => CT.read .mark w
  | _ => .error .reservedOpcode

/-- Slot 1: the opcode map (R254). -/
def decodeS (opc : Nat) (w : BitVec 20) : Except DecodeError Instr :=
  match opc with
  | 0x00 => readN (.nop 1) w
  | 0x01 => S3.read .add w
  | 0x02 => S3.read .sub w
  | 0x03 => S3.read .mul w
  | 0x04 => S3.read .mulh w
  | 0x05 => S3.read .mulhn w
  | 0x06 => S3.read .div w
  | 0x07 => S3.read .divn w
  | 0x08 => S3.read .rem w
  | 0x09 => S3.read .remn w
  | 0x0a => S3.read .and w
  | 0x0b => S3.read .or w
  | 0x0c => S3.read .xor w
  | 0x0d => S3.read .andn w
  | 0x0e => S3.read .shl w
  | 0x0f => S3.read .shr w
  | 0x10 => S3.read .sar w
  | 0x11 => S3.read .rotl w
  | 0x12 => S3.read .clz w
  | 0x13 => S3.read .popc w
  | 0x14 => S3.read .min w
  | 0x15 => S3.read .max w
  | 0x16 => S3.read .minn w
  | 0x17 => S3.read .maxn w
  | 0x18 => SX.read .ext w
  | 0x19 => SP.read .cmpeq w
  | 0x1a => SP.read .cmpne w
  | 0x1b => SP.read .cmplt w
  | 0x1c => SP.read .cmpltn w
  | 0x1d => SP.read .cmple w
  | 0x1e => SP.read .cmplen w
  | 0x1f => SS.read .sel w
  | 0x20 => SI.read .addi w
  | 0x21 => SM.read .movi w
  | 0x22 => SM.read .movhi w
  | 0x23 => SQ.read .plog w
  | 0x24 => SV.read .srd w
  | _ => .error .reservedOpcode

/-- Slot 2: the opcode map (R254). -/
def decodeA (opc : Nat) (w : BitVec 20) : Except DecodeError Instr :=
  match opc with
  | 0x00 => readN (.nop 2) w
  | 0x01 => AL.read .lset w
  | 0x02 => AK.read .kset w
  | 0x03 => AK.read .kadd w
  | 0x04 => AK.read .kget w
  | 0x05 => S3.read .aadd w
  | 0x06 => S3.read .asub w
  | 0x07 => SI.read .aaddi w
  | 0x08 => S3.read .amov w
  | 0x09 => S3.read .aidx w
  | 0x0a => S3.read .awrap w
  | 0x0b => AH.read .shf w
  | 0x0c => AH.read .shcp w
  | 0x0d => AN.read .ntq w
  | 0x0e => AN.read .rrbw w
  | 0x0f => AN.read .pstg w
  | 0x10 => AK.read .lcnt w
  | 0x11 => AK.read .lrept w
  | _ => .error .reservedOpcode

/-- The opcodes of slot 4 alone: the opcode map (R254). -/
def decodeV1 (opc : Nat) (w : BitVec 20) : Except DecodeError Instr :=
  match opc with
  | 0x40 => VX.read .vperm w
  | 0x41 => VX.read .vxgrp w
  | 0x42 => VX.read .vshuf w
  | 0x43 => VC.read .vpack w
  | 0x44 => VC.read .vunpk w
  | 0x45 => VQ.read .qrd w
  | 0x46 => VF.read .sfeed w
  | _ => .error .reservedOpcode

/-- The opcodes that slots 3 and 4 share: the opcode map (R254). -/
def decodeV (u : VUnit) (opc : Nat) (w : BitVec 20) : Except DecodeError Instr :=
  match opc with
  | 0x00 => readN (.nop (match u with | .v0 => 3 | .v1 => 4)) w
  | 0x01 => V3.read (.vadd u) w
  | 0x02 => V3.read (.vsub u) w
  | 0x03 => V3.read (.vmul u) w
  | 0x04 => V3.read (.vfma u) w
  | 0x05 => V3.read (.vfms u) w
  | 0x06 => V3.read (.vfnma u) w
  | 0x07 => V3.read (.vmin u) w
  | 0x08 => V3.read (.vmax u) w
  | 0x09 => V3.read (.vabs u) w
  | 0x0a => V3.read (.vneg u) w
  | 0x0b => V3.read (.vrcp u) w
  | 0x0c => V3.read (.vrsq u) w
  | 0x0d => V3.read (.vsqrt u) w
  | 0x0e => V3.read (.vexp2 u) w
  | 0x0f => V3.read (.vlog2 u) w
  | 0x10 => VC.read (.vcvt u) w
  | 0x11 => V3.read (.vcmpeq u) w
  | 0x12 => V3.read (.vcmplt u) w
  | 0x13 => V3.read (.vcmple u) w
  | 0x14 => V3.read (.vcmpun u) w
  | 0x15 => V3.read (.vsel u) w
  | 0x16 => V3.read (.vand u) w
  | 0x17 => V3.read (.vor u) w
  | 0x18 => V3.read (.vxor u) w
  | 0x19 => V3.read (.vshl u) w
  | 0x1a => V3.read (.vshr u) w
  | 0x1b => V3.read (.vsar u) w
  | 0x1c => V3.read (.vadds u) w
  | 0x1d => V3.read (.vsubs u) w
  | 0x1e => V3.read (.vmullo u) w
  | 0x1f => V3.read (.vdot u) w
  | 0x20 => V3.read (.vdota u) w
  | 0x21 => V3.read (.vrsum u) w
  | 0x22 => V3.read (.vrmax u) w
  | 0x23 => V3.read (.vrmin u) w
  | 0x24 => VS.read (.vbcast u) w
  | 0x25 => VI.read (.vmovi u) w
  | 0x26 => V3.read (.vmov u) w
  | 0x27 => VI.read (.vidx u) w
  | 0x28 => V3.read (.vclz u) w
  | 0x29 => V3.read (.vpopc u) w
  | 0x2a => V3.read (.vround u) w
  | 0x2b => V3.read (.vclamp u) w
  | _ => match u with | .v0 => .error .reservedOpcode | .v1 => decodeV1 opc w

/-- Slot 5: the opcode map (R254). -/
def decodeM (opc : Nat) (w : BitVec 20) : Except DecodeError Instr :=
  match opc with
  | 0x00 => readN (.nop 5) w
  | 0x01 => MC.read .cmul w
  | 0x02 => MC.read .cmulc w
  | 0x03 => MC.read .cmulq w
  | 0x04 => MC.read .cmuli w
  | 0x05 => MC.read .cmula w
  | 0x06 => MW.read .qwr w
  | 0x07 => MK.read .qclr w
  | 0x08 => MT.read .qmov w
  | 0x09 => MT.read .qadd w
  | 0x0a => MF.read .qfill w
  | 0x0b => MF.read .qsave w
  | 0x0c => MF.read .qload w
  | 0x0d => MH.read .qthr w
  | _ => .error .reservedOpcode

/-- Slot 6: the opcode map (R254). -/
def decodeL (opc : Nat) (w : BitVec 20) : Except DecodeError Instr :=
  match opc with
  | 0x00 => readN (.nop 6) w
  | 0x01 => LS.read .lds w
  | 0x02 => LS.read .sts w
  | 0x03 => LV.read .ldsv w
  | 0x04 => LV.read .stsv w
  | 0x05 => LS.read .ldg w
  | 0x06 => LS.read .stg w
  | 0x07 => LV.read .ldgv w
  | 0x08 => LV.read .stgv w
  | 0x09 => LS.read .stnt w
  | 0x0a => LV.read .stntv w
  | 0x0b => LR.read .lda w
  | 0x0c => LR.read .stl w
  | 0x0d => LA.read .rmws w
  | 0x0e => LA.read .atomg w
  | 0x0f => LA.read .atomn w
  | 0x10 => LB.read .acqb w
  | 0x11 => LB.read .relb w
  | 0x12 => LS.read .ldp w
  | 0x13 => LS.read .stp w
  | 0x14 => LG.read .gath w
  | 0x15 => LG.read .scat w
  | 0x16 => LK.read .ldk w
  | 0x17 => LS.read .pref w
  | _ => .error .reservedOpcode

/-- Slot 7: the opcode map (R254). -/
def decodeX (opc : Nat) (w : BitVec 20) : Except DecodeError Instr :=
  match opc with
  | 0x00 => readN (.nop 7) w
  | 0x01 => XE.read .copy w
  | 0x02 => XE.read .subs w
  | 0x03 => XE.read .unsub w
  | 0x04 => XB.read .bara w
  | 0x05 => XB.read .barw w
  | 0x06 => XB.read .baraw w
  | 0x07 => XE.read .fput w
  | 0x08 => XE.read .fget w
  | 0x09 => XE.read .fred w
  | 0x0a => XC.read .cmo w
  | 0x0b => XE.read .rpub w
  | 0x0c => XE.read .rpop w
  | 0x10 => XS.read .smpBind w
  | 0x11 => XS.read .smpLoad w
  | 0x12 => XS.read .smpReset w
  | 0x13 => XS.read (fun o => if o.ctl.getLsbD 3 then .smpMergeIn o else .smpMergeOut o) w
  | 0x14 => XS.read .smpDraw w
  | 0x15 => XS.read (fun o => match (o.ctl.extractLsb' 3 2).toNat with
      | 0 => .smpCommit o | 1 => .smpCommitPend o | _ => .smpCommitSettle o) w
  | 0x16 => XS.read .smpGreedy w
  | 0x17 => XS.read .smpThr w
  | 0x18 => XS.read .smpFlush w
  | 0x19 => readN .bflip w
  | _ => .error .reservedOpcode

/-- The operation a slot's opcode and operands name, before the field values are checked (R254). -/
def decodeOpd (slot : Nat) (opc : Nat) (w : BitVec 20) : Except DecodeError Instr :=
  match slot with
  | 0 => decodeC opc w
  | 1 => decodeS opc w
  | 2 => decodeA opc w
  | 3 => decodeV .v0 opc w
  | 4 => decodeV .v1 opc w
  | 5 => decodeM opc w
  | 6 => decodeL opc w
  | 7 => decodeX opc w
  | _ => .error .noSuchForm

/-- The operation of a slot from its 27 bits below the guard: opcode, operands, and check 6 of R255 on the fields. -/
def decodeOp (slot : Nat) (w : BitVec 27) : Except DecodeError Instr :=
  match decodeOpd slot (w.extractLsb' 20 7).toNat (w.extractLsb' 0 20) with
  | .ok i => if i.wf then .ok i else .error .reservedField
  | .error e => .error e

/-- A slot word: guard and operation (R247), guard first. -/
def decodeSlotWord (slot : Nat) (w : BitVec 32) : Except DecodeError (Nat × Instr) :=
  if (w.extractLsb' 27 5).toNat > 20 then .error .reservedGuard
  else
    match decodeOp slot (w.extractLsb' 0 27) with
    | .ok i => .ok ((w.extractLsb' 27 5).toNat, i)
    | .error e => .error e

/-- A logit instruction's 16 bits (R365, R366): OP 15:11, D 10:8, A 7:5, B 4:2; fields an instruction does not use are
zero. -/
def decodeLogit (w : BitVec 16) : Except DecodeError Instr :=
  let d := w.extractLsb' 8 3
  let a := w.extractLsb' 5 3
  let b := w.extractLsb' 2 3
  let chk (m : BitVec 16) (i : Instr) : Except DecodeError Instr :=
    if w &&& m = 0#16 then .ok i else .error .reservedField
  match (w.extractLsb' 11 5).toNat with
  | 0x00 => chk 0x07FF .lgnop
  | 0x01 => chk 0x001F (.lgmov d a)
  | 0x02 => chk 0x0003 (.lgadd d a b)
  | 0x03 => chk 0x0003 (.lgsub d a b)
  | 0x04 => chk 0x0003 (.lgmul d a b)
  | 0x05 => chk 0x0003 (.lgfma d a b)
  | 0x06 => chk 0x0003 (.lgmin d a b)
  | 0x07 => chk 0x0003 (.lgmax d a b)
  | 0x08 => chk 0x001F (.lgneg d a)
  | 0x09 => chk 0x001F (.lgrcp d a)
  | 0x0A => chk 0x001F (.lgcst d a)
  | 0x0B => .ok (.lgimm d (w.extractLsb' 0 8))
  | 0x0C => chk 0x00FF (.lgcnt d)
  | 0x0D => chk 0x00FF (.lgbias d)
  | 0x0E => chk 0x00FF (.lgban d)
  | 0x0F => chk 0x00FF (.lgtok d)
  | 0x10 => chk 0x0003 (.lgsel d a b)
  | 0x11 => chk 0x0703 (.lgcgt a b)
  | 0x12 => chk 0x0703 (.lgcge a b)
  | 0x13 => chk 0x0703 (.lgceq a b)
  | 0x14 => chk 0x07FF .lgkeep
  | 0x15 => chk 0x07FF .lgdrop
  | 0x16 => chk 0x00FF (.lgmaxv d)
  | 0x17 => chk 0x071F (.lgout a)
  | _ => .error .reservedOpcode

/-- The 16 bits of a logit instruction from its fields. -/
def logitWord (op : BitVec 5) (d a b : BitVec 3) : BitVec 16 := (op ++ d ++ a ++ b ++ 0#2 : BitVec 16)

/-- The 16 bits of a logit instruction (R365, R366); none for the others. -/
def encodeLogit : Instr → Option (BitVec 16)
  | .lgnop => some (logitWord 0x00 0 0 0)
  | .lgmov d a => some (logitWord 0x01 d a 0)
  | .lgadd d a b => some (logitWord 0x02 d a b)
  | .lgsub d a b => some (logitWord 0x03 d a b)
  | .lgmul d a b => some (logitWord 0x04 d a b)
  | .lgfma d a b => some (logitWord 0x05 d a b)
  | .lgmin d a b => some (logitWord 0x06 d a b)
  | .lgmax d a b => some (logitWord 0x07 d a b)
  | .lgneg d a => some (logitWord 0x08 d a 0)
  | .lgrcp d a => some (logitWord 0x09 d a 0)
  | .lgcst d c => some (logitWord 0x0A d c 0)
  | .lgimm d imm => some ((0x0B#5 ++ d ++ imm : BitVec 16))
  | .lgcnt d => some (logitWord 0x0C d 0 0)
  | .lgbias d => some (logitWord 0x0D d 0 0)
  | .lgban d => some (logitWord 0x0E d 0 0)
  | .lgtok d => some (logitWord 0x0F d 0 0)
  | .lgsel d a b => some (logitWord 0x10 d a b)
  | .lgcgt a b => some (logitWord 0x11 0 a b)
  | .lgcge a b => some (logitWord 0x12 0 a b)
  | .lgceq a b => some (logitWord 0x13 0 a b)
  | .lgkeep => some (logitWord 0x14 0 0 0)
  | .lgdrop => some (logitWord 0x15 0 0 0)
  | .lgmaxv d => some (logitWord 0x16 d 0 0)
  | .lgout a => some (logitWord 0x17 0 a 0)
  | _ => none

/-- The slot number of a vector unit (R254). -/
def VUnit.slot : VUnit → Nat
  | .v0 => 3
  | .v1 => 4

/-- Slot, opcode and operand bits of a slot operation, from the same tables (R253, R254); none for logit
instructions and events. -/
def encodeOp : Instr → Option (Nat × BitVec 7 × BitVec 20)
  | .nop s => some (s.val, 0x00, 0)
  | .br o => some (0, 0x01, o.toBits)
  | .brr o => some (0, 0x02, o.toBits)
  | .btree o => some (0, 0x03, o.toBits)
  | .call o => some (0, 0x04, o.toBits)
  | .callr o => some (0, 0x05, o.toBits)
  | .ret => some (0, 0x06, 0)
  | .lend o => some (0, 0x07, o.toBits)
  | .lrep o => some (0, 0x08, o.toBits)
  | .lexit => some (0, 0x09, 0)
  | .endTask => some (0, 0x0a, 0)
  | .trap o => some (0, 0x0b, o.toBits)
  | .fmtw o => some (0, 0x0c, o.toBits)
  | .fence o => some (0, 0x0d, o.toBits)
  | .await o => some (0, 0x0e, o.toBits)
  | .waita o => some (0, 0x0f, o.toBits)
  | .twait o => some (0, 0x10, o.toBits)
  | .mark o => some (0, 0x11, o.toBits)
  | .add o => some (1, 0x01, o.toBits)
  | .sub o => some (1, 0x02, o.toBits)
  | .mul o => some (1, 0x03, o.toBits)
  | .mulh o => some (1, 0x04, o.toBits)
  | .mulhn o => some (1, 0x05, o.toBits)
  | .div o => some (1, 0x06, o.toBits)
  | .divn o => some (1, 0x07, o.toBits)
  | .rem o => some (1, 0x08, o.toBits)
  | .remn o => some (1, 0x09, o.toBits)
  | .and o => some (1, 0x0a, o.toBits)
  | .or o => some (1, 0x0b, o.toBits)
  | .xor o => some (1, 0x0c, o.toBits)
  | .andn o => some (1, 0x0d, o.toBits)
  | .shl o => some (1, 0x0e, o.toBits)
  | .shr o => some (1, 0x0f, o.toBits)
  | .sar o => some (1, 0x10, o.toBits)
  | .rotl o => some (1, 0x11, o.toBits)
  | .clz o => some (1, 0x12, o.toBits)
  | .popc o => some (1, 0x13, o.toBits)
  | .min o => some (1, 0x14, o.toBits)
  | .max o => some (1, 0x15, o.toBits)
  | .minn o => some (1, 0x16, o.toBits)
  | .maxn o => some (1, 0x17, o.toBits)
  | .ext o => some (1, 0x18, o.toBits)
  | .cmpeq o => some (1, 0x19, o.toBits)
  | .cmpne o => some (1, 0x1a, o.toBits)
  | .cmplt o => some (1, 0x1b, o.toBits)
  | .cmpltn o => some (1, 0x1c, o.toBits)
  | .cmple o => some (1, 0x1d, o.toBits)
  | .cmplen o => some (1, 0x1e, o.toBits)
  | .sel o => some (1, 0x1f, o.toBits)
  | .addi o => some (1, 0x20, o.toBits)
  | .movi o => some (1, 0x21, o.toBits)
  | .movhi o => some (1, 0x22, o.toBits)
  | .plog o => some (1, 0x23, o.toBits)
  | .srd o => some (1, 0x24, o.toBits)
  | .lset o => some (2, 0x01, o.toBits)
  | .kset o => some (2, 0x02, o.toBits)
  | .kadd o => some (2, 0x03, o.toBits)
  | .kget o => some (2, 0x04, o.toBits)
  | .aadd o => some (2, 0x05, o.toBits)
  | .asub o => some (2, 0x06, o.toBits)
  | .aaddi o => some (2, 0x07, o.toBits)
  | .amov o => some (2, 0x08, o.toBits)
  | .aidx o => some (2, 0x09, o.toBits)
  | .awrap o => some (2, 0x0a, o.toBits)
  | .shf o => some (2, 0x0b, o.toBits)
  | .shcp o => some (2, 0x0c, o.toBits)
  | .ntq o => some (2, 0x0d, o.toBits)
  | .rrbw o => some (2, 0x0e, o.toBits)
  | .pstg o => some (2, 0x0f, o.toBits)
  | .lcnt o => some (2, 0x10, o.toBits)
  | .lrept o => some (2, 0x11, o.toBits)
  | .vadd u o => some (u.slot, 0x01, o.toBits)
  | .vsub u o => some (u.slot, 0x02, o.toBits)
  | .vmul u o => some (u.slot, 0x03, o.toBits)
  | .vfma u o => some (u.slot, 0x04, o.toBits)
  | .vfms u o => some (u.slot, 0x05, o.toBits)
  | .vfnma u o => some (u.slot, 0x06, o.toBits)
  | .vmin u o => some (u.slot, 0x07, o.toBits)
  | .vmax u o => some (u.slot, 0x08, o.toBits)
  | .vabs u o => some (u.slot, 0x09, o.toBits)
  | .vneg u o => some (u.slot, 0x0a, o.toBits)
  | .vrcp u o => some (u.slot, 0x0b, o.toBits)
  | .vrsq u o => some (u.slot, 0x0c, o.toBits)
  | .vsqrt u o => some (u.slot, 0x0d, o.toBits)
  | .vexp2 u o => some (u.slot, 0x0e, o.toBits)
  | .vlog2 u o => some (u.slot, 0x0f, o.toBits)
  | .vcvt u o => some (u.slot, 0x10, o.toBits)
  | .vcmpeq u o => some (u.slot, 0x11, o.toBits)
  | .vcmplt u o => some (u.slot, 0x12, o.toBits)
  | .vcmple u o => some (u.slot, 0x13, o.toBits)
  | .vcmpun u o => some (u.slot, 0x14, o.toBits)
  | .vsel u o => some (u.slot, 0x15, o.toBits)
  | .vand u o => some (u.slot, 0x16, o.toBits)
  | .vor u o => some (u.slot, 0x17, o.toBits)
  | .vxor u o => some (u.slot, 0x18, o.toBits)
  | .vshl u o => some (u.slot, 0x19, o.toBits)
  | .vshr u o => some (u.slot, 0x1a, o.toBits)
  | .vsar u o => some (u.slot, 0x1b, o.toBits)
  | .vadds u o => some (u.slot, 0x1c, o.toBits)
  | .vsubs u o => some (u.slot, 0x1d, o.toBits)
  | .vmullo u o => some (u.slot, 0x1e, o.toBits)
  | .vdot u o => some (u.slot, 0x1f, o.toBits)
  | .vdota u o => some (u.slot, 0x20, o.toBits)
  | .vrsum u o => some (u.slot, 0x21, o.toBits)
  | .vrmax u o => some (u.slot, 0x22, o.toBits)
  | .vrmin u o => some (u.slot, 0x23, o.toBits)
  | .vbcast u o => some (u.slot, 0x24, o.toBits)
  | .vmovi u o => some (u.slot, 0x25, o.toBits)
  | .vmov u o => some (u.slot, 0x26, o.toBits)
  | .vidx u o => some (u.slot, 0x27, o.toBits)
  | .vclz u o => some (u.slot, 0x28, o.toBits)
  | .vpopc u o => some (u.slot, 0x29, o.toBits)
  | .vround u o => some (u.slot, 0x2a, o.toBits)
  | .vclamp u o => some (u.slot, 0x2b, o.toBits)
  | .vperm o => some (4, 0x40, o.toBits)
  | .vxgrp o => some (4, 0x41, o.toBits)
  | .vshuf o => some (4, 0x42, o.toBits)
  | .vpack o => some (4, 0x43, o.toBits)
  | .vunpk o => some (4, 0x44, o.toBits)
  | .qrd o => some (4, 0x45, o.toBits)
  | .sfeed o => some (4, 0x46, o.toBits)
  | .cmul o => some (5, 0x01, o.toBits)
  | .cmulc o => some (5, 0x02, o.toBits)
  | .cmulq o => some (5, 0x03, o.toBits)
  | .cmuli o => some (5, 0x04, o.toBits)
  | .cmula o => some (5, 0x05, o.toBits)
  | .qwr o => some (5, 0x06, o.toBits)
  | .qclr o => some (5, 0x07, o.toBits)
  | .qmov o => some (5, 0x08, o.toBits)
  | .qadd o => some (5, 0x09, o.toBits)
  | .qfill o => some (5, 0x0a, o.toBits)
  | .qsave o => some (5, 0x0b, o.toBits)
  | .qload o => some (5, 0x0c, o.toBits)
  | .qthr o => some (5, 0x0d, o.toBits)
  | .lds o => some (6, 0x01, o.toBits)
  | .sts o => some (6, 0x02, o.toBits)
  | .ldsv o => some (6, 0x03, o.toBits)
  | .stsv o => some (6, 0x04, o.toBits)
  | .ldg o => some (6, 0x05, o.toBits)
  | .stg o => some (6, 0x06, o.toBits)
  | .ldgv o => some (6, 0x07, o.toBits)
  | .stgv o => some (6, 0x08, o.toBits)
  | .stnt o => some (6, 0x09, o.toBits)
  | .stntv o => some (6, 0x0a, o.toBits)
  | .lda o => some (6, 0x0b, o.toBits)
  | .stl o => some (6, 0x0c, o.toBits)
  | .rmws o => some (6, 0x0d, o.toBits)
  | .atomg o => some (6, 0x0e, o.toBits)
  | .atomn o => some (6, 0x0f, o.toBits)
  | .acqb o => some (6, 0x10, o.toBits)
  | .relb o => some (6, 0x11, o.toBits)
  | .ldp o => some (6, 0x12, o.toBits)
  | .stp o => some (6, 0x13, o.toBits)
  | .gath o => some (6, 0x14, o.toBits)
  | .scat o => some (6, 0x15, o.toBits)
  | .ldk o => some (6, 0x16, o.toBits)
  | .pref o => some (6, 0x17, o.toBits)
  | .copy o => some (7, 0x01, o.toBits)
  | .subs o => some (7, 0x02, o.toBits)
  | .unsub o => some (7, 0x03, o.toBits)
  | .bara o => some (7, 0x04, o.toBits)
  | .barw o => some (7, 0x05, o.toBits)
  | .baraw o => some (7, 0x06, o.toBits)
  | .fput o => some (7, 0x07, o.toBits)
  | .fget o => some (7, 0x08, o.toBits)
  | .fred o => some (7, 0x09, o.toBits)
  | .cmo o => some (7, 0x0a, o.toBits)
  | .rpub o => some (7, 0x0b, o.toBits)
  | .rpop o => some (7, 0x0c, o.toBits)
  | .smpBind o => some (7, 0x10, o.toBits)
  | .smpLoad o => some (7, 0x11, o.toBits)
  | .smpReset o => some (7, 0x12, o.toBits)
  | .smpDraw o => some (7, 0x14, o.toBits)
  | .smpGreedy o => some (7, 0x16, o.toBits)
  | .smpThr o => some (7, 0x17, o.toBits)
  | .smpFlush o => some (7, 0x18, o.toBits)
  | .bflip => some (7, 0x19, 0)
  | .smpMergeOut o => some (7, 0x13, o.toBits)
  | .smpMergeIn o => some (7, 0x13, o.toBits)
  | .smpCommit o => some (7, 0x15, o.toBits)
  | .smpCommitPend o => some (7, 0x15, o.toBits)
  | .smpCommitSettle o => some (7, 0x15, o.toBits)
  | _ => none

/-- The 32-bit slot word of a slot operation under a guard (R247). -/
def encodeSlotWord (guard : BitVec 5) (i : Instr) : Option (BitVec 32) :=
  match encodeOp i with
  | some (_, opc, opd) => some ((guard ++ opc ++ opd : BitVec 32))
  | none => none

/-- The words of a well-formed instruction, as one number of so many bits: a logit instruction's 16 bits (R365), or
the bundle of one slot operation: its header with one MASK bit, then its slot word (R241, R242, R247). -/
def encode (i : Instr) : Option (Nat × Nat) :=
  match encodeLogit i with
  | some w => some (16, w.toNat)
  | none =>
    match encodeOp i with
    | some (slot, opc, opd) => some (64, 2 ^ slot + 2 ^ 32 * ((0#5 ++ opc ++ opd : BitVec 32)).toNat)
    | none => none

/-- The slot of a header whose MASK has exactly one bit and nothing else set (R241). -/
def oneSlot (h : Nat) : Option Nat :=
  match h with
  | 1 => some 0 | 2 => some 1 | 4 => some 2 | 8 => some 3
  | 16 => some 4 | 32 => some 5 | 64 => some 6 | 128 => some 7
  | _ => none

/-- The instruction whose bits are w (bit 0 the least significant bit of the first word): 16 bits are a logit
instruction (R365); 64 bits a bundle of one slot operation under guard 0; 32 bits the empty bundle's header (R244),
the no-operation of every slot. -/
def decodeTableWord (nbits w : Nat) : Option Instr :=
  if nbits = 16 then (decodeLogit (BitVec.ofNat 16 w)).toOption
  else if nbits = 32 then (if w % 2 ^ 32 = 0 then some (.nop 0) else none)
  else if nbits = 64 then
    match oneSlot (w % 2 ^ 32) with
    | some slot =>
      match decodeSlotWord slot (BitVec.ofNat 32 (w / 2 ^ 32)) with
      | .ok (0, i) => some i
      | _ => none
    | none => none
  else none

end Sys2Proof
end

