-- ==== Sys2Proof/Machine/Candidates.lean ====
section
/-! DEFINITION. Sequence descriptors, candidate lists and draws of the sampler (15 R362 to R378), and the batching table that commits edit (15 R383, R384). -/

namespace Sys2Proof.Machine

/-! Descriptors -/

/-- A field of a descriptor: n little-endian bytes at an offset. -/
def field (d : List Byte) (off n : Nat) : Nat := leNat ((d.drop off).take n)

/-- Fields of a sequence descriptor (R364). -/
def sdVbase (d : List Byte) : Nat := field d 128 4
def sdVlen (d : List Byte) : Nat := field d 132 4
def sdTmoff (d : List Byte) : Nat := field d 136 4
def sdFlen (d : List Byte) : Nat := field d 152 1
def sdDlen (d : List Byte) : Nat := field d 153 1
def sdTopk (d : List Byte) : Nat := field d 154 1
def sdNshard (d : List Byte) : Nat := field d 155 1
def sdShard (d : List Byte) : Nat := field d 156 1
def sdDone (d : List Byte) : Nat := field d 160 4
/-- Constant c of the program. -/
def sdConst (d : List Byte) (c : Nat) : BitVec 32 := BitVec.ofNat 32 (field d (64 + 4 * c) 4)
/-- Program words from position i, n of them. -/
def sdProg (d : List Byte) (i n : Nat) : List (BitVec 16) :=
  (List.range n).map fun k => BitVec.ofNat 16 (field d (2 * (i + k)) 2)

/-- Whether a phase of a program is legal (R367): every word decodes, and LGOUT stands last and only there. -/
def phaseOk (draw : Bool) : List (BitVec 16) → Bool
  | [] => false
  | w :: ws =>
    match decodeLogit w with
    | .error _ => false
    | .ok (.lgout _) => ws.isEmpty
    | .ok (.lgmaxv _) => draw && phaseOk draw ws
    | .ok _ => phaseOk draw ws

/-- Whether a descriptor follows R364 and its program R367. -/
def sdOk (d : List Byte) : Bool :=
  sdVbase d % 1024 = 0 && sdVlen d % 1024 = 0 && decide (1024 ≤ sdVlen d ∧ sdVlen d ≤ 2 ^ 20) &&
  sdTmoff d % 128 = 0 && decide (8192 ≤ sdTmoff d) && decide (1 ≤ sdFlen d ∧ sdFlen d + sdDlen d ≤ 32) &&
  decide (1 ≤ sdTopk d ∧ sdTopk d ≤ 64) && decide (1 ≤ sdNshard d ∧ sdNshard d ≤ 8) &&
  decide (sdShard d < sdNshard d) && field d 157 1 = 0 && sdDone d % 8 = 0 && (d.drop 172).all (· == 0) &&
  phaseOk false (sdProg d 0 (sdFlen d)) && (sdDlen d = 0 || phaseOk true (sdProg d (sdFlen d) (sdDlen d)))

/-- Whether a token lies in the shard. -/
def inShard (d : List Byte) (t : Nat) : Bool := decide (sdVbase d ≤ t ∧ t < sdVbase d + sdVlen d)

/-! Candidate lists -/

/-- Rank of a value (R370): totalOrder, every NaN below −∞. -/
def candKey (v : BitVec 32) : Int := if (fp32.val v.toNat).isNan then -2 ^ 40 else fpKey fp32 v.toNat
/-- better(u, v) (R370). -/
def Cand.better (u v : Cand) : Bool :=
  decide (candKey v.value < candKey u.value) || (candKey u.value = candKey v.value && decide (u.token < v.token))
/-- A pair at its rank in a list. -/
def insertRank (c : Cand) : List Cand → List Cand
  | [] => [c]
  | x :: xs => if c.better x then c :: x :: xs else x :: insertRank c xs
/-- insert: the best 64 pairs (R370). -/
def insertCand (l : List Cand) (c : Cand) : List Cand := (insertRank c l).take 64

/-- The exported threshold of a record (R371), FP32 bits. -/
def SlotRec.threshold (r : SlotRec) : Nat :=
  let minf := 0xFF800000
  let bsc := fp32.val (field r.desc 164 4)
  match r.cands.drop 63, bsc with
  | c :: _, .fin false (n + 1) d =>
    match fp32.val c.value.toNat with
    | .nan _ => minf
    | v => (roundFp (FpVal.mul (FpVal.add v (fp32.val (field r.desc 168 4)).neg) (.fin false d (n + 1))) fp32 .rdn false).1
  | _, _ => minf

/-! The candidate image (R374, R375) -/

/-- The 576 bytes of a record's image. -/
def SlotRec.image (r : SlotRec) : List Byte :=
  ((r.cands ++ List.replicate (64 - r.cands.length) (default : Cand)).map fun (c : Cand) => natLe 4 c.value.toNat ++ natLe 4 c.token).flatten ++
  natLe 4 r.step ++ natLe 4 (field r.desc 140 4) ++ natLe 1 r.cands.length ++ natLe 1 (sdShard r.desc) ++
  List.replicate 54 0

/-- The record after an image is merged, or unchanged when the image is ignored. -/
def SlotRec.merge (r : SlotRec) (b : List Byte) : SlotRec :=
  let sh := field b 521 1
  if field b 512 4 ≠ r.step || field b 516 4 ≠ field r.desc 140 4 || sdNshard r.desc ≤ sh || bit r.mask sh ||
      !(b.drop 522).all (· == 0) then r
  else
    let ents := (List.range (min 64 (field b 520 1))).map fun n =>
      { value := BitVec.ofNat 32 (field b (8 * n) 4), token := field b (8 * n + 4) 4 : Cand }
    { r with cands := ents.foldl insertCand r.cands, mask := r.mask + 2 ^ sh }

/-! The draw (R376, R377) -/

/-- Rounds of Philox-4x32-10, the key advanced between rounds (R376). -/
def philoxAux : Nat → Nat × Nat × Nat × Nat → Nat × Nat → Nat × Nat × Nat × Nat
  | 0, c, _ => c
  | n + 1, (c0, c1, c2, c3), (k0, k1) =>
    let p0 := 0xD2511F53 * c0
    let p1 := 0xCD9E8D57 * c2
    philoxAux n
      (Nat.xor (Nat.xor (p1 / 2 ^ 32 % 2 ^ 32) c1) k0, p1 % 2 ^ 32, Nat.xor (Nat.xor (p0 / 2 ^ 32 % 2 ^ 32) c3) k1, p0 % 2 ^ 32)
      ((k0 + 0x9E3779B9) % 2 ^ 32, (k1 + 0xBB67AE85) % 2 ^ 32)
/-- philox(c, k) (R376). -/
def philox (c : Nat × Nat × Nat × Nat) (k : Nat × Nat) : Nat × Nat × Nat × Nat := philoxAux 10 c k

/-- Result word (R378). -/
def resultWord (step token rank status : Nat) : Nat :=
  step % 2 ^ 16 * 2 ^ 48 + status * 2 ^ 40 + rank * 2 ^ 32 + token % 2 ^ 32

/-- The weight of a value against the best one (R377), FP32 bits. -/
def drawWeight (m y : BitVec 32) : Nat :=
  let one := 0x3F800000
  match fp32.val m.toNat, fp32.val y.toNat with
  | .inf false, .inf false => one
  | .inf false, _ => 0
  | .nan _, _ => 0
  | _, .nan _ => 0
  | _, .inf true => 0
  | vm, vy =>
    let z := (rne32 (FpVal.mul (FpVal.add vy vm.neg) (fp32.val 0x3FB8AA3B))).1
    (rne32 (exp2Real (fp32.val z))).1

/-- The running sums C[n], FP32 bits (R377). -/
def drawSums : Option Nat → List Nat → List Nat
  | _, [] => []
  | none, w :: ws => w :: drawSums (some w) ws
  | some c, w :: ws =>
    let x := (rne32 (FpVal.add (fp32.val c) (fp32.val w))).1
    x :: drawSums (some x) ws

/-- (2x + 1) × total < 2^33 × c, exactly (R377). -/
def drawBelow (x total c : Nat) : Bool :=
  (FpVal.mul (.ofInt (2 * x + 1)) (fp32.val total)).lt (FpVal.mul (.ofInt (2 ^ 33)) (fp32.val c))

/-- The result of DRAW or GREEDY from the entries that the draw phase left (R377): token, rank, status. -/
def drawFrom (l : List Cand) (greedy : Bool) (x : Nat) : Nat × Nat × Nat :=
  match l with
  | [] => (0xFFFFFFFF, 0, 3)
  | c0 :: rest =>
    let m := (rest.foldl (fun a c => if candKey a.value < candKey c.value then c else a) c0).value
    if greedy then (c0.token, 0, 1)
    else
      let cs := drawSums none ((c0 :: rest).map fun c => drawWeight m c.value)
      let total := cs.getLastD 0
      if (fp32.val total).isZero then (c0.token, 0, 1)
      else
        match firstFrom (fun n => drawBelow x total (cs.getD n 0)) cs.length 0 with
        | some n => (((c0 :: rest).getD n c0).token, n, 0)
        | none => (((c0 :: rest).getLastD c0).token, cs.length - 1, 0)

/-! The batching table -/

/-- Entries of a partition's table on a die, and whether it is enabled (R383, R386). -/
def State.bbtSize (s : State) (i : Nat) : Nat := 2 ^ min 12 (s.getF BBT_CFG.LOG2N i)
/-- Virtual address of an entry of an image. -/
def State.bbtEntry (s : State) (i image idx : Nat) : Nat :=
  s.getF BBT_CFG.BASE i * 128 + image * 32 * s.bbtSize i + 32 * idx

/-- An edit written to an image: the entry whole (R384). -/
def State.bbtWrite (s : State) (i image : Nat) (e : Edit) : State :=
  let die := i / 16
  let part := i % 16
  let va := s.bbtEntry i image e.idx
  let old := (s.vread die part va 32 0).getD (List.replicate 32 0)
  let new := (List.range 32).map fun k => if e.mask.getD k false then e.bytes.getD k 0 else old.getD k 0
  (s.vwrite die part 0 2 va new).getD s

/-- An edit is accepted (R384): it writes the shadow image and joins the log, waits for a replay to end, or is ignored
with ERR. -/
def State.bbtAccept (s : State) (i : Nat) (e : Edit) : State :=
  let b := s.bbt.look i
  let die := i / 16
  let part := i % 16
  let bad (image : Nat) : Bool := (s.rangeFault die part (s.bbtEntry i image e.idx) 32 1).isSome
  if b.replaying then { s with bbt := s.bbt.put i { b with waiting := b.waiting ++ [e] } }
  else if s.getF BBT_CFG.EN i = 0 || s.bbtSize i ≤ e.idx || 256 ≤ b.log.length || bad 0 || bad 1 then
    s.setF BBT_EDIT_CTL.ERR i 1
  else
    let s := s.bbtWrite i (1 - b.live) e
    let s := { s with bbt := s.bbt.upd i fun b => { b with log := b.log ++ [e] } }
    s.setF BBT_STAT.LOG i (b.log.length + 1)

/-- An edit of selected fields (R379, R383): pairs of offset and bytes. -/
def editOf (idx : Nat) (fs : List (Nat × List Byte)) : Edit :=
  let at_ (k : Nat) : Option Byte := fs.findSome? fun f => if f.1 ≤ k && k < f.1 + f.2.length then f.2[k - f.1]? else none
  { idx := idx, bytes := (List.range 32).map fun k => (at_ k).getD 0,
    mask := (List.range 32).map fun k => (at_ k).isSome }

end Sys2Proof.Machine
end

