-- ==== Sys2Proof/Machine/Engine.lean ====
section
/-! DEFINITION. Engine commands of slot 7 as they issue (14 R349 to R355, R358): their descriptors, their checks, the descriptor or entry they take. What their engines do is in CopyEngine.lean and Rhizoid.lean. -/

namespace Sys2Proof.Machine

/-! Rings (R319) -/

/-- A ring table entry: BASE, SLOT, COUNT, PUB, HEAD. -/
structure RingEnt where
  base : Nat
  slot : Nat
  count : Nat
  pub : Nat
  head : Nat
  deriving DecidableEq, Repr

/-- Entry n of a context's ring table. -/
def State.ringEnt (s : State) (core ctx n : Nat) : RingEnt :=
  let f (o k : Nat) : Nat := s.spadNat core ctx (16 * n + o) k
  { base := f 0 4, slot := f 4 2, count := f 6 2, pub := f 8 4, head := f 12 4 }
/-- Bytes of a slot. -/
def RingEnt.slotBytes (r : RingEnt) : Nat := 128 * r.slot
/-- Offset of slot x. -/
def RingEnt.slotAt (r : RingEnt) (x : Nat) : Nat := r.base + x % max 1 r.count * r.slotBytes
/-- TAIL and sequence of a ring's publish word. -/
def State.ringTail (s : State) (core ctx : Nat) (r : RingEnt) : Nat := s.spadNat core ctx r.pub 4
def State.ringSeq (s : State) (core ctx : Nat) (r : RingEnt) : Nat := s.spadNat core ctx (r.pub + 4) 4
/-- A ring's entry and its publish word lie in the partition. -/
def State.ringBounds (s : State) (n : Nat) : Check :=
  (s.spadCheck (16 * n) 16).and (s.spadCheck (s.ringEnt s.env.core s.env.ctx n).pub 8)

/-! The common frame (R349) -/

/-- The command's shape register. -/
def State.hxWord (s : State) (o : XE) : Word := s.shapeRead 2 o.hx o.sw
/-- START of a command. -/
def State.hxStart (s : State) (o : XE) : Nat := bits (s.hxWord o).toNat 63 32
/-- Bits 31:0 of the shape register are zero. -/
def State.hxCheck (s : State) (o : XE) : Check := .when (decide ((s.hxWord o).toNat % 2 ^ 32 ≠ 0)) 0x08
/-- A START below the command's own issue cycle is a timing fault, in timetable mode (R175). -/
def State.startCheck (s : State) (o : XE) : Check :=
  .when (!s.cur.dynamic && decide (s.hxStart o + s.cur.shift < s.env.lc)) 0x42

/-- Position of a core in its cluster, and its copy engine (R350). -/
def copyEngineOf (core : Nat) : Nat := 8 * dieOf core + core % 8
/-- The fabric interface of a core. -/
def fabricEngineOf (core : Nat) : Nat := 100 + core

/-- Phase at which a command begins: ring commands write as slot 7 of their tick (R353). -/
def beginPhase (k : CmdKind) (core : Nat) : Nat :=
  match k with
  | .rpub | .rpop => phStore + 1
  | _ => phStart core

/-- A command is taken; it begins now in dynamic mode and at a START of this cycle, otherwise at its START (R349). -/
def State.newCmd (s : State) (start : Option Nat) (c : Cmd) : State :=
  let (id, s) := s.newId
  let c := { c with
    id := id, task := s.env.task, idx := s.env.idx, core := s.env.core, ctx := s.env.ctx
    die := dieOf s.env.core, part := s.cur.part }
  let now := match start with
    | some x => s.cur.dynamic || x + s.cur.shift = s.env.lc
    | none => true
  let s := { s with cmds := s.cmds.put id { c with start := if now then none else start } }
  if now then s.sched s.now (beginPhase c.kind c.core) (.engineStart id) else s

/-- A command of layout XE: its shape register is read and swapped (R323, R349). -/
def State.engineOp (s : State) (i : Instr) (o : XE) (c : Check) (f : State → Nat → State) :
    Host.Outcome State Fault Refusal :=
  let start := s.hxStart o
  s.command i ((s.hxCheck o).and c) fun s => f (s.shapeSwap 2 o.hx o.sw) start

/-! Copy descriptors (R350) -/

/-- Signed 32-bit field. -/
def sfield (d : List Byte) (off : Nat) : Int := sintN 32 (field d off 4)

/-- Space of an address kind, and its address. -/
def addrSpace (a : Nat) : Nat := if bits a 63 62 ≤ 1 then 0 else bits a 63 62
def addrOf (a : Nat) : Nat := if bits a 63 62 ≤ 1 then a else a % 2 ^ 62

/-- Whether a descriptor follows the tables of R350; B, E of the command's CTL. -/
def copyOk (d : List Byte) (e : Bool) : Bool :=
  let src := field d 0 8
  let dst := field d 8 8
  let len := field d 16 4
  let rows := field d 20 2
  let done := field d 32 4
  decide (len ≠ 0 ∧ rows ≠ 0) && field d 22 2 = 0 && addrSpace src ≠ 3 &&
  (addrSpace src ≠ 2 || bits src 61 21 = 0) &&
  (if e then addrSpace dst = 0
   else (addrSpace dst ≠ 2 || bits dst 61 21 = 0) && (addrSpace dst ≠ 3 || (bits dst 61 5 = 0 && len * rows = 512))) &&
  bits done 30 21 = 0 && bits done 2 0 = 0 && !bit (field d 37 1) 6 &&
  (e || field d 38 6 = 0) && (d.drop 44).all (· == 0)

/-- The differences of FPUT and FGET (R354). -/
def fabricOk (d : List Byte) (put : Bool) : Bool :=
  copyOk d false && decide (field d 16 4 * field d 20 2 ≤ 4096) &&
  (if put then addrSpace (field d 0 8) = 2 && addrSpace (field d 8 8) = 0
   else addrSpace (field d 0 8) = 0 && addrSpace (field d 8 8) = 2)

/-- The command of a copy descriptor. -/
def copyCmd (kind : CmdKind) (d : List Byte) (e : Bool) (v : Word) : Cmd :=
  let src := field d 0 8
  let dst := field d 8 8
  { kind := kind
    srcSpace := addrSpace src, src := addrOf src
    dstSpace := if e then 5 else addrSpace dst, dst := if e then dst else addrOf dst
    len := field d 16 4, rows := field d 20 2, sstr := sfield d 24, dstr := sfield d 28
    done := if bit (field d 32 4) 31 then none else some (bits (field d 32 4) 20 3 * 8)
    doneVal := v
    brt := if bit (field d 37 1) 7 then some (field d 37 1 % 64) else none
    job := field d 38 3, pid := bits (field d 41 3) 11 0, ridx := bits (field d 41 3) 23 12 }

/-- The descriptor of a command: 64 bytes of the partition. -/
def State.xeDesc (s : State) (o : XE) : List Byte := s.spadBytes s.env.core s.env.ctx (s.sv o.a).toNat 64
/-- Fields of CTL. -/
def xeB (o : XE) : Bool := o.ctl.getLsbD 0
def xeLevel (o : XE) : Nat := (o.ctl.extractLsb' 1 2).toNat
def xeE (o : XE) : Bool := o.ctl.getLsbD 3

/-- Copy descriptors that a task holds (R359). -/
def State.cedHeld (s : State) (task : Nat) : Nat :=
  (s.cmds.filter fun e => e.2.task = task && e.2.holds &&
    (e.2.kind = .copy || e.2.kind = .smpLoad || e.2.kind = .smpFlush)).length
/-- One more copy descriptor (R183). -/
def State.cedCheck (s : State) : Check := .when (decide (s.cur.hdrNat 30 2 ≤ s.cedHeld s.env.task)) 0x52
/-- One more fabric-buffer entry (R183). -/
def State.fbeCheck (s : State) : Check := .when (decide (s.cur.hdrNat 34 2 ≤ s.fabHeld s.env.task)) 0x53

/-- The barrier that a command names: its number is declared below level domain, and the add does not carry (R47,
R351). -/
def State.pendCheck (s : State) (o : XE) (d : List Byte) : Check :=
  if !xeB o then .pass
  else
    let bar := field d 36 1
    (Check.when (decide (xeLevel o < 3 ∧ s.cur.hdrNat 32 2 ≤ bar)) 0x55).and
      (.when (decide (2 ^ 64 ≤ (s.barriers.look (s.barKey (xeLevel o) bar s.env.task)).pending +
        field d 16 4 * field d 20 2)) 0x56)

/-- The checks of COPY, FPUT and FGET: the descriptor, START, bounds, occupancies. -/
def State.copyCheck (s : State) (o : XE) (ok : List Byte → Bool) (occ : Check) : Check :=
  let off := (s.sv o.a).toNat
  let inside := s.mine.holds off 64
  (Check.when (off % 64 ≠ 0 || (inside && !ok (s.xeDesc o))) 0x08).and
    ((s.startCheck o).and ((s.spadCheck off 64).and (occ.and (s.pendCheck o (s.xeDesc o)))))

/-- A copy, put or get is taken; with B its bytes are added to the barrier at issue (R351). -/
def State.takeCopy (s : State) (kind : CmdKind) (o : XE) (eng : Nat) (start : Nat) : State :=
  let d := s.xeDesc o
  let k := s.barKey (xeLevel o) (field d 36 1) s.env.task
  let c := { copyCmd kind d (xeE o) (s.sv o.b) with engine := some eng, barrier := if xeB o then some k else none }
  (if xeB o then s.barAdd k s.env.task (c.len * c.rows) else s).newCmd (some start) c

/-- COPY (R350, R351). -/
def execCopy (o : XE) (s : State) : Host.Outcome State Fault Refusal :=
  s.engineOp (.copy o) o (s.copyCheck o (fun d => copyOk d (xeE o)) s.cedCheck) fun s start =>
    s.takeCopy .copy o (copyEngineOf s.env.core) start

/-- FPUT (R354). -/
def execFput (o : XE) (s : State) : Host.Outcome State Fault Refusal :=
  s.engineOp (.fput o) o (s.copyCheck o (fun d => !xeE o && fabricOk d true) s.fbeCheck) fun s start =>
    s.takeCopy .put o (fabricEngineOf s.env.core) start

/-- FGET (R354). -/
def execFget (o : XE) (s : State) : Host.Outcome State Fault Refusal :=
  s.engineOp (.fget o) o (s.copyCheck o (fun d => !xeE o && fabricOk d false) s.fbeCheck) fun s start =>
    s.takeCopy .get o (fabricEngineOf s.env.core) start

/-! Rings and subscriptions (R353) -/

/-- Whether a ring has a subscription that is active or not yet released. -/
def State.ringBusy (s : State) (core ctx ring : Nat) : Bool :=
  s.subs.any (fun e => e.2.core = core && e.2.ctx = ctx && e.2.ring = ring) ||
  s.cmds.any fun e => e.2.kind = .subs && e.2.core = core && e.2.ctx = ctx && e.2.ring = ring

/-- Virtual address of entry i of the partition's subscription table on the die. -/
def State.subVa (s : State) (die part i : Nat) : Nat := s.getF MSL_SUB_BASE.BASE (16 * die + part) * 64 + 64 * i

/-- Whether a subscription descriptor follows R153, for a ring's slot size. -/
def subOk (d : List Byte) (slotBytes : Nat) : Bool :=
  let rb := field d 8 2
  let rows := field d 10 2
  field d 0 8 % 16 = 0 && rb % 16 = 0 && decide (16 ≤ rb ∧ rb ≤ 2048 ∧ 1 ≤ rows ∧ rows ≤ 256) &&
  field d 12 4 % 16 = 0 && (List.range 4).all (fun l => decide (field d (16 + 2 * l) 2 ≠ 0) && field d (24 + 8 * l) 8 % 16 = 0) &&
  field d 56 1 / 2 = 0 && (d.drop 57).all (· == 0) && decide (rb * rows ≤ slotBytes)

/-- Ring of a command. -/
def xeRing (o : XE) : Nat := (o.ctl.extractLsb' 0 4).toNat

/-- The descriptor that SUBS names, none when the table does not translate. -/
def State.subDesc (s : State) (i : Nat) : Option (List Byte) :=
  s.vread (dieOf s.env.core) s.cur.part (s.subVa (dieOf s.env.core) s.cur.part i) 64 0

/-- The checks of SUBS (R153, R155, R353). -/
def State.subsCheck (s : State) (o : XE) : Check :=
  let die := dieOf s.env.core
  let part := s.cur.part
  let i := (s.sv o.a).toNat
  let n := xeRing o
  let bad : Check :=
    if 2 ^ min 12 (s.getF MSL_SUB_BASE.LOG2N (16 * die + part)) ≤ i then .when true 0x17
    else
      match s.rangeFault die part (s.subVa die part i) 64 0 with
      | some f => { cause := f.1, faddr := f.2 }
      | none =>
        let d := (s.subDesc i).getD []
        let pa := (s.agentXlate die part (field d 0 8) 0).2.pa (field d 0 8)
        (Check.when (!subOk d (s.ringEnt s.env.core s.env.ctx n).slotBytes) 0x17).and
          (if paD pa then s.fbeCheck else .pass)
  (s.startCheck o).and (((s.ringBounds n).and bad).and (.when (s.ringBusy s.env.core s.env.ctx n) 0x57))

/-- SUBS (R153, R353): the descriptor is copied at issue. -/
def execSubs (o : XE) (s : State) : Host.Outcome State Fault Refusal :=
  s.engineOp (.subs o) o (s.subsCheck o) fun s start =>
    let d := (s.subDesc (s.sv o.a).toNat).getD []
    s.newCmd (some start) { kind := .subs, desc := d, src := field d 0 8, ring := xeRing o }

/-- UNSUB (R353). -/
def execUnsub (o : XE) (s : State) : Host.Outcome State Fault Refusal :=
  s.engineOp (.unsub o) o (s.startCheck o) fun s start => s.newCmd (some start) { kind := .unsub, ring := xeRing o }

/-- RPUB (R353). -/
def execRpub (o : XE) (s : State) : Host.Outcome State Fault Refusal :=
  s.engineOp (.rpub o) o
    ((s.startCheck o).and ((s.ringBounds (xeRing o)).and (.when (s.ringBusy s.env.core s.env.ctx (xeRing o)) 0x57)))
    fun s start => s.newCmd (some start) { kind := .rpub, ring := xeRing o, count := (s.sv o.a).toNat % 2 ^ 32 }

/-- RPOP: not while cube operations hold slots of the ring (R353). -/
def execRpop (o : XE) (s : State) : Host.Outcome State Fault Refusal :=
  s.engineOp (.rpop o) o
    ((Check.when (decide (s.mine.ringP.look (xeRing o) ≠ 0)) 0x08).and
      ((s.startCheck o).and (s.spadCheck (16 * xeRing o) 16)))
    fun s start => s.newCmd (some start) { kind := .rpop, ring := xeRing o, count := (s.sv o.a).toNat % 2 ^ 32 }

/-! The all-reduce (R49, R355) -/

/-- Fields of an all-reduce descriptor: DST, SRC, BARRIER, COUNT, OP, TYPE. -/
structure RedDesc where
  dst : Nat
  src : Nat
  bar : Nat
  count : Nat
  op : Nat
  ty : Nat
  low : Nat
  deriving DecidableEq, Repr

/-- The descriptor at an offset of the partition. -/
def State.redDesc (s : State) (off : Nat) : RedDesc :=
  let v := s.spadNat s.env.core s.env.ctx off 16
  { dst := bits v 127 64, src := bits v 63 32, bar := bits v 31 24, count := bits v 23 16, op := bits v 15 12,
    ty := bits v 11 8, low := bits v 7 0 }
/-- Bytes of the contribution. -/
def RedDesc.bytes (r : RedDesc) : Nat := r.count * (if r.ty = 2 then 8 else 4)
/-- Whether a descriptor follows R49. -/
def RedDesc.ok (r : RedDesc) : Bool :=
  r.low = 0 && decide (r.op ≤ 2 ∧ r.ty ≤ 2 ∧ 1 ≤ r.count ∧ r.count ≤ (if r.ty = 2 then 16 else 32)) &&
  r.dst % 128 = 0 && r.src % 128 = 0

/-- The checks of FRED: descriptor, START, bounds, entry, and its arrival at the domain barrier (R355, R357). -/
def State.fredCheck (s : State) (o : XE) : Check :=
  let off := (s.sv o.a).toNat
  let r := s.redDesc off
  let n := barCount 3 r.bar
  let inside := s.mine.holds off 16
  (Check.when (inside && !r.ok) 0x08).and ((s.startCheck o).and ((s.spadCheck off 16).and
    ((s.spadCheck r.src r.bytes).and ((s.spadCheck r.dst r.bytes).and (s.fbeCheck.and
      (.when (decide (s.mine.barR.look n < s.mine.barA.look n)) 0x55))))))

/-- FRED: the core's arrival at domain barrier BARRIER, and its contribution (R355). -/
def execFred (o : XE) (s : State) : Host.Outcome State Fault Refusal :=
  s.engineOp (.fred o) o (s.fredCheck o) fun s start =>
    let r := s.redDesc (s.sv o.a).toNat
    let s := { s with allred := s.allred.upd r.bar fun a => { a with expect := a.expect + 1 } }
    (s.arrive 3 r.bar).newCmd (some start)
      { kind := .fred, engine := some (fabricEngineOf s.env.core), src := r.src, dst := r.dst, len := r.bytes, ring := r.bar
        count := r.count, op := r.op, lvl := r.ty }

/-! Cache maintenance (R144, R145, R358) -/

/-- What a maintenance operation finds at a page: 0 and the translation to act on, 1 and nothing where it skips, or the
fault. Operation 0 cleans and needs no permission, 1 and 2 need W. -/
def State.cmoPage (s : State) (core part va op : Nat) : Nat × Option Xlate :=
  let at_ (k : Nat) := s.coreXlate core part va k
  let r := if op = 0 then
      (if (at_ 0).1 ≠ 0x13 then at_ 0 else if (at_ 1).1 ≠ 0x13 then at_ 1 else at_ 3)
    else at_ 1
  if r.1 = 0 then
    (if r.2.mt va ≠ 0 || isHost (r.2.pa va) then (0, none) else (0, some r.2))
  else if r.1 = 0x12 || (op = 0 && r.1 = 0x13) then (0, none)
  else (r.1, none)

/-- Length of the range: 0 makes a no-op, more than 2^32 acts as 2^32. -/
def cmoLen (v : Word) : Nat := min v.toNat (2 ^ 32)

/-- CMO: begins at issue, runs beside later bundles (R358). -/
def execCmo (o : XC) (s : State) : Host.Outcome State Fault Refusal :=
  let va := (s.sv o.a).toNat
  let len := cmoLen (s.sv o.b)
  let c := (s.cmoPage s.env.core s.cur.part va o.op.toNat).1
  s.command (.cmo o) (.when (decide (len ≠ 0 ∧ c ≠ 0)) c va) fun s =>
    if len = 0 then s
    else
      let s := s.modBank s.b fun b => { b with maint := b.maint + 1 }
      let (id, s) := s.newId
      let k : Cmd :=
        { id := id, kind := .cmo, task := s.env.task, idx := s.env.idx, core := s.env.core, ctx := s.env.ctx
          die := dieOf s.env.core, part := s.cur.part, holds := false, src := va, len := len, op := o.op.toNat
          lvl := o.lvl.toNat }
      { s with cmds := s.cmds.put id k }.sched (s.now + 1) phMem (.cmoComplete id)

end Sys2Proof.Machine
end

