-- ==== Sys2Proof/Machine/Vector.lean ====
section
/-! DEFINITION. The vector slots V0 and V1 (12 R300 to R317). -/

namespace Sys2Proof.Machine

/-! Elements -/

/-- A result element with its flags. -/
abbrev Elem := Nat × Nat

/-- The vector and the union of flags of a list of result elements of w bits (R305). -/
def gather (w : Nat) (l : List Elem) : Vec × Nat := (ofElems w (l.map (·.1)), l.foldl (fun f e => f ||| e.2) 0)

/-- What float arithmetic reads of fmt at issue: rounding mode, FTZ for operations that follow it, F8SAT (R305). -/
structure FpEnv where
  rm : RMode
  ftz : Bool
  sat : Bool

/-- The environment of an operation; `ftzOp` says whether it follows FTZ. -/
def State.fpEnv (s : State) (ftzOp : Bool) : FpEnv :=
  { rm := fmtRM s.mine.fmt, ftz := ftzOp && fmtFTZ s.mine.fmt, sat := fmtF8SAT s.mine.fmt }

/-- fin (R305). -/
def FpEnv.read (e : FpEnv) (f : Fmt) (x : Nat) : FpVal := f.val (flushFp e.ftz f x)
/-- fout (R305). -/
def FpEnv.write (e : FpEnv) (f : Fmt) (v : FpVal) : Elem :=
  let r := roundFp v f e.rm (decide (f.width = 8) && e.sat)
  if e.ftz && f.isSub r.1 then (f.pack v.sign 0 0, r.2 ||| flUnderflow ||| flInexact) else r

/-- Exact results of the one-source float forms with the flags beyond rounding (R306). -/
def rcpReal : FpVal → FpVal × Nat
  | .nan q => (.nan q, 0)
  | .inf s => (.fin s 0 1, 0)
  | .fin s n d => if n = 0 then (.inf s, flDivZero) else (.fin s d n, 0)
def rsqReal : FpVal → FpVal × Nat
  | .nan q => (.nan q, 0)
  | .inf s => if s then (.nan true, 0) else (.fin false 0 1, 0)
  | .fin s n d =>
    if n = 0 then (.inf s, flDivZero) else if s then (.nan true, 0) else (sqrtReal d n, 0)
def sqrtOf : FpVal → FpVal × Nat
  | .nan q => (.nan q, 0)
  | .inf s => if s then (.nan true, 0) else (.inf false, 0)
  | .fin s n d => if n = 0 then (.fin s 0 1, 0) else if s then (.nan true, 0) else (sqrtReal n d, 0)
def exp2Of (v : FpVal) : FpVal × Nat := (exp2Real v, 0)
def log2Of : FpVal → FpVal × Nat
  | .nan q => (.nan q, 0)
  | .inf s => if s then (.nan true, 0) else (.inf false, 0)
  | .fin s n d =>
    if n = 0 then (.inf true, flDivZero) else if s then (.nan true, 0) else (log2Real n d, 0)

/-- VROUND of one element (R306): RTO acts as RTZ, and the only flag besides invalid is inexact. -/
def FpEnv.round (e : FpEnv) (f : Fmt) (x : Nat) : Elem :=
  match e.read f x with
  | .fin s n d =>
    let m := roundMag (if e.rm = .rto then .rtz else e.rm) s n d
    ((roundFp (.fin s m 1) f .rne false).1, if n % d = 0 then 0 else flInexact)
  | v => roundFp v f .rne false

/-- The value of an integer element (R308). -/
def intVal (w : Nat) (signed : Bool) (x : Nat) : Int := if signed then sintN w x else (x : Int)

/-- Lesser or greater by signedness (R308). -/
def minMaxInt (w : Nat) (signed isMax : Bool) (x y : Nat) : Nat :=
  if decide (intVal w signed x < intVal w signed y) = isMax then y else x

/-- VMIN or VMAX of two elements of a type (R307, R308). -/
def minMaxElem (ty : BitVec 4) (isMax : Bool) (x y : Nat) : Elem :=
  if tyFloat ty then minMaxFp (tyFmt ty) isMax x y else (minMaxInt (tyWidth ty) (tySigned ty) isMax x y, 0)

/-- Conversion of one element (R312). Between one float type and itself only a signalling NaN changes (R313). -/
def cvtElem (e : FpEnv) (src dst : BitVec 4) (x : Nat) : Elem :=
  if tyFloat src then
    if src = dst && (tyFmt src).val x ≠ .nan true then (x, 0)
    else if tyFloat dst then { e with ftz := false }.write (tyFmt dst) ((tyFmt src).val x)
    else
      let r := realToInt ((tyFmt src).val x) (tyWidth dst) (tySigned dst) e.rm
      (truncInt r.1 (tyWidth dst), r.2)
  else
    let v := intVal (tyWidth src) (tySigned src) x
    if tyFloat dst then { e with ftz := false }.write (tyFmt dst) (FpVal.ofInt v)
    else
      let r := satInt v (tyWidth dst) (tySigned dst)
      (truncInt r.1 (tyWidth dst), if r.2 then flIntOvf else 0)

/-! Forms -/

/-- Energy class of an element width (R304). -/
def vClass (w : Nat) : Nat := if w = 32 then 3 else 4

/-- A vector operation at its issue (R301, R304): class, event 0x09, the result and its flags at one landing. -/
def State.vector (s : State) (i : Instr) (u : VUnit) (d : BitVec 5) (off cls : Nat) (r : State → Vec × Nat) :
    Host.Outcome State Fault Refusal :=
  s.issue i .pass fun s =>
    let x := r s
    (((s.issued1 cls).count s.env.core s.env.ctx 0x09 1).writeV (unitNum u) off d.toNat x.1).writeFlags off x.2

/-- Elements of two sources and a result element for each pair. -/
def zip2 (w : Nat) (a b : Vec) (f : Nat → Nat → Elem) : Vec × Nat :=
  gather w (((elems w a).zip (elems w b)).map fun p => f p.1 p.2)
/-- The same with the old destination. -/
def zip3 (w : Nat) (a b d : Vec) (f : Nat → Nat → Nat → Elem) : Vec × Nat :=
  gather w (((elems w a).zip ((elems w b).zip (elems w d))).map fun p => f p.1 p.2.1 p.2.2)
/-- Elements of one source. -/
def map1 (w : Nat) (a : Vec) (f : Nat → Elem) : Vec × Nat := gather w ((elems w a).map f)

/-- A two-source form (R302): the bypass replaces b. -/
def State.vec2 (s : State) (i : Instr) (u : VUnit) (o : V3) (off : Nat) (f : FpEnv → Nat → Nat → Elem) (ftzOp : Bool := false) :
    Host.Outcome State Fault Refusal :=
  s.vector i u o.d off (vClass (tyWidth o.ty)) fun s =>
    zip2 (tyWidth o.ty) (s.vv o.a) (s.vsrc u o.byp o.b) (f (s.fpEnv ftzOp))
/-- A two-source form that reads its destination. -/
def State.vec3 (s : State) (i : Instr) (u : VUnit) (o : V3) (off : Nat) (f : FpEnv → Nat → Nat → Nat → Elem)
    (ftzOp : Bool := false) : Host.Outcome State Fault Refusal :=
  s.vector i u o.d off (vClass (tyWidth o.ty)) fun s =>
    zip3 (tyWidth o.ty) (s.vv o.a) (s.vsrc u o.byp o.b) (s.vv o.d) (f (s.fpEnv ftzOp))
/-- A one-source form: the bypass replaces a. -/
def State.vec1 (s : State) (i : Instr) (u : VUnit) (o : V3) (off : Nat) (f : FpEnv → Nat → Elem) (ftzOp : Bool := false) :
    Host.Outcome State Fault Refusal :=
  s.vector i u o.d off (vClass (tyWidth o.ty)) fun s =>
    map1 (tyWidth o.ty) (s.vsrc u o.byp o.a) (f (s.fpEnv ftzOp))

/-- Landing offset of a form that takes I and F types (R303). -/
def landIF (ty : BitVec 4) (i f : Nat) : Nat := if tyFloat ty then f else i

/-- A sum or difference of two elements (R306, R308). -/
def addElem (ty : BitVec 4) (sub : Bool) (e : FpEnv) (a b : Nat) : Elem :=
  let f := tyFmt ty
  let w := tyWidth ty
  if tyFloat ty then
    let y := e.read f b
    e.write f (FpVal.addZ e.rm (e.read f a) (if sub then y.neg else y))
  else (if sub then truncInt ((a : Int) - b) w else (a + b) % 2 ^ w, 0)

/-- A fused form of a float type (R306): product and addend with their signs. -/
def fusedElem (ty : BitVec 4) (negP negD : Bool) (e : FpEnv) (a b d : Nat) : Elem :=
  let f := tyFmt ty
  let p := FpVal.mul (e.read f a) (e.read f b)
  let x := e.read f d
  e.write f (FpVal.addZ e.rm (if negP then p.neg else p) (if negD then x.neg else x))

/-- A one-source float form (R306). -/
def unaryElem (ty : BitVec 4) (g : FpVal → FpVal × Nat) (e : FpEnv) (a : Nat) : Elem :=
  let r := g (e.read (tyFmt ty) a)
  let x := e.write (tyFmt ty) r.1
  (x.1, x.2 ||| r.2)

/-- VABS and VNEG (R307, R308). -/
def absElem (ty : BitVec 4) (x : Nat) : Nat :=
  let w := tyWidth ty
  if tyFloat ty then x % 2 ^ (w - 1)
  else if tySigned ty then (intVal w true x).natAbs % 2 ^ w else x
def negElem (ty : BitVec 4) (x : Nat) : Nat :=
  let w := tyWidth ty
  if tyFloat ty then setBits x (w - 1) (w - 1) (if bit x (w - 1) then 0 else 1) else (2 ^ w - x) % 2 ^ w

/-- All ones or all zeros (R309). -/
def maskElem (w : Nat) (c : Bool) : Nat := if c then 2 ^ w - 1 else 0
/-- Invalid from any NaN source, or only from a signalling one (R309). -/
def nanFlag (f : Fmt) (anyNan : Bool) (a b : Nat) : Nat :=
  let bad (x : Nat) : Bool := match f.val x with | .nan q => anyNan || q | _ => false
  if bad a || bad b then flInvalid else 0
/-- A compare (R309): `ci` on integer values, `cf` on reals. -/
def cmpElem (ty : BitVec 4) (ci : Int → Int → Bool) (cf : FpVal → FpVal → Bool) (anyNan : Bool) (a b : Nat) : Elem :=
  let w := tyWidth ty
  if tyFloat ty then (maskElem w (cf ((tyFmt ty).val a) ((tyFmt ty).val b)), nanFlag (tyFmt ty) anyNan a b)
  else (maskElem w (ci (intVal w (tySigned ty) a) (intVal w (tySigned ty) b)), 0)

/-- A saturating sum or difference (R308). -/
def satElem (ty : BitVec 4) (sub : Bool) (a b : Nat) : Elem :=
  let w := tyWidth ty
  let v (x : Nat) : Int := intVal w (tySigned ty) x
  let r := satInt (if sub then v a - v b else v a + v b) w (tySigned ty)
  (truncInt r.1 w, if r.2 then flIntOvf else 0)

/-- dot_sat of four 8-bit elements (R240, R310): the lane, and its flag. -/
def dotLane (ty : BitVec 4) (start : Int) (a b : Nat) : Elem :=
  let sg := tySigned ty
  let el (x k : Nat) : Int := intVal 8 sg (bits x (8 * k + 7) (8 * k))
  let total := (List.range 4).foldl (fun t k => t + el a k * el b k) start
  let r := satInt total (tyWidth ty) sg
  (truncInt r.1 32, if r.2 then flTrapInt else 0)

/-- Pairwise reduction of a list in order (R311). -/
def reducePairs (comb : Nat → Nat → Elem) : List Nat → List Nat × Nat
  | x :: y :: rest =>
    let r := comb x y
    let t := reducePairs comb rest
    (r.1 :: t.1, r.2 ||| t.2)
  | l => (l, 0)
/-- The tree of R311 over at most 2^n elements. -/
def reduceTree (comb : Nat → Nat → Elem) : Nat → List Nat → Elem
  | 0, l => (l.headD 0, 0)
  | n + 1, l =>
    let p := reducePairs comb l
    let r := reduceTree comb n p.1
    (r.1, p.2 ||| r.2)
/-- A reduction within each lane group (R311). -/
def reduceVec (w : Nat) (comb : Nat → Nat → Elem) (a b : Vec) : Vec × Nat :=
  let m := 512 / w
  let xs := elems w a
  let ys := elems w b
  gather w (((List.range 8).map fun g =>
    let t := reduceTree comb 5 ((xs.drop (m * g)).take m)
    let r := comb (ys.getD (m * g) 0) t.1
    List.replicate m (r.1, r.2 ||| t.2)).flatten)
/-- A reduction instruction. -/
def State.reduction (s : State) (i : Instr) (u : VUnit) (o : V3) (off : Nat) (f : FpEnv → Nat → Nat → Elem)
    (ftzOp : Bool := false) : Host.Outcome State Fault Refusal :=
  s.vector i u o.d off (vClass (tyWidth o.ty)) fun s =>
    reduceVec (tyWidth o.ty) (f (s.fpEnv ftzOp)) (s.vv o.a) (s.vsrc u o.byp o.b)

/-- Every element from its index. -/
def tabulate (w : Nat) (f : Nat → Nat) : Vec := ofElems w ((List.range (4096 / w)).map f)

/-- VADD (R306, R308). -/
def execVadd (u : VUnit) (o : V3) (s : State) : Host.Outcome State Fault Refusal :=
  s.vec2 (.vadd u o) u o (landIF o.ty 2 4) (addElem o.ty false) true

/-- VSUB (R306, R308). -/
def execVsub (u : VUnit) (o : V3) (s : State) : Host.Outcome State Fault Refusal :=
  s.vec2 (.vsub u o) u o (landIF o.ty 2 4) (addElem o.ty true) true

/-- VMUL (R306). -/
def execVmul (u : VUnit) (o : V3) (s : State) : Host.Outcome State Fault Refusal :=
  s.vec2 (.vmul u o) u o 4 (fun e a b => e.write (tyFmt o.ty) (FpVal.mul (e.read (tyFmt o.ty) a) (e.read (tyFmt o.ty) b))) true

/-- VFMA, rounded once (R306). -/
def execVfma (u : VUnit) (o : V3) (s : State) : Host.Outcome State Fault Refusal :=
  s.vec3 (.vfma u o) u o 4 (fusedElem o.ty false false) true

/-- VFMS, rounded once (R306). -/
def execVfms (u : VUnit) (o : V3) (s : State) : Host.Outcome State Fault Refusal :=
  s.vec3 (.vfms u o) u o 4 (fusedElem o.ty false true) true

/-- VFNMA, rounded once (R306). -/
def execVfnma (u : VUnit) (o : V3) (s : State) : Host.Outcome State Fault Refusal :=
  s.vec3 (.vfnma u o) u o 4 (fusedElem o.ty true false) true

/-- VMIN (R307, R308). -/
def execVmin (u : VUnit) (o : V3) (s : State) : Host.Outcome State Fault Refusal :=
  s.vec2 (.vmin u o) u o (landIF o.ty 2 4) fun _ => minMaxElem o.ty false

/-- VMAX (R307, R308). -/
def execVmax (u : VUnit) (o : V3) (s : State) : Host.Outcome State Fault Refusal :=
  s.vec2 (.vmax u o) u o (landIF o.ty 2 4) fun _ => minMaxElem o.ty true

/-- VABS (R307, R308). -/
def execVabs (u : VUnit) (o : V3) (s : State) : Host.Outcome State Fault Refusal :=
  s.vec1 (.vabs u o) u o 2 fun _ x => (absElem o.ty x, 0)

/-- VNEG (R307, R308). -/
def execVneg (u : VUnit) (o : V3) (s : State) : Host.Outcome State Fault Refusal :=
  s.vec1 (.vneg u o) u o 2 fun _ x => (negElem o.ty x, 0)

/-- VRCP (R306). -/
def execVrcp (u : VUnit) (o : V3) (s : State) : Host.Outcome State Fault Refusal :=
  s.vec1 (.vrcp u o) u o 12 (unaryElem o.ty rcpReal) true

/-- VRSQ (R306). -/
def execVrsq (u : VUnit) (o : V3) (s : State) : Host.Outcome State Fault Refusal :=
  s.vec1 (.vrsq u o) u o 12 (unaryElem o.ty rsqReal) true

/-- VSQRT (R306). -/
def execVsqrt (u : VUnit) (o : V3) (s : State) : Host.Outcome State Fault Refusal :=
  s.vec1 (.vsqrt u o) u o 12 (unaryElem o.ty sqrtOf) true

/-- VEXP2 (R306). -/
def execVexp2 (u : VUnit) (o : V3) (s : State) : Host.Outcome State Fault Refusal :=
  s.vec1 (.vexp2 u o) u o 12 (unaryElem o.ty exp2Of) true

/-- VLOG2 (R306). -/
def execVlog2 (u : VUnit) (o : V3) (s : State) : Host.Outcome State Fault Refusal :=
  s.vec1 (.vlog2 u o) u o 12 (unaryElem o.ty log2Of) true

/-- VCVT (R313). -/
def execVcvt (u : VUnit) (o : VC) (s : State) : Host.Outcome State Fault Refusal :=
  s.vector (.vcvt u o) u o.d 4 (vClass (max (tyWidth o.tys) (tyWidth o.tyd))) fun s =>
    map1 (tyWidth o.tys) (s.vsrc u o.byp o.a) (cvtElem (s.fpEnv false) o.tys o.tyd)

/-- VCMPEQ (R309). -/
def execVcmpeq (u : VUnit) (o : V3) (s : State) : Host.Outcome State Fault Refusal :=
  s.vec2 (.vcmpeq u o) u o 2 fun _ => cmpElem o.ty (fun x y => decide (x = y)) (FpVal.eq) false

/-- VCMPLT (R309). -/
def execVcmplt (u : VUnit) (o : V3) (s : State) : Host.Outcome State Fault Refusal :=
  s.vec2 (.vcmplt u o) u o 2 fun _ => cmpElem o.ty (fun x y => decide (x < y)) (FpVal.lt) true

/-- VCMPLE (R309). -/
def execVcmple (u : VUnit) (o : V3) (s : State) : Host.Outcome State Fault Refusal :=
  s.vec2 (.vcmple u o) u o 2 fun _ => cmpElem o.ty (fun x y => decide (x ≤ y)) (fun x y => x.lt y || x.eq y) true

/-- VCMPUN (R309). -/
def execVcmpun (u : VUnit) (o : V3) (s : State) : Host.Outcome State Fault Refusal :=
  s.vec2 (.vcmpun u o) u o 2 fun _ => cmpElem o.ty (fun _ _ => false) (fun x y => x.isNan || y.isNan) false

/-- VSEL: bit w − 1 of the old destination chooses (R309). -/
def execVsel (u : VUnit) (o : V3) (s : State) : Host.Outcome State Fault Refusal :=
  s.vec3 (.vsel u o) u o 2 fun _ a b d => (if bit d (tyWidth o.ty - 1) then a else b, 0)

/-- VAND (R308). -/
def execVand (u : VUnit) (o : V3) (s : State) : Host.Outcome State Fault Refusal :=
  s.vec2 (.vand u o) u o 2 fun _ a b => (Nat.land a b, 0)

/-- VOR (R308). -/
def execVor (u : VUnit) (o : V3) (s : State) : Host.Outcome State Fault Refusal :=
  s.vec2 (.vor u o) u o 2 fun _ a b => (Nat.lor a b, 0)

/-- VXOR (R308). -/
def execVxor (u : VUnit) (o : V3) (s : State) : Host.Outcome State Fault Refusal :=
  s.vec2 (.vxor u o) u o 2 fun _ a b => (Nat.xor a b, 0)

/-- VSHL (R308). -/
def execVshl (u : VUnit) (o : V3) (s : State) : Host.Outcome State Fault Refusal :=
  s.vec2 (.vshl u o) u o 2 fun _ a b => (a * 2 ^ (b % tyWidth o.ty) % 2 ^ tyWidth o.ty, 0)

/-- VSHR (R308). -/
def execVshr (u : VUnit) (o : V3) (s : State) : Host.Outcome State Fault Refusal :=
  s.vec2 (.vshr u o) u o 2 fun _ a b => (a / 2 ^ (b % tyWidth o.ty), 0)

/-- VSAR (R308). -/
def execVsar (u : VUnit) (o : V3) (s : State) : Host.Outcome State Fault Refusal :=
  s.vec2 (.vsar u o) u o 2 fun _ a b => (truncInt (sintN (tyWidth o.ty) a / (2 ^ (b % tyWidth o.ty) : Int)) (tyWidth o.ty), 0)

/-- VMULLO (R308). -/
def execVmullo (u : VUnit) (o : V3) (s : State) : Host.Outcome State Fault Refusal :=
  s.vec2 (.vmullo u o) u o 4 fun _ a b => (a * b % 2 ^ tyWidth o.ty, 0)

/-- VADDS (R308). -/
def execVadds (u : VUnit) (o : V3) (s : State) : Host.Outcome State Fault Refusal :=
  s.vec2 (.vadds u o) u o 2 fun _ => satElem o.ty false

/-- VSUBS (R308). -/
def execVsubs (u : VUnit) (o : V3) (s : State) : Host.Outcome State Fault Refusal :=
  s.vec2 (.vsubs u o) u o 2 fun _ => satElem o.ty true

/-- VDOT (R310). -/
def execVdot (u : VUnit) (o : V3) (s : State) : Host.Outcome State Fault Refusal :=
  s.vector (.vdot u o) u o.d 4 3 fun s => zip2 32 (s.vv o.a) (s.vsrc u o.byp o.b) (dotLane o.ty 0)

/-- VDOTA: starts from the old lane at the result width (R310). -/
def execVdota (u : VUnit) (o : V3) (s : State) : Host.Outcome State Fault Refusal :=
  s.vector (.vdota u o) u o.d 4 3 fun s =>
    zip3 32 (s.vv o.a) (s.vsrc u o.byp o.b) (s.vv o.d) fun a b d =>
      dotLane o.ty (intVal (tyWidth o.ty) (tySigned o.ty) (d % 2 ^ tyWidth o.ty)) a b

/-- VRSUM (R311). -/
def execVrsum (u : VUnit) (o : V3) (s : State) : Host.Outcome State Fault Refusal :=
  s.reduction (.vrsum u o) u o (landIF o.ty 6 10) (addElem o.ty false) true

/-- VRMAX (R311). -/
def execVrmax (u : VUnit) (o : V3) (s : State) : Host.Outcome State Fault Refusal :=
  s.reduction (.vrmax u o) u o 6 fun _ => minMaxElem o.ty true

/-- VRMIN (R311). -/
def execVrmin (u : VUnit) (o : V3) (s : State) : Host.Outcome State Fault Refusal :=
  s.reduction (.vrmin u o) u o 6 fun _ => minMaxElem o.ty false

/-- VBCAST (R315). -/
def execVbcast (u : VUnit) (o : VS) (s : State) : Host.Outcome State Fault Refusal :=
  s.vector (.vbcast u o) u o.d 2 (vClass (tyWidth o.ty)) fun s => (tabulate (tyWidth o.ty) fun _ => (s.sv o.a).toNat, 0)

/-- VMOVI (R315). -/
def execVmovi (u : VUnit) (o : VI) (s : State) : Host.Outcome State Fault Refusal :=
  s.vector (.vmovi u o) u o.d 2 (vClass (tyWidth o.ty)) fun _ =>
    (tabulate (tyWidth o.ty) fun _ =>
      if tyFloat o.ty then (roundFp (FpVal.ofInt o.imm.toInt) (tyFmt o.ty) .rne false).1
      else truncInt o.imm.toInt (tyWidth o.ty), 0)

/-- VMOV (R315). -/
def execVmov (u : VUnit) (o : V3) (s : State) : Host.Outcome State Fault Refusal :=
  s.vec1 (.vmov u o) u o 2 fun _ x => (x, 0)

/-- VIDX (R315). -/
def execVidx (u : VUnit) (o : VI) (s : State) : Host.Outcome State Fault Refusal :=
  s.vector (.vidx u o) u o.d 2 (vClass (tyWidth o.ty)) fun _ =>
    (tabulate (tyWidth o.ty) fun e => truncInt (o.imm.toInt + e) (tyWidth o.ty), 0)

/-- VCLZ (R308). -/
def execVclz (u : VUnit) (o : V3) (s : State) : Host.Outcome State Fault Refusal :=
  s.vec1 (.vclz u o) u o 2 fun _ x => (clzN (tyWidth o.ty) x, 0)

/-- VPOPC (R308). -/
def execVpopc (u : VUnit) (o : V3) (s : State) : Host.Outcome State Fault Refusal :=
  s.vec1 (.vpopc u o) u o 2 fun _ x => (popN (tyWidth o.ty) x, 0)

/-- VROUND (R306). -/
def execVround (u : VUnit) (o : V3) (s : State) : Host.Outcome State Fault Refusal :=
  s.vec1 (.vround u o) u o 4 (fun e => e.round (tyFmt o.ty)) true

/-- VCLAMP: VMIN(VMAX(d, a), b) (R307, R308). -/
def execVclamp (u : VUnit) (o : V3) (s : State) : Host.Outcome State Fault Refusal :=
  s.vec3 (.vclamp u o) u o (landIF o.ty 2 4) fun _ a b d =>
    let m := minMaxElem o.ty true d a
    let r := minMaxElem o.ty false m.1 b
    (r.1, m.2 ||| r.2)

/-- Source a of layout VX. -/
def State.vxSrc (s : State) (o : VX) : Vec := s.vsrc .v1 o.byp o.a
/-- Element width that H selects (R316). -/
def vxWidth (o : VX) : Nat := if o.ctl.getLsbD 6 then 16 else 32
/-- MODE and AMT (R316). -/
def vxMode (o : VX) : Nat := (o.ctl.extractLsb' 7 2).toNat
def vxAmt (o : VX) : Nat := (o.ctl.extractLsb' 0 5).toNat

/-- VPERM: the old destination holds the indices within the group (R316). -/
def execVperm (o : VX) (s : State) : Host.Outcome State Fault Refusal :=
  s.vector (.vperm o) .v1 o.d 3 4 fun s =>
    let w := vxWidth o
    let m := 512 / w
    let a := elems w (s.vxSrc o)
    let d := elems w (s.vv o.d)
    (tabulate w fun e => a.getD (e / m * m + d.getD e 0 % m) 0, 0)

/-- VSHUF (R316). -/
def execVshuf (o : VX) (s : State) : Host.Outcome State Fault Refusal :=
  s.vector (.vshuf o) .v1 o.d 3 4 fun s =>
    let w := vxWidth o
    let m := 512 / w
    let a := elems w (s.vxSrc o)
    let pick (t : Nat) : Nat :=
      match vxMode o with
      | 0 => (t + (vxAmt o)) % m
      | 1 => (vxAmt o) % m
      | 2 => Nat.xor t (vxAmt o) % m
      | _ => m - 1 - t
    (tabulate w fun e => a.getD (e / m * m + pick (e % m)) 0, 0)

/-- VXGRP: whole lanes between groups (R316). -/
def execVxgrp (o : VX) (s : State) : Host.Outcome State Fault Refusal :=
  s.vector (.vxgrp o) .v1 o.d 6 4 fun s =>
    let a := elems 32 (s.vxSrc o)
    let n := (vxAmt o) % 8
    let src (g j : Nat) : Nat :=
      match vxMode o with
      | 0 => 16 * ((g + n) % 8) + j
      | 1 => 16 * n + j
      | 2 => 16 * Nat.xor g n + j
      | _ => 16 * (j % 8) + g + 8 * (j / 8)
    (tabulate 32 fun e => a.getD (src (e / 16) (e % 16)) 0, 0)

/-- VPACK: k sources into one register, every element in its lane (R314). -/
def execVpack (o : VC) (s : State) : Host.Outcome State Fault Refusal :=
  s.vector (.vpack o) .v1 o.d 4 4 fun s =>
    let ws := tyWidth o.tys
    let wd := tyWidth o.tyd
    let cs := 32 / ws
    let cd := 32 / wd
    let src (n : Nat) : List Nat := elems ws (s.mine.v.look (o.a.toNat + n))
    let all := (List.range (ws / wd)).map src
    gather wd ((List.range (4096 / wd)).map fun e =>
      let i := e / cd
      let j := e % cd
      cvtElem (s.fpEnv false) o.tys o.tyd ((all.getD (j / cs) []).getD (cs * i + j % cs) 0))

/-- VUNPK: one source into k registers, all at one landing; bv1 shows v(d) (R252, R314). -/
def execVunpk (o : VC) (s : State) : Host.Outcome State Fault Refusal :=
  s.issue (.vunpk o) .pass fun s =>
    let ws := tyWidth o.tys
    let wd := tyWidth o.tyd
    let cs := 32 / ws
    let cd := 32 / wd
    let a := elems ws (s.vsrc .v1 o.byp o.a)
    let part (n : Nat) : Vec × Nat :=
      gather wd ((List.range (4096 / wd)).map fun e =>
        let i := e / cd
        let j := n * cd + e % cd
        cvtElem (s.fpEnv false) o.tys o.tyd (a.getD (cs * i + j) 0))
    let parts := (List.range (wd / ws)).map part
    let t := ((s.issued1 4).count s.env.core s.env.ctx 0x09 1).after 3 (.bv 1 (parts.headD (0, 0)).1)
    let t := (List.range parts.length).foldl (fun t n => t.after 4 (.v (o.d.toNat + n) (parts.getD n (0, 0)).1)) t
    t.writeFlags 4 (parts.foldl (fun f p => f ||| p.2) 0)

/-- A named bank must lie in the header's BANKS (R183, check 7). -/
def State.bankCheck (s : State) (bank : Nat) : Check := .when (!bit (s.cur.hdrNat 24 2) bank) 0x07

/-- QRD: half a tile, read at offset 1 (R317); with BM the tile that bm names, and a decode fault when it names none
(R252). -/
def execQrd (o : VQ) (s : State) : Host.Outcome State Fault Refusal :=
  let q := if o.bm = 1 then s.mine.bm else some (o.bank.toNat, o.tile.toNat)
  match q with
  | none => s.issue (.qrd o) (.when true 0x04) id
  | some (b, t) =>
    s.issue (.qrd o) (s.bankCheck b) fun s =>
      ((s.issued1 5).count s.env.core s.env.ctx 0x09 1).after 1 (.readHalf 1 o.d.toNat b t o.h.toNat)

end Sys2Proof.Machine
end

