-- ==== Sys2Proof/Machine/Logit.lean ====
section
/-! DEFINITION. The logit unit: one element at a time through the program of its sequence (15 R365, R366), and what the sampler operation makes of the results (15 R369, R377). -/

namespace Sys2Proof.Machine

/-- Key of a slot record: the share of a partition at `base`, slot n (R363). -/
def recKey (base n : Nat) : Nat := base / 1024 * 8 + n
/-- A slot record of a context. -/
def State.slotRec (s : State) (core ctx n : Nat) : SlotRec :=
  (s.core core).slots.look (recKey (s.bank (ctxOf core ctx)).spadBase n)
/-- The state with a slot record replaced. -/
def State.putRec (s : State) (core ctx n : Nat) (r : SlotRec) : State :=
  s.modCore core fun c => { c with slots := c.slots.put (recKey (s.bank (ctxOf core ctx)).spadBase n) r }
/-- First byte of a context's share of table memory (R362). -/
def State.shareBase (s : State) (core ctx : Nat) : Nat := (s.bank (ctxOf core ctx)).spadBase / 4
/-- Bytes of a context's share (R362). -/
def State.shareSize (s : State) (core ctx : Nat) : Nat := (s.bank (ctxOf core ctx)).spadSize / 4
/-- A number in a context's share of table memory. -/
def State.tmNat (s : State) (core ctx off n : Nat) : Nat :=
  leNat (bytesAt (s.core core).tm (s.shareBase core ctx + off) n)

/-! What a sampler operation makes of its elements -/

/-- The record after a feed (R369). -/
def SlotRec.fed (r : SlotRec) (results : List (BitVec 32 × Nat × Bool)) : SlotRec :=
  { r with
    cands := results.foldl (fun l e => if e.2.2 then insertCand l ⟨e.1, e.2.1⟩ else l) r.cands
    fptr := r.fptr + 128 }

/-- The result of a draw or a greedy choice from the entries left by the draw phase (R377): the word of R378. -/
def SlotRec.drawn (r : SlotRec) (l : List Cand) (greedy : Bool) (sb : Word) : Nat :=
  let j := sb.toNat % 8
  let i := bits sb.toNat 15 8
  let step := (r.step + (if greedy then 0 else j)) % 2 ^ 32
  let x := (philox (step, field r.desc 140 4, i, field r.desc 144 4) (field r.desc 96 4, field r.desc 100 4)).1
  let (t, rank, st) := drawFrom (l.take (sdTopk r.desc)) greedy x
  resultWord step t rank st

/-- The sampler operation in work has its results; what lands is set (R380). -/
def State.smpResults (s : State) (core : Nat) (results : List (BitVec 32 × Nat × Bool)) : State :=
  match (s.core core).smpOp with
  | none => s
  | some op =>
    let r := s.slotRec core op.ctx op.slot
    let kept := (results.filter fun e => e.2.2).map fun e => (⟨e.1, e.2.1⟩ : Cand)
    let land : SmpLand :=
      match op.kind with
      | .draw off sb => { record := r, store := some (off, natLe 8 (r.drawn kept false sb)) }
      | .greedy off => { record := r, store := some (off, natLe 8 (r.drawn kept true 0)) }
      | _ => { record := r.fed results }
    s.modCore core fun c => { c with smpLand := land }

/-! Elements -/

/-- The next element starts, or the operation has all its results (R365). -/
def State.lgNext (s : State) : State :=
  match s.lg.todo with
  | [] => { s with lg := { s.lg with active := false, prog := [] } }.smpResults s.lg.core s.lg.results.reverse
  | c :: rest =>
    { s with lg := { s.lg with active := true, e := SMap.put [] 0 c.value, f := false, k := true, pos := 0,
                               token := c.token, todo := rest } }

/-- An element register. -/
def State.lgE (s : State) (n : BitVec 3) : BitVec 32 := s.lg.e.look n.toNat
/-- Its value. -/
def State.lgV (s : State) (n : BitVec 3) : FpVal := fp32.val (s.lgE n).toNat
/-- The unit with an element register replaced. -/
def State.lgSet (s : State) (d : BitVec 3) (v : Nat) : State :=
  { s with lg := { s.lg with e := s.lg.e.put d.toNat (BitVec.ofNat 32 v) } }
/-- A real rounded once into an element register (R365). -/
def State.lgReal (s : State) (d : BitVec 3) (v : FpVal) : State := s.lgSet d (rne32 v).1
/-- The condition flag. -/
def State.lgFlag (s : State) (f : Bool) : State := { s with lg := { s.lg with f := f } }
/-- The candidacy flag. -/
def State.lgKeep (s : State) (k : Bool) : State := { s with lg := { s.lg with k := k } }
/-- Record of the slot in work. -/
def State.lgRec (s : State) : SlotRec := s.slotRec s.lg.core s.lg.ctx s.lg.slot
/-- A table entry of the token, 0 outside the shard (R364, R366): n bytes at an offset of the tables. -/
def State.lgTable (s : State) (off n : Nat) : Nat :=
  let d := s.lgRec.desc
  if inShard d s.lg.token then s.tmNat s.lg.core s.lg.ctx (sdTmoff d + off) n else 0
/-- The token's number in the shard. -/
def State.lgIdx (s : State) : Nat := s.lg.token - sdVbase s.lgRec.desc

/-- LGNOP (R366). -/
def execLgnop (s : State) : Host.Outcome State Fault Refusal := .next s

/-- LGMOV (R366). -/
def execLgmov (d a : BitVec 3) (s : State) : Host.Outcome State Fault Refusal := .next (s.lgSet d (s.lgE a).toNat)

/-- LGADD, zero sign as VADD (R366). -/
def execLgadd (d a b : BitVec 3) (s : State) : Host.Outcome State Fault Refusal :=
  .next (s.lgReal d (FpVal.addZ .rne (s.lgV a) (s.lgV b)))

/-- LGSUB (R366). -/
def execLgsub (d a b : BitVec 3) (s : State) : Host.Outcome State Fault Refusal :=
  .next (s.lgReal d (FpVal.addZ .rne (s.lgV a) (s.lgV b).neg))

/-- LGMUL (R366). -/
def execLgmul (d a b : BitVec 3) (s : State) : Host.Outcome State Fault Refusal :=
  .next (s.lgReal d (FpVal.mul (s.lgV a) (s.lgV b)))

/-- LGFMA, one rounding (R366). -/
def execLgfma (d a b : BitVec 3) (s : State) : Host.Outcome State Fault Refusal :=
  .next (s.lgReal d (FpVal.addZ .rne (FpVal.mul (s.lgV a) (s.lgV b)) (s.lgV d)))

/-- LGMIN (R307, R366). -/
def execLgmin (d a b : BitVec 3) (s : State) : Host.Outcome State Fault Refusal :=
  .next (s.lgSet d (minMaxFp fp32 false (s.lgE a).toNat (s.lgE b).toNat).1)

/-- LGMAX (R307, R366). -/
def execLgmax (d a b : BitVec 3) (s : State) : Host.Outcome State Fault Refusal :=
  .next (s.lgSet d (minMaxFp fp32 true (s.lgE a).toNat (s.lgE b).toNat).1)

/-- LGNEG: the sign bit inverted (R366). -/
def execLgneg (d a : BitVec 3) (s : State) : Host.Outcome State Fault Refusal :=
  .next (s.lgSet d (s.lgE a ^^^ 0x80000000#32).toNat)

/-- LGRCP, the specials of VRCP (R306, R366). -/
def execLgrcp (d a : BitVec 3) (s : State) : Host.Outcome State Fault Refusal :=
  .next (s.lgReal d (rcpReal (s.lgV a)).1)

/-- LGCST (R366). -/
def execLgcst (d c : BitVec 3) (s : State) : Host.Outcome State Fault Refusal :=
  .next (s.lgSet d (sdConst s.lgRec.desc c.toNat).toNat)

/-- LGIMM (R366). -/
def execLgimm (d : BitVec 3) (imm : BitVec 8) (s : State) : Host.Outcome State Fault Refusal :=
  .next (s.lgReal d (FpVal.ofInt imm.toInt))

/-- LGCNT: the count of the token and its pending occurrences, saturated (R366). -/
def execLgcnt (d : BitVec 3) (s : State) : Host.Outcome State Fault Refusal :=
  let n := s.lgTable (2 * s.lgIdx) 2 + (s.lgRec.pending.filter (· = s.lg.token)).length
  .next (s.lgReal d (FpVal.ofInt (min n 65535)))

/-- LGBIAS: the FP16 bias of the token (R366). -/
def execLgbias (d : BitVec 3) (s : State) : Host.Outcome State Fault Refusal :=
  .next (s.lgReal d (fp16.val (s.lgTable (2 * sdVlen s.lgRec.desc + 2 * s.lgIdx) 2)))

/-- LGBAN (R366). -/
def execLgban (d : BitVec 3) (s : State) : Host.Outcome State Fault Refusal :=
  .next (s.lgReal d (FpVal.ofInt
    (if bit (s.lgTable (4 * sdVlen s.lgRec.desc + s.lgIdx / 8) 1) (s.lgIdx % 8) then 1 else 0)))

/-- LGTOK (R366). -/
def execLgtok (d : BitVec 3) (s : State) : Host.Outcome State Fault Refusal :=
  .next (s.lgReal d (FpVal.ofInt s.lg.token))

/-- LGSEL (R366). -/
def execLgsel (d a b : BitVec 3) (s : State) : Host.Outcome State Fault Refusal :=
  .next (s.lgSet d (if s.lg.f then s.lgE a else s.lgE b).toNat)

/-- LGCGT (R366). -/
def execLgcgt (a b : BitVec 3) (s : State) : Host.Outcome State Fault Refusal :=
  .next (s.lgFlag ((s.lgV b).lt (s.lgV a)))

/-- LGCGE (R366). -/
def execLgcge (a b : BitVec 3) (s : State) : Host.Outcome State Fault Refusal :=
  .next (s.lgFlag ((s.lgV b).lt (s.lgV a) || (s.lgV a).eq (s.lgV b)))

/-- LGCEQ (R366). -/
def execLgceq (a b : BitVec 3) (s : State) : Host.Outcome State Fault Refusal :=
  .next (s.lgFlag ((s.lgV a).eq (s.lgV b)))

/-- LGKEEP (R366). -/
def execLgkeep (s : State) : Host.Outcome State Fault Refusal := .next (s.lgKeep (s.lg.k && s.lg.f))

/-- LGDROP (R366). -/
def execLgdrop (s : State) : Host.Outcome State Fault Refusal := .next (s.lgKeep (s.lg.k && !s.lg.f))

/-- LGMAXV: the best merged candidate, as merging left it (R366, R377). -/
def execLgmaxv (d : BitVec 3) (s : State) : Host.Outcome State Fault Refusal := .next (s.lgSet d s.lg.maxv.toNat)

/-- LGOUT: the element's value and its candidacy, and the end of the phase (R365, R366). -/
def execLgout (a : BitVec 3) (s : State) : Host.Outcome State Fault Refusal :=
  .next { s with lg := { s.lg with results := (s.lgE a, s.lg.token, s.lg.k) :: s.lg.results } }.lgNext

end Sys2Proof.Machine
end

