-- ==== Sys2Proof/Machine/CopyEngine.lean ====
section
/-! DEFINITION. The engines that serve slot-7 commands (14 R349 to R358; 06 R145): how a command begins, moves its sectors one at a time, completes, or stops on a fault (08 R211). -/

namespace Sys2Proof.Machine

/-- The command's engine as a translator. -/
def Cmd.eng (c : Cmd) : Nat := c.engine.getD 0

/-- The translation of an address of a command by its engine (R148, R149). -/
def State.engineXlate (s : State) (c : Cmd) (va kind : Nat) : Found × State :=
  s.findXlate c.die c.part (s.ceTlb.look c.eng) (s.task c.task).dord
    { task := c.task, tr := 1000 + c.eng, kind := kind, va := va, wake := some (.copySector c.id), ph := enginePhase c.eng }

/-- Rows of a command: source, destination and length of row r. The tables of SMP.LOAD and SMP.FLUSH are three rows and
one (R373). -/
def Cmd.rowAt (c : Cmd) (r : Nat) : Nat × Nat × Nat :=
  let d := c.desc
  let vlen := sdVlen d
  let tm := sdTmoff d
  let vbase := sdVbase d
  match c.kind with
  | .smpLoad =>
    if r = 0 then ((field d 104 8 + 2 * vbase) % 2 ^ 64, tm, 2 * vlen)
    else if r = 1 then ((field d 112 8 + 2 * vbase) % 2 ^ 64, tm + 2 * vlen, 2 * vlen)
    else ((field d 120 8 + vbase / 8) % 2 ^ 64, tm + 4 * vlen, vlen / 8)
  | .smpFlush => (tm, (field d 104 8 + 2 * vbase) % 2 ^ 64, 2 * vlen)
  | _ =>
    let off (base : Nat) (st : Int) : Nat := ((base + r * st) % (2 ^ 64 : Int)).toNat
    (off c.src c.sstr, if c.dstSpace = 3 then r * c.len else off c.dst c.dstr, c.len)

/-- The next unit to move: source, destination, bytes. Destination sectors of 64 bytes, ascending in each row (R351);
blocks of 128 bytes for table memory (R373). -/
def Cmd.unit (c : Cmd) : Option (Nat × Nat × Nat) :=
  if c.rows ≤ c.row then none
  else
    let (sa, da, len) := c.rowAt c.row
    let n := if c.kind = .smpLoad || c.kind = .smpFlush then 128 else 64 - (da + c.off) % 64
    some (sa + c.off, da + c.off, min n (len - c.off))

/-- The command after a unit of n bytes. -/
def Cmd.advance (c : Cmd) (n : Nat) : Cmd :=
  let (_, _, len) := c.rowAt c.row
  let o := c.off + n
  { c with pos := c.pos + 1, buf := [], awaiting := false, writes := false, stage := min c.stage 2
           row := if len ≤ o then c.row + 1 else c.row, off := if len ≤ o then 0 else o }

/-- The bytes of the next units of a command, in order. -/
def Cmd.units (c : Cmd) : Nat → List Nat
  | 0 => []
  | k + 1 =>
    match c.unit with
    | none => []
    | some (_, _, n) => n :: (c.advance n).units k

/-- Bytes of the n units that come after the first m (R351). -/
def Cmd.unitBytes (c : Cmd) (m n : Nat) : Nat :=
  ((({ c with row := 0, off := 0, pos := 0 }.units (m + n)).drop m).take n).foldl (· + ·) 0

/-- Whether a command inside a partition reads next what it has just written (R351, overlapping ranges). -/
def Cmd.meets (c : Cmd) (da n : Nat) : Bool :=
  c.srcSpace = 2 && c.dstSpace = 2 &&
  match c.unit with
  | some (sa, _, m) => decide (sa < da + n ∧ da < sa + m)
  | none => false

/-- What stands at a virtual range for an engine: a fault with its address, another module, or the pieces: physical
address, length, memory type. -/
inductive Side where
  | fault (cause addr : Nat)
  | remote (pa : Nat)
  | here (ps : List (Nat × Nat × Nat))
  /-- A stack whose die cannot be reached (R213). -/
  | cut
  /-- A translation is awaited. -/
  | wait
  deriving DecidableEq, Repr

/-- A virtual range as an engine translates it. -/
def State.side (s : State) (c : Cmd) (va n kind : Nat) : Side × State :=
  (pagesOf va n).foldl (fun r p =>
    match r.1 with
    | .here ps =>
      match r.2.engineXlate c p.1 kind with
      | (.fault k, s) => (.fault k p.1, s)
      | (.wait, s) => (.wait, s)
      | (.hit x, s) =>
        let pa := x.pa p.1
        if paD pa then (.remote pa, s)
        else if !isHost pa && !s.joined c.die (ownerDie pa) then (.cut, s)
        else (.here (ps ++ [(pa, p.2, x.mt p.1)]), s)
    | _ => r) (.here [], s)

/-- A fault stops the command (R48, R211, R352): it is set aside until it is answered, and its engine goes on. -/
def State.cmdFault (s : State) (c : Cmd) (cause addr : Nat) : State :=
  let r : FaultRec :=
    { cause := cause, slot := 9, faddr := addr, idx := c.idx, resumeAt := c.pos
      engine := match c.engine with | some e => if e < 32 then 0x1000 + e else 0 | none => 0 }
  let s := s.modCmd c.id fun k =>
    { k with serving := false, setAside := true, awaiting := false, writes := false, holds := k.holds && k.kind ≠ .put && k.kind ≠ .get }
  let t := s.task c.task
  let s := if t.resident then (s.engineFault c.task 1 c.id r).1 else { s with cmds := s.cmds.drop (· = c.id) }
  s.engineNext c.eng

/-- A machine check cause that ends a command whose target cannot be reached (R48, R352). -/
def State.cmdLost (s : State) (c : Cmd) (cause : Nat) : State :=
  let r : FaultRec := { cause := cause, slot := 9, idx := c.idx, resumeAt := c.pos }
  let s := { s with cmds := s.cmds.drop (· = c.id) }
  (s.raiseHere c.task r).engineNext c.eng

/-- The descriptor or entry returns and the command is gone; a buffer-ring entry that it names is freed (R352). -/
def State.cmdFree (s : State) (c : Cmd) : State :=
  let s := { s with cmds := s.cmds.drop (· = c.id) }.orderFree c.core c.ctx c.task
  match c.brt with
  | some n => s.raiseF c.core c.ctx n
  | none => s

/-- The write of a register destination (R351): a slot write of the tick stands over it. -/
def State.regImage (s : State) (c : Cmd) : State :=
  let n := c.dst % 32
  s.modBank (ctxOf c.core c.ctx) fun b =>
    if b.lastTick = s.now && b.wroteV.contains n then b else { b with v := b.v.put n (bytesVec c.img) }

/-- All sectors of a command have performed (R352). -/
def State.cmdEnd (s : State) (c : Cmd) : State :=
  let s := if c.dstSpace = 3 then s.regImage c else s
  let s := s.modCmd c.id fun c => { c with ended := true, serving := false }
  let s := s.engineNext c.eng
  if c.dstSpace = 5 && c.acked < c.pos then s
  else
    match c.done with
    | none => s.cmdFree c
    | some _ => s.sched (s.now + 1) (enginePhase c.eng) (.copyComplete c.id)

/-- A unit has performed: the barrier's count falls by its bytes, and the next unit follows at no more than 128 bytes
per tick (R351); a unit that reads bytes which this one wrote comes a tick later, so that it reads them (R157). -/
def State.unitDone (s : State) (id n : Nat) : State :=
  let da := match (s.cmd id).unit with | some (_, d, _) => d | none => 0
  let s := s.modCmd id (·.advance n)
  let c := s.cmd id
  let s := match c.barrier with
    | some k => if c.dstSpace = 5 then s else s.barSub k n
    | none => s
  if c.unit.isNone then s.cmdEnd c
  else
    let k := if c.tickOf = s.now then c.inTick + (if n ≤ 64 then 1 else 2) else (if n ≤ 64 then 1 else 2)
    let s := s.modCmd id fun c => { c with tickOf := s.now, inTick := k }
    s.sched (if k < 2 && !c.meets da n then s.now else s.now + 1) (enginePhase c.eng) (.copySector id)

/-- The bytes of a unit are written whole at one tick (R351). -/
def State.unitWrite (s : State) (c : Cmd) (da : Nat) (b : List Byte) : State :=
  let n := b.length
  match c.dstSpace with
  | 2 =>
    if !(s.bank (ctxOf c.core c.ctx)).holds da n then s.cmdFault c 0x16 da
    else (s.taskSpad c.task c.core c.ctx da b).unitDone c.id n
  | 3 =>
    let img := if c.img.isEmpty then List.replicate 512 0 else c.img
    (s.modCmd c.id fun k => { k with img := img.take da ++ b ++ img.drop (da + n) }).unitDone c.id n
  | 4 =>
    (s.taskTm c.task c.core c.ctx da b).unitDone c.id n
  | 5 => (s.send (.rmaWrite c.die (s.task c.task).cls c.job c.pid c.ridx da b)).unitDone c.id n
  | _ =>
    match s.side c da n 1 with
    | (.fault k a, s) => s.cmdFault c k a
    | (.remote pa, s) =>
      let l := sectorsOf pa b
      let s := s.modCmd c.id fun k => { k with awaiting := true, writes := true, acked := l.length }
      l.foldl (fun s e => s.sendAccess { task := c.task, part := c.part, cmd := some c.id } (s.task c.task).cls e.1 .write e.2
        (List.replicate e.2.length true) e.2.length) s
    | (.cut, s) => s.cmdLost c 0x31
    | (.wait, s) => s
    | (.here ps, s) =>
      let r := ps.foldl (fun st p =>
        let s := st.1.captureMem c.task c.core p.1 p.2.1
        (if p.2.2 = 0 then s.sideWrite c.die c.part c.task 0 p.1 (st.2.take p.2.1) 6
          else s.byLines p.1 (st.2.take p.2.1) fun s la d m => s.stackAndCopy c.part la d m, st.2.drop p.2.1))
        (s.notePages c.task da n, b)
      r.1.unitDone c.id n

/-- A unit of a command: its source bytes are read, then written (R351). -/
def State.unitMove (s : State) (c : Cmd) (sa da n : Nat) : State :=
  if !c.buf.isEmpty then s.unitWrite c da (c.buf.take n)
  else
    match c.srcSpace with
    | 2 =>
      if !(s.bank (ctxOf c.core c.ctx)).holds sa n then s.cmdFault c 0x16 sa
      else s.unitWrite c da (s.engineBytes c.core c.ctx sa n)
    | 4 => s.unitWrite c da (bytesAt (s.core c.core).tm (s.shareBase c.core c.ctx + sa) n)
    | _ =>
      match s.side c sa n 0 with
      | (.fault k a, s) => s.cmdFault c k a
      | (.remote pa, s) =>
        let l := sectorsOf pa (List.replicate n 0)
        let s := s.modCmd c.id fun k => { k with awaiting := true, writes := false, acked := l.length, buf := List.replicate n 0 }
        l.foldl (fun s e => s.sendAccess { task := c.task, part := c.part, cmd := some c.id, at_ := e.1 - pa }
          (s.task c.task).cls e.1 .read [] [] e.2.length) s
      | (.cut, s) => s.cmdLost c 0x31
      | (.wait, s) => s
      | (.here ps, s) =>
        let b := (ps.map fun p => s.sideBytes c.part p.1 p.2.1).flatten
        (ps.foldl (fun s p => s.sideTouch c.part p.1 p.2.1) s).unitWrite c da b

/-- Whether a side of a command lies in host memory. -/
def State.hostSide (s : State) (c : Cmd) (space va : Nat) : Bool :=
  space = 0 && isHost ((s.agentXlate c.die c.part va 0).2.pa va)

/-- The slots of one side of a command (R143): its event follows once they have served. A copy between host and HBM is
bulk traffic (R78). -/
def State.sideSlots (s : State) (c : Cmd) (va kind stage : Nat) : State :=
  let go (s : State) : State := (s.modCmd c.id fun c => { c with stage := stage }).sched s.now (enginePhase c.eng) (.copySector c.id)
  let total := (List.range c.rows).foldl (fun a i => a + (c.rowAt i).2.2) 0
  match s.engineXlate c va kind with
  | (.wait, s) => s
  | (.fault _, s) => go s
  | (.hit x, s) =>
    let pa := x.pa va
    if paD pa || isHost pa || total = 0 then go s
    else
      let t := s.task c.task
      let bulk := s.hostSide c c.srcSpace (c.rowAt 0).1 || s.hostSide c c.dstSpace (c.rowAt 0).2.1
      (s.modCmd c.id fun c => { c with stage := stage }).hbm (stackOf pa) (if bulk then 3 else t.cls) t.part
        (ownerKey t.die t.session) total (some (.copySector c.id))

/-- A unit for host memory waits for the host link (R79). -/
def State.hifJoin (s : State) (c : Cmd) (n : Nat) : State :=
  let s := { s.modCmd c.id fun c => { c with stage := 3 } with hif := { s.hif with q := s.hif.q ++ [(c.part, c.id, n)] } }
  if s.due .hifServe then s else s.sched s.now phHost .hifServe

/-- The partition whose payload goes next: the one whose turn it is while it may send, then the next in ascending number with
traffic, which takes its payloads of 512 bytes for the round (R79). -/
def HifQ.pick (h : HifQ) (weight : Nat → Nat) : Nat × Nat :=
  let need (p : Nat) : Option Nat := (h.q.find? (·.1 = p)).map (·.2.2)
  match need h.part with
  | some n => if n ≤ h.left.look h.part then (h.part, h.left.look h.part) else next need
  | none => next need
where
  next (need : Nat → Option Nat) : Nat × Nat :=
    let p := (firstFrom (fun p => (need (p % 16)).isSome) 16 (h.part + 1)).getD 0 % 16
    (p, h.left.look p + 512 * max 1 (weight p))

/-- The host link takes the next payload: its unit is written, and the link is free again no sooner than its 236 GB/s allow
(R76, R79). -/
def State.hifServe (s : State) : State :=
  let s := { s with hif := { s.hif with q := s.hif.q.filter fun e => (s.cmd e.2.1).serving && (s.cmd e.2.1).stage = 3 } }
  let r := s.hif.pick fun p => s.getF HIF_QOS.WEIGHT p
  match s.hif.q.find? (·.1 = r.1) with
  | none => s
  | some (p, id, n) =>
    let q := s.hif.q.erase (p, id, n)
    let s := { s with hif := { q := q, part := p, left := s.hif.left.put p (if q.any (·.1 = p) then r.2 - n else 0) } }
    let s := (s.modCmd id fun c => { c with stage := 4 }).sched s.now (enginePhase (s.cmd id).eng) (.copySector id)
    (s.sched (s.now + 2 + Config.freeNat s.free) phHost .hifServe).freed

/-- COPY_SECTOR: the slots of source and destination first, then one unit (R143, R351). -/
def State.copyStep (s : State) (id : Nat) : State :=
  let c := s.cmd id
  if !c.serving || c.awaiting then s
  else
    match c.unit with
    | none => s.cmdEnd c
    | some (sa, da, n) =>
      let go (s : State) (k : Nat) : State := (s.modCmd id fun c => { c with stage := k }).sched s.now (enginePhase c.eng) (.copySector id)
      if c.stage = 0 then if c.srcSpace = 0 then s.sideSlots c sa 0 1 else go s 1
      else if c.stage = 1 then if c.dstSpace = 0 then s.sideSlots c da 1 2 else go s 2
      else if c.stage = 2 && s.hostSide c c.dstSpace da then s.hifJoin c n
      else if c.stage = 3 then s
      else s.unitMove c sa da n

/-- COPY_SECTOR (R351). -/
def execCopySector (cmd : Nat) (s : State) : Host.Outcome State Fault Refusal := .next (s.copyStep cmd)

/-- COPY_COMPLETE: the completion word, the tick after the last sector; the descriptor returns (R161, R352). -/
def execCopyComplete (cmd : Nat) (s : State) : Host.Outcome State Fault Refusal :=
  let c := s.cmd cmd
  match c.done with
  | none => .next (s.cmdFree c)
  | some off =>
    if !(s.bank (ctxOf c.core c.ctx)).holds off 8 then .next ((s.modCmd cmd fun c => { c with ended := false }).cmdFault c 0x16 off)
    else .next ((s.taskSpad c.task c.core c.ctx off (natLe 8 c.doneVal.toNat)).cmdFree c)

/-- RMA_WRITE_ACKNOWLEDGED: sectors of an Ethernet copy are delivered, or its target has failed (R351, R352). -/
def execRmaWriteAcknowledged (cmd sectors : Nat) (ok : Bool) (s : State) : Host.Outcome State Fault Refusal :=
  let c := s.cmd cmd
  if c.dstSpace ≠ 5 || !c.begun then .next s
  else if !ok then .next (s.cmdLost c 0x31)
  else
    let n := min (c.pos - c.acked) sectors
    let s := s.modCmd cmd fun c => { c with acked := c.acked + n }
    let s := match c.barrier with
      | some k => s.barSub k (c.unitBytes c.acked n)
      | none => s
    .next (if c.ended && c.pos ≤ c.acked + n then s.cmdEnd (s.cmd cmd) else s)

/-! The beginning of a command (R349, R353, R355) -/

/-- RPUB: TAIL and sequence advance (R353). -/
def State.ringPublish (s : State) (task core ctx ring n : Nat) : State :=
  let r := s.ringEnt core ctx ring
  let tail := (s.ringTail core ctx r + n) % 2 ^ 32
  let seq := (s.ringSeq core ctx r + 1) % 2 ^ 32
  s.taskSpad task core ctx r.pub (natLe 4 tail ++ natLe 4 seq)
/-- RPOP: HEAD advances (R353). -/
def State.ringPop (s : State) (task core ctx ring n : Nat) : State :=
  s.taskSpad task core ctx (16 * ring + 12) (natLe 4 (((s.ringEnt core ctx ring).head + n) % 2 ^ 32))

/-- Active subscriptions of a stack (R155); another module's stacks serve those of its pages. -/
def State.subCount (s : State) (j : Nat) : Nat := (s.subs.filter fun e => e.2.stack = j && !e.2.remote).length

/-- A subscription ends, and its stack's freed entry is granted (R155). -/
def State.subEnd (s : State) (id : Nat) : State :=
  let j := (s.subs.look id).stack
  let s := { s with subs := s.subs.drop (· = id) }
  if s.cmds.any (fun e => e.2.kind = .subs && e.2.waiting) then s.sched s.now phMem (.subscriptionGrant (Fin.ofNat 8 j)) else s

/-- Stack of a subscription: the one that holds its first page (R155). -/
def State.subStack (s : State) (c : Cmd) : Nat × Bool :=
  let pa := (s.agentXlate c.die c.part c.src 0).2.pa c.src
  (if paD pa then 0 else stackOf pa, paD pa)

/-- The subscription of a command starts (R154). -/
def State.subStart (s : State) (c : Cmd) : State :=
  let (j, rem) := s.subStack c
  let (id, s) := s.newId
  let x : Sub :=
    { id := id, task := c.task, idx := c.idx, core := c.core, ctx := c.ctx, part := c.part, die := c.die
      dord := (s.task c.task).dord, ring := c.ring, stack := j, desc := c.desc, remote := rem }
  let s := { s with subs := s.subs.put id x, cmds := s.cmds.drop (· = c.id) }
  s.sched (s.now + 1) (phRhizoid j) (.rhizoidTile (Fin.ofNat 8 j) id)

/-- ENGINE_START: the command's engine has accepted it and begins (R349, R353, R355). -/
def State.engineBegin (s : State) (id : Nat) : State :=
  let c := s.cmd id
  match c.kind with
  | .rpub => { s.ringPublish c.task c.core c.ctx c.ring c.count with cmds := s.cmds.drop (· = id) }
  | .rpop => { s.ringPop c.task c.core c.ctx c.ring c.count with cmds := s.cmds.drop (· = id) }
  | .subs => s.subStart c
  | .unsub =>
    let s := { s with cmds := s.cmds.drop (· = id) }
    match s.subs.find? (fun e => e.2.core = c.core && e.2.ctx = c.ctx && e.2.ring = c.ring) with
    | some e => if e.2.moving then { s with subs := s.subs.upd e.1 fun x => { x with ending := true } } else s.subEnd e.1
    | none => s
  | .fred =>
    let b := s.spadBytes c.core c.ctx c.src c.len
    let s := { s with allred := s.allred.upd c.ring fun a =>
      { a with op := c.op, ty := c.lvl, n := c.count, dsts := a.dsts ++ [(c.core, c.ctx, c.dst)] } }
    s.sched s.now (phStart c.core)
      (.allreduceContribution (Fin.ofNat 256 c.ring) 0 (Fin.ofNat 4 c.die) c.core b)
  | .cmo => s
  | _ =>
    let s := s.modCmd id fun c => { c with begun := true, order := s.seq }
    { s with seq := s.seq + 1 }.engineNext c.eng

/-- ENGINE_START (R349). -/
def execEngineStart (cmd : Nat) (s : State) : Host.Outcome State Fault Refusal := .next (s.engineBegin cmd)

/-! Maintenance (R144, R145, R358) -/

/-- One line under a mask of sectors, in the caches of the level: 0 the L1, 1 also the die's LLC, 2 also the owner's. What
goes to a stack takes slots (R143). -/
def State.cmoLine (s : State) (c : Cmd) (la : Nat) (m : List Bool) : State :=
  let die := dieOf c.core
  let clean := c.op = 0 || c.op = 2
  let drop := c.op = 1 || c.op = 2
  let change (l : Line) : Line :=
    { l with dirty := andNot l.dirty m, held := if drop then andNot l.held m else l.held }
  let l1 (s : State) : State :=
    match s.l1Find c.core la with
    | none => s
    | some k =>
      let h := s.l1Home c.core la
      let s := if clean then s.l1WriteBack h ((s.core h).l1.look k) m else s
      s.modCore h fun c => { c with l1 := c.l1.upd k fun l => (change l).settle }
  let llc (s : State) (d : Nat) : State :=
    match findLine (s.die d).llc (llcSet la) (s.llcWays d c.part) la with
    | none => s
    | some k =>
      let l := (s.die d).llc.look k
      let dm := sectorMask (andNot l.dirty (andNot l.dirty m))
      let s := if clean && dm.any id then
          (s.stackStore la l.data dm).hbmTask (stackOf la) c.task (countMask dm) none (c.id + 1)
        else s
      s.modDie d fun x => { x with llc := x.llc.upd k fun l => (change l).settle }
  s.asTask c.task fun s =>
    let s := l1 s
    let s := if 1 ≤ c.lvl then llc s die else s
    if c.lvl = 2 && !paD la && ownerDie la ≠ die then llc s (ownerDie la) else s

/-- The operation is complete: releases and fences of the context no longer wait for it (R145). -/
def State.cmoEnd (s : State) (c : Cmd) : State :=
  let s := { s with cmds := s.cmds.drop (· = c.id) }
  (s.modBank (ctxOf c.core c.ctx) fun b => { b with maint := b.maint - 1 }).orderFree c.core c.ctx c.task

/-- Whether something that the operation wrote has still to arrive (R144): a write-back that waits for slots, or bytes of the
core's write-combining buffers on their way. -/
def State.cmoBusy (s : State) (c : Cmd) : Bool :=
  s.bwsQ.any (fun q => q.2.any fun x => x.who = c.id + 1) ||
  (c.lvl = 2 && s.stores.any fun e => e.2.core = c.core && e.2.wcb && decide (e.1 < c.order))

/-- CMO_COMPLETE: one line of the range is examined, or a page passed over; after the last, when all that was written has
arrived, the operation is complete (R144, R145, R358). -/
def State.cmoStep (s : State) (id : Nat) : State :=
  let c := s.cmd id
  if c.kind ≠ .cmo || c.setAside then s
  else if c.len ≤ c.off then (if s.cmoBusy c then s.sched (s.now + 1) phMem (.cmoComplete id) else s.cmoEnd c)
  else
    let va := c.src + c.off
    let s := if c.lvl = 2 && c.off = 0 then
        let s := s.wcbFlushAll c.core c.part
        s.modCmd id fun c => { c with order := s.nextId }
      else s
    let go (n : Nat) (s : State) : State :=
      (s.modCmd id fun c => { c with off := c.off + n }).sched (s.now + 1) phMem (.cmoComplete id)
    match s.cmoPage c.core c.part va c.op with
    | (0, none) => go (min (c.len - c.off) (65536 - va % 65536)) s
    | (0, some x) =>
      let n := min (c.len - c.off) (128 - va % 128)
      go n (s.cmoLine c (lineOf (x.pa va)) (sectorMask (spanMask (va % 128) n)))
    | (k, _) =>
      let t := s.task c.task
      let s := s.modCmd id fun c => { c with setAside := true }
      if t.resident then
        (s.engineFault c.task 1 id { cause := k, slot := 7, faddr := va, idx := c.idx, resumeAt := va - va % 65536 }).1
      else s.cmoEnd c

/-- CMO_COMPLETE (R145, R358). -/
def execCmoComplete (cmd : Nat) (s : State) : Host.Outcome State Fault Refusal := .next (s.cmoStep cmd)

end Sys2Proof.Machine
end

