-- ==== Sys2Proof/Machine/Sampler.lean ====
section
/-! DEFINITION. The sampler: SFEED and the sampler commands at issue (15 R368, R372), the queue and its operations (R380), what lands (R369, R373 to R379), and the batching table's edits and flips (R383 to R385). -/

namespace Sys2Proof.Machine

/-! Issue -/

/-- The share holds a slot's record (R363, R372). -/
def State.shareCheck (s : State) (slot : Nat) : Check :=
  .when (decide (s.shareSize s.env.core s.env.ctx < 1024 * (slot + 1))) 0x16
/-- The descriptor of the latest issued bind of a slot (R368, R372). -/
def State.boundDesc (s : State) (slot : Nat) : List Byte := (s.slotRec s.env.core s.env.ctx slot).issued
/-- No earlier-issued bind of the task bound the slot (R368, R372). -/
def State.boundCheck (s : State) (slot : Nat) : Check :=
  (Check.when (s.boundDesc slot).isEmpty 0x08).and (s.shareCheck slot)
/-- The table region of a descriptor lies in the share (R364, R372). -/
def State.tableCheck (s : State) (d : List Byte) : Check :=
  .when (decide (s.shareSize s.env.core s.env.ctx < sdTmoff d + 33 * sdVlen d / 8)) 0x16
/-- An offset that a command reads or writes: n bytes, aligned (R372). -/
def State.offCheck (s : State) (v : Word) (n align : Nat) : Check :=
  (Check.when (v.toNat % align ≠ 0) 0x08).and (s.spadCheck v.toNat n)

/-- The operation enters the queue at offset 1 (R380). -/
def State.enqueueOp (s : State) (slot occ : Nat) (k : SmpKind) : State :=
  s.after 1 (.smpEnter { ctx := s.env.ctx, task := s.env.task, slot := slot, occ := occ, kind := k })

/-- A sampler command: class 13, event 0x0E (R340, R381). -/
def State.sampler (s : State) (i : Instr) (c : Check) (f : State → State) : Host.Outcome State Fault Refusal :=
  s.issue i c fun s => f ((s.issued1 13).count s.env.core s.env.ctx 0x0E 1)

/-- Slot of a sampler command. -/
def xsSlot (o : XS) : Nat := (o.ctl.extractLsb' 0 3).toNat

/-- Lanes of a feed inside the shard (R381). -/
def feedLanes (d : List Byte) (fptr : Nat) : Nat :=
  ((List.range 128).filter fun m => inShard d (fptr + m)).length

/-- FPTR as a feed that is issued now will find it (R369): the operations of the slot that are in work, in the queue or
about to enter it come first. -/
def State.fptrAhead (s : State) (core ctx slot : Nat) : Nat :=
  let c := s.core core
  let r := s.slotRec core ctx slot
  let coming := (s.bank (ctxOf core ctx)).pend.filterMap fun l => match l.w with | .smpEnter o => some o | _ => none
  ((c.smpOp.toList ++ c.smpQ ++ coming).foldl (fun (f : Nat × Nat) o =>
    if o.ctx ≠ ctx || o.slot ≠ slot then f
    else
      match o.kind with
      | .feed _ _ | .feedTile _ _ _ => (f.1 + 128, f.2)
      | .bind d => (sdVbase d, sdVbase d)
      | .reset _ => (f.2, f.2)
      | _ => f) (r.fptr, sdVbase r.desc)).1

/-- SFEED (R368): a vector register or bypass is read at issue, a half-tile as QRD reads it, at offset 1. -/
def execSfeed (o : VF) (s : State) : Host.Outcome State Fault Refusal :=
  let slot := (o.ctl.extractLsb' 0 3).toNat
  s.issue (.sfeed o) (s.boundCheck slot) fun s =>
    let n := feedLanes (s.boundDesc slot) (s.fptrAhead s.env.core s.env.ctx slot)
    let s := (s.issued1 13).count s.env.core s.env.ctx 0x0F n
    let occ := 8 * (sdFlen (s.boundDesc slot) + 2)
    if o.ctl.getLsbD 13 then
      s.enqueueOp slot occ (.feedTile (o.ctl.extractLsb' 9 4).toNat (o.ctl.extractLsb' 5 4).toNat (o.ctl.extractLsb' 4 1).toNat)
    else s.enqueueOp slot occ (.feed (s.vsrc .v1 o.byp o.a) 0)

/-- The 256 bytes of a descriptor (R364). -/
def State.smpDesc (s : State) (v : Word) : List Byte := s.spadBytes s.env.core s.env.ctx v.toNat 256

/-- The checks of SMP.BIND (R372). -/
def State.bindCheck (s : State) (o : XS) : Check :=
  let off := s.sv o.a
  let d := s.smpDesc off
  (Check.when (off.toNat % 256 ≠ 0 || (s.mine.holds off.toNat 256 && !sdOk d)) 0x08).and
    ((s.spadCheck off.toNat 256).and ((s.shareCheck (xsSlot o)).and (s.tableCheck d)))

/-- SMP.BIND (R372, R373). -/
def execSmpBind (o : XS) (s : State) : Host.Outcome State Fault Refusal :=
  s.sampler (.smpBind o) (s.bindCheck o) fun s =>
    let d := s.smpDesc (s.sv o.a)
    let r := s.slotRec s.env.core s.env.ctx (xsSlot o)
    (s.putRec s.env.core s.env.ctx (xsSlot o) { r with issued := d }).enqueueOp (xsSlot o) 80 (.bind d)

/-- A table transfer: it takes one copy descriptor at issue, and is handed over when its operation ends (R373). -/
def State.tables (s : State) (i : Instr) (o : XS) (kind : CmdKind) : Host.Outcome State Fault Refusal :=
  let slot := xsSlot o
  let d := s.boundDesc slot
  s.sampler i ((s.boundCheck slot).and ((s.tableCheck d).and ((s.spadCheck (sdDone d) 8).and s.cedCheck))) fun s =>
    let (id, s) := s.newId
    let load := kind = .smpLoad
    let c : Cmd :=
      { id := id, kind := kind, task := s.env.task, idx := s.env.idx, core := s.env.core, ctx := s.env.ctx
        die := dieOf s.env.core, part := s.cur.part, engine := some (copyEngineOf s.env.core)
        srcSpace := if load then 0 else 4, dstSpace := if load then 4 else 0, rows := if load then 3 else 1
        done := some (sdDone d), doneVal := s.sv o.b, desc := d }
    { s with cmds := s.cmds.put id c }.enqueueOp slot 2 (.tables id)

/-- SMP.LOAD (R373). -/
def execSmpLoad (o : XS) (s : State) : Host.Outcome State Fault Refusal := s.tables (.smpLoad o) o .smpLoad

/-- SMP.FLUSH (R373). -/
def execSmpFlush (o : XS) (s : State) : Host.Outcome State Fault Refusal := s.tables (.smpFlush o) o .smpFlush

/-- SMP.RESET (R373). -/
def execSmpReset (o : XS) (s : State) : Host.Outcome State Fault Refusal :=
  s.sampler (.smpReset o) (s.boundCheck (xsSlot o)) fun s => s.enqueueOp (xsSlot o) 4 (.reset (o.ctl.getLsbD 3))

/-- SMP.MERGE out (R374). -/
def execSmpMergeOut (o : XS) (s : State) : Host.Outcome State Fault Refusal :=
  s.sampler (.smpMergeOut o) ((s.boundCheck (xsSlot o)).and (s.offCheck (s.sv o.a) 576 64)) fun s =>
    s.enqueueOp (xsSlot o) 72 (.mergeOut (s.sv o.a).toNat)

/-- SMP.MERGE in (R375). -/
def execSmpMergeIn (o : XS) (s : State) : Host.Outcome State Fault Refusal :=
  s.sampler (.smpMergeIn o) ((s.boundCheck (xsSlot o)).and (s.offCheck (s.sv o.a) 576 64)) fun s =>
    s.enqueueOp (xsSlot o) 72 (.mergeIn (s.sv o.a).toNat)

/-- SMP.DRAW (R372, R376, R377). -/
def execSmpDraw (o : XS) (s : State) : Host.Outcome State Fault Refusal :=
  let slot := xsSlot o
  s.sampler (.smpDraw o)
    ((Check.when (decide (4 < (s.sv o.b).toNat % 8)) 0x08).and ((s.boundCheck slot).and (s.offCheck (s.sv o.a) 8 8)))
    fun s => s.enqueueOp slot (4 * sdDlen (s.boundDesc slot) + 112) (.draw (s.sv o.a).toNat (s.sv o.b))

/-- SMP.GREEDY (R377). -/
def execSmpGreedy (o : XS) (s : State) : Host.Outcome State Fault Refusal :=
  let slot := xsSlot o
  s.sampler (.smpGreedy o) ((s.boundCheck slot).and (s.offCheck (s.sv o.a) 8 8)) fun s =>
    s.enqueueOp slot (4 * sdDlen (s.boundDesc slot) + 8) (.greedy (s.sv o.a).toNat)

/-- SMP.COMMIT of a result word (R379). -/
def execSmpCommit (o : XS) (s : State) : Host.Outcome State Fault Refusal :=
  s.sampler (.smpCommit o) ((s.boundCheck (xsSlot o)).and (s.offCheck (s.sv o.a) 8 8)) fun s =>
    s.enqueueOp (xsSlot o) 6 (.commit (s.sv o.a).toNat)

/-- SMP.COMMIT pend (R379). -/
def execSmpCommitPend (o : XS) (s : State) : Host.Outcome State Fault Refusal :=
  s.sampler (.smpCommitPend o) (s.boundCheck (xsSlot o)) fun s =>
    s.enqueueOp (xsSlot o) 6 (.pend ((s.sv o.b).toNat % 2 ^ 32))

/-- SMP.COMMIT settle (R379). -/
def execSmpCommitSettle (o : XS) (s : State) : Host.Outcome State Fault Refusal :=
  s.sampler (.smpCommitSettle o) (s.boundCheck (xsSlot o)) fun s =>
    s.enqueueOp (xsSlot o) 6 (.settle ((s.sv o.b).toNat % 8))

/-- SMP.THR (R371). -/
def execSmpThr (o : XS) (s : State) : Host.Outcome State Fault Refusal :=
  s.sampler (.smpThr o) (s.boundCheck (xsSlot o)) fun s => s.enqueueOp (xsSlot o) 1 (.thr (o.ctl.getLsbD 3))

/-! The queue (R380) -/

/-- Half of a tile, in the element order of R317, and the AF bits of its lanes. -/
def halfTile (t : Tile) (h : Nat) : Vec := t.extractLsb' (4096 * h) 4096
def halfAf (af : BitVec 256) (h : Nat) : BitVec 256 := (af.extractLsb' (128 * h) 128).setWidth 256
/-- A tile of a core, and its AF bits. -/
def State.tileAt (s : State) (core bank tile : Nat) : Tile := (s.core core).tiles.look (16 * bank + tile)
def State.afAt (s : State) (core bank tile : Nat) : BitVec 256 := (s.core core).af.look (16 * bank + tile)

/-- Elements of a feed: the lanes inside the shard that are not below the exported threshold (R369). -/
def feedTodo (r : SlotRec) (v : Vec) (af : BitVec 256) : List Cand :=
  (List.range 128).filterMap fun m =>
    let t := r.fptr + m
    if !inShard r.desc t || af.getLsbD m then none
    else some ⟨BitVec.ofNat 32 (bits v.toNat (32 * m + 31) (32 * m)), t⟩

/-- The logit unit takes the elements of an operation through a phase of the program (R365, R377). -/
def State.lgStart (s : State) (core : Nat) (op : SmpOp) (draw : Bool) (todo : List Cand) : State :=
  let d := (s.slotRec core op.ctx op.slot).desc
  let best := ((s.slotRec core op.ctx op.slot).cands.headD default).value
  { s with lg := { core := core, ctx := op.ctx, slot := op.slot, todo := todo, maxv := best
                   prog := if draw then sdProg d (sdFlen d) (sdDlen d) else sdProg d 0 (sdFlen d)
                   phase := if draw then 1 else 0 } }.lgNext

/-- The bind of a descriptor (R373). -/
def bindRec (r : SlotRec) (d : List Byte) : SlotRec :=
  { r with desc := d, step := field d 148 4, pending := [], cands := [], mask := 2 ^ sdShard d, fptr := sdVbase d }
/-- The reset of a step (R373). -/
def resetRec (r : SlotRec) (keep : Bool) : SlotRec :=
  { r with cands := [], fptr := sdVbase r.desc, mask := 2 ^ sdShard r.desc, pending := if keep then r.pending else [] }

/-- Entry of a record's edits. -/
def editIdx (r : SlotRec) : Nat := field r.desc 158 2

/-- bump of each token of a list: the counts in the table region that it leaves, saturating, nothing outside the shard
(R379). -/
def State.bumped (s : State) (core ctx : Nat) (d : List Byte) (l : List Nat) : List (Nat × Nat) :=
  (l.eraseDups.filter (inShard d)).map fun t =>
    let off := sdTmoff d + 2 * (t - sdVbase d)
    (off, min 65535 (s.tmNat core ctx off 2 + l.count t))

/-- The commit of a result word (R379), and the tokens it counts. -/
def commitLand (r : SlotRec) (w : Nat) : SmpLand × List Nat :=
  let st := bits w 42 40
  if st = 2 || st = 3 then
    ({ record := { r with pending := [] }, edit := some (editOf (editIdx r) [(4, [2])]) }, [])
  else
    let step := (r.step + 1) % 2 ^ 32
    ({ record := { r with step := step, pending := [] }
       edit := some (editOf (editIdx r) [(8, natLe 8 step), (16, natLe 4 (w % 2 ^ 32))]) }, [w % 2 ^ 32])

/-- The settlement of pending tokens (R379), and the tokens it counts: a count above 4 acts as 4. -/
def settleLand (r : SlotRec) (n : Nat) : SmpLand × List Nat :=
  let n := min 4 n
  let l := r.pending.take n
  let step := (r.step + l.length) % 2 ^ 32
  let last : List (Nat × List Byte) := match l.getLast? with | some t => [(16, natLe 4 t)] | none => []
  ({ record := { r with step := step, pending := [] }
     edit := some (editOf (editIdx r) ([(8, natLe 8 step), (5, natLe 1 n)] ++ last)) }, l)

/-- What an operation does as it begins (R380): it reads what it reads, and what it lands is set; a feed, a draw and a
greedy choice go through the logit unit. -/
def State.smpRun (s : State) (core : Nat) (op : SmpOp) : State :=
  let r := s.slotRec core op.ctx op.slot
  let pre := (s.core core).smpPre
  let s := s.modCore core fun c => { c with smpPre := [] }
  let read (off n : Nat) : List Byte := if pre.isEmpty then s.spadBytes core op.ctx off n else pre
  let land (l : SmpLand) : State := s.modCore core fun c => { c with smpLand := l }
  let counted (l : SmpLand × List Nat) : State := land { l.1 with bumps := s.bumped core op.ctx r.desc l.2 }
  let draw (off : Nat) (step : Nat) : State :=
    if r.mask ≠ 2 ^ sdNshard r.desc - 1 then
      land { record := r, store := some (off, natLe 8 (resultWord step 0xFFFFFFFF 0 2)) }
    else if sdDlen r.desc = 0 then s.smpResults core (r.cands.map fun c => (c.value, c.token, true))
    else s.lgStart core op true r.cands
  match op.kind with
  | .feed v af => s.lgStart core op false (feedTodo r v af)
  | .feedTile b t h =>
    s.lgStart core op false (feedTodo r (halfTile (s.tileAt core b t) h) (halfAf (s.afAt core b t) h))
  | .bind d => land { record := bindRec r d }
  | .reset keep => land { record := resetRec r keep }
  | .mergeOut off => land { record := r, store := some (off, r.image) }
  | .mergeIn off => land { record := r.merge (read off 576) }
  | .draw off sb => draw off ((r.step + sb.toNat % 8) % 2 ^ 32)
  | .greedy off => draw off r.step
  | .commit off => counted (commitLand r (leNat (read off 8)))
  | .pend t => land { record := if r.pending.length < 4 then { r with pending := r.pending ++ [t] } else r }
  | .settle n => counted (settleLand r n)
  | .thr _ | .tables _ => land { record := r }

/-- SAMPLER_OP_BEGIN: the oldest operation begins when none is in work (R380). -/
def State.smpBegin (s : State) (core : Nat) : State :=
  let c := s.core core
  match c.smpOp, c.smpQ with
  | none, op :: rest => (s.modCore core fun c => { c with smpOp := some op, smpQ := rest, smpLeft := op.occ }).smpRun core op
  | _, _ => s

/-- What the oldest queued operation reads of the scratchpad, kept aside in the cycle in which the one in work ends:
a read of a cycle precedes its writes (R157, R380). -/
def State.smpPreRead (s : State) (core : Nat) : State :=
  match (s.core core).smpQ with
  | [] => s
  | op :: _ =>
    let b := match op.kind with
      | .mergeIn off => s.spadBytes core op.ctx off 576
      | .commit off => s.spadBytes core op.ctx off 8
      | _ => []
    s.modCore core fun c => { c with smpPre := b }

/-- One cycle of the sampler for the context whose operation is in work (R380). -/
def State.smpTick (s : State) (core ctx : Nat) : State :=
  let c := s.core core
  match c.smpOp with
  | none => s
  | some op =>
    if op.ctx ≠ ctx || c.smpLeft = 0 then s
    else
      let s := s.modCore core fun c => { c with smpLeft := c.smpLeft - 1 }
      if c.smpLeft = 1 then (s.smpPreRead core).sched s.now phSampler (.samplerOpLand (Fin.ofNat 384 core)) else s

/-- An operation enters the queue; it begins at once when none is in work (R380). -/
def State.smpEnter (s : State) (core : Nat) (op : SmpOp) : State :=
  let op := match op.kind with
    | .feedTile b t h => { op with kind := .feed (halfTile (s.tileAt core b t) h) (halfAf (s.afAt core b t) h) }
    | _ => op
  let s := s.modCore core fun c => { c with smpQ := c.smpQ ++ [op] }
  if (s.core core).smpOp.isNone then s.sched s.now phPulse (.samplerOpBegin (Fin.ofNat 384 core)) else s

/-- Whether an operation that enters in the context's next cycle would find the queue of four full (R380). -/
def State.smpFull (s : State) (core ctx : Nat) : Bool :=
  let c := s.core core
  let b := s.bank (ctxOf core ctx)
  let work := match c.smpOp with | some _ => if c.smpLeft ≤ 1 then 0 else 1 | none => 0
  b.pend.any (fun l => match l.w with | .smpEnter _ => decide (l.due ≤ b.lastCyc + 1) | _ => false) &&
  decide (4 ≤ work + c.smpQ.length)

/-- SAMPLER_OP_BEGIN (R380). -/
def execSamplerOpBegin (core : Core) (s : State) : Host.Outcome State Fault Refusal := .next (s.smpBegin core.val)

/-- SAMPLER_OP_LAND: what the operation writes lands (R369, R373, R380): record, counts, result or image, edit, threshold
source; a table transfer goes to the copy engine. The next operation begins in the same cycle. -/
def State.smpLandNow (s : State) (core : Nat) : State :=
  match (s.core core).smpOp with
  | none => s
  | some op =>
    let l := (s.core core).smpLand
    let issued := (s.slotRec core op.ctx op.slot).issued
    let s := s.modCore core fun c => { c with smpOp := none, smpLeft := 0, smpLand := {} }
    let s := s.putRec core op.ctx op.slot { l.record with issued := issued }
    let s := l.bumps.foldl (fun s b => s.taskTm op.task core op.ctx b.1 (natLe 2 b.2)) s
    let s := match l.store with
      | some (off, b) => s.taskSpad op.task core op.ctx off b
      | none => s
    let s := match l.edit with
      | some e => s.bbtAccept (16 * dieOf core + (s.task op.task).part) e
      | none => s
    let s := match op.kind with
      | .thr en => s.modBank (ctxOf core op.ctx) fun b => { b with thrSrc := if en then some op.slot else none }
      | .tables id => s.sched s.now phEnd (.engineStart id)
      | _ => s
    s.smpBegin core

/-- SAMPLER_OP_LAND (R380). -/
def execSamplerOpLand (core : Core) (s : State) : Host.Outcome State Fault Refusal := .next (s.smpLandNow core.val)

/-! Batching-table flips (R385) -/

/-- The flip waits for those before it: the next one of a partition performs at a free tick within 64 of its issue, or
once the replay in progress is done. -/
def State.flipSched (s : State) (i : Nat) : State :=
  let b := s.bbt.look i
  let ev : Ev := .bflipPerform (Fin.ofNat 4 (i / 16)) (Fin.ofNat 16 (i % 16))
  if b.flips = 0 || b.replaying || s.due ev then s else s.schedWithin 64 phEnd ev

/-- BFLIP: made by core index 0 (R385). -/
def execBflip (s : State) : Host.Outcome State Fault Refusal :=
  s.issue .bflip .pass fun s =>
    let s := (s.issued1 12).count s.env.core s.env.ctx 0x0E 1
    if s.env.idx ≠ 0 then s
    else
      let i := 16 * dieOf s.env.core + s.cur.part
      if s.getF BBT_CFG.EN i = 0 then s.setF BBT_STAT.ERR i 1
      else { s with bbt := s.bbt.upd i fun b => { b with flips := b.flips + 1 } }.flipSched i

/-- BFLIP_PERFORM: the flip word, then the replay of the log, 16 ticks per entry (R385), and at least one tick (R408). -/
def State.flipNow (s : State) (i : Nat) : State :=
  let die := i / 16
  let part := i % 16
  let b := s.bbt.look i
  let gen := s.getF BBT_STAT.GEN i
  let s := { s with bbt := s.bbt.upd i fun b => { b with flips := b.flips - 1 } }
  let w := (b.gen + 1) % 2 ^ 63 * 2 + (1 - b.live)
  if s.getF BBT_CFG.EN i = 0 then (s.setF BBT_STAT.ERR i 1).flipSched i
  else
    match s.vwrite die part 0 2 (s.getF BBT_CFG.FLIPW i) (natLe 8 w) with
    | none => (s.setF BBT_STAT.ERR i 1).flipSched i
    | some s =>
      let s := { s with bbt := s.bbt.upd i fun b => { b with live := 1 - b.live, gen := b.gen + 1, replaying := true } }
      let s := ((s.setF BBT_STAT.GEN i (gen + 1)).setF BBT_STAT.LIVE i (1 - b.live)).setF BBT_EDIT_CTL.BUSY i 1
      s.sched (s.now + max 1 (16 * b.log.length)) phEnd (.bflipReplayDone (Fin.ofNat 4 die) (Fin.ofNat 16 part))

/-- BFLIP_PERFORM (R385). -/
def execBflipPerform (d : Die) (p : Part) (s : State) : Host.Outcome State Fault Refusal :=
  .next (s.flipNow (16 * d.val + p.val))

/-- BFLIP_REPLAY_DONE: the log has been replayed onto the new shadow image and is clear; edits that arrived meanwhile are
accepted, then the next flip may perform (R385). -/
def State.replayDone (s : State) (i : Nat) : State :=
  let b := s.bbt.look i
  let s := b.log.foldl (fun s e => s.bbtWrite i (1 - b.live) e) s
  let s := { s with bbt := s.bbt.upd i fun b => { b with log := [], replaying := false, waiting := [] } }
  let s := (s.setF BBT_STAT.LOG i 0).setF BBT_EDIT_CTL.BUSY i 0
  (b.waiting.foldl (fun s e => s.bbtAccept i e) s).flipSched i

/-- BFLIP_REPLAY_DONE (R385). -/
def execBflipReplayDone (d : Die) (p : Part) (s : State) : Host.Outcome State Fault Refusal :=
  .next (s.replayDone (16 * d.val + p.val))

end Sys2Proof.Machine
end

