-- ==== Sys2Proof/Machine/Cube.lean ====
section
/-! DEFINITION. Slot 5: the trilinear cube and its accumulators (13 R319 to R334), with the numerics of a whole operation (09 R229 to R239). -/

namespace Sys2Proof.Machine

/-! Elements of slices (R321) -/

/-- Byte i of a slice. -/
def byteOf (x i : Nat) : Nat := x / 2 ^ (8 * i) % 256
/-- Nibble n (0 low) of byte i. -/
def nibOf (x i n : Nat) : Nat := x / 2 ^ (8 * i + 4 * n) % 16
/-- Two bytes from byte i up. -/
def halfOf (x i : Nat) : Nat := x / 2 ^ (8 * i) % 65536

/-- Element A[i, k] of a slice under a plane format code. -/
def elemA (f x i k : Nat) : Nat :=
  if f = 2 || f = 3 then halfOf x (2 * (16 * i + k))
  else if f = 5 then nibOf x (16 * i + k / 2) (k % 2)
  else if f = 7 then nibOf x (8 * i + k / 2) (k % 2)
  else byteOf x (16 * i + k)
/-- Element B[k, j]. -/
def elemB (f x k j : Nat) : Nat :=
  if f = 2 || f = 3 then halfOf x (2 * (16 * k + j))
  else if f = 5 || f = 7 then nibOf x (16 * (k / 2) + j) (k % 2)
  else byteOf x (16 * k + j)
/-- Element of G for cell (i, j), lane k, in modes GL, GR, GD. -/
def elemG (mode x i k j : Nat) : Nat :=
  if mode = 1 then byteOf x (16 * i + k) else if mode = 2 then byteOf x (16 * k + j) else byteOf x k

/-- Bytes of a slice of A or B. -/
def sliceBytes (f : Nat) : Nat := if f = 2 || f = 3 then 512 else if f = 7 then 128 else 256
/-- Bytes of a slice of G, or of group words. -/
def sliceBytesG (grouped : Bool) (mode : Nat) : Nat := if grouped then 128 else if mode = 3 then 16 else 256

/-- The floating layout of a plane format code (R226). -/
def planeFmt (f : Nat) : Fmt :=
  match f with | 0 => fpE4M3 | 1 => fpE5M2 | 2 => fp16 | _ => bf16

/-! The steps of the profiles -/

/-- |v|. -/
def FpVal.abs : FpVal → FpVal
  | .nan q => .nan q
  | .inf _ => .inf false
  | .fin _ n d => .fin false n d

/-- Operands of a cell at a k-slice: the values of lanes 0 to 15. -/
def lanesA (o : CubeOp) (x i : Nat) : List FpVal := (List.range 16).map fun k => (planeFmt (fmtFA o.fmt)).val (elemA (fmtFA o.fmt) x i k)
def lanesB (o : CubeOp) (x j : Nat) : List FpVal := (List.range 16).map fun k => (planeFmt (fmtFB o.fmt)).val (elemB (fmtFB o.fmt) x k j)
def lanesG (o : CubeOp) (x i j : Nat) : List FpVal :=
  (List.range 16).map fun k => if o.mode = 0 then FpVal.ofInt 1 else (planeFmt (fmtFG o.fmt)).val (elemG o.mode x i k j)

/-- step_001_004 (R232): the new accumulator and its flags. -/
def step14 (acc : Nat) (a b : List FpVal) : Nat × Nat :=
  alignSum (fp32.val acc :: (a.zip b).map fun p => FpVal.mul p.1 p.2) none

/-- step_002 (R232). -/
def step2 (mode acc : Nat) (a b g : List FpVal) : Nat × Nat :=
  let ts := ((a.zip b).zip g).map fun p =>
    let st := if mode = 1 then toStem (FpVal.mul p.1.1 p.2) else toStem (FpVal.mul p.1.2 p.2)
    (FpVal.mul st.1 (if mode = 1 then p.1.2 else p.1.1), st.2)
  let r := alignSum (fp32.val acc :: ts.map (·.1)) (some 48)
  (r.1, ts.foldl (fun f t => f ||| t.2) r.2)

/-- FP32 addition of R233. -/
def add32 (x y : Nat × Nat) : Nat × Nat :=
  let r := rne32 (FpVal.addZ .rne (fp32.val x.1) (fp32.val y.1))
  (r.1, r.2 ||| x.2 ||| y.2)
/-- A list paired in ascending order and added. -/
def pairUp : List (Nat × Nat) → List (Nat × Nat)
  | x :: y :: l => add32 x y :: pairUp l
  | l => l
/-- The tree of profile 0x003 (R233); subnormal inputs read as zero of their sign (R229). -/
def step3 (acc : Nat) (a b : List Nat) : Nat × Nat :=
  let v (x : Nat) : FpVal := bf16.val (flushFp true bf16 x)
  let p := (a.zip b).map fun q => rne32 (FpVal.mul (v q.1) (v q.2))
  match pairUp (pairUp (pairUp (pairUp p))) with
  | t :: _ => add32 (acc, 0) t
  | [] => (acc, 0)

/-- The step of profile 0x020 (R235): new accumulator and the integer overflow flag. -/
def step20 (acc : Nat) (terms : List Int) : Nat × Nat :=
  let t := terms.foldl (· + ·) (sintN 32 acc)
  (truncInt t 32, if t < -2 ^ 31 || 2 ^ 31 ≤ t then flIntOvf else 0)

/-- Zero point of a group word (R219). -/
def zeroPoint (fmt : Word) (word : Nat) : Nat :=
  let q4 := fmtFA fmt = 7
  match fmtZPM fmt with
  | 0 => if q4 then bits word 19 16 else bits word 23 16
  | 1 => if q4 then 8 else 128
  | _ => 0
/-- Group word m of a slice. -/
def groupWord (x m : Nat) : Nat := x / 2 ^ (32 * m) % 2 ^ 32

/-- The sum of a k-slice under the grouped profiles (R234). -/
def groupTerms (o : CubeOp) (xa xb xg i j : Nat) : Int :=
  let za := zeroPoint o.fmt (groupWord xg i)
  let zb := zeroPoint o.fmt (groupWord xg (16 + j))
  (List.range 16).foldl (fun (t : Int) k =>
    t + ((elemA (fmtFA o.fmt) xa i k : Int) - za) * ((elemB (fmtFB o.fmt) xb k j : Int) - zb)) 0
/-- The group update of R234. -/
def groupUpdate (acc xg i j : Nat) (p : Int) : Nat × Nat :=
  let sc := toStem (FpVal.mul (fp16.val (groupWord xg i % 65536)) (fp16.val (groupWord xg (16 + j) % 65536)))
  let r := rne32 (FpVal.addZ .rne (fp32.val acc) (FpVal.mul sc.1 (FpVal.ofInt p)))
  (r.1, r.2 ||| sc.2)

/-! Approximation (R236 to R238) -/

/-- Fraction bits kept of an operand of a format code at an approximation setting. -/
def keptBits (f apx : Nat) : Nat :=
  let l := match apx with | 0 => 0 | 1 | 4 => 1 | 2 => 2 | _ => 3
  if f = 0 then 3 - l else 2 - min 2 l
/-- Energy percentage of a setting. -/
def apxPct (apx : Nat) : Nat := match apx with | 0 => 100 | 1 => 78 | 2 => 64 | 3 => 55 | _ => 82

/-- A truncated operand and its error unit (R237). -/
def truncate (f apx : Nat) (v : FpVal) : FpVal × FpVal :=
  match v with
  | .fin s n d =>
    if n = 0 then (v, .fin false 0 1)
    else
      let e : Int := max (floorLog2 n d) (planeFmt f).emin - keptBits f apx
      let m := if 0 ≤ e then n / (d * 2 ^ e.toNat) else n * 2 ^ (-e).toNat / d
      (FpVal.scaled s m e, FpVal.scaled false 1 e)
  | _ => (v, .fin false 0 1)

/-- Running sums of a cell of profile 0x030: V*, Ṽ, B, and whether an operand is NaN or infinite. -/
structure Sums where
  v : FpVal
  t : FpVal
  b : FpVal
  wild : Bool

/-- The sums after a k-slice (R237). -/
def Sums.step (o : CubeOp) (apx : Nat) (x : Sums) (a b : List FpVal) : Sums :=
  (a.zip b).foldl (fun x p =>
    let ta := truncate (fmtFA o.fmt) apx p.1
    let tb := truncate (fmtFB o.fmt) apx p.2
    let wild := (match p.1 with | .fin _ _ _ => false | _ => true) || (match p.2 with | .fin _ _ _ => false | _ => true)
    { v := FpVal.addZ .rne x.v (FpVal.mul p.1 p.2)
      t := if wild then x.t else FpVal.addZ .rne x.t (FpVal.mul ta.1 tb.1)
      b := if wild then x.b else FpVal.add x.b (FpVal.add (FpVal.add (FpVal.mul ta.1.abs tb.2) (FpVal.mul tb.1.abs ta.2)) (FpVal.mul ta.2 tb.2))
      wild := x.wild || wild }) x

/-- Whether an output is left approximate (R238). -/
def approximate (kind thr : Nat) (x : Sums) : Bool :=
  let t := fp32.val thr
  let lo := fp32.val (rne32 (FpVal.add x.t x.b.neg)).1
  let hi := fp32.val (rne32 (FpVal.add x.t x.b)).1
  if x.wild || t.isNan then false
  else if kind = 2 then hi.lt t
  else t.lt lo || hi.lt t

/-! The whole operation (R327) -/

/-- The setting in force: CMULA alone honours fmt.APX (R324, R236). -/
def CubeOp.apx (o : CubeOp) : Nat := if o.form = 5 then fmtAPX o.fmt else 0

/-- What a cell retires with: element, AF, flags, and whether it was refined. -/
structure CellOut where
  x : Nat
  af : Bool
  fl : Nat
  refined : Bool
  deriving DecidableEq, Repr

/-- One cell over the slices read, in order. -/
def CubeOp.cell (o : CubeOp) (rs : List (Nat × Nat × Nat)) (i j : Nat) : CellOut :=
  let acc0 := bits o.init.toNat (32 * (16 * i + j) + 31) (32 * (16 * i + j))
  let plain (r : Nat × Nat) : CellOut := ⟨r.1, false, r.2, false⟩
  let run (f : Nat → Nat × Nat × Nat → Nat × Nat) : CellOut :=
    plain (rs.foldl (fun r x => let q := f r.1 x; (q.1, r.2 ||| q.2)) (acc0, 0))
  match o.prof with
  | 0x002 => run fun acc x => step2 o.mode acc (lanesA o x.1 i) (lanesB o x.2.1 j) (lanesG o x.2.2 i j)
  | 0x003 => run fun acc x =>
      step3 acc ((List.range 16).map fun k => elemA 3 x.1 i k) ((List.range 16).map fun k => elemB 3 x.2.1 k j)
  | 0x020 =>
    let n := if fmtFA o.fmt = 5 then 32 else 16
    let w := if fmtFA o.fmt = 5 then 4 else 8
    run fun acc x => step20 acc ((List.range n).map fun k =>
      sintN w (elemA (fmtFA o.fmt) x.1 i k) * sintN w (elemB (fmtFB o.fmt) x.2.1 k j))
  | 0x010 | 0x011 =>
    let per := fmtG o.fmt / 16
    let r := rs.foldl (fun (r : Nat × (Nat × Nat) × Int) x =>
      let gs := r.2.2 + groupTerms o x.1 x.2.1 x.2.2 i j
      if (r.1 + 1) % per = 0 then
        let q := groupUpdate r.2.1.1 x.2.2 i j gs
        (r.1 + 1, (q.1, r.2.1.2 ||| q.2), 0)
      else (r.1 + 1, r.2.1, gs)) (0, (acc0, 0), 0)
    plain r.2.1
  | 0x030 =>
    let z := fp32.val acc0
    let x := rs.foldl (fun x r => x.step o o.apx (lanesA o r.1 i) (lanesB o r.2.1 j))
      { v := z, t := z, b := .fin false 0 1, wild := false : Sums }
    if o.apx ≠ 0 && approximate o.thrKind o.thr x then
      let r := rne32 x.t
      ⟨r.1, true, r.2, false⟩
    else
      let r := rne32 x.v
      ⟨r.1, false, r.2, decide (o.apx ≠ 0)⟩
  | _ => run fun acc x => step14 acc (lanesA o x.1 i) (lanesB o x.2.1 j)

/-- The 256 cells, row by row. -/
def CubeOp.cells (o : CubeOp) : List CellOut :=
  let rs := o.reads.reverse
  (List.range 256).map fun c => o.cell rs (c / 16) (c % 16)

/-- The tile of 256 elements. -/
def tileOfCells (l : List Nat) : Tile := BitVec.ofNat 8192 (packElems 32 l)

/-! Issue -/

/-- Whether a form admits a profile and its mode (R324). -/
def cubeForm (form prof mode : Nat) : Bool :=
  (match form with
    | 1 | 2 => prof = 1 || prof = 2 || prof = 3 || prof = 4 || prof = 0x30
    | 3 => prof = 0x10 || prof = 0x11
    | 4 => prof = 0x20
    | _ => prof = 0x30) &&
  (mode = 0 || prof = 2)

/-- Whether a form admits a profile, its mode and its plane formats (R324, R325). -/
def cubeAdmits (form prof mode : Nat) (fmt : Word) : Bool :=
  let fa := fmtFA fmt
  let fb := fmtFB fmt
  let fp8 (f : Nat) : Bool := f = 0 || f = 1
  cubeForm form prof mode &&
  (match prof with
    | 3 => fa = 3 && fb = 3
    | 4 => fa = 2 && fb = 2
    | 0x10 => fa = 7 && fb = 7
    | 0x11 => fa = 6 && fb = 6
    | 0x20 => (fa = 4 && fb = 4) || (fa = 5 && fb = 5)
    | _ => fp8 fa && fp8 fb && (mode = 0 || fp8 (fmtFG fmt)))

/-- Fields of a cube shape register (R323). -/
def hmNK (h : Word) : Nat := bits h.toNat 7 0 + 1
def hmREP (h : Word) : Nat := bits h.toNat 31 24 + 1
def hmRA (h : Word) : Nat := bits h.toNat 11 8
def hmRB (h : Word) : Nat := bits h.toNat 15 12
def hmRG (h : Word) : Nat := bits h.toNat 19 16
def hmTKIND (h : Word) : Nat := bits h.toNat 23 22
def hmTHR (h : Word) : Nat := bits h.toNat 63 32

/-- Cycles per k-slice of a profile (R327). -/
def cyclesPer (prof : Nat) : Nat := if prof = 3 || prof = 4 then 2 else 1

/-- A plane of an operation: its ring, slice bytes and slices read. -/
structure Plane where
  ring : Nat
  slice : Nat
  slices : Nat
  kept : Bool
  deriving DecidableEq, Repr

/-- The planes of an operation: A, B, and G or the group words. -/
def planesOf (form mode : Nat) (h : Word) (fmt : Word) (ctl : BitVec 7) : List Plane :=
  let n := hmNK h
  [⟨hmRA h, sliceBytes (fmtFA fmt), n, ctl.getLsbD 1⟩, ⟨hmRB h, sliceBytes (fmtFB fmt), n, ctl.getLsbD 2⟩] ++
  (if form = 3 then [⟨hmRG h, 128, ceilDiv n (fmtG fmt / 16), ctl.getLsbD 3⟩]
   else if mode ≠ 0 then [⟨hmRG h, sliceBytesG false mode, n / hmREP h, ctl.getLsbD 3⟩] else [])

/-- Slices in a slot, and the slots an operation reads of a plane (R321, R326). -/
def Plane.perSlot (p : Plane) (r : RingEnt) : Nat := r.slotBytes / p.slice
def Plane.slots (p : Plane) (r : RingEnt) : Nat := ceilDiv p.slices (max 1 (p.perSlot r))

/-- Check 1 of R326 for a ring. -/
def State.ringInside (s : State) (n : Nat) : Check :=
  let r := s.ringEnt s.env.core s.env.ctx n
  (s.spadCheck (16 * n) 16).and ((s.spadCheck r.base (r.slotBytes * r.count)).and (s.spadCheck r.pub 8))
/-- Check 6 of R326. -/
def RingEnt.ok (r : RingEnt) : Bool :=
  r.base % 128 = 0 && r.pub % 8 = 0 && decide (1 ≤ r.slot ∧ r.slot ≤ 4096 ∧ 1 ≤ r.count ∧ r.count ≤ 256)
/-- The checks of R326 in their order. -/
def State.shapeChecks (s : State) (form mode : Nat) (h : Word) (ctl : BitVec 7) : Check :=
  let fmt := s.mine.fmt
  let ps := planesOf form mode h fmt ctl
  let ent (p : Plane) : RingEnt := s.ringEnt s.env.core s.env.ctx p.ring
  let rings := ps.map (·.ring)
  let n := hmNK h
  let all (f : Plane → Bool) : Check := .when (!ps.all f) 0x08
  (ps.foldl (fun c p => c.and (s.ringInside p.ring)) Check.pass).and
    ((Check.when (bits h.toNat 21 20 ≠ 0 || (form = 5 && hmTKIND h = 3)) 0x08).and
    ((Check.when (rings.eraseDups.length ≠ rings.length) 0x08).and
    ((Check.when ((mode = 0 && hmREP h ≠ 1) || n % hmREP h ≠ 0) 0x08).and
    ((Check.when (form = 3 && n % (fmtG fmt / 16) ≠ 0) 0x08).and
    ((all fun p => (ent p).ok).and
    ((all fun p => (ent p).slotBytes % p.slice = 0).and
    (all fun p => decide (p.slots (ent p) ≤ (ent p).count))))))))

/-- The checks of a cube form: R324, R325, the bank, then R326. -/
def State.cubeCheck (s : State) (form : Nat) (o : MC) : Check :=
  (Check.when (!cubeAdmits form s.env.prof o.mode.toNat s.mine.fmt) 0x04).and
    ((s.bankCheck o.bank.toNat).and (s.shapeChecks form o.mode.toNat (s.shapeRead 0 o.hm o.sw) o.ctl))

/-- Energy class of a cube operation (R334). -/
def cubeClass (form mode : Nat) (fmt : Word) : Nat :=
  if mode ≠ 0 then 9
  else if form = 3 || (form = 4 && fmtFA fmt = 5) then 7
  else if fmtFA fmt = 2 || fmtFA fmt = 3 then 8 else 6

/-- The exported threshold of a context (R371). -/
def State.exported (s : State) (core ctx : Nat) : Nat :=
  match (s.bank (ctxOf core ctx)).thrSrc with
  | some n => (s.slotRec core ctx n).threshold
  | none => 0xFF800000

/-- A plane as the operation uses it: from slot HEAD + P (R320). -/
def State.ringUse (s : State) (p : Plane) : RingUse :=
  let r := s.ringEnt s.env.core s.env.ctx p.ring
  { ring := p.ring, base := r.base, slot := r.slotBytes, count := r.count, pub := r.pub
    first := (r.head + s.mine.ringP.look p.ring) % 2 ^ 32, n := p.slots r, slice := p.slice, kept := p.kept }

/-- A cube form issues: its operation runs, retiring at offset c × n + 8 (R327 to R329). -/
def State.cubeOp (s : State) (i : Instr) (form : Nat) (o : MC) : Host.Outcome State Fault Refusal :=
  let h := s.shapeRead 0 o.hm o.sw
  let fmt := s.mine.fmt
  let mode := o.mode.toNat
  let n := hmNK h
  let c := cyclesPer s.env.prof
  let pct := if form = 5 then apxPct (fmtAPX fmt) else 100
  s.issue i (s.cubeCheck form o) fun s =>
    let s := (s.issued (cubeClass form mode fmt) n pct).shapeSwap 0 o.hm o.sw
    let us := (planesOf form mode h fmt o.ctl).map s.ringUse
    let (id, s) := s.newId
    let clear := form = 2 || form = 5 || o.ctl.getLsbD 0
    let op : CubeOp :=
      { id := id, ctx := s.env.ctx, task := s.env.task, form := form, mode := mode, prof := s.env.prof, fmt := fmt
        bank := o.bank.toNat, tile := o.tile.toNat, start := s.env.cyc, n := n, c := c
        rep := if form = 3 then fmtG fmt / 16 else hmREP h
        a := us.getD 0 {}, b := us.getD 1 {}, g := us[2]?
        thrKind := hmTKIND h
        thr := (match hmTKIND h with | 0 => 0 | 1 => hmTHR h | _ => s.exported s.env.core s.env.ctx)
        slot := s.env.slot, pc := s.env.pc
        init := if clear then 0 else s.tileAt s.env.core o.bank.toNat o.tile.toNat }
    let s := s.modCore s.env.core fun k => { k with cube := k.cube ++ [op] }
    let s := us.foldl (fun s u =>
      if u.kept then s else s.modBank s.b fun b => { b with ringP := b.ringP.upd u.ring (· + u.n) }) s
    ((s.after (c * n + 7) (.bm o.bank.toNat o.tile.toNat)).after (c * n + 8) (.retire id)).after (c * n + 8) (.popRings id)

/-- CMUL (R324, R327). -/
def execCmul (o : MC) (s : State) : Host.Outcome State Fault Refusal := s.cubeOp (.cmul o) 1 o

/-- CMULC: from zero (R324, R327). -/
def execCmulc (o : MC) (s : State) : Host.Outcome State Fault Refusal := s.cubeOp (.cmulc o) 2 o

/-- CMULQ: grouped (R324, R327, R234). -/
def execCmulq (o : MC) (s : State) : Host.Outcome State Fault Refusal := s.cubeOp (.cmulq o) 3 o

/-- CMULI: integer (R324, R327, R235). -/
def execCmuli (o : MC) (s : State) : Host.Outcome State Fault Refusal := s.cubeOp (.cmuli o) 4 o

/-- CMULA: approximate, from zero (R324, R327, R236 to R238). -/
def execCmula (o : MC) (s : State) : Host.Outcome State Fault Refusal := s.cubeOp (.cmula o) 5 o

/-! Accumulator instructions (R331, R333) -/

/-- An accumulator instruction charges class 5 (R334). -/
def State.accOp (s : State) (i : Instr) (c : Check) (f : State → State) : Host.Outcome State Fault Refusal :=
  s.issue i c fun s => f (s.issued1 5)

/-- QWR. -/
def execQwr (o : MW) (s : State) : Host.Outcome State Fault Refusal :=
  s.accOp (.qwr o) (s.bankCheck o.bank.toNat) fun s =>
    s.after 2 (.half o.bank.toNat o.tile.toNat o.h.toNat (s.vv o.a))

/-- QCLR: mask 0 touches no bank. -/
def execQclr (o : MK) (s : State) : Host.Outcome State Fault Refusal :=
  s.accOp (.qclr o) (s.bankCheck o.bank.toNat) fun s =>
    if o.mask = 0 then s else s.after 2 (.clearTiles o.bank.toNat o.mask.toNat)

/-- The banks of a move lie in BANKS. -/
def State.bankCheck2 (s : State) (o : MT) : Check := (s.bankCheck o.bank.toNat).and (s.bankCheck o.sbank.toNat)

/-- QMOV: the source is read at offset 1, and lands at 3. -/
def execQmov (o : MT) (s : State) : Host.Outcome State Fault Refusal :=
  s.accOp (.qmov o) (s.bankCheck2 o) fun s =>
    s.after 1 (.tileOp false o.bank.toNat o.tile.toNat o.sbank.toNat o.stile.toNat s.env.pc)

/-- QADD: the source is read at offset 1, the destination at 2; it lands at 4. -/
def execQadd (o : MT) (s : State) : Host.Outcome State Fault Refusal :=
  s.accOp (.qadd o) (s.bankCheck2 o) fun s =>
    s.after 1 (.tileOp true o.bank.toNat o.tile.toNat o.sbank.toNat o.stile.toNat s.env.pc)

/-- QFILL. -/
def execQfill (o : MF) (s : State) : Host.Outcome State Fault Refusal :=
  s.accOp (.qfill o) (s.bankCheck o.bank.toNat) fun s =>
    s.after 2 (.tile o.bank.toNat o.tile.toNat (tileOfCells (List.replicate 256 ((s.sv o.a).toNat % 2 ^ 32))) 0)

/-- Partition offset of QSAVE and QLOAD: bits 6:0 cleared. -/
def State.tileOff (s : State) (a : BitVec 6) : Nat := alignedTo (s.sv a).toNat 128

/-- QSAVE: rows are read at offsets 1 to 4, and all bytes land at 5. -/
def execQsave (o : MF) (s : State) : Host.Outcome State Fault Refusal :=
  s.accOp (.qsave o) ((s.bankCheck o.bank.toNat).and (s.spadCheck (s.tileOff o.a) 1024)) fun s =>
    s.after 1 (.saveTile o.bank.toNat o.tile.toNat 0 0 (s.tileOff o.a))

/-- QLOAD: the bytes are read at offset 1, and the tile lands at 5. -/
def execQload (o : MF) (s : State) : Host.Outcome State Fault Refusal :=
  s.accOp (.qload o) ((s.bankCheck o.bank.toNat).and (s.spadCheck (s.tileOff o.a) 1024)) fun s =>
    s.after 1 (.loadTile o.bank.toNat o.tile.toNat (s.tileOff o.a))

/-- QTHR: TKIND and THR of both copies of every hm register, at offset 1. -/
def execQthr (o : MH) (s : State) : Host.Outcome State Fault Refusal :=
  s.accOp (.qthr o) .pass fun s =>
    let thr := if o.kind = 1 then s.sv o.a <<< (32 : Nat) else 0
    s.after 1 (.thr (mask64 63 32 ||| mask64 23 22) (thr ||| (o.kind.setWidth 64 <<< (22 : Nat))))

end Sys2Proof.Machine
end

