-- ==== Sys2Proof/Machine/Landing.lean ====
section
/-! DEFINITION. A core's cycle for a context (01 R12; 06 R157): what has been issued lands, what reads at a later offset reads, the cube and the sampler advance (13 R328, R329; 15 R380), then scratchpad writes of core slots land. -/

namespace Sys2Proof.Machine

/-! Cube slices -/

/-- A cube operation of a core. -/
def State.cubeAt (s : State) (core id : Nat) : Option CubeOp := (s.core core).cube.find? (·.id = id)

/-- Whether the slot of slice x of a ring is published, as the control core sees it (R319, R328). -/
def State.slicePub (s : State) (core ctx : Nat) (u : RingUse) (x : Nat) : Bool :=
  let r := s.ringEnt core ctx u.ring
  let tail := s.seenNat core ctx u.pub 4
  let avail := min u.count ((tail + 2 ^ 32 - r.head) % 2 ^ 32)
  let off := (u.first + 2 ^ 32 - r.head) % 2 ^ 32
  decide (off + x / max 1 (u.slot / max 1 u.slice) < avail)

/-- The slices that k-slice s of an operation reads: of A, of B, and of G at the first k-slice that it serves (R322). -/
def CubeOp.needs (o : CubeOp) (s : Nat) : List (RingUse × Nat) :=
  [(o.a, s), (o.b, s)] ++ (match o.g with | some g => if s % max 1 o.rep = 0 then [(g, s / max 1 o.rep)] else [] | none => [])
/-- Whether everything that k-slice s reads is published. -/
def State.kslicePub (s : State) (core : Nat) (o : CubeOp) (k : Nat) : Bool :=
  (o.needs k).all fun p => s.slicePub core o.ctx p.1 p.2
/-- The k-slice that an operation reads in a team cycle (R328). -/
def CubeOp.sliceAt (o : CubeOp) (cyc : Nat) : Option Nat :=
  let d := cyc - (o.start + 1)
  if o.start + 1 ≤ cyc && d % max 1 o.c = 0 && d / max 1 o.c < o.n then some (d / max 1 o.c) else none
/-- A k-slice that a context's array reads in a cycle and that is not published yet. -/
def State.sliceWaits (s : State) (core ctx cyc : Nat) : Bool :=
  (s.core core).cube.any fun o => o.ctx = ctx && (match o.sliceAt cyc with | some k => !s.kslicePub core o k | none => false)

/-- The bytes of a slice as a number. -/
def State.sliceNat (s : State) (core ctx : Nat) (u : RingUse) (x : Nat) : Nat :=
  let per := max 1 (u.slot / max 1 u.slice)
  s.spadNat core ctx (u.base + (u.first + x / per) % max 1 u.count * u.slot + x % per * u.slice) u.slice

/-- A k-slice is read (R328). -/
def State.readSlice (s : State) (core : Nat) (o : CubeOp) (k : Nat) : State :=
  let g := match o.g with
    | some g => if k % max 1 o.rep = 0 then s.sliceNat core o.ctx g (k / max 1 o.rep) else (o.reads.headD (0, 0, 0)).2.2
    | none => 0
  let r := (s.sliceNat core o.ctx o.a k, s.sliceNat core o.ctx o.b k, g)
  (s.modCore core fun c => { c with cube := c.cube.map fun x => if x.id = o.id then { x with reads := r :: x.reads } else x }).count
    core o.ctx 0x08 1

/-- Every k-slice of a context that is due in a cycle. -/
def State.readSlices (s : State) (core ctx cyc : Nat) : State :=
  (s.core core).cube.foldl (fun s o =>
    if o.ctx ≠ ctx then s
    else match o.sliceAt cyc with
      | some k => s.readSlice core o k
      | none => s) s

/-! Landings -/

/-- A write is issued on behalf of one that has landed or read. -/
def State.push (s : State) (b due ord : Nat) (w : Write) : State :=
  s.modBank b fun k => { k with pend := k.pend ++ [⟨due, ord, w⟩] }

/-- Where a value read at an access offset lands. -/
def destWrite (d : Dest) (n : Nat) (sx : Bool) (b : List Byte) : Write :=
  match d with
  | .s r => .s r (extend (8 * n) sx (leNat b))
  | .k r => .k r (BitVec.ofNat 64 (leNat b))
  | .v r lo => .vpart r lo (8 * n) (leNat b)

/-- Flags land in fmt; an enabled one is an arithmetic trap (R195, R227). -/
def State.landFlags (s : State) (f slot : Nat) (pc : Word) : State :=
  let fmt := orFlags s.mine.fmt f
  let s := s.modBank s.b fun b => { b with fmt := fmt }
  match trapCause fmt f with
  | some c =>
    let r : FaultRec := { cause := c, slot := slot, idx := s.env.idx, pc := pc }
    let t := s.cur
    if t.run = .draining || t.run = .restoring then
      s.modTask s.env.task fun t => { t with lateFault := t.lateFault.or (some { r with drain := true }) }
    else if s.env.probe || !t.resident || t.run = .aborting then s.raiseHere s.env.task r
    else (s.raiseHere s.env.task r).cutIssue s.env.task
  | none => s

/-- Elements of a sum of two tiles (R331): FP32, and the flags of all. -/
def addTiles (a b : Tile) : Tile × Nat :=
  let l := ((packedElems a).zip (packedElems b)).map fun p => rne32 (FpVal.addZ .rne (fp32.val p.1) (fp32.val p.2))
  (tileOfCells (l.map (·.1)), l.foldl (fun f x => f ||| x.2) 0)
where
  /-- The 256 elements of a tile. -/
  packedElems (t : Tile) : List Nat := (List.range 256).map fun i => bits t.toNat (32 * i + 31) (32 * i)

/-- A tile with its AF bits is written. -/
def State.putTile (s : State) (bank tile : Nat) (v : Tile) (af : BitVec 256) : State :=
  s.modCore s.env.core fun c =>
    { c with tiles := c.tiles.put (16 * bank + tile) v, af := c.af.put (16 * bank + tile) af }

/-- Rows 4q to 4q + 3 of a tile, the rest zero. -/
def tileQuarter (t : Tile) (q : Nat) : Tile := ((t.extractLsb' (2048 * q) 2048).setWidth 8192) <<< (2048 * q)

/-- A replay count or table entry lands in what the control core keeps (R280). -/
def State.landReplay (s : State) (w : Write) : State :=
  s.modTask s.env.task fun t =>
    match w with
    | .replayCount l n => { t with rc := t.rc.set l n }
    | .replayEntry e k l d => { t with rtab := t.rtab.put e (some (k, l, d)) }
    | _ => t

/-- A write lands, or an access reads, in the context of the cycle. -/
def State.landOne (s : State) (l : Landing) : State :=
  let b := s.b
  let core := s.env.core
  let ctx := s.env.ctx
  match l.w with
  | .s n v => if n = 0 then s else s.modBank b fun k => { k with s := k.s.put n v }
  | .p n v => s.modBank b fun k => { k with p := if v then k.p ||| BitVec.ofNat 16 (2 ^ n) else k.p &&& ~~~(BitVec.ofNat 16 (2 ^ n)) }
  | .preds v => s.modBank b fun k => { k with p := v }
  | .k n v => s.modBank b fun k => { k with k := k.k.put n v }
  | .kAdd n v => s.modBank b fun k => { k with k := k.k.upd n (· + v) }
  | .rrb m v => s.modBank b fun k => { k with rrb := underMask k.rrb m v }
  | .fmt m v => s.modBank b fun k => { k with fmt := underMask k.fmt m v }
  | .flags f slot pc => s.landFlags f slot pc
  | .v n v => s.modBank b fun k => { k with v := k.v.put n v, wroteV := n :: k.wroteV }
  | .vpart n lo len v => s.modBank b fun k =>
      { k with v := k.v.upd n fun x => BitVec.ofNat 4096 (setBits x.toNat (lo + len - 1) lo v), wroteV := n :: k.wroteV }
  | .bs v => s.modBank b fun k => { k with bs := v }
  | .bv u v => s.modBank b fun k => if u = 0 then { k with bv0 := v } else { k with bv1 := v }
  | .bm q t => s.modBank b fun k => { k with bm := some (q, t) }
  | .shape e h m v => s.modBank b fun k => k.modShape e h fun x => { x with shadow := underMask x.shadow m v }
  | .thr m v => s.modBank b fun k => (List.range 4).foldl (fun k h => k.modShape 0 h fun x =>
      { live := underMask x.live m v, shadow := underMask x.shadow m v }) k
  | .replayCount _ _ | .replayEntry _ _ _ _ => s.landReplay l.w
  | .half q t h v =>
    s.putTile q t (BitVec.ofNat 8192 (setBits (s.tileAt core q t).toNat (4096 * h + 4095) (4096 * h) v.toNat))
      (BitVec.ofNat 256 (setBits (s.afAt core q t).toNat (128 * h + 127) (128 * h) 0))
  | .tile q t v af => s.putTile q t v af
  | .clearTiles q m => (List.range 16).foldl (fun s t => if bit m t then s.putTile q t 0 0 else s) s
  | .tileOp add q t sq st pc =>
    let v := s.tileAt core sq st
    if add then s.push b (l.due + 1) l.ord (.tileAdd q t v pc) else s.push b (l.due + 2) l.ord (.tile q t v 0)
  | .tileAdd q t v pc =>
    let r := addTiles (s.tileAt core q t) v
    let s := s.push b (l.due + 2) l.ord (.tile q t r.1 0)
    if r.2 = 0 then s else s.push b (l.due + 2) l.ord (.flags r.2 5 pc)
  | .readHalf u d q t h =>
    let v := halfTile (s.tileAt core q t) h
    (s.push b (l.due + 2) l.ord (.bv u v)).push b (l.due + 3) l.ord (.v d v)
  | .saveTile q t n got off =>
    let got := got ||| tileQuarter (s.tileAt core q t) n
    if n < 3 then s.push b (l.due + 1) l.ord (.saveTile q t (n + 1) got off)
    else s.push b (l.due + 1) l.ord (.spad off (natLe 1024 got.toNat))
  | .loadTile q t off => s.push b (l.due + 4) l.ord (.tile q t (BitVec.ofNat 8192 (s.spadNat core ctx off 1024)) 0)
  | .spad off x => s.taskSpad s.env.task core ctx off x
  | .loadS off n sx d land => s.push b land l.ord (destWrite d n sx (s.spadBytes core ctx off n))
  | .gather offs d lo land =>
    s.push b land l.ord (.vpart d lo (32 * offs.length) (leNat (offs.map fun o => s.spadBytes core ctx o 4).flatten))
  | .loadP off land => s.push b land l.ord (.preds (BitVec.ofNat 16 (s.spadNat core ctx off 2)))
  | .rmw off n op v d wcyc =>
    let old := s.spadNat core ctx off n
    (s.push b wcyc l.ord (.s d (BitVec.ofNat 64 old))).push b wcyc l.ord
      (.spad off (natLe n (applyAtomic op (8 * n) old v.toNat)))
  | .store pa mt x stream scope => s.storeNow core ctx s.env.task pa mt x stream scope
  | .retire id =>
    match s.cubeAt core id with
    | none => s
    | some o =>
      let cells := o.cells
      let af := BitVec.ofNat 256 (packElems 1 (cells.map fun c => if c.af then 1 else 0))
      let s := (s.putTile o.bank o.tile (tileOfCells (cells.map (·.x))) af).modCore core fun c =>
        { c with cube := c.cube.map fun x => if x.id = id then { x with retired := true } else x }
      let n := (cells.filter (·.refined)).length
      let s := if n = 0 then s else s.count core ctx 0x10 n
      s.landFlags (cells.foldl (fun f c => f ||| c.fl) 0) o.slot o.pc
  | .popRings id =>
    match s.cubeAt core id with
    | none => s
    | some o =>
      let us := [o.a, o.b] ++ o.g.toList
      let s := us.foldl (fun s u =>
        if u.kept then s
        else
          let head := (s.ringEnt core ctx u.ring).head
          (s.taskSpad s.env.task core ctx (16 * u.ring + 12) (natLe 4 ((head + u.n) % 2 ^ 32))).modBank b fun k =>
            { k with ringP := k.ringP.upd u.ring (· - u.n) }) s
      s.modCore core fun c => { c with cube := c.cube.filter (·.id ≠ id) }
  | .smpEnter op => s.smpEnter core op
  | .relb n => s.raiseF core ctx n

/-- Half of the cycle and order within it: scratchpad writes and ring heads are of the storage half, where the order of issue is that of the slots (QSAVE and cube
operations land later than any access of slot 6); in the other, fmt
and shapes are written before flags and thresholds, and reads come after the landings (R157, R227, R331). -/
def Write.rank (w : Write) : Nat :=
  match w with
  | .fmt _ _ => 0
  | .flags _ _ _ | .thr _ _ | .retire _ => 2
  | .tileOp .. | .tileAdd .. | .readHalf .. | .saveTile .. | .loadTile .. | .loadS .. | .gather .. | .loadP .. | .rmw ..
  | .store .. | .smpEnter _ | .relb _ => 3
  | .spad _ _ | .popRings _ => 4
  | _ => 1

/-- Insertion by cycle, rank, then order of issue. -/
def insertLanding (l : Landing) : List Landing → List Landing
  | [] => [l]
  | x :: xs => if lexLt [l.due, l.w.rank, l.ord] [x.due, x.w.rank, x.ord] then l :: x :: xs else x :: insertLanding l xs

/-- What a context's pending writes give for a half of a cycle, in order. -/
def Bank.dueAt (b : Bank) (cyc lo hi : Nat) : List Landing :=
  (b.pend.filter fun l => l.due ≤ cyc && lo ≤ l.w.rank && l.w.rank ≤ hi).foldl (fun a l => insertLanding l a) []

/-- Every landing of a half of the cycle. -/
def State.landDue (s : State) (cyc lo hi : Nat) : State :=
  let l := s.mine.dueAt cyc lo hi
  let s := s.modBank s.b fun b => { b with pend := b.pend.filter fun x => !(x.due ≤ cyc && lo ≤ x.w.rank && x.w.rank ≤ hi) }
  l.foldl (fun s x => s.landOne x) s

/-- The first half of a context's cycle on a core. Cycles that carry landings only stand still while the die is
frozen (R27) and while a k-slice is not published. -/
def State.pulse (s : State) (cyc : Nat) : State :=
  let core := s.env.core
  let ctx := s.env.ctx
  if s.env.landOnly && ((s.die (dieOf core)).frozen.isSome || s.sliceWaits core ctx cyc) then s
  else
    let s := if s.env.landOnly then s else (s.chargeStatic core ctx).count core ctx 0x01 1
    let s := if s.env.bundle then s.count core ctx 0x02 1 else s
    let s := s.modBank s.b fun b => { b with lastCyc := cyc, lastTick := s.now, wroteV := [] }
    let s := s.landDue cyc 0 2
    let s := (if s.env.fresh then s.clearBypass core ctx else s).smpTick core ctx
    (s.landDue cyc 3 3).readSlices core ctx cyc

/-- What the cores of an aborted task have still started with bundles that were on their way is discarded like the rest; its
stores perform (R123). -/
def State.afterAbort (s : State) (t core ctx : Nat) : State :=
  if (s.task t).run = .aborting then ((s.stopCmds t).discardCore t core ctx).tryStores core ctx t else s

/-- The second half: scratchpad writes of core slots, then ring heads (R157). -/
def State.storagePulse (s : State) (cyc : Nat) : State :=
  let s := if s.mine.lastTick = s.now then s.landDue cyc 4 5 else s
  let s := s.afterAbort s.env.task s.env.core s.env.ctx
  let alone := match s.cur.run with | .sending | .holding | .draining | .restoring | .blocked => false | _ => true
  if s.env.landOnly || alone then s.kick s.env.task s.env.core s.env.ctx else s

/-- WRITE_LANDING (R12, R157): a half of a cycle of a context on a core; the operations that the cycle issues follow the
first half. -/
def execWriteLanding (core : Core) (ctx : Fin 8) (cyc : Nat) (ph : LandPhase) (s : State) :
    Host.Outcome State Fault Refusal :=
  let s := { s with env := { s.env with core := core.val, ctx := ctx.val, energy := s.getF CCC_ECNT.COUNT (ctxOf core.val ctx.val) } }
  match ph with
  | .registers => .next (s.pulse cyc)
  | .storage => .next (s.storagePulse cyc)

end Sys2Proof.Machine
end

