-- ==== Sys2Proof/Machine/Rhizoid.lean ====
section
/-! DEFINITION. Rhizoid subscriptions (06 R153 to R157): one tile at a time between a stack and a ring, published in order, stopped by a fault at its tile. -/

namespace Sys2Proof.Machine

/-- Fields of a subscription descriptor (R153). -/
def subRowBytes (d : List Byte) : Nat := field d 8 2
def subRows (d : List Byte) : Nat := field d 10 2
def subCounts (d : List Byte) (l : Nat) : Nat := field d (16 + 2 * l) 2
def subTiles (d : List Byte) : Nat := subCounts d 0 * subCounts d 1 * subCounts d 2 * subCounts d 3
def subPull (d : List Byte) : Bool := bit (field d 56 1) 0

/-- Virtual address of row r of tile n (R154). -/
def subAddr (d : List Byte) (n r : Nat) : Nat :=
  let c (l : Nat) : Nat := max 1 (subCounts d l)
  let i (l : Nat) : Nat := match l with
    | 0 => n % c 0
    | 1 => n / c 0 % c 1
    | 2 => n / (c 0 * c 1) % c 2
    | _ => n / (c 0 * c 1 * c 2)
  let st (l : Nat) : Int := sintN 64 (field d (24 + 8 * l) 8)
  (((field d 0 8 : Int) + i 0 * st 0 + i 1 * st 1 + i 2 * st 2 + i 3 * st 3 + r * sfield d 12) % (2 ^ 64 : Int)).toNat

/-- The translation of an address of a subscription by its stack's translator (R148, R149). -/
def State.mslXlate (s : State) (x : Sub) (va kind : Nat) : Found × State :=
  s.findXlate x.die x.part (s.mslTlb.look x.stack) (s.task x.task).dord
    { task := x.task, tr := 2000 + x.stack, kind := kind, va := va
      wake := some (.rhizoidTile (Fin.ofNat 8 x.stack) x.id), ph := phRhizoid x.stack }

/-- Rows of a tile with their pages' physical addresses: virtual address, physical address, length, offset in the tile;
or the first fault. A tile whose pages lie on more than one stack is cause 0x18 (R155). None while a translation is
awaited. -/
def State.tilePieces (s : State) (x : Sub) : Option ((Nat × Nat) × List (Nat × Nat × Nat × Nat)) × State :=
  let d := x.desc
  let kind := if subPull d then 1 else 0
  (List.range (subRows d)).foldl (fun r row =>
    let va := subAddr d x.tile row
    (pagesOf va (subRowBytes d)).foldl (fun r p =>
      match r.1 with
      | some ((0, _), ps) =>
        match r.2.mslXlate x p.1 kind with
        | (.wait, s) => (none, s)
        | (.fault c, s) => (some ((c, p.1), ps), s)
        | (.hit y, s) =>
          let pa := y.pa p.1
          if paD pa ≠ x.remote || (!x.remote && (isHost pa || stackOf pa ≠ x.stack)) then (some ((0x18, p.1), ps), s)
          else (some ((0, 0), ps ++ [(p.1, pa, p.2, row * subRowBytes d + (p.1 - va))]), s)
      | _ => r) r) (some ((0, 0), []), s)

/-- A fault at a tile stops the subscription there (R156, R211). -/
def State.subFault (s : State) (x : Sub) (cause addr : Nat) : State :=
  let s := { s with subs := s.subs.upd x.id fun x => { x with stopped := true, moving := false, buf := [], need := 0 } }
  let s := if x.remote then s else s.bump MSL_STAT.FAULTS x.stack 1
  let r : FaultRec :=
    { cause := cause, slot := 9, faddr := addr, idx := x.idx, resumeAt := x.tile, engine := 0x2000 + x.stack }
  if (s.task x.task).resident then (s.engineFault x.task 2 x.id r).1 else s.subEnd x.id

/-- Head and tail of the subscription's ring; a pull keeps the tail apart from the count that it publishes
(notes/assumptions/11.md). -/
def State.subEnds (s : State) (x : Sub) : Nat × Nat × State :=
  let r := s.ringEnt x.core x.ctx x.ring
  let t := s.ringTail x.core x.ctx r
  if !subPull x.desc then (r.head, t, s)
  else if x.wrote = some t then (r.head, x.tail, s)
  else (r.head, t, { s with subs := s.subs.upd x.id fun y => { y with tail := t, wrote := some t } })

/-- The publish word and the pointer after a tile (R154). -/
def State.subPublish (s : State) (x : Sub) (head tail : Nat) : State :=
  let r := s.ringEnt x.core x.ctx x.ring
  let seq := (s.ringSeq x.core x.ctx r + 1) % 2 ^ 32
  if subPull x.desc then
    let h := (head + 1) % 2 ^ 32
    let s := s.taskSpad x.task x.core x.ctx (16 * x.ring + 12) (natLe 4 h)
    let s := s.taskSpad x.task x.core x.ctx r.pub (natLe 4 h ++ natLe 4 seq)
    { s with subs := s.subs.upd x.id fun y => { y with wrote := some h } }
  else s.taskSpad x.task x.core x.ctx r.pub (natLe 4 ((tail + 1) % 2 ^ 32) ++ natLe 4 seq)

/-- The parts of a tile below an offset in it. -/
def piecesBelow (n : Nat) (ps : List (Nat × Nat × Nat × Nat)) : List (Nat × Nat × Nat × Nat) :=
  ps.filterMap fun p => if p.2.2.2 < n then some (p.1, p.2.1, min p.2.2.1 (n - p.2.2.2), p.2.2.2) else none

/-- Bytes of a tile's slot that lie in whole sectors of the partition (R132). -/
def State.slotRoom (s : State) (x : Sub) (slot : Nat) : Nat :=
  (s.bank (ctxOf x.core x.ctx)).spadSize / 64 * 64 - slot

/-- The bytes of a pull's pieces go straight to the stack (R152). -/
def State.pullStore (s : State) (x : Sub) (slot : Nat) (ps : List (Nat × Nat × Nat × Nat)) : State :=
  ps.foldl (fun s p =>
    let b := s.engineBytes x.core x.ctx (slot + p.2.2.2) p.2.2.1
    let s := (s.notePages x.task p.1 p.2.2.1).captureMem x.task x.core p.2.1 p.2.2.1
    s.byLines p.2.1 b fun s la d m => s.stackDrop x.part la d m) s

/-- The bytes of a push's pieces go to the ring's slot: read straight from the stack, or come from another module. -/
def State.pushStore (s : State) (x : Sub) (slot : Nat) (ps : List (Nat × Nat × Nat × Nat)) : State :=
  ps.foldl (fun s p =>
    let b := if x.remote then bytesAt x.buf p.2.2.2 p.2.2.1 else s.memBytes (paOff p.2.1) p.2.2.1
    s.taskSpad x.task x.core x.ctx (slot + p.2.2.2) b) s

/-- Every byte of the tile has performed: its pointer advances and its publish word is written; the next tile follows
(R154). -/
def State.tileDone (s : State) (x : Sub) (head tail : Nat) : State :=
  let r := s.ringEnt x.core x.ctx x.ring
  if !(s.bank (ctxOf x.core x.ctx)).holds r.pub 8 then s.subFault x 0x16 r.pub
  else
    let s := s.subPublish x head tail
    let s := { s with subs := s.subs.upd x.id fun y => { y with tile := y.tile + 1, moving := false, buf := [], need := 0, pos := 0 } }
    if x.ending || subTiles x.desc ≤ x.tile + 1 then s.subEnd x.id
    else s.sched (s.now + 1) (phRhizoid x.stack) (.rhizoidTile (Fin.ofNat 8 x.stack) x.id)

/-- The bytes of the tile move: all of them, or those before the first sector beyond the partition or before a fault, which
then stops the subscription (R132, R154, R156). -/
def State.tileMove (s : State) (x : Sub) (ps : List (Nat × Nat × Nat × Nat)) (fault : Nat × Nat) (head tail : Nat) : State :=
  let r := s.ringEnt x.core x.ctx x.ring
  let slot := r.slotAt (if subPull x.desc then head else tail)
  let room := s.slotRoom x slot
  let ps' := piecesBelow room ps
  let s := if subPull x.desc then s.pullStore x slot ps' else s.pushStore x slot ps'
  if ps' ≠ ps then s.subFault x 0x16 (slot + room)
  else if fault.1 ≠ 0 then s.subFault x fault.1 fault.2
  else s.tileDone x head tail

/-- Sectors of a pull to another module: address and offset in the tile. -/
def pullSectors (ps : List (Nat × Nat × Nat × Nat)) : List (Nat × Nat × Nat) :=
  (ps.map fun p => (sectorsOf p.2.1 (List.replicate p.2.2.1 0)).map fun e => (e.1, p.2.2.2 + (e.1 - p.2.1), e.2.length)).flatten

/-- A pull to another module writes its next sector when the one before has performed there; after the last the tile is done,
or stops on its fault (R48, R154, R156). -/
def State.pullRemote (s : State) (x : Sub) (ps : List (Nat × Nat × Nat × Nat)) (fault : Nat × Nat) (head tail : Nat) : State :=
  let r := s.ringEnt x.core x.ctx x.ring
  let slot := r.slotAt head
  let room := s.slotRoom x slot
  let ps' := piecesBelow room ps
  match (pullSectors ps')[x.pos]? with
  | some e =>
    let b := s.engineBytes x.core x.ctx (slot + e.2.1) e.2.2
    let s := (s.captureMem x.task x.core e.1 e.2.2)
    { s with subs := s.subs.upd x.id fun y => { y with moving := true, need := 1 } }.sendAccess
      { task := x.task, part := x.part, sub := some x.id } (s.task x.task).cls e.1 .write b (List.replicate e.2.2 true) e.2.2
  | none =>
    if ps' ≠ ps then s.subFault x 0x16 (slot + room)
    else if fault.1 ≠ 0 then s.subFault x fault.1 fault.2
    else s.tileDone x head tail

/-- Reads of a tile in another module go out (R38, R155). -/
def State.tileFetch (s : State) (x : Sub) (ps : List (Nat × Nat × Nat × Nat)) : State :=
  ps.foldl (fun s p =>
    (sectorsOf p.2.1 (List.replicate p.2.2.1 0)).foldl (fun s e =>
      ({ s with subs := s.subs.upd x.id fun y => { y with need := y.need + 1 } }).sendAccess
        { task := x.task, part := x.part, sub := some x.id, at_ := p.2.2.2 + (e.1 - p.2.1) } (s.task x.task).cls e.1 .read
        [] [] e.2.length) s) s

/-- A tile in work goes on: its slots first, or its accesses to another module, then its bytes (R143, R154). -/
def State.tileStep (s : State) (x : Sub) (head tail : Nat) : State :=
  let j := x.stack
  match s.tilePieces x with
  | (none, s) => s
  | (some (fault, ps), s) =>
  if subPull x.desc && x.remote then s.pullRemote x ps fault head tail
  else if fault.1 ≠ 0 then
    if subPull x.desc then s.tileMove x ps fault head tail else s.subFault x fault.1 fault.2
  else if x.moving then (if x.need = 0 then s.tileMove (s.subs.look x.id) ps fault head tail else s)
  else
    let s := { s with subs := s.subs.upd x.id fun y => { y with moving := true } }
    if x.remote then s.tileFetch x ps
    else s.hbmTask j x.task (subRows x.desc * subRowBytes x.desc) (some (.rhizoidTile (Fin.ofNat 8 j) x.id))

/-- RHIZOID_TILE: the next tile waits for room or for data, a frame slot at a time and without using it, then moves and is
published (R154, R156). A stack whose die cannot be reached ends it with cause 0x31 (R213). -/
def State.rhizoidStep (s : State) (id : Nat) : State :=
  let x := s.subs.look id
  let j := x.stack
  if x.desc.isEmpty || x.stopped then s
  else if !x.remote && !s.joined x.die (j / 2) then
    (s.raiseHere x.task { cause := 0x31, slot := 9, idx := x.idx, engine := 0x2000 + j, resumeAt := x.tile }).subEnd id
  else if subTiles x.desc ≤ x.tile then s.subEnd id
  else
    let (head, tail, s) := s.subEnds x
    let r := s.ringEnt x.core x.ctx x.ring
    let diff := (tail + 2 ^ 32 - head) % 2 ^ 32
    if !x.moving && (if subPull x.desc then diff = 0 else diff = r.count) then
      s.sched (s.now + bwsWait s.tick) (phRhizoid j) (.rhizoidTile (Fin.ofNat 8 j) id)
    else s.tileStep x head tail

/-- RHIZOID_TILE (R154). -/
def execRhizoidTile (_j : Stack) (sub : Nat) (s : State) : Host.Outcome State Fault Refusal := .next (s.rhizoidStep sub)

/-- SUBSCRIPTION_GRANT: a freed entry goes to the waiting subscribe of least d_ord (R155), unless a task of an earlier one
waits for it with its bundle: that takes it as it is sent. -/
def State.subGrant (s : State) (j : Nat) : State :=
  let l := (s.cmds.filter fun e => e.2.kind = .subs && e.2.waiting && s.subStack e.2 = (j, false)).map (·.2)
  if 8192 ≤ s.subCount j then s
  else
    match leastBy (fun (a b : Cmd) => decide ((s.task a.task).dord < (s.task b.task).dord)) l with
    | none => s
    | some c =>
      if s.tasks.any fun e => e.2.subWait = some j && e.2.resident && decide (e.2.dord < (s.task c.task).dord) then s
      else s.modCmd c.id fun c => { c with waiting := false, granted := true }

/-- SUBSCRIPTION_GRANT (R155). -/
def execSubscriptionGrant (j : Stack) (s : State) : Host.Outcome State Fault Refusal := .next (s.subGrant j.val)

end Sys2Proof.Machine
end

