-- ==== Sys2Proof/Machine/Scalar.lean ====
section
/-! DEFINITION. The scalar slot S (11 R289 to R293). -/

namespace Sys2Proof.Machine

/-- A two-source scalar form that lands at an offset: class 1 is charged, the result also shows in bs (R252, R289). -/
def State.scalar2 (s : State) (i : Instr) (o : S3) (off : Nat) (f : Word → Word → Word) :
    Host.Outcome State Fault Refusal :=
  s.issue i .pass fun s => (s.issued1 1).writeSbs off o.d (f (s.sv o.a) (s.bS3 o))

/-- A division form (R290): its flags land with the result. -/
def State.scalarDiv (s : State) (i : Instr) (o : S3) (f : Word → Word → Word) (fl : Word → Word → Nat) :
    Host.Outcome State Fault Refusal :=
  s.issue i .pass fun s =>
    ((s.issued1 1).writeSbs 18 o.d (f (s.sv o.a) (s.bS3 o))).writeFlags 18 (fl (s.sv o.a) (s.bS3 o))

/-- A compare (R291): an even destination n takes the condition and n + 1 its complement, an odd one the condition. -/
def State.compare (s : State) (i : Instr) (o : SP) (f : Word → Word → Bool) : Host.Outcome State Fault Refusal :=
  s.issue i .pass fun s =>
    let c := f (s.sv o.a) (s.bSP o)
    let t := (s.issued1 1).writeP 1 o.pd.toNat c
    if o.pd.toNat % 2 = 0 then t.writeP 1 (o.pd.toNat + 1) !c else t

/-- A form of one source (R292). -/
def State.scalar1 (s : State) (i : Instr) (d : BitVec 6) (v : Word) : Host.Outcome State Fault Refusal :=
  s.issue i .pass fun s => (s.issued1 1).writeSbs 1 d v

/-- Signed quotient toward zero, with the results of R290. -/
def divS (a b : Word) : Word :=
  if b = 0 then -1#64 else if a = 0x8000000000000000#64 && b = -1#64 then a else a.sdiv b
/-- Unsigned quotient (R290). -/
def divN (a b : Word) : Word := if b = 0 then -1#64 else a / b
/-- Signed remainder with the sign of the dividend (R290). -/
def remS (a b : Word) : Word := if b = 0 then a else if a = 0x8000000000000000#64 && b = -1#64 then 0 else a.srem b
/-- Unsigned remainder (R290). -/
def remN (a b : Word) : Word := if b = 0 then a else a % b
/-- The high halves of the signed and unsigned products (R289). -/
def mulHi (a b : Word) : Word := BitVec.ofInt 64 (a.toInt * b.toInt / 2 ^ 64)
def mulHiN (a b : Word) : Word := BitVec.ofNat 64 (a.toNat * b.toNat / 2 ^ 64)

/-- ADD (R289). -/
def execAdd (o : S3) (s : State) : Host.Outcome State Fault Refusal :=
  s.scalar2 (.add o) o 1 fun a b => a + b

/-- SUB (R289). -/
def execSub (o : S3) (s : State) : Host.Outcome State Fault Refusal :=
  s.scalar2 (.sub o) o 1 fun a b => a - b

/-- MUL (R289). -/
def execMul (o : S3) (s : State) : Host.Outcome State Fault Refusal :=
  s.scalar2 (.mul o) o 3 fun a b => a * b

/-- MULH (R289). -/
def execMulh (o : S3) (s : State) : Host.Outcome State Fault Refusal :=
  s.scalar2 (.mulh o) o 4 fun a b => mulHi a b

/-- MULHN (R289). -/
def execMulhn (o : S3) (s : State) : Host.Outcome State Fault Refusal :=
  s.scalar2 (.mulhn o) o 4 fun a b => mulHiN a b

/-- AND (R289). -/
def execAnd (o : S3) (s : State) : Host.Outcome State Fault Refusal :=
  s.scalar2 (.and o) o 1 fun a b => a &&& b

/-- OR (R289). -/
def execOr (o : S3) (s : State) : Host.Outcome State Fault Refusal :=
  s.scalar2 (.or o) o 1 fun a b => a ||| b

/-- XOR (R289). -/
def execXor (o : S3) (s : State) : Host.Outcome State Fault Refusal :=
  s.scalar2 (.xor o) o 1 fun a b => a ^^^ b

/-- ANDN (R289). -/
def execAndn (o : S3) (s : State) : Host.Outcome State Fault Refusal :=
  s.scalar2 (.andn o) o 1 fun a b => a &&& ~~~b

/-- SHL (R289). -/
def execShl (o : S3) (s : State) : Host.Outcome State Fault Refusal :=
  s.scalar2 (.shl o) o 1 fun a b => a <<< (b.toNat % 64)

/-- SHR (R289). -/
def execShr (o : S3) (s : State) : Host.Outcome State Fault Refusal :=
  s.scalar2 (.shr o) o 1 fun a b => a >>> (b.toNat % 64)

/-- SAR (R289). -/
def execSar (o : S3) (s : State) : Host.Outcome State Fault Refusal :=
  s.scalar2 (.sar o) o 1 fun a b => a.sshiftRight (b.toNat % 64)

/-- ROTL (R289). -/
def execRotl (o : S3) (s : State) : Host.Outcome State Fault Refusal :=
  s.scalar2 (.rotl o) o 1 fun a b => a.rotateLeft (b.toNat % 64)

/-- MIN (R289). -/
def execMin (o : S3) (s : State) : Host.Outcome State Fault Refusal :=
  s.scalar2 (.min o) o 1 fun a b => if a.slt b then a else b

/-- MAX (R289). -/
def execMax (o : S3) (s : State) : Host.Outcome State Fault Refusal :=
  s.scalar2 (.max o) o 1 fun a b => if a.slt b then b else a

/-- MINN (R289). -/
def execMinn (o : S3) (s : State) : Host.Outcome State Fault Refusal :=
  s.scalar2 (.minn o) o 1 fun a b => if a.ult b then a else b

/-- MAXN (R289). -/
def execMaxn (o : S3) (s : State) : Host.Outcome State Fault Refusal :=
  s.scalar2 (.maxn o) o 1 fun a b => if a.ult b then b else a

/-- DIV (R290). -/
def execDiv (o : S3) (s : State) : Host.Outcome State Fault Refusal :=
  s.scalarDiv (.div o) o divS (divFlags true)

/-- DIVN (R290). -/
def execDivn (o : S3) (s : State) : Host.Outcome State Fault Refusal :=
  s.scalarDiv (.divn o) o divN (divFlags false)

/-- REM (R290): only a zero divisor sets a flag. -/
def execRem (o : S3) (s : State) : Host.Outcome State Fault Refusal :=
  s.scalarDiv (.rem o) o remS (divFlags false)

/-- REMN (R290): only a zero divisor sets a flag. -/
def execRemn (o : S3) (s : State) : Host.Outcome State Fault Refusal :=
  s.scalarDiv (.remn o) o remN (divFlags false)

/-- CLZ: leading zeros (R289). -/
def execClz (o : S3) (s : State) : Host.Outcome State Fault Refusal :=
  s.scalar2 (.clz o) o 1 fun a _ => BitVec.ofNat 64 (clzN 64 a.toNat)

/-- POPC: set bits (R289). -/
def execPopc (o : S3) (s : State) : Host.Outcome State Fault Refusal :=
  s.scalar2 (.popc o) o 1 fun a _ => BitVec.ofNat 64 (popN 64 a.toNat)

/-- CMPEQ (R291). -/
def execCmpeq (o : SP) (s : State) : Host.Outcome State Fault Refusal :=
  s.compare (.cmpeq o) o fun a b => a == b

/-- CMPNE (R291). -/
def execCmpne (o : SP) (s : State) : Host.Outcome State Fault Refusal :=
  s.compare (.cmpne o) o fun a b => a != b

/-- CMPLT (R291). -/
def execCmplt (o : SP) (s : State) : Host.Outcome State Fault Refusal :=
  s.compare (.cmplt o) o fun a b => a.slt b

/-- CMPLTN (R291). -/
def execCmpltn (o : SP) (s : State) : Host.Outcome State Fault Refusal :=
  s.compare (.cmpltn o) o fun a b => a.ult b

/-- CMPLE (R291). -/
def execCmple (o : SP) (s : State) : Host.Outcome State Fault Refusal :=
  s.compare (.cmple o) o fun a b => a.sle b

/-- CMPLEN (R291). -/
def execCmplen (o : SP) (s : State) : Host.Outcome State Fault Refusal :=
  s.compare (.cmplen o) o fun a b => a.ule b

/-- EXT: extension from the width of the type code (R292). -/
def execExt (o : SX) (s : State) : Host.Outcome State Fault Refusal :=
  s.scalar1 (.ext o) o.d (extend (tyWidth o.ty) (tySigned o.ty) (s.sv o.a).toNat)

/-- SEL (R292). -/
def execSel (o : SS) (s : State) : Host.Outcome State Fault Refusal :=
  s.scalar1 (.sel o) o.d (if s.pv o.p then s.sv o.a else 0)

/-- ADDI (R292). -/
def execAddi (o : SI) (s : State) : Host.Outcome State Fault Refusal :=
  s.scalar1 (.addi o) o.d (s.sv o.a + o.imm.signExtend 64)

/-- MOVI (R292). -/
def execMovi (o : SM) (s : State) : Host.Outcome State Fault Refusal :=
  s.scalar1 (.movi o) o.d (o.imm.signExtend 64)

/-- MOVHI reads its destination at issue (R292). -/
def execMovhi (o : SM) (s : State) : Host.Outcome State Fault Refusal :=
  s.scalar1 (.movhi o) o.d (s.sv o.d <<< (14 : Nat) ||| o.imm.setWidth 64)

/-- PLOG: bit 2 × pa + pb of the truth table (R292). -/
def execPlog (o : SQ) (s : State) : Host.Outcome State Fault Refusal :=
  s.issue (.plog o) .pass fun s =>
    (s.issued1 1).writeP 1 o.pd.toNat
      (o.fn.getLsbD ((if s.pv o.pa then 2 else 0) + (if s.pv o.pb then 1 else 0)))

/-- The value an SRD selector reads (R293). -/
def State.special (s : State) (sel : Nat) : Word :=
  let t := s.cur
  let evt (i : Nat) : Nat :=
    let k := 4 * s.env.core + i
    s.getF CCC_EVT.COUNT k + 2 ^ 63 * s.getF CCC_EVT.SAT k
  match sel with
  | 0x00 => BitVec.ofNat 64 s.tick
  | 0x01 => BitVec.ofNat 64 s.env.idx
  | 0x02 => BitVec.ofNat 64 t.team
  | 0x03 => BitVec.ofNat 64 t.srk
  | 0x04 => BitVec.ofNat 64 t.nsr
  | 0x05 => BitVec.ofNat 64 s.env.lc
  | 0x06 => if t.dynamic then 0 else BitVec.ofNat 64 t.holdUsed
  | 0x07 => BitVec.ofNat 64 s.env.energy
  | 0x08 => s.mine.rrb
  | 0x09 => s.mine.fmt
  | 0x0A => BitVec.ofNat 64 s.env.ctx
  | 0x0B => BitVec.ofNat 64 s.env.core
  | 0x0C => BitVec.ofNat 64 t.part
  | 0x0D => BitVec.ofNat 64 t.period
  | _ => BitVec.ofNat 64 (evt (sel % 4))

/-- SRD (R293). -/
def execSrd (o : SV) (s : State) : Host.Outcome State Fault Refusal :=
  s.scalar1 (.srd o) o.d (s.special o.sel.toNat)

end Sys2Proof.Machine
end

