-- ==== Sys2Proof/Machine/Slots.lean ====
section
/-! DEFINITION. The slot operations by themselves: what the control core runs ahead on a copy of the state (07 R176; 08 R195, R410). -/

namespace Sys2Proof.Machine

/-- A slot operation runs as the instruction it is (theorem `slotOp_eq_exec` of Laws/Step.lean); nothing else does. -/
def slotOp (i : Instr) (s : State) : Host.Outcome State Fault Refusal :=
  match i with
  | .nop slot => execNop slot s
  | .br o => execBr o s
  | .brr o => execBrr o s
  | .btree o => execBtree o s
  | .call o => execCall o s
  | .callr o => execCallr o s
  | .ret => execRet s
  | .lend o => execLend o s
  | .lrep o => execLrep o s
  | .lexit => execLexit s
  | .endTask => execEndTask s
  | .trap o => execTrap o s
  | .fmtw o => execFmtw o s
  | .fence o => execFence o s
  | .await o => execAwait o s
  | .waita o => execWaita o s
  | .twait o => execTwait o s
  | .mark o => execMark o s
  | .add o => execAdd o s
  | .sub o => execSub o s
  | .mul o => execMul o s
  | .mulh o => execMulh o s
  | .mulhn o => execMulhn o s
  | .div o => execDiv o s
  | .divn o => execDivn o s
  | .rem o => execRem o s
  | .remn o => execRemn o s
  | .and o => execAnd o s
  | .or o => execOr o s
  | .xor o => execXor o s
  | .andn o => execAndn o s
  | .shl o => execShl o s
  | .shr o => execShr o s
  | .sar o => execSar o s
  | .rotl o => execRotl o s
  | .clz o => execClz o s
  | .popc o => execPopc o s
  | .min o => execMin o s
  | .max o => execMax o s
  | .minn o => execMinn o s
  | .maxn o => execMaxn o s
  | .ext o => execExt o s
  | .cmpeq o => execCmpeq o s
  | .cmpne o => execCmpne o s
  | .cmplt o => execCmplt o s
  | .cmpltn o => execCmpltn o s
  | .cmple o => execCmple o s
  | .cmplen o => execCmplen o s
  | .sel o => execSel o s
  | .addi o => execAddi o s
  | .movi o => execMovi o s
  | .movhi o => execMovhi o s
  | .plog o => execPlog o s
  | .srd o => execSrd o s
  | .lset o => execLset o s
  | .kset o => execKset o s
  | .kadd o => execKadd o s
  | .kget o => execKget o s
  | .aadd o => execAadd o s
  | .asub o => execAsub o s
  | .aaddi o => execAaddi o s
  | .amov o => execAmov o s
  | .aidx o => execAidx o s
  | .awrap o => execAwrap o s
  | .shf o => execShf o s
  | .shcp o => execShcp o s
  | .ntq o => execNtq o s
  | .rrbw o => execRrbw o s
  | .pstg o => execPstg o s
  | .lcnt o => execLcnt o s
  | .lrept o => execLrept o s
  | .vadd u o => execVadd u o s
  | .vsub u o => execVsub u o s
  | .vmul u o => execVmul u o s
  | .vfma u o => execVfma u o s
  | .vfms u o => execVfms u o s
  | .vfnma u o => execVfnma u o s
  | .vmin u o => execVmin u o s
  | .vmax u o => execVmax u o s
  | .vabs u o => execVabs u o s
  | .vneg u o => execVneg u o s
  | .vrcp u o => execVrcp u o s
  | .vrsq u o => execVrsq u o s
  | .vsqrt u o => execVsqrt u o s
  | .vexp2 u o => execVexp2 u o s
  | .vlog2 u o => execVlog2 u o s
  | .vcvt u o => execVcvt u o s
  | .vcmpeq u o => execVcmpeq u o s
  | .vcmplt u o => execVcmplt u o s
  | .vcmple u o => execVcmple u o s
  | .vcmpun u o => execVcmpun u o s
  | .vsel u o => execVsel u o s
  | .vand u o => execVand u o s
  | .vor u o => execVor u o s
  | .vxor u o => execVxor u o s
  | .vshl u o => execVshl u o s
  | .vshr u o => execVshr u o s
  | .vsar u o => execVsar u o s
  | .vadds u o => execVadds u o s
  | .vsubs u o => execVsubs u o s
  | .vmullo u o => execVmullo u o s
  | .vdot u o => execVdot u o s
  | .vdota u o => execVdota u o s
  | .vrsum u o => execVrsum u o s
  | .vrmax u o => execVrmax u o s
  | .vrmin u o => execVrmin u o s
  | .vbcast u o => execVbcast u o s
  | .vmovi u o => execVmovi u o s
  | .vmov u o => execVmov u o s
  | .vidx u o => execVidx u o s
  | .vclz u o => execVclz u o s
  | .vpopc u o => execVpopc u o s
  | .vround u o => execVround u o s
  | .vclamp u o => execVclamp u o s
  | .vperm o => execVperm o s
  | .vxgrp o => execVxgrp o s
  | .vshuf o => execVshuf o s
  | .vpack o => execVpack o s
  | .vunpk o => execVunpk o s
  | .qrd o => execQrd o s
  | .sfeed o => execSfeed o s
  | .cmul o => execCmul o s
  | .cmulc o => execCmulc o s
  | .cmulq o => execCmulq o s
  | .cmuli o => execCmuli o s
  | .cmula o => execCmula o s
  | .qwr o => execQwr o s
  | .qclr o => execQclr o s
  | .qmov o => execQmov o s
  | .qadd o => execQadd o s
  | .qfill o => execQfill o s
  | .qsave o => execQsave o s
  | .qload o => execQload o s
  | .qthr o => execQthr o s
  | .lds o => execLds o s
  | .sts o => execSts o s
  | .ldsv o => execLdsv o s
  | .stsv o => execStsv o s
  | .ldg o => execLdg o s
  | .stg o => execStg o s
  | .ldgv o => execLdgv o s
  | .stgv o => execStgv o s
  | .stnt o => execStnt o s
  | .stntv o => execStntv o s
  | .lda o => execLda o s
  | .stl o => execStl o s
  | .rmws o => execRmws o s
  | .atomg o => execAtomg o s
  | .atomn o => execAtomn o s
  | .acqb o => execAcqb o s
  | .relb o => execRelb o s
  | .ldp o => execLdp o s
  | .stp o => execStp o s
  | .gath o => execGath o s
  | .scat o => execScat o s
  | .ldk o => execLdk o s
  | .pref o => execPref o s
  | .copy o => execCopy o s
  | .subs o => execSubs o s
  | .unsub o => execUnsub o s
  | .bara o => execBara o s
  | .barw o => execBarw o s
  | .baraw o => execBaraw o s
  | .fput o => execFput o s
  | .fget o => execFget o s
  | .fred o => execFred o s
  | .cmo o => execCmo o s
  | .rpub o => execRpub o s
  | .rpop o => execRpop o s
  | .smpBind o => execSmpBind o s
  | .smpLoad o => execSmpLoad o s
  | .smpReset o => execSmpReset o s
  | .smpMergeOut o => execSmpMergeOut o s
  | .smpMergeIn o => execSmpMergeIn o s
  | .smpDraw o => execSmpDraw o s
  | .smpCommit o => execSmpCommit o s
  | .smpCommitPend o => execSmpCommitPend o s
  | .smpCommitSettle o => execSmpCommitSettle o s
  | .smpGreedy o => execSmpGreedy o s
  | .smpThr o => execSmpThr o s
  | .smpFlush o => execSmpFlush o s
  | .bflip => execBflip s
  | _ => .next s

end Sys2Proof.Machine
end

