-- ==== Sys2Proof/Machine/Ccc.lean ====
section
/-! DEFINITION. The control core's decision on a team's next bundle (07 R166 to R178; 08 R195, R202, R410; 10 R241 to R248, R255, R256). It runs ahead on a copy of the state, so that every core's checks are made on that core's state as it stands in the bundle's local cycle; then it sends, holds, or takes the fault. -/

namespace Sys2Proof.Machine

/-! The copy -/

/-- The state of an outcome: a stop of a meaning, which none makes, leaves the state. -/
def afterOf (s : State) (o : Host.Outcome State Fault Refusal) : State :=
  match o with
  | .next t => t
  | _ => s

/-- Slot operations of one core issue on the copy, one after another. -/
def State.copyOps (s : State) (ops : List SlotOp) : State :=
  ops.foldl (fun s o =>
    let s := { s with env := { s.env with slot := o.slot } }
    if s.guardTrue o then afterOf s (slotOp o.instr s) else s.guardedOff) s

/-- A pulse under way is run on the copy, with the operations that it issues. -/
def State.copyDue (s : State) (d : Due) : State :=
  match d.ev with
  | .writeLanding core ctx cyc ph =>
    let s := { s with env := { d.env with probe := true } }
    (afterOf s (execWriteLanding core ctx cyc ph s)).copyOps d.ops
  | _ => s

/-- What a task's cores have still to do of earlier bundles is done on a copy. -/
def State.ahead (s : State) (id : Nat) : State :=
  let mine := s.agenda.filter fun d => match d.ev with | .writeLanding _ _ _ _ => d.env.task = id | _ => false
  { mine.foldl (fun s d => s.copyDue d) { s with agenda := [], found := [], wants := [] } with found := [], wants := [] }

/-- The environment of a task's core in a cycle. -/
def State.envOf (s : State) (id i cyc : Nat) : Env :=
  let t := s.task id
  { task := id, idx := i, core := t.coreAt i, ctx := t.ctx, cyc := cyc, lc := t.lc, fresh := t.fresh, pc := t.pc, nt0 := t.nt0, nt1 := t.nt1
    energy := s.getF CCC_ECNT.COUNT (ctxOf (t.coreAt i) t.ctx) }

/-- The landings of a team cycle on every core of a task, on the copy. -/
def State.aheadCycle (s : State) (id cyc : Nat) : State :=
  let t := s.task id
  { t.idxs.foldl (fun s i =>
      { s with env := { s.envOf id i cyc with landOnly := true, probe := true } }.pulse cyc) s with found := [], wants := [] }

/-- The scratchpad writes and ring heads that land at the end of that cycle. -/
def State.aheadStore (s : State) (id cyc : Nat) : State :=
  let t := s.task id
  t.idxs.foldl (fun s i => { s with env := { s.envOf id i cyc with landOnly := true, probe := true } }.landDue cyc 4 5) s

/-! Holds at the boundary (R176) -/

/-- Causes that hold the next cycle of a team, whatever it brings: the freeze, a load past its landing offset, a slice
not published. -/
def State.cycleHolds (s : State) (id : Nat) (c : State) : Bool :=
  let t := s.task id
  (s.die t.die).frozen.isSome ||
  c.loads.any (fun e => e.2.task = id && e.2.width ≠ 0 && (e.2.atomic || decide (e.2.land ≤ t.cyc))) ||
  t.idxs.any fun i => c.sliceWaits (t.coreAt i) t.ctx t.cyc
/-- Cores on which an operation would enter a full sampler queue (R380). -/
def State.fullQueues (c : State) (t : Task) : List Nat := (t.idxs.map t.coreAt).filter fun x => c.smpFull x t.ctx

/-- Whether a wait looks at a word of the domain, whose value comes when its read does. -/
def State.awaitsAbroad (s : State) (t : Task) (w : Wait) : Bool :=
  match w.on with
  | .memWord va _ _ _ _ => paD ((s.coreXlate (t.coreAt w.idx) t.part va 0).2.pa va)
  | _ => false

/-- Whether a wait is met as the control core sees it (R176, R285, R287, R357). -/
def State.waitMet (s : State) (t : Task) (w : Wait) : Bool :=
  let core := t.coreAt w.idx
  match w.on with
  | .spadWord off v ne _ => satisfied ne (some (s.seenNat core t.ctx off 8)) v.toNat
  | .memWord va v ne scope since =>
    ((s.now - since) % 64 = 0 || s.awaitsAbroad t w) && satisfied ne (s.awaitValue t core scope (.inr va)) v.toNat
  | .barrier level bar need => decide (need ≤ s.barSeen core t.ctx (barCount level bar))
  | .tick v => decide (v ≤ s.tick)
/-- The scope at which a met wait acquires. -/
def WaitOn.scope (w : WaitOn) : Nat :=
  match w with
  | .spadWord _ _ _ sc | .memWord _ _ _ sc _ => sc
  | _ => 0
/-- Waits of a task that are met acquire and are dropped. -/
def State.serveWaits (s : State) (id : Nat) : State :=
  let t := s.task id
  t.waits.foldl (fun s w =>
    if w.cyc = t.prevCyc && s.waitMet t w then
      (s.acquireActs (t.coreAt w.idx) t.part w.on.scope).modTask id fun t =>
        { t with waits := t.waits.erase w, polled := t.polled.filter fun p => p.1 ≠ t.coreAt w.idx }
    else match w.on with
      | .memWord va _ _ _ since =>
        if w.cyc = t.prevCyc && (s.now - since) % 64 = 0 && s.awaitsAbroad t w then
          s.sendPoll id (t.coreAt w.idx) ((s.coreXlate (t.coreAt w.idx) t.part va 0).2.pa va)
        else s
      | _ => s) s
/-- Waits of the latest bundle that are not met. -/
def State.openWaits (s : State) (id : Nat) : List Wait :=
  let t := s.task id
  t.waits.filter fun w => w.cyc = t.prevCyc && !s.waitMet t w

/-! Acceptance of engine commands (R175, R176, R349) -/

/-- Whether the engine of a command can take it at a tick. -/
def State.accepts (s : State) (c : Cmd) (tick : Nat) : Bool :=
  if c.kind = .subs then
    let (j, rem) := s.subStack c
    rem || (s.subCount j < 8192 &&
      !(s.cmds.any fun e => e.2.kind = .subs && e.2.waiting && e.2.id ≠ c.id && s.subStack e.2 = (j, false)) &&
      !s.tasks.any fun e => e.2.subWait = some j && e.2.resident && e.1 ≠ c.task && decide (e.2.dord < (s.task c.task).dord))
  else
    match c.engine with
    | some e => !s.ceTaken.contains (e, tick)
    | none => true
/-- The engine's acceptance at a tick is taken. -/
def State.takeEngine (s : State) (c : Cmd) (tick : Nat) : State :=
  match c.engine with
  | some e => { s with ceTaken := s.ceTaken.filter (fun p => decide (s.now ≤ p.2)) ++ [(e, tick)] }
  | none => s

/-- Commands that begin at the present local cycle are accepted where they can be; the second result says whether all
were. -/
def State.acceptDue (s : State) (id : Nat) : State × Bool :=
  let t := s.task id
  let due := (s.cmds.filter fun e => e.2.task = id && (match e.2.start with | some x => !t.dynamic && x + t.shift = t.lc | none => false)).map (·.1)
  due.foldl (fun p cid =>
    let c := p.1.cmd cid
    let at_ := p.1.now + skew c.idx
    if c.granted || p.1.accepts c at_ then
      (((p.1.takeEngine c at_).modCmd cid fun c => { c with start := none, waiting := false }).sched at_
        (beginPhase c.kind c.core) (.engineStart cid), p.2)
    else (p.1.modCmd cid fun c => { c with waiting := decide (c.kind = .subs) }, false)) (s, true)

/-- Commands of the bundle that begin as they issue, previewed on the copy: none where one cannot be accepted. -/
def State.reserveNew (s : State) (c : State) (id : Nat) : Option State :=
  let fresh := c.cmds.filter fun e => e.2.task = id && e.2.start.isNone && s.nextId ≤ e.1 && !e.2.begun
  fresh.foldl (fun acc e =>
    match acc with
    | none => none
    | some s =>
      let at_ := s.now + skew e.2.idx
      if s.accepts e.2 at_ then some (s.takeEngine e.2 at_) else none) (some s)
/-- A bundle whose subscribe finds no entry of its stack waits for one (R155); any other does not. -/
def State.noteSub (s : State) (c : State) (id : Nat) : State :=
  let w := (c.cmds.find? fun e => e.2.task = id && e.2.kind = .subs && e.2.start.isNone && s.nextId ≤ e.1 && !e.2.begun &&
    !s.accepts e.2 (s.now + skew e.2.idx)).map fun e => (s.subStack e.2).1
  if (s.task id).subWait = w then s else s.modTask id fun t => { t with subWait := w }

/-! Fetch (R210, R242 to R246) -/

/-- The outcome of a fill that failed for the task. -/
def Task.fillFault (t : Task) (va : Nat) : Option Nat :=
  (t.walkRes.find? fun w => w.core = 400 && w.page = va / 65536 && w.cause ≠ 0).map (·.cause)
/-- A fetch fault at a page (R210). -/
def fetchFault (cause page : Nat) (straddle : Bool) (pc : Word) : FaultRec :=
  { cause := fetchCause cause, faddr := page * 65536, straddle := straddle, pc := pc }

def Bundle.empty (b : Bundle) : Nat := bits b.hdr 11 8
def Bundle.yields (b : Bundle) : Bool := bit b.hdr 12
def Bundle.prof (b : Bundle) : Nat := bits b.hdr 27 16

/-- Expansion of a packed bundle's bytes (R243). -/
def expandBundle (pc : Word) (b : List Byte) : Bundle :=
  let h := natAt b 0 4
  let slots := (List.range 8).filter (bit h)
  { hdr := h, pc := pc, next := pc + BitVec.ofNat 64 (4 * (1 + slots.length))
    words := (List.range slots.length).map fun i => (slots.getD i 0, natAt b (4 * (i + 1)) 4) }

/-- What fetching the next bundle gives: lines to fill, a fault, or the bundle. -/
inductive Fetched where
  | missing (lines : List Nat)
  | fault (r : FaultRec)
  | bundle (b : Bundle)
  deriving DecidableEq, Repr

/-- Fetch of n bytes of one line from the instruction cache. -/
def State.fetchAt (s : State) (t : Task) (va n : Nat) (straddle : Bool) : Fetched ⊕ List Byte :=
  match s.lineData (t.group / 8) t.part (va / 128), t.fillFault va with
  | some b, _ => .inr ((b.drop (va % 128)).take n)
  | none, some c => .inl (.fault (fetchFault c (va / 65536) straddle t.pc))
  | none, none => .inl (.missing [va / 128])

/-- The next bundle of a task: a bundle spans at most two lines. -/
def State.fetchBundle (s : State) (t : Task) : Fetched :=
  let pc := t.pc.toNat
  match s.fetchAt t pc 4 false with
  | .inl f => f
  | .inr h =>
    let n := 4 * (1 + popN 8 (leNat h))
    let first := min n (128 - pc % 128)
    match s.fetchAt t pc first false with
    | .inl f => f
    | .inr a =>
      if first = n then .bundle (expandBundle t.pc a)
      else
        match s.fetchAt t (pc + first) (n - first) (decide ((pc + first) / 65536 ≠ pc / 65536)) with
        | .inl f => f
        | .inr b => .bundle (expandBundle t.pc (a ++ b))

/-- The next bundle: later passes of a replay issue from the loop buffer (R281). -/
def State.nextBundle (s : State) (t : Task) : Fetched :=
  match (if t.rpass.any (· ≠ 0) then t.loopBuf.find? fun b => b.pc = t.pc else none) with
  | some b => .bundle b
  | none => s.fetchBundle t

/-! Decode checks (R202, R255, R256, R299, R360, R381) -/

/-- Ports of R256: 1 the read port, 2 the write port, 3 the read side, with bank and cycle; `bmBank` is the bank that bm
names (R252). -/
def touchesOf (i : Instr) (bmBank : Option Nat) (n : Nat) : List (Nat × Nat × Nat) :=
  match i with
  | .qrd o => if o.bm = 1 then bmBank.toList.map fun b => (1, b, n + 1) else [(1, o.bank.toNat, n + 1)]
  | .sfeed o => if o.ctl.getLsbD 13 then [(1, (o.ctl.extractLsb' 9 4).toNat, n + 1)] else []
  | .qwr o => [(2, o.bank.toNat, n + 1)]
  | .qclr o => [(2, o.bank.toNat, n + 1)]
  | .qfill o => [(2, o.bank.toNat, n + 1)]
  | .qmov o | .qadd o => [(3, o.sbank.toNat, n + 1), (2, o.bank.toNat, n + 2)]
  | .qsave o => (List.range 4).map fun j => (3, o.bank.toNat, n + 1 + j)
  | .qload o => (List.range 4).map fun j => (2, o.bank.toNat, n + 2 + j)
  | _ => []

/-- Banks that a slot operation names (R183). -/
def banksOf (i : Instr) (bmBank : Option Nat) : List Nat :=
  match i with
  | .cmul o | .cmulc o | .cmulq o | .cmuli o | .cmula o => [o.bank.toNat]
  | i => (touchesOf i bmBank 0).map (·.2.1) |>.eraseDups

/-- Whether a slot operation is a cube form. -/
def isCube (i : Instr) : Bool :=
  match i with
  | .cmul _ | .cmulc _ | .cmulq _ | .cmuli _ | .cmula _ => true
  | _ => false
/-- Its shape register and swap. -/
def cubeShape (i : Instr) : BitVec 2 × BitVec 1 :=
  match i with
  | .cmul o | .cmulc o | .cmulq o | .cmuli o | .cmula o => (o.hm, o.sw)
  | _ => (0, 0)

/-- Control transfers (R270 to R282). -/
def isTransfer (i : Instr) : Bool :=
  match i with
  | .br _ | .brr _ | .call _ | .callr _ | .ret | .btree _ | .lend _ | .lrep _ | .lexit | .endTask | .trap _ => true
  | _ => false

/-- What a stub or re-entry bundle may not hold (R202, R299, R336, R360, R381): the forms that need a global access are
allowed to a re-entry sequence. -/
def stubBars (slot : Nat) (i : Instr) (reentry : Bool) : Bool :=
  match i with
  | .nop _ => false
  | .ldg _ | .ldgv _ | .stg _ | .stgv _ | .stnt _ | .stntv _ | .lda _ | .stl _ | .pref _ => !reentry
  | .atomg _ | .atomn _ | .rmws _ | .acqb _ | .relb _ | .await _ | .waita _ | .twait _ | .ntq _ | .lcnt _ | .lrept _
  | .sfeed _ => true
  | i => slot = 7 || isTransfer i || isCube i

/-- Checks of a form's fields that need the header (R274, R277, R287, R295): cause 0x04. -/
def headerBars (t : Task) (i : Instr) : Bool :=
  let spatial (k : Nat) : Bool := k < 4 && (t.loopKind k = 1 || t.loopKind k = 2)
  match i with
  | .lset o => spatial o.lvl.toNat
  | .kset o | .kadd o => spatial o.k.toNat
  | .ldk o => spatial o.k.toNat
  | .btree o => decide (t.hdrNat 48 2 ≤ o.n.toNat)
  | .twait _ => !t.dynamic
  | _ => false

/-- The port record of a bundle while its slots are checked. -/
structure Ports where
  touches : List (Nat × Nat × Nat) := []
  reserves : List (Nat × Nat × Nat) := []
  deriving DecidableEq, Repr, Inhabited

/-- Check 8: the same port, or the same bank, in one cycle. -/
def Ports.clash (p : Ports) (l : List (Nat × Nat × Nat)) : Bool :=
  l.any fun a => p.touches.any fun b => a.2.2 = b.2.2 && (a.1 = b.1 || a.2.1 = b.2.1)
/-- Check 9 for touches: inside a recorded reservation. -/
def Ports.inside (p : Ports) (l : List (Nat × Nat × Nat)) : Bool :=
  l.any fun a => p.reserves.any fun r => r.1 = a.2.1 && decide (r.2.1 ≤ a.2.2 ∧ a.2.2 ≤ r.2.2)
/-- Check 9 for a cube operation at cycle n that reads m cycles: bank overlap, a touch inside, the array busy (R330). -/
def Ports.bars (p : Ports) (bank n m : Nat) : Bool :=
  p.reserves.any (fun r => (r.1 = bank && decide (r.2.1 ≤ n + m + 7 ∧ n ≤ r.2.2)) || (r.1 = 16 && decide (n ≤ r.2.2))) ||
  p.touches.any fun a => a.2.1 = bank && decide (n ≤ a.2.2 ∧ a.2.2 ≤ n + m + 7)
/-- The array is busy at cycle n. -/
def Ports.busy (p : Ports) (n : Nat) : Bool := p.reserves.any fun r => r.1 = 16 && decide (n ≤ r.2.2)

/-- Checks 3 to 10 of one slot word: a cause, or its operation and the port record with it. `cyc` is the team cycle, `m`
the cycles a cube operation of the bundle reads; `stub` is none, or whether the sequence is a re-entry sequence and the
bundle its last. -/
def slotCheck (t : Task) (hasTree : Bool) (bmBank : Option Nat) (cyc m : Nat) (stub : Option (Bool × Bool)) (slot w : Nat) (p : Ports) :
    Nat ⊕ (SlotOp × Ports) :=
  let g := bits w 31 27
  if 20 < g then .inl 0x02
  else if 16 ≤ g && (!hasTree || slot = 0) then .inl 0x03
  else
    match decodeSlotWord slot (BitVec.ofNat 32 w) with
    | .error e => .inl e.cause
    | .ok (_, i) =>
      let ts := touchesOf i bmBank cyc
      let bank := (banksOf i bmBank).headD 0
      let closing := match stub, i with
        | some (true, true), .br _ => slot = 0 && g = 0
        | _, _ => false
      if !i.wf || headerBars t i then .inl 0x04
      else if t.rblock.isSome && isTransfer i && !(match i with | .lexit => true | _ => false) then .inl 0x04
      else if (banksOf i bmBank).any fun b => !bit (t.hdrNat 24 2) b then .inl 0x07
      else if p.clash ts then .inl 0x05
      else if p.inside ts || (isCube i && p.bars bank cyc m) ||
          ((match i with | .qsave _ | .qload _ => true | _ => false) && p.busy cyc) then .inl 0x06
      else if stub.isSome && !closing && stubBars slot i (match stub with | some (r, _) => r | none => false) then .inl 0x09
      else .inr (⟨slot, g, i⟩,
        { touches := p.touches ++ ts
          reserves := if isCube i then p.reserves ++ [(bank, cyc, cyc + m + 7), (16, cyc, cyc + m - 1)] else p.reserves })

/-- The slots of a bundle in order (R255): the first failing slot with its cause, the operations of the others, and the port
record. -/
def slotChecks (t : Task) (hasTree : Bool) (bmBank : Option Nat) (cyc m : Nat) (stub : Option (Bool × Bool)) :
    List (Nat × Nat) → Ports → Option (Nat × Nat) × List SlotOp × Ports
  | [], p => (none, [], p)
  | (slot, w) :: rest, p =>
    match slotCheck t hasTree bmBank cyc m stub slot w p with
    | .inl c => (some (slot, c), (slotChecks t hasTree bmBank cyc m stub rest p).2)
    | .inr (o, p) =>
      let r := slotChecks t hasTree bmBank cyc m stub rest p
      (r.1, o :: r.2.1, r.2.2)

/-- Cause of a header (R255): reserved bits, profile, Y in a stub or re-entry bundle, Y in a replay block. -/
def headerCause (t : Task) (b : Bundle) (stub : Bool) : Nat :=
  if bits b.hdr 31 28 ≠ 0 || bits b.hdr 15 14 ≠ 0 then 0x04
  else if b.prof ≠ 0 && !published b.prof then 0x0A
  else if stub && b.yields then 0x09
  else if t.rblock.isSome && b.yields then 0x04
  else 0

/-! The decision -/

/-- What the control core finds at a tick. -/
structure Judged where
  /-- The state with the waits served, the commands accepted and the walks and fills asked for. -/
  s : State
  hold : Bool := false
  /-- The bundle's lines are being filled: at the head of a run no hold (R174). -/
  fill : Bool := false
  /-- Cores whose full sampler queue is the only cause of the hold. -/
  smp : List Nat := []
  fault : Option FaultRec := none
  bundle : Bundle := {}
  ops : List SlotOp := []
  ports : Ports := {}

/-- Whether the task's bundles are those of a stub or re-entry sequence. -/
def Task.inSeq (t : Task) : Bool := t.run = .draining || t.run = .restoring
/-- A bundle is the last of a re-entry sequence. -/
def Task.lastOf (t : Task) (b : Bundle) : Bool := decide (t.stubEnd ≤ t.lc + 1 + b.empty)

/-- Slot operations of a bundle are tried on every core on the copy; the path that BTREE chose on core index 0 holds on
the others. -/
def State.tryOps (c : State) (id cyc : Nat) (b : Bundle) (ops : List SlotOp) (stub : Bool) : State :=
  let t := c.task id
  (t.idxs.foldl (fun p i =>
    let e := { p.1.envOf id i cyc with next := b.next, prof := if b.prof ≠ 0 then b.prof else t.profile, path := p.2
                                       stub := stub, bundle := true, probe := true }
    let s := { p.1 with env := e }.copyOps ops
    (s, s.env.path)) (c, none)).1

/-- The fault reported among those found at a bundle (R196, R198): class priority, then slot, then core index. -/
def pickFault (l : List FaultRec) : Option FaultRec :=
  leastBy (fun a b => lexLt [faultPriority a.cause, a.slot, a.idx] [faultPriority b.cause, b.slot, b.idx]) l

/-- Requests of a task for walks that a bundle waits for (R149, R195). -/
def State.askWalks (s : State) (id : Nat) (ws : List (Nat × Nat × Nat)) : State :=
  let t := s.task id
  ws.foldl (fun s w => s.askWalk t.die t.part t.dord (8 * w.1 + t.ctx) { task := id, tr := w.1, kind := w.2.2, va := w.2.1 }) s

/-- Holds that a bundle's own operations cause: of cube operations and stores on the copy after they have been tried, of
ACQB on the copy before, whose count A it has not raised yet (R176, R344, R348). -/
def State.opHolds (c before : State) (id cyc : Nat) (ops : List SlotOp) : Bool :=
  let t := c.task id
  t.idxs.any fun i =>
    let core := t.coreAt i
    let b := c.bank (ctxOf core t.ctx)
    (c.core core).cube.any (fun o => o.ctx = t.ctx && o.start = cyc && !c.kslicePub core o 0) ||
    b.pend.any (fun l => l.ord / 8 = cyc && (match l.w with
      | .store pa mt x stream _ => (stream || mt = 2) && (linesOf pa x).any fun z => !c.wcbReady core z.1
      | _ => false)) ||
    ops.any fun o => match o.instr with
      | .acqb a => { before with env := before.envOf id i cyc }.guardTrue o && !before.acqbFree core t.ctx a.n.toNat
      | _ => false

/-- Lines that the first bundle of a run lacks: the control core fills them before anything else (R174). -/
def State.firstLines (s : State) (t : Task) : List Nat :=
  if t.runFirst then (match s.nextBundle t with | .missing l => l | _ => []) else []

/-- The decision on the next bundle of a task, with its replay and pre-emption settled. -/
def State.judge (s : State) (id : Nat) : Judged :=
  let s := s.serveWaits id
  let t := s.task id
  if !(s.firstLines t).isEmpty then { s := s.askFills id (s.firstLines t), hold := true, fill := true } else
  let c := s.ahead id
  let cyc := t.cyc
  let stub := t.inSeq
  let other := s.cycleHolds id c || !(c.openWaits id).isEmpty
  let full := c.fullQueues t
  if other || !full.isEmpty then { s := s, hold := true, smp := if other then [] else full }
  else
    let (s, ok) := s.acceptDue id
    if !ok then { s := s, hold := true }
    else
      match s.nextBundle t with
      | .missing l => { s := s.askFills id l, hold := true }
      | .fault r => { s := s, fault := some r }
      | .bundle b =>
        let h := headerCause t b stub
        let c := c.aheadCycle id cyc
        let quietBars := match t.covering t.pc.toNat with
          | some e => !stub && e.quiet && !(c.aheadStore id cyc).quiet id
          | none => false
        if h ≠ 0 || quietBars then { s := s, fault := some { cause := if h ≠ 0 then h else 0x09, pc := t.pc } }
        else
          let hasTree := b.words.any fun w => w.1 = 0 && bits w.2 26 20 = 0x03
          let ctl := (b.words.find? fun w => w.1 = 5).map (·.2)
          let prof := if b.prof ≠ 0 then b.prof else t.profile
          let m := match ctl with
            | some w => match decodeSlotWord 5 (BitVec.ofNat 32 w) with
              | .ok (_, i) => if isCube i then
                  cyclesPer prof * hmNK ({ c with env := c.envOf id 0 cyc }.shapeRead 0 (cubeShape i).1 (cubeShape i).2) else 0
              | .error _ => 0
            | none => 0
          let ports : Ports := { touches := t.touches.filter fun a => decide (cyc ≤ a.2.2), reserves := t.reserves.filter fun r => decide (cyc ≤ r.2.2) }
          let seq := if stub then some (decide (t.run = .restoring), t.run = .restoring && t.lastOf b) else none
          let last := t.run = .restoring && t.lastOf b
          let ends := b.words.any fun w => w.1 = 0 && bits w.2 31 20 = 0x01
          let (bad, ops, ports) := slotChecks t hasTree ((c.bank (ctxOf t.group t.ctx)).bm.map (·.1)) cyc m seq b.words ports
          let bad := match bad with
            | some (0, e) => some (0, e)
            | e => if last && !ends then some (0, 0x09) else e
          let before := c
          let c := c.tryOps id cyc b ops stub
          if !c.wants.isEmpty then { s := s.askWalks id c.wants, hold := true }
          else
            match pickFault ((bad.toList.map fun e => { cause := e.2, slot := e.1 }) ++ c.found) with
            | some r => { s := s, fault := some { r with pc := t.pc } }
            | none =>
              if c.opHolds before id cyc ops then { s := s, hold := true }
              else
                let s := s.noteSub c id
                match s.reserveNew c id with
                | none => { s := s, hold := true }
                | some s => { s := s, bundle := b, ops := ops, ports := ports }

end Sys2Proof.Machine
end

