-- ==== Sys2Proof/Machine/MemSys.lean ====
section
/-! DEFINITION. The memory system's own steps: bandwidth slots (05 R115; 06 R143), data of missing loads (14 R343), groups of atomics (06 R164), write-combining drains (14 R344), acknowledgements (06 R142), and the registers of chapter 06 that take time: block owners (R135), L1 mode (R141), invalidation and locks (R148, R150, R151). -/

namespace Sys2Proof.Machine

/-! Bandwidth slots -/

/-- The phase at which the event of a served transfer stands in its tick. -/
def State.xferPhase (s : State) (e : Ev) : Nat :=
  match e with
  | .copySector c => enginePhase (s.cmd c).eng
  | .rhizoidTile j _ => phRhizoid j.val
  | .actionChunk _ _ | .ringPublish _ _ | .ckptPage _ => phEndpoint
  | _ => phMem

/-- BWS_SLOT: a slot serves its owner or the fallback order with its 12,500 bytes; a transfer whose last bytes it moves is
whole when the slot ends. While something waits, the next slot is looked at too (R115). -/
def State.bwsServe (s : State) (j : Nat) : State :=
  let q := s.bwsQ.look j
  let o := s.bwsOwner j (bwsIndex s.tick)
  let r := match (bwsPick q o.1 o.2).or (s.bwsStray j q) with
    | none => (q, [])
    | some k => let x := q.getD k {}; bwsTake x.cls x.owner 12500 q
  let s := r.2.foldl (fun s e => s.sched (s.now + bwsWait s.tick) (s.xferPhase e) e) { s with bwsQ := s.bwsQ.put j r.1 }
  if r.1.isEmpty then s else s.sched (s.now + bwsWait s.tick) phHost (.bwsSlot (Fin.ofNat 8 j))

/-- BWS_SLOT (R115, R143). -/
def execBwsSlot (j : Stack) (s : State) : Host.Outcome State Fault Refusal :=
  .next (if s.tickBase.isNone then s else s.bwsServe j.val)

/-- BWS_FRAME_BOUNDARY (R115): the frame's layout follows from the registers and reservations of the moment; a queue
that waits is served from the first slot on. -/
def execBwsFrameBoundary (j : Stack) (s : State) : Host.Outcome State Fault Refusal :=
  .next (if (s.bwsQ.look j.val).isEmpty || s.due (.bwsSlot j) || s.tickBase.isNone then s
    else s.sched (s.now + bwsWait s.tick) phHost (.bwsSlot j))

/-! Loads -/

/-- A cacheable piece is filled into the caches of the load's core (R137, R139): of the module, or of another where the LLC
of the die held it; what comes from another module fills as it arrives. -/
def State.loadFill (s : State) (l : Load) (part : Nat) (p : Nat × Nat × Nat) : State :=
  if p.2.2 ≠ 0 || isHost p.1 || (paD p.1 && !s.llcHas (dieOf l.core) part p.1 p.2.1) then s
  else s.asTask l.task fun s => (linesOf p.1 (List.replicate p.2.1 0)).foldl (fun s x => s.l1Fill l.core part x.1 l.rd x.2.2) s

/-- An acquire has read: its scope's actions follow, and loads of the context that waited for it read now (R160). -/
def State.acquired (s : State) (l : Load) : State :=
  let s := s.acquireActs l.core (s.task l.task).part (l.acq - 1)
  (s.loads.filter fun e => e.2.behind = some l.id).foldl (fun s e => s.loadGo e.1) s

/-- Bytes of a load, those of earlier stores of the context to the same addresses over them (R159). -/
def Load.bytes (l : Load) : List Byte :=
  ((pieceOffsets 0 l.pieces).map fun p => overlayHeld l.older p.2.1 (bytesAt l.data p.1 p.2.2.1)).flatten

/-- The data of a load is whole: it is cached, and its value lands (R343). -/
def State.loadWhole (s : State) (l : Load) : State :=
  let part := (s.task l.task).part
  let bytes := if l.atomic then bytesAt l.data 0 l.width else l.bytes
  let s := l.pieces.foldl (fun s p => s.loadFill l part p) s
  let s := { s with loads := s.loads.drop (· = l.id) }
  let s := if l.acq = 0 then s else s.acquired l
  let s := s.orderFree l.core l.ctx l.task
  if l.width = 0 || l.dst = .s 0 then s
  else
    let b := ctxOf l.core l.ctx
    (s.push b (max l.land ((s.bank b).lastCyc + 1)) l.ord (destWrite l.dst l.width l.sx bytes)).kick l.task l.core l.ctx

/-- LOAD_DATA_LAND: a load that came behind an atomic of its context reads now; otherwise one part of a load's data has
come, and the last ends the hold or the blocking switch (R141, R343). -/
def State.loadArrive (s : State) (id : Nat) : State :=
  let l := s.loads.look id
  if l.id ≠ id then s
  else if l.late then s.loadGo id
  else if 1 < l.need then { s with loads := s.loads.upd id fun l => { l with need := l.need - 1 } }
  else if s.now < l.notBefore then s.sched l.notBefore phMem (.loadDataLand id)
  else s.loadWhole l

/-- LOAD_DATA_LAND (R343). -/
def execLoadDataLand (load : Nat) (s : State) : Host.Outcome State Fault Refusal := .next (s.loadArrive load)

/-! Atomics -/

/-- One operation of a group: its value and the word after it (R164, R346). -/
def Atom.apply (a : Atom) (old : Nat) : Nat := applyAtomic a.op (if a.w then 64 else 32) old a.operand.toNat

/-- The word of an operation takes its new value at the memory side (R152): through the owning die's LLC, or of a page that
is not cached in the stack and in the copy there (R140). -/
def State.atomStore (s : State) (a : Atom) (b : List Byte) : State :=
  let die := match a.arrived with | some _ => ownerDie a.pa | none => dieOf a.core
  s.asTask a.task fun s => s.byLines a.pa b fun s la d m =>
    if a.mt = 0 then
      (if a.arrived.isNone then s.countLack a.part la (ctxOf a.core a.ctx) else s).sideStore die a.part la d m 2
    else s.stackAndCopy a.part la d m

/-- An operation takes its place (R164): its old value goes to its load, and no copy of its own core stays behind (R159,
R347). One that came from elsewhere has its answer once the slots of its write have served (R37). -/
def State.atomOne (s : State) (a : Atom) : State :=
  let n := if a.w then 8 else 4
  match a.arrived with
  | some x =>
    let old := leNat (s.sideBytes a.part a.pa n)
    let s := s.atomStore a (natLe n (a.apply old))
    let s := { s with fabIn := s.fabIn ++ [(x, natLe n old)] }
    if isHost a.pa then s.sched (s.now + 1) phMem (.fabAccessArrive x)
    else s.hbm (stackOf a.pa) x.cls a.part (1024 + a.part) n (some (.fabAccessArrive x))
  | none =>
  let s := (s.captureMem a.task a.core a.pa n).l1Flush a.core a.pa n
  let old := leNat (s.sideBytes a.part a.pa n)
  let s := s.atomStore a (natLe n (a.apply old))
  match a.load with
  | none => s.orderFree a.core a.ctx a.task
  | some id =>
    let s := { s with loads := s.loads.upd id fun l => if l.id = id then l.fill 0 (natLe n old) else l }
    s.sched (max s.now (s.loads.look id).notBefore) phMem (.loadDataLand id)

/-- Insertion of an atomic by its logical key (R164). -/
def insertAtom (a : Atom) : List Atom → List Atom
  | [] => [a]
  | x :: l => if lexLt a.key x.key then a :: x :: l else x :: insertAtom a l

/-- The operations of one group in logical order. -/
def State.groupOf (s : State) (word interval : Nat) : List Atom :=
  (s.atoms.filter fun a => a.pa = word && a.interval = interval).foldl (fun l a => insertAtom a l) []

/-- Whether a group must still wait: for a store of one of its contexts to the word that has not performed (R159), for an
access of its interval that loops back and has not arrived, or for the group of an earlier interval on the word (R164). -/
def State.groupWaits (s : State) (word interval : Nat) (g : List Atom) : Bool :=
  g.any (fun a => a.arrived.isNone && (s.bank (ctxOf a.core a.ctx)).heldStores.any fun h =>
    decide (h.pa < word + 8 ∧ word < h.pa + h.bytes.length)) ||
  s.agenda.any (fun d => match d.ev with
    | .fabAccessArrive x => x.kind != .read && x.kind != .write && x.offset = word && decide (x.tick / 256 ≤ interval) &&
        !(s.fabIn.any fun e => e.1 = x)
    | _ => false) ||
  s.atoms.any fun a => a.pa = word && decide (a.interval < interval)

/-- ATOMIC_GROUP: the group of a word and an interval performs as one unit (R164). -/
def State.groupPerform (s : State) (word interval : Nat) : State :=
  let g := s.groupOf word interval
  if s.groupWaits word interval g then s.sched (s.now + 1) phMem (.atomicGroup word interval)
  else
    g.foldl (fun s a => s.atomOne a)
      { s with atoms := s.atoms.filter fun a => !(a.pa = word && a.interval = interval) }

/-- ATOMIC_GROUP (R164). -/
def execAtomicGroup (word interval : Nat) (s : State) : Host.Outcome State Fault Refusal :=
  .next (s.groupPerform word interval)

/-! Drains and acknowledgements -/

/-- WCB_DRAIN: a full buffer's bytes reach the memory side (R344). -/
def execWcbDrain (core : Core) (buf : Fin 16) (s : State) : Host.Outcome State Fault Refusal :=
  let w := (s.core core.val).wcb.look buf.val
  .next (if w.draining then s.wcbFlush core.val buf.val (s.task w.task).part else s)

/-- A store has one acknowledgement less to wait for; the last frees releases, fences and arrivals that wait for it
(R46, R142, R158). -/
def State.storeAck (s : State) (id : Nat) : State :=
  let p := s.stores.look id
  if p.id ≠ id then s
  else if 1 < p.n then { s with stores := s.stores.upd id fun p => { p with n := p.n - 1 } }
  else
    let s := { s with stores := s.stores.drop (· = id) }
    if p.wcb then
      (List.range 8).foldl (fun s q => match s.holder p.core q with | some t => s.orderFree p.core q t | none => s) s
    else s.orderFree p.core p.ctx p.task

/-- STORE_ACKNOWLEDGED (R142). -/
def execStoreAcknowledged (id : Nat) (s : State) : Host.Outcome State Fault Refusal := .next (s.storeAck id)

/-! Translations held by translators -/

/-- Every translator of the module without the translations a test names; the lock arrays stay (R148, R151). -/
def State.dropXlates (s : State) (f : Xlate → Bool) : State :=
  let keep (l : List Xlate) : List Xlate := l.filter fun x => !f x
  { s with
    cores := s.cores.foldl (fun m e => m.upd e.1 fun c => { c with tlb := keep c.tlb }) s.cores
    dies := s.dies.foldl (fun m e => m.upd e.1 fun d => { d with walkTlb := keep d.walkTlb, epTlb := keep d.epTlb }) s.dies
    ceTlb := s.ceTlb.foldl (fun m e => m.put e.1 (keep e.2)) s.ceTlb
    mslTlb := s.mslTlb.foldl (fun m e => m.put e.1 (keep e.2)) s.mslTlb }

/-- Whether a translation's page meets n 64 KiB pages from page number p. -/
def Xlate.meets (x : Xlate) (p n : Nat) : Bool :=
  decide (x.va < 65536 * (p + n) ∧ 65536 * p < x.va + 2 ^ x.size)

/-- Whether a translation maps into 1 GiB block b (R135). -/
def Xlate.inBlock (x : Xlate) (b : Nat) : Bool :=
  let pa := x.pa x.va
  !paD pa && !isHost pa && paOff pa / 2 ^ 30 = b

/-- 20 µs in ticks. -/
def micro20 : Nat := 80000

/-- A write to PRT_TLBI (R148): GO is ignored while Busy. -/
def State.wrTlbi (s : State) (p : Nat) (v : BitVec 128) : State :=
  let busy := s.getF PRT_TLBI.STATE p = 1
  let x := v.toNat
  let s := (s.setF PRT_TLBI.BASE p (bits x 95 55)).setF PRT_TLBI.SIZE p (bits x 127 96)
  if busy || !bit x 0 then s
  else (s.setF PRT_TLBI.STATE p 1).schedWithin micro20 phMem (.tlbiDone (Fin.ofNat 16 p))

/-- The translations of a partition in the range of its PRT_TLBI leave every translator. -/
def State.tlbInvalidate (s : State) (p : Nat) : State :=
  let n := s.getF PRT_TLBI.SIZE p
  (s.dropXlates fun x => x.part = p && (n = 0 || x.meets (s.getF PRT_TLBI.BASE p) n)).linesInvalidate p (s.getF PRT_TLBI.BASE p) n

/-- TLBI_DONE (R148). -/
def execTlbiDone (p : Part) (s : State) : Host.Outcome State Fault Refusal :=
  .next ((s.tlbInvalidate p.val).setF PRT_TLBI.STATE p.val 2)

/-! Block owners (R135) -/

/-- A write to PRT_MEM_OWN: ignored while a locked translation maps into the block; the wholly unbacked blocks read 0. -/
def State.wrMemOwn (s : State) (b : Nat) (v : BitVec 128) : State :=
  let x := v.toNat
  let s := if bit x 7 then s.setF PRT_MEM_OWN.ERR b 0 else s
  if s.dies.any fun e => e.2.lockArr.any (·.inBlock b) then s.setF PRT_MEM_OWN.ERR b 1
  else
    let own := bits x 3 0 + (if 60 ≤ b % 64 then 0 else 16 * bits x 4 4)
    (({ s with memOwnNew := s.memOwnNew.put b (some own) }).setF PRT_MEM_OWN.BUSY b 1).schedWithin micro20 phMem
      (.prtMemOwnDone (Fin.ofNat 512 b))

/-- PRT_MEM_OWN_DONE (R135, R408): every cached translation into the block is gone, and the owner takes effect, unless the
action of a later write is still under way: the owner that was written last takes effect with the last of them. -/
def execPrtMemOwnDone (b : Fin 512) (s : State) : Host.Outcome State Fault Refusal :=
  let s := s.dropXlates (·.inBlock b.val)
  if s.due (.prtMemOwnDone b) then .next s
  else
  let own := (s.memOwnNew.look b.val).getD 0
  let s := { s with memOwnNew := s.memOwnNew.put b.val none }
  .next (((s.setF PRT_MEM_OWN.PRT b.val (own % 16)).setF PRT_MEM_OWN.EN b.val (own / 16)).setF PRT_MEM_OWN.BUSY b.val 0)

/-! Locked ranges (R150, R151) -/

/-- The translations of n pages from a page number, one per distinct page, or the first fault. -/
def State.lockWalk (s : State) (part : Nat) : Nat → Nat → List Xlate → Nat × List Xlate
  | 0, _, l => (0, l)
  | n + 1, page, l =>
    let r := s.walk part (65536 * page) 0
    if r.1 ≠ 0 then (r.1, []) else s.lockWalk part n (page + 1) (if l.contains r.2 then l else l ++ [r.2])

/-- Pages and number of pages of a lock register. -/
def State.lockRange (s : State) (k : Nat) : Nat × Nat := (s.getF PRT_LOCK.BASE k, s.getF PRT_LOCK.SIZE k)

/-- PRT_LOCK_DONE: the walk of the range ends (R150). -/
def State.lockEnd (s : State) (die p i : Nat) : State :=
  let k := 256 * die + 16 * p + i
  if s.getF PRT_LOCK.STATE k ≠ 1 then s
  else
    let (page, n) := s.lockRange k
    let refuse (s : State) (c : Nat) : State := (s.setF PRT_LOCK.STATE k 3).setF PRT_LOCK.CAUSE k c
    match s.lockWalk p n page [] with
    | (0, l) =>
      let have_ := (s.die die).lockArr
      let more := l.filter fun x => !have_.any fun y => y.part = x.part && decide (x.va < y.va + 2 ^ y.size ∧ y.va < x.va + 2 ^ x.size)
      if 16384 < have_.length + more.length then refuse s 0xFF
      else (s.modDie die fun d => { d with lockArr := d.lockArr ++ more }).setF PRT_LOCK.STATE k 2
    | (c, _) => refuse s c

/-- PRT_LOCK_DONE (R150). -/
def execPrtLockDone (d : Die) (p i : Fin 16) (s : State) : Host.Outcome State Fault Refusal :=
  .next (s.lockEnd d.val p.val i.val)

/-- Bytes of a ring of 2^DEPTH slots; DEPTH 0 acts as 1. -/
def ringBytes (depth slotsz : Nat) : Nat := 2 ^ max 1 depth * 2 ^ (slotsz + 8)

/-- What a range must not hold to be unlocked: a page of the kernel image of an admitted fast variant, or an enabled
endpoint ring (R151); address and bytes of each, of a partition on a die. -/
def State.lockHolds (s : State) (die p : Nat) : List (Nat × Nat) :=
  let kern := (s.streams.filter fun e => e.1 / 1024 = die && e.2.valid && e.2.cls = 0 && e.2.part = p).map fun e =>
    (e.2.vars.filter (·.kernel ≠ 0)).map fun v => (v.kernel, imageBytes v.hdr)
  let rx := (List.range 512).filterMap fun n =>
    let k := 512 * die + n
    if s.getF UEE_RXQ_CFG.EN k = 1 && s.getF UEE_RXQ_CFG.PRT k = p then
      some (256 * s.getF UEE_RXQ_CFG.BASE k, ringBytes (s.getF UEE_RXQ_CFG.DEPTH k) (s.getF UEE_RXQ_CFG.SLOTSZ k)) else none
  let tx := (List.range 512).filterMap fun n =>
    let k := 512 * die + n
    if s.getF UEE_TXQ_CFG.EN k = 1 && s.getF UEE_TXQ_CFG.PRT k = p then
      some (256 * s.getF UEE_TXQ_CFG.BASE k, ringBytes (s.getF UEE_TXQ_CFG.DEPTH k) (s.getF UEE_TXQ_CFG.SLOTSZ k)) else none
  kern.flatten ++ rx ++ tx

/-- The range is unlocked: a page that another Locked range of the partition covers stays (R151). -/
def State.unlock (s : State) (die p i : Nat) : State :=
  let k := 256 * die + 16 * p + i
  let s := ((s.setF PRT_LOCK.STATE k 0).setF PRT_LOCK.EN k 0).setF PRT_LOCK.CAUSE k 0
  let others := (List.range 16).filterMap fun j =>
    let q := 256 * die + 16 * p + j
    if s.getF PRT_LOCK.STATE q = 2 then some (s.lockRange q) else none
  s.modDie die fun d => { d with lockArr := d.lockArr.filter fun x => x.part ≠ p || others.any fun r => x.meets r.1 r.2 }

/-- A write to PRT_LOCK (R150, R151). -/
def State.wrLock (s : State) (k : Nat) (v : BitVec 128) : State :=
  let die := k / 256
  let p := k / 16 % 16
  let i := k % 16
  let x := v.toNat
  let on := s.getF PRT_LOCK.EN k = 1
  let st := s.getF PRT_LOCK.STATE k
  let s := if bit x 3 then s.setF PRT_LOCK.ERR k 0 else s
  let s := if on then s else (s.setF PRT_LOCK.BASE k (bits x 95 55)).setF PRT_LOCK.SIZE k (bits x 127 96)
  let (page, n) := s.lockRange k
  if bit x 0 then
    if n = 0 || st = 1 || st = 2 then s
    else
      let s := ((s.setF PRT_LOCK.EN k 1).setF PRT_LOCK.STATE k 1).setF PRT_LOCK.CAUSE k 0
      s.schedSome phMem (.prtLockDone (Fin.ofNat 4 die) (Fin.ofNat 16 p) (Fin.ofNat 16 i))
  else if !on then s
  else if st = 2 && (s.lockHolds die p).any (fun r => decide (r.1 < 65536 * (page + n) ∧ 65536 * page < r.1 + r.2)) then
    s.setF PRT_LOCK.ERR k 1
  else
    (s.unsched fun d => decide (d.ev = .prtLockDone (Fin.ofNat 4 die) (Fin.ofNat 16 p) (Fin.ofNat 16 i))).unlock die p i

/-! L1 mode (R141) -/

/-- A write to CCC_L1_CFG: ignored while a context of the cluster holds a task. -/
def State.wrL1 (s : State) (c : Nat) (v : BitVec 128) : State :=
  let x := v.toNat
  let s := if bit x 2 then s.setF CCC_L1_CFG.ERR c 0 else s
  if (List.range 8).any fun i => (List.range 8).any fun q => (s.holder (8 * c + i) q).isSome then s.setF CCC_L1_CFG.ERR c 1
  else
    ({ s with l1New := s.l1New.put c (some (bit x 0)) }.setF CCC_L1_CFG.BUSY c 1).schedWithin micro20 phMem
      (.l1ModeDone (Fin.ofNat 48 c))

/-- L1_MODE_DONE: the cluster's L1s are clean and empty, and the mode changes (R141, R408), to the one written last when the
actions of several writes are under way. -/
def execL1ModeDone (c : Cluster) (s : State) : Host.Outcome State Fault Refusal :=
  let s := s.l1CleanAll ((List.range 8).map (8 * c.val + ·))
  if s.due (.l1ModeDone c) then .next s
  else
  let m := (s.l1New.look c.val).getD false
  let s := { s with l1New := s.l1New.put c.val none }
  .next ((s.setF CCC_L1_CFG.FUSED c.val (if m then 1 else 0)).setF CCC_L1_CFG.BUSY c.val 0)

end Sys2Proof.Machine
end

