-- ==== Sys2Proof/Machine/Measure.lean ====
section
/-! DEFINITION. What a task's first bundle finds (07 R170, R171, R180), the passes of a replay measurement (07 R189, R190; 18 R400, R401), and the task-graph walker (07 R186, R187). -/

namespace Sys2Proof.Machine

/-! Launch values -/

/-- k register l at launch (R180). -/
def Task.loopStart (t : Task) (i l : Nat) : Nat :=
  match t.loopKind l with
  | 0 => t.hdrNat (64 + 8 * l) 4
  | 1 => i
  | 2 => t.srk
  | _ => 0

/-- Core index i of a task's team at the first bundle: registers, scratchpad range, declared banks (R133, R170, R171). -/
def State.launchCore (s : State) (t : Task) (i : Nat) : State :=
  let core := t.coreAt i
  let tx := match t.txSlot with
    | some (ring, slot) => s.txSlotVa (512 * t.die + ring) slot
    | none => 0
  let regs : List (Nat × Word) :=
    [(1, t.args), (2, BitVec.ofNat 64 t.period), (3, BitVec.ofNat 64 t.r), (4, BitVec.ofNat 64 t.dord), (5, BitVec.ofNat 64 tx)]
  let s := s.modBank (ctxOf core t.ctx) fun b =>
    { s := regs.foldl (fun m p => m.put p.1 p.2) []
      k := (List.range 4).foldl (fun m l => m.put l (BitVec.ofNat 64 (t.loopStart i l))) []
      maint := b.maint, lastTick := b.lastTick }
  let base := t.spadBase.getD i 0
  let held := if t.cls < 2 then (s.stream t.die t.stream).spadBytes else t.hdrNat 6 2 * 1024
  let s := s.sizeSpad core t.ctx base held (if t.cls < 2 then t.var.spad * 1024 else held)
  let mask := t.hdrNat 24 2
  s.modCore core fun c =>
    { c with
      tiles := c.tiles.drop fun k => bit mask (k / 16)
      af := c.af.drop fun k => bit mask (k / 16)
      port := c.port.filter (·.2 ≠ t.ctx)
      slots := (List.range 8).foldl (fun m n => m.put (recKey base n) {}) c.slots }

/-- A pass of a task starts: launch values, and the control core's state of it. -/
def State.startPass (s : State) (id : Nat) : State :=
  let t := s.task id
  let s := t.idxs.foldl (fun s i => s.launchCore t i) s
  s.modTask id fun t =>
    { t with
      pc := BitVec.ofNat 64 t.codeBase, lc := 0, cyc := 1, prevCyc := 0, shift := 0, empties := 0, yieldAfter := false
      endAfter := false, waits := [], keptWaits := [], rc := [1, 1, 1, 1], rtab := [], rblock := none, rpass := [], loopBuf := []
      rpos := 0, touches := [], reserves := [], sig := 0xFFFFFFFF, walkRes := [], nt0 := 0, nt1 := 0, drainHold := 0 }

/-! Replay measurement -/

/-- Event code e of a cluster's list. -/
def State.rplCode (s : State) (cl e : Nat) : Nat := bits (s.getF CCC_RPL_EVT.CODES (4 * cl + e / 8)) (8 * (e % 8) + 7) (8 * (e % 8))
/-- Whether an event code is reserved (R188). -/
def evReserved (c : Nat) : Bool := c = 0 || decide (0x12 ≤ c)

/-- Counters 0 to 3 of every core of the team count the events of a pass (R400). -/
def State.rplCounters (s : State) (cl : Nat) (t : Task) (pass : Nat) : State :=
  t.idxs.foldl (fun s x => (List.range 4).foldl (fun s i =>
    let k := 4 * t.coreAt x + i
    let e := 4 * pass + i
    let s := s.csrPut .CCC_EVT k 0
    if e < s.getF CCC_RPL_CTL.NEV cl then
      let c := s.rplCode cl e
      (((s.setF CCC_EVT.EN k 1).setF CCC_EVT.CTX k t.ctx).setF CCC_EVT.SEL k c).setF CCC_EVT.SAT k (if evReserved c then 1 else 0)
    else s) s) s

/-- The first task of STREAM placed on a cluster since its ARM is measured, from its first bundle (R189). -/
def State.rplStart (s : State) (id : Nat) : State :=
  let t := s.task id
  let cl := t.group / 8
  let r := (s.cluster cl).rpl
  if !r.armed || r.task.isSome || r.next ≠ some id || t.cls < 2 then s
  else
    let s := t.idxs.foldl (fun s x =>
      let c := t.coreAt x
      s.modCore c fun k => { k with evKept := (List.range 4).map fun i => (s.csrVal .CCC_EVT (4 * c + i)).setWidth 64 }) s
    let n := ceilDiv (s.getF CCC_RPL_CTL.NEV cl) 4
    let s := s.modCluster cl fun c => { c with rpl := { armed := true, task := some id, passes := n, last := n ≤ 1 || s.getF CCC_RPL_BUF.CAPSZ cl = 0 } }
    s.rplCounters cl t 0

/-- The results of a pass are taken: sums with bit 63 for saturation, and the signature, compared with that of pass 1
(R190, R401). -/
def State.rplTake (s : State) (id : Nat) : State :=
  let t := s.task id
  let cl := t.group / 8
  let r := (s.cluster cl).rpl
  let n := min 4 (s.getF CCC_RPL_CTL.NEV cl - 4 * r.pass)
  let sums := (List.range n).map fun i =>
    let sum := (t.idxs.map fun x => s.getF CCC_EVT.COUNT (4 * t.coreAt x + i)).foldl (· + ·) 0
    let sat := t.idxs.any fun x => s.getF CCC_EVT.SAT (4 * t.coreAt x + i) = 1
    min sum (2 ^ 48 - 1) + (if sat || decide (2 ^ 48 ≤ sum) then 2 ^ 63 else 0)
  let sg := ~~~ BitVec.ofNat 32 t.sig
  let s := if r.pass ≠ 0 && sg ≠ r.sigs.headD 0 && s.getF CCC_RPL_CTL.MISMATCH cl = 0 then
      (s.setF CCC_RPL_CTL.MISMATCH cl 1).setF CCC_RPL_CTL.FIRSTMM cl r.pass
    else s
  s.modCluster cl fun c => { c with rpl := { c.rpl with counts := r.counts ++ sums, sigs := r.sigs ++ [sg] } }

/-- The team's L1s and the partition's LLC ways on the die are cleaned and invalidated, or only invalidated. -/
def State.rplCaches (s : State) (t : Task) (clean : Bool) : State :=
  let cores := (t.idxs.map fun i => s.l1Cores (t.coreAt i)).flatten.eraseDups
  let s := if clean then s.l1CleanAll cores else cores.foldl (fun s c => s.modCore c fun k => { k with l1 := [] }) s
  let ways := s.llcWays t.die t.part
  let mine := (s.die t.die).llc.filter fun e => ways.contains (e.1 % 32)
  let s := if clean then mine.foldl (fun s e => s.llcEvict e.2) s else s
  s.modDie t.die fun d => { d with llc := d.llc.filter fun e => !ways.contains (e.1 % 32) }

/-- A pass that is not the last ends: caches reset, sectors and blocks of table memory restored in reverse order of
capture, launch values, next pass (R189; 15 R390). -/
def State.rplNext (s : State) (id : Nat) : State :=
  let t := s.task id
  let cl := t.group / 8
  let s := (s.rplTake id).rplCaches t true
  let s := (s.cluster cl).rpl.cap.foldl (fun s e =>
    if e.1 = 0 then
      if s.abroad e.2.1 then s.sendWrite { task := id, part := t.part } t.cls e.2.1 e.2.2 else s.memStore (paOff e.2.1) e.2.2
    else s.modCore (e.1 - 1) fun c => { c with spad := putBytes c.spad e.2.1 e.2.2 }) s
  let s := (s.cluster cl).rpl.tmCap.foldl (fun s e => s.modCore e.1 fun c => { c with tm := putBytes c.tm e.2.1 e.2.2 }) s
  let s := (s.rplCaches t false).startPass id
  let r := (s.cluster cl).rpl
  let s := s.modCluster cl fun c => { c with rpl := { r with pass := r.pass + 1, last := r.last || decide (r.passes ≤ r.pass + 2) } }
  s.rplCounters cl t (r.pass + 1)

/-- RPL_PASS_END (R189): the task is eligible again with its first bundle next. -/
def execRplPassEnd (id : Nat) (s : State) : Host.Outcome State Fault Refusal :=
  let t := s.task id
  if (s.cluster (t.group / 8)).rpl.task = some id then
    let s := s.rplNext id
    .next ((s.modTask id fun t => { t with run := .eligible, eligTick := s.now, cnt := 0 }).sched (s.now + 1) phChoice (.contextEligible id))
  else .next s

/-- Whether the end of a task's final bundle ends a pass and not the task. -/
def State.rplMore (s : State) (id : Nat) : Bool :=
  let r := (s.cluster ((s.task id).group / 8)).rpl
  r.task = some id && !r.last
/-- The last pass of a measured task ends. -/
def State.rplEnd (s : State) (id : Nat) : State :=
  let t := s.task id
  let cl := t.group / 8
  if (s.cluster cl).rpl.task = some id then (s.rplTake id).rplFinish cl t else s

/-- RPL_ARM (R189, R193): the two ranges are walked with kind write; a fault, or a fast or slow stream, refuses. -/
def State.rplArm (s : State) (cl : Nat) : State :=
  let die := cl / 12
  let nev := s.getF CCC_RPL_CTL.NEV cl
  let st := s.stream die (s.getF CCC_RPL_CTL.STREAM cl)
  let part := ((List.range 16).find? fun p => bit (s.csrVal .PRT_CLUSTERS p).toNat cl).getD 0
  let r := (s.cluster cl).rpl
  if s.getF CCC_RPL_CTL.STATE cl = 1 || r.armed || nev = 0 || 32 < nev then s
  else
    let capsz := s.getF CCC_RPL_BUF.CAPSZ cl * 65536
    let bad := (st.valid && decide (st.cls < 2)) ||
      (capsz ≠ 0 && (s.rangeFault die part (s.getF CCC_RPL_BUF.CAP cl * 65536) capsz 1).isSome) ||
      (s.rangeFault die part (s.getF CCC_RPL_BUF.RES cl) (8 * nev + 4 * ceilDiv nev 4) 1).isSome
    if bad then s.setF CCC_RPL_CTL.STATE cl 3
    else
      (((s.setF CCC_RPL_CTL.STATE cl 1).setF CCC_RPL_CTL.MISMATCH cl 0).setF CCC_RPL_CTL.FIRSTMM cl 0).modCluster cl
        fun c => { c with rpl := { armed := true } }

/-! The task-graph walker -/

/-- A task-graph node of 32 bytes breaks R186. -/
def nodeBad (b : List Byte) : Bool :=
  let k := natAt b 0 1
  let f := natAt b 1 1
  b.length ≠ 32 || decide (4 ≤ k) || natAt b 28 4 ≠ 0 || decide (1024 ≤ natAt b 2 2) ||
  (if k = 1 then decide (2 ≤ f) || natAt b 16 8 = 0 else f ≠ 0) ||
  (2 ≤ k && natAt b 8 8 % 8 ≠ 0) || (k = 3 && natAt b 24 4 = 0)

/-- A walk of a cluster changed. -/
def State.modWalk (s : State) (cl id : Nat) (f : Walk → Walk) : State :=
  s.modCluster cl fun c => { c with walks := c.walks.map fun w => if w.id = id then f w else w }
/-- The waiting walk of earliest d_ord takes a slot that is free (R187). -/
def State.nextWalk (s : State) (cl : Nat) : State :=
  let l := (s.cluster cl).walks
  if 16 ≤ (l.filter (·.running)).length then s
  else
    match leastBy (fun (a b : Walk) => lexLt [a.dord, a.id] [b.dord, b.id]) (l.filter (!·.running)) with
    | some w => (s.modWalk cl w.id fun w => { w with running := true }).schedSome phDls (.tgWalkResume (Fin.ofNat 48 cl) w.id)
    | none => s
/-- A walk ends: with no error, or with tg_error (R187). -/
def State.endWalk (s : State) (cl id part err : Nat) : State :=
  let s := s.modCluster cl fun c => { c with walks := c.walks.filter (·.id ≠ id) }
  let s := if err = 0 then s else (s.setF CCC_TG_STAT.ERR cl err).vec part 3
  s.nextWalk cl

/-- acquire_die: the word at the die's point of coherence, none where it does not translate (R158, R187). -/
def State.walkWord (s : State) (cl part va : Nat) : Option Nat :=
  match s.rangeFault (cl / 12) part va 8 0 with
  | some _ => none
  | none =>
    let pa := (s.agentXlate (cl / 12) part va 0).2.pa va
    if s.abroad pa then some (Config.freeWord (pa + s.now)).toNat else some (leNat (s.scopeBytes (8 * cl) part 3 pa 8))

/-- A walk goes on from its node until it waits or ends (R187); the step limit bounds it. -/
def State.walkOn (s : State) (cl : Nat) (w : Walk) : Nat → State
  | 0 => s.endWalk cl w.id w.part 1
  | n + 1 =>
    let w := { w with steps := w.steps + 1 }
    let b := (s.vread w.die w.part (w.graph + 32 * w.node) 32 0).getD []
    if 256 < w.steps || w.tgn ≤ w.node || nodeBad b then s.endWalk cl w.id w.part 1
    else
      let next := natAt b 4 2
      let alt := natAt b 6 2
      match natAt b 0 1 with
      | 0 => s.endWalk cl w.id w.part 0
      | 1 =>
        let st := natAt b 2 2
        let now := s.deviceTime
        if !((s.stream w.die st).valid && (s.stream w.die st).part = w.part) then s.endWalk cl w.id w.part 1
        else
          match s.release w.die st now (now + natAt b 16 8) false fun t => { t with args := BitVec.ofNat 64 (natAt b 8 8) } with
          | (none, s) => s.endWalk cl w.id w.part 1
          | (some t, s) =>
            if natAt b 1 1 = 1 then s.modWalk cl w.id fun _ => { w with waitFor := some t, node := next, steps := 0 }
            else s.walkOn cl { w with node := next } n
      | k =>
        match s.walkWord cl w.part (natAt b 8 8) with
        | none => s.endWalk cl w.id w.part 1
        | some v =>
          if k = 2 then s.walkOn cl { w with node := if v ≠ 0 then next else alt } n
          else if v ≠ 0 && w.it.look w.node < natAt b 24 4 then
            s.walkOn cl { w with it := w.it.upd w.node (· + 1), node := alt } n
          else s.walkOn cl { w with node := next } n

/-- Whether a task has ended. -/
def Task.ended (t : Task) : Bool :=
  match t.st with
  | .committed | .aborted | .refused => true
  | _ => false

/-- TG_WALK_RESUME (R187). -/
def execTgWalkResume (c : Cluster) (walk : Nat) (s : State) : Host.Outcome State Fault Refusal :=
  match (s.cluster c.val).walks.find? (·.id = walk) with
  | none => .next s
  | some w =>
    match w.waitFor with
    | none => .next (s.walkOn c.val w 258)
    | some t =>
      if !(s.task t).ended then .next s
      else if (s.task t).st ≠ .committed then .next (s.endWalk c.val walk w.part 2)
      else .next (s.walkOn c.val { w with waitFor := none } 258)

/-- The commit of a task with a graph starts its walk (R187). -/
def State.startWalk (s : State) (t : Task) : State :=
  let n := t.hdrNat 60 2
  if n = 0 then s
  else
    let (id, s) := s.newId
    let cl := t.group / 8
    let w : Walk := { id := id, dord := t.dord, part := t.part, die := t.die, graph := t.hdrVa + t.hdrNat 56 4, tgn := n }
    (s.modCluster cl fun c => { c with walks := c.walks ++ [w] }).nextWalk cl

/-- Walks that wait for a task that has ended go on. -/
def State.wakeWalks (s : State) : State :=
  s.clusters.foldl (fun s e => e.2.walks.foldl (fun s w =>
    match w.waitFor with
    | some t =>
      let ev : Ev := .tgWalkResume (Fin.ofNat 48 e.1) w.id
      if (s.task t).ended && !s.due ev then s.sched (s.now + 1) phDls ev else s
    | none => s) s) s

end Sys2Proof.Machine
end

