-- ==== Sys2Proof/Machine/Send.lean ====
section
/-! DEFINITION. What the control core does with its decision: the choice of a context (07 R172 to R174), the first bundle (R171), sending, empty bundles and holds (R176 to R178; 10 R244), replay passes (11 R281), drains, park, eviction and restore (08 R202 to R209), the commit (05 R124), and the end of a tick. -/

namespace Sys2Proof.Machine

/-! The choice of a context (R172 to R174) -/

/-- A list in the order of keys. -/
def sortKeys {α : Type} (key : α → List Nat) (l : List α) : List α :=
  l.foldl (fun acc x => (acc.takeWhile fun y => !lexLt (key x) (key y)) ++ [x] ++ (acc.dropWhile fun y => !lexLt (key x) (key y))) []

/-- choose of R173. -/
def chooseRun (l : List (Nat × Task)) : Option (Nat × Task) :=
  let top := (l.map fun e => e.2.cnt).foldl max 0
  let age := sortKeys (fun e => [top - e.2.cnt, e.2.eligTick, e.2.ctx]) l
  if (List.range age.length).any fun j => decide (8 ≤ ((age.getD j default).2.cnt) + j) then age.head?
  else leastBy (fun a b => lexLt [a.2.dord, a.2.ctx] [b.2.dord, b.2.ctx]) l

/-- Whether a core's sampler holds an operation of another context (R380). -/
def State.smpOther (s : State) (t : Task) : Bool :=
  t.idxs.any fun i =>
    let c := s.core (t.coreAt i)
    c.smpQ.any (·.ctx ≠ t.ctx) || (match c.smpOp with | some o => o.ctx ≠ t.ctx | none => false)

/-- A group without a run chooses the next one among the contexts eligible now; its first bundle issues three ticks after the
choice (R173, R174, R405): a restore where the task was stopped, otherwise its next bundle. -/
def State.startRun (s : State) (g : Nat) : State :=
  let mine := s.tasks.filter fun e => e.2.group = g && e.2.resident
  if (s.group g).running.isSome || (s.die (g / 96)).frozen.isSome || mine.any (fun e => e.2.run = .draining) then s
  else
    let l := mine.filter fun e => e.2.run = .eligible
    match chooseRun (l.filter fun e => !s.smpOther e.2) with
    | none => s
    | some (id, t) =>
      let s := l.foldl (fun s e => s.modTask e.1 fun x => { x with cnt := x.cnt + 1 }) s
      let last := (t.idxs.map fun i => (s.bank (ctxOf (t.coreAt i) t.ctx)).lastCyc).foldl max 0
      let s := s.modTask id fun x => { x with run := .sending, runFirst := true, fresh := true, cyc := if x.started then max x.cyc (last + 1) else x.cyc }
      (s.modGroup g fun x => { x with running := some id }).sched (max (s.now + 3) (s.group g).freeAt) (phSend g)
        (if t.resume then .restore id else if t.empties = 0 then .bundleSend id else .emptyBundle id)

/-- A context becomes eligible (R172, R178). -/
def State.becomeEligible (s : State) (id : Nat) : State :=
  s.modTask id fun t => { t with run := .eligible, eligTick := s.now, cnt := 0 }

/-- CONTEXT_ELIGIBLE (R172 to R174, R178). -/
def execContextEligible (id : Nat) (s : State) : Host.Outcome State Fault Refusal :=
  let t := s.task id
  let s := match t.run with
    | .yielded => if t.preemptReq then s else s.becomeEligible id
    | .blocked => s.becomeEligible id
    | _ => s
  .next (s.startRun t.group)

/-! The first bundle (R65, R171, R192) -/

/-- The transmit ring of a task's stream, with a free slot: the next after the one given last (R65). -/
def State.txFor (s : State) (t : Task) : Option (Nat × Nat) :=
  (firstFrom (fun r =>
    let k := 512 * t.die + r
    s.getF UEE_TXQ_CFG.EN k = 1 && s.getF UEE_TXQ_CFG.PRT k = t.part && s.getF UEE_TXQ_CFG.STREAM k = t.stream) 512 0).bind fun r =>
    let k := 512 * t.die + r
    let n := s.txDepth k
    let x := s.tx.look k
    (((List.range n).map fun i => (x.next + i) % n).find? fun i => (x.holders.look i).isNone).map fun i => (r, i)

/-- A task's first bundle is next: transmit slot, launch values, energy at the start. -/
def State.firstBundle (s : State) (id : Nat) : State :=
  let t := s.task id
  let s := match s.txFor t with
    | none => s
    | some (r, i) =>
      let k := 512 * t.die + r
      { s with tx := s.tx.upd k fun x => { x with holders := x.holders.put i (some id), next := (i + 1) % s.txDepth k } }.modTask
        id fun t => { t with txSlot := some (r, i) }
  let s := (s.rplStart id).startPass id
  s.modTask id fun t =>
    { t with
      st := .running, started := true
      energy0 := t.idxs.map fun i => s.getF CCC_ECNT.COUNT (ctxOf (t.coreAt i) t.ctx) }

/-! Cycles -/

/-- A cycle of a task goes down the distribution tree (R167). -/
def State.sendCycle (s : State) (id : Nat) (env : Env → Env) (ops : List SlotOp) : State :=
  let t := s.task id
  t.idxs.foldl (fun s i =>
    let c := Fin.ofNat 384 (t.coreAt i)
    let x := Fin.ofNat 8 t.ctx
    let e := env (s.envOf id i t.cyc)
    (s.sched (s.now + skew i) phPulse (.writeLanding c x t.cyc .registers) e ops).sched (s.now + skew i) phStore
      (.writeLanding c x t.cyc .storage) e) s

/-- The control core's counts after a cycle: in a stub, drain or re-entry the shift grows with it (R175, R204). -/
def Task.cycled (t : Task) : Task :=
  { t with held := false, runFirst := false, fresh := false, lc := t.lc + 1, prevCyc := t.cyc, cyc := t.cyc + 1, shift := if t.inSeq then t.shift + 1 else t.shift }

/-- An event of R188 on every core of a team. -/
def State.countTeam (s : State) (id code : Nat) : State :=
  let t := s.task id
  t.idxs.foldl (fun s i => s.count (t.coreAt i) t.ctx code 1) s

/-- Whether a signal to a context waits: its team holds, or its die is frozen. -/
def State.sigHeld (s : State) (core ctx : Nat) : Bool :=
  (s.die (core / 96)).frozen.isSome ||
  (match s.holder core ctx with
    | some t => (s.task t).run = .holding || ((s.task t).inSeq && (s.task t).held)
    | none => false)

/-- Signals whose hold has ended another way than by a bundle, with a fault, an abort or a drain, perform at the next tick
(R88). -/
def State.signalsLate (s : State) : State :=
  s.sigDef.foldl (fun s d =>
    let ev : Ev := .signalDeferredStore (Fin.ofNat 384 d.1) (Fin.ofNat 8 d.2.1)
    if s.sigHeld d.1 d.2.1 || s.due ev then s else s.sched (s.now + 1) phSignal ev) s

/-- Signals set aside during a hold perform at its end (R88). -/
def State.freeSignals (s : State) (id : Nat) : State :=
  let t := s.task id
  t.idxs.foldl (fun s i =>
    if s.sigDef.any fun d => d.1 = t.coreAt i && d.2.1 = t.ctx then
      s.sched s.now phSignal (.signalDeferredStore (Fin.ofNat 384 (t.coreAt i)) (Fin.ofNat 8 t.ctx))
    else s) s

/-- What follows a cycle: the bundle's empty bundles, or the next bundle. -/
def State.sendNext (s : State) (id : Nat) : State :=
  let t := s.task id
  s.sched (s.now + 1) (phSend t.group) (if t.empties = 0 then .bundleSend id else .emptyBundle id)

/-- A bundle is sent (R167, R175, R190). -/
def State.sendBundle (s : State) (id : Nat) (j : Judged) : State :=
  let t := s.task id
  let b := j.bundle
  let s := if t.run = .holding || t.held then s.freeSignals id else s
  let prof := if b.prof ≠ 0 then b.prof else t.profile
  let s := s.sendCycle id (fun e => { e with next := b.next, prof := prof, stub := t.inSeq, bundle := true }) j.ops
  let s := if b.yields then s.countTeam id 0x06 else s
  let m := s.measured id
  let s := s.modTask id fun t =>
    { t.cycled with
      pc := b.next, empties := b.empty, yieldAfter := b.yields, walkRes := [], touches := j.ports.touches
      reserves := j.ports.reserves, run := if t.inSeq then t.run else .sending
      rpos := if t.rblock.isSome then t.rpos + 1 else t.rpos
      loopBuf := if t.rblock.isSome && t.rpass.all (· = 0) then t.loopBuf ++ [b] else t.loopBuf
      sig := if m then crc32cStep (natLe 8 b.pc.toNat) t.sig else t.sig }
  s.sendNext id

/-! Holds (R176 to R178) -/

/-- Hold budget of a task (R177). -/
def Task.budget (t : Task) : Nat := if t.cls < 2 then t.var.hold else t.hdrNat 12 4
/-- DRAIN or RESTORE of the header, as the sequence in work counts against (R204, R205). -/
def Task.seqBound (t : Task) : Nat := t.hdrNat (if t.run = .restoring then 22 else 20) 2
/-- Cycles of the drain or restore in work. -/
def Task.seqCycles (t : Task) : Nat := (t.lc - t.drainFrom) + t.drainHold

/-- A tick of a hold, drain or restore on every core of a team: static energy and event 0x01 (R188, R191). -/
def State.tickCharge (s : State) (id : Nat) : State :=
  let t := s.task id
  t.idxs.foldl (fun s i =>
    (s.chargeStaticAt (t.coreAt i) t.ctx (s.now + skew i)).count (t.coreAt i) t.ctx 0x01 1) s
/-- A tick of a hold: event 0x05 as well, but for a task in dynamic mode, which has no holds (R178); a sampler whose full
queue is the only cause runs on (R177, R380). -/
def State.holdCharge (s : State) (id : Nat) (smp : List Nat) : State :=
  let t := s.task id
  let s := s.tickCharge id
  let s := if t.dynamic then s else s.countTeam id 0x05
  smp.foldl (fun s c => s.smpTick c t.ctx) s
/-- Whether a freeze stands on a task's die (R27). -/
def State.iced (s : State) (t : Task) : Bool := (s.die t.die).frozen.isSome

/-- The hold goes on for this tick, or exhausts the budget or the bound of a drain. A freeze counts against nothing for a
task in dynamic mode (R27, R178). -/
def State.holdTick (s : State) (id : Nat) (smp : List Nat) : State :=
  let t := s.task id
  if t.dynamic && s.iced t then (s.tickCharge id).sched (s.now + 1) (phSend t.group) (.holdEnd id)
  else if t.inSeq && t.seqBound ≤ t.seqCycles then s.sched s.now (phSend t.group) (.drainBoundExceeded id)
  else if !t.dynamic && decide (t.budget < t.holdUsed + 1) then s.sched s.now (phSend t.group) (.holdBudgetExhausted id)
  else
    let s := (s.holdCharge id (if s.iced t then [] else smp)).modTask id fun t =>
      { t with
        holdUsed := if t.dynamic then t.holdUsed else t.holdUsed + 1
        drainHold := if t.inSeq then t.drainHold + 1 else t.drainHold
        held := true
        run := if t.inSeq then t.run else .holding }
    s.sched (s.now + 1) (phSend t.group) (.holdEnd id)

/-- The tick for which every open wait of a task waits, when ticks are all it waits for (R287). -/
def ticksOnly (l : List Wait) : Option Nat :=
  l.foldl (fun acc w => match acc, w.on with | some n, .tick v => some (max n v) | _, _ => none) (if l.isEmpty then none else some 0)

/-- A blocking switch (R178): the run ends, and the condition is looked at again. -/
def State.block (s : State) (id : Nat) : State :=
  let t := s.task id
  let s := if t.run = .blocked then s else (s.countTeam id 0x07).leaveGroup id
  let s := s.modTask id fun t => { t with run := .blocked, runFirst := false }
  let s := if s.iced t then s else t.idxs.foldl (fun s i => s.smpTick (t.coreAt i) t.ctx) s
  match ticksOnly (s.openWaits id) with
  | some v => s.sched (max (s.now + 1) (s.cycleOf v)) (phSend t.group) (.twaitTickReached id)
  | none => s.sched (s.now + 1) (phSend t.group) (.holdEnd id)

/-- A hold condition is met at a bundle or an empty bundle. -/
def State.hold (s : State) (id : Nat) (smp : List Nat) : State :=
  let t := s.task id
  if !t.dynamic || t.inSeq then s.holdTick id smp
  else if (s.die t.die).frozen.isSome then s.sched (s.now + 1) (phSend t.group) (.holdEnd id)
  else s.block id

/-! Replay passes (R281) -/

/-- The pass counters after a pass that is not the last, and the level that counted: none after the last. -/
def nextPass (rc c : List Nat) : Nat → Nat → Option (List Nat × Nat)
  | 0, _ => none
  | n + 1, l => if c.getD l 0 + 1 = rc.getD l 1 then nextPass rc (c.set l 0) n (l + 1) else some (c.set l (c.getD l 0 + 1), l)

/-- At the end of a pass of a replay block: its deltas, which land with the next cycle, or the end of the replay. -/
def State.replayPass (s : State) (id : Nat) : State :=
  let t := s.task id
  match t.rblock with
  | none => s
  | some (start, n, levels) =>
    if t.rpos < n then s
    else
      match nextPass t.rc t.rpass levels 0 with
      | none => s.modTask id fun t => t.endReplay t.pc
      | some (c, l) =>
        let es := t.rtab.filterMap fun e => e.2.bind fun x => if x.2.1 = l then some (x.1, x.2.2) else none
        let s := t.idxs.foldl (fun s i => es.foldl (fun s e =>
          s.push (ctxOf (t.coreAt i) t.ctx) t.cyc (8 * t.cyc) (.kAdd e.1 e.2)) s) s
        s.modTask id fun t => { t with rpass := c, rpos := 0, pc := BitVec.ofNat 64 start }

/-! Drains (R202 to R209) -/

/-- The save slot of a context of a core (R207). -/
def State.saveVa (s : State) (t : Task) (i : Nat) : Nat :=
  let core := t.coreAt i
  s.getF DST_SAVE_BASE.BASE (16 * t.die + t.part) * 65536 + (64 * (core / 8 % 12) + 8 * (core % 8) + t.ctx) * 32768

/-- The first 960 bytes of a context record: scalars to shapes (R101), with F in the energy word (R207). -/
def State.recordLow (s : State) (core ctx : Nat) (pc : Word) : List Byte :=
  let b := s.bank (ctxOf core ctx)
  let k := ctxOf core ctx
  let shapes (m : SMap Shape) : List Byte :=
    ((List.range 4).map fun h => natLe 8 (m.look h).live.toNat ++ natLe 8 (m.look h).shadow.toNat).flatten
  ((List.range 64).map fun n => natLe 8 (b.s.look n).toNat).flatten ++ natLe 8 (b.p ||| 1).toNat ++ natLe 8 b.rrb.toNat ++
  natLe 8 b.fmt.toNat ++ natLe 8 pc.toNat ++
  natLe 8 (s.getF CCC_ECNT.COUNT k + s.getF CCC_ECNT.F k * 2 ^ 48 + s.getF CCC_ECNT.SAT k * 2 ^ 63) ++ List.replicate 88 0 ++
  ((List.range 16).map fun n => natLe 8 (b.k.look n).toNat).flatten ++ shapes b.hm ++ shapes b.hl ++ shapes b.hx
/-- Its vectors. -/
def State.recordHigh (s : State) (core ctx : Nat) : List Byte :=
  ((List.range 32).map fun n => natLe 512 ((s.bank (ctxOf core ctx)).v.look n).toNat).flatten

/-- The records of a task's contexts are written to the save area (R207). -/
def State.saveRecords (s : State) (id : Nat) : State :=
  let t := s.task id
  t.idxs.foldl (fun s i =>
    let c := t.coreAt i
    let put (s : State) (va : Nat) (b : List Byte) : State := (s.vwrite t.die t.part id t.cls va b).getD s
    put (put s (s.saveVa t i) (s.recordLow c t.ctx t.resumePc)) (s.saveVa t i + 0x4000) (s.recordHigh c t.ctx)) s

/-- A bank with the registers of a record (R101, R208). -/
def Bank.ofRecord (b : Bank) (lo hi : List Byte) : Bank :=
  let w (o : Nat) : Word := BitVec.ofNat 64 (natAt lo o 8)
  let shapes (o : Nat) : SMap Shape := (List.range 4).foldl (fun m h => m.put h ⟨w (o + 16 * h), w (o + 16 * h + 8)⟩) []
  { b with
    s := (List.range 64).foldl (fun m n => m.put n (w (8 * n))) []
    p := BitVec.ofNat 16 (natAt lo 0x200 2), rrb := w 0x208, fmt := w 0x210
    k := (List.range 16).foldl (fun m n => m.put n (w (0x280 + 8 * n))) []
    hm := shapes 0x300, hl := shapes 0x340, hx := shapes 0x380
    v := (List.range 32).foldl (fun m n => m.put n (BitVec.ofNat 4096 (natAt hi (512 * n) 512))) [] }

/-- A task's banks, and everything that names its contexts, go to another context number: its new one, or while it is
evicted a number that no core has (R208, R209). -/
def State.rehome (s : State) (id x : Nat) : State :=
  let t := s.task id
  let s := t.idxs.foldl (fun s i =>
    let b := s.bank (ctxOf (t.coreAt i) t.ctx)
    (s.modBank (ctxOf (t.coreAt i) x) fun _ => b).modBank (ctxOf (t.coreAt i) t.ctx) fun _ => {}) s
  let mine (p : Nat × Nat) : Nat × Nat := if p.2 = t.ctx && t.group ≤ p.1 && p.1 < t.group + t.team then (p.1, x) else p
  { s with
    subs := s.subs.map fun (e : Nat × Sub) => if e.2.task = id then (e.1, { e.2 with ctx := x }) else e
    cmds := s.cmds.map fun (e : Nat × Cmd) => if e.2.task = id then (e.1, { e.2 with ctx := x }) else e
    stores := s.stores.map fun (e : Nat × PendStore) => if e.2.task = id then (e.1, { e.2 with ctx := x }) else e
    barriers := s.barriers.map fun (e : Nat × Barrier) => (e.1, { e.2 with arrived := e.2.arrived.map mine }) }.modTask id fun t => { t with ctx := x }
/-- The number that a task's contexts have while it is evicted. -/
def awayCtx (id : Nat) : Nat := 10000 * (id + 1)

/-- A tick in which a task's records are saved or loaded: one of the 68, unless the die is frozen (R27, R207, R208); then a
hold, which has a budget in timetable mode. `ev` comes with the next tick. -/
def State.recordTick (s : State) (id : Nat) (ev : Ev) : State :=
  let t := s.task id
  let at_ := s.sched s.now (phSend t.group)
  if s.iced t && t.dynamic then (s.tickCharge id).sched (s.now + 1) (phSend t.group) ev
  else if t.seqBound ≤ t.seqCycles then at_ (.drainBoundExceeded id)
  else if s.iced t && decide (t.budget < t.holdUsed + 1) then at_ (.holdBudgetExhausted id)
  else
    let s := if s.iced t then s.holdCharge id [] else s.tickCharge id
    (s.modTask id fun t =>
      { t with
        drainHold := t.drainHold + 1
        holdUsed := if s.iced t then t.holdUsed + 1 else t.holdUsed
        left := if s.iced t then t.left else t.left - 1 }).sched (s.now + 1) (phSend t.group) ev

/-- Copies of a task into register banks or scratchpad that have not completed (R209). -/
def State.copiesTo (s : State) (id space : Nat) : Bool :=
  s.cmds.any fun e => e.2.task = id && e.2.kind = .copy && e.2.dstSpace = space

/-- The group is free of a drained task; its next run starts three ticks on (R174, R204). -/
def State.drained (s : State) (id : Nat) (st : TState) : State :=
  let t := s.task id
  let s := s.modGroup t.group fun g =>
    { g with freeAt := max g.freeAt (s.now + 3), running := if g.running = some id then none else g.running }
  let s := if st = .parked then s.reconsider t.part else s
  s.modTask id fun t =>
    { t with
      st := st, run := .off, resume := false, evicting := false, saving := false
      preempts := if t.awaitSvc || t.resume then t.preempts else t.preempts + 1 }

/-- One more cycle of a drain: landings only. -/
def State.drainCycle (s : State) (id : Nat) : State :=
  let t := s.task id
  if t.seqBound ≤ t.seqCycles then s.sched s.now (phSend t.group) (.drainBoundExceeded id)
  else ((s.sendCycle id (fun e => e) []).modTask id (·.cycled)).sched (s.now + 1) (phSend t.group) (.drainEnd id)

/-- The landings of a drain's last cycle. -/
def State.lastLanding (s : State) (id : Nat) : State :=
  (s.sendCycle id (fun e => { e with landOnly := true }) []).modTask id fun t => { t with cyc := t.cyc + 1, prevCyc := t.cyc }

/-- Every exposed write has landed: a late trap is raised, an eviction goes on to its copies and its save, a park ends
(R202, R204, R207, R209). -/
def State.drainDone (s : State) (id : Nat) : State :=
  let t := s.task id
  match t.lateFault with
  | some r => s.raiseHere id r
  | none =>
    if !t.evicting then ((s.lastLanding id).drained id .parked).kickAll id
    else if !s.storesOut id || s.copiesTo id 3 then s.drainCycle id
    else if s.getF DST_SAVE_BASE.EN (16 * t.die + t.part) = 0 then s.abort id 0x0204
    else ((s.lastLanding id).modTask id fun t => { t with saving := true, left := 68 }).sched s.now (phSend t.group) (.drainEnd id)

/-- The drain of a task stands at a tick without a stub bundle. -/
def State.drainStep (s : State) (id : Nat) : State :=
  let t := s.task id
  if t.saving then
    if t.left ≠ 0 then s.recordTick id (.drainEnd id)
    else if s.copiesTo id 2 then (s.tickCharge id).sched (s.now + 1) (phSend t.group) (.drainEnd id)
    else ((s.saveRecords id).drained id .evicted).rehome id (awayCtx id)
  else
    let c := s.ahead id
    let full := c.fullQueues t
    if s.cycleHolds id c || !full.isEmpty then s.holdTick id full
    else if ((c.aheadCycle id t.cyc).aheadStore id t.cyc).quiet id then s.drainDone id
    else s.drainCycle id

/-- DRAIN_END (R204, R207, R209). -/
def execDrainEnd (id : Nat) (s : State) : Host.Outcome State Fault Refusal :=
  if (s.task id).run = .draining then .next (s.drainStep id) else .next s

/-! Restores (R205, R208) -/

/-- The records of an evicted task are loaded into its new contexts. -/
def State.loadRecords (s : State) (id : Nat) : State :=
  let t := s.task id
  t.idxs.foldl (fun s i =>
    let k := ctxOf (t.coreAt i) t.ctx
    match s.vread t.die t.part (s.saveVa t i) 960 0, s.vread t.die t.part (s.saveVa t i + 0x4000) 16384 0 with
    | some lo, some hi =>
      let e := natAt lo 0x220 8
      (((s.modBank k fun b => b.ofRecord lo hi).setF CCC_ECNT.COUNT k (bits e 47 0)).setF CCC_ECNT.F k (bits e 55 48)).setF
        CCC_ECNT.SAT k (bits e 63 63)
    | _, _ => s) s

/-- RESTORE (R205, R208): an evicted task's load takes 68 ticks; then the re-entry sequence, or the bundle itself. -/
def execRestore (id : Nat) (s : State) : Host.Outcome State Fault Refusal :=
  let t := s.task id
  if !t.resume then .next s
  else if t.st = .placing then
    .next ((s.modTask id fun t =>
      { t with st := .running, run := .restoring, saving := true, left := 68, drainFrom := t.lc, drainHold := 0
               stubEnd := t.lc + t.rlen }).sched s.now (phSend t.group) (.restore id))
  else if t.saving && t.left ≠ 0 then .next (s.recordTick id (.restore id))
  else
    let s := if t.saving then s.loadRecords id else s
    let s := s.modTask id fun t =>
      { t with
        st := .running, resume := false, saving := false, run := if t.rlen = 0 then .sending else .restoring
        pc := if t.rlen = 0 then t.resumePc else t.entryPc, drainFrom := t.lc
        drainHold := if t.saving then t.drainHold else 0, stubEnd := t.lc + t.rlen
        waits := t.keptWaits.map fun w => { w with cyc := t.prevCyc }, keptWaits := [], lateFault := none }
    .next (s.sched s.now (phSend t.group) (.bundleSend id))

/-- DRAIN_BOUND_EXCEEDED (R204): timing fault 0x43. -/
def execDrainBoundExceeded (id : Nat) (s : State) : Host.Outcome State Fault Refusal :=
  .next (s.raiseHere id { cause := 0x43, drain := true, pc := (s.task id).pc })

/-- HOLD_BUDGET_EXHAUSTED (R123, R177): timing fault 0x41. -/
def execHoldBudgetExhausted (id : Nat) (s : State) : Host.Outcome State Fault Refusal :=
  let t := s.task id
  if t.inSeq then .next (s.raiseHere id { cause := 0x41, drain := true, pc := t.pc })
  else .next (s.takeFault id { cause := 0x41, pc := t.pc })

/-! Sending -/

/-- The pre-emption point at which a task is to stop (R203, R282). -/
def Task.stopsAt (t : Task) : Option StubEntry :=
  if !t.preemptReq || t.inSeq || t.rblock.isSome then none
  else t.stubs.find? fun e => e.point && decide (t.codeBase + e.lo = t.pc.toNat)

/-- The control core looks at a task's next bundle; a task that has not started is Running once its first line is there
(R126, R174). -/
def State.attempt (s : State) (id : Nat) : State :=
  let t := s.task id
  if t.run = .draining && t.stubEnd ≤ t.lc then s.drainStep id
  else if t.run = .restoring && t.stubEnd ≤ t.lc && t.lateFault.isSome then s.raiseHere id (t.lateFault.getD {})
  else
    let s := if t.run = .restoring && t.stubEnd ≤ t.lc then s.modTask id fun t => { t with run := .sending } else s
    if !t.started && !(s.firstLines t).isEmpty then
      (s.askFills id (s.firstLines t)).sched (s.now + 1) (phSend t.group) (.bundleSend id)
    else
    let s := (if t.started then s else s.firstBundle id).replayPass id
    let t := s.task id
    match t.stopsAt with
    | some e => s.beginDrain id (some e) 0
    | none =>
      if t.inSeq && t.seqBound ≤ t.seqCycles then s.sched s.now (phSend t.group) (.drainBoundExceeded id)
      else
        let j := s.judge id
        if j.fill then j.s.sched (s.now + 1) (phSend t.group) (.bundleSend id)
        else if j.hold then j.s.hold id j.smp
        else
          match j.fault with
          | some r => if t.inSeq then j.s.raiseHere id { r with drain := true } else j.s.takeFault id r
          | none =>
            if t.run = .blocked then
              ((s.serveWaits id).becomeEligible id).sched s.now (phSend t.group) (.contextEligible id)
            else j.s.sendBundle id j

/-- Whether a task's control core state lets it send. -/
def Task.sends (t : Task) : Bool :=
  t.resident && (match t.run with | .sending | .holding | .blocked | .draining | .restoring => true | _ => false)

/-- BUNDLE_SEND (R176, R202 to R204). -/
def execBundleSend (id : Nat) (s : State) : Host.Outcome State Fault Refusal :=
  if (s.task id).sends then .next (s.attempt id) else .next s

/-- EMPTY_BUNDLE (R244): a cycle of nothing, which may hold. -/
def State.emptyCycle (s : State) (id : Nat) : State :=
  let t := s.task id
  let c := s.ahead id
  let full := c.fullQueues t
  if s.cycleHolds id c || !full.isEmpty then s.hold id (if s.cycleHolds id c then [] else full)
  else
    let (s, ok) := s.acceptDue id
    if !ok then s.hold id []
    else
      let s := if t.run = .holding || t.held then s.freeSignals id else s
      let s := (s.sendCycle id (fun e => { e with bundle := true, stub := t.inSeq }) []).modTask id fun t =>
        { t.cycled with prevCyc := t.prevCyc, empties := t.empties - 1, run := if t.inSeq then t.run else .sending }
      s.sendNext id
/-- A cycle of a task: its next bundle, or the next of the bundle's empty bundles. -/
def State.goOn (s : State) (id : Nat) : State :=
  let t := s.task id
  if !t.sends then s
  else if t.empties = 0 then s.attempt id
  else if t.run = .blocked then
    let c := s.ahead id
    if s.cycleHolds id c || !(c.fullQueues t).isEmpty then s.block id
    else (s.becomeEligible id).sched s.now (phSend t.group) (.contextEligible id)
  else s.emptyCycle id
/-- EMPTY_BUNDLE (R244). -/
def execEmptyBundle (id : Nat) (s : State) : Host.Outcome State Fault Refusal := .next (s.goOn id)

/-- HOLD_END (R176, R177): the held bundle is looked at again. -/
def execHoldEnd (id : Nat) (s : State) : Host.Outcome State Fault Refusal := .next (s.goOn id)

/-- TWAIT_TICK_REACHED (R287). -/
def execTwaitTickReached (id : Nat) (s : State) : Host.Outcome State Fault Refusal := .next (s.goOn id)

/-! The commit (R124) -/

/-- Whether every engine result and completion word of a task has landed. -/
def State.settled (s : State) (id : Nat) : Bool :=
  s.quiet id && s.storesOut id && s.cmds.all (fun e => e.2.task ≠ id) && s.subs.all (fun e => e.2.task ≠ id)

/-- The commit in the order of R124, and what the end of the task sets off (R61, R187, R396). -/
def State.commit (s : State) (id : Nat) : State :=
  let t := s.task id
  let s := s.modTask id fun t => { t with chunkCrc := some (s.chunkSum t), txHdr := BitVec.ofNat 64 s.deviceTime }
  let s := if t.txSlot.isNone then s
    else if s.getF PRT_STAT.RST t.part = 1 then s.freeChunk id
    else if !t.copy then s.handChunk id
    else if (s.die t.die).hbs.any fun h => h.stream = t.stream && h.period = t.period then s.freeChunk id
    else s
  let s := if t.shadow && !t.copy then s.sendHeartbeat t else s
  let s := s.rplEnd id
  let late := if 2 ≤ t.cls && t.dabort ≤ s.tick then 1 else 0
  let s := (s.appendRecord id 0 late).taskStatus id 0 late
  let s := (s.retire id .committed).modTask id fun t => { t with run := .off }
  let s := s.startWalk t
  if t.preemptReq then
    (s.tasks.filter fun e => e.2.group = t.group && e.2.st = .placing && e.2.run = .off && decide (e.2.cls < 2)).foldl
      (fun s e => s.withdraw e.1) s
  else s

/-- TASK_COMMIT (R65, R124, R189): a measured task's pass that is not the last ends instead; a chunk longer than its
slot is cause 0x58. -/
def execTaskCommit (id : Nat) (s : State) : Host.Outcome State Fault Refusal :=
  let t := s.task id
  if t.run ≠ .ending then .next s
  else if s.rplMore id then .next ((s.modTask id fun t => { t with run := .off }).sched (s.now + 1) phHost (.rplPassEnd id))
  else if s.chunkLong t then .next (s.takeFault id { cause := 0x58, slot := 8, pc := t.pc })
  else .next (s.commit id)

/-! The end of a tick -/

/-- A run whose last cycle has been sent ends: at the final bundle or at a yield (R172, R203). -/
def State.endRun (s : State) (id : Nat) : State :=
  let t := s.task id
  if !t.started || t.run ≠ .sending || t.empties ≠ 0 || !(t.yieldAfter || t.endAfter) then s
  else
    let s := ((s.stopTask id).leaveGroup id).modTask id fun t => { t with yieldAfter := false, run := if t.endAfter then .ending else .yielded }
    s.kickAll id

/-- What a task's landings of this tick bring: eligibility after a yield, or the drain of a task that is asked to stop
there, or the commit (R124, R172, R203). -/
def State.landed (s : State) (id : Nat) : State :=
  let t := s.task id
  match t.run with
  | .yielded => if !s.quiet id then s else if t.preemptReq then s.beginDrain id none 1 else s.becomeEligible id
  | .ending => if s.settled id && !s.due (.taskCommit id) then s.sched s.now phCommit (.taskCommit id) else s
  | _ => s

/-- Whether the releases of the tick wait: a commit of this tick, or a lowering that one has brought, comes before them (R117,
R127). -/
def State.unsettled (s : State) : Bool :=
  !s.lowering.isEmpty ||
  s.tasks.any fun e => e.2.resident && e.2.run = .ending && s.settled e.1 && !s.due (.taskCommit e.1)
/-- What comes before them: the tasks whose results have all landed commit, and sessions are lowered. -/
def State.settle (s : State) : State :=
  let live := (s.tasks.filter fun e => e.2.resident).map (·.1)
  (live.foldl (fun s id => (s.endRun id).landed id) s).lowerLevels

/-- Everything that is decided at the end of a tick; time goes on when nothing more is due in it. -/
def State.endTick (s : State) : State :=
  let s := s.settle
  let s := s.hostEdits.foldl (fun s e => s.bbtAccept e.1 e.2) { s with hostEdits := [] }
  let s := (((s.wakeWalks.sweepStreams).dls).idleClusters).signalsLate
  let s := s.groupsInUse.foldl (fun s g => s.startRun g) s
  match s.agenda with
  | d :: _ => if d.time ≤ s.now then s else { s with now := s.now + 1 }
  | [] => { s with now := s.now + 1 }

end Sys2Proof.Machine
end

