-- ==== Sys2Proof/Machine/Endpoint.lean ====
section
/-! DEFINITION. The Ultra Ethernet endpoint (03 R56 to R68): messages matched to receive rings and published, action chunks sent, the checkpoint engine. -/

namespace Sys2Proof.Machine

/-! Receive rings (R58 to R64) -/

/-- Slot bytes, number of slots and address of a slot of a receive ring, 512 × die + ring. -/
def State.rxSlotBytes (s : State) (k : Nat) : Nat := 2 ^ (s.getF UEE_RXQ_CFG.SLOTSZ k + 8)
def State.rxSlots (s : State) (k : Nat) : Nat := 2 ^ max 1 (s.getF UEE_RXQ_CFG.DEPTH k)
def State.rxSlotVa (s : State) (k slot : Nat) : Nat := 256 * s.getF UEE_RXQ_CFG.BASE k + slot * s.rxSlotBytes k

/-- A ring whose match entries stand by: it is shadowed and its stream is the copy on this die (R64). -/
def State.rxStandby (s : State) (k : Nat) : Bool :=
  s.getF UEE_RXQ_CFG.SHADOW k = 1 && (s.stream (k / 512) (s.getF UEE_RXQ_CFG.STREAM k)).copy

/-- Rings and entries of a partition in reset act as disabled (R62). -/
def State.rxEnabled (s : State) (k : Nat) : Bool :=
  s.getF UEE_RXQ_CFG.EN k = 1 && s.getF PRT_STAT.RST (s.getF UEE_RXQ_CFG.PRT k) = 0

/-- The ring of a message: of the lowest entry that matches (R58). -/
def State.rxMatch (s : State) (die : Nat) (m : SensorMsg) : Option Nat :=
  ((List.range 4096).find? fun e =>
    let i := 4096 * die + e
    s.getF UEE_MATCH.EN i = 1 && s.getF PRT_STAT.RST (s.getF UEE_MATCH.PRT i) = 0 &&
    s.getF UEE_MATCH.PRT i = s.getF UEE_RXQ_CFG.PRT (512 * die + s.getF UEE_MATCH.RING i) &&
    !s.rxStandby (512 * die + s.getF UEE_MATCH.RING i) &&
    s.getF UEE_MATCH.JOBID i = m.jobid.toNat && s.getF UEE_MATCH.PID i = m.pid.toNat && s.getF UEE_MATCH.RIDX i = m.ridx.toNat).map
      fun e => s.getF UEE_MATCH.RING (4096 * die + e)

/-- The endpoint writes bytes at a virtual address straight to the stack (R152). -/
def State.epWrite (s : State) (die part va : Nat) (b : List Byte) : State :=
  (pagesOf va b.length).foldl (fun s p =>
    let r := s.epXlate die part p.1 1
    let pa := r.2.pa p.1
    if r.1 ≠ 0 || paD pa then s
    else s.byLines pa ((b.drop (p.1 - va)).take p.2) fun s la d m => s.stackDrop part la d m) s

/-- The slots that a write of a ring's message needs, in the class and session of the ring's stream (R60, R143); none where
its address does not translate. -/
def State.rxTransfer (s : State) (die ring va n : Nat) (ev : Ev) : Found × State :=
  let k := 512 * die + ring
  let part := s.getF UEE_RXQ_CFG.PRT k
  let st := s.stream die (s.getF UEE_RXQ_CFG.STREAM k)
  match s.epFind die part va 1 0 ev with
  | (.hit x, s) =>
    let pa := x.pa va
    (.hit x, if paD pa || isHost pa then s.schedWithin 8000 phEndpoint ev
      else s.hbm (stackOf pa) st.cls part (ownerKey die st.session) n (some ev))
  | (.wait, s) => (.wait, s)
  | (.fault c, s) => (.fault c, s.sched (s.now + 1) phEndpoint ev)

/-- The partner's ring takes a copy of every message: the ring is shadowed, the link is up and the partner lives (R63). -/
def State.rxCopies (s : State) (die ring : Nat) : Bool :=
  let st := s.stream die (s.getF UEE_RXQ_CFG.STREAM (512 * die + ring))
  s.getF UEE_RXQ_CFG.SHADOW (512 * die + ring) = 1 && st.shadow && s.pairLive (die / 2) && !(s.die (partnerOf die)).stopped

/-- Stack of an address of a ring's partition. -/
def State.rxStack (s : State) (die ring va : Nat) : Nat :=
  stackOf ((s.epXlate die (s.getF UEE_RXQ_CFG.PRT (512 * die + ring)) va 1).2.pa va)

/-- The writes of a message on a die: its bytes with the publish word in one transfer, or in two where they lie in different
stacks. -/
def State.rxPuts (s : State) (die ring slot : Nat) : List Nat :=
  let k := 512 * die + ring
  if s.rxStack die ring (s.rxSlotVa k slot) = s.rxStack die ring (8 * s.getF UEE_RXQ_CFG.PUB k) then [2 * die] else [2 * die, 2 * die + 1]

/-- Slots are asked for a write of a message, of the ring of a home die; first its address is translated. -/
def State.rxPut (s : State) (home ring : Nat) (x : PubMsg) (put : Nat) : State :=
  let d := put / 2
  let k := 512 * d + ring
  let ev : Ev := .ringPublish (Fin.ofNat 4 home) ⟨Fin.ofNat 512 ring, x.id, Fin.ofNat 8 put⟩
  let (f, s) :=
    if put % 2 = 1 then s.rxTransfer d ring (8 * s.getF UEE_RXQ_CFG.PUB k) 8 ev
    else s.rxTransfer d ring (s.rxSlotVa k x.slot) (x.b.length + (if x.wait.contains (put + 1) then 0 else 8)) ev
  let mark (l : List Nat) : List Nat := if f = .wait then put :: l.filter (· ≠ put) else l.filter (· ≠ put)
  { s with rx := s.rx.upd (512 * home + ring) fun r =>
    { r with pubQ := r.pubQ.map fun y => if y.id = x.id then { y with look := mark y.look } else y } }

/-- A message takes the ring's next slot: its bytes are written in slots of the ring's stream, on the partner too (R59, R60,
R63). The partner's ring is taken as software has written its registers, and whether a task of the partner still holds the slot
there is not looked at (DESIGN CHOICE, notes/assumptions/86.md). -/
def State.rxAccept (s : State) (die ring : Nat) (m : SensorMsg) : State :=
  let k := 512 * die + ring
  let r := s.rx.look k
  let slot := (r.tail + r.pubQ.length) % s.rxSlots k
  let b := m.bytes.take 24 ++ natLe 8 s.deviceTime ++ m.bytes.drop 32
  let both := s.rxCopies die ring
  let x : PubMsg := { id := s.nextId, slot := slot, release := leNat (b.take 8), deadline := leNat ((b.drop 8).take 8),
                      seq := leNat ((b.drop 16).take 4), source := m.source, b := b, both := both
                      wait := s.rxPuts die ring slot ++ (if both then s.rxPuts (partnerOf die) ring slot else []) }
  let s := { s with nextId := s.nextId + 1, rx := s.rx.upd k fun r => { r with pubQ := r.pubQ ++ [x], occ := r.occ ++ [slot] } }
  let s := s.setF UEE_RXQ_STAT.OCC k (s.rx.look k).occ.length
  x.wait.foldl (fun s p => s.rxPut die ring x p) s

/-- Why a message of a ring is discarded, as the counter that counts it (R59 to R61). -/
def State.rxRefuse (s : State) (k : Nat) (m : SensorMsg) : Option CsrField :=
  let r := s.rx.look k
  let n := m.bytes.length
  if n < 32 || n ≠ leNat ((m.bytes.drop 20).take 4) + 32 || leNat ((m.bytes.drop 8).take 8) ≤ leNat (m.bytes.take 8) ||
      (s.getF UEE_RXQ_CFG.MODE k = 2 && 40000 < m.span) then some UEE_RXQ_STAT.BADHDR
  else if s.rxSlotBytes k < n then some UEE_RXQ_STAT.OVERSIZE
  else if r.occ.contains ((r.tail + r.pubQ.length) % s.rxSlots k) then some UEE_RXQ_STAT.DROPFULL
  else none

/-- SENSOR_TOKEN (R58 to R61). -/
def execSensorToken (d : Die) (m : SensorMsg) (s : State) : Host.Outcome State Fault Refusal :=
  if (s.die d.val).stopped then .next s
  else
    match (s.rxMatch d.val m).filter fun ring => s.rxEnabled (512 * d.val + ring) with
    | none => .next ((s.bump UEE_DROP_NOMATCH.COUNT d.val 1).send (.ethError d.val m.source true))
    | some ring =>
      match s.rxRefuse (512 * d.val + ring) m with
      | some f => .next (s.bump f (512 * d.val + ring) 1)
      | none => .next (s.rxAccept d.val ring m)

/-- UNSUPPORTED_REQUEST (R56). -/
def execUnsupportedRequest (d : Die) (source : Nat) (s : State) : Host.Outcome State Fault Refusal :=
  .next (if (s.die d.val).stopped then s else s.send (.ethError d.val source false))

/-- UUD_TIMEOUT (R60): an incomplete message of a UUD ring. -/
def execUudTimeout (d : Die) (ring : Fin 512) (s : State) : Host.Outcome State Fault Refusal :=
  let k := 512 * d.val + ring.val
  .next (if s.rxEnabled k && s.getF UEE_RXQ_CFG.MODE k = 2 then s.bump UEE_RXQ_STAT.BADHDR k 1 else s)

/-- A ring of a die publishes a message and releases its task (R61); a slot that no task holds is free at once. A ring whose
fields software has rewritten since EN was cleared publishes with the new ones (R62; DESIGN CHOICE,
notes/assumptions/83.md). -/
def State.publishOn (s : State) (die ring : Nat) (x : PubMsg) (own : Bool) : State :=
  let k := 512 * die + ring
  let n := s.getF UEE_RXQ_CFG.STREAM k
  let tail := ((s.rx.look k).tail + 1) % 2 ^ 32
  let s := { s with rx := s.rx.upd k fun r =>
    { r with tail := tail, lastSrc := x.source, occ := if own then r.occ else r.occ ++ [x.slot] } }
  let s := s.setF UEE_RXQ_STAT.OCC k (s.rx.look k).occ.length
  let s := s.epWrite die (s.getF UEE_RXQ_CFG.PRT k) (8 * s.getF UEE_RXQ_CFG.PUB k) (natLe 4 tail ++ natLe 4 x.seq)
  let va := s.rxSlotVa k x.slot
  let late := decide (x.deadline < s.deviceTime)
  let r := s.release die n x.release x.deadline late fun t =>
    { t with rxRing := some (ring, x.slot), rxSeq := x.seq, args := BitVec.ofNat 64 va }
  match r.1 with
  | some _ => r.2
  | none => r.2.freeRx { ({} : Task) with die := die, rxRing := some (ring, x.slot) }

/-- Whether all writes of a message are done; those on the partner count while the partner takes copies. -/
def State.rxDone (s : State) (die ring : Nat) (x : PubMsg) : Bool :=
  (x.wait.filter fun p => p / 2 = die || (x.both && s.rxCopies die ring)).isEmpty

/-- Messages whose writes are all done are published in order (R60, R63). -/
def State.publishReady (s : State) (die ring : Nat) : Nat → State
  | 0 => s
  | n + 1 =>
    let k := 512 * die + ring
    match (s.rx.look k).pubQ with
    | [] => s
    | x :: rest =>
      if !s.rxDone die ring x then s
      else
        let s := { s with rx := s.rx.upd k fun r => { r with pubQ := rest } }
        let both := x.both && s.rxCopies die ring
        let s := s.publishOn die ring x true
        (if both then s.publishOn (partnerOf die) ring x false else s).publishReady die ring n

/-- A write of a message on a die is done. -/
def State.rxWritten (s : State) (die ring : Nat) (x : PubMsg) (put : Nat) : State :=
  let d := put / 2
  let k := 512 * d + ring
  let s := { s with rx := s.rx.upd (512 * die + ring) fun r =>
    { r with pubQ := r.pubQ.map fun y => if y.id = x.id then { y with wait := y.wait.filter (· ≠ put) } else y } }
  if put % 2 = 1 || (s.die d).stopped then s else s.epWrite d (s.getF UEE_RXQ_CFG.PRT k) (s.rxSlotVa k x.slot) x.b

/-- RING_PUBLISH (R60, R61, R63): a write of a message is done, and the messages that are whole are published. Message 0
names none: the partner has stopped taking copies. -/
def execRingPublish (d : Die) (w : RingPut) (s : State) : Host.Outcome State Fault Refusal :=
  let k := 512 * d.val + w.ring
  if (s.die d.val).stopped then .next s
  else
    let s := match (s.rx.look k).pubQ.find? fun x => x.id = w.msg && x.wait.contains w.put.val with
      | some x =>
        if x.look.contains w.put.val then s.rxPut d.val w.ring.val x w.put.val else s.rxWritten d.val w.ring.val x w.put.val
      | none => s
    .next (s.publishReady d.val w.ring.val (s.rx.look k).pubQ.length)

/-! Action chunks (R65, R66) -/

/-- A chunk leaves as one send, with the ring's delivery mode, and its slot is free. -/
def State.sendChunk (s : State) (task : Nat) : State :=
  let t := s.task task
  match t.txSlot with
  | none => s
  | some (ring, slot) =>
    let k := 512 * t.die + ring
    let va := s.txSlotVa k slot
    let hdr := natLe 8 t.txHdr.toNat ++ natLe 8 t.period ++ natLe 8 t.rxSeq
    let s := s.epWrite t.die t.part (va + 8) hdr
    let b := (s.epRead t.die t.part va 8).getD [] ++ hdr ++ s.chunkBytes t
    let dest := (s.rx.look (512 * t.die + s.getF UEE_TXQ_CFG.RXQ k)).lastSrc
    (s.send (.ethSend t.die t.cls (s.getF UEE_TXQ_CFG.MODE k) dest (s.getF UEE_TXQ_CFG.RIDX k) b)).freeChunk task

/-- The chunks of a stream that have been read leave, as far as no earlier one is still being read (R66). -/
def State.sendChunks (s : State) (die stream : Nat) : State :=
  let q := sortKeys (fun t : Nat × Task => [t.2.chunkNo]) (s.tasks.filter fun e =>
    e.2.die = die && e.2.stream = stream && e.2.txSlot.isSome && decide (e.2.chunkNo ≠ 0))
  (q.takeWhile fun e => e.2.chunkRead).foldl (fun s e => s.sendChunk e.1) s

/-- ACTION_CHUNK: the chunk has been read; it leaves behind the earlier ones of its stream (R65, R66). Before, its address
may have been translated, and its slots are asked for now. -/
def execActionChunk (d : Die) (task : Nat) (s : State) : Host.Outcome State Fault Refusal :=
  if (s.die d.val).stopped || (s.task task).txSlot.isNone then .next s
  else if (s.task task).chunkLook then .next (s.chunkSlots task)
  else .next ((s.modTask task fun t => { t with chunkRead := true }).sendChunks d.val (s.task task).stream)

/-! The checkpoint engine (R67, R68) -/

/-- Fields of the descriptor. -/
def ckSrc (b : List Byte) : Nat := leNat (b.take 8)
def ckLen (b : List Byte) : Nat := leNat ((b.drop 8).take 8)
def ckDst (b : List Byte) : Nat := leNat ((b.drop 16).take 8)
def ckDone (b : List Byte) : Nat := leNat ((b.drop 32).take 8)
/-- Whether a descriptor keeps its alignments and zero fields. -/
def ckOk (b : List Byte) : Bool :=
  let f (o n : Nat) : Nat := leNat ((b.drop o).take n)
  b.length = 64 && ckSrc b % 65536 = 0 && ckLen b ≠ 0 && ckLen b % 65536 = 0 && f 27 2 < 4096 && f 29 2 < 4096 &&
  f 31 1 = 0 && ckDone b % 8 = 0 && f 48 16 = 0

/-- The partition whose tables the engine uses, a free value. -/
def ckPart (die : Nat) : Nat := Config.ckptPart die % 16

/-- Bytes from the engine's position to the end of its page. -/
def State.ckptBytes (s : State) (die : Nat) : Nat := 65536 - 64 * (s.die die).ckptPos % 65536

/-- The engine asks bulk slots for the rest of the page at its position; a sector that does not translate stops it (R68). -/
def State.ckptAsk (s : State) (die : Nat) : State :=
  let k := s.die die
  let va := ckSrc k.ckptDesc + 64 * k.ckptPos
  let ev : Ev := .ckptPage (Fin.ofNat 4 die)
  let s := s.modDie die fun k => { k with ckptLook := false }
  if ckLen k.ckptDesc ≤ 64 * k.ckptPos then s
  else
    match s.epFind die (ckPart die) va 0 (2 ^ 64 - 1) ev with
    | (.wait, s) => s.modDie die fun k => { k with ckptLook := true }
    | (.fault _, s) => s.schedSome phEndpoint (.ckptFault (Fin.ofNat 4 die) k.ckptPos)
    | (.hit x, s) =>
      let pa := x.pa va
      if paD pa || isHost pa then s.schedSome phEndpoint ev
      else s.hbm (stackOf pa) 3 (ckPart die) (ownerKey die 0) (s.ckptBytes die) (some ev)

/-- The bytes that the slots have served are read at the memory side and sent, and the engine goes on (R68); or its position has
been translated. -/
def State.ckptMove (s : State) (die : Nat) : State :=
  let k := s.die die
  let b := k.ckptDesc
  if s.getF UEE_CKPT_CTL.STATE die ≠ 1 || k.stopped then s
  else if k.ckptLook then s.ckptAsk die
  else
    let va := ckSrc b + 64 * k.ckptPos
    let n := s.ckptBytes die
    let r := s.epXlate die (ckPart die) va 0
    let pa := r.2.pa va
    if r.1 ≠ 0 then s.schedSome phEndpoint (.ckptFault (Fin.ofNat 4 die) k.ckptPos)
    else
      let data := if s.abroad pa then abroadBytes va n else s.sideBytes (ckPart die) pa n
      let f (o m : Nat) : Nat := leNat ((b.drop o).take m)
      let s := s.send (.rmaWrite die 3 (f 24 3) (f 27 2) (f 29 2) (ckDst b + 64 * k.ckptPos) data)
      (s.modDie die fun d => { d with ckptPos := d.ckptPos + n / 64 }).ckptAsk die

/-- Nothing of the engine is under way. -/
def State.ckptDrop (s : State) (die : Nat) : State :=
  let mine (e : Ev) : Bool := match e with
    | .ckptPage d => d.val = die
    | .ckptFault d _ => d.val = die
    | _ => false
  { (s.unsched fun d => mine d.ev) with
    bwsQ := s.bwsQ.map fun q => (q.1, q.2.filter fun x => !(x.ev.any mine)) }

/-- The engine runs from the first sector that it has not written. -/
def State.ckptRun (s : State) (die : Nat) : State := (s.setF UEE_CKPT_CTL.STATE die 1).ckptAsk die

/-- A start on the descriptor at an address (R67). -/
def State.ckptStart (s : State) (die va : Nat) : State :=
  match s.vread die (ckPart die) va 64 0 with
  | none => s.setF UEE_CKPT_CTL.STATE die 3
  | some b =>
    if !ckOk b then s.setF UEE_CKPT_CTL.STATE die 3
    else (s.modDie die fun d => { d with ckptDesc := b, ckptPos := 0 }).ckptRun die

/-- A write to UEE_CKPT_CTL (R67, R68). -/
def State.wrCkpt (s : State) (die : Nat) (v : BitVec 128) : State :=
  let s := s.setF UEE_CKPT_CTL.DESC die (bits v.toNat 63 6)
  if !bit v.toNat 0 then s
  else
    match s.getF UEE_CKPT_CTL.STATE die with
    | 1 => s
    | 2 => s.ckptRun die
    | _ => s.ckptStart die (64 * bits v.toNat 63 6)

/-- The engine stops at a sector (R68, R211): offered for service, with vector 3. -/
def State.ckptStop (s : State) (die sector cause : Nat) : State :=
  let va := ckSrc (s.die die).ckptDesc + 64 * sector
  let s := ((s.ckptDrop die).setF UEE_CKPT_CTL.STATE die 2).setF UEE_CKPT_RESUME.RESUME die va
  let s := s.modDie die fun d => { d with ckptPos := sector }
  let t : Task := { die := die, part := ckPart die, cls := 3 }
  let r : FaultRec := { cause := cause, slot := 9, faddr := va, engine := 0x3000 + die, resumeAt := sector }
  let s := if faultClass cause = 7 then s.mcReport die cause
    else (s.queueRecordOf t 0 r (some (3, die))).getD s
  (s.vec t.part 3).faultSnap cause

/-- CKPT_FAULT (R68): a sector that does not translate, otherwise a target that cannot be reached. -/
def execCkptFault (d : Die) (sector : Nat) (s : State) : Host.Outcome State Fault Refusal :=
  if s.getF UEE_CKPT_CTL.STATE d.val ≠ 1 then .next s
  else
    let c := (s.agentXlate d.val (ckPart d.val) (ckSrc (s.die d.val).ckptDesc + 64 * sector) 0).1
    .next (s.ckptStop d.val sector (if c = 0 then 0x31 else c))

/-- CKPT_DONE (R67): DONEVAL at DONE. -/
def execCkptDone (d : Die) (s : State) : Host.Outcome State Fault Refusal :=
  let b := (s.die d.val).ckptDesc
  if s.getF UEE_CKPT_CTL.STATE d.val ≠ 1 || decide (64 * (s.die d.val).ckptPos < ckLen b) then .next s
  else
    match s.vwrite d.val (ckPart d.val) 0 3 (ckDone b) ((b.drop 40).take 8) with
    | some s => .next (s.setF UEE_CKPT_CTL.STATE d.val 0)
    | none => .next (s.ckptStop d.val (ckLen b / 64) (s.agentXlate d.val (ckPart d.val) (ckDone b) 1).1)

end Sys2Proof.Machine
end

