-- ==== Sys2Proof/Machine/Fabric.lean ====
section
/-! DEFINITION. The Wovor link (02 R32 to R53): ports with their slots, replays and training, accesses at the window check and their answers, barriers and all-reduce across modules. -/

namespace Sys2Proof.Machine

/-! Arriving accesses (R41 to R46) -/

/-- A write of another module performs at the memory side for the window's partition (R42, R46, R152). -/
def State.remoteStore (s : State) (a : RemoteAccess) (part : Nat) (b : List Byte) (m : List Bool) : State :=
  let la := lineOf a.offset
  let o := a.offset - la
  s.sideStore (ownerDie la) part la (placed o b)
    ((List.range 128).map fun i => decide (o ≤ i) && m.getD (i - o) false) 6

/-- What an access to host memory asks for: its bytes, and an atomic as a read followed by a write (R347). -/
def State.hostPerform (s : State) (a : RemoteAccess) (part : Nat) : List Byte × State :=
  match a.kind with
  | .read => (s.sideBytes part a.offset a.len, s)
  | .write => ([], s.remoteStore a part a.bytes a.mask)
  | .atomic op w v =>
    let n := if w then 8 else 4
    let old := leNat (s.sideBytes part a.offset n)
    (natLe n old, s.remoteStore a part (natLe n (applyAtomic op.toNat (8 * n) old v.toNat)) (List.replicate n true))

/-- The answer of an access goes back: through a port, or inside the module (R41, R46). The spec does not say which class,
partition and port a response takes: it takes those of its access, partition 0 where no window decides, and the port that
R44 gives the offset among the requester's (DESIGN CHOICE, notes/assumptions/79.md). -/
def State.answer (s : State) (a : RemoteAccess) (part : Nat) (st : RespStatus) (b : List Byte) : State :=
  if a.module = s.getF FAB_DOM_CFG.MODID 0 then s.schedSome phMem (.fabResponse a.id st b)
  else
    let mask := s.routeMask a.module
    if mask = 0 then s else s.enqueue (routePort mask a.offset) a.module a.cls part (.data [.response a.id st b]) false

/-- An atomic joins the group of the interval of its issue (R164). -/
def State.joinGroup (s : State) (a : RemoteAccess) (part : Nat) (op : BitVec 4) (w : Bool) (v : Word) : State :=
  let iv := a.tick / 256
  let x : Atom := { key := a.key, pa := a.offset, interval := iv, w := w, op := op.toNat, operand := v, arrived := some a,
                    part := part }
  let s := { s with atoms := s.atoms ++ [x] }
  let ev : Ev := .atomicGroup a.offset iv
  if s.due ev then s else s.sched (max (s.groupTime iv) (s.now + 1)) phMem ev

/-- FAB_ACCESS_ARRIVE (R42): the window check, then the access; what is written to a stack is answered once its bandwidth
slots have served (R37), an atomic when its group has performed (R164). -/
def State.accessArrive (s : State) (a : RemoteAccess) : State :=
  match s.window a.offset a.len with
  | none => s.answer a 0 .windowRefused []
  | some w =>
    let part := s.getF FAB_WIN.PRT w
    if s.getF FAB_WIN.TAG w ≠ a.tag.toNat || !backed a.offset then s.answer a part .windowRefused []
    else
      match s.fabIn.find? fun e => e.1 = a with
      | some e => ({ s with fabIn := s.fabIn.erase e }).answer a part .done e.2
      | none =>
        if 2 ^ 39 ≤ a.offset then let r := s.hostPerform a part; r.2.answer a part .done r.1
        else
          match a.kind with
          | .read => (s.sideTouch part a.offset a.len).answer a part .done (s.sideBytes part a.offset a.len)
          | .write =>
            let s := s.remoteStore a part a.bytes a.mask
            { s with fabIn := s.fabIn ++ [(a, [])] }.hbm (stackOf a.offset) a.cls part (1024 + part) a.bytes.length
              (some (.fabAccessArrive a))
          | .atomic op w v => s.joinGroup a part op w v

/-- FAB_ACCESS_ARRIVE (R42). -/
def execFabAccessArrive (a : RemoteAccess) (s : State) : Host.Outcome State Fault Refusal := .next (s.accessArrive a)

/-! Answers (R46, R48) -/

/-- An access of a load ends without data: the load is gone and its bundle's task takes the fault. -/
def State.loadLost (s : State) (l : Load) (cause : Nat) : State :=
  { s with loads := s.loads.drop (· = l.id) }.raiseHere l.task
    { cause := cause, slot := 6, faddr := l.va, idx := l.idx, pc := l.pc }

/-- A walk, a line or a wait whose read of another module cannot complete (R42, R48): the cause reaches those that the walk or
the line serves, and the task that waits. -/
def State.readerLost (s : State) (f : Fabric) (cause : Nat) : State :=
  match f.walk, f.line, f.poll with
  | some (die, id), _, _ =>
    match s.miss die id with
    | some m => s.walkOver die m (cause, {})
    | none => s
  | _, some (cl, part, line), _ => s.lineLost cl part line cause
  | _, _, some core => s.raiseHere f.task { cause := cause, slot := 0, idx := core - (s.task f.task).group }
  | _, _, _ => s

/-- A walk takes its entry, an instruction cache its line, a waiting task the word that it looks at. -/
def State.readerDone (s : State) (f : Fabric) (b : List Byte) : State :=
  match f.walk, f.line, f.poll with
  | some (die, id), _, _ =>
    match s.miss die id with
    | some m => s.walkEntry die m (leNat b)
    | none => s
  | _, some (cl, part, line), _ => s.lineTake cl part line f.at_ b
  | _, _, some core => s.pollTake f.task core f.pa (leNat b)
  | _, _, _ => s

/-- What waits for an access that cannot complete takes its fault (R42, R48). -/
def State.accessLost (s : State) (f : Fabric) (cause : Nat) : State :=
  if f.walk.isSome || f.line.isSome || f.poll.isSome then s.readerLost f cause
  else
  match f.cmd, f.load, f.store, f.sub with
  | some c, _, _, _ =>
    let c := s.cmd c
    if !c.awaiting then s
    else
      let s := { s with fabric := s.fabric.filter fun e => e.2.cmd ≠ some c.id }
      if cause = 0x23 then s.cmdFault c cause (if c.writes then c.dst + c.off else c.src + c.off) else s.cmdLost c cause
  | _, some l, _, _ =>
    let l := s.loads.look l
    let s := { s with fabric := s.fabric.filter fun e => e.2.load ≠ some l.id }
    s.loadLost l cause
  | _, _, some p, _ =>
    (s.raiseHere (s.stores.look p).task { cause := cause, slot := 6, idx := (s.stores.look p).core - (s.task f.task).group }).storeAck p
  | _, _, _, some u =>
    let x := s.subs.look u
    if x.id ≠ u then s else { s with fabric := s.fabric.filter fun e => e.2.sub ≠ some u }.subFault x cause 0
  | _, _, _, _ => s

/-- The bytes that an answer gives a load, each where its piece of the access lies. -/
def Load.take (l : Load) (pa : Nat) (b : List Byte) : Load :=
  (pieceOffsets 0 l.pieces).foldl (fun l p =>
    let lo := max p.2.1 pa
    let hi := min (p.2.1 + p.2.2.1) (pa + b.length)
    if lo < hi then l.fill (p.1 + (lo - p.2.1)) ((b.drop (lo - pa)).take (hi - lo)) else l) l

/-- A sector of another module has come for a load (R142): its bytes, and where it is a whole one of a cacheable page the
copies that the LLC of the die and the L1 keep of it. -/
def State.loadSector (s : State) (f : Fabric) (id : Nat) (b : List Byte) : State :=
  let l := s.loads.look id
  if l.id ≠ id then s
  else
    let s := { s with loads := s.loads.put id (if l.atomic then l.fill f.at_ b else l.take f.pa b) }
    if l.atomic || f.noFill || b.length ≠ 64 || f.pa % 64 ≠ 0 || (l.pieces.any fun p => paD p.1 && p.2.2 ≠ 0) then s
    else
      let la := lineOf f.pa
      s.asTask l.task fun s => s.l1FillFrom l.core (s.task l.task).part la l.rd (spanMask (f.pa - la) 64) (placed (f.pa - la) b)

/-- What waits for an access takes its bytes or its acknowledgement (R46). -/
def State.accessDone (s : State) (f : Fabric) (b : List Byte) : State :=
  if f.walk.isSome || f.line.isSome || f.poll.isSome then s.readerDone f b
  else
  match f.cmd, f.load, f.store, f.sub with
  | some c, _, _, _ =>
    let k := s.cmd c
    if !k.awaiting then s
    else
      let s := s.modCmd c fun k => { k with
        acked := k.acked - 1
        buf := if k.writes then k.buf else k.buf.take f.at_ ++ b ++ k.buf.drop (f.at_ + b.length) }
      if 1 < k.acked then s
      else
        let s := s.modCmd c fun k => { k with awaiting := false, acked := 0 }
        if k.writes then (match k.unit with | some (_, _, n) => s.unitDone c n | none => s)
        else s.sched s.now (enginePhase k.eng) (.copySector c)
  | _, some l, _, _ => (s.loadSector f l b).loadArrive l
  | _, _, some p, _ => s.storeAck p
  | _, _, _, some u =>
    let x := s.subs.look u
    if x.id ≠ u || x.need = 0 then s
    else
      let s := { s with subs := s.subs.upd u fun x => { x with
        buf := putBytes x.buf f.at_ b, need := x.need - 1, pos := if f.acc.kind = .write then x.pos + 1 else x.pos } }
      if 1 < x.need then s else s.sched s.now (phRhizoid x.stack) (.rhizoidTile (Fin.ofNat 8 x.stack) u)
  | _, _, _, _ => s

/-- The core and context that issued an access, if one did. -/
def State.fabCtx (s : State) (f : Fabric) : Option (Nat × Nat) :=
  let k := s.fabWho f
  if k = 0 then none else some ((k - 1) / 8, (k - 1) % 8)

/-- FAB_RESPONSE (R46, R48): the entry returns with its answer; an answer that nothing waits for is discarded. -/
def State.fabAnswer (s : State) (id : Nat) (st : RespStatus) (b : List Byte) : State :=
  let f := s.fabric.look id
  if f.id ≠ id then s
  else
    let s := { s with fabric := s.fabric.drop (· = id) }.unsched fun d => decide (d.ev = Ev.fabTimeout id)
    let s := match st with
      | .done => s.accessDone f b
      | .windowRefused => s.accessLost f 0x23
      | .unreachable => s.accessLost f 0x31
    match s.fabCtx f with
    | some c => s.orderFree c.1 c.2 f.task
    | none => s

/-- FAB_RESPONSE (R46). -/
def execFabResponse (id : Nat) (st : RespStatus) (data : List Byte) (s : State) : Host.Outcome State Fault Refusal :=
  .next (s.fabAnswer id st data)

/-- FAB_TIMEOUT (R48): the access ends with cause 0x32. -/
def execFabTimeout (id : Nat) (s : State) : Host.Outcome State Fault Refusal :=
  let f := s.fabric.look id
  .next (if f.id ≠ id then s else { s with fabric := s.fabric.drop (· = id) }.accessLost f 0x32)

/-! Barriers across modules (R47, R50) -/

/-- FAB_BARRIER_ARRIVAL (R47). -/
def execFabBarrierArrival (bar : Fin 256) (child : Fin 64) (s : State) : Host.Outcome State Fault Refusal :=
  .next (s.childArrives bar.val child.val)

/-- A message to every child that has arrived. -/
def State.toChildren (s : State) (bar : Nat) (m : FlitMsg) : State :=
  ((s.barriers.look (domKey bar)).children.filter fun c => decide (c < 64)).foldl (fun s c => s.sendControl c 0 m) s

/-- The node of the module forwards the release to its child modules and to the instances of its dies (R47). -/
def State.domRelease (s : State) (bar : Nat) (m : FlitMsg) : State :=
  let dies := ((s.barriers.look (domKey bar)).children.filter fun c => decide (64 ≤ c)).map fun c => c - 64
  let s := s.toChildren bar m
  let s := dies.foldl (fun s d => s.barRelease (dieKey bar d)) s
  { s with barriers := s.barriers.put (domKey bar) {} }

/-- FAB_BARRIER_RELEASE (R47): forwarded to the children, and performed here. -/
def execFabBarrierRelease (bar : Fin 256) (s : State) : Host.Outcome State Fault Refusal :=
  .next (s.domRelease bar.val (.release bar.val))

/-- ALLREDUCE_CONTRIBUTION (R50): level 0 a core's, 1 a die's, 2 and 3 a child module's, which is its arrival too. -/
def execAllreduceContribution (bar : Fin 256) (level : Fin 4) (die : Die) (src : Nat) (data : List Byte) (s : State) :
    Host.Outcome State Fault Refusal :=
  let add (f : AllRed → AllRed) : State := { s with allred := s.allred.upd bar.val f }
  .next (match level.val with
    | 0 => (add fun a => { a with own := a.own ++ [(src, data)] }).domCheck bar.val
    | 1 => (add fun a => { a with dies := a.dies ++ [(die.val, data)] }).domCheck bar.val
    | _ => (add fun a => { a with mods := a.mods ++ [(src, data)] }).childArrives bar.val src)

/-- ALLREDUCE_RESULT (R50): the result lands at every DST, goes on to the children, and the barrier releases. -/
def State.reduceResult (s : State) (bar : Nat) (data : List Byte) : State :=
  let a := s.allred.look bar
  let s := a.dsts.foldl (fun s (d : Nat × Nat × Nat) =>
    let t := (s.holder d.1 d.2.1).getD 0
    s.taskSpad t d.1 d.2.1 d.2.2 data) s
  let s := { s with
    allred := s.allred.put bar {}
    cmds := s.cmds.filter fun e => !(e.2.kind = CmdKind.fred && e.2.ring = bar) }
  s.domRelease bar (.result bar data)

/-- ALLREDUCE_RESULT (R50). -/
def execAllreduceResult (bar : Fin 256) (data : List Byte) (s : State) : Host.Outcome State Fault Refusal :=
  .next (s.reduceResult bar.val data)

/-! Frames and slots (R34, R35) -/

/-- The next frame boundary looks at the ports. -/
def State.atFrame (s : State) : State :=
  if s.due .fabFrameBoundary || s.tickBase.isNone then s else s.sched (s.now + (8000 - s.tick % 8000)) phHost .fabFrameBoundary

/-- A port that has gone down leaves every mask at a frame boundary, and one that has come up rejoins those that it left
(R53). -/
def State.portFrame (s : State) (p : Nat) : State :=
  let o := s.ports.look p
  let s := { s with ports := s.ports.upd p fun o => { o with replays := 0 } }
  let put (s : State) (m : Nat) (on : Bool) : State :=
    s.setF FAB_ROUTE.PORTS m (setBits (s.getF FAB_ROUTE.PORTS m) p p (if on then 1 else 0))
  if s.getF FAB_PORT_STAT.STATE p = 2 then
    if o.rejoin then
      { o.routes.foldl (fun s m => put s m true) s with
        ports := s.ports.upd p fun o => { o with rejoin := false, fell := false, routes := [] } }
    else s
  else if !o.fell then s
  else
    let had := (List.range 64).filter fun m => bit (s.getF FAB_ROUTE.PORTS m) p
    { had.foldl (fun s m => put s m false) s with
      ports := s.ports.upd p fun o => { o with routes := o.routes ++ had.filter fun m => !o.routes.contains m } }

/-- FAB_FRAME_BOUNDARY (R34, R53). -/
def execFabFrameBoundary (s : State) : Host.Outcome State Fault Refusal :=
  .next ((List.range 36).foldl (fun s p => s.portFrame p) s)

/-- Fabric frames begin with the tick (R72): what waits at the ports is served, and the first boundary looks at them. -/
def State.startFrames (s : State) : State :=
  let s := s.ports.foldl (fun s e =>
    let ev : Ev := .fabSlot (Fin.ofNat 36 e.1)
    if (e.2.q.isEmpty && e.2.control.isEmpty) || s.due ev then s else s.sched (s.now + 32) phHost ev) s
  if s.ports.any fun e => e.2.fell || e.2.rejoin then s.atFrame else s

/-- A write to FAB_ROUTE: a port that is down leaves the new mask at the next frame boundary (R53). -/
def State.wrRoute (s : State) (m : Nat) (v : BitVec 128) : State :=
  { (s.setF FAB_ROUTE.PORTS m (bits v.toNat 35 0)).atFrame with
    ports := s.ports.foldl (fun q e => q.upd e.1 fun o => { o with routes := o.routes.filter (· ≠ m) }) s.ports }

/-- Class, in the codes of R105, and owner of a slot of the map in force; FAB_SLOT_CFG has 2 for bulk and 3 for system
(R54). -/
def slotClass (m : List (BitVec 8)) (n : Nat) : Nat × Nat :=
  let e := (m.getD n 2).toNat
  ((match bits e 1 0 with | 2 => 3 | 3 => 2 | c => c), bits e 7 4)

/-- Whether a flit must stay behind an earlier one of its context to its sector (R45). -/
def OutFlit.behind (f : OutFlit) (l : List OutFlit) : Bool :=
  let sectors (g : OutFlit) : List Nat := match g.fl.msg with
    | .data l => l.filterMap fun x => match x with | .access a => some (a.offset / 64) | _ => none
    | _ => []
  f.who ≠ 0 && l.any fun g => g.who = f.who && g.fl.target = f.fl.target && (sectors g).any fun a => (sectors f).contains a

/-- Positions in a queue of the flits that a test names and that need not stay behind another. -/
def ready (q : List OutFlit) (f : OutFlit → Bool) : List Nat :=
  (List.range q.length).filter fun i => let x := q.getD i {}; f x && !x.behind (q.take i)

/-- Up to n flits of a class taken round-robin over partitions, after the partition served last: their positions. -/
def roundRobin (q : List OutFlit) (cls : Nat) : Nat → Nat → List Nat → List Nat
  | 0, _, acc => acc
  | n + 1, last, acc =>
    let l := (ready q fun x => x.cls = cls).filter fun i => !acc.contains i
    let key (i : Nat) : Nat := ((q.getD i {}).part + 15 - last % 16) % 16
    match leastBy (fun a b => lexLt [key a, a] [key b, b]) l with
    | some i => roundRobin q cls n (q.getD i {}).part (acc ++ [i])
    | none => acc

/-- Whether two waiting parts ride in one flit (R33): new ones of one class, partition and target. -/
def OutFlit.joins (f g : OutFlit) : Bool :=
  f.fl.seq = 0 && g.fl.seq = 0 && f.cls = g.cls && f.part = g.part && f.fl.target = g.fl.target &&
  match f.fl.msg, g.fl.msg with
  | .data _, .data _ => true
  | _, _ => false

/-- Positions of a queue grouped into flits of up to three parts, at most n of them. -/
def packFlits (q : List OutFlit) (n : Nat) : List Nat → List (List Nat) → List (List Nat)
  | [], acc => acc
  | i :: l, acc =>
    let f := q.getD i {}
    match acc.findIdx? fun g => decide (g.length < 3) && (match g.head? with | some j => (q.getD j {}).joins f | none => false) with
    | some k => packFlits q n l (acc.modify k (· ++ [i]))
    | none => if acc.length < n then packFlits q n l (acc ++ [[i]]) else packFlits q n l acc

/-- What the seven data positions of a slot carry (R35): the owner's flits, or without any at the slot's start bulk,
then system. -/
def slotFlits (o : PortSt) (n : Nat) : List (List Nat) :=
  let (cls, part) := slotClass o.slotMap n
  let own := if cls ≤ 1 then ready o.q fun x => x.cls = cls && x.part = part else roundRobin o.q cls 21 o.lastPart []
  if !own.isEmpty then packFlits o.q 7 own []
  else packFlits o.q 7 (roundRobin o.q 3 21 o.lastPart [] ++ roundRobin o.q 2 21 o.lastPart []) []

/-- The flit that carries waiting parts together. -/
def packed (q : List OutFlit) (g : List Nat) : OutFlit :=
  let f := q.getD (g.headD 0) {}
  match g with
  | [_] => f
  | _ => { f with fl := { f.fl with msg := .data (g.map fun i => match (q.getD i {}).fl.msg with | .data l => l | _ => []).flatten } }

/-- A flit leaves a port: a new one gets the next sequence number (R33, R52). -/
def State.sendFlit (s : State) (p : Nat) (f : OutFlit) : State :=
  let o := s.ports.look p
  let n := if f.fl.seq = 0 then o.seqTx + 1 else f.fl.seq
  let f := { f with fl := { f.fl with seq := n } }
  let sent := (o.sent.filter fun g => g.fl.seq ≠ n) ++ [f]
  ({ s with ports := s.ports.put p { o with
      seqTx := max o.seqTx n, sent := sent.drop (sent.length - 64), lastPart := if 2 ≤ f.cls then f.part else o.lastPart } }).send
    (.flit p f.fl)

/-- FAB_SLOT (R34, R35): seven data positions, then one for control. -/
def State.slotServe (s : State) (p : Nat) : State :=
  if s.getF FAB_PORT_STAT.STATE p ≠ 2 || (s.die (p / 9)).stopped || s.tickBase.isNone then s
  else
    let o := s.ports.look p
    let take := slotFlits o (s.tick % 8000 / 32)
    let c := o.control.take 1
    let s := { s with ports := s.ports.put p { o with
      q := ((List.range o.q.length).filter fun i => !take.flatten.contains i).map fun i => o.q.getD i {}
      control := o.control.drop 1 } }
    let s := ((take.map fun g => packed o.q g) ++ c).foldl (fun s f => s.sendFlit p f) s
    let o := s.ports.look p
    if o.q.isEmpty && o.control.isEmpty then s
    else s.sched (s.now + (32 - s.tick % 32)) phHost (.fabSlot (Fin.ofNat 36 p))

/-- FAB_SLOT (R35). -/
def execFabSlot (p : Port) (s : State) : Host.Outcome State Fault Refusal := .next (s.slotServe p.val)

/-! Replays, loss and training (R36, R37, R52, R53) -/

/-- Whether a message rides in a control position. -/
def inControl (m : FlitMsg) : Bool :=
  match m with
  | .arrival _ _ | .release _ | .contribution _ _ _ | .result _ _ | .replay _ => true
  | _ => false

/-- A port's slots are served again when something waits. -/
def State.wakePort (s : State) (p : Nat) : State :=
  let o := s.ports.look p
  let e := Ev.fabSlot (Fin.ofNat 36 p)
  if (o.q.isEmpty && o.control.isEmpty) || s.due e then s else s.sched (s.now + (32 - s.tick % 32)) phHost e

/-- Training that nothing ends before has failed after 50 µs (R53). -/
def State.trainEnd (s : State) (p : Nat) : State :=
  let ev : Ev := .retrainComplete (Fin.ofNat 36 p) none
  if s.due ev then s else s.sched (s.now + 200000) phHost ev

/-- A port goes down and trains (R53). -/
def State.portDown (s : State) (p reason : Nat) : State :=
  let s := s.setF FAB_PORT_STAT.STATE p 1
  let s := if reason = 0 then s else s.setF FAB_PORT_STAT.REASON p reason
  ({ s with ports := s.ports.upd p fun o => { o with fell := true, rejoin := false } }.trainEnd p).atFrame

/-- The sender resends a flit and all after it (R52); the seventeenth replay of a frame takes the port down (R53). -/
def State.replay (s : State) (p n : Nat) : State :=
  let o := s.ports.look p
  if s.getF FAB_PORT_STAT.STATE p ≠ 2 || !(o.sent.any fun g => g.fl.seq = n) then s
  else
    let again := (o.sent.filter fun g => decide (n ≤ g.fl.seq)).map fun g => { g with fl := { g.fl with again := true } }
    let s := { s with ports := s.ports.put p { o with
      q := (again.filter fun (g : OutFlit) => !inControl g.fl.msg) ++ o.q.filter fun (g : OutFlit) => !(again.any fun h => h.fl.seq = g.fl.seq)
      control := (again.filter fun (g : OutFlit) => inControl g.fl.msg) ++ o.control.filter fun (g : OutFlit) => !(again.any fun h => h.fl.seq = g.fl.seq)
      replays := o.replays + 1 } }
    let s := (s.bump FAB_PORT_STAT.REPLAYS p 1).atFrame
    if 16 < o.replays + 1 then s.portDown p 2 else s.wakePort p

/-- REPLAY_REQUEST (R52). -/
def execReplayRequest (p : Port) (flit : Nat) (s : State) : Host.Outcome State Fault Refusal := .next (s.replay p.val flit)

/-- What a flit carries takes its way (R33). -/
def State.flitGo (s : State) (p : Nat) (m : FlitMsg) : State :=
  match m with
  | .data l => l.foldl (fun s x => match x with
    | .access a => s.sched s.now phMem (.fabAccessArrive a)
    | .response id st b => s.sched s.now phMem (.fabResponse id st b)) s
  | .arrival bar c => s.sched s.now phMem (.fabBarrierArrival (Fin.ofNat 256 bar) (Fin.ofNat 64 c))
  | .release bar => s.sched s.now phMem (.fabBarrierRelease (Fin.ofNat 256 bar))
  | .contribution bar c b => s.sched s.now phMem (.allreduceContribution (Fin.ofNat 256 bar) 2 0 c b)
  | .result bar b => s.sched s.now phMem (.allreduceResult (Fin.ofNat 256 bar) b)
  | .replay n => s.replay p n
  | .idle => s

/-- Whether a whole flit is taken (R52): not one taken before, and behind one that is asked for again only those sent again
with it. -/
def PortSt.takes (o : PortSt) (fl : Flit) : Bool :=
  !o.got.contains fl.seq && match o.want with
    | some n => fl.seq = n || (fl.again && decide (n < fl.seq))
    | none => true

/-- A flit asks the other end to send one again, in the next control position (R52). -/
def State.askReplay (s : State) (p seq : Nat) : State :=
  let s := s.enqueue p 0 0 0 (.replay seq) true
  { s with ports := s.ports.upd p fun o => { o with control := o.control.drop (o.control.length - 1) ++ o.control.take (o.control.length - 1) } }

/-- FLIT_RECEIVE (R33, R52): a flit whose CRC fails is discarded and asked for again, and the flits behind it are
discarded until they are sent again too. -/
def execFlitReceive (p : Port) (crcOk : Bool) (fl : Flit) (s : State) : Host.Outcome State Fault Refusal :=
  let o := s.ports.look p.val
  if s.getF FAB_PORT_STAT.STATE p.val ≠ 2 then .next s
  else if !crcOk then
    let n := o.want.getD fl.seq
    .next ({ s with ports := s.ports.put p.val { o with want := some n } }.askReplay p.val n)
  else if !o.takes fl then .next s
  else
    .next ({ s with ports := s.ports.put p.val { o with
      want := if o.want = some fl.seq then none else o.want, got := (fl.seq :: o.got).take 128 } }.flitGo p.val fl.msg)

/-- LANE_LOCK_LOSS (R53). -/
def execLaneLockLoss (p : Port) (s : State) : Host.Outcome State Fault Refusal :=
  .next (if s.getF FAB_PORT_STAT.STATE p.val = 2 then s.portDown p.val 1 else s)

/-- The slot map that the registers give a port. -/
def State.localMap (s : State) (p : Nat) : List (BitVec 8) :=
  (List.range 250).map fun n => BitVec.ofNat 8 (s.getF FAB_SLOT_CFG.CLASS (250 * p + n) + 16 * s.getF FAB_SLOT_CFG.PRT (250 * p + n))

/-- Data slots of a class and partition in a map. -/
def slotsIn (m : List (BitVec 8)) (cls part : Nat) : Nat :=
  ((List.range 250).filter fun n => slotClass m n = (cls, part)).length

/-- Whether two maps are identical; PRT counts in fast and slow slots only. -/
def sameMap (a b : List (BitVec 8)) : Bool :=
  (List.range 250).all fun n =>
    let x := slotClass a n
    let y := slotClass b n
    x.1 = y.1 && (decide (2 ≤ x.1) || x.2 = y.2)

/-- Whether an enabled window of a partition covers bytes of a stack (R37, R42). -/
def State.exports (s : State) (part j : Nat) : Bool :=
  (List.range 64).any fun w =>
    let b := mib2 * s.getF FAB_WIN.BASE w
    s.getF FAB_WIN.EN w = 1 && s.getF FAB_WIN.PRT w = part &&
    decide (b < j * 2 ^ 36 + 64000000000 ∧ j * 2 ^ 36 < b + mib2 * s.getF FAB_WIN.SIZE w)

/-- The ingress test of a map at a port (R37). -/
def State.ingressOk (s : State) (p : Nat) (m : List (BitVec 8)) : Bool :=
  [0, 1].all fun cls => (List.range 16).all fun part =>
    slotsIn m cls part = 0 ||
    (let others := (List.range 36).filter fun q => q ≠ p && s.getF FAB_PORT_STAT.STATE q = 2
     let n := slotsIn m cls part + (others.map fun q => slotsIn (s.ports.look q).slotMap cls part).foldl (· + ·) 0
     (List.range 8).all fun j =>
       !s.exports part j ||
       decide (1344 * n ≤ 12500 * min 512 (s.getF (if cls = 0 then BWS_FAB_IN.FAST else BWS_FAB_IN.SLOW) (16 * j + part))))

/-- A port is up with a map, and joins the route masks at the next frame boundary (R36, R53). -/
def State.portUp (s : State) (p : Nat) (m : List (BitVec 8)) : State :=
  let s := (s.setF FAB_PORT_STAT.STATE p 2).setF FAB_PORT_STAT.REASON p 0
  ({ s with ports := s.ports.upd p fun o => { o with slotMap := m, rejoin := true, want := none, got := [] } }.atFrame).wakePort p

/-- Accesses sent on a port, and what waits there, go out on the ports of the masks without it; where there is none, on
it again if it is up, and otherwise they end as unreachable (R48, R53). -/
def State.moveAccesses (s : State) (p : Nat) : State :=
  let up := s.getF FAB_PORT_STAT.STATE p = 2
  let o := s.ports.look p
  let s := { s with ports := s.ports.put p { o with
    q := o.q.filter fun f => match f.fl.msg with
      | .data l => l.any fun x => match x with | .access _ => false | .response .. => true
      | _ => true } }
  (s.fabric.filter fun e => e.2.port = p && !e.2.inside && e.2.module ≠ s.getF FAB_DOM_CFG.MODID 0).foldl
    (fun s e =>
      let mask := s.routeMask e.2.module
      let mask := if bit mask p then mask - 2 ^ p else mask
      let q := if mask = 0 then (if up then some p else none) else some (routePort mask e.2.pa)
      match q with
      | some q =>
        { s with fabric := s.fabric.upd e.1 fun f => { f with port := q } }.enqueue q e.2.module e.2.acc.cls e.2.part (.data [.access e.2.acc]) false
          (s.fabWho e.2)
      | none => s.sched (s.now + 1) phMem (.fabResponse e.1 .unreachable [])) s

/-- Training of a port ends: it comes up with a partner whose map is identical and passes the ingress test (R36), otherwise it
stays down with a reason. Accesses sent on it take their way again (R53). -/
def State.trained (s : State) (p : Nat) (partner : Bool) (map : List (BitVec 8)) : State :=
  let s := s.unsched fun d => decide (d.ev = Ev.retrainComplete (Fin.ofNat 36 p) none)
  let stay (r : Nat) : State := ((s.setF FAB_PORT_STAT.STATE p 0).setF FAB_PORT_STAT.REASON p r).atFrame
  let s :=
    if !partner then stay (if s.getF FAB_PORT_STAT.REASON p = 0 then 4 else s.getF FAB_PORT_STAT.REASON p)
    else if sameMap map (s.localMap p) && s.ingressOk p map then s.portUp p map
    else stay 3
  s.moveAccesses p

/-- RETRAIN_COMPLETE (R36, R53), with the map that the partner sent, or none where retraining has failed. A retraining that fails without another reason ends with 4,
no partner (DEDUCED, notes/assumptions/80.md). -/
def execRetrainComplete (p : Port) (map : Option (List (BitVec 8))) (s : State) : Host.Outcome State Fault Refusal :=
  .next (if s.getF FAB_PORT_STAT.STATE p.val = 1 then s.trained p.val map.isSome (map.getD []) else s)

/-- LINK_TRAINING_DONE (R36): the first training of a port, or one under way. A port whose training has failed stays down until
RETRAIN is written (R53). -/
def execLinkTrainingDone (p : Port) (partner : Bool) (map : List (BitVec 8)) (s : State) :
    Host.Outcome State Fault Refusal :=
  let st := s.getF FAB_PORT_STAT.STATE p.val
  .next (if st = 2 || (st = 0 && s.getF FAB_PORT_STAT.REASON p.val ≠ 0) then s else s.trained p.val partner map)

/-- Training of a port starts (R53). -/
def State.startTraining (s : State) (p : Nat) : State :=
  if s.getF FAB_PORT_STAT.STATE p = 2 then (s.setF FAB_PORT_STAT.REASON p 0).portDown p 0
  else ((s.setF FAB_PORT_STAT.STATE p 1).setF FAB_PORT_STAT.REASON p 0).trainEnd p

/-! Registers -/

/-- A write to FAB_WIN (R43): a size of zero leaves the window disabled with ERR set. -/
def State.wrFabWin (s : State) (w : Nat) (v : BitVec 128) : State :=
  let x := v.toNat
  let s := if bit x 1 then s.setF FAB_WIN.ERR w 0 else s
  let s := (((s.setF FAB_WIN.SIZE w (bits x 107 88)).setF FAB_WIN.BASE w (bits x 87 69)).setF FAB_WIN.TAG w (bits x 63 48)).setF
    FAB_WIN.PRT w (bits x 7 4)
  if bits x 107 88 = 0 then (s.setF FAB_WIN.EN w 0).setF FAB_WIN.ERR w 1 else s.setF FAB_WIN.EN w (bits x 0 0)

/-- A write to BWS_FAB_IN (R37): ignored when the class's reservations would pass its slot count. -/
def State.wrFabIn (s : State) (n : Nat) (v : BitVec 128) : State :=
  let j := n / 16
  let x := v.toNat
  let s' := (s.setF BWS_FAB_IN.FAST n (bits x 9 0)).setF BWS_FAB_IN.SLOW n (bits x 25 16)
  if s'.getF BWS_FRAME_CFG.FAST j < s'.slotSum j 0 [] s'.levelOf none ||
      s'.getF BWS_FRAME_CFG.SLOW j < s'.slotSum j 1 [] s'.levelOf none then
    s.setF BWS_USE.ERR j 1
  else s'

/-- A write to FAB_PORT_CTL (R53). -/
def State.wrPortCtl (s : State) (p : Nat) (v : BitVec 128) : State := if bit v.toNat 0 then s.startTraining p else s

end Sys2Proof.Machine
end

