-- ==== Sys2Proof/Machine/Clock.lean ====
section
/-! DEFINITION. The PTP clock (03 R69 to R74): its states, the second boundary with the servo, steps, the start of the tick; Ethernet links. -/

namespace Sys2Proof.Machine

/-- Cycles of the 4 GHz clock in n seconds. -/
def seconds (n : Nat) : Nat := n * 4000000000

/-- The timing port in force: PORT, or BACKUP while its link is down (R70). -/
def State.timingPort (s : State) : Nat :=
  let p := s.getF PTC_CFG.PORT 0
  if s.ethUp.getLsbD p then p else s.getF PTC_CFG.BACKUP 0

/-- Whether a partition has an admitted fast stream. -/
def State.hasFast (s : State) (part : Nat) : Bool := s.streams.any fun e => e.2.valid && e.2.cls = 0 && e.2.part = part

/-- ALARM rises: the PF's vector 3, and vector 5 of every partition with a fast stream (R71, R83). -/
def State.ptpAlarm (s : State) : State :=
  if s.getF PTC_STAT.ALARM 0 = 1 then s
  else
    let s := (s.setF PTC_STAT.ALARM 0 1).pfVec 3
    (List.range 16).foldl (fun s p => if s.hasFast p then s.vec p 5 else s) s

/-- Whether the offset is within OFFMAX. -/
def State.inOffmax (s : State) : Bool := decide (s.ptp.offset.natAbs ≤ s.getF PTC_CFG.OFFMAX 0)

/-- Whether the clock takes a message: the timing port in force, PROFILE, TRANSPORT and DOMAIN (R70). -/
def State.takesPtp (s : State) (m : PtpMsg) : Bool :=
  m.port = s.timingPort && m.profile = s.getF PTC_CFG.PROFILE 0 &&
  m.transport = (if s.getF PTC_CFG.TRANSPORT 0 = 3 then 0 else s.getF PTC_CFG.TRANSPORT 0) &&
  m.domain = min 127 (s.getF PTC_CFG.DOMAIN 0)

/-- The best of the masters heard: the least dataset (R70). -/
def State.bestMaster (s : State) : Option (List Nat) := leastBy (fun a b => lexLt a b) s.ptp.masters

/-- An announcement: its sender's dataset takes the place of its earlier one, and the best master is selected; a master newly
selected brings Locking (R70, R71). -/
def State.announce (s : State) (m : PtpMsg) : State :=
  let l := (s.ptp.masters.filter fun x => x.getLast? ≠ m.master.getLast?) ++ [m.master]
  let s := { s with ptp := { s.ptp with masters := l } }
  let best := s.bestMaster
  let same := (best.bind (·.getLast?)) = (s.ptp.master.bind (·.getLast?))
  if same then { s with ptp := { s.ptp with master := best } }
  else
    { (s.unsched fun d => decide (d.ev = Ev.lockwaitExpire ∨ d.ev = Ev.holdmaxExpire)).setF PTC_STAT.STATE 0 1 with
      ptp := { s.ptp with master := best, good := 0, heard := false, within := false } }

/-- A measured offset of the selected master (R71). -/
def State.measureOffset (s : State) (o : Int) : State :=
  let s := { s with ptp := { s.ptp with offset := o, heard := true } }
  let s := s.setF PTC_OFFSET.OFS 0 (o % (2 ^ 64 : Int)).toNat
  let s : State := if s.inOffmax then s else { s with ptp := { s.ptp with good := 0, within := false } }
  if s.getF PTC_STAT.STATE 0 = 1 && !s.inOffmax then s.ptpAlarm else s

/-- PTP_MESSAGE (R70, R71): an announcement goes to the best master clock algorithm; a timing message of the selected master
gives an offset. -/
def execPtpMessage (m : PtpMsg) (s : State) : Host.Outcome State Fault Refusal :=
  if !s.takesPtp m then .next s
  else match m.offset with
    | none => .next (s.announce m)
    | some o =>
      .next (if s.ptp.master.isSome && (s.ptp.master.bind (·.getLast?)) = m.master.getLast? then s.measureOffset o else s)

/-- The bounds of INCR (R71). -/
def incrMin : Nat := 2 ^ 46 - 1759218604
def incrMax : Nat := 2 ^ 46 + 1759218604

/-- The cycle at which device time reaches a value, with the INCR in force (R73). -/
def State.cycleAt (s : State) (ns : Nat) : Nat := s.ptp.t + ceilDiv ((ns - s.ptp.s) * 2 ^ 48) (max 1 s.incr)

/-- The next second boundary is due (R73). -/
def State.nextSecond (s : State) : State :=
  s.sched (max (s.now + 1) (s.cycleAt ((s.ptp.s / 1000000000 + 1) * 1000000000))) phHost .ptpSecondBoundary

/-- The tick starts at the first boundary after the clock has first been Locked, or after LOCKWAIT in Free-run; frames run
from then on (R72). -/
def State.startTicks (s : State) : State :=
  let st := s.getF PTC_STAT.STATE 0
  if s.tickBase.isSome || !(s.ptp.reached || (st = 0 && s.ptp.waited)) then s
  else
    let s := ({ s with tickBase := some s.now }.setF PTC_STAT.TICKRUN 0 1).setF PTC_EPOCH.SEC 0
      (if s.ptp.reached then s.ptp.s / 1000000000 else 0)
    ((List.range 8).foldl (fun s j =>
      if (s.bwsQ.look j).isEmpty then s else s.sched (s.now + bwsWait 0) phHost (.bwsSlot (Fin.ofNat 8 j))) s).startFrames

/-- The servo's correction (R71): a free value within the bounds while a master is followed, nothing in Holdover. -/
def State.servo (s : State) : State :=
  match s.getF PTC_STAT.STATE 0 with
  | 0 => s.setF PTC_INCR.INCR 0 (2 ^ 46)
  | 3 => s
  | _ => (s.setF PTC_INCR.INCR 0 (s.freeIn incrMin incrMax)).freed

/-- Sixteen whole seconds within OFFMAX, one after the other, lock the clock (R71). -/
def State.countLock (s : State) : State :=
  if s.getF PTC_STAT.STATE 0 ≠ 1 then s
  else
    let n := if s.ptp.within && s.inOffmax then s.ptp.good + 1 else 0
    let s := { s with ptp := { s.ptp with good := n, within := s.ptp.heard && s.inOffmax } }
    if 16 ≤ n then { s.setF PTC_STAT.STATE 0 2 with ptp := { s.ptp with reached := true } } else s

/-- Timer releases follow the conversion in force (R73, R106). -/
def State.retime (s : State) : State :=
  let s := s.unsched fun d => match d.ev with | .timerRelease _ _ => true | _ => false
  s.streams.foldl (fun s e =>
    if e.2.valid && e.2.timer && !e.2.leaving then
      s.schedTick (s.timerTick e.2) phReady (.timerRelease (Fin.ofNat 4 (e.1 / 1024)) (Fin.ofNat 1024 e.1))
    else s) s

/-- Whether a fast or slow stream is admitted on the module. -/
def State.anyAdmitted (s : State) : Bool := s.streams.any fun e => e.2.valid && decide (e.2.cls < 2)

/-- PTP_SECOND_BOUNDARY (R69, R71 to R73): S and T are latched, a pending step moves device time, the tick may start, the
servo sets INCR until the next boundary. A step is not taken once a fast or slow stream is admitted, and STEPREF is set
(DEDUCED, notes/assumptions/85.md). At the boundary at which the clock moves to another die INCR stays and no step is taken;
a pending one waits for the next. -/
def execPtpSecondBoundary (s : State) : Host.Outcome State Fault Refusal :=
  let sec := (s.deviceTime + 500000000) / 1000000000 * 1000000000
  let die := if (s.die 0).stopped || (s.die 0).heldInReset then 2 else 0
  let moves := decide (die ≠ s.getF PTC_STAT.PRIMARY 0)
  let step := s.ptp.stepPending && !moves && !s.anyAdmitted
  let s := if s.ptp.stepPending && s.anyAdmitted then s.setF PTC_STAT.STEPREF 0 1 else s
  let ns := if step then ((sec : Int) - s.ptp.offset).toNat else sec
  let s := { s with ptp := { s.ptp with s := ns, t := s.now, stepPending := s.ptp.stepPending && moves && !s.anyAdmitted } }
  let s := s.setF PTC_STAT.PRIMARY 0 die
  let s := s.startTicks.countLock
  let s := if moves then s else s.servo
  let s := if s.tickBase.isSome then s.retime else s
  .next s.nextSecond

/-- LOCKWAIT_EXPIRE (R71): the clock stays in Free-run; a LOCKWAIT set higher meanwhile is waited for. -/
def execLockwaitExpire (s : State) : Host.Outcome State Fault Refusal :=
  let due := s.ptp.from_ + seconds (max 1 (s.getF PTC_CFG.LOCKWAIT 0))
  if s.getF PTC_STAT.STATE 0 ≠ 0 then .next s
  else if s.now < due then .next (s.sched due phHost .lockwaitExpire)
  else .next { s with ptp := { s.ptp with waited := true } }

/-- MASTER_LOST (R71): Holdover, INCR frozen. -/
def execMasterLost (s : State) : Host.Outcome State Fault Refusal :=
  let st := s.getF PTC_STAT.STATE 0
  if st ≠ 1 && st ≠ 2 then .next s
  else .next ({ s.setF PTC_STAT.STATE 0 3 with ptp := { s.ptp with master := none, masters := [] } }.sched (s.now + seconds (s.getF PTC_CFG.HOLDMAX 0)) phHost .holdmaxExpire)

/-- HOLDMAX_EXPIRE (R71). -/
def execHoldmaxExpire (s : State) : Host.Outcome State Fault Refusal :=
  .next (if s.getF PTC_STAT.STATE 0 = 3 then s.ptpAlarm else s)

/-- ETH_LINK_DOWN (R70): the timing port in force follows. -/
def execEthLinkDown (p : EthPort) (s : State) : Host.Outcome State Fault Refusal :=
  .next { s with ethUp := s.ethUp &&& ~~~ (1#8 <<< p.val) }

/-- ETH_LINK_UP (R70). -/
def execEthLinkUp (p : EthPort) (s : State) : Host.Outcome State Fault Refusal :=
  .next { s with ethUp := s.ethUp ||| (1#8 <<< p.val) }

/-- A write to PTC_CTL (R71): a step is pending, or refused while a fast or slow stream is admitted. -/
def State.wrPtcCtl (s : State) (v : BitVec 128) : State :=
  if !bit v.toNat 0 then s
  else if s.anyAdmitted then s.setF PTC_STAT.STEPREF 0 1
  else { s with ptp := { s.ptp with stepPending := true } }

/-- PTC_TIME_LO_READ (R74): device time and tick latched for the reading function. -/
def execPtcTimeLoRead (f : Fn) (s : State) : Host.Outcome State Fault Refusal :=
  .next { s with latch := s.latch.put f.val (s.deviceTime, s.tick) }

end Sys2Proof.Machine
end

