-- ==== Sys2Proof/Machine/Thermal.lean ====
section
/-! DEFINITION. Thermal states, freezes and trips of a die (01 R26 to R28), dies that stop (08 R213), machine checks (08 R212). -/

namespace Sys2Proof.Machine

/-! Stops -/

/-- Whether a partition has a resource of R80 on a die: a cluster, a way, a block of its stacks, bandwidth slots of them,
slots of its ports, enabled Ethernet entries or rings, an enabled launch queue, or an enabled signal window bound there
(DEDUCED, notes/assumptions/71.md). -/
def State.hasPart (s : State) (part die : Nat) : Bool :=
  ((List.range 12).any fun c => s.ownsCluster part (12 * die + c)) ||
  bits (s.getF PRT_LLC_WAYS.MASK part) (32 * die + 31) (32 * die) ≠ 0 ||
  ((List.range 128).any fun b =>
    s.getF PRT_MEM_OWN.EN (128 * die + b) = 1 && s.getF PRT_MEM_OWN.PRT (128 * die + b) = part) ||
  ((List.range 2).any fun j =>
    let k := 16 * (2 * die + j) + part
    s.getF BWS_FAB_IN.FAST k ≠ 0 || s.getF BWS_FAB_IN.SLOW k ≠ 0) ||
  ((s.streams.any fun e => e.1 / 1024 = die && e.2.valid && e.2.part = part)) ||
  ((List.range 2250).any fun i =>
    let k := 2250 * die + i
    s.getF FAB_SLOT_CFG.CLASS k < 2 && s.getF FAB_SLOT_CFG.PRT k = part) ||
  ((List.range 4096).any fun e => s.getF UEE_MATCH.EN (4096 * die + e) = 1 && s.getF UEE_MATCH.PRT (4096 * die + e) = part) ||
  ((List.range 512).any fun r =>
    let k := 512 * die + r
    (s.getF UEE_RXQ_CFG.EN k = 1 && s.getF UEE_RXQ_CFG.PRT k = part) ||
    (s.getF UEE_TXQ_CFG.EN k = 1 && s.getF UEE_TXQ_CFG.PRT k = part)) ||
  s.getF HIF_LQ_CFG.EN (16 * die + part) = 1 ||
  (List.range 64).any fun w => s.getF HIF_SIG_CFG.EN (64 * part + w) = 1 && s.getF HIF_SIG_CFG.DIE (64 * part + w) = die

/-- Whether something due belongs to a die's cores, clusters or scheduler. -/
def Ev.ofDie (e : Ev) (d : Nat) : Bool :=
  match e with
  | .writeLanding c _ _ _ | .samplerOpBegin c | .samplerOpLand c | .wcbDrain c _ | .signalDeferredStore c _ => c.val / 96 = d
  | .clusterGate c | .wakeComplete c | .icacheFill c _ _ | .tgWalkResume c _ | .l1ModeDone c => c.val / 12 = d
  | .checkTick x _ _ | .freezeTimeout x | .timerRelease x _ | .admissionComplete x | .tableWalkDone x _ | .ringPublish x _
  | .actionChunk x _ | .ckptFault x _ | .bflipPerform x _ | .bflipReplayDone x _ => x.val = d
  | .fabSlot p | .retrainComplete p _ => p.val / 9 = d
  | _ => false

/-- A task of a stopped die ends without status or record (R213). -/
def State.loseTask (s : State) (t : Nat) : State :=
  let s := (s.stopCmds t).unsched fun d => match d.ev with
    | .taskReady u | .deadlineAbort u => decide (u = t)
    | e => e.drives t
  (s.leaveGroup t).modTask t fun x => { x with st := .aborted, run := .off, occ := false }

/-- A die stops (R28, R213): it issues and sends nothing more, and the others detect it within 1 µs. -/
def State.dieStop (s : State) (d cause : Nat) : State :=
  if (s.die d).stopped then s
  else
    let s := s.linksChange fun s => s.modDie d fun k => { k with stopped := true, stopCause := cause, frozen := none }
    let s := (s.tasks.filter fun e => e.2.die = d && (match e.2.st with
      | .committed | .aborted | .refused => false
      | _ => true)).foldl (fun s e => s.loseTask e.1) s
    (s.unsched fun e => e.ev.ofDie d).schedWithin 4000 phHost (.dieStopDetect (Fin.ofNat 4 d))

/-- DIE_STOP_DETECT (R213): the lowest-numbered survivor reports. -/
def execDieStopDetect (d : Die) (s : State) : Host.Outcome State Fault Refusal :=
  match (List.range 4).find? fun x => !(s.die x).stopped with
  | none => .next s
  | some x =>
    if !(s.die d.val).stopped then .next s
    else
      let s := (s.mcReport x (s.die d.val).stopCause).faultSnap (s.die d.val).stopCause
      let s := (s.tasks.filter fun e => e.2.die = d.val).foldl (fun s e => s.launchBroken e.1) s
      .next ((List.range 16).foldl (fun s p => if s.hasPart p d.val then s.vec p 3 else s) s)

/-! Thermal states -/

/-- The die trips (R26, R28). -/
def State.trip (s : State) (d : Nat) : State := (s.setTherm DLS_THERM_STAT.STATE d 3).dieStop d 0x37

/-- A freeze begins (R26, R27). -/
def State.freeze (s : State) (d : Nat) : State :=
  let on := s.sessionsOn d
  let s := s.modDie d fun k => { k with frozen := some s.now, frozenSessions := on }
  let s := (s.sessionsOf d).foldl (fun s x => s.dirty d x) s
  let s := s.setTherm DLS_THERM_STAT.FREEZECNT d (min (s.getF DLS_THERM_STAT.FREEZECNT d + 1) DLS_THERM_STAT.FREEZECNT.top)
  (s.setTherm DLS_THERM_STAT.STATE d 2).sched (s.now + 1600000) phHost (.freezeTimeout (Fin.ofNat 4 d))

/-- A freeze ends: the sessions placed at its first tick rise one level (R27), and signals set aside perform (R88). -/
def State.thaw (s : State) (d state : Nat) : State :=
  let on := (s.die d).frozenSessions
  let s := s.unsched fun e => decide (e.ev = Ev.freezeTimeout (Fin.ofNat 4 d))
  let s := (s.modDie d fun k => { k with frozen := none, frozenSessions := [] }).setTherm DLS_THERM_STAT.STATE d state
  let s := (s.sessionsOf d).foldl (fun s x => s.dirty d x) s
  let s := on.foldl (fun s x => s.raiseLevel d x) s
  let held (c x : Nat) : Bool := match s.holder c x with | some t => (s.task t).run = .holding | none => false
  ((s.sigDef.filter fun e => decide (e.1 / 96 = d) && !held e.1 e.2.1).map fun e => (e.1, e.2.1)).eraseDups.foldl (fun s e =>
    s.sched s.now phSignal (.signalDeferredStore (Fin.ofNat 384 e.1) (Fin.ofNat 8 e.2))) s

/-- THERMAL_SAMPLE (R26, R31). -/
def execThermalSample (d : Die) (temp : Nat) (s : State) : Host.Outcome State Fault Refusal :=
  let d := d.val
  let s := s.setTherm DLS_THERM_STAT.TEMP d (min 255 temp)
  let st := s.getF DLS_THERM_STAT.STATE d
  .next (
    if st = 3 || (s.die d).stopped then s
    else if 115 ≤ temp then s.trip d
    else if st = 2 then (if temp < 100 then s.thaw d (if temp < 90 then 0 else 1) else s)
    else if 105 ≤ temp then s.freeze d
    else if 95 ≤ temp then s.setTherm DLS_THERM_STAT.STATE d 1
    else if st = 1 && temp < 90 then s.setTherm DLS_THERM_STAT.STATE d 0
    else s)

/-- FREEZE_TIMEOUT (R26): a freeze of 400 µs trips the die. -/
def execFreezeTimeout (d : Die) (s : State) : Host.Outcome State Fault Refusal :=
  .next (if (s.die d.val).frozen.isSome then s.trip d.val else s)

/-! Machine checks -/

/-- A machine check on the task that holds a context, or on none (R212). -/
def State.mcTask (s : State) (d cause : Nat) (t : Option Nat) : State :=
  match t with
  | some t =>
    if (s.task t).resident && (s.task t).run ≠ .aborting then s.raiseHere t { cause := cause }
    else (s.mcReport d cause).faultSnap cause
  | none => (s.mcReport d cause).faultSnap cause

/-- The task on a core whose header names an accumulator bank (R183). -/
def State.bankHolder (s : State) (core q : Nat) : Option Nat :=
  (s.tasks.find? fun e => e.2.resident && decide (e.2.group ≤ core ∧ core < e.2.group + e.2.team) &&
    bit (e.2.hdrNat 24 2) q).map (·.1)

/-- MACHINE_CHECK (R212). -/
def execMachineCheck (d : Die) (cause : BitVec 8) (target : McTarget) (s : State) : Host.Outcome State Fault Refusal :=
  let c := cause.toNat
  if (s.die d.val).stopped then .next s
  else
    .next (match target with
      | .die => if c = 0x37 then s.trip d.val else if c = 0x38 then s.dieStop d.val c else (s.mcReport d.val c).faultSnap c
      | .register core x w =>
        (s.mcTask d.val c (s.holder core.val x.val)).modBank (ctxOf core.val x.val) fun b => { b with s := b.s.put w.val 0 }
      | .spad core x off => (s.mcTask d.val c (s.holder core.val x.val)).spadStore core.val x.val (off - off % 8) (natLe 8 0)
      | .bank core q t =>
        let owner := ((s.core core.val).cube.find? fun o => o.bank = q.val).map (·.task)
        let s := s.mcTask d.val c (owner.or (s.bankHolder core.val q.val))
        s.modCore core.val fun k => { k with tiles := k.tiles.put (16 * q.val + t.val) 0 }
      | .sector t _ => s.mcTask d.val c (some t))

/-- CORRECTED_ERROR (R212). -/
def execCorrectedError (d : Die) (s : State) : Host.Outcome State Fault Refusal := .next (s.bump DST_MC_STAT.CE d.val 1)

end Sys2Proof.Machine
end

