-- ==== Sys2Proof/Machine/Host.lean ====
section
/-! DEFINITION. The host interface's launches and signals (04 R84 to R88), partitions' ownership (04 R81) and their resets (04 R89 to R93). -/

namespace Sys2Proof.Machine

/-- The SR-IOV capability (R77): TotalVFs, First VF Offset and VF Stride. -/
def sriov : Nat × Nat × Nat := (16, 1, 1)
/-- Size in bytes of BAR 0, 2 and 4 of the physical function and of a virtual one (R77). -/
def barBytes (f n : Nat) : Nat :=
  if n = 4 then 128 * 2 ^ 20 else if f = 0 then (if n = 0 then 256 * 2 ^ 20 else 0)
  else if n = 0 then 4 * 2 ^ 20 else if n = 2 then 65536 else 0
/-- The host writes NumVFs; in recovery the write is ignored (R77, R98). Configuration space has no operation in the table. -/
def State.setNumVfs (s : State) (n : Nat) : State :=
  if s.getF SJ_STAT.RECOVERY 0 = 1 then s else { s with numVfs := min 16 n }

/-- Whether virtual function f serves an active partition (R77, R98). -/
def State.vfUp (s : State) (f : Nat) : Bool :=
  s.hostUp && f ≠ 0 && decide (f ≤ s.numVfs) && s.getF PRT_CTL.EN (f - 1) = 1 && s.getF SJ_STAT.RECOVERY 0 = 0

/-! Launches (R84, R85) -/

/-- Entries of a launch queue: a block occupies one while its check of 16 ticks runs (R84, R87). -/
def State.lqOcc (s : State) (k : Nat) : Nat := ((s.lq.look k).filter fun a => decide (s.now < a + 16)).length

/-- A push that is dropped: counted, with vector 1. -/
def State.lqDrop (s : State) (f : CsrField) (k : Nat) : State := (s.bump f k 1).vec (k % 16) 1

/-- The first cause of R85 that applies to a block, or 0. -/
def State.blockCause (s : State) (die part : Nat) (b : List Byte) : Nat :=
  let word := natAt b 48 2
  let st := s.stream die (word % 1024)
  let now := s.deviceTime
  let rel := if natAt b 16 8 = 0 then now else natAt b 16 8
  let dl := natAt b 24 8
  let done := natAt b 32 8
  if !st.valid || st.part ≠ part || st.copy || st.leaving then 1
  else if natAt b 50 1 % 4 ≠ st.cls then 2
  else if dl ≤ rel || dl ≤ now then 3
  else if 1024 ≤ word || 4 ≤ natAt b 50 1 || 2 ≤ natAt b 51 1 || 4096 ≤ natAt b 52 2 || natAt b 54 2 ≠ 0 then 4
  else if natAt b 0 8 % 128 ≠ 0 then 5
  else if done % 16 ≠ 0 || (s.rangeFault die part done 16 1).isSome then 6
  else 0

/-- A block in the queue: rejected with its status, or a release of its stream. -/
def State.launchBlock (s : State) (die part : Nat) (b : List Byte) : State :=
  let k := 16 * die + part
  let now := s.now
  let s := { s with lq := s.lq.upd k fun l => l.filter (fun a => decide (now < a + 16)) ++ [now] }
  let c := s.blockCause die part b
  let done := natAt b 32 8
  let doneVal := natAt b 40 8
  let tag := natAt b 56 8
  let intr := natAt b 51 1 % 2 = 1
  if c ≠ 0 then
    let s := if c = 6 then s else s.statusPair die part 0 (natAt b 50 1 % 4) done doneVal tag intr 3 c
    s.lqDrop HIF_LQ_STAT.REJECT k
  else
    let rel := if natAt b 16 8 = 0 then s.deviceTime else natAt b 16 8
    (s.release die (natAt b 48 2 % 1024) rel (natAt b 24 8) false fun t =>
      { t with
        doneVa := done, doneVal := BitVec.ofNat 64 doneVal, tag := tag, intr := intr, hasDone := true
        profile := natAt b 52 2, args := BitVec.ofNat 64 (natAt b 8 8)
        var := if 2 ≤ t.cls then { t.var with kernel := natAt b 0 8 } else t.var }).2

/-- LAUNCH_PUSH (R84): a write TLP to a push window; `block` is none for one that is no aligned block of 64 bytes. -/
def execLaunchPush (f : Fn) (d : Die) (block : Option (BitVec 512)) (s : State) : Host.Outcome State Fault Refusal :=
  let part := f.val - 1
  let k := 16 * d.val + part
  if !s.vfUp f.val then .next s
  else
    match block with
    | none => .next (s.lqDrop HIF_LQ_STAT.BADPUSH k)
    | some b =>
      if s.getF HIF_LQ_CFG.EN k = 0 || s.getF PRT_STAT.RST part = 1 || s.getF SJ_STAT.READY 0 = 0 || s.tickBase.isNone ||
          (s.die d.val).stopped || 2 ^ min 8 (s.getF HIF_LQ_CFG.DEPTH k) ≤ s.lqOcc k then
        .next (s.lqDrop HIF_LQ_STAT.OVF k)
      else .next (s.launchBlock d.val part (natLe 64 b.toNat))

/-! Signals (R88) -/

/-- A signal performs, or is dropped with SIGDROP where its word lies outside the context's partition. -/
def State.sigPerform (s : State) (core ctx off : Nat) (v : Word) (part : Nat) : State :=
  if (s.die (core / 96)).stopped then s
  else if (s.bank (ctxOf core ctx)).holds off 8 && s.ownsCluster part (core / 8) then
    s.taskSpad ((s.holder core ctx).getD 0) core ctx off (natLe 8 v.toNat)
  else s.setF PRT_STAT.SIGDROP part 1

/-- The signals in arrival order; one that waits keeps the later ones of its partition waiting. -/
def State.drainList (s : State) (blocked : List Nat) : List (Nat × Nat × Nat × Word × Nat) → State
  | [] => s
  | (core, ctx, off, v, part) :: rest =>
    if blocked.contains part || s.sigHeld core ctx then
      ({ s with sigDef := s.sigDef ++ [(core, ctx, off, v, part)] }).drainList (part :: blocked) rest
    else (s.sigPerform core ctx off v part).drainList blocked rest
def State.drainSignals (s : State) : State := { s with sigDef := [] }.drainList [] s.sigDef

/-- HOST_SIGNAL (R88): the store performs among the engines' writes of the tick (R157), or after the hold or freeze. -/
def execHostSignal (f : Fn) (i : Fin 64) (v : Word) (s : State) : Host.Outcome State Fault Refusal :=
  let part := f.val - 1
  let k := 64 * part + i.val
  if !s.vfUp f.val || s.getF PRT_STAT.RST part = 1 then .next s
  else if s.getF HIF_SIG_CFG.EN k = 0 then .next (s.setF PRT_STAT.SIGDROP part 1)
  else
    let core := 96 * s.getF HIF_SIG_CFG.DIE k + 8 * s.getF HIF_SIG_CFG.CLUSTER k + s.getF HIF_SIG_CFG.CORE k
    let ctx := s.getF HIF_SIG_CFG.CTX k
    let s := { s with sigDef := s.sigDef ++ [(core, ctx, 8 * s.getF HIF_SIG_CFG.OFFSET k, v, part)] }
    .next (s.sched s.now phSignal (.signalDeferredStore (Fin.ofNat 384 core) (Fin.ofNat 8 ctx)))

/-- SIGNAL_DEFERRED_STORE (R88). -/
def execSignalDeferredStore (_core : Core) (_ctx : Fin 8) (s : State) : Host.Outcome State Fault Refusal :=
  .next s.drainSignals

/-! Scrubbing (R81, R90) -/

/-- Registers, scratchpads, L1s, accumulators, table memory and energy counters of a cluster read zero. -/
def State.scrubCluster (s : State) (cl : Nat) : State :=
  let now := s.now
  let s := (List.range 8).foldl (fun s i =>
    let core := 8 * cl + i
    let s := (s.modCore core fun _ => { idleTo := now }).csrPut .CCC_EIDLE core 0
    (List.range 8).foldl (fun s x =>
      (s.modBank (ctxOf core x) fun _ => { fmt := 0 }).csrPut .CCC_ECNT (ctxOf core x) 0) s) s
  s.modCluster cl fun c => { gated := c.gated, wakingTo := c.wakingTo, busy := c.busy, idleSince := c.idleSince }

/-- A way of a die's LLC is empty; its dirty lines are discarded. -/
def State.scrubWay (s : State) (die way : Nat) : State := s.modDie die fun d => { d with llc := d.llc.drop fun k => k % 32 = way }

/-- The clusters and ways of two masks. -/
def State.scrubMasks (s : State) (clusters ways : Nat) : State :=
  let s := (List.range 48).foldl (fun s c => if bit clusters c then s.scrubCluster c else s) s
  (List.range 128).foldl (fun s w => if bit ways w then s.scrubWay (w / 32) (w % 32) else s) s

/-! Ownership (R81) -/

/-- Bits of an ownership register that other partitions hold. -/
def State.ownedElse (s : State) (f : CsrField) (p : Nat) : Nat :=
  ((List.range 16).filter (· ≠ p)).foldl (fun m q => Nat.lor m (s.getF f q)) 0

/-- Whether a task stands on a cluster, or is being placed on it. -/
def State.clusterHeld (s : State) (cl : Nat) : Bool :=
  s.tasks.any fun e => (e.2.resident || e.2.st = .placing) && e.2.group / 8 = cl

/-- A write to PRT_CLUSTERS or PRT_LLC_WAYS. -/
def State.wrOwner (s : State) (ways : Bool) (p : Nat) (v : BitVec 128) : State :=
  let f := if ways then PRT_LLC_WAYS.MASK else PRT_CLUSTERS.MASK
  let new := bits v.toNat f.hi 0
  let old := s.getF f p
  let both := Nat.land old new
  let add := new - both
  let gone := old - both
  let busy := s.scrubbing.foldl (fun m e => e.2.foldl (fun m x => Nat.lor m (if ways then bits x.toNat 175 48 else bits x.toNat 47 0)) m) 0
  if Nat.land add (s.ownedElse f p) ≠ 0 || Nat.land add busy ≠ 0 ||
      (!ways && (List.range 48).any fun c => bit gone c && s.clusterHeld c) then
    s.setF PRT_STAT.CFGERR p 1
  else
    let s := s.setF f p new
    if gone = 0 then s
    else
      let m : BitVec 176 := BitVec.ofNat 176 (if ways then gone * 2 ^ 48 else gone)
      let s := { s with scrubbing := s.scrubbing.upd p fun l => l ++ [m] }.setF PRT_STAT.BUSY p 1
      s.schedWithin 600000 phMem (.prtScrubDone (Fin.ofNat 16 p))

/-- PRT_SCRUB_DONE (R81, R408): what the oldest ownership write under way has removed is scrubbed. BUSY is 0 once none is
under way. -/
def execPrtScrubDone (p : Part) (s : State) : Host.Outcome State Fault Refusal :=
  let l := s.scrubbing.look p.val
  let m := (l.headD 0).toNat
  let s := s.scrubMasks (bits m 47 0) (bits m 175 48)
  .next ({ s with scrubbing := s.scrubbing.put p.val l.tail }.setF PRT_STAT.BUSY p.val (if l.tail.isEmpty then 0 else 1))

/-! Partition reset (R89 to R93) -/

/-- Tasks of a partition that a test picks. -/
def State.partTasks (s : State) (p : Nat) (f : Task → Bool) : List Nat :=
  (s.tasks.filter fun e => e.2.part = p && f e.2).map (·.1)

/-- The fence (R90): releases, signals and pushes stop, the ready tasks and timers of the partition are withdrawn. -/
def State.resetFence (s : State) (p : Nat) : State :=
  if s.getF PRT_STAT.RST p = 1 then s
  else
    let s := s.setF PRT_STAT.RST p 1
    let waiting := s.partTasks p fun t => match t.st with | .pending | .deferred | .ready | .placing => true | _ => false
    let s := waiting.foldl (fun s t => (if (s.task t).st = .placing then s.withdraw t else s).dropTask t) s
    let mine (d n : Nat) : Bool := (s.stream d n).valid && (s.stream d n).part = p
    let s := s.unsched fun e => match e.ev with
      | .timerRelease d n => mine d.val n.val
      | .checkTick d n _ => mine d.val n
      | .attReport q => decide (q.val = p)
      | _ => false
    let s := { s with
      sigDef := s.sigDef.filter fun e => decide (e.2.2.2.2 ≠ p)
      lq := s.lq.drop fun k => k % 16 = p }
    let s := (List.range 4).foldl (fun s d =>
      let test : Bool := match (s.die d).regTest with | some a => decide (a.part = p) | none => false
      let s := s.modDie d fun k => { k with regQ := k.regQ.filter fun r => decide (r.1 ≠ p) }
      if test then
        ((s.modDie d fun k => { k with regTest := none }).unsched fun e =>
          decide (e.ev = Ev.admissionComplete (Fin.ofNat 4 d))).nextTest d
      else s) s
    s.schedWithin 8000 phHost (.resetStop (Fin.ofNat 16 p))

/-- A task stops without status or record, with its commands (R90, R86). -/
def State.resetTask (s : State) (t : Nat) : State :=
  let k := s.task t
  let s := s.loseTask t
  if k.resident then k.idxs.foldl (fun s i => s.discardCore t (k.coreAt i) k.ctx) s else s

/-- RESET_STOP (R90, R92): every context stops but one in its drain stub; commands and transfers stop, and outstanding
fabric accesses are abandoned. -/
def execResetStop (p : Part) (s : State) : Host.Outcome State Fault Refusal :=
  let stop := s.partTasks p.val fun t => t.resident && t.run ≠ .draining
  let s := stop.foldl (fun s t => s.resetTask t) s
  let s := { s with
    cmds := s.cmds.drop fun i => (s.cmds.look i).part = p.val
    subs := s.subs.drop fun i => (s.subs.look i).part = p.val
    fabric := s.fabric.drop fun i => (s.fabric.look i).part = p.val }
  let s := (List.range 4).foldl (fun s d => s.enginesNext d) s
  .next (s.schedWithin 80000 phHost (.resetScrub p))

/-- A register's fields return to their reset values, but for those kept (R10, R91). -/
def State.csrFresh (s : State) (c : Csr) (i : Nat) (keep : CsrField → Bool) : State :=
  (csrFields c).foldl (fun s f => if f.acc ≠ .wo && !keep f then s.setF f i f.reset else s) s

/-- The registers that a partition writes, on a die (R91). -/
def State.freshDie (s : State) (p d : Nat) : State :=
  let none_ : CsrField → Bool := fun _ => false
  let k := 16 * d + p
  let s := ((s.csrFresh .HIF_LQ_CFG k none_).csrFresh .HIF_LQ_STAT k none_).csrFresh .DLS_TREC_CFG k none_
  let s := (s.csrFresh .DST_SVC_CFG k none_).csrFresh .DST_SVC_CTL k none_
  let s := ((s.csrFresh .DST_SAVE_BASE k none_).csrFresh .MSL_SUB_BASE k none_).csrPut .DLS_REG_CTL k 0
  let s := (s.csrFresh .BBT_EDIT_CTL k none_).csrFresh .BBT_STAT k none_
  let s := { s with bbt := s.bbt.put k {} }.unsched fun e => match e.ev with
    | .bflipPerform x q | .bflipReplayDone x q => decide (x.val = d ∧ q.val = p)
    | .prtLockDone x q _ => decide (x.val = d ∧ q.val = p)
    | .tlbiDone q => decide (q.val = p)
    | _ => false
  let s := (List.range 4).foldl (fun s i => s.csrFresh .BBT_EDIT_DATA (4 * k + i) none_) s
  let s := (List.range 16).foldl (fun s i => s.csrPut .PRT_LOCK (16 * k + i) 0) s
  let s := (List.range 4096).foldl (fun s e =>
    let n := 4096 * d + e
    if s.getF UEE_MATCH.PRT n = p then s.csrFresh .UEE_MATCH n (· = UEE_MATCH.PRT) else s) s
  (List.range 512).foldl (fun s r =>
    let n := 512 * d + r
    let s := if s.getF UEE_RXQ_CFG.PRT n = p then
        { (s.csrFresh .UEE_RXQ_CFG n (· = UEE_RXQ_CFG.PRT)).csrFresh .UEE_RXQ_STAT n none_ with rx := s.rx.put n {} } else s
    if s.getF UEE_TXQ_CFG.PRT n = p then
      { s.csrFresh .UEE_TXQ_CFG n (· = UEE_TXQ_CFG.PRT) with tx := s.tx.put n {} } else s) s

/-- The registers that a partition writes in a cluster of its own (R91). -/
def State.freshCluster (s : State) (cl : Nat) : State :=
  let s := ((s.csrPut .CCC_L1_CFG cl 0).csrPut .CCC_RPL_CTL cl 0).csrPut .CCC_RPL_BUF cl 0
  let s := (s.csrPut .CCC_TG_STAT cl 0).unsched fun e => decide (e.ev = Ev.l1ModeDone (Fin.ofNat 48 cl))
  let s := { s with l1New := s.l1New.put cl none }
  let s := (List.range 4).foldl (fun s i => s.csrPut .CCC_RPL_EVT (4 * cl + i) 0) s
  let s := (List.range 32).foldl (fun s i => s.csrPut .CCC_EVT (32 * cl + i) 0) s
  (List.range 8).foldl (fun s i => s.csrFresh .ADM_GRP (8 * cl + i) fun _ => false) s

/-- RESET_SCRUB (R90, R91). -/
def execResetScrub (p : Part) (s : State) : Host.Outcome State Fault Refusal :=
  let p := p.val
  let s := (s.partTasks p fun t => t.resident || (match t.st with | .parked | .evicted => true | _ => false)).foldl
    (fun s t => s.resetTask t) s
  let clusters := s.getF PRT_CLUSTERS.MASK p
  let s := s.scrubMasks clusters (s.getF PRT_LLC_WAYS.MASK p)
  let s := s.dropXlates fun x => x.part = p
  let s := (List.range 4).foldl (fun s d =>
    (s.freshDie p d).modDie d fun k => { k with lockArr := k.lockArr.filter fun x => decide (x.part ≠ p) }) s
  let s := (List.range 48).foldl (fun s c => if bit clusters c then s.freshCluster c else s) s
  let s := (List.range 64).foldl (fun s i => s.csrFresh .HIF_SIG_CFG (64 * p + i) fun _ => false) s
  let s := (List.range 4).foldl (fun s i => s.csrPut .PRT_ATT_NONCE (4 * p + i) 0) s
  let s := (s.csrPut .PRT_ATT_CTL p 0).csrFresh .PRT_TLBI p fun _ => false
  let s := { s with svcAwait := s.svcAwait.filter fun a => decide (a.1 % 16 ≠ p) }
  .next (s.schedWithin 712000 phHost (.resetRelease (Fin.ofNat 16 p)))

/-- The interface's own registers after a function level reset of the PF (R89). -/
def State.freshInterface (s : State) : State :=
  if !s.flr || (List.range 16).any (fun p => s.getF PRT_STAT.RST p = 1) then s
  else
    let s := { s with flr := false, lq := [] }
    let s := (List.range 64).foldl (fun s k => (s.csrPut .HIF_LQ_CFG k (csrReset .HIF_LQ_CFG)).csrPut .HIF_LQ_STAT k 0) s
    let s := (List.range 16).foldl (fun s p => s.csrPut .HIF_QOS p (csrReset .HIF_QOS)) s
    (List.range 1024).foldl (fun s k => s.csrPut .HIF_SIG_CFG k 0) s

/-- RESET_RELEASE (R90): the streams of the partition and their reservations are gone. -/
def execResetRelease (p : Part) (s : State) : Host.Outcome State Fault Refusal :=
  let own := (s.streams.filter fun e => e.2.valid && e.2.part = p.val).map (·.1)
  let s := own.foldl (fun s n => s.freeStream (n / 1024) (n % 1024)) s
  let s := (s.setF PRT_STAT.RST p.val 0).vec p.val 0
  .next s.freshInterface

/-- VF_FLR (R89). -/
def execVfFlr (p : Part) (s : State) : Host.Outcome State Fault Refusal :=
  .next (if s.hostUp then s.resetFence p.val else s)

/-- PF_FLR (R89). -/
def execPfFlr (s : State) : Host.Outcome State Fault Refusal :=
  .next (if s.hostUp then (List.range 16).foldl (fun s p => s.resetFence p) { s with flr := true } else s)

end Sys2Proof.Machine
end

