-- ==== Sys2Proof/Machine/Regs.lean ====
section
/-! DEFINITION. What a control register reads (the register tables of the chapters), and which a virtual function may read (R31, R54, R75, R103, R131, R165, R193, R214, R386). -/

namespace Sys2Proof.Machine

/-- A value placed in a field. -/
def CsrField.at_ (f : CsrField) (v : Nat) : BitVec 128 := BitVec.ofNat 128 (min v f.top * 2 ^ f.lo)

/-- STATE of a context in CCC_CTX (R193). -/
def Task.ctxState (t : Task) : Nat :=
  if t.st = .parked then 6
  else
    match t.run with
    | .eligible => 2
    | .sending | .ending => 3
    | .holding => 4
    | .draining => 5
    | .restoring => 7
    | .off | .yielded | .blocked | .aborting => 1

/-- The task that heads a group's order (R118): a system or bulk task only while no band-0 task is ready or running there. -/
def State.readyHead (s : State) (g : Nat) : Option Task :=
  (headOf ((s.onGroup g).filter fun e => if e.2.cls < 2 then e.2.st = .ready || (e.2.st = .parked && !e.2.awaitSvc)
    else e.2.st = .placing && !s.band0 g)).map (·.2)

/-- A register as a function reads it: fields that show other state of the module are computed from it. -/
def State.regView (s : State) (f : Nat) (c : Csr) (i : Nat) : BitVec 128 :=
  let v := s.csrVal c i
  match c with
  | .PTC_TIME_LO => PTC_TIME_LO.NS.at_ (s.deviceTime % 2 ^ 32)
  | .PTC_TIME_HI => PTC_TIME_HI.NS.at_ ((s.latch.look f).1 / 2 ^ 32 % 2 ^ 32)
  | .PTC_LATCH_TICK => PTC_LATCH_TICK.TICK.at_ (s.latch.look f).2
  | .CCC_CTX =>
    match s.holder (i / 8) (i % 8) with
    | none => 0
    | some t =>
      let t := s.task t
      CCC_CTX.STATE.at_ t.ctxState ||| CCC_CTX.DYN.at_ (if t.dynamic then 1 else 0) ||| CCC_CTX.PC.at_ (t.pc.toNat % 2 ^ 57)
  | .DLS_READY_HEAD =>
    match s.readyHead i with
    | none => 0
    | some t =>
      DLS_READY_HEAD.VALID.at_ 1 ||| DLS_READY_HEAD.DORD.at_ t.dord ||| DLS_READY_HEAD.PERIOD.at_ (t.period % 2 ^ 32) |||
        DLS_READY_HEAD.STREAM.at_ t.stream
  | .PRT_WALK_STAT =>
    let q := (s.die i).walkQ
    PRT_WALK_STAT.INUSE.at_ (q.filter (·.held)).length ||| PRT_WALK_STAT.QUEUED.at_ (q.filter (!·.held)).length
  | .MSL_STAT => v ||| MSL_STAT.ACTIVE.at_ (s.subCount i)
  | .BWS_USE =>
    v ||| BWS_USE.FASTRES.at_ (s.slotSum i 0 [] s.levelOf none) ||| BWS_USE.SLOWRES.at_ (s.slotSum i 1 [] s.levelOf none)
  | .ADM_GRP => v ||| ADM_GRP.DENS.at_ (s.density i [] (s.levelOf (i / 96)))
  | .CCC_TG_STAT => v ||| CCC_TG_STAT.ACTIVE.at_ ((s.cluster i).walks.filter (·.running)).length
  | .HIF_LQ_STAT => v ||| HIF_LQ_STAT.OCC.at_ (s.lqOcc i)
  | .PRT_MEM_OWN =>
    match s.memOwnNew.look i with
    | none => v
    | some n => (v &&& 0xE0) ||| PRT_MEM_OWN.PRT.at_ (n % 16) ||| PRT_MEM_OWN.EN.at_ (n / 16)
  | .CCC_L1_CFG =>
    match s.l1New.look i with
    | none => v
    | some m => (v &&& 0x6) ||| CCC_L1_CFG.FUSED.at_ (if m then 1 else 0)
  | .CCC_EIDLE => (s.accountIdle i s.now).csrVal .CCC_EIDLE i
  | _ => v

/-- Whether a register instance is a partition's own: its entries, queues, windows, sessions, groups and clusters. -/
def State.regOwn (s : State) (p : Nat) (c : Csr) (i : Nat) : Bool :=
  match c with
  | .UEE_MATCH => s.getF UEE_MATCH.PRT i = p
  | .UEE_RXQ_CFG | .UEE_RXQ_STAT => s.getF UEE_RXQ_CFG.PRT i = p
  | .UEE_TXQ_CFG => s.getF UEE_TXQ_CFG.PRT i = p
  | .HIF_LQ_CFG | .HIF_LQ_STAT | .DLS_REG_CTL | .DLS_TREC_CFG | .DST_SVC_CFG | .DST_SVC_CTL | .DST_SAVE_BASE
  | .MSL_SUB_BASE | .BBT_CFG | .BBT_EDIT_CTL | .BBT_STAT | .BWS_FAB_IN => i % 16 = p
  | .BBT_EDIT_DATA => i / 4 % 16 = p
  | .PRT_LOCK => i / 16 % 16 = p
  | .HIF_SIG_CFG => i / 64 = p
  | .PRT_ATT_NONCE => i / 4 = p
  | .PRT_ATT_CTL | .PRT_TLBI | .PRT_CLUSTERS | .PRT_LLC_WAYS | .PRT_TT_ROOT | .PRT_CTL | .PRT_RESET | .PRT_STAT
  | .HIF_QOS | .FAB_PTAG => i = p
  | .DLS_SES => s.getF DLS_SES.VALID i = 1 && s.getF DLS_SES.PRT i = p
  | .ADM_GRP | .DLS_READY_HEAD => s.ownsCluster p (i / 8)
  | .CCC_L1_CFG | .CCC_RPL_CTL | .CCC_RPL_BUF | .CCC_TG_STAT => s.ownsCluster p i
  | .CCC_RPL_EVT => s.ownsCluster p (i / 4)
  | .CCC_EVT => s.ownsCluster p (i / 32)
  | .CCC_CTX | .CCC_ECNT => s.ownsCluster p (i / 64)
  | .DLS_THERM_STAT => s.hasPart p i
  | _ => false

/-- The registers that a virtual function reads, its own or the module's. -/
def State.vfReads (s : State) (p : Nat) (c : Csr) (i : Nat) : Bool :=
  match c with
  | .FAB_PORT_STAT | .BWS_USE | .MSL_STAT | .SJ_STAT | .SNP_CTL | .SNP_STAT | .SNP_TICK
  | .PTC_TIME_LO | .PTC_TIME_HI | .PTC_LATCH_TICK | .PTC_EPOCH | .PTC_INCR | .PTC_OFFSET | .PTC_STAT | .PTC_CTL => true
  | _ => s.regOwn p c i

/-- A host partition fault (R83). -/
def State.accErr (s : State) (p : Nat) : State := ((s.setF PRT_STAT.ACCERR p 1).pfVec 2).faultSnap 0x21

/-- A host read of a register by a function: the value, and the state after (R8, R74, R83). -/
def State.hostRead (s : State) (f : Nat) (c : Csr) (i : Nat) : BitVec 128 × State :=
  if f = 0 then (if s.hostUp then (s.regView 0 c i, s) else (0, s))
  else if !s.vfUp f then (0, s)
  else if s.vfReads (f - 1) c i then (s.regView f c i, s)
  else (0, s.accErr (f - 1))

end Sys2Proof.Machine
end

