-- ==== Sys2Proof/Machine/Start.lean ====
section
/-! DEFINITION. The measured start (04 R94 to R98), attestation (04 R99), snapshots (04 R100 to R102), and loss of power. -/

namespace Sys2Proof.Machine

/-! The journal (R96) -/

/-- Steps with an image, optional steps, and the bound of a step in cycles (R94). -/
def stepImage (n : Nat) : Bool := decide (1 ≤ n ∧ n ≤ 9)
def stepOptional (n : Nat) : Bool := n = 5 || n = 7 || n = 8
def stepMillis (n : Nat) : Nat := [10, 50, 100, 2000, 100, 1000, 100, 500, 500, 50].getD n 0
def stepBound (n : Nat) : Nat := stepMillis n * 4000000

/-- A mark of SJ_MARKS: bit 2s SKIP, bit 2s + 1 ALT. -/
def State.mark (s : State) (d n : Nat) : Bool := bit (s.getF SJ_MARKS.MARKS d) n
/-- The slot whose image a step runs (R97). -/
def State.stepSlot (s : State) (d n : Nat) : Bool := stepImage n && ((s.die d).startImg ^^ s.mark d (2 * n + 1))

/-- A journal record of this boot; the newest 4,096 stay (R96). The PF's vector 4 tells it once the host link is trained,
and in recovery. -/
def State.record (s : State) (d n event : Nat) (img : Bool) (code : BitVec 16) : State :=
  let r : Journal := { boot := s.getF SJ_STAT.BOOT 0, step := n, die := d, event := event, img := img, code := code }
  let l := s.journal ++ [r]
  let s := { s with journal := l.drop (l.length - 4096) }
  if 6 < (s.die 0).startStep || s.getF SJ_STAT.RECOVERY 0 = 1 then s.pfVec 4 else s

/-- The 16 bytes of a record. -/
def Journal.bytes (r : Journal) : List Byte :=
  let b := natLe 2 0 ++ natLe 2 r.code.toNat ++
    natLe 4 (bits (r.event * 4 + (if r.img then 2 else 0)) 5 0 * 65536 + bits r.step 7 0 * 2 ^ 24 + bits r.die 1 0 * 2 ^ 22) ++ natLe 4 r.boot
  natLe 4 (crc32 b).toNat ++ b

/-- The steps of a die that failed in a boot: a Fail record, or a Begin that neither ended nor was cut short by the restart
after a Fail (R96, R98). -/
def failedSteps (j : List Journal) (boot d : Nat) : List Nat :=
  let l := j.filter fun r => decide (r.boot = boot)
  let has (n e : Nat) : Bool := l.any fun r => decide (r.die = d ∧ r.step = n ∧ r.event = e)
  let cut := l.any fun r => decide (r.event = 3)
  (List.range 11).filter fun n => has n 3 || (has n 1 && !has n 2 && !cut)

/-! Steps (R94) -/

/-- A die goes on at a step: what is not applicable or skipped is recorded and passed over. -/
def State.beginStep (s : State) (d : Nat) : Nat → Nat → State
  | 0, _ => s
  | k + 1, n =>
    if n = 6 && d ≠ 0 then (s.record d n 5 false 0).beginStep d k (n + 1)
    else if stepOptional n && s.mark d (2 * n) then (s.record d n 4 false 0).beginStep d k (n + 1)
    else
      let s := (s.modDie d fun x => { x with startStep := n, starting := true }).record d n 1 (s.stepSlot d n) 0
      if n < 10 then s.sched (s.now + stepBound n) phHost (.startStepTimeout (Fin.ofNat 4 d)) else s

/-- Marks that the failed steps of the previous boot set on a die (R97). -/
def State.markDie (s : State) (failed : List Nat) (d : Nat) : State :=
  failed.foldl (fun s n =>
    let b := if n = 0 then (if d = 0 then none else some 0) else if n = 10 then none
      else if stepOptional n then some (2 * n) else some (2 * n + 1)
    match b with
    | some b => if s.mark d b then s else s.setF SJ_MARKS.MARKS d (s.getF SJ_MARKS.MARKS d + 2 ^ b)
    | none => s) s

/-- A start (R94, R97): marks, then recovery or step 0 on every die that is not held in reset. -/
def State.startBoot (s : State) : State :=
  let prev := s.getF SJ_STAT.BOOT 0
  let s := match (s.journal.filter fun r => decide (r.boot = prev)).getLast? with
    | some r => ((s.setF SJ_LAST_STEP.STEP 0 r.step).setF SJ_LAST_STEP.DIE 0 r.die).setF SJ_LAST_STEP.EVENT 0 r.event
    | none => s
  let s := if s.sjClear then { (List.range 4).foldl (fun s d => s.setF SJ_MARKS.MARKS d 0) s with sjClear := false } else s
  let failed (d : Nat) : List Nat := failedSteps s.journal prev d
  let stuck := (List.range 4).any fun d => (failed d).any fun n =>
    n = 10 || (stepImage n && !stepOptional n && s.mark d (2 * n + 1))
  let s := (List.range 4).foldl (fun s d => s.markDie (failed d) d) s
  let s := s.setF SJ_STAT.BOOT 0 ((prev + 1) % 2 ^ 32)
  let img := s.getF SJ_CFG.PRIMARY 0 = 1
  if stuck then (s.setF SJ_STAT.RECOVERY 0 1).record 0 0 6 false 0
  else (List.range 4).foldl (fun s d =>
    if (s.die d).stopped then s
    else if d ≠ 0 && s.mark d 0 then
      (s.modDie d fun x => { x with heldInReset := true, stopped := true }).record d 0 4 false 0
    else (s.modDie d fun x => { x with startImg := img }).beginStep d 11 0) s

/-- What survives a loss of power: flash, the host's memory, and the model's own counts; the boot count and the marks are
kept in flash. -/
def State.kept (s : State) : State :=
  let t : State :=
    { seq := s.seq, free := s.free, nextId := s.nextId, out := s.out, flash := s.flash, journal := s.journal
      sjClear := s.sjClear, hostDeny := s.hostDeny, mem := s.mem.filter fun c => decide (2 ^ 39 ≤ c.1) }
  let t := t.setF SJ_STAT.BOOT 0 (s.getF SJ_STAT.BOOT 0)
  (List.range 4).foldl (fun t d => t.csrPut .SJ_MARKS d (s.csrVal .SJ_MARKS d)) t

/-- The registers of the clock, which runs on through a restart (R94). -/
def clockRegs : List Csr :=
  [.PTC_TIME_LO, .PTC_TIME_HI, .PTC_LATCH_TICK, .PTC_EPOCH, .PTC_INCR, .PTC_OFFSET, .PTC_CFG, .PTC_STAT, .PTC_CTL]

/-- What a power-on reset alone ends (R26, R31): a die that has stopped stays stopped, its state with it, and the freezes
stay counted. -/
def State.keepStops (s t : State) : State :=
  (List.range 4).foldl (fun t d =>
    let t := t.setF DLS_THERM_STAT.FREEZECNT d (s.getF DLS_THERM_STAT.FREEZECNT d)
    let k := s.die d
    if k.stopped && !k.heldInReset then
      (t.setF DLS_THERM_STAT.STATE d (s.getF DLS_THERM_STAT.STATE d)).modDie d fun x => { x with stopped := true, stopCause := k.stopCause }
    else t) t

/-- A restart of every die from step 0 (R96, R98): the clock and the tick go on, memory stays, and a die that has stopped
stays so. -/
def State.restart (s : State) : State :=
  let t := s.keepStops s.kept
  let t := clockRegs.foldl (fun t c => t.csrPut c 0 (s.csrVal c 0)) (t.csrPut .SJ_CFG 0 (s.csrVal .SJ_CFG 0))
  { t with
    now := s.now, tickBase := s.tickBase, ptp := s.ptp, latch := s.latch, mem := s.mem, ethUp := s.ethUp, pairUp := s.pairUp
    crossDown := s.crossDown, pairLost := s.pairLost
    agenda := s.agenda.filter fun d => decide (d.ev = Ev.ptpSecondBoundary ∨ d.ev = Ev.lockwaitExpire ∨ d.ev = Ev.holdmaxExpire)
    }.startBoot

/-- POWER_ON_RESET (R10, R71, R94). -/
def execPowerOnReset (s : State) : Host.Outcome State Fault Refusal :=
  let s := s.kept.nextSecond
  .next (s.sched (seconds (max 1 (s.getF PTC_CFG.LOCKWAIT 0))) phHost .lockwaitExpire).startBoot

/-- POWER_LOSS (R96): nothing runs until the next power-on reset. -/
def execPowerLoss (s : State) : Host.Outcome State Fault Refusal :=
  let s := (List.range 4).foldl (fun s d => s.modDie d fun x => { x with stopped := true }) s.kept
  .next { s with powered := false }

/-- A die's step is over. -/
def State.stepOver (s : State) (d : Nat) : State :=
  (s.unsched fun e => decide (e.ev = Ev.startStepTimeout (Fin.ofNat 4 d))).modDie d fun x => { x with starting := false }

/-- Dies at step 1 or beyond find an absent one: they write Fail for it, with the code of a timeout (DESIGN CHOICE,
notes/assumptions/88.md), and the module restarts (R96). -/
def State.seekAbsent (s : State) : State :=
  match (List.range 4).find? fun d => (s.die d).absent with
  | none => s
  | some d =>
    if (List.range 4).any fun x => x ≠ d && (s.die x).starting && decide (1 ≤ (s.die x).startStep) then
      (s.record d 0 3 false 0xFFFF).restart
    else s

/-- A step fails (R96, R97): the module restarts; it halts at step 0 of die 0, and another die stays in reset there. -/
def State.stepFail (s : State) (d : Nat) (code : BitVec 16) : State :=
  let n := (s.die d).startStep
  if n = 0 && d ≠ 0 then ((s.stepOver d).modDie d fun k => { k with absent := true }).seekAbsent
  else
  let s := s.record d n 3 (s.stepSlot d n) code
  if n = 0 && d = 0 then
    let s := s.unsched fun e => match e.ev with | .startStepTimeout _ => true | _ => false
    { (List.range 4).foldl (fun s x => s.modDie x fun k => { k with starting := false }) s with halted := true }
  else s.restart

/-- The checks of a step's image, in order: its digest, its signature under a key whose digest is fused and not revoked, and
its version (R95). -/
def State.imageCheck (s : State) (d n : Nat) (slot : Bool) : ImageCheck :=
  let b := Config.stepImage (s.flash.look (if slot then 1 else 0)) d n
  let key (i : Nat) : Bool := Config.imageKey b = Config.fusedKey d i && !Config.keyRevoked d i
  { digest := Config.sm3 b, keyIdx := !key 0 && key 1, version := Config.imageVersion b
    signatureOk := Config.imageSigned b && (key 0 || key 1)
    versionOk := decide (Config.minVersion d ≤ (Config.imageVersion b).toNat) }

/-- The attestation key of a die, of its secret and the digests of steps 1 and 2, and its certificate (R99). -/
def State.deriveKey (s : State) (d : Nat) : State :=
  let digest (n : Nat) : BitVec 256 := ((s.meas.filter fun m => m.die = d && m.step = n).getLast?.map (·.check.digest)).getD 0
  let k := Config.attestKey d (digest 1) (digest 2)
  s.modDie d fun x =>
    { x with attKey := k, attCert := Config.sm2Sign (Config.deviceKey d) (Config.sm3 (Config.publicKey k)) }

/-- START_STEP_PASS (R94, R95): the step in work passes; a failed check of its image fails it with a code of the firmware's own.
Step 10 passes only once the tick runs. -/
def execStartStepPass (d : Die) (step : Fin 11) (s : State) : Host.Outcome State Fault Refusal :=
  let d := d.val
  let x := s.die d
  let n := x.startStep
  if !x.starting || n ≠ step.val || (n = 10 && s.tickBase.isNone) then .next s
  else
    let slot := s.stepSlot d n
    let img := s.imageCheck d n slot
    let s := if stepImage n then { s with meas := s.meas ++ [⟨d, n, slot, img⟩] } else s
    if stepImage n && !(img.signatureOk && img.versionOk) then
      .next (s.freed.stepFail d (BitVec.ofNat 16 (Config.freeNat s.free)))
    else
      let s := (s.stepOver d).record d n 2 slot 0
      let s := if n = 9 then s.deriveKey d else s
      if n < 10 then .next ((s.beginStep d 11 (n + 1)).seekAbsent)
      else
        let s := s.modDie d fun k => { k with ready := true }
        .next (if (List.range 4).all fun k => (s.die k).ready || (s.die k).stopped then s.setF SJ_STAT.READY 0 1 else s)

/-- START_STEP_FAIL (R96). -/
def execStartStepFail (d : Die) (code : BitVec 16) (s : State) : Host.Outcome State Fault Refusal :=
  .next (if (s.die d.val).starting then s.stepFail d.val code else s)

/-- START_STEP_TIMEOUT (R94, R96). -/
def execStartStepTimeout (d : Die) (s : State) : Host.Outcome State Fault Refusal :=
  .next (if (s.die d.val).starting then s.stepFail d.val 0xFFFF else s)

/-- A write to SJ_CTL (R97, R98). -/
def State.wrSjCtl (s : State) (v : BitVec 128) : State :=
  let s := if bit v.toNat 0 then { s with sjClear := true } else s
  if bit v.toNat 1 then s.restart else s

/-- A write to SJ_IMG_CTL (R98): the fields take their values (R8), and a GO starts the writing unless an image is being
written. That writing takes the fields as they stand at its end (DESIGN CHOICE, notes/assumptions/72.md). -/
def State.wrImg (s : State) (v : BitVec 128) : State :=
  let x := v.toNat
  let s := ((s.setF SJ_IMG_CTL.SRC 0 (bits x 63 12)).setF SJ_IMG_CTL.LEN 0 (bits x 11 4)).setF SJ_IMG_CTL.SLOT 0 (bits x 3 3)
  if bit x 0 && s.getF SJ_IMG_CTL.STATE 0 ≠ 1 then s.setF SJ_IMG_CTL.STATE 0 1 else s

/-- SJ_IMG_DONE (R98): the image as the host's memory holds it. -/
def execSjImgDone (ok : Bool) (s : State) : Host.Outcome State Fault Refusal :=
  if s.getF SJ_IMG_CTL.STATE 0 ≠ 1 then .next s
  else if !ok then .next (s.setF SJ_IMG_CTL.STATE 0 3)
  else
    let n := s.getF SJ_IMG_CTL.LEN 0 * 2 ^ 20
    let s := s.setF SJ_IMG_CTL.STATE 0 2
    if n = 0 then .next s
    else .next { s with flash := s.flash.put (s.getF SJ_IMG_CTL.SLOT 0) (s.memBytes (2 ^ 39 + 4096 * s.getF SJ_IMG_CTL.SRC 0) n) }

/-! Attestation (R99) -/

/-- A measurement log entry's 64 bytes. -/
def Meas.bytes (m : Meas) : List Byte :=
  let flag (b : Bool) : Nat := if b then 1 else 0
  natLe 1 m.die ++ natLe 1 m.step ++ natLe 1 (flag m.img) ++ natLe 1 (flag m.check.keyIdx) ++ natLe 4 m.check.version.toNat ++
  natLe 4 (if !m.check.signatureOk then 1 else if !m.check.versionOk then 2 else 0) ++ List.replicate 20 0 ++
  natLe 32 m.check.digest.toNat

/-- A byte of the journal summary. -/
def State.summary (s : State) (d n : Nat) : Nat :=
  let boot := s.getF SJ_STAT.BOOT 0
  let did (e : Nat) : Bool := s.journal.any fun r => decide (r.boot = boot ∧ r.die = d ∧ r.step = n ∧ r.event = e ∧ (e ≠ 1 ∨ r.img = true))
  (if s.mark d (2 * n) then 1 else 0) + (if s.mark d (2 * n + 1) then 2 else 0) + (if did 1 then 4 else 0) + (if did 5 then 8 else 0)

/-- The report of a partition, but for its signature. -/
def State.report (s : State) (p : Nat) : List Byte :=
  natLe 4 1 ++ natLe 1 p ++ natLe 3 0 ++ natLe 4 (s.getF SJ_STAT.BOOT 0) ++ natLe 4 s.meas.length ++
  ((List.range 4).map fun i => natLe 8 (s.getF PRT_ATT_NONCE.NONCE (4 * p + i))).flatten ++ natLe 8 s.tick ++
  natLe 8 s.deviceTime ++ ((List.range 4).map fun d => (List.range 11).map fun n => BitVec.ofNat 8 (s.summary d n)).flatten ++
  List.replicate 20 0 ++ (s.meas.map Meas.bytes).flatten

/-- A write to PRT_ATT_CTL (R99): within 5 ms the report is written. While one is, only a GO is ignored; the report goes to
DEST as it stands when it is written (DESIGN CHOICE, notes/assumptions/72.md). -/
def State.wrAtt (s : State) (p : Nat) (v : BitVec 128) : State :=
  let busy := s.getF PRT_ATT_CTL.STATE p = 1
  let s := s.setF PRT_ATT_CTL.DEST p (bits v.toNat 63 6)
  if busy || !bit v.toNat 0 then s
  else (s.setF PRT_ATT_CTL.STATE p 1).schedWithin 20000000 phHost (.attReport (Fin.ofNat 16 p))

/-- The report with its signature by the attestation key of die 0, over the SM3 digest of what precedes it (R99). -/
def State.signedReport (s : State) (p : Nat) : List Byte :=
  let b := s.report p
  b ++ (Config.sm2Sign (s.die 0).attKey (Config.sm3 b) ++ List.replicate 64 0).take 64

/-- ATT_REPORT (R99). -/
def execAttReport (p : Part) (s : State) : Host.Outcome State Fault Refusal :=
  let va := 64 * s.getF PRT_ATT_CTL.DEST p.val
  match s.vwrite 0 p.val 0 3 va (s.signedReport p.val) with
  | some s => .next ((s.setF PRT_ATT_CTL.STATE p.val 2).vec p.val 6)
  | none => .next (s.setF PRT_ATT_CTL.STATE p.val 3)

/-- SPDM_REQUEST (R76, R99): the answer's bytes are those of the standard that the spec names, free here. -/
def execSpdmRequest (f : Fn) (s : State) : Host.Outcome State Fault Refusal :=
  if f.val ≠ 0 || !s.hostUp then .next s
  else .next ((s.send (.spdm (Config.freeBytes s.free (Config.freeNat s.free)))).freed)

/-! Snapshots (R100 to R102) -/

/-- Registers whose value shows other state. -/
def shownRegs : List Csr :=
  [.PTC_TIME_LO, .PTC_TIME_HI, .PTC_LATCH_TICK, .CCC_CTX, .DLS_READY_HEAD, .PRT_WALK_STAT, .MSL_STAT, .BWS_USE, .ADM_GRP,
   .CCC_TG_STAT, .HIF_LQ_STAT, .PRT_MEM_OWN, .CCC_L1_CFG, .CCC_EIDLE]

/-- Every control register as it reads. -/
def State.csrAll (s : State) : SMap (BitVec 128) :=
  (shownRegs.foldl (fun t c => (List.range (csrCount c)).foldl (fun t i => t.csrPut c i (s.regView 0 c i)) t) s).csr

/-- A write to SNP_CTL (R100, R102). ARM 0 does not cancel a latch that is on its way (DESIGN CHOICE,
notes/assumptions/73.md). -/
def State.wrSnp (s : State) (v : BitVec 128) : State :=
  let x := v.toNat
  let s := (s.setF SNP_CTL.FAULTS 0 (bits x 15 8)).setF SNP_CTL.PIN 0 (bits x 2 2)
  let s := s.setF SNP_CTL.ARM 0 (bits x 0 0)
  let s : State := if bit x 0 then
      { s.setF SNP_STAT.STATE 0 1 with snap := { s.snap with regs := [], banks := [], pcs := [] } }
    else if s.getF SNP_STAT.STATE 0 = 1 then s.setF SNP_STAT.STATE 0 0
    else s
  if bit x 1 then s.snapTrigger 0 else s

/-- SNAP_IN_EDGE (R100). -/
def execSnapInEdge (s : State) : Host.Outcome State Fault Refusal :=
  .next (if s.getF SNP_CTL.PIN 0 = 1 then s.snapTrigger 1 else s)

/-- SNP_LATCH (R100, R101, R102). -/
def execSnpLatch (s : State) : Host.Outcome State Fault Refusal :=
  if s.snap.pending.isNone then .next s
  else
    let pcs : SMap Nat := (List.range 3072).foldl (fun m b =>
      match s.holder (b / 8) (b % 8) with | some t => m.put b (s.task t).pc.toNat | none => m) []
    let snap : Snap := { s.snap with pending := none, regs := s.csrAll, banks := s.banks, pcs := pcs, high := true }
    let cause := s.snap.cause
    let s := ({ s with snap := snap }.setF SNP_STAT.STATE 0 2).setF SNP_STAT.CAUSE 0 cause
    let s := ((s.setF SNP_TICK.TICK 0 s.tick).send (.snapOut true)).pfVec 5
    let s := (List.range 16).foldl (fun s p => if s.vfUp (p + 1) then s.vec p 7 else s) s
    .next (s.sched (s.now + 64) phEnd .snapOutEnd)

/-- SNAP_OUT_END (R100). -/
def execSnapOutEnd (s : State) : Host.Outcome State Fault Refusal :=
  .next ({ s with snap := { s.snap with high := false } }.send (.snapOut false))

/-- The captured record of a context (R101): 32 KiB. -/
def State.snapRecord (s : State) (core ctx : Nat) : List Byte :=
  let t : State := { csr := s.snap.regs, banks := s.snap.banks }
  let lo := t.recordLow core ctx (BitVec.ofNat 64 (s.snap.pcs.look (ctxOf core ctx)))
  lo.take 0x226 ++ [0] ++ lo.drop 0x227 ++ List.replicate (0x4000 - lo.length) 0 ++ t.recordHigh core ctx

/-- BAR 4 of a function (R77, R101): the captured records; those of contexts that the function's partition does not own read as
zero. -/
def State.bar4 (s : State) (f core ctx : Nat) : List Byte :=
  if f = 0 || s.ownsCluster (f - 1) (core / 8) then s.snapRecord core ctx else List.replicate 0x8000 0

/-- A captured register, at 128 MiB in BAR 0 of the physical function (R101). -/
def State.latchedReg (s : State) (c : Csr) (i : Nat) : BitVec 128 := ({ csr := s.snap.regs } : State).csrVal c i

end Sys2Proof.Machine
end

