-- ==== Sys2Proof/Machine/Write.lean ====
section
/-! DEFINITION. Host writes to control registers: the access codes (00 R8, R9), who may write (R83 and the register tables), the rules that the tables give single registers, and the rows of the opcode table that are such writes. -/

namespace Sys2Proof.Machine

/-! Access codes -/

/-- A write under the access codes (R8, R9), but for the fields that a rule of their own leaves as they are. -/
def State.storeReg (s : State) (c : Csr) (i : Nat) (v : BitVec 128) (skip : CsrField → Bool) : State :=
  (csrFields c).foldl (fun s f =>
    if skip f then s
    else
      let x := bits v.toNat f.hi f.lo
      match f.acc with
      | .rw => s.setF f i x
      | .w1c => s.setF f i (s.getF f i - Nat.land (s.getF f i) x)
      | .ro | .wo => s) s
/-- No field is left as it is. -/
def noSkip : CsrField → Bool := fun _ => false

/-- The registers of which a virtual function writes its own. -/
def vfWritable (c : Csr) : Bool :=
  match c with
  | .UEE_MATCH | .UEE_RXQ_CFG | .UEE_TXQ_CFG | .HIF_LQ_CFG | .HIF_SIG_CFG | .PRT_ATT_NONCE | .PRT_ATT_CTL | .DLS_REG_CTL
  | .DLS_TREC_CFG | .DLS_SES | .ADM_GRP | .PRT_LOCK | .PRT_TLBI | .MSL_SUB_BASE | .CCC_L1_CFG | .CCC_EVT | .CCC_RPL_CTL
  | .CCC_RPL_BUF | .CCC_RPL_EVT | .CCC_TG_STAT | .DST_SVC_CFG | .DST_SVC_CTL | .DST_SAVE_BASE | .BBT_EDIT_DATA
  | .BBT_EDIT_CTL | .BBT_STAT => true
  | _ => false

/-! Rules of single registers -/

/-- FAB_DOM_CFG: MODID at or above SIZE keeps EN at 0 (R54). -/
def State.wrDom (s : State) (v : BitVec 128) : State :=
  let s := s.storeReg .FAB_DOM_CFG 0 v noSkip
  if s.domSize ≤ s.getF FAB_DOM_CFG.MODID 0 then s.setF FAB_DOM_CFG.EN 0 0 else s

/-- UEE_MATCH: a virtual function never changes PRT; an entry whose PRT differs from its ring's keeps EN at 0 (R75). -/
def State.wrMatch (s : State) (f e : Nat) (v : BitVec 128) : State :=
  let s := s.storeReg .UEE_MATCH e v fun x => f ≠ 0 && x = UEE_MATCH.PRT
  if s.getF UEE_MATCH.PRT e = s.getF UEE_RXQ_CFG.PRT (512 * (e / 4096) + s.getF UEE_MATCH.RING e) then s
  else s.setF UEE_MATCH.EN e 0

/-- Whether a receive ring may be enabled as its fields stand (R59, R60, R63, R75). -/
def State.rxMayRun (s : State) (k : Nat) : Bool :=
  let st := s.stream (k / 512) (s.getF UEE_RXQ_CFG.STREAM k)
  let fast := st.valid && st.cls = 0
  let z := s.getF UEE_RXQ_CFG.SLOTSZ k
  let base := 256 * s.getF UEE_RXQ_CFG.BASE k
  let mode := s.getF UEE_RXQ_CFG.MODE k
  decide (z ≤ 12) && mode ≠ 3 && (mode ≠ 2 || fast) && (s.getF UEE_RXQ_CFG.SHADOW k = 0 || fast) &&
  base % 2 ^ (z + 8) = 0 && s.lockedRange (k / 512) (s.getF UEE_RXQ_CFG.PRT k) base (ringBytes (s.getF UEE_RXQ_CFG.DEPTH k) z)

/-- The enabled match entries of a ring whose PRT is not the ring's are disabled (R75). -/
def State.unmatch (s : State) (k : Nat) : State :=
  (List.range 4096).foldl (fun s e =>
    let i := 4096 * (k / 512) + e
    if s.getF UEE_MATCH.EN i = 1 && s.getF UEE_MATCH.RING i = k % 512 && s.getF UEE_MATCH.PRT i ≠ s.getF UEE_RXQ_CFG.PRT k then
      s.setF UEE_MATCH.EN i 0
    else s) s

/-- UEE_RXQ_CFG: while EN is 1 writes to the other fields are ignored (R62). -/
def State.wrRxq (s : State) (f k : Nat) (v : BitVec 128) : State :=
  let on := s.getF UEE_RXQ_CFG.EN k = 1
  let prt := s.getF UEE_RXQ_CFG.PRT k
  let s := s.storeReg .UEE_RXQ_CFG k v fun x => x ≠ UEE_RXQ_CFG.EN && (on || (f ≠ 0 && x = UEE_RXQ_CFG.PRT))
  let s := if s.getF UEE_RXQ_CFG.PRT k = prt then s else s.unmatch k
  if on || s.rxMayRun k then s else s.setF UEE_RXQ_CFG.EN k 0

/-- UEE_TXQ_CFG (R62, R75). -/
def State.wrTxq (s : State) (f k : Nat) (v : BitVec 128) : State :=
  let on := s.getF UEE_TXQ_CFG.EN k = 1
  let s := s.storeReg .UEE_TXQ_CFG k v fun x => x ≠ UEE_TXQ_CFG.EN && (on || (f ≠ 0 && x = UEE_TXQ_CFG.PRT))
  if on || s.getF UEE_TXQ_CFG.SLOTSZ k ≤ 12 then s else s.setF UEE_TXQ_CFG.EN k 0

/-- HIF_SIG_CFG: a cluster that does not exist or is not owned keeps EN at 0 (R103). -/
def State.wrSigCfg (s : State) (k : Nat) (v : BitVec 128) : State :=
  let s := s.storeReg .HIF_SIG_CFG k v noSkip
  let c := s.getF HIF_SIG_CFG.CLUSTER k
  if c < 12 && s.ownsCluster (k / 64) (12 * s.getF HIF_SIG_CFG.DIE k + c) then s else s.setF HIF_SIG_CFG.EN k 0

/-- DLS_PWR_CFG: the idle clusters of the die count against the new GATEIDLE (R29). -/
def State.wrPwr (s : State) (d : Nat) (v : BitVec 128) : State :=
  let s := s.storeReg .DLS_PWR_CFG d v noSkip
  (List.range 12).foldl (fun s c => if (s.cluster (12 * d + c)).busy then s else s.armGate (12 * d + c)) s

/-- DLS_THERM_STAT: a change is the PF's vector 1 (R83). -/
def State.wrTherm (s : State) (d : Nat) (v : BitVec 128) : State :=
  let t := s.storeReg .DLS_THERM_STAT d v noSkip
  if t.csrVal .DLS_THERM_STAT d = s.csrVal .DLS_THERM_STAT d then s else t.pfVec 1

/-- DLS_REG_CTL (R8, R107): the fields take their values, and GO starts the operation unless one is busy. -/
def State.wrReg (s : State) (k : Nat) (v : BitVec 128) : State :=
  let x := v.toNat
  let s := s.storeReg .DLS_REG_CTL k v noSkip
  if s.getF DLS_REG_CTL.STATE k = 1 || !bit x 0 || s.tickBase.isNone then s
  else
      match s.getF DLS_REG_CTL.OP k with
      | 1 => s.register (k / 16) (k % 16)
      | 2 => s.deregister (k / 16) (k % 16)
      | _ => s

/-- DLS_SES: a FLOOR above the level raises the session to it (R128). -/
def State.wrSes (s : State) (k : Nat) (v : BitVec 128) : State :=
  let s := s.storeReg .DLS_SES k v noSkip
  if s.getF DLS_SES.VALID k = 1 && s.getF DLS_SES.LEVEL k < s.getF DLS_SES.FLOOR k then
    s.changeLevel (k / 256) (k % 256) (s.getF DLS_SES.FLOOR k)
  else s

/-- ADM_GRP (R109, R131): a write that makes enabled groups of a cluster overlap, or that would change a group that holds
an admitted stream, is ignored with ERR. -/
def State.wrGrp (s : State) (g : Nat) (v : BitVec 128) : State :=
  let s := s.storeReg .ADM_GRP g v fun f => f ≠ ADM_GRP.ERR
  let t := s.storeReg .ADM_GRP g v fun f => f = ADM_GRP.ERR
  let same := t.csrVal .ADM_GRP g = s.csrVal .ADM_GRP g
  let held := s.streams.any fun e => e.2.valid && decide (e.2.cls < 2) && e.2.group = g
  let n := 2 ^ t.getF ADM_GRP.SIZE g
  let meets := (List.range 8).any fun i =>
    let h := g / 8 * 8 + i
    h ≠ g && t.getF ADM_GRP.EN h = 1 && meet g n h (2 ^ t.getF ADM_GRP.SIZE h)
  if same then s
  else if held || (t.getF ADM_GRP.EN g = 1 && (g % n ≠ 0 || meets)) then s.setF ADM_GRP.ERR g 1
  else t

/-- BWS_FRAME_CFG (R115). -/
def State.wrFrame (s : State) (j : Nat) (v : BitVec 128) : State :=
  let t := s.storeReg .BWS_FRAME_CFG j v noSkip
  if 512 < t.getF BWS_FRAME_CFG.FAST j + t.getF BWS_FRAME_CFG.SLOW j + t.getF BWS_FRAME_CFG.SYSTEM j ||
      t.getF BWS_FRAME_CFG.FAST j < s.slotSum j 0 [] s.levelOf none ||
      t.getF BWS_FRAME_CFG.SLOW j < s.slotSum j 1 [] s.levelOf none then
    s.setF BWS_USE.ERR j 1
  else t

/-- CCC_EVT (R188, R193): EN stays while a measurement holds the core's counters; a reserved event keeps COUNT at 0. -/
def State.wrEvt (s : State) (k : Nat) (v : BitVec 128) : State :=
  let s := s.storeReg .CCC_EVT k v fun f => f = CCC_EVT.EN && !(s.core (k / 4)).evKept.isEmpty
  if s.getF CCC_EVT.EN k = 1 && evReserved (s.getF CCC_EVT.SEL k) then (s.setF CCC_EVT.COUNT k 0).setF CCC_EVT.SAT k 1 else s

/-- CCC_RPL_CTL (R189, R193): NEV and ARM are ignored while STATE is Armed or running. -/
def State.wrRpl (s : State) (c : Nat) (v : BitVec 128) : State :=
  let busy := s.getF CCC_RPL_CTL.STATE c = 1
  let s := s.storeReg .CCC_RPL_CTL c v fun f => busy && f = CCC_RPL_CTL.NEV
  if busy || !bit v.toNat 0 then s else s.rplArm c
/-- CCC_RPL_BUF and CCC_RPL_EVT (R193). -/
def State.wrRplData (s : State) (c : Csr) (cl i : Nat) (v : BitVec 128) : State :=
  if s.getF CCC_RPL_CTL.STATE cl = 1 then s else s.storeReg c i v noSkip

/-- CCC_ECNT: CLR clears the counter, F and SAT (R192). -/
def State.wrEcnt (s : State) (n : Nat) (v : BitVec 128) : State := if bit v.toNat 56 then s.csrPut .CCC_ECNT n 0 else s

/-- The fault of an answered record is raised (R199): vector 3 went with its record. -/
def State.raiseAwait (s : State) (kind n cause : Nat) : State :=
  let id := match kind with | 0 => n | 1 => (s.cmd n).task | 2 => (s.subs.look n).task | _ => 0
  let t := s.task id
  if kind = 3 || !t.resident then s
  else
    let s := s.abort id cause
    if faultClass cause = 3 then s.raiseLevel t.die t.session else s

/-- What an answer RESUME lets go on (R199): a parked task, a command, a subscription, the checkpoint engine. -/
def State.resumeAwait (s : State) (kind n : Nat) : State :=
  match kind with
  | 0 => s.allowResume n
  | 1 =>
    if !(s.cmds.keys.contains n) then s
    else
      let c := s.cmd n
      let s := s.modCmd n fun c => { c with setAside := false, holds := c.holds || c.kind = .put || c.kind = .get }
      if c.kind = .cmo then s.sched (s.now + 1) phMem (.cmoComplete n) else s.engineNext c.eng
  | 2 =>
    if !(s.subs.keys.contains n) then s
    else
      let j := (s.subs.look n).stack
      { s with subs := s.subs.upd n fun x => { x with stopped := false } }.sched (s.now + 1) (phRhizoid j)
        (.rhizoidTile (Fin.ofNat 8 j) n)
  | _ => s.ckptRun n

/-- DST_SVC_CTL (R199). -/
def State.wrSvc (s : State) (i : Nat) (v : BitVec 128) : State :=
  let s := s.storeReg .DST_SVC_CTL i v noSkip
  let act := s.getF DST_SVC_CTL.ACTION i
  if !bit v.toNat 0 then s
  else if act ≠ 1 && act ≠ 2 then s.setF DST_SVC_CTL.ERR i 1
  else
    match s.takeAwait i (s.getF DST_SVC_CTL.SEQ i) with
    | none => s.setF DST_SVC_CTL.ERR i 1
    | some ((kind, n, cause), s) => if act = 1 then s.resumeAwait kind n else s.raiseAwait kind n cause

/-- DST_SVC_CFG (R214): BASE and DEPTH stay while EN is 1; clearing EN raises every fault whose record awaits an answer. -/
def State.wrSvcCfg (s : State) (i : Nat) (v : BitVec 128) : State :=
  let on := s.getF DST_SVC_CFG.EN i = 1
  let s := s.storeReg .DST_SVC_CFG i v fun f => on && f ≠ DST_SVC_CFG.EN
  if !on || s.getF DST_SVC_CFG.EN i = 1 then s
  else
    let l := s.svcAwait.filter fun a => decide (a.1 = i)
    l.foldl (fun s a => s.raiseAwait a.2.2.1 a.2.2.2.1 a.2.2.2.2) { s with svcAwait := s.svcAwait.filter fun a => decide (a.1 ≠ i) }

/-- DST_SAVE_BASE (R207, R214): the area of 24 MiB lies in Locked ranges. -/
def State.wrSave (s : State) (i : Nat) (v : BitVec 128) : State :=
  let s := s.storeReg .DST_SAVE_BASE i v fun f => f ≠ DST_SAVE_BASE.ERR
  if s.tasks.any fun e => e.2.st = .evicted && decide (e.2.die = i / 16 ∧ e.2.part = i % 16) then s.setF DST_SAVE_BASE.ERR i 1
  else
    let s := s.storeReg .DST_SAVE_BASE i v fun f => f = DST_SAVE_BASE.ERR
    if s.getF DST_SAVE_BASE.EN i = 0 || s.lockedRange (i / 16) (i % 16) (65536 * s.getF DST_SAVE_BASE.BASE i) (24 * 2 ^ 20) then s
    else (s.setF DST_SAVE_BASE.EN i 0).setF DST_SAVE_BASE.ERR i 1

/-- BBT_CFG: while EN is 1 writes to the other fields are ignored (R386). -/
def State.wrBbt (s : State) (i : Nat) (v : BitVec 128) : State :=
  let on := s.getF BBT_CFG.EN i = 1
  s.storeReg .BBT_CFG i v fun f => on && f ≠ BBT_CFG.EN

/-- BBT_EDIT_CTL (R384): a host edit, accepted after the commits of its tick. -/
def State.wrEdit (s : State) (i : Nat) (v : BitVec 128) : State :=
  let s := s.storeReg .BBT_EDIT_CTL i v noSkip
  if !bit v.toNat 0 then s
  else
    let b := ((List.range 4).map fun n => natLe 8 (s.getF BBT_EDIT_DATA.DATA (4 * i + n))).flatten
    let e : Edit := { idx := s.getF BBT_EDIT_CTL.IDX i, bytes := b, mask := List.replicate 32 true }
    { s with hostEdits := s.hostEdits ++ [(i, e)] }

/-! Writes -/

/-- A permitted write of a function to a register: the rule of the register, or the access codes alone. -/
def State.putReg (s : State) (f : Nat) (c : Csr) (i : Nat) (v : BitVec 128) : State :=
  match c with
  | .DLS_PWR_CFG => s.wrPwr i v
  | .DLS_THERM_STAT => s.wrTherm i v
  | .FAB_DOM_CFG => s.wrDom v
  | .FAB_WIN => s.wrFabWin i v
  | .FAB_PORT_CTL => s.wrPortCtl i v
  | .UEE_MATCH => s.wrMatch f i v
  | .UEE_RXQ_CFG => s.wrRxq f i v
  | .UEE_TXQ_CFG => s.wrTxq f i v
  | .UEE_CKPT_CTL => s.wrCkpt i v
  | .PTC_CTL => s.wrPtcCtl v
  | .PRT_CLUSTERS => s.wrOwner false i v
  | .PRT_LLC_WAYS => s.wrOwner true i v
  | .PRT_RESET => if bit v.toNat 0 then s.resetFence i else s
  | .PRT_ATT_CTL => s.wrAtt i v
  | .HIF_SIG_CFG => s.wrSigCfg i v
  | .SJ_CTL => s.wrSjCtl v
  | .SJ_IMG_CTL => s.wrImg v
  | .SNP_CTL => s.wrSnp v
  | .DLS_REG_CTL => s.wrReg i v
  | .DLS_SES => s.wrSes i v
  | .ADM_GRP => s.wrGrp i v
  | .BWS_FRAME_CFG => s.wrFrame i v
  | .BWS_FAB_IN => s.wrFabIn i v
  | .PRT_MEM_OWN => s.wrMemOwn i v
  | .PRT_LOCK => s.wrLock i v
  | .PRT_TLBI => s.wrTlbi i v
  | .CCC_L1_CFG => s.wrL1 i v
  | .CCC_EVT => s.wrEvt i v
  | .CCC_RPL_CTL => s.wrRpl i v
  | .CCC_RPL_BUF => s.wrRplData c i i v
  | .CCC_RPL_EVT => s.wrRplData c (i / 4) i v
  | .CCC_ECNT => s.wrEcnt i v
  | .FAB_ROUTE => s.wrRoute i v
  | .DST_SVC_CFG => s.wrSvcCfg i v
  | .DST_SVC_CTL => s.wrSvc i v
  | .DST_SAVE_BASE => s.wrSave i v
  | .BBT_CFG => s.wrBbt i v
  | .BBT_EDIT_CTL => s.wrEdit i v
  | .FAB_SLOT_CFG | .FAB_PORT_STAT | .FAB_PTAG | .FAB_BARR_CFG | .UEE_RXQ_STAT | .UEE_CLASS_DSCP
  | .UEE_DROP_NOMATCH | .UEE_CKPT_RESUME | .PTC_TIME_LO | .PTC_TIME_HI | .PTC_LATCH_TICK | .PTC_EPOCH | .PTC_INCR
  | .PTC_OFFSET | .PTC_CFG | .PTC_STAT | .PRT_TT_ROOT | .PRT_CTL | .PRT_STAT | .PRT_ATT_NONCE | .HIF_LQ_CFG | .HIF_LQ_STAT
  | .HIF_QOS | .SJ_STAT | .SJ_LAST_STEP | .SJ_MARKS | .SJ_CFG | .SNP_STAT | .SNP_TICK | .DLS_TREC_CFG | .DLS_READY_HEAD
  | .ADM_CFG | .BWS_USE | .BWS_PRT_CAP | .PRT_WALK_STAT | .MSL_SUB_BASE | .MSL_STAT | .CCC_CTX | .CCC_TG_STAT | .CCC_EWT
  | .CCC_ESTAT | .CCC_EIDLE | .DST_MC_STAT | .BBT_EDIT_DATA | .BBT_STAT => s.storeReg c i v noSkip

/-- A host write of a function to a register (R8, R83): through a virtual function only to registers of its partition that
it may write, otherwise a partition fault of the host kind. -/
def State.hostWrite (s : State) (f : Nat) (c : Csr) (i : Nat) (v : BitVec 128) : State :=
  if csrCount c ≤ i then s
  else if f = 0 then (if s.hostUp then s.putReg 0 c i v else s)
  else if !s.vfUp f then s
  else if vfWritable c && s.regOwn (f - 1) c i then s.putReg f c i v
  else s.accErr (f - 1)

/-- A 64-bit register write. -/
def State.hostWrite64 (s : State) (f : Nat) (c : Csr) (i : Nat) (v : BitVec 64) : State := s.hostWrite f c i (v.setWidth 128)

/-! The rows of the opcode table that are register writes -/

/-- REGISTER_WRITE (R8). -/
def execRegisterWrite (f : Fn) (c : Csr) (i : Nat) (v : BitVec 128) (s : State) : Host.Outcome State Fault Refusal :=
  .next (s.hostWrite f.val c i v)
/-- RETRAIN (R53). -/
def execRetrain (f : Fn) (p : Port) (v : BitVec 64) (s : State) : Host.Outcome State Fault Refusal :=
  .next (s.hostWrite64 f.val .FAB_PORT_CTL p.val v)
/-- FAB_WIN_WRITE (R43). -/
def execFabWinWrite (f : Fn) (w : Fin 64) (v : BitVec 128) (s : State) : Host.Outcome State Fault Refusal :=
  .next (s.hostWrite f.val .FAB_WIN w.val v)
/-- BWS_FAB_IN_WRITE (R37). -/
def execBwsFabInWrite (f : Fn) (n : Fin 128) (v : BitVec 64) (s : State) : Host.Outcome State Fault Refusal :=
  .next (s.hostWrite64 f.val .BWS_FAB_IN n.val v)
/-- CKPT_GO (R67). -/
def execCkptGo (f : Fn) (d : Die) (v : BitVec 64) (s : State) : Host.Outcome State Fault Refusal :=
  .next (s.hostWrite64 f.val .UEE_CKPT_CTL d.val v)
/-- PTC_STEP (R71). -/
def execPtcStep (f : Fn) (v : BitVec 64) (s : State) : Host.Outcome State Fault Refusal :=
  .next (s.hostWrite64 f.val .PTC_CTL 0 v)
/-- PRT_OWNERSHIP_WRITE (R81). -/
def execPrtOwnershipWrite (f : Fn) (ways : Bool) (p : Part) (v : BitVec 128) (s : State) : Host.Outcome State Fault Refusal :=
  .next (s.hostWrite f.val (if ways then .PRT_LLC_WAYS else .PRT_CLUSTERS) p.val v)
/-- PRT_RESET_GO (R89). -/
def execPrtResetGo (f : Fn) (p : Part) (v : BitVec 64) (s : State) : Host.Outcome State Fault Refusal :=
  .next (s.hostWrite64 f.val .PRT_RESET p.val v)
/-- SJ_RESTART (R98). -/
def execSjRestart (f : Fn) (v : BitVec 64) (s : State) : Host.Outcome State Fault Refusal :=
  .next (s.hostWrite64 f.val .SJ_CTL 0 v)
/-- SJ_CLEAR (R97). -/
def execSjClear (f : Fn) (v : BitVec 64) (s : State) : Host.Outcome State Fault Refusal :=
  .next (s.hostWrite64 f.val .SJ_CTL 0 v)
/-- SJ_IMG_GO (R98). -/
def execSjImgGo (f : Fn) (v : BitVec 64) (s : State) : Host.Outcome State Fault Refusal :=
  .next (s.hostWrite64 f.val .SJ_IMG_CTL 0 v)
/-- ATT_GO (R99). -/
def execAttGo (f : Fn) (p : Part) (v : BitVec 64) (s : State) : Host.Outcome State Fault Refusal :=
  .next (s.hostWrite64 f.val .PRT_ATT_CTL p.val v)
/-- SNP_TRIG (R100). -/
def execSnpTrig (f : Fn) (v : BitVec 64) (s : State) : Host.Outcome State Fault Refusal :=
  .next (s.hostWrite64 f.val .SNP_CTL 0 v)
/-- SNP_ARM (R102). -/
def execSnpArm (f : Fn) (v : BitVec 64) (s : State) : Host.Outcome State Fault Refusal :=
  .next (s.hostWrite64 f.val .SNP_CTL 0 v)
/-- STREAM_REGISTER (R107). -/
def execStreamRegister (f : Fn) (d : Die) (p : Part) (v : BitVec 128) (s : State) : Host.Outcome State Fault Refusal :=
  .next (s.hostWrite f.val .DLS_REG_CTL (16 * d.val + p.val) v)
/-- STREAM_DEREGISTER (R107). -/
def execStreamDeregister (f : Fn) (d : Die) (p : Part) (v : BitVec 128) (s : State) : Host.Outcome State Fault Refusal :=
  .next (s.hostWrite f.val .DLS_REG_CTL (16 * d.val + p.val) v)
/-- DLS_SES_FLOOR_WRITE (R128). -/
def execDlsSesFloorWrite (f : Fn) (d : Die) (session : Fin 256) (v : BitVec 64) (s : State) :
    Host.Outcome State Fault Refusal :=
  .next (s.hostWrite64 f.val .DLS_SES (256 * d.val + session.val) v)
/-- ADM_GRP_WRITE (R109). -/
def execAdmGrpWrite (f : Fn) (d : Die) (g : Fin 96) (v : BitVec 64) (s : State) : Host.Outcome State Fault Refusal :=
  .next (s.hostWrite64 f.val .ADM_GRP (96 * d.val + g.val) v)
/-- BWS_FRAME_CFG_WRITE (R115). -/
def execBwsFrameCfgWrite (f : Fn) (j : Stack) (v : BitVec 64) (s : State) : Host.Outcome State Fault Refusal :=
  .next (s.hostWrite64 f.val .BWS_FRAME_CFG j.val v)
/-- PRT_MEM_OWN_WRITE (R135). -/
def execPrtMemOwnWrite (f : Fn) (b : Fin 512) (v : BitVec 64) (s : State) : Host.Outcome State Fault Refusal :=
  .next (s.hostWrite64 f.val .PRT_MEM_OWN b.val v)
/-- PRT_LOCK (R150). -/
def execPrtLock (f : Fn) (d : Die) (p i : Fin 16) (v : BitVec 128) (s : State) : Host.Outcome State Fault Refusal :=
  .next (s.hostWrite f.val .PRT_LOCK (256 * d.val + 16 * p.val + i.val) v)
/-- PRT_UNLOCK (R151). -/
def execPrtUnlock (f : Fn) (d : Die) (p i : Fin 16) (v : BitVec 128) (s : State) : Host.Outcome State Fault Refusal :=
  .next (s.hostWrite f.val .PRT_LOCK (256 * d.val + 16 * p.val + i.val) v)
/-- TLBI (R148). -/
def execTlbi (f : Fn) (p : Part) (v : BitVec 128) (s : State) : Host.Outcome State Fault Refusal :=
  .next (s.hostWrite f.val .PRT_TLBI p.val v)
/-- L1_MODE_WRITE (R141). -/
def execL1ModeWrite (f : Fn) (c : Cluster) (v : BitVec 64) (s : State) : Host.Outcome State Fault Refusal :=
  .next (s.hostWrite64 f.val .CCC_L1_CFG c.val v)
/-- SVC_RESUME (R199). -/
def execSvcResume (f : Fn) (d : Die) (p : Part) (v : BitVec 64) (s : State) : Host.Outcome State Fault Refusal :=
  .next (s.hostWrite64 f.val .DST_SVC_CTL (16 * d.val + p.val) v)
/-- SVC_ABORT (R199). -/
def execSvcAbort (f : Fn) (d : Die) (p : Part) (v : BitVec 64) (s : State) : Host.Outcome State Fault Refusal :=
  .next (s.hostWrite64 f.val .DST_SVC_CTL (16 * d.val + p.val) v)
/-- DST_SVC_CFG_WRITE (R214). -/
def execDstSvcCfgWrite (f : Fn) (d : Die) (p : Part) (v : BitVec 128) (s : State) : Host.Outcome State Fault Refusal :=
  .next (s.hostWrite f.val .DST_SVC_CFG (16 * d.val + p.val) v)
/-- DST_SAVE_BASE_WRITE (R214). -/
def execDstSaveBaseWrite (f : Fn) (d : Die) (p : Part) (v : BitVec 64) (s : State) : Host.Outcome State Fault Refusal :=
  .next (s.hostWrite64 f.val .DST_SAVE_BASE (16 * d.val + p.val) v)
/-- RPL_ARM (R189). -/
def execRplArm (f : Fn) (c : Cluster) (v : BitVec 64) (s : State) : Host.Outcome State Fault Refusal :=
  .next (s.hostWrite64 f.val .CCC_RPL_CTL c.val v)
/-- ECNT_CLR (R192). -/
def execEcntClr (f : Fn) (n : Fin 3072) (v : BitVec 64) (s : State) : Host.Outcome State Fault Refusal :=
  .next (s.hostWrite64 f.val .CCC_ECNT n.val v)
/-- BBT_EDIT (R384). -/
def execBbtEdit (f : Fn) (d : Die) (p : Part) (v : BitVec 64) (s : State) : Host.Outcome State Fault Refusal :=
  .next (s.hostWrite64 f.val .BBT_EDIT_CTL (16 * d.val + p.val) v)

end Sys2Proof.Machine
end

