-- ==== Sys2Proof/Machine/Dispatch.lean ====
section
/-! DEFINITION. The dispatcher: one arm per constructor of Instr, each one call of the instruction's meaning. -/

namespace Sys2Proof.Machine

def exec (i : Instr) (s : State) : Host.Outcome State Fault Refusal :=
  match i with
  | .nop slot => Sys2Proof.Machine.execNop slot s
  | .br o => Sys2Proof.Machine.execBr o s
  | .brr o => Sys2Proof.Machine.execBrr o s
  | .btree o => Sys2Proof.Machine.execBtree o s
  | .call o => Sys2Proof.Machine.execCall o s
  | .callr o => Sys2Proof.Machine.execCallr o s
  | .ret => Sys2Proof.Machine.execRet s
  | .lend o => Sys2Proof.Machine.execLend o s
  | .lrep o => Sys2Proof.Machine.execLrep o s
  | .lexit => Sys2Proof.Machine.execLexit s
  | .endTask => Sys2Proof.Machine.execEndTask s
  | .trap o => Sys2Proof.Machine.execTrap o s
  | .fmtw o => Sys2Proof.Machine.execFmtw o s
  | .fence o => Sys2Proof.Machine.execFence o s
  | .await o => Sys2Proof.Machine.execAwait o s
  | .waita o => Sys2Proof.Machine.execWaita o s
  | .twait o => Sys2Proof.Machine.execTwait o s
  | .mark o => Sys2Proof.Machine.execMark o s
  | .add o => Sys2Proof.Machine.execAdd o s
  | .sub o => Sys2Proof.Machine.execSub o s
  | .mul o => Sys2Proof.Machine.execMul o s
  | .mulh o => Sys2Proof.Machine.execMulh o s
  | .mulhn o => Sys2Proof.Machine.execMulhn o s
  | .div o => Sys2Proof.Machine.execDiv o s
  | .divn o => Sys2Proof.Machine.execDivn o s
  | .rem o => Sys2Proof.Machine.execRem o s
  | .remn o => Sys2Proof.Machine.execRemn o s
  | .and o => Sys2Proof.Machine.execAnd o s
  | .or o => Sys2Proof.Machine.execOr o s
  | .xor o => Sys2Proof.Machine.execXor o s
  | .andn o => Sys2Proof.Machine.execAndn o s
  | .shl o => Sys2Proof.Machine.execShl o s
  | .shr o => Sys2Proof.Machine.execShr o s
  | .sar o => Sys2Proof.Machine.execSar o s
  | .rotl o => Sys2Proof.Machine.execRotl o s
  | .clz o => Sys2Proof.Machine.execClz o s
  | .popc o => Sys2Proof.Machine.execPopc o s
  | .min o => Sys2Proof.Machine.execMin o s
  | .max o => Sys2Proof.Machine.execMax o s
  | .minn o => Sys2Proof.Machine.execMinn o s
  | .maxn o => Sys2Proof.Machine.execMaxn o s
  | .ext o => Sys2Proof.Machine.execExt o s
  | .cmpeq o => Sys2Proof.Machine.execCmpeq o s
  | .cmpne o => Sys2Proof.Machine.execCmpne o s
  | .cmplt o => Sys2Proof.Machine.execCmplt o s
  | .cmpltn o => Sys2Proof.Machine.execCmpltn o s
  | .cmple o => Sys2Proof.Machine.execCmple o s
  | .cmplen o => Sys2Proof.Machine.execCmplen o s
  | .sel o => Sys2Proof.Machine.execSel o s
  | .addi o => Sys2Proof.Machine.execAddi o s
  | .movi o => Sys2Proof.Machine.execMovi o s
  | .movhi o => Sys2Proof.Machine.execMovhi o s
  | .plog o => Sys2Proof.Machine.execPlog o s
  | .srd o => Sys2Proof.Machine.execSrd o s
  | .lset o => Sys2Proof.Machine.execLset o s
  | .kset o => Sys2Proof.Machine.execKset o s
  | .kadd o => Sys2Proof.Machine.execKadd o s
  | .kget o => Sys2Proof.Machine.execKget o s
  | .aadd o => Sys2Proof.Machine.execAadd o s
  | .asub o => Sys2Proof.Machine.execAsub o s
  | .aaddi o => Sys2Proof.Machine.execAaddi o s
  | .amov o => Sys2Proof.Machine.execAmov o s
  | .aidx o => Sys2Proof.Machine.execAidx o s
  | .awrap o => Sys2Proof.Machine.execAwrap o s
  | .shf o => Sys2Proof.Machine.execShf o s
  | .shcp o => Sys2Proof.Machine.execShcp o s
  | .ntq o => Sys2Proof.Machine.execNtq o s
  | .rrbw o => Sys2Proof.Machine.execRrbw o s
  | .pstg o => Sys2Proof.Machine.execPstg o s
  | .lcnt o => Sys2Proof.Machine.execLcnt o s
  | .lrept o => Sys2Proof.Machine.execLrept o s
  | .vadd u o => Sys2Proof.Machine.execVadd u o s
  | .vsub u o => Sys2Proof.Machine.execVsub u o s
  | .vmul u o => Sys2Proof.Machine.execVmul u o s
  | .vfma u o => Sys2Proof.Machine.execVfma u o s
  | .vfms u o => Sys2Proof.Machine.execVfms u o s
  | .vfnma u o => Sys2Proof.Machine.execVfnma u o s
  | .vmin u o => Sys2Proof.Machine.execVmin u o s
  | .vmax u o => Sys2Proof.Machine.execVmax u o s
  | .vabs u o => Sys2Proof.Machine.execVabs u o s
  | .vneg u o => Sys2Proof.Machine.execVneg u o s
  | .vrcp u o => Sys2Proof.Machine.execVrcp u o s
  | .vrsq u o => Sys2Proof.Machine.execVrsq u o s
  | .vsqrt u o => Sys2Proof.Machine.execVsqrt u o s
  | .vexp2 u o => Sys2Proof.Machine.execVexp2 u o s
  | .vlog2 u o => Sys2Proof.Machine.execVlog2 u o s
  | .vcvt u o => Sys2Proof.Machine.execVcvt u o s
  | .vcmpeq u o => Sys2Proof.Machine.execVcmpeq u o s
  | .vcmplt u o => Sys2Proof.Machine.execVcmplt u o s
  | .vcmple u o => Sys2Proof.Machine.execVcmple u o s
  | .vcmpun u o => Sys2Proof.Machine.execVcmpun u o s
  | .vsel u o => Sys2Proof.Machine.execVsel u o s
  | .vand u o => Sys2Proof.Machine.execVand u o s
  | .vor u o => Sys2Proof.Machine.execVor u o s
  | .vxor u o => Sys2Proof.Machine.execVxor u o s
  | .vshl u o => Sys2Proof.Machine.execVshl u o s
  | .vshr u o => Sys2Proof.Machine.execVshr u o s
  | .vsar u o => Sys2Proof.Machine.execVsar u o s
  | .vadds u o => Sys2Proof.Machine.execVadds u o s
  | .vsubs u o => Sys2Proof.Machine.execVsubs u o s
  | .vmullo u o => Sys2Proof.Machine.execVmullo u o s
  | .vdot u o => Sys2Proof.Machine.execVdot u o s
  | .vdota u o => Sys2Proof.Machine.execVdota u o s
  | .vrsum u o => Sys2Proof.Machine.execVrsum u o s
  | .vrmax u o => Sys2Proof.Machine.execVrmax u o s
  | .vrmin u o => Sys2Proof.Machine.execVrmin u o s
  | .vbcast u o => Sys2Proof.Machine.execVbcast u o s
  | .vmovi u o => Sys2Proof.Machine.execVmovi u o s
  | .vmov u o => Sys2Proof.Machine.execVmov u o s
  | .vidx u o => Sys2Proof.Machine.execVidx u o s
  | .vclz u o => Sys2Proof.Machine.execVclz u o s
  | .vpopc u o => Sys2Proof.Machine.execVpopc u o s
  | .vround u o => Sys2Proof.Machine.execVround u o s
  | .vclamp u o => Sys2Proof.Machine.execVclamp u o s
  | .vperm o => Sys2Proof.Machine.execVperm o s
  | .vxgrp o => Sys2Proof.Machine.execVxgrp o s
  | .vshuf o => Sys2Proof.Machine.execVshuf o s
  | .vpack o => Sys2Proof.Machine.execVpack o s
  | .vunpk o => Sys2Proof.Machine.execVunpk o s
  | .qrd o => Sys2Proof.Machine.execQrd o s
  | .sfeed o => Sys2Proof.Machine.execSfeed o s
  | .cmul o => Sys2Proof.Machine.execCmul o s
  | .cmulc o => Sys2Proof.Machine.execCmulc o s
  | .cmulq o => Sys2Proof.Machine.execCmulq o s
  | .cmuli o => Sys2Proof.Machine.execCmuli o s
  | .cmula o => Sys2Proof.Machine.execCmula o s
  | .qwr o => Sys2Proof.Machine.execQwr o s
  | .qclr o => Sys2Proof.Machine.execQclr o s
  | .qmov o => Sys2Proof.Machine.execQmov o s
  | .qadd o => Sys2Proof.Machine.execQadd o s
  | .qfill o => Sys2Proof.Machine.execQfill o s
  | .qsave o => Sys2Proof.Machine.execQsave o s
  | .qload o => Sys2Proof.Machine.execQload o s
  | .qthr o => Sys2Proof.Machine.execQthr o s
  | .lds o => Sys2Proof.Machine.execLds o s
  | .sts o => Sys2Proof.Machine.execSts o s
  | .ldsv o => Sys2Proof.Machine.execLdsv o s
  | .stsv o => Sys2Proof.Machine.execStsv o s
  | .ldg o => Sys2Proof.Machine.execLdg o s
  | .stg o => Sys2Proof.Machine.execStg o s
  | .ldgv o => Sys2Proof.Machine.execLdgv o s
  | .stgv o => Sys2Proof.Machine.execStgv o s
  | .stnt o => Sys2Proof.Machine.execStnt o s
  | .stntv o => Sys2Proof.Machine.execStntv o s
  | .lda o => Sys2Proof.Machine.execLda o s
  | .stl o => Sys2Proof.Machine.execStl o s
  | .rmws o => Sys2Proof.Machine.execRmws o s
  | .atomg o => Sys2Proof.Machine.execAtomg o s
  | .atomn o => Sys2Proof.Machine.execAtomn o s
  | .acqb o => Sys2Proof.Machine.execAcqb o s
  | .relb o => Sys2Proof.Machine.execRelb o s
  | .ldp o => Sys2Proof.Machine.execLdp o s
  | .stp o => Sys2Proof.Machine.execStp o s
  | .gath o => Sys2Proof.Machine.execGath o s
  | .scat o => Sys2Proof.Machine.execScat o s
  | .ldk o => Sys2Proof.Machine.execLdk o s
  | .pref o => Sys2Proof.Machine.execPref o s
  | .copy o => Sys2Proof.Machine.execCopy o s
  | .subs o => Sys2Proof.Machine.execSubs o s
  | .unsub o => Sys2Proof.Machine.execUnsub o s
  | .bara o => Sys2Proof.Machine.execBara o s
  | .barw o => Sys2Proof.Machine.execBarw o s
  | .baraw o => Sys2Proof.Machine.execBaraw o s
  | .fput o => Sys2Proof.Machine.execFput o s
  | .fget o => Sys2Proof.Machine.execFget o s
  | .fred o => Sys2Proof.Machine.execFred o s
  | .cmo o => Sys2Proof.Machine.execCmo o s
  | .rpub o => Sys2Proof.Machine.execRpub o s
  | .rpop o => Sys2Proof.Machine.execRpop o s
  | .smpBind o => Sys2Proof.Machine.execSmpBind o s
  | .smpLoad o => Sys2Proof.Machine.execSmpLoad o s
  | .smpReset o => Sys2Proof.Machine.execSmpReset o s
  | .smpMergeOut o => Sys2Proof.Machine.execSmpMergeOut o s
  | .smpMergeIn o => Sys2Proof.Machine.execSmpMergeIn o s
  | .smpDraw o => Sys2Proof.Machine.execSmpDraw o s
  | .smpCommit o => Sys2Proof.Machine.execSmpCommit o s
  | .smpCommitPend o => Sys2Proof.Machine.execSmpCommitPend o s
  | .smpCommitSettle o => Sys2Proof.Machine.execSmpCommitSettle o s
  | .smpGreedy o => Sys2Proof.Machine.execSmpGreedy o s
  | .smpThr o => Sys2Proof.Machine.execSmpThr o s
  | .smpFlush o => Sys2Proof.Machine.execSmpFlush o s
  | .bflip => Sys2Proof.Machine.execBflip s
  | .lgnop => Sys2Proof.Machine.execLgnop s
  | .lgmov d a => Sys2Proof.Machine.execLgmov d a s
  | .lgadd d a b => Sys2Proof.Machine.execLgadd d a b s
  | .lgsub d a b => Sys2Proof.Machine.execLgsub d a b s
  | .lgmul d a b => Sys2Proof.Machine.execLgmul d a b s
  | .lgfma d a b => Sys2Proof.Machine.execLgfma d a b s
  | .lgmin d a b => Sys2Proof.Machine.execLgmin d a b s
  | .lgmax d a b => Sys2Proof.Machine.execLgmax d a b s
  | .lgneg d a => Sys2Proof.Machine.execLgneg d a s
  | .lgrcp d a => Sys2Proof.Machine.execLgrcp d a s
  | .lgcst d c => Sys2Proof.Machine.execLgcst d c s
  | .lgimm d imm => Sys2Proof.Machine.execLgimm d imm s
  | .lgcnt d => Sys2Proof.Machine.execLgcnt d s
  | .lgbias d => Sys2Proof.Machine.execLgbias d s
  | .lgban d => Sys2Proof.Machine.execLgban d s
  | .lgtok d => Sys2Proof.Machine.execLgtok d s
  | .lgsel d a b => Sys2Proof.Machine.execLgsel d a b s
  | .lgcgt a b => Sys2Proof.Machine.execLgcgt a b s
  | .lgcge a b => Sys2Proof.Machine.execLgcge a b s
  | .lgceq a b => Sys2Proof.Machine.execLgceq a b s
  | .lgkeep => Sys2Proof.Machine.execLgkeep s
  | .lgdrop => Sys2Proof.Machine.execLgdrop s
  | .lgmaxv d => Sys2Proof.Machine.execLgmaxv d s
  | .lgout a => Sys2Proof.Machine.execLgout a s
  | .registerWrite f c n v => Sys2Proof.Machine.execRegisterWrite f c n v s
  | .laneGroupLoss pr g => Sys2Proof.Machine.execLaneGroupLoss pr g s
  | .pairLinkLoss pr => Sys2Proof.Machine.execPairLinkLoss pr s
  | .crossLinkLoss a b => Sys2Proof.Machine.execCrossLinkLoss a b s
  | .commitHeartbeat d h => Sys2Proof.Machine.execCommitHeartbeat d h s
  | .heartbeatAck d stream period => Sys2Proof.Machine.execHeartbeatAck d stream period s
  | .heartbeatRelay via dst m => Sys2Proof.Machine.execHeartbeatRelay via dst m s
  | .levelChangeMessage d session level tick => Sys2Proof.Machine.execLevelChangeMessage d session level tick s
  | .checkTick d stream period => Sys2Proof.Machine.execCheckTick d stream period s
  | .thermalSample d temp => Sys2Proof.Machine.execThermalSample d temp s
  | .freezeTimeout d => Sys2Proof.Machine.execFreezeTimeout d s
  | .dieStopDetect d => Sys2Proof.Machine.execDieStopDetect d s
  | .clusterGate c => Sys2Proof.Machine.execClusterGate c s
  | .wakeComplete c => Sys2Proof.Machine.execWakeComplete c s
  | .linkTrainingDone p partner map => Sys2Proof.Machine.execLinkTrainingDone p partner map s
  | .retrain f p v => Sys2Proof.Machine.execRetrain f p v s
  | .fabFrameBoundary => Sys2Proof.Machine.execFabFrameBoundary s
  | .fabSlot p => Sys2Proof.Machine.execFabSlot p s
  | .flitReceive p crcOk fl => Sys2Proof.Machine.execFlitReceive p crcOk fl s
  | .replayRequest p flit => Sys2Proof.Machine.execReplayRequest p flit s
  | .laneLockLoss p => Sys2Proof.Machine.execLaneLockLoss p s
  | .retrainComplete p map => Sys2Proof.Machine.execRetrainComplete p map s
  | .fabAccessArrive a => Sys2Proof.Machine.execFabAccessArrive a s
  | .fabResponse id st data => Sys2Proof.Machine.execFabResponse id st data s
  | .fabTimeout id => Sys2Proof.Machine.execFabTimeout id s
  | .fabBarrierArrival bar child => Sys2Proof.Machine.execFabBarrierArrival bar child s
  | .fabBarrierRelease bar => Sys2Proof.Machine.execFabBarrierRelease bar s
  | .allreduceContribution bar level die src data => Sys2Proof.Machine.execAllreduceContribution bar level die src data s
  | .allreduceResult bar data => Sys2Proof.Machine.execAllreduceResult bar data s
  | .fabWinWrite f w v => Sys2Proof.Machine.execFabWinWrite f w v s
  | .bwsFabInWrite f n v => Sys2Proof.Machine.execBwsFabInWrite f n v s
  | .sensorToken d m => Sys2Proof.Machine.execSensorToken d m s
  | .unsupportedRequest d source => Sys2Proof.Machine.execUnsupportedRequest d source s
  | .uudTimeout d ring => Sys2Proof.Machine.execUudTimeout d ring s
  | .ringPublish d w => Sys2Proof.Machine.execRingPublish d w s
  | .actionChunk d task => Sys2Proof.Machine.execActionChunk d task s
  | .ckptGo f d v => Sys2Proof.Machine.execCkptGo f d v s
  | .ckptDone d => Sys2Proof.Machine.execCkptDone d s
  | .ckptFault d sector => Sys2Proof.Machine.execCkptFault d sector s
  | .ptpMessage m => Sys2Proof.Machine.execPtpMessage m s
  | .ptpSecondBoundary => Sys2Proof.Machine.execPtpSecondBoundary s
  | .lockwaitExpire => Sys2Proof.Machine.execLockwaitExpire s
  | .holdmaxExpire => Sys2Proof.Machine.execHoldmaxExpire s
  | .masterLost => Sys2Proof.Machine.execMasterLost s
  | .ethLinkDown p => Sys2Proof.Machine.execEthLinkDown p s
  | .ptcStep f v => Sys2Proof.Machine.execPtcStep f v s
  | .ptcTimeLoRead f => Sys2Proof.Machine.execPtcTimeLoRead f s
  | .launchPush f d block => Sys2Proof.Machine.execLaunchPush f d block s
  | .hostSignal f n v => Sys2Proof.Machine.execHostSignal f n v s
  | .signalDeferredStore core ctx => Sys2Proof.Machine.execSignalDeferredStore core ctx s
  | .prtOwnershipWrite f ways p v => Sys2Proof.Machine.execPrtOwnershipWrite f ways p v s
  | .prtScrubDone p => Sys2Proof.Machine.execPrtScrubDone p s
  | .vfFlr p => Sys2Proof.Machine.execVfFlr p s
  | .prtResetGo f p v => Sys2Proof.Machine.execPrtResetGo f p v s
  | .pfFlr => Sys2Proof.Machine.execPfFlr s
  | .resetStop p => Sys2Proof.Machine.execResetStop p s
  | .resetScrub p => Sys2Proof.Machine.execResetScrub p s
  | .resetRelease p => Sys2Proof.Machine.execResetRelease p s
  | .powerOnReset => Sys2Proof.Machine.execPowerOnReset s
  | .startStepPass d step => Sys2Proof.Machine.execStartStepPass d step s
  | .startStepFail d code => Sys2Proof.Machine.execStartStepFail d code s
  | .startStepTimeout d => Sys2Proof.Machine.execStartStepTimeout d s
  | .sjRestart f v => Sys2Proof.Machine.execSjRestart f v s
  | .sjClear f v => Sys2Proof.Machine.execSjClear f v s
  | .sjImgGo f v => Sys2Proof.Machine.execSjImgGo f v s
  | .sjImgDone ok => Sys2Proof.Machine.execSjImgDone ok s
  | .attGo f p v => Sys2Proof.Machine.execAttGo f p v s
  | .attReport p => Sys2Proof.Machine.execAttReport p s
  | .spdmRequest f => Sys2Proof.Machine.execSpdmRequest f s
  | .snpTrig f v => Sys2Proof.Machine.execSnpTrig f v s
  | .snapInEdge => Sys2Proof.Machine.execSnapInEdge s
  | .snpLatch => Sys2Proof.Machine.execSnpLatch s
  | .snapOutEnd => Sys2Proof.Machine.execSnapOutEnd s
  | .snpArm f v => Sys2Proof.Machine.execSnpArm f v s
  | .streamRegister f d p v => Sys2Proof.Machine.execStreamRegister f d p v s
  | .admissionComplete d => Sys2Proof.Machine.execAdmissionComplete d s
  | .streamDeregister f d p v => Sys2Proof.Machine.execStreamDeregister f d p v s
  | .timerRelease d stream => Sys2Proof.Machine.execTimerRelease d stream s
  | .taskReady t => Sys2Proof.Machine.execTaskReady t s
  | .taskLaunch t => Sys2Proof.Machine.execTaskLaunch t s
  | .deadlineAbort t => Sys2Proof.Machine.execDeadlineAbort t s
  | .holdBudgetExhausted t => Sys2Proof.Machine.execHoldBudgetExhausted t s
  | .taskCommit t => Sys2Proof.Machine.execTaskCommit t s
  | .dlsSesFloorWrite f d session v => Sys2Proof.Machine.execDlsSesFloorWrite f d session v s
  | .admGrpWrite f d g v => Sys2Proof.Machine.execAdmGrpWrite f d g v s
  | .bwsFrameCfgWrite f j v => Sys2Proof.Machine.execBwsFrameCfgWrite f j v s
  | .bwsFrameBoundary j => Sys2Proof.Machine.execBwsFrameBoundary j s
  | .bwsSlot j => Sys2Proof.Machine.execBwsSlot j s
  | .prtMemOwnWrite f b v => Sys2Proof.Machine.execPrtMemOwnWrite f b v s
  | .prtMemOwnDone b => Sys2Proof.Machine.execPrtMemOwnDone b s
  | .prtLock f d p n v => Sys2Proof.Machine.execPrtLock f d p n v s
  | .prtLockDone d p n => Sys2Proof.Machine.execPrtLockDone d p n s
  | .prtUnlock f d p n v => Sys2Proof.Machine.execPrtUnlock f d p n v s
  | .tlbi f p v => Sys2Proof.Machine.execTlbi f p v s
  | .tlbiDone p => Sys2Proof.Machine.execTlbiDone p s
  | .tableWalkDone d walk => Sys2Proof.Machine.execTableWalkDone d walk s
  | .l1ModeWrite f c v => Sys2Proof.Machine.execL1ModeWrite f c v s
  | .l1ModeDone c => Sys2Proof.Machine.execL1ModeDone c s
  | .loadDataLand load => Sys2Proof.Machine.execLoadDataLand load s
  | .rhizoidTile j sub => Sys2Proof.Machine.execRhizoidTile j sub s
  | .subscriptionGrant j => Sys2Proof.Machine.execSubscriptionGrant j s
  | .atomicGroup word interval => Sys2Proof.Machine.execAtomicGroup word interval s
  | .wcbDrain core buf => Sys2Proof.Machine.execWcbDrain core buf s
  | .bundleSend t => Sys2Proof.Machine.execBundleSend t s
  | .emptyBundle t => Sys2Proof.Machine.execEmptyBundle t s
  | .holdEnd t => Sys2Proof.Machine.execHoldEnd t s
  | .contextEligible t => Sys2Proof.Machine.execContextEligible t s
  | .icacheFill c part line => Sys2Proof.Machine.execIcacheFill c part line s
  | .writeLanding core ctx cyc ph => Sys2Proof.Machine.execWriteLanding core ctx cyc ph s
  | .drainEnd t => Sys2Proof.Machine.execDrainEnd t s
  | .restore t => Sys2Proof.Machine.execRestore t s
  | .svcResume f d p v => Sys2Proof.Machine.execSvcResume f d p v s
  | .svcAbort f d p v => Sys2Proof.Machine.execSvcAbort f d p v s
  | .dstSvcCfgWrite f d p v => Sys2Proof.Machine.execDstSvcCfgWrite f d p v s
  | .dstSaveBaseWrite f d p v => Sys2Proof.Machine.execDstSaveBaseWrite f d p v s
  | .machineCheck d cause target => Sys2Proof.Machine.execMachineCheck d cause target s
  | .correctedError d => Sys2Proof.Machine.execCorrectedError d s
  | .tgWalkResume c walk => Sys2Proof.Machine.execTgWalkResume c walk s
  | .sisterReport launch rank ok => Sys2Proof.Machine.execSisterReport launch rank ok s
  | .rplArm f c v => Sys2Proof.Machine.execRplArm f c v s
  | .rplPassEnd t => Sys2Proof.Machine.execRplPassEnd t s
  | .ecntClr f n v => Sys2Proof.Machine.execEcntClr f n v s
  | .engineStart cmd => Sys2Proof.Machine.execEngineStart cmd s
  | .copySector cmd => Sys2Proof.Machine.execCopySector cmd s
  | .copyComplete cmd => Sys2Proof.Machine.execCopyComplete cmd s
  | .barrierRelease inst => Sys2Proof.Machine.execBarrierRelease inst s
  | .cmoComplete cmd => Sys2Proof.Machine.execCmoComplete cmd s
  | .samplerOpBegin core => Sys2Proof.Machine.execSamplerOpBegin core s
  | .samplerOpLand core => Sys2Proof.Machine.execSamplerOpLand core s
  | .bbtEdit f d p v => Sys2Proof.Machine.execBbtEdit f d p v s
  | .bflipPerform d p => Sys2Proof.Machine.execBflipPerform d p s
  | .bflipReplayDone d p => Sys2Proof.Machine.execBflipReplayDone d p s
  | .pairLinkReturn pr g => Sys2Proof.Machine.execPairLinkReturn pr g s
  | .ethLinkUp p => Sys2Proof.Machine.execEthLinkUp p s
  | .powerLoss => Sys2Proof.Machine.execPowerLoss s
  | .twaitTickReached t => Sys2Proof.Machine.execTwaitTickReached t s
  | .drainBoundExceeded t => Sys2Proof.Machine.execDrainBoundExceeded t s
  | .rmaWriteAcknowledged cmd sectors ok => Sys2Proof.Machine.execRmaWriteAcknowledged cmd sectors ok s
  | .storeAcknowledged id => Sys2Proof.Machine.execStoreAcknowledged id s

end Sys2Proof.Machine
end

