-- ==== Sys2Proof/Machine/Events.lean ====
section
/-! DEFINITION. Running what is due: each event of the agenda is the instruction of its name. -/

namespace Sys2Proof.Machine

/-- The event runs as the instruction of its name (theorem `runEv_eq_exec` of Laws/Step.lean). -/
def runEv (e : Ev) (s : State) : Host.Outcome State Fault Refusal :=
  match e with
  | .commitHeartbeat d h => Sys2Proof.Machine.execCommitHeartbeat d h s
  | .heartbeatAck d stream period => Sys2Proof.Machine.execHeartbeatAck d stream period s
  | .heartbeatRelay via dst m => Sys2Proof.Machine.execHeartbeatRelay via dst m s
  | .pairLinkLoss pr => Sys2Proof.Machine.execPairLinkLoss pr s
  | .levelChangeMessage d session level tick => Sys2Proof.Machine.execLevelChangeMessage d session level tick s
  | .checkTick d stream period => Sys2Proof.Machine.execCheckTick d stream period s
  | .freezeTimeout d => Sys2Proof.Machine.execFreezeTimeout d s
  | .dieStopDetect d => Sys2Proof.Machine.execDieStopDetect d s
  | .clusterGate c => Sys2Proof.Machine.execClusterGate c s
  | .wakeComplete c => Sys2Proof.Machine.execWakeComplete c s
  | .linkTrainingDone p partner map => Sys2Proof.Machine.execLinkTrainingDone p partner map s
  | .fabFrameBoundary => Sys2Proof.Machine.execFabFrameBoundary s
  | .fabSlot p => Sys2Proof.Machine.execFabSlot p s
  | .retrainComplete p map => Sys2Proof.Machine.execRetrainComplete p map s
  | .fabAccessArrive a => Sys2Proof.Machine.execFabAccessArrive a s
  | .fabResponse id st data => Sys2Proof.Machine.execFabResponse id st data s
  | .fabTimeout id => Sys2Proof.Machine.execFabTimeout id s
  | .fabBarrierArrival bar child => Sys2Proof.Machine.execFabBarrierArrival bar child s
  | .fabBarrierRelease bar => Sys2Proof.Machine.execFabBarrierRelease bar s
  | .allreduceContribution bar level die src data => Sys2Proof.Machine.execAllreduceContribution bar level die src data s
  | .allreduceResult bar data => Sys2Proof.Machine.execAllreduceResult bar data s
  | .ringPublish d w => Sys2Proof.Machine.execRingPublish d w s
  | .actionChunk d task => Sys2Proof.Machine.execActionChunk d task s
  | .ckptFault d sector => Sys2Proof.Machine.execCkptFault d sector s
  | .ckptPage d => .next (s.ckptMove d.val)
  | .hifServe => .next s.hifServe
  | .ptpSecondBoundary => Sys2Proof.Machine.execPtpSecondBoundary s
  | .lockwaitExpire => Sys2Proof.Machine.execLockwaitExpire s
  | .holdmaxExpire => Sys2Proof.Machine.execHoldmaxExpire s
  | .signalDeferredStore core ctx => Sys2Proof.Machine.execSignalDeferredStore core ctx s
  | .prtScrubDone p => Sys2Proof.Machine.execPrtScrubDone p s
  | .resetStop p => Sys2Proof.Machine.execResetStop p s
  | .resetScrub p => Sys2Proof.Machine.execResetScrub p s
  | .resetRelease p => Sys2Proof.Machine.execResetRelease p s
  | .startStepTimeout d => Sys2Proof.Machine.execStartStepTimeout d s
  | .attReport p => Sys2Proof.Machine.execAttReport p s
  | .snpLatch => Sys2Proof.Machine.execSnpLatch s
  | .snapOutEnd => Sys2Proof.Machine.execSnapOutEnd s
  | .admissionComplete d => Sys2Proof.Machine.execAdmissionComplete d s
  | .timerRelease d stream => Sys2Proof.Machine.execTimerRelease d stream s
  | .taskReady t => Sys2Proof.Machine.execTaskReady t s
  | .taskLaunch t => Sys2Proof.Machine.execTaskLaunch t s
  | .deadlineAbort t => Sys2Proof.Machine.execDeadlineAbort t s
  | .holdBudgetExhausted t => Sys2Proof.Machine.execHoldBudgetExhausted t s
  | .taskCommit t => Sys2Proof.Machine.execTaskCommit t s
  | .bwsFrameBoundary j => Sys2Proof.Machine.execBwsFrameBoundary j s
  | .bwsSlot j => Sys2Proof.Machine.execBwsSlot j s
  | .prtMemOwnDone b => Sys2Proof.Machine.execPrtMemOwnDone b s
  | .prtLockDone d p i => Sys2Proof.Machine.execPrtLockDone d p i s
  | .tlbiDone p => Sys2Proof.Machine.execTlbiDone p s
  | .tableWalkDone d walk => Sys2Proof.Machine.execTableWalkDone d walk s
  | .l1ModeDone c => Sys2Proof.Machine.execL1ModeDone c s
  | .loadDataLand load => Sys2Proof.Machine.execLoadDataLand load s
  | .rhizoidTile j sub => Sys2Proof.Machine.execRhizoidTile j sub s
  | .subscriptionGrant j => Sys2Proof.Machine.execSubscriptionGrant j s
  | .atomicGroup word interval => Sys2Proof.Machine.execAtomicGroup word interval s
  | .wcbDrain core buf => Sys2Proof.Machine.execWcbDrain core buf s
  | .bundleSend t => Sys2Proof.Machine.execBundleSend t s
  | .emptyBundle t => Sys2Proof.Machine.execEmptyBundle t s
  | .holdEnd t => Sys2Proof.Machine.execHoldEnd t s
  | .contextEligible t => Sys2Proof.Machine.execContextEligible t s
  | .icacheFill c part line => Sys2Proof.Machine.execIcacheFill c part line s
  | .writeLanding core ctx cyc ph => Sys2Proof.Machine.execWriteLanding core ctx cyc ph s
  | .drainEnd t => Sys2Proof.Machine.execDrainEnd t s
  | .restore t => Sys2Proof.Machine.execRestore t s
  | .tgWalkResume c walk => Sys2Proof.Machine.execTgWalkResume c walk s
  | .sisterReport launch rank ok => Sys2Proof.Machine.execSisterReport launch rank ok s
  | .rplPassEnd t => Sys2Proof.Machine.execRplPassEnd t s
  | .engineStart cmd => Sys2Proof.Machine.execEngineStart cmd s
  | .copySector cmd => Sys2Proof.Machine.execCopySector cmd s
  | .copyComplete cmd => Sys2Proof.Machine.execCopyComplete cmd s
  | .barrierRelease inst => Sys2Proof.Machine.execBarrierRelease inst s
  | .cmoComplete cmd => Sys2Proof.Machine.execCmoComplete cmd s
  | .samplerOpBegin core => Sys2Proof.Machine.execSamplerOpBegin core s
  | .samplerOpLand core => Sys2Proof.Machine.execSamplerOpLand core s
  | .bflipPerform d p => Sys2Proof.Machine.execBflipPerform d p s
  | .bflipReplayDone d p => Sys2Proof.Machine.execBflipReplayDone d p s
  | .twaitTickReached t => Sys2Proof.Machine.execTwaitTickReached t s
  | .drainBoundExceeded t => Sys2Proof.Machine.execDrainBoundExceeded t s
  | .storeAcknowledged id => Sys2Proof.Machine.execStoreAcknowledged id s

/-- The instruction has the event's name and operands. -/
def Ev.names (e : Ev) (ins : Instr) : Prop :=
  match e with
  | .commitHeartbeat d h => ins = .commitHeartbeat d h
  | .heartbeatAck d stream period => ins = .heartbeatAck d stream period
  | .heartbeatRelay via dst m => ins = .heartbeatRelay via dst m
  | .pairLinkLoss pr => ins = .pairLinkLoss pr
  | .levelChangeMessage d session level tick => ins = .levelChangeMessage d session level tick
  | .checkTick d stream period => ins = .checkTick d stream period
  | .freezeTimeout d => ins = .freezeTimeout d
  | .dieStopDetect d => ins = .dieStopDetect d
  | .clusterGate c => ins = .clusterGate c
  | .wakeComplete c => ins = .wakeComplete c
  | .linkTrainingDone p partner map => ins = .linkTrainingDone p partner map
  | .fabFrameBoundary => ins = .fabFrameBoundary
  | .fabSlot p => ins = .fabSlot p
  | .retrainComplete p map => ins = .retrainComplete p map
  | .fabAccessArrive a => ins = .fabAccessArrive a
  | .fabResponse id st data => ins = .fabResponse id st data
  | .fabTimeout id => ins = .fabTimeout id
  | .fabBarrierArrival bar child => ins = .fabBarrierArrival bar child
  | .fabBarrierRelease bar => ins = .fabBarrierRelease bar
  | .allreduceContribution bar level die src data => ins = .allreduceContribution bar level die src data
  | .allreduceResult bar data => ins = .allreduceResult bar data
  | .ringPublish d w => ins = .ringPublish d w
  | .actionChunk d task => ins = .actionChunk d task
  | .ckptFault d sector => ins = .ckptFault d sector
  | .ckptPage _ => False
  | .hifServe => False
  | .ptpSecondBoundary => ins = .ptpSecondBoundary
  | .lockwaitExpire => ins = .lockwaitExpire
  | .holdmaxExpire => ins = .holdmaxExpire
  | .signalDeferredStore core ctx => ins = .signalDeferredStore core ctx
  | .prtScrubDone p => ins = .prtScrubDone p
  | .resetStop p => ins = .resetStop p
  | .resetScrub p => ins = .resetScrub p
  | .resetRelease p => ins = .resetRelease p
  | .startStepTimeout d => ins = .startStepTimeout d
  | .attReport p => ins = .attReport p
  | .snpLatch => ins = .snpLatch
  | .snapOutEnd => ins = .snapOutEnd
  | .admissionComplete d => ins = .admissionComplete d
  | .timerRelease d stream => ins = .timerRelease d stream
  | .taskReady t => ins = .taskReady t
  | .taskLaunch t => ins = .taskLaunch t
  | .deadlineAbort t => ins = .deadlineAbort t
  | .holdBudgetExhausted t => ins = .holdBudgetExhausted t
  | .taskCommit t => ins = .taskCommit t
  | .bwsFrameBoundary j => ins = .bwsFrameBoundary j
  | .bwsSlot j => ins = .bwsSlot j
  | .prtMemOwnDone b => ins = .prtMemOwnDone b
  | .prtLockDone d p i => ins = .prtLockDone d p i
  | .tlbiDone p => ins = .tlbiDone p
  | .tableWalkDone d walk => ins = .tableWalkDone d walk
  | .l1ModeDone c => ins = .l1ModeDone c
  | .loadDataLand load => ins = .loadDataLand load
  | .rhizoidTile j sub => ins = .rhizoidTile j sub
  | .subscriptionGrant j => ins = .subscriptionGrant j
  | .atomicGroup word interval => ins = .atomicGroup word interval
  | .wcbDrain core buf => ins = .wcbDrain core buf
  | .bundleSend t => ins = .bundleSend t
  | .emptyBundle t => ins = .emptyBundle t
  | .holdEnd t => ins = .holdEnd t
  | .contextEligible t => ins = .contextEligible t
  | .icacheFill c part line => ins = .icacheFill c part line
  | .writeLanding core ctx cyc ph => ins = .writeLanding core ctx cyc ph
  | .drainEnd t => ins = .drainEnd t
  | .restore t => ins = .restore t
  | .tgWalkResume c walk => ins = .tgWalkResume c walk
  | .sisterReport launch rank ok => ins = .sisterReport launch rank ok
  | .rplPassEnd t => ins = .rplPassEnd t
  | .engineStart cmd => ins = .engineStart cmd
  | .copySector cmd => ins = .copySector cmd
  | .copyComplete cmd => ins = .copyComplete cmd
  | .barrierRelease inst => ins = .barrierRelease inst
  | .cmoComplete cmd => ins = .cmoComplete cmd
  | .samplerOpBegin core => ins = .samplerOpBegin core
  | .samplerOpLand core => ins = .samplerOpLand core
  | .bflipPerform d p => ins = .bflipPerform d p
  | .bflipReplayDone d p => ins = .bflipReplayDone d p
  | .twaitTickReached t => ins = .twaitTickReached t
  | .drainBoundExceeded t => ins = .drainBoundExceeded t
  | .storeAcknowledged id => ins = .storeAcknowledged id

end Sys2Proof.Machine
end

