-- ==== Sys2Proof/Machine/Fetch.lean ====
section
/-! DEFINITION. What `step` runs next: the logit program in work (15 R365), the slot operations of the cycle in issue (10 R241 to R248), what is due on the agenda, or the end of the tick. -/

namespace Sys2Proof.Machine

/-- What comes next. -/
inductive Act where
  | instr (i : Instr)
  | event (e : Ev)
  | idle
  | bad
  deriving DecidableEq, Repr

/-- What comes next, and the state in which it runs. -/
def State.fetch (s : State) : Act × State :=
  if s.lg.active then
    match s.lg.prog.drop s.lg.pos with
    | [] => (.idle, { s with lg := { s.lg with active := false } })
    | w :: _ =>
      match decodeLogit w with
      | .ok i => (.instr i, { s with lg := { s.lg with pos := s.lg.pos + 1 } })
      | .error _ => (.bad, s)
  else
    match s.issueQ with
    | op :: rest =>
      let t := { s with issueQ := rest, env := { s.env with slot := op.slot } }
      if t.guardTrue op then (.instr op.instr, t) else (.idle, t.guardedOff)
    | [] =>
      match s.agenda with
      | d :: rest =>
        if d.time ≤ s.now && decide (phReady ≤ d.phase) && s.unsettled then (.idle, s.settle)
        else if d.time ≤ s.now then (.event d.ev, { s with agenda := rest, env := d.env, issueQ := d.ops })
        else (.idle, s.endTick)
      | [] => (.idle, s.endTick)

/-- The state in which the next step runs the instruction of a table word (notes/assumptions/7.md). -/
def State.place (s : State) (nbits w : Nat) : State :=
  if nbits = 16 then
    { s with lg := { s.lg with active := true, prog := [BitVec.ofNat 16 w], pos := 0 } }
  else
    match decodeTableWord nbits w with
    | some i => { s with lg := { s.lg with active := false }, issueQ := [⟨0, 0, i⟩] }
    | none => s

end Sys2Proof.Machine
end

