-- ==== Sys2Proof/Machine/Step.lean ====
section
/-! DEFINITION. One step of the module: what comes next is run. -/

namespace Sys2Proof.Machine

/-- One step. -/
def step (s : State) : Host.Outcome State Fault Refusal :=
  match s.fetch with
  | (.instr i, t) => exec i t
  | (.event e, t) => runEv e t
  | (.idle, t) => .next t
  | (.bad, _) => .refused .notDecoded

/-- The state with an instruction's bits placed where `step` fetches next. -/
def State.withFetchWord (s : State) (nbits w : Nat) : State := s.place nbits w

end Sys2Proof.Machine
end

