-- ==== Sys2Proof/Safety.lean ====
section
/-! DEFINITION. A safe run: every step answers a next state. The machine takes every fault of the spec as a next state, so a stop is a refusal of `step` and nothing else. -/

namespace Sys2Proof.Machine

/-- The step answers a next state. -/
def goesOn (s : State) : Prop := ∃ t, step s = .next t

end Sys2Proof.Machine
end

