-- ==== Sys2Proof/Certificates/Slice0/Obligations.lean ====
section
/-! DEFINITION. The statements for the provers. Each says what the rules of the spec say that an instruction or the machine does; the results are given as the writes that an operation issues, the landings as what the registers then hold. -/

namespace Sys2Proof.Spec

open Sys2Proof.Machine

/-- The state in which an operation has issued writes: each joins the landings of its bank, at its offset from the
operation's cycle (R12), in order. -/
def issues (s : State) (l : List (Nat × Write)) : State := l.foldl (fun t p => t.after p.1 p.2) s

/-- A scalar result of slot S: bs shows it from one cycle before the landing, the destination takes it at the landing, a
destination s0 discards it (R250, R252, R269). -/
def scalarResult (s : State) (off : Nat) (d : BitVec 6) (v : Word) : List (Nat × Write) :=
  (max 1 (off - 1), .bs v) :: (if d = 0 then [] else [(off, .s (physS s.mine.base d.toNat) v)])

/-- A scalar result of the other slots: no bypass. -/
def plainResult (s : State) (off : Nat) (d : BitVec 6) (v : Word) : List (Nat × Write) :=
  if d = 0 then [] else [(off, .s (physS s.mine.base d.toNat) v)]

/-- A predicate result; p0 discards it (R250). -/
def predResult (s : State) (pd : Nat) (v : Bool) : List (Nat × Write) :=
  if pd = 0 then [] else [(1, .p (physP s.mine.base pd) v)]

/-- Flags land with the result; none is no write (R227). -/
def flagResult (s : State) (off : Nat) (f : Nat) : List (Nat × Write) :=
  if f = 0 then [] else [(off, .flags f s.env.slot s.env.pc)]

/-- A vector result of slot 3 or 4 and its flags (R252, R301). -/
def vectorResult (s : State) (u : VUnit) (off : Nat) (d : BitVec 5) (v : Vec) (f : Nat) : List (Nat × Write) :=
  [(max 1 (off - 1), .bv (unitNum u) v), (off, .v d.toNat v)] ++ flagResult s off f

/-- The operation answers the state in which it is counted and charged at a class and has issued these writes. -/
def Completes (i : Instr) (s : State) (cls : Nat) (l : List (Nat × Write)) : Prop :=
  exec i s = .next (issues (s.issued1 cls) l)

/-- The same with event 0x09 of the vector slots (R304). -/
def CompletesV (i : Instr) (s : State) (cls : Nat) (l : List (Nat × Write)) : Prop :=
  exec i s = .next (issues ((s.issued1 cls).count s.env.core s.env.ctx 0x09 1) l)

end Sys2Proof.Spec

open Sys2Proof Sys2Proof.Machine Sys2Proof.Spec

/-- R10, R72 and the register tables: right after power-on every control register holds its table's reset values, fmt
its own (R226), memory reads 0 (notes/assumptions/4.md, the model's choice), the tick counter has not begun and nothing
is due. -/
def Obligations.ResetState : Prop :=
  (∀ (c : Csr) (i : Nat), State.reset.csrVal c i = csrReset c) ∧
  (∀ b : Nat, (State.reset.bank b).fmt = 0x0000000800000000#64) ∧
  (∀ b n : Nat, (State.reset.bank b).sNamed n = 0) ∧
  (∀ a n : Nat, State.reset.memBytes a n = List.replicate n 0) ∧
  State.reset.tick = 0 ∧ State.reset.agenda = [] ∧ Memory.wf State.reset.mem = true

/-- A step runs the decoded instruction. (1) A slot operation waiting in the cycle's queue runs as exec runs it when its
guard is true, with the queue one shorter and the slot noted; when its guard is false it only counts event 0x04 (R188,
R248). (2) In a logit program in work, a word that decodes runs as exec runs it, after the position has moved on. (3) What
is due first runs, once its time has come, as exec runs the instruction of its name, with its cycle's environment and slot
operations in place; but commits of the tick come before its releases (R117). (4) With none of these, the step ends the tick (R12). -/
def Obligations.StepRuns : Prop :=
  (∀ (s : State) (op : SlotOp) (l : List SlotOp), s.lg.active = false → s.issueQ = op :: l →
    let t : State := { s with issueQ := l, env := { s.env with slot := op.slot } }
    (t.guardTrue op = true → step s = exec op.instr t) ∧
    (t.guardTrue op = false → step s = .next (t.count t.env.core t.env.ctx 0x04 1))) ∧
  (∀ (s : State) (w : BitVec 16) (l : List (BitVec 16)) (i : Instr),
    s.lg.active = true → s.lg.prog.drop s.lg.pos = w :: l → decodeLogit w = .ok i →
    step s = exec i { s with lg := { s.lg with pos := s.lg.pos + 1 } }) ∧
  (∀ (s : State) (d : Due) (l : List Due) (i : Instr),
    s.lg.active = false → s.issueQ = [] → s.agenda = d :: l → d.time ≤ s.now → d.ev.names i →
    d.phase < phReady ∨ s.unsettled = false →
    step s = exec i { s with agenda := l, env := d.env, issueQ := d.ops }) ∧
  (∀ (s : State) (d : Due) (l : List Due), s.lg.active = false → s.issueQ = [] → s.agenda = d :: l → d.time ≤ s.now →
    phReady ≤ d.phase → s.unsettled = true → step s = .next s.settle) ∧
  ∀ s : State, s.lg.active = false → s.issueQ = [] → (∀ d ∈ s.agenda.head?, s.now < d.time) → step s = .next s.endTick

/-- Words written out from the encodings of the spec (R247, R253, R254, R365) decode to the instructions they stand for.
-/
def Obligations.DecodeWords : Prop :=
  decodeSlotWord 1 0x02118064#32 = .ok (0, .movi ⟨6, 100⟩) ∧
  decodeSlotWord 1 0x00110414#32 = .ok (0, .add ⟨4, 4, 5, 0⟩) ∧
  decodeSlotWord 1 0x01980000#32 = .ok (0, .cmpeq ⟨8, 0, 0, 0⟩) ∧
  decodeSlotWord 1 0x4201C701#32 = .ok (8, .addi ⟨7, 7, 1⟩) ∧
  decodeSlotWord 2 0x00106000#32 = .ok (0, .lset ⟨0, 6⟩) ∧
  decodeSlotWord 2 0x00B0E180#32 = .ok (0, .shf ⟨0, 0, 14, 6⟩) ∧
  decodeSlotWord 0 0x0073FFFD#32 = .ok (0, .lend ⟨0, -3⟩) ∧
  decodeSlotWord 0 0x00A00000#32 = .ok (0, .endTask) ∧
  decodeSlotWord 3 0x18442550#32 = .ok (3, .vfma .v0 ⟨8, 9, 10, 8, 0⟩) ∧
  decodeSlotWord 4 0x00162411#32 = .ok (0, .vadd .v1 ⟨12, 9, 0, 8, 1⟩) ∧
  decodeSlotWord 5 0x00230000#32 = .ok (0, .cmulc ⟨0, 1, 2, 0, 0, 0⟩) ∧
  decodeSlotWord 6 0x00E18108#32 = .ok (0, .atomg ⟨6, 1, 0, 1⟩) ∧
  decodeSlotWord 7 0x01410500#32 = .ok (0, .smpDraw ⟨4, 5, 0⟩) ∧
  decodeLogit 0x6900#16 = .ok (.lgbias 1)

/-- R289: the two-source forms of slot S. Each is charged at class 1 and lands its result, with bs, at its offset: 1 but
for MUL (3) and MULH, MULHN (4). -/
def Obligations.ScalarArithmetic : Prop :=
  ∀ (o : S3) (s : State), (o.ba = 0 ∨ o.b = 0) →
    let a := s.sv o.a
    let b := if o.ba = 1 then s.mine.bs else s.sv o.b
    let done (i : Instr) (off : Nat) (v : Word) : Prop := Completes i s 1 (scalarResult s off o.d v)
    done (.add o) 1 (a + b) ∧
    done (.sub o) 1 (a - b) ∧
    done (.mul o) 3 (a * b) ∧
    done (.mulh o) 4 (BitVec.ofInt 64 (a.toInt * b.toInt / 2 ^ 64)) ∧
    done (.mulhn o) 4 (BitVec.ofNat 64 (a.toNat * b.toNat / 2 ^ 64)) ∧
    done (.and o) 1 (a &&& b) ∧
    done (.or o) 1 (a ||| b) ∧
    done (.xor o) 1 (a ^^^ b) ∧
    done (.andn o) 1 (a &&& ~~~b) ∧
    done (.shl o) 1 (a <<< (b.toNat % 64)) ∧
    done (.shr o) 1 (a >>> (b.toNat % 64)) ∧
    done (.sar o) 1 (a.sshiftRight (b.toNat % 64)) ∧
    done (.rotl o) 1 (a.rotateLeft (b.toNat % 64)) ∧
    done (.min o) 1 (if a.toInt < b.toInt then a else b) ∧
    done (.max o) 1 (if a.toInt < b.toInt then b else a) ∧
    done (.minn o) 1 (if a.toNat < b.toNat then a else b) ∧
    done (.maxn o) 1 (if a.toNat < b.toNat then b else a) ∧
    (o.ba = 0 → o.b = 0 →
      done (.clz o) 1 (BitVec.ofNat 64 (clzN 64 a.toNat)) ∧ done (.popc o) 1 (BitVec.ofNat 64 (popN 64 a.toNat)))

/-- R290: division. A zero divisor gives all ones for a quotient and the dividend for a remainder and sets divide by
zero; the most negative number by −1 gives itself and remainder 0, and overflows for DIV alone. Result and flags land at
offset 18. -/
def Obligations.ScalarDivision : Prop :=
  ∀ (o : S3) (s : State), (o.ba = 0 ∨ o.b = 0) →
    let a := s.sv o.a
    let b := if o.ba = 1 then s.mine.bs else s.sv o.b
    let least : Word := 0x8000000000000000#64
    let done (i : Instr) (v : Word) (f : Nat) : Prop :=
      Completes i s 1 (scalarResult s 18 o.d v ++ flagResult s 18 f)
    (b = 0 → done (.div o) (-1#64) flDivZero ∧ done (.divn o) (-1#64) flDivZero ∧
      done (.rem o) a flDivZero ∧ done (.remn o) a flDivZero) ∧
    (b ≠ 0 → done (.divn o) (a / b) 0 ∧ done (.remn o) (a % b) 0) ∧
    (a = least → b = -1#64 → done (.div o) least flTrapInt ∧ done (.rem o) 0 0) ∧
    (b ≠ 0 → ¬(a = least ∧ b = -1#64) → done (.div o) (a.sdiv b) 0 ∧ done (.rem o) (a.srem b) 0)

/-- R291: the compares. An even destination n takes the condition and n + 1 its complement, an odd one takes the
condition alone; p0 discards. -/
def Obligations.ScalarCompares : Prop :=
  (∀ (o : SP) (s : State), (o.ba = 0 ∨ o.b = 0) →
    let a := s.sv o.a
    let b := if o.ba = 1 then s.mine.bs else s.sv o.b
    let n := o.pd.toNat
    let done (i : Instr) (c : Bool) : Prop :=
      Completes i s 1 (predResult s n c ++ (if n % 2 = 0 then predResult s (n + 1) !c else []))
    done (.cmpeq o) (decide (a = b)) ∧ done (.cmpne o) (decide (a ≠ b)) ∧
    done (.cmplt o) (decide (a.toInt < b.toInt)) ∧ done (.cmpltn o) (decide (a.toNat < b.toNat)) ∧
    done (.cmple o) (decide (a.toInt ≤ b.toInt)) ∧ done (.cmplen o) (decide (a.toNat ≤ b.toNat))) ∧
  [0x01900000#32, 0x01A00000#32, 0x01B00000#32, 0x01C00000#32, 0x01D00000#32, 0x01E00000#32].map (decodeSlotWord 1) =
    [.ok (0, .cmpeq ⟨0, 0, 0, 0⟩), .ok (0, .cmpne ⟨0, 0, 0, 0⟩), .ok (0, .cmplt ⟨0, 0, 0, 0⟩),
      .ok (0, .cmpltn ⟨0, 0, 0, 0⟩), .ok (0, .cmple ⟨0, 0, 0, 0⟩), .ok (0, .cmplen ⟨0, 0, 0, 0⟩)]

/-- R292, R293: extension, selection, immediates, predicate logic, and SRD. -/
def Obligations.ScalarMoves : Prop :=
  (∀ (o : SX) (s : State), o.ty.toNat ≤ 7 →
    let x := (s.sv o.a).toNat % 2 ^ tyWidth o.ty
    Completes (.ext o) s 1 (scalarResult s 1 o.d
      (if tySigned o.ty && decide (2 ^ (tyWidth o.ty - 1) ≤ x) then BitVec.ofInt 64 (x - 2 ^ tyWidth o.ty) else BitVec.ofNat 64 x))) ∧
  (∀ (o : SS) (s : State), Completes (.sel o) s 1 (scalarResult s 1 o.d (if s.pv o.p then s.sv o.a else 0))) ∧
  (∀ (o : SI) (s : State), Completes (.addi o) s 1 (scalarResult s 1 o.d (s.sv o.a + BitVec.ofInt 64 o.imm.toInt))) ∧
  (∀ (o : SM) (s : State),
    Completes (.movi o) s 1 (scalarResult s 1 o.d (BitVec.ofInt 64 o.imm.toInt)) ∧
    Completes (.movhi o) s 1 (scalarResult s 1 o.d (s.sv o.d <<< (14 : Nat) ||| BitVec.ofNat 64 o.imm.toNat))) ∧
  (∀ (o : SQ) (s : State), Completes (.plog o) s 1
    (predResult s o.pd.toNat (o.fn.getLsbD (2 * (s.pv o.pa).toNat + (s.pv o.pb).toNat)))) ∧
  ∀ (o : SV) (s : State), (o.sel.toNat ≤ 0x0D ∨ (0x10 ≤ o.sel.toNat ∧ o.sel.toNat ≤ 0x13)) →
    Completes (.srd o) s 1 (scalarResult s 1 o.d (s.special o.sel.toNat))

/-- R294: the address forms of slot A land at offset 1 without a bypass; AWRAP subtracts b when a is not below it; KGET
with field 0 discards. -/
def Obligations.AddressForms : Prop :=
  (∀ (o : S3) (s : State), (o.ba = 0 ∨ o.b = 0) →
    let a := s.sv o.a
    let b := if o.ba = 1 then s.mine.bs else s.sv o.b
    let done (i : Instr) (v : Word) : Prop := Completes i s 2 (plainResult s 1 o.d v)
    done (.aadd o) (a + b) ∧ done (.asub o) (a - b) ∧ done (.aidx o) (a + 256 * b) ∧
    done (.awrap o) (if a.toNat < b.toNat then a else a - b) ∧
    (o.ba = 0 → o.b = 0 → done (.amov o) a)) ∧
  (∀ (o : SI) (s : State), Completes (.aaddi o) s 2 (plainResult s 1 o.d (s.sv o.a + BitVec.ofInt 64 o.imm.toInt))) ∧
  (∀ (o : AK) (s : State), Completes (.kget o) s 2 (plainResult s 1 o.a (s.kv o.k + BitVec.ofInt 64 o.imm.toInt))) ∧
  [0x00500000#32, 0x00600000#32, 0x00700000#32, 0x00800000#32, 0x00900000#32, 0x00A00000#32].map (decodeSlotWord 2) =
    [.ok (0, .aadd ⟨0, 0, 0, 0⟩), .ok (0, .asub ⟨0, 0, 0, 0⟩), .ok (0, .aaddi ⟨0, 0, 0⟩), .ok (0, .amov ⟨0, 0, 0, 0⟩),
      .ok (0, .aidx ⟨0, 0, 0, 0⟩), .ok (0, .awrap ⟨0, 0, 0, 0⟩)]

/-- R277, R295: the count registers. On a level that the header does not make spatial, LSET, KSET and KADD land their
value at offset 1. R277, R295, R341: a write to the count register of a spatial level (kind 1 or 2) is decode-fault
0x04, and nothing else happens. -/
def Obligations.CountRegisters : Prop :=
  ((∀ (o : AL) (s : State), s.cur.loopKind o.lvl.toNat ≠ 1 → s.cur.loopKind o.lvl.toNat ≠ 2 →
    Completes (.lset o) s 2 [(1, .k o.lvl.toNat (s.sv o.a))]) ∧
  ∀ (o : AK) (s : State), (4 ≤ o.k.toNat ∨ (s.cur.loopKind o.k.toNat ≠ 1 ∧ s.cur.loopKind o.k.toNat ≠ 2)) →

    Completes (.kset o) s 2 [(1, .k o.k.toNat (s.sv o.a + BitVec.ofInt 64 o.imm.toInt))] ∧
    Completes (.kadd o) s 2 [(1, .k o.k.toNat (s.kv o.k + s.sv o.a + BitVec.ofInt 64 o.imm.toInt))]) ∧
  ∀ s : State,
    (∀ o : AL, (s.cur.loopKind o.lvl.toNat = 1 ∨ s.cur.loopKind o.lvl.toNat = 2) → exec (.lset o) s = .next (s.faultHere 0x04 0)) ∧
    (∀ o : AK, o.k.toNat < 4 → (s.cur.loopKind o.k.toNat = 1 ∨ s.cur.loopKind o.k.toNat = 2) →
      exec (.kset o) s = .next (s.faultHere 0x04 0) ∧ exec (.kadd o) s = .next (s.faultHere 0x04 0)) ∧
    ∀ o : LK, o.k.toNat < 4 → (s.cur.loopKind o.k.toNat = 1 ∨ s.cur.loopKind o.k.toNat = 2) →
      exec (.ldk o) s = .next (s.faultHere 0x04 0)

/-- R279, R280, R296: shapes, the rotating base, the staging fields and the replay state. A byte, half or word field of
SHF replaces those bits of the shadow; RRBW writes BASE; PSTG sets STG and writes SLV and EC; LCNT and LREPT are taken
from core index 0, a count of 0 acting as 1. R297: NTQ. A core's tile of request i is (i × nsr + srk) × team + its
index: inside the total, s48 takes its coordinates by the width and p8 true; outside, s48 takes all ones and p8 false.
Both land at offset 12, and core index 0 counts the request. -/
def Obligations.ShapesAndReplayState : Prop :=
  ((∀ (o : AH) (s : State), o.eng ≠ 3 →
    (o.field ≠ 15 →
      let w := if o.field.toNat ≤ 7 then 8 else if o.field.toNat ≤ 11 then 16 else if o.field.toNat ≤ 13 then 32 else 64
      let at_ := if o.field.toNat ≤ 7 then 8 * o.field.toNat else if o.field.toNat ≤ 11 then 16 * (o.field.toNat - 8)
        else if o.field.toNat ≤ 13 then 32 * (o.field.toNat - 12) else 0
      Completes (.shf o) s 2
        [(1, .shape o.eng.toNat o.h.toNat (BitVec.ofNat 64 ((2 ^ w - 1) * 2 ^ at_)) (s.sv o.a <<< at_))]) ∧
    (o.field = 0 → o.a = 0 → Completes (.shcp o) s 2
      [(1, .shape o.eng.toNat o.h.toNat (-1#64) ((s.mine.shapes o.eng.toNat).look o.h.toNat).live)])) ∧
  (∀ (o : AN) (s : State), o.n.toNat < 16 → Completes (.rrbw o) s 2 [(1, .rrb 0xF#64 (BitVec.ofNat 64 o.n.toNat))]) ∧
  (∀ (o : AN) (s : State),
    Completes (.pstg o) s 2 [(1, .rrb 0x1FF0#64 (BitVec.ofNat 64 (0x1000 + 16 * o.n.toNat)))]) ∧
  (∀ (o : AK) (s : State), o.k.toNat ≤ 3 →
    let n := ((s.sv o.a).toNat + o.imm.toInt) % 2 ^ 32
    Completes (.lcnt o) s 2
      (if s.env.idx = 0 then [(1, .replayCount o.k.toNat (if n = 0 then 1 else n.toNat))] else [])) ∧
  ∀ (o : AK) (s : State), o.imm.toNat < 32 →
    Completes (.lrept o) s 2
      (if s.env.idx = 0 then [(1, .replayEntry (o.imm.toNat / 4) o.k.toNat (o.imm.toNat % 4) (s.sv o.a))] else [])) ∧
  ∀ (o : AN) (s : State), o.n.toNat ≤ 1 →
    let sp := o.n = 1
    let i := if sp then s.env.nt1 else s.env.nt0
    let total := (s.mine.k.look (if sp then 14 else 12)).toNat % 2 ^ 32
    let width := (s.mine.k.look (if sp then 15 else 13)).toNat % 2 ^ 32
    let x := if width = 0 then 1 else width
    let t := (i * s.cur.nsr + s.cur.srk) * s.cur.team + s.env.idx
    let w : List (Nat × Write) :=
      if t < total then [(12, .s (physS s.mine.base 48) (BitVec.ofNat 64 (t / x % 2 ^ 32 * 2 ^ 32 + t % x))),
        (12, .p (physP s.mine.base 8) true)]
      else [(12, .s (physS s.mine.base 48) (-1#64)), (12, .p (physP s.mine.base 8) false)]
    exec (.ntq o) s = .next
      (if s.env.idx = 0 then (issues (s.issued1 2) w).modTask s.env.task fun k =>
          if sp then { k with nt1 := i + 1 } else { k with nt0 := i + 1 }
        else issues (s.issued1 2) w)

namespace Sys2Proof.Spec

open Sys2Proof.Machine

/-- The team's next bundle is at an address, by core index 0, whose control core it is (R270). -/
def goes (s : State) (pc : Word) : State := if s.env.idx = 0 then s.modTask s.env.task fun t => { t with pc := pc } else s

/-- A wait of the team before its next bundle (R176, R286). -/
def waitsOn (s : State) (w : WaitOn) : State :=
  s.modTask s.env.task fun t => { t with waits := t.waits ++ [⟨s.env.idx, s.env.cyc, w⟩] }

end Sys2Proof.Spec

/-- R270, R271: the branches. BR and CALL go to the bundle's address + 4 × OFS, BRR and CALLR to their register with bits
1:0 cleared, RET to s47 so; CALL and CALLR land the address of the next bundle in s47 at offset 1. R249, R272, R273,
R283, R288: NOP changes nothing but the slot noted; MARK only counts and charges; END makes the control core send
nothing more after the bundle's empty bundles; TRAP aborts the task with reason 0x0400 + n; FMTW lands the selected
fields of fmt at offset 4. -/
def Obligations.Transfers : Prop :=
  (∀ (s : State),
    let t := s.issued1 0
    let link := issues t [(1, .s 47 s.env.next)]
    (∀ o : CJ, exec (.br o) s = .next (goes t (s.env.pc + BitVec.ofInt 64 (4 * o.ofs.toInt))) ∧
      exec (.call o) s = .next (goes link (s.env.pc + BitVec.ofInt 64 (4 * o.ofs.toInt)))) ∧
    (∀ o : CR, exec (.brr o) s = .next (goes t (s.sv o.a &&& ~~~3#64)) ∧
      exec (.callr o) s = .next (goes link (s.sv o.a &&& ~~~3#64))) ∧
    exec .ret s = .next (goes t (s.sv 47 &&& ~~~3#64))) ∧
  (∀ (k : Fin 8) (s : State), exec (.nop k) s = .next { s with env := { s.env with slot := k.val } }) ∧
  (∀ (o : CT) (s : State), exec (.mark o) s = .next (s.issued1 0)) ∧
  (∀ s : State, s.env.idx = 0 →
    exec .endTask s = .next ((s.issued1 0).modTask s.env.task fun t => { t with endAfter := true })) ∧
  (∀ (o : CT) (s : State), s.env.idx = 0 → exec (.trap o) s = .next ((s.issued1 0).abort s.env.task (0x0400 + o.n.toNat))) ∧
  ∀ (o : CF) (s : State),
    exec (.fmtw o) s = .next (issues (s.issued1 0) (if fmtMask o.fmask = 0 then [] else [(4, .fmt (fmtMask o.fmask) (s.sv o.a))]))

/-- R248, R274, R275: BTREE on core index 0 sets the path of the bundle and goes to its target, the next bundle for
0xFFFF_FFFF and the code's base + the offset otherwise; other cores change nothing. An entry beyond the table is
decode-fault 0x04. A task that is not measured signs nothing. R274, R275: the path that BTREE takes is the first valid
test that holds, otherwise the number of valid tests; a test byte is valid with bit 7, names the predicate in bits
3:0, and holds when that predicate differs from bit 4. -/
def Obligations.BranchTree : Prop :=
  (∀ (e : List Byte) (p : Nat → Bool),
    let test (i : Nat) : Byte := e.getD i 0
    let valid (i : Nat) : Prop := i < 4 ∧ (test i).getLsbD 7 = true
    let holds (i : Nat) : Prop := p ((test i).toNat % 16) ≠ (test i).getLsbD 4
    (∀ i < treePath e p, valid i ∧ ¬holds i) ∧ (valid (treePath e p) → holds (treePath e p)) ∧ treePath e p ≤ 4) ∧
  ∀ (o : CT) (s : State),
    let e := (s.cur.btt.drop (32 * o.n.toNat)).take 32
    let path := treePath e s.mine.pNamed
    let v := leNat ((e.drop (8 + 4 * path)).take 4)
    let t := s.issued1 0
    (o.n.toNat < s.cur.hdrNat 48 2 →
      (s.env.idx ≠ 0 → exec (.btree o) s = .next t) ∧
      (s.env.idx = 0 → s.measured s.env.task = false →
        exec (.btree o) s = .next (goes (t.setPath path)
          (if v = 0xFFFFFFFF then s.env.next else BitVec.ofNat 64 (s.cur.codeBase + v))))) ∧
    (s.cur.hdrNat 48 2 ≤ o.n.toNat → exec (.btree o) s = .next (s.faultHere 0x04 0))

/-- R278: LEND. A spatial level does nothing. A count n above 1 becomes n − 1 and the loop is taken; a staged level also
rotates BASE down by one and sets the new p8. A staged level at its last count with EC above 0 counts EC down, rotates,
clears the new p8 and is taken. Otherwise the count becomes 0, a staged level clears STG, and issue falls through. -/
def Obligations.LoopEnd : Prop :=
  (∀ (o : CL) (s : State),
    let l := o.lvl.toNat
    let n := (s.mine.k.look l).toNat
    let staged := s.mine.rrb.getLsbD 12 = true ∧ bits s.mine.rrb.toNat 11 10 = l
    let ec := bits s.mine.rrb.toNat 9 4
    let down := (s.mine.rrb.toNat % 16 + 15) % 16
    let rotate (c : Bool) : List (Nat × Write) := [(1, .rrb 0xF#64 (BitVec.ofNat 64 down)), (1, .p (physP down 8) c)]
    let t := s.issued1 0
    let taken (w : List (Nat × Write)) : Prop :=
      exec (.lend o) s = .next (goes (issues t w) (s.env.pc + BitVec.ofInt 64 (4 * o.ofs.toInt)))
    let through (w : List (Nat × Write)) : Prop := exec (.lend o) s = .next (issues t w)
    (s.cur.loopKind l = 1 ∨ s.cur.loopKind l = 2 → through []) ∧
    (s.cur.loopKind l ≠ 1 → s.cur.loopKind l ≠ 2 →
      (1 < n → ¬staged → taken [(1, .k l (BitVec.ofNat 64 (n - 1)))]) ∧
      (1 < n → staged → taken ((1, .k l (BitVec.ofNat 64 (n - 1))) :: rotate true)) ∧
      (n ≤ 1 → staged → 0 < ec →
        taken ([(1, .k l 0), (1, .rrb 0x3F0#64 (BitVec.ofNat 64 ((ec - 1) * 16)))] ++ rotate false)) ∧
      (n ≤ 1 → staged → ec = 0 → through [(1, .k l 0), (1, .rrb 0x1000#64 0)]) ∧
      (n ≤ 1 → ¬staged → through [(1, .k l 0)]))) ∧
  decodeSlotWord 0 0x00700000#32 = .ok (0, .lend ⟨0, 0⟩)

/-- R281, R282: LREP opens a replay block at the next bundle with bits 4:0 + 1 bundles and bits 6:5 + 1 levels, all passes
at 0, by core index 0. LEXIT outside a block does nothing; inside one, core index 0 leaves replay mode. -/
def Obligations.ReplayBlock : Prop :=
  (∀ (o : CT) (s : State), o.n.toNat < 128 →
    (s.env.idx ≠ 0 → exec (.lrep o) s = .next (s.issued1 0)) ∧
    (s.env.idx = 0 → exec (.lrep o) s = .next ((s.issued1 0).modTask s.env.task fun t =>
      { t with rblock := some (s.env.next.toNat, o.n.toNat % 32 + 1, o.n.toNat / 32 + 1)
               rpass := List.replicate (o.n.toNat / 32 + 1) 0, rpos := 0, loopBuf := [] }))) ∧
  ∀ s : State,
    (s.cur.rblock = none ∨ s.env.idx ≠ 0 → exec .lexit s = .next (s.issued1 0)) ∧
    (s.cur.rblock ≠ none → s.env.idx = 0 → ∃ t, exec .lexit s = .next t ∧ (t.task s.env.task).rblock = none ∧
      (t.task s.env.task).rtab = [] ∧ (t.task s.env.task).rc = [1, 1, 1, 1] ∧ t.banks = s.banks ∧ t.mem = s.mem)

/-- R284, R285, R286, R287: FENCE, AWAIT, WAITA and TWAIT complete, when their checks find nothing. FENCE takes the release
and the acquire actions of its scope, gives its acquire to loads of the context that have still to read, and holds later stores
while earlier accesses that its scope orders have not completed; with none outstanding it holds nothing. AWAIT and WAITA take
the acquire of their scope at once when the word satisfies them, and otherwise the team waits; a word of the domain is known
once a read of it has come back, and until then one is sent for. TWAIT waits for its tick. -/
def Obligations.FencesAndWaits : Prop :=
  (∀ (o : CW) (s : State), o.a = 0 → o.b = 0 → o.scope ≠ 7 →
    let core := s.env.core
    let t := (((s.issued1 0).releaseActs core s.env.ctx s.cur.part o.scope.toNat).acquireActs core s.cur.part
      o.scope.toNat).acquireLater core s.env.ctx o.scope.toNat
    (t.releaseWaits core s.env.ctx o.scope.toNat = true → exec (.fence o) s = .next
      (t.modBank (ctxOf core s.env.ctx) fun b => { b with fence := max b.fence (o.scope.toNat + 1) })) ∧
    (t.releaseWaits core s.env.ctx o.scope.toNat = false → exec (.fence o) s = .next t) ∧
    ((t.bank (ctxOf core s.env.ctx)).maint = 0 → t.atoms = [] → t.loads = [] → t.stores = [] → t.fabric = [] → t.cmds = [] →
      exec (.fence o) s = .next t)) ∧
  (∀ (ne : Bool) (o : CW) (s : State), o.scope ≠ 7 → (s.finding (s.awaitCheck ne o)).1 = 0 → s.env.probe = false →
    let i : Instr := if ne then .waita o else .await o
    let w := awaitWord (s.sv o.a)
    let t := s.issued1 0
    let v := t.awaitValue s.cur s.env.core o.scope.toNat w
    let ok (x : Nat) : Prop := if ne then x ≠ (s.sv o.b).toNat else (s.sv o.b).toNat ≤ x
    (∀ x, v = some x → ok x → exec i s = .next (t.acquireActs s.env.core s.cur.part o.scope.toNat)) ∧
    ((∀ x, v = some x → ¬ok x) →
      (∀ off, w = .inl off → exec i s = .next (waitsOn t (.spadWord off (s.sv o.b) ne o.scope.toNat))) ∧
      ∀ va, w = .inr va →
        let wait : WaitOn := .memWord va (s.sv o.b) ne o.scope.toNat (s.now - skew s.env.idx)
        let pa := (t.coreXlate s.env.core s.cur.part va 0).2.pa va
        (paD pa = false → exec i s = .next (waitsOn t wait)) ∧
        (paD pa = true → ∃ u, exec i s = .next u ∧ (u.task s.env.task).waits = s.cur.waits ++ [⟨s.env.idx, s.env.cyc, wait⟩] ∧
          u.banks = s.banks ∧ u.mem = s.mem ∧
          ∃ e ∈ u.fabric, e.2.poll = some s.env.core ∧ e.2.task = s.env.task ∧ e.2.pa = pa))) ∧
  ∀ (o : CW) (s : State), o.b = 0 → o.scope = 0 → s.env.probe = false → s.cur.dynamic = true →
    ((s.sv o.a).toNat ≤ s.tick → exec (.twait o) s = .next (s.issued1 0)) ∧
    (s.tick < (s.sv o.a).toNat → 0 < s.cur.hdrNat 26 2 →
      exec (.twait o) s = .next (waitsOn (s.issued1 0) (.tick (s.sv o.a).toNat))) ∧
    (s.tick < (s.sv o.a).toNat → s.cur.hdrNat 26 2 = 0 → exec (.twait o) s = .next (s.faultHere 0x51 0))
namespace Sys2Proof.Spec

open Sys2Proof.Machine

/-- Element e of a vector of elements of w bits (R300). -/
def lane (w : Nat) (v : Vec) (e : Nat) : Nat := bits v.toNat (w * e + w - 1) (w * e)

/-- The vector whose element e is what f gives, and the union of the elements' flags (R305). -/
def lanes (w : Nat) (f : Nat → Nat × Nat) : Vec × Nat :=
  (tabulate w fun e => (f e).1, (List.range (4096 / w)).foldl (fun m e => m ||| (f e).2) 0)

/-- A vector operation of a slot completes with an element result, charged at the class of its element width (R304). -/
def CompletesLanes (i : Instr) (s : State) (u : VUnit) (d : BitVec 5) (off w : Nat) (f : Nat → Nat × Nat) : Prop :=
  CompletesV i s (if w = 32 then 3 else 4) (vectorResult s u off d (lanes w f).1 (lanes w f).2)

/-- The bypass of a vector slot (R252). -/
def bypass (s : State) (u : VUnit) : Vec := match u with | .v0 => s.mine.bv0 | .v1 => s.mine.bv1

/-- The value of an integer element (R308). -/
def intOf (ty : BitVec 4) (x : Nat) : Int := if ty.toNat ≤ 3 then sintN (tyWidth ty) x else x

/-- A value clamped to the range of a type, and the overflow flag when it lay outside (R308). -/
def clamped (ty : BitVec 4) (v : Int) : Nat × Nat :=
  let w := tyWidth ty
  let lo : Int := if ty.toNat ≤ 3 then -(2 ^ (w - 1)) else 0
  let hi : Int := if ty.toNat ≤ 3 then 2 ^ (w - 1) - 1 else 2 ^ w - 1
  ((max lo (min hi v) % 2 ^ w).toNat, if v < lo ∨ hi < v then flIntOvf else 0)

/-- Rounding and flushing as the float operations that follow FTZ read them from fmt (R305, R306). -/
def fpu (s : State) : FpEnv := { rm := fmtRM s.mine.fmt, ftz := fmtFTZ s.mine.fmt, sat := fmtF8SAT s.mine.fmt }

end Sys2Proof.Spec

/-- R302, R304, R308: the integer element forms of V0 and V1, for the types n16, n32, s16 and s32 at every width, with the
bypass in place of b (of a in one-source forms). -/
def Obligations.VectorInteger : Prop :=
  ∀ (u : VUnit) (o : V3) (s : State), isI o.ty = true →
    let w := tyWidth o.ty
    let x := lane w (s.vv o.a)
    let y := lane w (if o.byp = 1 then bypass s u else s.vv o.b)
    let z := lane w (if o.byp = 1 then bypass s u else s.vv o.a)
    let i := intOf o.ty
    let done (op : Instr) (off : Nat) (f : Nat → Nat) : Prop := CompletesLanes op s u o.d off w fun e => (f e, 0)
    ((o.byp = 0 ∨ o.b = 0) →
      done (.vadd u o) 2 (fun e => (x e + y e) % 2 ^ w) ∧
      done (.vsub u o) 2 (fun e => ((x e : Int) - y e) % 2 ^ w |>.toNat) ∧
      done (.vmin u o) 2 (fun e => if i (x e) < i (y e) then x e else y e) ∧
      done (.vmax u o) 2 (fun e => if i (x e) < i (y e) then y e else x e) ∧
      done (.vand u o) 2 (fun e => x e &&& y e) ∧ done (.vor u o) 2 (fun e => x e ||| y e) ∧
      done (.vxor u o) 2 (fun e => x e ^^^ y e) ∧
      done (.vshl u o) 2 (fun e => x e * 2 ^ (y e % w) % 2 ^ w) ∧ done (.vshr u o) 2 (fun e => x e / 2 ^ (y e % w)) ∧
      done (.vsar u o) 2 (fun e => sintN w (x e) / 2 ^ (y e % w) % 2 ^ w |>.toNat) ∧
      done (.vmullo u o) 4 (fun e => x e * y e % 2 ^ w) ∧
      CompletesLanes (.vadds u o) s u o.d 2 w (fun e => clamped o.ty (i (x e) + i (y e))) ∧
      CompletesLanes (.vsubs u o) s u o.d 2 w (fun e => clamped o.ty (i (x e) - i (y e)))) ∧
    (o.b = 0 → (o.byp = 0 ∨ o.a = 0) →
      done (.vabs u o) 2 (fun e => if o.ty.toNat ≤ 3 then (i (z e)).natAbs % 2 ^ w else z e) ∧
      done (.vneg u o) 2 (fun e => (2 ^ w - z e) % 2 ^ w) ∧
      done (.vclz u o) 2 (fun e => clzN w (z e)) ∧ done (.vpopc u o) 2 (fun e => popN w (z e)))

/-- R302, R305, R306: the float forms for fp32, fp16 and bf16. Sources are read under FTZ, the exact result is rounded
once in fmt's mode and written under FTZ; the fused forms are a·b + d, a·b − d and d − a·b; the one-source forms round
the model's results (notes/assumptions/6.md) and add the flags of their rule. R307: minimum, maximum, clamp, absolute
value and negation of float elements; one NaN gives the other operand, two give the default NaN, and a signalling one
raises invalid. VCLAMP is VMIN(VMAX(d, a), b) at either kind of type. -/
def Obligations.VectorFloat : Prop :=
  (∀ (u : VUnit) (o : V3) (s : State), isF o.ty = true →
    let w := tyWidth o.ty
    let f := tyFmt o.ty
    let x := lane w (s.vv o.a)
    let y := lane w (if o.byp = 1 then bypass s u else s.vv o.b)
    let z := lane w (if o.byp = 1 then bypass s u else s.vv o.a)
    let d := lane w (s.vv o.d)
    let rd := (fpu s).read f
    let wr := (fpu s).write f
    let sum (p q : FpVal) : Nat × Nat := wr (FpVal.addZ (fmtRM s.mine.fmt) p q)
    let unary (g : FpVal → FpVal × Nat) (e : Nat) : Nat × Nat := ((wr (g (rd (z e))).1).1, (wr (g (rd (z e))).1).2 ||| (g (rd (z e))).2)
    ((o.byp = 0 ∨ o.b = 0) →
      CompletesLanes (.vadd u o) s u o.d 4 w (fun e => sum (rd (x e)) (rd (y e))) ∧
      CompletesLanes (.vsub u o) s u o.d 4 w (fun e => sum (rd (x e)) (rd (y e)).neg) ∧
      CompletesLanes (.vmul u o) s u o.d 4 w (fun e => wr (FpVal.mul (rd (x e)) (rd (y e)))) ∧
      CompletesLanes (.vfma u o) s u o.d 4 w (fun e => sum (FpVal.mul (rd (x e)) (rd (y e))) (rd (d e))) ∧
      CompletesLanes (.vfms u o) s u o.d 4 w (fun e => sum (FpVal.mul (rd (x e)) (rd (y e))) (rd (d e)).neg) ∧
      CompletesLanes (.vfnma u o) s u o.d 4 w (fun e => sum (FpVal.mul (rd (x e)) (rd (y e))).neg (rd (d e)))) ∧
    (o.b = 0 → (o.byp = 0 ∨ o.a = 0) →
      CompletesLanes (.vrcp u o) s u o.d 12 w (unary rcpReal) ∧ CompletesLanes (.vrsq u o) s u o.d 12 w (unary rsqReal) ∧
      CompletesLanes (.vsqrt u o) s u o.d 12 w (unary sqrtOf) ∧ CompletesLanes (.vexp2 u o) s u o.d 12 w (unary exp2Of) ∧
      CompletesLanes (.vlog2 u o) s u o.d 12 w (unary log2Of) ∧
      CompletesLanes (.vround u o) s u o.d 4 w (fun e => (fpu s).round f (z e)))) ∧
  ∀ (u : VUnit) (o : V3) (s : State),
    let w := tyWidth o.ty
    let f := tyFmt o.ty
    let x := lane w (s.vv o.a)
    let y := lane w (if o.byp = 1 then bypass s u else s.vv o.b)
    let z := lane w (if o.byp = 1 then bypass s u else s.vv o.a)
    let d := lane w (s.vv o.d)
    let nan (v : Nat) : Bool := (f.val v).isNan
    let signal (p q : Nat) : Nat := if f.val p = .nan true ∨ f.val q = .nan true then flInvalid else 0
    let pick (p q : Nat) (first : Bool) : Nat × Nat :=
      (if nan p && nan q then f.defaultNan else if nan p then q else if nan q then p else if first then p else q, signal p q)
    (isF o.ty = true →
      ((o.byp = 0 ∨ o.b = 0) →
        CompletesLanes (.vmin u o) s u o.d 4 w (fun e => pick (x e) (y e) (decide (fpKey f (x e) < fpKey f (y e)))) ∧
        CompletesLanes (.vmax u o) s u o.d 4 w (fun e => pick (x e) (y e) (!decide (fpKey f (x e) < fpKey f (y e))))) ∧
      (o.b = 0 → (o.byp = 0 ∨ o.a = 0) →
        CompletesLanes (.vabs u o) s u o.d 2 w (fun e => (z e % 2 ^ (w - 1), 0)) ∧
        CompletesLanes (.vneg u o) s u o.d 2 w (fun e => (setBits (z e) (w - 1) (w - 1) (if bit (z e) (w - 1) then 0 else 1), 0)))) ∧
    (isIF o.ty = true → (o.byp = 0 ∨ o.b = 0) →
      CompletesLanes (.vclamp u o) s u o.d (if isF o.ty then 4 else 2) w (fun e =>
        ((minMaxElem o.ty false (minMaxElem o.ty true (d e) (x e)).1 (y e)).1,
          (minMaxElem o.ty true (d e) (x e)).2 ||| (minMaxElem o.ty false (minMaxElem o.ty true (d e) (x e)).1 (y e)).2)))

/-- R309: the compares write all ones or zeros; of float operands an unordered pair fails all but VCMPUN, and invalid is
raised by a signalling NaN, by any NaN for VCMPLT and VCMPLE; VSEL takes a where the old destination's top bit is set, b
elsewhere. -/
def Obligations.VectorCompares : Prop :=
  ∀ (u : VUnit) (o : V3) (s : State), isIF o.ty = true → (o.byp = 0 ∨ o.b = 0) →
    let w := tyWidth o.ty
    let f := tyFmt o.ty
    let x := lane w (s.vv o.a)
    let y := lane w (if o.byp = 1 then bypass s u else s.vv o.b)
    let p (e : Nat) : FpVal := f.val (x e)
    let q (e : Nat) : FpVal := f.val (y e)
    let mask (c : Bool) : Nat := if c then 2 ^ w - 1 else 0
    let signal (e : Nat) : Nat := if p e = .nan true ∨ q e = .nan true then flInvalid else 0
    let anyNan (e : Nat) : Nat := if (p e).isNan ∨ (q e).isNan then flInvalid else 0
    let i := intOf o.ty
    (isI o.ty = true →
      CompletesLanes (.vcmpeq u o) s u o.d 2 w (fun e => (mask (decide (x e = y e)), 0)) ∧
      CompletesLanes (.vcmplt u o) s u o.d 2 w (fun e => (mask (decide (i (x e) < i (y e))), 0)) ∧
      CompletesLanes (.vcmple u o) s u o.d 2 w (fun e => (mask (decide (i (x e) ≤ i (y e))), 0))) ∧
    (isF o.ty = true →
      CompletesLanes (.vcmpeq u o) s u o.d 2 w (fun e => (mask ((p e).eq (q e)), signal e)) ∧
      CompletesLanes (.vcmplt u o) s u o.d 2 w (fun e => (mask ((p e).lt (q e)), anyNan e)) ∧
      CompletesLanes (.vcmple u o) s u o.d 2 w (fun e => (mask ((p e).lt (q e) || (p e).eq (q e)), anyNan e)) ∧
      CompletesLanes (.vcmpun u o) s u o.d 2 w (fun e => (mask ((p e).isNan || (q e).isNan), signal e))) ∧
    CompletesLanes (.vsel u o) s u o.d 2 w (fun e => (if bit (lane w (s.vv o.d) e) (w - 1) then x e else y e, 0))

/-- R310: VDOT sums the four products of the lane's bytes, VDOTA starts from the old lane at the result width; the total is
clamped to the result type, and a clamp raises the trapping overflow. -/
def Obligations.VectorDot : Prop :=
  ∀ (u : VUnit) (o : V3) (s : State), isI o.ty = true → (o.byp = 0 ∨ o.b = 0) →
    let signed := o.ty.toNat ≤ 3
    let x := lane 32 (s.vv o.a)
    let y := lane 32 (if o.byp = 1 then bypass s u else s.vv o.b)
    let byte (v k : Nat) : Int := if signed then sintN 8 (v / 256 ^ k) else (v / 256 ^ k % 256 : Nat)
    let dot (e : Nat) : Int :=
      byte (x e) 0 * byte (y e) 0 + byte (x e) 1 * byte (y e) 1 + byte (x e) 2 * byte (y e) 2 + byte (x e) 3 * byte (y e) 3
    let old (e : Nat) : Int := intOf o.ty (lane 32 (s.vv o.d) e % 2 ^ tyWidth o.ty)
    let w := tyWidth o.ty
    let lo : Int := if signed then -(2 ^ (w - 1)) else 0
    let hi : Int := if signed then 2 ^ (w - 1) - 1 else 2 ^ w - 1
    let out (t : Int) : Nat × Nat := ((max lo (min hi t) % 2 ^ 32).toNat, if t < lo ∨ hi < t then flTrapInt else 0)
    CompletesLanes (.vdot u o) s u o.d 4 32 (fun e => out (dot e)) ∧
    CompletesLanes (.vdota u o) s u o.d 4 32 (fun e => out (old e + dot e))

/-- R311: the reductions work within each group of 16 lanes, by a tree over neighbours, and combine the group's first
element of b with the result at last; every element of the group takes it. -/
def Obligations.VectorReductions : Prop :=
  ∀ (u : VUnit) (o : V3) (s : State), isIF o.ty = true → (o.byp = 0 ∨ o.b = 0) →
    let w := tyWidth o.ty
    let m := 512 / w
    let x := lane w (s.vv o.a)
    let y := lane w (if o.byp = 1 then bypass s u else s.vv o.b)
    let out (comb : Nat → Nat → Nat × Nat) (e : Nat) : Nat × Nat :=
      let t := reduceTree comb 5 ((List.range m).map fun j => x (m * (e / m) + j))
      ((comb (y (m * (e / m))) t.1).1, (comb (y (m * (e / m))) t.1).2 ||| t.2)
    CompletesLanes (.vrsum u o) s u o.d (if isF o.ty then 10 else 6) w (out (addElem o.ty false (fpu s))) ∧
    CompletesLanes (.vrmax u o) s u o.d 6 w (out (minMaxElem o.ty true)) ∧
    CompletesLanes (.vrmin u o) s u o.d 6 w (out (minMaxElem o.ty false))

/-- R312, R313, R314: conversions. VCVT keeps the width; VPACK puts k sources' elements into one register, VUNPK one
source's into k registers, element by element of every lane; all land at offset 4, and bv1 shows the first register. -/
def Obligations.VectorConversions : Prop :=
  (∀ (u : VUnit) (o : VC) (s : State) (w : Nat), (o.byp = 0 ∨ o.a = 0) → cvtWidth o.tys = some w → cvtWidth o.tyd = some w →
    let z := lane w (if o.byp = 1 then bypass s u else s.vv o.a)
    CompletesLanes (.vcvt u o) s u o.d 4 w (fun e => cvtElem (s.fpEnv false) o.tys o.tyd (z e))) ∧
  (∀ (o : VC) (s : State) (k : Nat), widthRatio o.tys o.tyd = some k → o.byp = 0 → o.a.toNat % k = 0 →
    let ws := tyWidth o.tys
    let wd := tyWidth o.tyd
    let n := 32 / ws
    let m := 32 / wd
    CompletesV (.vpack o) s 4 (vectorResult s .v1 4 o.d
      (lanes wd fun e => cvtElem (s.fpEnv false) o.tys o.tyd
        (lane ws (s.mine.v.look (o.a.toNat + e % m / n)) (n * (e / m) + e % m % n))).1
      (lanes wd fun e => cvtElem (s.fpEnv false) o.tys o.tyd
        (lane ws (s.mine.v.look (o.a.toNat + e % m / n)) (n * (e / m) + e % m % n))).2)) ∧
  ∀ (o : VC) (s : State) (k : Nat), widthRatio o.tyd o.tys = some k → (o.byp = 0 ∨ o.a = 0) → o.d.toNat % k = 0 →
    let ws := tyWidth o.tys
    let wd := tyWidth o.tyd
    let n := 32 / ws
    let m := 32 / wd
    let z := lane ws (if o.byp = 1 then s.mine.bv1 else s.vv o.a)
    let part (j : Nat) : Vec × Nat := lanes wd fun e => cvtElem (s.fpEnv false) o.tys o.tyd (z (n * (e / m) + (j * m + e % m)))
    CompletesV (.vunpk o) s 4
      ((3, .bv 1 (part 0).1) :: (List.range k).map (fun j => (4, .v (o.d.toNat + j) (part j).1)) ++
        flagResult s 4 ((List.range k).foldl (fun f j => f ||| (part j).2) 0))

/-- R315: broadcast, immediate, move and index. -/
def Obligations.VectorMoves : Prop :=
  (∀ (u : VUnit) (o : VS) (s : State), isIF o.ty = true →
    CompletesLanes (.vbcast u o) s u o.d 2 (tyWidth o.ty) (fun _ => ((s.sv o.a).toNat, 0))) ∧
  (∀ (u : VUnit) (o : VI) (s : State),
    (isI o.ty = true → CompletesLanes (.vmovi u o) s u o.d 2 (tyWidth o.ty)
        (fun _ => ((o.imm.toInt % 2 ^ tyWidth o.ty).toNat, 0)) ∧
      CompletesLanes (.vidx u o) s u o.d 2 (tyWidth o.ty) (fun e => (((o.imm.toInt + e) % 2 ^ tyWidth o.ty).toNat, 0))) ∧
    (o.ty = 8 ∨ o.ty = 9 → CompletesLanes (.vmovi u o) s u o.d 2 (tyWidth o.ty)
      (fun _ => ((roundFp (FpVal.ofInt o.imm.toInt) (tyFmt o.ty) .rne false).1, 0)))) ∧
  ∀ (u : VUnit) (o : V3) (s : State), isIF o.ty = true → o.b = 0 → (o.byp = 0 ∨ o.a = 0) →
    CompletesLanes (.vmov u o) s u o.d 2 (tyWidth o.ty)
      (fun e => (lane (tyWidth o.ty) (if o.byp = 1 then bypass s u else s.vv o.a) e, 0))

/-- R316, R317: the permutes of V1 and QRD. VPERM picks within a group by the old destination's elements, VSHUF rotates,
broadcasts, exchanges or reverses within a group, VXGRP moves lanes between groups; QRD asks at offset 1 for half a tile,
of the tile that bm names with BM. -/
def Obligations.VectorPermutes : Prop :=
  (∀ (o : VX) (s : State),
    let w := if o.ctl.getLsbD 6 then 16 else 32
    let m := 512 / w
    let z (v : Nat) : Nat → Nat := lane v (if o.byp = 1 then s.mine.bv1 else s.vv o.a)
    let n := o.ctl.toNat % 32
    let mode := o.ctl.toNat / 128
    (o.ok true false = true → CompletesV (.vperm o) s 4 (vectorResult s .v1 3 o.d
      (tabulate w fun e => z w (e / m * m + lane w (s.vv o.d) e % m)) 0)) ∧
    (o.ok false true = true → CompletesV (.vshuf o) s 4 (vectorResult s .v1 3 o.d
      (tabulate w fun e =>
        let t := e % m
        z w (e / m * m + (if mode = 0 then (t + n) % m else if mode = 1 then n % m else if mode = 2 then (t ^^^ n) % m
          else m - 1 - t))) 0)) ∧
    (o.ok false false = true → CompletesV (.vxgrp o) s 4 (vectorResult s .v1 6 o.d
      (tabulate 32 fun e =>
        let g := e / 16
        let j := e % 16
        z 32 (if mode = 0 then 16 * ((g + n) % 8) + j else if mode = 1 then 16 * (n % 8) + j
          else if mode = 2 then 16 * (g ^^^ (n % 8)) + j else 16 * (j % 8) + g + 8 * (j / 8))) 0))) ∧
  ∀ (o : VQ) (s : State) (b t : Nat),
    ((o.bm = 0 ∧ b = o.bank.toNat ∧ t = o.tile.toNat) ∨ (o.bm = 1 ∧ o.bank = 0 ∧ o.tile = 0 ∧ s.mine.bm = some (b, t))) →
    bit (s.cur.hdrNat 24 2) b = true →
    CompletesV (.qrd o) s 5 [(1, .readHalf 1 o.d.toNat b t o.h.toNat)]

namespace Sys2Proof.Spec

open Sys2Proof.Machine

/-- The landings that an operation's writes make, at their offsets from its cycle, in its order (R12, R269). -/
def landings (s : State) (l : List (Nat × Write)) : List Landing :=
  l.map fun p => ⟨s.env.cyc + p.1, s.env.cyc * 8 + s.env.slot, p.2⟩

/-- A landing at a team cycle of its own. -/
def landsAt (s : State) (cyc : Nat) (w : Write) : State :=
  s.modBank s.b fun b => { b with pend := b.pend ++ [⟨cyc, s.env.cyc * 8 + s.env.slot, w⟩] }

/-- An accumulator instruction whose bank the header names completes, charged at class 5 (R334). -/
def CompletesQ (i : Instr) (s : State) (l : List (Nat × Write)) : Prop := exec i s = .next (issues (s.issued1 5) l)

/-- A scratchpad access of slot 6 is counted and charged, and takes its port cycles (R339, R340). -/
def port (s : State) (offs : List Nat) : List Nat × State :=
  ((s.issued1 10).count s.env.core s.env.ctx 0x0A 1).takePort offs

/-- The stores of a range: each page's piece performs at offset 1 (R343). -/
def storePieces (stream : Bool) (scope : Nat) : List (Nat × Nat × Nat) → List Byte → List (Nat × Write)
  | [], _ => []
  | p :: ps, b => (1, .store p.1 p.2.2 (b.take p.2.1) stream scope) :: storePieces stream scope ps (b.drop p.2.1)

end Sys2Proof.Spec

/-- R323, R324, R327 to R329: a cube form whose checks find nothing starts an operation over NK + 1 k-slices of one cycle,
of two in profiles 3 and 4: it starts from its tile, from zero for CMULC, CMULA and CLR; bm names its tile one cycle before
it retires, and its rings pop as it retires. The tiles do not change at the issue, and a swap makes the shadow shape live.
-/
def Obligations.CubeIssue : Prop :=
  ∀ (o : MC) (s : State) (i : Instr) (form : Nat) (clr gn : Bool),
    (i, form, clr, gn) ∈ [(Instr.cmul o, 1, false, false), (.cmulc o, 2, false, false), (.cmulq o, 3, true, true),
      (.cmuli o, 4, true, true), (.cmula o, 5, false, true)] →
    o.ok clr gn = true → s.env.probe = false → (s.finding (s.cubeCheck form o)).1 = 0 →
    let x := s.mine.hm.look o.hm.toNat
    let n := (if o.sw = 1 then x.shadow else x.live).toNat % 256 + 1
    let c := if s.env.prof = 3 ∨ s.env.prof = 4 then 2 else 1
    ∃ (t : State) (op : CubeOp), exec i s = .next t ∧
      (t.core s.env.core).cube = (s.core s.env.core).cube ++ [op] ∧
      op.id = s.nextId ∧ op.form = form ∧ op.mode = o.mode.toNat ∧ op.prof = s.env.prof ∧ op.fmt = s.mine.fmt ∧
      op.bank = o.bank.toNat ∧ op.tile = o.tile.toNat ∧ op.start = s.env.cyc ∧ op.n = n ∧ op.c = c ∧
      op.init = (if form = 2 ∨ form = 5 ∨ o.ctl.getLsbD 0 = true then 0 else s.tileAt s.env.core o.bank.toNat o.tile.toNat) ∧
      t.mine.pend = s.mine.pend ++ landings s
        [(c * n + 7, .bm o.bank.toNat o.tile.toNat), (c * n + 8, .retire s.nextId), (c * n + 8, .popRings s.nextId)] ∧
      (t.mine.hm.look o.hm.toNat = if o.sw = 1 then ⟨x.shadow, x.live⟩ else x) ∧
      (t.core s.env.core).tiles = (s.core s.env.core).tiles ∧ t.mine.s = s.mine.s ∧ t.mine.v = s.mine.v ∧ t.mem = s.mem

/-- R234, R235: under profile 0x020 a cell is its start plus the sum of the products of the integers read, modulo 2^32: 16
products a k-slice for 8-bit planes, 32 for 4-bit ones. -/
def Obligations.CubeIntegerCell : Prop :=
  ∀ (o : CubeOp) (rs : List (Nat × Nat × Nat)) (i j : Nat), o.prof = 0x020 →
    let f := fmtFA o.fmt
    let width := if f = 5 then 4 else 8
    let count := if f = 5 then 32 else 16
    let term (r : Nat × Nat × Nat) (k : Nat) : Int := sintN width (elemA f r.1 i k) * sintN width (elemB (fmtFB o.fmt) r.2.1 k j)
    let total := rs.foldl (fun (t : Int) r => t + (List.range count).foldl (fun (u : Int) k => u + term r k) 0)
      (bits o.init.toNat (32 * (16 * i + j) + 31) (32 * (16 * i + j)))
    (o.cell rs i j).x % 2 ^ 32 = (total % 2 ^ 32).toNat ∧ (o.cell rs i j).af = false

/-- R331, R333: the accumulator instructions, of banks that the header names. QWR lands half a tile, QCLR clears the tiles
of its mask, QFILL lands one value in every cell, all at offset 2; QMOV and QADD read at offset 1, QSAVE and QLOAD begin
at offset 1 on bytes inside the partition; QTHR lands TKIND and THR of the hm registers at offset 1. -/
def Obligations.Accumulators : Prop :=
  ∀ (s : State), s.env.probe = false →
    let named (b : BitVec 4) : Prop := bit (s.cur.hdrNat 24 2) b.toNat = true
    let off (a : BitVec 6) : Nat := (s.sv a).toNat - (s.sv a).toNat % 128
    (∀ o : MW, named o.bank → CompletesQ (.qwr o) s [(2, .half o.bank.toNat o.tile.toNat o.h.toNat (s.vv o.a))]) ∧
    (∀ o : MK, named o.bank →
      CompletesQ (.qclr o) s (if o.mask = 0 then [] else [(2, .clearTiles o.bank.toNat o.mask.toNat)])) ∧
    (∀ o : MT, named o.bank → named o.sbank →
      CompletesQ (.qmov o) s [(1, .tileOp false o.bank.toNat o.tile.toNat o.sbank.toNat o.stile.toNat s.env.pc)] ∧
      CompletesQ (.qadd o) s [(1, .tileOp true o.bank.toNat o.tile.toNat o.sbank.toNat o.stile.toNat s.env.pc)]) ∧
    (∀ o : MF, named o.bank →
      CompletesQ (.qfill o) s
        [(2, .tile o.bank.toNat o.tile.toNat (tileOfCells (List.replicate 256 ((s.sv o.a).toNat % 2 ^ 32))) 0)] ∧
      (off o.a + 1024 ≤ s.mine.spadSize →
        CompletesQ (.qsave o) s [(1, .saveTile o.bank.toNat o.tile.toNat 0 0 (off o.a))] ∧
        CompletesQ (.qload o) s [(1, .loadTile o.bank.toNat o.tile.toNat (off o.a))])) ∧
    ∀ o : MH, o.kind ≠ 3 → CompletesQ (.qthr o) s
      [(1, .thr 0xFFFFFFFF00C00000#64 ((if o.kind = 1 then s.sv o.a <<< (32 : Nat) else 0) ||| BitVec.ofNat 64 (o.kind.toNat * 2 ^ 22)))]

/-- R331: what the accumulator writes do as they land. A half replaces its half of the tile; cleared tiles read zero and
the others stand; a tile read for QRD shows in bv1 one cycle before v; a move lands two cycles after its source was
read; QSAVE's last quarter stores the tile's 1,024 bytes; QLOAD lands the bytes four cycles after they were read.
R329: an operation that retires without flags writes every cell of its tile at once, and no other tile. -/
def Obligations.AccumulatorLandings : Prop :=
  (∀ (s : State) (due ord id : Nat) (o : CubeOp), s.cubeAt s.env.core id = some o → (∀ c ∈ o.cells, c.fl = 0) →
    let t := s.landOne ⟨due, ord, .retire id⟩
    (t.core s.env.core).tiles.look (16 * o.bank + o.tile) = tileOfCells (o.cells.map (·.x)) ∧
    (∀ k, k ≠ 16 * o.bank + o.tile → (t.core s.env.core).tiles.look k = (s.core s.env.core).tiles.look k) ∧
    (∀ b, (t.bank b).s = (s.bank b).s ∧ (t.bank b).v = (s.bank b).v) ∧ t.mem = s.mem) ∧
  ∀ (s : State) (due ord : Nat),
    let core := s.env.core
    let land (w : Write) : State := s.landOne ⟨due, ord, w⟩
    let pushed (w : Write) (l : List Landing) : Prop :=
      land w = s.modBank s.b fun b => { b with pend := b.pend ++ l }
    (∀ (q t h : Nat) (v : Vec), h < 2 →
      ((land (.half q t h v)).tileAt core q t).toNat =
        setBits (s.tileAt core q t).toNat (4096 * h + 4095) (4096 * h) v.toNat) ∧
    (∀ (q m t : Nat), q < 16 → t < 16 →
      (land (.clearTiles q m)).tileAt core q t = if bit m t then 0 else s.tileAt core q t) ∧
    (∀ (u d q t h : Nat), pushed (.readHalf u d q t h)
      [⟨due + 2, ord, .bv u (halfTile (s.tileAt core q t) h)⟩, ⟨due + 3, ord, .v d (halfTile (s.tileAt core q t) h)⟩]) ∧
    (∀ (q t sq st : Nat) (pc : Word), pushed (.tileOp false q t sq st pc) [⟨due + 2, ord, .tile q t (s.tileAt core sq st) 0⟩] ∧
      pushed (.tileOp true q t sq st pc) [⟨due + 1, ord, .tileAdd q t (s.tileAt core sq st) pc⟩]) ∧
    (∀ (q t off : Nat) (got : Tile), pushed (.saveTile q t 3 got off)
      [⟨due + 1, ord, .spad off (natLe 1024 (got ||| tileQuarter (s.tileAt core q t) 3).toNat)⟩]) ∧
    (∀ (q t off : Nat), pushed (.loadTile q t off)
      [⟨due + 4, ord, .tile q t (BitVec.ofNat 8192 (s.spadNat core s.env.ctx off 1024)) 0⟩]) ∧
    ∀ (q t : Nat) (v : Tile) (af : BitVec 256),
      (land (.tile q t v af)).tileAt core q t = v ∧ (land (.tile q t v af)).afAt core q t = af

/-- R338 to R341: the scalar and vector scratchpad forms on bytes inside the partition; low bits of the address below the
access are ignored. Each takes the port at its offsets; loads land two cycles after the (last) port cycle; STP stores
the physical predicates with bit 0 set; a load to s0 leaves nothing to land. R339: the port gives each access of a
context the first cycle from its own offset on that no earlier access of the context has. -/
def Obligations.Scratchpad : Prop :=
  (∀ (l : List (Nat × Nat)) (ctx c : Nat),
    c ≤ portFrom l ctx c ∧ (portFrom l ctx c, ctx) ∉ l ∧ ∀ x, c ≤ x → x < portFrom l ctx c → (x, ctx) ∈ l) ∧
  ∀ (s : State), s.env.probe = false →
    let at_ (a : BitVec 6) (n : Nat) : Nat := (s.sv a).toNat - (s.sv a).toNat % n
    let inside (off n : Nat) : Prop := off + n ≤ s.mine.spadSize
    let one := port s [1]
    let c := one.1.getD 0 0
    let two := port s [1, 2]
    let c0 := two.1.getD 0 0
    let c1 := two.1.getD 1 0
    (∀ o : LS, o.ty.toNat ≤ 7 → o.rd = 0 → inside (at_ o.a (tyBytes o.ty)) (tyBytes o.ty) →
      exec (.lds o) s = .next (if o.d = 0 then one.2 else
        landsAt one.2 c (.loadS (at_ o.a (tyBytes o.ty)) (tyBytes o.ty) (tySigned o.ty)
          (.s (physS s.mine.base o.d.toNat)) (c + 2))) ∧
      exec (.sts o) s = .next (landsAt one.2 c (.spad (at_ o.a (tyBytes o.ty)) (natLe (tyBytes o.ty) (s.sv o.d).toNat)))) ∧
    (∀ o : LV, isBulk o.ty = true → o.rd = 0 → inside (at_ o.a 128) 512 →
      exec (.ldsv o) s = .next (landsAt (landsAt two.2 c0 (.loadS (at_ o.a 128) 256 false (.v o.d.toNat 0) (c1 + 2))) c1
        (.loadS (at_ o.a 128 + 256) 256 false (.v o.d.toNat 2048) (c1 + 2))) ∧
      exec (.stsv o) s = .next (landsAt (landsAt two.2 c0 (.spad (at_ o.a 128) ((vecBytes (s.vv o.d)).take 256))) c1
        (.spad (at_ o.a 128 + 256) ((vecBytes (s.vv o.d)).drop 256)))) ∧
    (∀ o : LS, o.ty = 0 → o.rd = 0 → o.d = 0 → inside (at_ o.a 2) 2 →
      exec (.ldp o) s = .next (landsAt one.2 c (.loadP (at_ o.a 2) (c + 2))) ∧
      exec (.stp o) s = .next (landsAt one.2 c (.spad (at_ o.a 2) (natLe 2 (s.mine.p ||| 1).toNat)))) ∧
    (∀ o : LK, (4 ≤ o.k.toNat ∨ (s.cur.loopKind o.k.toNat ≠ 1 ∧ s.cur.loopKind o.k.toNat ≠ 2)) → inside (at_ o.a 8) 8 →
      exec (.ldk o) s = .next (landsAt one.2 c (.loadS (at_ o.a 8) 8 false (.k o.k.toNat) (c + 2)))) ∧
    ∀ o : LA, o.op.toNat ≤ 8 →
      let n := if o.w = 1 then 8 else 4
      let p := port s [1, 3]
      inside (at_ o.a n) n →
      exec (.rmws o) s = .next (landsAt p.2 (p.1.getD 0 0) (.rmw (at_ o.a n) n o.op.toNat (s.sv o.d)
        (if o.d = 0 then 0 else physS s.mine.base o.d.toNat) (p.1.getD 1 0)))

/-- R341: GATH and SCAT. Every lane's offset, its low two bits ignored, lies inside the partition; lane group g reads in
port cycle g and all land two cycles after the last; stores of a group perform in its cycle, the higher lane after the
lower. -/
def Obligations.GatherScatter : Prop :=
  ∀ (o : LG) (s : State), s.env.probe = false → (o.ty = 2 ∨ o.ty = 6 ∨ o.ty = 8) →
    let raw (e : Nat) : Nat := ((s.sv o.b).toNat + lane 32 (s.vv o.a) e) % 2 ^ 64
    let off (e : Nat) : Nat := raw e - raw e % 4
    (∀ e < 128, off e + 4 ≤ s.mine.spadSize) →
    let p := port s [1, 2, 3, 4, 5, 6, 7, 8]
    let c (g : Nat) : Nat := p.1.getD g 0
    exec (.gath o) s = .next ((List.range 8).foldl (fun t g =>
      landsAt t (c g) (.gather ((List.range 16).map fun j => off (16 * g + j)) o.d.toNat (512 * g) (c 7 + 2))) p.2) ∧
    exec (.scat o) s = .next ((List.range 8).foldl (fun t g => (List.range 16).foldl (fun t j =>
      landsAt t (c g) (.spad (off (16 * g + j)) (natLe 4 (lane 32 (s.vv o.d) (16 * g + j))))) t) p.2)

/-- R340, R348: buffer rings. ACQB completes on a declared entry whose descriptor lies in the partition and follows the table of
R348, when a buffer is free (A − F below COUNT): A rises by 1, and the address of buffer A modulo COUNT lands one cycle
after its port cycle. While none is free the control core holds the bundle. RELB completes on a declared entry: F rises by 1
at offset 1 when it is below A, and otherwise nothing changes. Beyond the declaration both are cause 0x54; on a bad
descriptor ACQB is cause 0x08. ACQB and RELB complete. -/
def Obligations.BufferRings : Prop :=
  (∀ (o : LB) (s : State), s.env.probe = false →
    let n := o.n.toNat
    let word (off k : Nat) : Nat := s.spadNat s.env.core s.env.ctx (256 + 16 * n + off) k
    let base := word 0 4
    let size := word 4 2
    let count := word 6 1
    let good : Prop := base % 128 = 0 ∧ 1 ≤ size ∧ size ≤ 4096 ∧ 1 ≤ count ∧ count ≤ 64 ∧
      base + count * size * 128 ≤ s.mine.spadSize ∧ word 7 8 = 0 ∧ word 15 1 = 0
    let a := s.mine.brA.look n
    let p := port s [1]
    let t := p.2.modBank s.b fun b => { b with brA := b.brA.put n (a + 1) }
    (n < s.cur.hdrNat 28 2 → 256 + 16 * n + 16 ≤ s.mine.spadSize → good → a - s.mine.brF.look n < count →
      exec (.acqb o) s = .next (if o.d = 0 then t else landsAt t (p.1.getD 0 0 + 1)
        (.s (physS s.mine.base o.d.toNat) (BitVec.ofNat 64 (base + a % count * size * 128))))) ∧
    (o.d = 0 → n < s.cur.hdrNat 28 2 → exec (.relb o) s = .next (issues (s.issued1 10) [(1, .relb n)])) ∧
    (s.cur.hdrNat 28 2 ≤ n →
      exec (.acqb o) s = .next (s.faultHere 0x54 0) ∧ (o.d = 0 → exec (.relb o) s = .next (s.faultHere 0x54 0))) ∧
    (n < s.cur.hdrNat 28 2 → 256 + 16 * n + 16 ≤ s.mine.spadSize → ¬good → exec (.acqb o) s = .next (s.faultHere 0x08 0))) ∧
  (∀ (s : State) (due ord n : Nat),
    let t := s.landOne ⟨due, ord, .relb n⟩
    (t.bank s.b).brF.look n = (if s.mine.brF.look n < s.mine.brA.look n then s.mine.brF.look n + 1 else s.mine.brF.look n) ∧
    (∀ m, m ≠ n → (t.bank s.b).brF.look m = s.mine.brF.look m) ∧ (t.bank s.b).brA = s.mine.brA ∧ t.mem = s.mem ∧ t.cores = s.cores) ∧
  ∀ (s before : State) (id cyc i : Nat) (ops : List SlotOp) (op : SlotOp) (o : LB),
    i ∈ (s.task id).idxs → op ∈ ops → op.instr = .acqb o → { before with env := before.envOf id i cyc }.guardTrue op = true →
    let core := (s.task id).coreAt i
    let b := before.bank (ctxOf core (s.task id).ctx)
    before.spadNat core (s.task id).ctx (256 + 16 * o.n.toNat + 6) 1 ≤ b.brA.look o.n.toNat - b.brF.look o.n.toNat →
    s.opHolds before id cyc ops = true

/-- R342, R343, R344: STG, STGV, STNT, STNTV and STL complete when their checks find nothing and no measurement captures them. The address is the
register's with the access's low bits ignored; each page's piece performs at offset 1 with its bytes; STNT and STNTV stream,
STL releases at its scope (kept as the scope plus 1). -/
def Obligations.GlobalStores : Prop :=
  ∀ (s : State), s.env.probe = false → s.capturing s.env.task = false →
    let t := s.issued1 11
    let at_ (a : BitVec 6) (n : Nat) : Nat := (s.sv a).toNat - (s.sv a).toNat % n
    let stores (va : Nat) (b : List Byte) (stream : Bool) (scope : Nat) : State :=
      issues t (storePieces stream scope (t.pieces s.env.core s.cur.part va b.length 1) b)
    let clear (va n : Nat) : Prop := (s.finding (s.globalCheck va n 1)).1 = 0
    (∀ o : LS, o.ty.toNat ≤ 7 → o.rd = 0 → clear (at_ o.a (tyBytes o.ty)) (tyBytes o.ty) →
      let b := natLe (tyBytes o.ty) (s.sv o.d).toNat
      exec (.stg o) s = .next (stores (at_ o.a (tyBytes o.ty)) b false 0) ∧
      exec (.stnt o) s = .next (stores (at_ o.a (tyBytes o.ty)) b true 0)) ∧
    (∀ o : LV, isBulk o.ty = true → o.rd = 0 → clear (at_ o.a 128) 512 →
      exec (.stgv o) s = .next (stores (at_ o.a 128) (vecBytes (s.vv o.d)) false 0) ∧
      exec (.stntv o) s = .next (stores (at_ o.a 128) (vecBytes (s.vv o.d)) true 0)) ∧
    ∀ o : LR, o.ty.toNat ≤ 7 → o.scope ≠ 7 → clear (at_ o.a (tyBytes o.ty)) (tyBytes o.ty) →
      exec (.stl o) s = .next
        (stores (at_ o.a (tyBytes o.ty)) (natLe (tyBytes o.ty) (s.sv o.d).toNat) false (o.scope.toNat + 1))

/-- R141, R342, R343: a load of a range that lies cached in the core's L1 (no write-combining buffer holds bytes of it, no
atomic and no acquire waits, and its pages are cacheable pages of the module) lands its bytes, extended, at offset 12,
at 18 with a fused L1. -/
def Obligations.LoadHits : Prop :=
  ∀ (s : State), s.env.probe = false → (∀ b < 16, ((s.core s.env.core).wcb.look b).line = none) → s.atoms = [] →
    (∀ e ∈ s.loads, e.2.acq = 0) →
    let t := s.issued1 11
    let at_ (a : BitVec 6) (n : Nat) : Nat := (s.sv a).toNat - (s.sv a).toNat % n
    let ps (va n : Nat) := t.pieces s.env.core s.cur.part va n 0
    let cached (va n : Nat) : Prop := (s.finding (s.globalCheck va n 0)).1 = 0 ∧
      ∀ p ∈ ps va n, p.2.2 = 0 ∧ paD p.1 = false ∧ t.l1Hits s.env.core p.1 p.2.1 = true
    let off := if s.fused s.env.core then 18 else 12
    (∀ o : LS, o.ty.toNat ≤ 7 → o.d ≠ 0 → cached (at_ o.a (tyBytes o.ty)) (tyBytes o.ty) →
      ∃ (u : State) (b : List Byte), exec (.ldg o) s = .next u ∧ b.length = tyBytes o.ty ∧
        u.mine.pend = s.mine.pend ++ landings s
          [(off, .s (physS s.mine.base o.d.toNat) (extend (8 * tyBytes o.ty) (tySigned o.ty) (leNat b)))] ∧
        u.mem = s.mem) ∧
    (∀ o : LV, isBulk o.ty = true → cached (at_ o.a 128) 512 →
      ∃ (u : State) (b : List Byte), exec (.ldgv o) s = .next u ∧ b.length = 512 ∧
        u.mine.pend = s.mine.pend ++ landings s [(off, .vpart o.d.toNat 0 4096 (leNat b))] ∧ u.mem = s.mem) ∧
    ∀ o : LR, o.ty.toNat ≤ 7 → o.scope = 0 → o.d ≠ 0 → cached (at_ o.a (tyBytes o.ty)) (tyBytes o.ty) →
      ∃ (u : State) (b : List Byte), exec (.lda o) s = .next u ∧ b.length = tyBytes o.ty ∧
        u.mine.pend = s.mine.pend ++ landings s
          [(off, .s (physS s.mine.base o.d.toNat) (extend (8 * tyBytes o.ty) (tySigned o.ty) (leNat b)))] ∧
        u.mem = s.mem

/-- R343, R345: the loads and PREF in every case that their checks let pass: a load is issued with its address, width, sign,
destination, re-reference hint and scope; PREF does nothing where its page does not translate, is not cached or lies
outside the module's memory, and where RD is 7. -/
def Obligations.LoadsIssue : Prop :=
  ∀ (s : State), s.env.probe = false →
    let at_ (a : BitVec 6) (n : Nat) : Nat := (s.sv a).toNat - (s.sv a).toNat % n
    let clear (va n : Nat) : Prop := (s.finding (s.globalCheck va n 0)).1 = 0
    let dest (d : BitVec 6) : Option Dest := if d = 0 then none else some (.s (physS s.mine.base d.toNat))
    (∀ o : LS, o.ty.toNat ≤ 7 → clear (at_ o.a (tyBytes o.ty)) (tyBytes o.ty) →
      exec (.ldg o) s = .next
        ((s.issued1 11).loadOp (at_ o.a (tyBytes o.ty)) (tyBytes o.ty) (tySigned o.ty) (dest o.d) o.rd.toNat 0)) ∧
    (∀ o : LV, isBulk o.ty = true → clear (at_ o.a 128) 512 →
      exec (.ldgv o) s = .next ((s.issued1 11).loadOp (at_ o.a 128) 512 false (some (.v o.d.toNat 0)) o.rd.toNat 0)) ∧
    (∀ o : LR, o.ty.toNat ≤ 7 → o.scope ≠ 7 → clear (at_ o.a (tyBytes o.ty)) (tyBytes o.ty) →
      exec (.lda o) s = .next
        ((s.issued1 11).loadOp (at_ o.a (tyBytes o.ty)) (tyBytes o.ty) (tySigned o.ty) (dest o.d) 0 o.scope.toNat)) ∧
    ∀ o : LS, o.ty = 0 → o.d = 0 →
      let x := (s.issued1 11).coreXlate s.env.core s.cur.part (at_ o.a 128) 0
      let pa := x.2.pa (at_ o.a 128)
      (o.rd = 7 ∨ x.1 ≠ 0 ∨ x.2.mt (at_ o.a 128) ≠ 0 ∨ paD pa = true ∨ isHost pa = true →
        exec (.pref o) s = .next (s.issued1 11)) ∧
      (o.rd ≠ 7 → x.1 = 0 → x.2.mt (at_ o.a 128) = 0 → paD pa = false → isHost pa = false →
        ∃ u, exec (.pref o) s = .next u ∧ (u.loads.look s.nextId).va = at_ o.a 128 ∧ u.banks = s.banks ∧ u.mem = s.mem)

/-- R164, R346, R347: ATOMG and ATOMN complete when their checks find nothing. On memory of the module that the core's die
reaches they join the group of their interval of 256 ticks with their operation, operand and logical key; ATOMG alone has a
register to give the old value to. On a page of the domain the access goes out, behind stores of its context that wait. R346:
the operation of an atomic on the old value and the operand, at its width. -/
def Obligations.Atomics : Prop :=
  (∀ (w old v : Nat), w = 32 ∨ w = 64 →
    let a := old % 2 ^ w
    let b := v % 2 ^ w
    applyAtomic 0 w old v = (a + b) % 2 ^ w ∧ applyAtomic 1 w old v = a &&& b ∧ applyAtomic 2 w old v = a ||| b ∧
    applyAtomic 3 w old v = a ^^^ b ∧ applyAtomic 4 w old v = (if sintN w a < sintN w b then a else b) ∧
    applyAtomic 5 w old v = (if sintN w a < sintN w b then b else a) ∧ applyAtomic 6 w old v = min a b ∧
    applyAtomic 7 w old v = max a b ∧ applyAtomic 8 w old v = b ∧ ∀ op ≤ 8, applyAtomic op w old v < 2 ^ w) ∧
  ∀ (o : LA) (s : State), o.op.toNat ≤ 8 → s.env.probe = false → s.capturing s.env.task = false →
    (∀ b < 16, ((s.core s.env.core).wcb.look b).line = none) →
    let n := if o.w = 1 then 8 else 4
    let va := (s.sv o.a).toNat - (s.sv o.a).toNat % n
    (s.finding (s.globalCheck va n 2)).1 = 0 →
    let pa := ((s.issued1 11).coreXlate s.env.core s.cur.part va 2).2.pa va
    let k := s.cur
    ∀ ret : Bool,
      (paD pa = false → (isHost pa = true ∨ s.joined (dieOf s.env.core) (ownerDie pa) = true) →
        ∃ (t : State) (a : Atom), exec (if ret then .atomg o else .atomn o) s = .next t ∧
          t.atoms = s.atoms ++ [a] ∧ a.pa = pa ∧ a.interval = s.tick / 256 ∧ a.op = o.op.toNat ∧ a.operand = s.sv o.d ∧
          a.w = decide (o.w = 1) ∧ a.key = [k.session, k.cls, k.stream, k.period, k.srk, s.env.idx, s.tick, 0] ∧
          a.load = (if ret then some s.nextId else none) ∧ (ret = true → (t.loads.look s.nextId).atomic = true)) ∧
      (paD pa = true → (s.bank s.b).heldStores = [] →
        ∃ (t : State) (id : Nat), exec (if ret then .atomg o else .atomn o) s = .next t ∧ t.atoms = s.atoms ∧
          (t.fabric.look id).id = id ∧ (t.fabric.look id).acc.kind = .atomic o.op (o.w = 1) (s.sv o.d) ∧
          (t.fabric.look id).acc.offset = paOff pa ∧ (t.fabric.look id).load = (if ret then some s.nextId else none)) ∧
      (paD pa = true → (s.bank s.b).heldStores ≠ [] →
        ∃ (t : State) (h : HeldStore), exec (if ret then .atomg o else .atomn o) s = .next t ∧ t.atoms = s.atoms ∧
          (t.bank s.b).heldStores = (s.bank s.b).heldStores ++ [h] ∧ h.pa = pa ∧ h.load = (if ret then some s.nextId else none) ∧
          ∃ a, h.atom = some a ∧ a.kind = .atomic o.op (o.w = 1) (s.sv o.d))
namespace Sys2Proof.Spec

open Sys2Proof.Machine

/-- The engine command of an operation: taken under the next identifier for the operation's task, core and context; its
engine begins in this cycle, or its START is kept (R349). -/
def Commanded (s t : State) (start : Option Nat) (P : Cmd → Prop) : Prop :=
  let c := t.cmds.look s.nextId
  let now := start.all fun x => s.cur.dynamic || decide (x + s.cur.shift = s.env.lc)
  c.id = s.nextId ∧ c.task = s.env.task ∧ c.core = s.env.core ∧ c.ctx = s.env.ctx ∧ c.part = s.cur.part ∧
  c.start = (if now then none else start) ∧
  (now = true → ∃ d ∈ t.agenda, d.time = s.now ∧ d.ev = .engineStart s.nextId) ∧ P c

/-- START of a command: bits 63:32 of its shape register, which a swap reads in its shadow. -/
def startOf (s : State) (o : XE) : Nat :=
  bits (if o.sw = 1 then (s.mine.hx.look o.hx.toNat).shadow else (s.mine.hx.look o.hx.toNat).live).toNat 63 32

/-- A command's shape register is good (R349): bits 31:0 zero, and in timetable mode a START that is not below its own issue
cycle. -/
def startGood (s : State) (o : XE) : Prop :=
  (if o.sw = 1 then (s.mine.hx.look o.hx.toNat).shadow else (s.mine.hx.look o.hx.toNat).live).toNat % 2 ^ 32 = 0 ∧
  (s.cur.dynamic = true ∨ s.env.lc ≤ startOf s o + s.cur.shift)

/-- A ring's table entry and its publish word lie in the partition (R319). -/
def ringInside (s : State) (n : Nat) : Prop :=
  16 * n + 16 ≤ s.mine.spadSize ∧ s.spadNat s.env.core s.env.ctx (16 * n + 8) 4 + 8 ≤ s.mine.spadSize

/-- No subscription of the operation's context holds a ring or waits to begin on it (R353). -/
def ringFree (s : State) (n : Nat) : Prop :=
  (∀ e ∈ s.subs, ¬(e.2.core = s.env.core ∧ e.2.ctx = s.env.ctx ∧ e.2.ring = n)) ∧
  ∀ e ∈ s.cmds, ¬(e.2.kind = .subs ∧ e.2.core = s.env.core ∧ e.2.ctx = s.env.ctx ∧ e.2.ring = n)

/-- The command finds nothing wrong in its shape register and its other checks. -/
def clearX (s : State) (o : XE) (c : Check) : Prop := s.env.probe = false ∧ (s.finding ((s.hxCheck o).and c)).1 = 0

/-- A sampler operation is issued, charged at class 13, and enters the queue at offset 1 (R380, R381). -/
def CompletesX (i : Instr) (s : State) (slot occ : Nat) (k : SmpKind) : Prop :=
  exec i s = .next (issues ((s.issued1 13).count s.env.core s.env.ctx 0x0E 1)
    [(1, .smpEnter { ctx := s.env.ctx, task := s.env.task, slot := slot, occ := occ, kind := k })])

/-- A sampler slot whose share holds its record and that a bind of the task has bound (R363, R372). -/
def boundSlot (s : State) (slot : Nat) : Prop :=
  (s.slotRec s.env.core s.env.ctx slot).issued ≠ [] ∧ 1024 * (slot + 1) ≤ s.shareSize s.env.core s.env.ctx

/-- An offset with n bytes in the partition, aligned. -/
def inPart (s : State) (v : Word) (n align : Nat) : Prop := v.toNat % align = 0 ∧ v.toNat + n ≤ s.mine.spadSize

end Sys2Proof.Spec

/-- R349 to R354: COPY, FPUT and FGET whose checks find nothing are taken with the fields of their descriptor: COPY on copy
engine 8d + i, FPUT and FGET on the core's fabric interface; the completion value is sb's. With B set their bytes are added
to the barrier at issue. The scratchpad and the registers do not change. COPY, FPUT and FGET complete. -/
def Obligations.CopyCommands : Prop :=
  ∀ (s : State) (o : XE), o.ctl.getLsbD 4 = false →
    let d := s.xeDesc o
    let fields (kind : CmdKind) (eng : Nat) (c : Cmd) : Prop :=
      c.kind = kind ∧ c.engine = some eng ∧ c.len = field d 16 4 ∧ c.rows = field d 20 2 ∧ c.src = addrOf (field d 0 8) ∧
      c.srcSpace = addrSpace (field d 0 8) ∧ c.dstSpace = (if xeE o then 5 else addrSpace (field d 8 8)) ∧
      c.doneVal = s.sv o.b ∧ c.holds = true ∧ c.row = 0 ∧ c.off = 0
    let runs (i : Instr) (kind : CmdKind) (eng : Nat) : Prop :=
      ∃ t, exec i s = .next t ∧ Commanded s t (some (startOf s o)) (fields kind eng) ∧
        (xeB o = true → (t.barriers.look (s.barKey (xeLevel o) (field d 36 1) s.env.task)).pending =
          (s.barriers.look (s.barKey (xeLevel o) (field d 36 1) s.env.task)).pending + field d 16 4 * field d 20 2) ∧
        (xeB o = false → t.barriers = s.barriers) ∧ t.mine.s = s.mine.s ∧ t.mine.v = s.mine.v ∧ t.mem = s.mem ∧
        (t.core s.env.core).spad = (s.core s.env.core).spad
    (clearX s o (s.copyCheck o (fun d => copyOk d (xeE o)) s.cedCheck) →
      runs (.copy o) .copy (8 * (s.env.core / 96) + s.env.core % 8)) ∧
    (clearX s o (s.copyCheck o (fun d => !xeE o && fabricOk d true) s.fbeCheck) → runs (.fput o) .put (100 + s.env.core)) ∧
    (clearX s o (s.copyCheck o (fun d => !xeE o && fabricOk d false) s.fbeCheck) → runs (.fget o) .get (100 + s.env.core))

/-- R353, R355, R358: SUBS, UNSUB, RPUB, RPOP, FRED and CMO complete under the conditions that their rules give: a good shape
register, ring and descriptor inside the partition, entries that the declaration holds. Each ring command and FRED is taken as
a command. SUBS keeps its descriptor's copy and its ring, UNSUB its ring, RPUB and RPOP their ring and count. FRED raises the
core's count at the domain barrier, joins its instance, and keeps its source, destination, count and barrier. CMO counts as an
operation of the context that is not complete and keeps its range, operation and level; it does nothing over no bytes. -/
def Obligations.RingAndMaintenanceCommands : Prop :=
  ∀ (s : State), s.env.probe = false →
    (∀ o : XE, o.ctl.getLsbD 4 = false → o.b = 0 → startGood s o →
      let ring := xeRing o
      let taken (i : Instr) (P : Cmd → Prop) : Prop := ∃ t, exec i s = .next t ∧ Commanded s t (some (startOf s o)) P
      (o.a = 0 → taken (.unsub o) fun c => c.kind = .unsub ∧ c.ring = ring) ∧
      (ringInside s ring → ringFree s ring →
        (taken (.rpub o) fun c => c.kind = .rpub ∧ c.ring = ring ∧ c.count = (s.sv o.a).toNat % 2 ^ 32) ∧
        ∀ d : List Byte,
          let die := s.env.core / 96
          let i := (s.sv o.a).toNat
          i < 2 ^ min 12 (s.getF MSL_SUB_BASE.LOG2N (16 * die + s.cur.part)) →
          s.vread die s.cur.part (64 * s.getF MSL_SUB_BASE.BASE (16 * die + s.cur.part) + 64 * i) 64 0 = some d →
          subOk d (128 * s.spadNat s.env.core s.env.ctx (16 * ring + 4) 2) = true →
          (paD ((s.agentXlate die s.cur.part (field d 0 8) 0).2.pa (field d 0 8)) = false ∨
            s.fabHeld s.env.task < s.cur.hdrNat 34 2) →
          taken (.subs o) fun c => c.kind = .subs ∧ c.ring = ring ∧ c.desc = d ∧ c.src = field d 0 8) ∧
      (16 * ring + 16 ≤ s.mine.spadSize → s.mine.ringP.look ring = 0 →
        taken (.rpop o) fun c => c.kind = .rpop ∧ c.ring = ring ∧ c.count = (s.sv o.a).toNat % 2 ^ 32)) ∧
    (∀ o : XE, o.ctl = 0 → o.b = 0 → startGood s o →
      let off := (s.sv o.a).toNat
      let r := s.redDesc off
      off + 16 ≤ s.mine.spadSize → r.ok = true → r.src + r.bytes ≤ s.mine.spadSize → r.dst + r.bytes ≤ s.mine.spadSize →
      s.fabHeld s.env.task < s.cur.hdrNat 34 2 → s.mine.barA.look (768 + r.bar) ≤ s.mine.barR.look (768 + r.bar) →
      ∃ (t : State) (id : Nat), exec (.fred o) s = .next t ∧ (t.cmds.look id).kind = .fred ∧
        (t.cmds.look id).engine = some (100 + s.env.core) ∧ (t.cmds.look id).src = r.src ∧ (t.cmds.look id).dst = r.dst ∧
        (t.cmds.look id).count = r.count ∧ (t.cmds.look id).ring = r.bar ∧
        (t.allred.look r.bar).expect = (s.allred.look r.bar).expect + 1 ∧
        t.mine.barA.look (768 + r.bar) = s.mine.barA.look (768 + r.bar) + 1 ∧
        (s.env.core, s.env.ctx) ∈ (t.barriers.look (s.barKey 3 r.bar s.env.task)).arrived) ∧
    ∀ o : XC, o.op ≠ 3 → o.lvl ≠ 3 →
      let n := min (s.sv o.b).toNat (2 ^ 32)
      let t := (s.issued1 12).count s.env.core s.env.ctx 0x0E 1
      (n = 0 → exec (.cmo o) s = .next t) ∧
      (n ≠ 0 → (s.cmoPage s.env.core s.cur.part (s.sv o.a).toNat o.op.toNat).1 = 0 →
        ∃ u, exec (.cmo o) s = .next u ∧ u.mine.maint = s.mine.maint + 1 ∧ u.mem = s.mem ∧
          (u.cmds.look s.nextId).kind = .cmo ∧ (u.cmds.look s.nextId).src = (s.sv o.a).toNat ∧
          (u.cmds.look s.nextId).len = n ∧ (u.cmds.look s.nextId).op = o.op.toNat ∧ (u.cmds.look s.nextId).lvl = o.lvl.toNat)

/-- R356, R357, R385: BARA, BARW, BARAW and BFLIP complete. An arrival at a declared barrier raises the core's own count there,
and its core and context are among those that have arrived at the instance; while an earlier arrival is not released it is
cause 0x55. BARW waits while releases are fewer than arrivals and otherwise does nothing but count; BARAW does both. BFLIP of
core index 0 asks for one more flip, or sets ERR where the table is not enabled; of another core it only counts. -/
def Obligations.Barriers : Prop :=
  (∀ (s : State) (o : XB), s.env.probe = false →
    let n := 256 * o.level.toNat + o.bar.toNat
    let declared : Prop := o.level = 3 ∨ o.bar.toNat < s.cur.hdrNat 32 2
    let fits : Prop := s.sv o.a = 0 ∨ o.level = 1
    let t := (s.issued1 12).count s.env.core s.env.ctx 0x0E 1
    let arrives (u : State) : Prop := u.mine.barA.look n = s.mine.barA.look n + 1 ∧ u.mine.barR = s.mine.barR ∧
      (s.env.core, s.env.ctx) ∈ (u.barriers.look (s.barKey o.level.toNat o.bar.toNat s.env.task)).arrived
    let waiting (u : State) : Prop := s.mine.barR.look n = s.mine.barA.look n → (u.task s.env.task).waits =
      s.cur.waits ++ [⟨s.env.idx, s.env.cyc, .barrier o.level.toNat o.bar.toNat (s.mine.barA.look n + 1)⟩]
    (declared → fits → s.mine.barA.look n ≤ s.mine.barR.look n →
      (∃ u, exec (.bara o) s = .next u ∧ arrives u) ∧ ∃ u, exec (.baraw o) s = .next u ∧ arrives u ∧ waiting u) ∧
    (declared → fits → s.mine.barR.look n < s.mine.barA.look n →
      exec (.bara o) s = .next (s.faultHere 0x55 0) ∧ exec (.baraw o) s = .next (s.faultHere 0x55 0)) ∧
    (declared → o.a = 0 →
      exec (.barw o) s = .next (if s.mine.barR.look n < s.mine.barA.look n then
        waitsOn t (.barrier o.level.toNat o.bar.toNat (s.mine.barA.look n)) else t))) ∧
  ∀ s : State,
    let t := (s.issued1 12).count s.env.core s.env.ctx 0x0E 1
    let i := 16 * (s.env.core / 96) + s.cur.part
    (s.env.idx ≠ 0 → exec .bflip s = .next t) ∧
    (s.env.idx = 0 → s.getF BBT_CFG.EN i = 0 → exec .bflip s = .next (t.setF BBT_STAT.ERR i 1)) ∧
    (s.env.idx = 0 → s.getF BBT_CFG.EN i ≠ 0 → ∃ u, exec .bflip s = .next u ∧ (u.bbt.look i).flips = (s.bbt.look i).flips + 1)

/-- R368, R371 to R379: the sampler commands on a bound slot, with their offsets inside the partition and aligned. Each enters
the queue with its occupancy of R380 and what it read at its issue; SMP_BIND binds its slot from its issue on; SMP_LOAD and
SMP_FLUSH make the transfer command that is handed over when they end. Complete: SMP_BIND, SMP_LOAD, SMP_RESET,
SMP_MERGE_OUT, SMP_MERGE_IN, SMP_DRAW, SMP_COMMIT, SMP_COMMIT_PEND, SMP_COMMIT_SETTLE, SMP_GREEDY, SMP_THR, SMP_FLUSH and
SFEED. -/
def Obligations.SamplerCommands : Prop :=
  ∀ (s : State), s.env.probe = false →
    let slot (o : XS) : Nat := o.ctl.toNat % 8
    let dlen (o : XS) : Nat := sdDlen (s.boundDesc (slot o))
    (∀ o : XS, boundSlot s (slot o) →
      (o.a = 0 → o.b = 0 → o.ctl.toNat < 16 →
        CompletesX (.smpReset o) s (slot o) 4 (.reset (o.ctl.getLsbD 3)) ∧
        CompletesX (.smpThr o) s (slot o) 1 (.thr (o.ctl.getLsbD 3))) ∧
      (o.b = 0 → inPart s (s.sv o.a) 576 64 →
        (o.ctl.toNat < 8 → CompletesX (.smpMergeOut o) s (slot o) 72 (.mergeOut (s.sv o.a).toNat)) ∧
        (8 ≤ o.ctl.toNat → o.ctl.toNat < 16 → CompletesX (.smpMergeIn o) s (slot o) 72 (.mergeIn (s.sv o.a).toNat))) ∧
      (o.ctl.toNat < 8 → inPart s (s.sv o.a) 8 8 →
        ((s.sv o.b).toNat % 8 ≤ 4 →
          CompletesX (.smpDraw o) s (slot o) (4 * dlen o + 112) (.draw (s.sv o.a).toNat (s.sv o.b))) ∧
        (o.b = 0 → CompletesX (.smpGreedy o) s (slot o) (4 * dlen o + 8) (.greedy (s.sv o.a).toNat)) ∧
        CompletesX (.smpCommit o) s (slot o) 6 (.commit (s.sv o.a).toNat)) ∧
      (8 ≤ o.ctl.toNat → o.ctl.toNat < 16 →
        CompletesX (.smpCommitPend o) s (slot o) 6 (.pend ((s.sv o.b).toNat % 2 ^ 32))) ∧
      (16 ≤ o.ctl.toNat → o.ctl.toNat < 24 →
        CompletesX (.smpCommitSettle o) s (slot o) 6 (.settle ((s.sv o.b).toNat % 8)))) ∧
    (∀ o : XS, o.b = 0 → o.ctl.toNat < 8 → inPart s (s.sv o.a) 256 256 →
      1024 * (slot o + 1) ≤ s.shareSize s.env.core s.env.ctx →
      let d := s.spadBytes s.env.core s.env.ctx (s.sv o.a).toNat 256
      sdOk d = true → sdTmoff d + 33 * sdVlen d / 8 ≤ s.shareSize s.env.core s.env.ctx →
      ∃ t, exec (.smpBind o) s = .next t ∧ (t.slotRec s.env.core s.env.ctx (slot o)).issued = d ∧
        (t.slotRec s.env.core s.env.ctx (slot o)).desc = (s.slotRec s.env.core s.env.ctx (slot o)).desc ∧
        t.mine.pend = s.mine.pend ++ landings s
          [(1, .smpEnter { ctx := s.env.ctx, task := s.env.task, slot := slot o, occ := 80, kind := .bind d })]) ∧
    (∀ o : XS, o.a = 0 → o.ctl.toNat < 8 → boundSlot s (slot o) →
      let d := s.boundDesc (slot o)
      sdTmoff d + 33 * sdVlen d / 8 ≤ s.shareSize s.env.core s.env.ctx → sdDone d + 8 ≤ s.mine.spadSize →
      s.cedHeld s.env.task < s.cur.hdrNat 30 2 →
      ∀ load : Bool, ∃ t, exec (if load then .smpLoad o else .smpFlush o) s = .next t ∧
        (t.cmds.look s.nextId).kind = (if load then .smpLoad else .smpFlush) ∧
        (t.cmds.look s.nextId).done = some (sdDone d) ∧ (t.cmds.look s.nextId).doneVal = s.sv o.b ∧
        t.mine.pend = s.mine.pend ++ landings s [(1, .smpEnter { ctx := s.env.ctx, task := s.env.task, slot := slot o, occ := 2, kind := .tables s.nextId })]) ∧
    ∀ o : VF,
      let slot := o.ctl.toNat % 8
      o.ok = true → boundSlot s slot →
      ∃ t, exec (.sfeed o) s = .next t ∧ t.mine.pend = s.mine.pend ++ landings s [(1, .smpEnter
        { ctx := s.env.ctx, task := s.env.task, slot := slot, occ := 8 * (sdFlen (s.boundDesc slot) + 2)
          kind := if o.ctl.getLsbD 13 = true then .feedTile (bits o.ctl.toNat 12 9) (bits o.ctl.toNat 8 5) (bits o.ctl.toNat 4 4)
            else .feed (if o.byp = 1 then bypass s .v1 else s.vv o.a) 0 })]

/-- R365, R366: the logit instructions. An arithmetic one writes its element register with the result rounded once, a comparison
the condition flag F, LGKEEP and LGDROP the candidacy; LGOUT appends the element's value, token and candidacy to the
results. Nothing outside the sampler changes. Table reads give 0 outside the shard. Each completes, in every state: LGNOP,
LGMOV, LGADD, LGSUB, LGMUL, LGFMA, LGMIN, LGMAX, LGNEG, LGRCP, LGCST, LGIMM, LGCNT, LGBIAS, LGBAN, LGTOK, LGSEL, LGCGT,
LGCGE, LGCEQ, LGKEEP, LGDROP, LGMAXV and LGOUT. -/
def Obligations.LogitProgram : Prop :=
  ∀ (s : State) (d a b : BitVec 3),
    let e (n : BitVec 3) : BitVec 32 := s.lg.e.look n.toNat
    let v (n : BitVec 3) : FpVal := fp32.val (e n).toNat
    let gives (i : Instr) (x : Nat) : Prop :=
      exec i s = .next { s with lg := { s.lg with e := s.lg.e.put d.toNat (BitVec.ofNat 32 x) } }
    let rounds (i : Instr) (x : FpVal) : Prop := gives i (rne32 x).1
    let flag (i : Instr) (f : Bool) : Prop := exec i s = .next { s with lg := { s.lg with f := f } }
    let keeps (i : Instr) (k : Bool) : Prop := exec i s = .next { s with lg := { s.lg with k := k } }
    let desc := s.lgRec.desc
    let m := s.lg.token - sdVbase desc
    let tab (off n : Nat) : Nat := if inShard desc s.lg.token then s.tmNat s.lg.core s.lg.ctx (sdTmoff desc + off) n else 0
    exec .lgnop s = .next s ∧ gives (.lgmov d a) (e a).toNat ∧
    rounds (.lgadd d a b) (FpVal.addZ .rne (v a) (v b)) ∧ rounds (.lgsub d a b) (FpVal.addZ .rne (v a) (v b).neg) ∧
    rounds (.lgmul d a b) (FpVal.mul (v a) (v b)) ∧
    rounds (.lgfma d a b) (FpVal.addZ .rne (FpVal.mul (v a) (v b)) (v d)) ∧
    gives (.lgmin d a b) (minMaxFp fp32 false (e a).toNat (e b).toNat).1 ∧
    gives (.lgmax d a b) (minMaxFp fp32 true (e a).toNat (e b).toNat).1 ∧
    gives (.lgneg d a) (e a ^^^ 0x80000000#32).toNat ∧ rounds (.lgrcp d a) (rcpReal (v a)).1 ∧
    gives (.lgcst d a) (field desc (64 + 4 * a.toNat) 4) ∧
    (∀ imm : BitVec 8, rounds (.lgimm d imm) (FpVal.ofInt imm.toInt)) ∧
    rounds (.lgcnt d) (FpVal.ofInt (min 65535 (tab (2 * m) 2 + (s.lgRec.pending.filter (· = s.lg.token)).length))) ∧
    rounds (.lgbias d) (fp16.val (tab (2 * sdVlen desc + 2 * m) 2)) ∧
    rounds (.lgban d) (FpVal.ofInt (bits (tab (4 * sdVlen desc + m / 8) 1) (m % 8) (m % 8))) ∧
    rounds (.lgtok d) (FpVal.ofInt s.lg.token) ∧
    gives (.lgsel d a b) (if s.lg.f then e a else e b).toNat ∧
    flag (.lgcgt a b) ((v b).lt (v a)) ∧ flag (.lgcge a b) ((v b).lt (v a) || (v a).eq (v b)) ∧
    flag (.lgceq a b) ((v a).eq (v b)) ∧
    keeps .lgkeep (s.lg.k && s.lg.f) ∧ keeps .lgdrop (s.lg.k && !s.lg.f) ∧ gives (.lgmaxv d) s.lg.maxv.toNat ∧
    ∃ t, exec (.lgout a) s = .next t ∧ t.lg.results = (e a, s.lg.token, s.lg.k) :: s.lg.results ∧ t.mem = s.mem ∧
      t.banks = s.banks ∧ t.csr = s.csr ∧ (t.lg.active = decide (s.lg.todo ≠ []))

namespace Sys2Proof.Spec

open Sys2Proof.Machine

/-- The instruction answers a next state with a property. -/
def Does (i : Instr) (s : State) (P : State → Prop) : Prop := ∃ t, exec i s = .next t ∧ P t
/-- An event stands on the agenda, due after now and within a bound. -/
def Pending (s t : State) (e : Ev) (bound : Nat) : Prop := ∃ d ∈ t.agenda, d.ev = e ∧ s.now < d.time ∧ d.time ≤ s.now + bound
/-- Fields of a register hold what a written value has at their bits. -/
def Takes (t : State) (l : List CsrField) (i : Nat) (v : Nat) : Prop := ∀ f ∈ l, t.getF f i = bits v f.hi f.lo

/-- Registers that no rule but their access codes governs at a write. -/
def plainRegs : List Csr :=
  [.FAB_SLOT_CFG, .FAB_PORT_STAT, .FAB_ROUTE, .FAB_PTAG, .FAB_BARR_CFG, .UEE_RXQ_STAT, .UEE_CLASS_DSCP, .UEE_DROP_NOMATCH,
   .UEE_CKPT_RESUME, .PTC_EPOCH, .PTC_INCR, .PTC_OFFSET, .PTC_CFG, .PTC_STAT, .PRT_TT_ROOT, .PRT_CTL, .PRT_STAT, .PRT_ATT_NONCE,
   .HIF_LQ_CFG, .HIF_LQ_STAT, .HIF_QOS, .SJ_STAT, .SJ_LAST_STEP, .SJ_MARKS, .SJ_CFG, .SNP_STAT, .SNP_TICK, .DLS_TREC_CFG,
   .ADM_CFG, .BWS_USE, .BWS_PRT_CAP, .MSL_SUB_BASE, .MSL_STAT, .CCC_TG_STAT, .CCC_EWT, .CCC_ESTAT, .CCC_EIDLE, .DST_MC_STAT,
   .BBT_EDIT_DATA, .BBT_STAT]

end Sys2Proof.Spec

/-- R8, R9, R83: a host write. Through the physical function each field takes its bits (RW), loses the bits written 1 (W1C) or
stays (RO, WO), and no other register changes. Through a virtual function a register that is not its partition's to write
keeps its value: the partition's ACCERR is set, the PF has vector 2, and of the other registers only SNP_STAT can change, by
the snapshot trigger of class 2 (R100). A function that serves nothing changes nothing. REGISTER_WRITE completes through
either kind of function while the host link is up. -/
def Obligations.HostRegisterWrites : Prop :=
  ∀ (s : State) (c : Csr) (i : Nat) (v : BitVec 128), i < csrCount c →
    (s.hostUp = true → c ∈ plainRegs → Does (.registerWrite 0 c i v) s fun t =>
      (∀ f ∈ csrFields c, t.getF f i = match f.acc with
        | .rw => bits v.toNat f.hi f.lo
        | .w1c => s.getF f i - Nat.land (s.getF f i) (bits v.toNat f.hi f.lo)
        | .ro | .wo => s.getF f i) ∧
      (∀ (d : Csr) (j : Nat), (d, j) ≠ (c, i) → t.csrVal d j = s.csrVal d j) ∧ t.mem = s.mem ∧ t.banks = s.banks) ∧
    (∀ f : Fn, f ≠ 0 → s.vfUp f.val = true → (vfWritable c = false ∨ s.regOwn (f.val - 1) c i = false) →
      Does (.registerWrite f c i v) s fun t =>
        t.getF PRT_STAT.ACCERR (f.val - 1) = 1 ∧ t.out = s.out ++ [.msix 0 2] ∧
        (∀ (d : Csr) (j : Nat), (d, j) ≠ (.PRT_STAT, f.val - 1) → d ≠ .SNP_STAT → t.csrVal d j = s.csrVal d j) ∧
        (bit (s.getF SNP_CTL.FAULTS 0) 2 = false → t.csrVal .SNP_STAT 0 = s.csrVal .SNP_STAT 0) ∧ t.mem = s.mem) ∧
    (∀ f : Fn, f ≠ 0 → s.vfUp f.val = false → exec (.registerWrite f c i v) s = .next s) ∧
    (s.hostUp = false → exec (.registerWrite 0 c i v) s = .next s)

/-- R135, R141, R148, R150, R151, R189, R192, R199, R214, R384: what the writes of chapters 06, 07, 08 and 15 start, through the
physical function. With their effect complete: TLBI, PRT_LOCK, PRT_UNLOCK, PRT_MEM_OWN_WRITE, L1_MODE_WRITE, ECNT_CLR,
DST_SVC_CFG_WRITE, DST_SAVE_BASE_WRITE, SVC_RESUME, SVC_ABORT, RPL_ARM and BBT_EDIT. -/
def Obligations.RegisterOperations : Prop :=
  ∀ (s : State), s.hostUp = true →
    (∀ (p : Part) (v : BitVec 128), s.getF PRT_TLBI.STATE p.val ≠ 1 → bit v.toNat 0 = true →
      Does (.tlbi 0 p v) s fun t => t.getF PRT_TLBI.STATE p.val = 1 ∧ Takes t [PRT_TLBI.BASE, PRT_TLBI.SIZE] p.val v.toNat ∧
        Pending s t (.tlbiDone p) 80000) ∧
    (∀ (d : Die) (p i : Fin 16) (v : BitVec 128),
      let k := 256 * d.val + 16 * p.val + i.val
      (s.getF PRT_LOCK.EN k = 0 → s.getF PRT_LOCK.STATE k = 0 → bit v.toNat 0 = true → bits v.toNat 127 96 ≠ 0 →
        Does (.prtLock 0 d p i v) s fun t => t.getF PRT_LOCK.EN k = 1 ∧ t.getF PRT_LOCK.STATE k = 1 ∧
          t.getF PRT_LOCK.CAUSE k = 0 ∧ Takes t [PRT_LOCK.BASE, PRT_LOCK.SIZE] k v.toNat ∧
          ∃ x ∈ t.agenda, x.ev = .prtLockDone d p i ∧ s.now < x.time) ∧
      (s.getF PRT_LOCK.EN k = 1 → s.getF PRT_LOCK.STATE k = 2 → s.lockHolds d.val p.val = [] →
        Does (.prtUnlock 0 d p i 0) s fun t => t.getF PRT_LOCK.STATE k = 0 ∧ t.getF PRT_LOCK.EN k = 0 ∧
          ∀ x ∈ (t.die d.val).lockArr, x.part = p.val → ∃ j < 16, t.getF PRT_LOCK.STATE (256 * d.val + 16 * p.val + j) = 2)) ∧
    (∀ (b : Fin 512) (v : BitVec 64),
      let locked : Bool := s.dies.any fun e => e.2.lockArr.any (·.inBlock b.val)
      (locked = true → Does (.prtMemOwnWrite 0 b v) s fun t => t.getF PRT_MEM_OWN.ERR b.val = 1 ∧ t.memOwnNew = s.memOwnNew) ∧
      (locked = false → Does (.prtMemOwnWrite 0 b v) s fun t => t.getF PRT_MEM_OWN.BUSY b.val = 1 ∧
        t.memOwnNew.look b.val = some (bits v.toNat 3 0 + (if 60 ≤ b.val % 64 then 0 else 16 * bits v.toNat 4 4)) ∧
        (∃ x ∈ t.agenda, x.ev = .prtMemOwnDone b) ∧ t.getF PRT_MEM_OWN.PRT b.val = s.getF PRT_MEM_OWN.PRT b.val)) ∧
    (∀ (c : Cluster) (v : BitVec 64),
      let used := ∃ i < 8, ∃ q < 8, s.holder (8 * c.val + i) q ≠ none
      (used → Does (.l1ModeWrite 0 c v) s fun t => t.getF CCC_L1_CFG.ERR c.val = 1 ∧ t.l1New = s.l1New) ∧
      (¬used → Does (.l1ModeWrite 0 c v) s fun t => t.getF CCC_L1_CFG.BUSY c.val = 1 ∧
        t.l1New.look c.val = some (v.getLsbD 0) ∧ ∃ x ∈ t.agenda, x.ev = .l1ModeDone c)) ∧
    (∀ (n : Fin 3072) (v : BitVec 64), Does (.ecntClr 0 n v) s fun t =>
      t.csrVal .CCC_ECNT n.val = if v.getLsbD 56 = true then 0 else s.csrVal .CCC_ECNT n.val) ∧
    (∀ (d : Die) (p : Part) (v : BitVec 128),
      let i := 16 * d.val + p.val
      (s.getF DST_SVC_CFG.EN i = 0 → Does (.dstSvcCfgWrite 0 d p v) s fun t =>
        Takes t [DST_SVC_CFG.EN, DST_SVC_CFG.BASE, DST_SVC_CFG.DEPTH] i v.toNat) ∧
      (s.getF DST_SVC_CFG.EN i = 1 → bit v.toNat 0 = true → Does (.dstSvcCfgWrite 0 d p v) s fun t =>
        t.getF DST_SVC_CFG.BASE i = s.getF DST_SVC_CFG.BASE i ∧ t.getF DST_SVC_CFG.DEPTH i = s.getF DST_SVC_CFG.DEPTH i)) ∧
    (∀ (d : Die) (p : Part) (v : BitVec 64),
      let i := 16 * d.val + p.val
      s.tasks = [] →
        (v.getLsbD 0 = false ∨ s.lockedRange d.val p.val (65536 * bits v.toNat DST_SAVE_BASE.BASE.hi DST_SAVE_BASE.BASE.lo) (24 * 2 ^ 20) = true →
          Does (.dstSaveBaseWrite 0 d p v) s fun t => Takes t [DST_SAVE_BASE.BASE, DST_SAVE_BASE.EN] i v.toNat) ∧
        (v.getLsbD 0 = true → s.lockedRange d.val p.val (65536 * bits v.toNat DST_SAVE_BASE.BASE.hi DST_SAVE_BASE.BASE.lo) (24 * 2 ^ 20) = false →
          Does (.dstSaveBaseWrite 0 d p v) s fun t => t.getF DST_SAVE_BASE.EN i = 0 ∧ t.getF DST_SAVE_BASE.ERR i = 1)) ∧
    (∀ (d : Die) (p : Part) (seq n cause : Nat), seq < 2 ^ 32 →
      (s.svcAwait.find? fun a => a.1 = 16 * d.val + p.val && a.2.1 = seq) = some (16 * d.val + p.val, seq, 0, n, cause) →
      let go (act : Nat) : BitVec 64 :=
        BitVec.ofNat 64 (setBits (setBits 1 DST_SVC_CTL.ACTION.hi DST_SVC_CTL.ACTION.lo act) DST_SVC_CTL.SEQ.hi DST_SVC_CTL.SEQ.lo seq)
      Does (.svcResume 0 d p (go 1)) s (fun t => (t.task n).awaitSvc = false ∧ (t.task n).st = (s.task n).st ∧
        ∀ a ∈ t.svcAwait, ¬(a.1 = 16 * d.val + p.val ∧ a.2.1 = seq)) ∧
      ((s.task n).resident = true → Does (.svcAbort 0 d p (go 2)) s fun t => (t.task n).st = .aborted ∧
        ∀ a ∈ t.svcAwait, ¬(a.1 = 16 * d.val + p.val ∧ a.2.1 = seq))) ∧
    (∀ (c : Cluster) (v : BitVec 64), s.getF CCC_RPL_CTL.STATE c.val = 0 → (s.cluster c.val).rpl.armed = false →
      v.getLsbD 0 = true →
      let nev := bits v.toNat CCC_RPL_CTL.NEV.hi CCC_RPL_CTL.NEV.lo
      let part := ((List.range 16).find? fun p => bit (s.csrVal .PRT_CLUSTERS p).toNat c.val).getD 0
      (nev = 0 ∨ 32 < nev → Does (.rplArm 0 c v) s fun t => t.getF CCC_RPL_CTL.STATE c.val = 0 ∧ t.clusters = s.clusters) ∧
      (1 ≤ nev → nev ≤ 32 → (s.stream (c.val / 12) (bits v.toNat CCC_RPL_CTL.STREAM.hi CCC_RPL_CTL.STREAM.lo)).valid = false →
        s.getF CCC_RPL_BUF.CAPSZ c.val = 0 →
        s.rangeFault (c.val / 12) part (s.getF CCC_RPL_BUF.RES c.val) (8 * nev + 4 * ceilDiv nev 4) 1 = none →
        Does (.rplArm 0 c v) s fun t => t.getF CCC_RPL_CTL.STATE c.val = 1 ∧ t.getF CCC_RPL_CTL.MISMATCH c.val = 0 ∧
          Takes t [CCC_RPL_CTL.NEV, CCC_RPL_CTL.STREAM] c.val v.toNat ∧ (t.cluster c.val).rpl.armed = true)) ∧
    ∀ (d : Die) (p : Part) (v : BitVec 64), Does (.bbtEdit 0 d p v) s fun t =>
      Takes t [BBT_EDIT_CTL.IDX] (16 * d.val + p.val) v.toNat ∧
      t.hostEdits.length = s.hostEdits.length + (if v.getLsbD 0 = true then 1 else 0)

/-- R37, R43, R53, R67, R71, R81, R89, R97 to R102, R107, R109, R115, R128: what the other register writes of the opcode table
start, through the physical function. With their effect complete: FAB_WIN_WRITE, BWS_FAB_IN_WRITE, RETRAIN, PTC_STEP,
PRT_OWNERSHIP_WRITE, PRT_RESET_GO, SJ_CLEAR, SJ_RESTART, SJ_IMG_GO, ATT_GO, SNP_ARM, SNP_TRIG, STREAM_REGISTER,
STREAM_DEREGISTER, DLS_SES_FLOOR_WRITE, ADM_GRP_WRITE, BWS_FRAME_CFG_WRITE and CKPT_GO. -/
def Obligations.RegisterCommands : Prop :=
  ∀ (s : State), s.hostUp = true →
    (∀ (w : Fin 64) (v : BitVec 128), Does (.fabWinWrite 0 w v) s fun t =>
      Takes t [FAB_WIN.SIZE, FAB_WIN.BASE, FAB_WIN.TAG, FAB_WIN.PRT] w.val v.toNat ∧
      t.getF FAB_WIN.EN w.val = (if bits v.toNat 107 88 = 0 then 0 else bits v.toNat 0 0) ∧
      (bits v.toNat 107 88 = 0 → t.getF FAB_WIN.ERR w.val = 1)) ∧
    (∀ (n : Fin 128) (v : BitVec 64),
      let s' := (s.setF BWS_FAB_IN.FAST n.val (bits v.toNat 9 0)).setF BWS_FAB_IN.SLOW n.val (bits v.toNat 25 16)
      let fits := s'.slotSum (n.val / 16) 0 [] s.levelOf none ≤ s.getF BWS_FRAME_CFG.FAST (n.val / 16) ∧
        s'.slotSum (n.val / 16) 1 [] s.levelOf none ≤ s.getF BWS_FRAME_CFG.SLOW (n.val / 16)
      (fits → Does (.bwsFabInWrite 0 n v) s fun t => Takes t [BWS_FAB_IN.FAST, BWS_FAB_IN.SLOW] n.val v.toNat) ∧
      (¬fits → Does (.bwsFabInWrite 0 n v) s fun t => t.getF BWS_USE.ERR (n.val / 16) = 1 ∧
        t.csrVal .BWS_FAB_IN n.val = s.csrVal .BWS_FAB_IN n.val)) ∧
    (∀ (p : Port), Does (.retrain 0 p 1) s fun t => t.getF FAB_PORT_STAT.STATE p.val = 1) ∧
    (∀ v : BitVec 64, v.getLsbD 0 = true →
      let busy := s.streams.any fun e => e.2.valid && decide (e.2.cls < 2)
      (busy = true → Does (.ptcStep 0 v) s fun t => t.getF PTC_STAT.STEPREF 0 = 1 ∧ t.ptp = s.ptp) ∧
      (busy = false → Does (.ptcStep 0 v) s fun t => t.ptp.stepPending = true)) ∧
    (∀ (ways : Bool) (p : Part) (v : BitVec 128),
      let f := if ways then PRT_LLC_WAYS.MASK else PRT_CLUSTERS.MASK
      let new := bits v.toNat f.hi 0
      (s.getF f p.val = 0 → s.scrubbing = [] → Nat.land new (s.ownedElse f p.val) ≠ 0 → Does (.prtOwnershipWrite 0 ways p v) s fun t =>
        t.getF f p.val = s.getF f p.val ∧ t.getF PRT_STAT.CFGERR p.val = 1) ∧
      (s.getF f p.val = 0 → s.scrubbing = [] → Nat.land new (s.ownedElse f p.val) = 0 → Does (.prtOwnershipWrite 0 ways p v) s fun t =>
        t.getF f p.val = new ∧ t.scrubbing = [])) ∧
    (∀ p : Part, s.getF PRT_STAT.RST p.val = 0 → Does (.prtResetGo 0 p 1) s fun t =>
      t.getF PRT_STAT.RST p.val = 1 ∧ Pending s t (.resetStop p) 8000) ∧
    (Does (.sjClear 0 1) s fun t => t.sjClear = true ∧ t.csr = s.csr) ∧
    (Does (.sjRestart 0 2) s fun t => t.now = s.now ∧ t.tickBase = s.tickBase ∧ t.mem = s.mem ∧ t.tasks = [] ∧ t.streams = [] ∧
      t.getF SJ_STAT.BOOT 0 = (s.getF SJ_STAT.BOOT 0 + 1) % 2 ^ 32) ∧
    (∀ v : BitVec 64, s.getF SJ_IMG_CTL.STATE 0 ≠ 1 → v.getLsbD 0 = true → Does (.sjImgGo 0 v) s fun t =>
      t.getF SJ_IMG_CTL.STATE 0 = 1 ∧ Takes t [SJ_IMG_CTL.SRC, SJ_IMG_CTL.LEN, SJ_IMG_CTL.SLOT] 0 v.toNat) ∧
    (∀ (p : Part) (v : BitVec 64), s.getF PRT_ATT_CTL.STATE p.val ≠ 1 → v.getLsbD 0 = true → Does (.attGo 0 p v) s fun t =>
      t.getF PRT_ATT_CTL.STATE p.val = 1 ∧ t.getF PRT_ATT_CTL.DEST p.val = bits v.toNat 63 6 ∧
      Pending s t (.attReport p) 20000000) ∧
    (∀ v : BitVec 64, v.getLsbD 1 = false → Does (.snpArm 0 v) s fun t =>
      Takes t [SNP_CTL.FAULTS, SNP_CTL.PIN, SNP_CTL.ARM] 0 v.toNat ∧
      (v.getLsbD 0 = true → t.getF SNP_STAT.STATE 0 = 1 ∧ t.snap.regs = [])) ∧
    (s.snap.pending = none → Does (.snpTrig 0 3) s fun t => t.snap.pending = some s.now ∧ t.snap.cause = 1 ∧
      ∃ x ∈ t.agenda, x.ev = .snpLatch ∧ x.time = s.now + 64) ∧
    (∀ (d : Die) (p : Part) (v : BitVec 128), s.getF DLS_REG_CTL.STATE (16 * d.val + p.val) ≠ 1 → s.tickBase ≠ none →
      bit v.toNat 0 = true →
      let k := 16 * d.val + p.val
      let n := bits v.toNat DLS_REG_CTL.STREAM.hi DLS_REG_CTL.STREAM.lo
      (bits v.toNat DLS_REG_CTL.OP.hi DLS_REG_CTL.OP.lo = 1 →
        Does (.streamRegister 0 d p v) s fun t => t.getF DLS_REG_CTL.STATE k = 1 ∧
          ((s.die d.val).regTest = none → (∀ r ∈ (s.die d.val).regQ, r.2.2 ≤ s.now) → (t.die d.val).regTest ≠ none ∧ Pending s t (.admissionComplete d) 200000)) ∧
      (bits v.toNat DLS_REG_CTL.OP.hi DLS_REG_CTL.OP.lo = 2 →
        ((s.stream d.val n).valid = false ∨ (s.stream d.val n).part ≠ p.val →
          Does (.streamDeregister 0 d p v) s fun t => t.getF DLS_REG_CTL.STATE k = 3 ∧
            t.getF DLS_REG_CTL.REASON k = 0x010A ∧ t.streams = s.streams) ∧
        ((s.stream d.val n).valid = true → (s.stream d.val n).part = p.val →
          Does (.streamDeregister 0 d p v) s fun t => t.getF DLS_REG_CTL.STATE k = 2 ∧ t.getF DLS_REG_CTL.REASON k = 0))) ∧
    (∀ (d : Die) (ss : Fin 256) (v : BitVec 64),
      let k := 256 * d.val + ss.val
      let floor := bits v.toNat DLS_SES.FLOOR.hi DLS_SES.FLOOR.lo
      Does (.dlsSesFloorWrite 0 d ss v) s fun t => t.getF DLS_SES.FLOOR k = floor ∧
        (s.getF DLS_SES.VALID k = 1 → s.getF DLS_SES.LEVEL k < floor → s.shadowed d.val ss.val = false →
          s.hasStream d.val ss.val 0 = true → t.getF DLS_SES.LEVEL k = floor) ∧
        (floor ≤ s.getF DLS_SES.LEVEL k → t.getF DLS_SES.LEVEL k = s.getF DLS_SES.LEVEL k)) ∧
    (∀ (d : Die) (g : Fin 96) (v : BitVec 64),
      let k := 96 * d.val + g.val
      ((s.streams.any fun e => e.2.valid && decide (e.2.cls < 2) && decide (e.2.group = k)) = true →
        bits v.toNat ADM_GRP.SIZE.hi ADM_GRP.SIZE.lo ≠ s.getF ADM_GRP.SIZE k → Does (.admGrpWrite 0 d g v) s fun t =>
          t.getF ADM_GRP.ERR k = 1 ∧ t.getF ADM_GRP.SIZE k = s.getF ADM_GRP.SIZE k ∧ t.getF ADM_GRP.EN k = s.getF ADM_GRP.EN k) ∧
      (s.streams = [] → (bits v.toNat ADM_GRP.EN.hi ADM_GRP.EN.lo = 0 ∨
          (k % 2 ^ bits v.toNat ADM_GRP.SIZE.hi ADM_GRP.SIZE.lo = 0 ∧ ∀ h, h / 8 = k / 8 → h ≠ k → s.getF ADM_GRP.EN h = 0)) → Does (.admGrpWrite 0 d g v) s fun t =>
          Takes t [ADM_GRP.EN, ADM_GRP.SIZE] k v.toNat)) ∧
    (∀ (j : Stack) (v : BitVec 64),
      (512 < bits v.toNat BWS_FRAME_CFG.FAST.hi BWS_FRAME_CFG.FAST.lo + bits v.toNat BWS_FRAME_CFG.SLOW.hi BWS_FRAME_CFG.SLOW.lo +
          bits v.toNat BWS_FRAME_CFG.SYSTEM.hi BWS_FRAME_CFG.SYSTEM.lo →
        Does (.bwsFrameCfgWrite 0 j v) s fun t => t.getF BWS_USE.ERR j.val = 1 ∧
          t.csrVal .BWS_FRAME_CFG j.val = s.csrVal .BWS_FRAME_CFG j.val) ∧
      (s.slotSum j.val 0 [] s.levelOf none = 0 → s.slotSum j.val 1 [] s.levelOf none = 0 →
        bits v.toNat BWS_FRAME_CFG.FAST.hi BWS_FRAME_CFG.FAST.lo + bits v.toNat BWS_FRAME_CFG.SLOW.hi BWS_FRAME_CFG.SLOW.lo +
          bits v.toNat BWS_FRAME_CFG.SYSTEM.hi BWS_FRAME_CFG.SYSTEM.lo ≤ 512 →
        Does (.bwsFrameCfgWrite 0 j v) s fun t =>
          Takes t [BWS_FRAME_CFG.FAST, BWS_FRAME_CFG.SLOW, BWS_FRAME_CFG.SYSTEM] j.val v.toNat)) ∧
    ∀ (d : Die) (v : BitVec 64), v.getLsbD 0 = true →
      let got := s.vread d.val (ckPart d.val) (64 * bits v.toNat 63 6) 64 0
      let state (n : Nat) : Prop := Does (.ckptGo 0 d v) s fun t =>
        t.getF UEE_CKPT_CTL.DESC d.val = bits v.toNat 63 6 ∧ t.getF UEE_CKPT_CTL.STATE d.val = n
      (s.getF UEE_CKPT_CTL.STATE d.val = 1 → state 1) ∧
      (s.getF UEE_CKPT_CTL.STATE d.val = 0 → got = none → state 3) ∧
      (s.getF UEE_CKPT_CTL.STATE d.val = 0 → (∃ b, got = some b ∧ ckOk b = true) → state 1)

/-- An event stands on the agenda at a time. -/
def DueAt (t : State) (e : Ev) (time : Nat) : Prop := ∃ d ∈ t.agenda, d.ev = e ∧ d.time = time

/-- R115, R135, R141, R143, R148, R150: the memory system's own steps on its queues and registers. A slot serves the transfer
that the order of R115 picks: its last slot makes its event due at the slot's end. The operations of PRT_MEM_OWN, PRT_TLBI,
PRT_LOCK and CCC_L1_CFG complete with their registers' new values and without the translations and lines that they remove. A
walk whose entry has come goes on to the next table, or is over: it leaves its miss entry, with the translation in its
requester's translator and the walkers' own cache, or the cause with its requester. With their effect complete:
BWS_FRAME_BOUNDARY, BWS_SLOT, PRT_MEM_OWN_DONE, TLBI_DONE, PRT_LOCK_DONE, L1_MODE_DONE and TABLE_WALK_DONE. -/
def Obligations.MemoryRegisterEvents : Prop :=
  ∀ (s : State),
    (∀ j : Stack,
      (s.tickBase = none → exec (.bwsFrameBoundary j) s = .next s ∧ exec (.bwsSlot j) s = .next s) ∧
      (s.bwsQ.look j.val = [] → exec (.bwsFrameBoundary j) s = .next s ∧ Does (.bwsSlot j) s fun t =>
        (∀ k, t.bwsQ.look k = s.bwsQ.look k) ∧ t.agenda = s.agenda ∧ t.mem = s.mem ∧ t.banks = s.banks) ∧
      (s.tickBase ≠ none → s.bwsQ.look j.val ≠ [] → Does (.bwsFrameBoundary j) s fun t => ∃ x ∈ t.agenda, x.ev = .bwsSlot j) ∧
      (let q := s.bwsQ.look j.val
       let o := s.bwsOwner j.val (bwsIndex s.tick)
       ∀ k, s.tickBase ≠ none → bwsPick q o.1 o.2 = some k →
        (Does (.bwsSlot j) s fun t => t.bwsQ.look j.val = (bwsTake (q.getD k {}).cls (q.getD k {}).owner 12500 q).1 ∧
          ∀ e ∈ (bwsTake (q.getD k {}).cls (q.getD k {}).owner 12500 q).2, ∃ x ∈ t.agenda, x.ev = e ∧ x.time = s.now + bwsWait s.tick) ∧
        (12500 < (q.getD k {}).n → q.length = 1 → Does (.bwsSlot j) s fun t =>
          t.bwsQ.look j.val = [{ q.getD k {} with n := (q.getD k {}).n - 12500 }] ∧ t.due (.bwsSlot j) = true) ∧
        ((q.getD k {}).n ≤ 12500 → q.length = 1 → Does (.bwsSlot j) s fun t => t.bwsQ.look j.val = [] ∧
          ∀ e, (q.getD k {}).ev = some e → ∃ x ∈ t.agenda, x.ev = e ∧ x.time = s.now + bwsWait s.tick))) ∧
    (∀ b : Fin 512, s.due (.prtMemOwnDone b) = true → Does (.prtMemOwnDone b) s fun t =>
      t.getF PRT_MEM_OWN.BUSY b.val = s.getF PRT_MEM_OWN.BUSY b.val ∧ t.memOwnNew = s.memOwnNew ∧
      ∀ c, ∀ x ∈ (t.core c).tlb, x.inBlock b.val = false) ∧
    (∀ (b : Fin 512) (own : Nat), s.due (.prtMemOwnDone b) = false → s.memOwnNew.look b.val = some own → own < 32 →
      Does (.prtMemOwnDone b) s fun t => t.getF PRT_MEM_OWN.PRT b.val = own % 16 ∧ t.getF PRT_MEM_OWN.EN b.val = own / 16 ∧ t.getF PRT_MEM_OWN.BUSY b.val = 0 ∧
      t.memOwnNew.look b.val = none ∧ ∀ c, ∀ x ∈ (t.core c).tlb, x.inBlock b.val = false) ∧
    (∀ p : Part, Does (.tlbiDone p) s fun t => t.getF PRT_TLBI.STATE p.val = 2 ∧
      (∀ c, ∀ x ∈ (t.core c).tlb, x.part = p.val → s.getF PRT_TLBI.SIZE p.val ≠ 0 ∧
        x.meets (s.getF PRT_TLBI.BASE p.val) (s.getF PRT_TLBI.SIZE p.val) = false) ∧
      ∀ d, (t.die d).lockArr = (s.die d).lockArr) ∧
    (∀ (d : Die) (p i : Fin 16),
      let k := 256 * d.val + 16 * p.val + i.val
      let r := s.lockWalk p.val (s.getF PRT_LOCK.SIZE k) (s.getF PRT_LOCK.BASE k) []
      (s.getF PRT_LOCK.STATE k ≠ 1 → exec (.prtLockDone d p i) s = .next s) ∧
      (s.getF PRT_LOCK.STATE k = 1 → r.1 = 0 → (s.die d.val).lockArr.length + r.2.length ≤ 16384 →
        Does (.prtLockDone d p i) s fun t => t.getF PRT_LOCK.STATE k = 2 ∧
          (∀ x ∈ r.2, x ∈ (t.die d.val).lockArr) ∧ ∀ x ∈ (s.die d.val).lockArr, x ∈ (t.die d.val).lockArr) ∧
      (s.getF PRT_LOCK.STATE k = 1 → r.1 ≠ 0 → Does (.prtLockDone d p i) s fun t => t.getF PRT_LOCK.STATE k = 3 ∧
        t.getF PRT_LOCK.CAUSE k = r.1 % 256 ∧ (t.die d.val).lockArr = (s.die d.val).lockArr)) ∧
    (∀ c : Cluster, s.due (.l1ModeDone c) = true → Does (.l1ModeDone c) s fun t => t.l1New = s.l1New ∧
      ∀ i < 8, (t.core (8 * c.val + i)).l1 = []) ∧
    (∀ c : Cluster, s.due (.l1ModeDone c) = false → Does (.l1ModeDone c) s fun t =>
      t.getF CCC_L1_CFG.FUSED c.val = (if s.l1New.look c.val = some true then 1 else 0) ∧
      t.getF CCC_L1_CFG.BUSY c.val = 0 ∧ t.l1New.look c.val = none ∧ ∀ i < 8, (t.core (8 * c.val + i)).l1 = []) ∧
    ∀ (d : Die) (walk : Nat),
      ((∀ m ∈ (s.die d.val).walkQ, m.id ≠ walk) → exec (.tableWalkDone d walk) s = .next s) ∧
      ∀ (m : Miss) (w : Asker), (s.die d.val).walkQ = [m] → m.id = walk → m.reqs = [w] → w.tr < 1000 → w.wake = none →
        let ends (r : Nat × Xlate) : Prop :=
          let c := if r.1 ≠ 0 then r.1 else s.leafCause r.2 w.va w.kind
          Does (.tableWalkDone d walk) s fun t => (t.die d.val).walkQ = [] ∧
            (c = 0 → r.2 ∈ (t.core w.tr).tlb ∧ r.2 ∈ (t.die d.val).walkTlb) ∧
            (c ≠ 0 → (t.task w.task).walkRes = (s.task w.task).walkRes ++
              [{ core := w.tr, page := w.va / 65536, kind := w.kind, cause := c }])
        (∀ r, m.res = some r → ends r) ∧
        ∀ lv, m.res = none → walkLevels[m.lvl]? = some lv →
          let e := s.readEntry m.part (m.table + 8 * bits (m.page * 65536) lv.hi lv.lo)
          match lv.entry (decide (m.lvl = 3)) m.part (m.page * 65536) e with
          | .fault c => ends (c, {})
          | .leaf x => ends (0, x)
          | .table a => Does (.tableWalkDone d walk) s fun t =>
              ∃ x ∈ (t.die d.val).walkQ, x.id = walk ∧ x.lvl = m.lvl + 1 ∧ x.table = a ∧ x.reqs = [w]

/-- R46, R142, R154, R155, R164, R343, R344: data that arrives or leaves. A part of a load counts down what it waits for, and
the last lands its value; a tile is published in its ring with the tail one higher; a waiting subscribe is granted; a group
of atomics performs in logical order and leaves; a buffer that drains gives memory its written bytes; an acknowledgement
counts down its store. With their effect complete: LOAD_DATA_LAND, RHIZOID_TILE, SUBSCRIPTION_GRANT, ATOMIC_GROUP, WCB_DRAIN
and STORE_ACKNOWLEDGED. -/
def Obligations.DataEvents : Prop :=
  ∀ (s : State),
    (∀ (id : Nat),
      let l := s.loads.look id
      (l.id ≠ id → exec (.loadDataLand id) s = .next s) ∧
      (l.id = id → l.late = true → Does (.loadDataLand id) s fun t => (t.loads.look id).late = false ∧ t.banks = s.banks) ∧
      (l.id = id → l.late = false → 1 < l.need → Does (.loadDataLand id) s fun t => (t.loads.look id).need = l.need - 1 ∧ t.banks = s.banks) ∧
      (l.id = id → l.late = false → l.need ≤ 1 → s.now < l.notBefore → Does (.loadDataLand id) s fun t =>
        ∃ x ∈ t.agenda, x.ev = .loadDataLand id ∧ x.time = l.notBefore) ∧
      (l.id = id → l.need ≤ 1 → l.notBefore ≤ s.now → l.late = false → l.width ≠ 0 → l.dst ≠ .s 0 → l.acq = 0 →
        (s.bank (ctxOf l.core l.ctx)).heldStores = [] →
        let data := if l.atomic then bytesAt l.data 0 l.width else l.bytes
        Does (.loadDataLand id) s fun t => t.loads.look id = {} ∧
          (t.bank (ctxOf l.core l.ctx)).pend = (s.bank (ctxOf l.core l.ctx)).pend ++
            [⟨max l.land ((s.bank (ctxOf l.core l.ctx)).lastCyc + 1), l.ord, destWrite l.dst l.width l.sx data⟩])) ∧
    (∀ (j : Stack) (sub : Nat),
      let x := s.subs.look sub
      let r := s.ringEnt x.core x.ctx x.ring
      let tail := s.ringTail x.core x.ctx r
      let seq := s.ringSeq x.core x.ctx r
      let b := s.bank (ctxOf x.core x.ctx)
      let slot := r.slotAt tail
      let n := subRows x.desc * subRowBytes x.desc
      (x.desc = [] ∨ x.stopped = true → exec (.rhizoidTile j sub) s = .next s) ∧
      (x.desc ≠ [] → x.stopped = false → (x.remote = true ∨ s.joined x.die (x.stack / 2) = true) → subTiles x.desc ≤ x.tile →
        x.id = sub → Does (.rhizoidTile j sub) s fun t => t.subs.look sub = {}) ∧
      (x.desc ≠ [] → x.id = sub → x.stopped = false → x.tile < subTiles x.desc → subPull x.desc = false → x.remote = false → x.moving = true →
        s.joined x.die (x.stack / 2) = true → x.need = 0 → (∃ ps, (s.tilePieces x).1 = some ((0, 0), ps)) →
        s.capturing x.task = false → 0 < n → slot + n ≤ b.spadSize / 64 * 64 → r.pub + 8 ≤ b.spadSize →
        (16 * x.ring + 16 ≤ slot ∨ slot + n ≤ 16 * x.ring) → (r.pub + 8 ≤ slot ∨ slot + n ≤ r.pub) →
        Does (.rhizoidTile j sub) s fun t => t.spadNat x.core x.ctx r.pub 4 = (tail + 1) % 2 ^ 32 ∧
          t.spadNat x.core x.ctx (r.pub + 4) 4 = (seq + 1) % 2 ^ 32 ∧ t.mem = s.mem)) ∧
    (∀ j : Stack,
      ((∀ e ∈ s.cmds, e.2.waiting = false) → exec (.subscriptionGrant j) s = .next s) ∧
      (∀ c : Cmd, s.cmds = [(c.id, c)] → c.kind = .subs → c.waiting = true → s.subStack c = (j.val, false) → s.subs = [] →
        (∀ e ∈ s.tasks, e.2.subWait ≠ some j.val) →
        Does (.subscriptionGrant j) s fun t => (t.cmds.look c.id).granted = true ∧ (t.cmds.look c.id).waiting = false)) ∧
    (∀ (word interval : Nat),
      ((s.groupOf word interval).Pairwise fun a b => lexLt b.key a.key = false) ∧
      (∀ a, a ∈ s.groupOf word interval ↔ a ∈ s.atoms ∧ a.pa = word ∧ a.interval = interval) ∧
      let waits := s.groupWaits word interval (s.groupOf word interval)
      (waits = true → Does (.atomicGroup word interval) s fun t => t.atoms = s.atoms ∧ t.mem = s.mem ∧ t.banks = s.banks ∧
        DueAt t (.atomicGroup word interval) (s.now + 1)) ∧
      (waits = false → (∀ k, (s.bank k).heldStores = []) → Does (.atomicGroup word interval) s fun t =>
        t.atoms = s.atoms.filter (fun a => !(a.pa = word && a.interval = interval)) ∧
        ∀ k, (t.bank k).s = (s.bank k).s ∧ (t.bank k).v = (s.bank k).v ∧ (t.bank k).p = (s.bank k).p) ∧
      ∀ a : Atom, s.groupOf word interval = [a] → word < 2 ^ 40 → word % 8 = 0 → s.cores = [] → s.dies = [] →
        s.capturing a.task = false → waits = false → a.mt = 0 → a.arrived = none → (∀ k, (s.bank k).heldStores = []) →
        let n := if a.w then 8 else 4
        let part := a.part
        let old := leNat (s.sideBytes part word n)
        Does (.atomicGroup word interval) s fun t => t.sideBytes part word n = natLe n (a.apply old) ∧
          ∀ id, a.load = some id → (s.loads.look id).id = id → leNat (bytesAt (t.loads.look id).data 0 n) = old) ∧
    (∀ (core : Core) (buf : Fin 16),
      let w := (s.core core.val).wcb.look buf.val
      (w.draining = false → exec (.wcbDrain core buf) s = .next s) ∧
      (∀ la, w.draining = true → w.line = some la → paD la = false →
        (isHost la = true ∨ s.joined (dieOf core.val) (ownerDie la) = true) → Does (.wcbDrain core buf) s fun t =>
        (t.core core.val).wcb.look buf.val = {} ∧
        ∀ (i : Nat) (b : Byte), w.mask[i]? = some true → w.data[i]? = some b → t.memBytes (paOff la + i) 1 = [b])) ∧
    ∀ id : Nat,
      let p := s.stores.look id
      (p.id ≠ id → exec (.storeAcknowledged id) s = .next s) ∧
      (p.id = id → 1 < p.n → Does (.storeAcknowledged id) s fun t => (t.stores.look id).n = p.n - 1 ∧ t.banks = s.banks) ∧
      (p.id = id → p.n ≤ 1 → (∀ k, (s.bank k).heldStores = []) → s.barriers = [] →
        Does (.storeAcknowledged id) s fun t => t.stores.look id = {} ∧ t.mem = s.mem)

/-- R145, R349 to R358: engines at work. RPUB and RPOP advance their ring's publish word and pointer; SUBS makes its
subscription; a copy is begun and, where its engine serves nothing, served from the next tick on; a unit within a partition
moves its bytes; the completion word is written and the command is gone; maintenance over its whole range ends; Ethernet
sectors are acknowledged. An instance that releases raises r of its participants. With their effect complete: ENGINE_START,
COPY_SECTOR, COPY_COMPLETE, CMO_COMPLETE, RMA_WRITE_ACKNOWLEDGED and BARRIER_RELEASE. -/
def Obligations.EngineEvents : Prop :=
  ∀ (s : State) (id : Nat),
    let c := s.cmd id
    let r := s.ringEnt c.core c.ctx c.ring
    (c.kind = .rpub → Does (.engineStart id) s fun t => t.cmds.look id = {} ∧
      t.spadNat c.core c.ctx r.pub 4 = (s.ringTail c.core c.ctx r + c.count) % 2 ^ 32 ∧
      t.spadNat c.core c.ctx (r.pub + 4) 4 = (s.ringSeq c.core c.ctx r + 1) % 2 ^ 32) ∧
    (c.kind = .rpop → Does (.engineStart id) s fun t => t.cmds.look id = {} ∧
      t.spadNat c.core c.ctx (16 * c.ring + 12) 4 = (r.head + c.count) % 2 ^ 32) ∧
    (c.kind = .subs → c.id = id → Does (.engineStart id) s fun t => t.cmds.look id = {} ∧
      (t.subs.look s.nextId).desc = c.desc ∧ (t.subs.look s.nextId).ring = c.ring ∧ (t.subs.look s.nextId).tile = 0) ∧
    (c.kind = .unsub → s.subs = [] → Does (.engineStart id) s fun t => t.cmds.look id = {} ∧ t.subs = []) ∧
    (∀ e, s.cmds = [(id, c)] → c.id = id → c.kind = .copy ∨ c.kind = .put ∨ c.kind = .get → c.engine = some e → c.ended = false →
      c.serving = false → c.setAside = false → Does (.engineStart id) s fun t =>
        (t.cmds.look id).begun = true ∧ (t.cmds.look id).serving = true ∧
        ∃ x ∈ t.agenda, x.ev = .copySector id ∧ x.time = s.now + 1) ∧
    (c.serving = false ∨ c.awaiting = true → exec (.copySector id) s = .next s) ∧
    (∀ sa da n, c.id = id → c.serving = true → c.awaiting = false → c.stage = 2 → c.buf = [] → c.srcSpace = 2 → c.dstSpace = 2 →
      c.unit = some (sa, da, n) → sa + n ≤ (s.bank (ctxOf c.core c.ctx)).spadSize → da + n ≤ (s.bank (ctxOf c.core c.ctx)).spadSize →
      Does (.copySector id) s fun t => t.spadBytes c.core c.ctx da n = s.engineBytes c.core c.ctx sa n) ∧
    (∀ off, c.id = id → c.done = some off → off + 8 ≤ (s.bank (ctxOf c.core c.ctx)).spadSize →
      Does (.copyComplete id) s fun t => t.cmds.look id = {} ∧ t.spadNat c.core c.ctx off 8 = c.doneVal.toNat) ∧
    (c.kind = .cmo → c.id = id → c.setAside = false → c.len ≤ c.off → s.cmoBusy c = true → Does (.cmoComplete id) s fun t =>
      t.cmds = s.cmds ∧ t.mem = s.mem ∧ DueAt t (.cmoComplete id) (s.now + 1)) ∧
    (c.kind = .cmo → c.id = id → c.setAside = false → c.len ≤ c.off → s.cmoBusy c = false → Does (.cmoComplete id) s fun t => t.cmds.look id = {} ∧
      (t.bank (ctxOf c.core c.ctx)).maint = (s.bank (ctxOf c.core c.ctx)).maint - 1) ∧
    (c.dstSpace = 5 → c.begun = true → c.ended = false → c.barrier = none → ∀ n,
      Does (.rmaWriteAcknowledged id n true) s fun t => (t.cmds.look id).acked = c.acked + min (c.pos - c.acked) n) ∧
    ((s.barriers.look id).arrived.map (fun p => ctxOf p.1 p.2)).Nodup → Does (.barrierRelease id) s fun t =>
      t.barriers.look id = (if (s.barriers.look id).pending = 0 then {} else
        { level := (s.barriers.look id).level, bar := (s.barriers.look id).bar, pending := (s.barriers.look id).pending }) ∧
      ∀ p ∈ (s.barriers.look id).arrived,
        (t.bank (ctxOf p.1 p.2)).barR.look (256 * (s.barriers.look id).level + (s.barriers.look id).bar) =
          (s.bank (ctxOf p.1 p.2)).barR.look (256 * (s.barriers.look id).level + (s.barriers.look id).bar) + 1

/-- R380, R383 to R385: the sampler's queue and the batching table. The oldest operation begins when none is in work; what it
writes lands at its end; a flip makes the other image live and raises GEN, and the log is empty once its replay is done.
With their effect complete: SAMPLER_OP_BEGIN, SAMPLER_OP_LAND, BFLIP_PERFORM and BFLIP_REPLAY_DONE. -/
def Obligations.SamplerEvents : Prop :=
  (∀ (s : State) (core : Core),
    let k := s.core core.val
    (k.smpOp ≠ none ∨ k.smpQ = [] → exec (.samplerOpBegin core) s = .next s) ∧
    (∀ op rest, k.smpOp = none → k.smpQ = op :: rest → Does (.samplerOpBegin core) s fun t =>
      (t.core core.val).smpOp = some op ∧ (t.core core.val).smpQ = rest ∧ (t.core core.val).smpLeft = op.occ ∧ t.mem = s.mem) ∧
    (k.smpOp = none → exec (.samplerOpLand core) s = .next s) ∧
    ∀ op, k.smpOp = some op → k.smpQ = [] → k.smpLand.bumps = [] → k.smpLand.edit = none →
      let issued := (s.slotRec core.val op.ctx op.slot).issued
      Does (.samplerOpLand core) s fun t => (t.core core.val).smpOp = none ∧
        t.slotRec core.val op.ctx op.slot = { k.smpLand.record with issued := issued } ∧
        (∀ off b, k.smpLand.store = some (off, b) → t.spadBytes core.val op.ctx off b.length = b) ∧
        (∀ en, op.kind = .thr en → (t.bank (ctxOf core.val op.ctx)).thrSrc = if en then some op.slot else none)) ∧
  ∀ (s : State) (d : Die) (p : Part),
    let i := 16 * d.val + p.val
    let b := s.bbt.look i
    let w := (b.gen + 1) % 2 ^ 63 * 2 + (1 - b.live)
    (s.getF BBT_CFG.EN i = 0 → Does (.bflipPerform d p) s fun t => t.getF BBT_STAT.ERR i = 1 ∧ t.mem = s.mem) ∧
    (s.getF BBT_CFG.EN i ≠ 0 → s.vwrite d.val p.val 0 2 (s.getF BBT_CFG.FLIPW i) (natLe 8 w) ≠ none →
      Does (.bflipPerform d p) s fun t => (t.bbt.look i).live = 1 - b.live ∧ (t.bbt.look i).gen = b.gen + 1 ∧
        t.getF BBT_STAT.LIVE i = 1 - b.live ∧ t.getF BBT_EDIT_CTL.BUSY i = 1 ∧
        ∃ x ∈ t.agenda, x.ev = .bflipReplayDone d p ∧ x.time = s.now + max 1 (16 * b.log.length)) ∧
    (b.waiting = [] → Does (.bflipReplayDone d p) s fun t => (t.bbt.look i).log = [] ∧ (t.bbt.look i).replaying = false ∧
      t.getF BBT_STAT.LOG i = 0 ∧ t.getF BBT_EDIT_CTL.BUSY i = 0)

namespace Sys2Proof.Spec

open Sys2Proof.Machine

/-- The task has been aborted. -/
def Aborted (t : State) (id : Nat) : Prop := (t.task id).st = .aborted ∧ (t.task id).run = .aborting
/-- A task on which a fault may be raised: it holds a context and no abort is in progress. -/
def Raisable (s : State) (id : Nat) : Prop := s.env.probe = false ∧ (s.task id).resident = true ∧ (s.task id).run ≠ .aborting

end Sys2Proof.Spec

/-- R29, R30, R87, R106, R107, R116, R123, R124, R126, R127, R181, R187, R189: the scheduler's own steps on a task. A timer
stream's release gives its task r and dabort by time_to_tick, and the next release is due. A pending task becomes Ready. A
launch path waits for its header, takes its occupancies or is refused, and ends with an eligible context. A report of
sisters counts, and the last sets the start 512 ticks on. A deadline passed aborts; a final bundle commits, or ends a pass
of a measurement. A registration ends admitted or refused. Idle clusters are gated and wake. A walk goes on when what it
waited for has committed. With their effect complete: TASK_READY, TASK_LAUNCH, DEADLINE_ABORT, TASK_COMMIT, RPL_PASS_END,
TIMER_RELEASE, SISTER_REPORT, ADMISSION_COMPLETE, CLUSTER_GATE, WAKE_COMPLETE and TG_WALK_RESUME. -/
def Obligations.TaskEvents : Prop :=
  ∀ (s : State),
    (∀ id : Nat,
      let k := s.task id
      (k.st ≠ .pending → k.st ≠ .deferred → exec (.taskReady id) s = .next s) ∧
      (k.st = .pending ∨ k.st = .deferred → (k.cls ≠ 1 ∨ s.levelOf k.die k.session < 2) → Does (.taskReady id) s fun t =>
        (t.task id).st = .ready ∧ (t.task id).level = s.levelOf k.die k.session ∧ (t.task id).eligTick = s.now ∧ t.mem = s.mem) ∧
      (k.st ≠ .placing → exec (.taskLaunch id) s = .next s) ∧
      (k.st = .placing → k.occ = true → Does (.taskLaunch id) s fun t =>
        (t.task id).run = .eligible ∧ (t.task id).cnt = 0 ∧ DueAt t (.contextEligible id) t.now) ∧
      (k.st = .placing → k.occ = false → s.headerAway k = true → Does (.taskLaunch id) s fun t =>
        (t.task id).hdrWait = true ∧ (t.task id).occ = false ∧ t.mem = s.mem) ∧
      (k.st = .placing → k.occ = false → s.headerAway k = false → k.cls < 2 → Does (.taskLaunch id) s fun t =>
        (t.task id).occ = true ∧ (t.task id).team = natAt k.var.hdr 3 1 ∧
        (t.task id).spadBase = (s.stream k.die k.stream).spadBase ∧ DueAt t (.taskLaunch id) (s.now + 101)) ∧
      (∀ x ok, k.st = .placing → k.occ = false → s.headerAt k = none → 2 ≤ k.cls → k.launch = none →
        let u := s.taskBoundary k.die
        u.readKernel (u.task id).die (u.task id).part (u.task id).var.kernel = some (x, ok) →
        (u.refusal (u.task id) x ok ≠ 0 → Does (.taskLaunch id) s fun t => (t.task id).st = .refused) ∧
        ((u.task id).launch = none → (u.task id).st = .placing → u.refusal (u.task id) x ok = 0 → Does (.taskLaunch id) s fun t =>
          (t.task id).occ = true ∧ (t.task id).team = natAt x.hdr 3 1 ∧ DueAt t (.taskLaunch id) (u.now + 101))) ∧
      (k.st = .committed ∨ k.st = .aborted ∨ k.st = .refused ∨ k.st = .deferred → exec (.deadlineAbort id) s = .next s) ∧
      (k.st = .pending ∨ k.st = .ready ∨ k.st = .placing ∨ k.st = .running ∨ k.st = .draining ∨ k.st = .parked →
        Does (.deadlineAbort id) s fun t => Aborted t id) ∧
      (k.run ≠ .ending → exec (.taskCommit id) s = .next s) ∧
      (k.run = .ending → s.rplMore id = true → Does (.taskCommit id) s fun t =>
        (t.task id).run = .off ∧ DueAt t (.rplPassEnd id) (s.now + 1)) ∧
      (k.run = .ending → s.rplMore id = false → s.chunkLong k = false → k.hdrNat 60 2 = 0 → k.preemptReq = false →
        Does (.taskCommit id) s fun t => (t.task id).st = .committed ∧ (t.task id).run = .off) ∧
      ((s.cluster (k.group / 8)).rpl.task ≠ some id → exec (.rplPassEnd id) s = .next s) ∧
      ((s.cluster (k.group / 8)).rpl.task = some id → Does (.rplPassEnd id) s fun t =>
        (t.task id).run = .eligible ∧ DueAt t (.contextEligible id) (t.now + 1))) ∧
    (∀ (d : Die) (n : Fin 1024),
      let st := s.stream d.val n.val
      let rel := st.phase + st.timerN * st.period
      let r0 := s.timeToTick rel true
      let r := match st.prevRel with | some p => max r0 (p + durTicks st.period) | none => r0
      let dab := s.timeToTick (rel + st.rdl) false
      (st.valid = false ∨ st.timer = false ∨ st.leaving = true → exec (.timerRelease d n) s = .next s) ∧
      (st.valid = true → st.timer = true → st.leaving = false → s.tick < s.timerTick st → Does (.timerRelease d n) s fun t =>
        DueAt t (.timerRelease d n) (max s.now (s.cycleOf (s.timerTick st))) ∧ t.tasks = s.tasks) ∧
      (st.valid = true → st.timer = true → st.leaving = false → st.cls = 0 → st.copy = false → st.shadow = false →
        s.tickBase ≠ none → (s.die d.val).stopped = false → s.getF PRT_STAT.RST st.part ≠ 1 →
        s.timerTick st ≤ s.tick → r < dab → s.tick < dab → Does (.timerRelease d n) s fun t =>
          (t.stream d.val n.val).timerN = st.timerN + 1 ∧ (t.task s.nextId).st = .pending ∧ (t.task s.nextId).r = r ∧
          (t.task s.nextId).dabort = dab ∧ (t.task s.nextId).period = st.nextPeriod % 2 ^ 64 ∧
          DueAt t (.taskReady s.nextId) (max s.now (s.cycleOf r)) ∧ DueAt t (.deadlineAbort s.nextId) (max s.now (s.cycleOf dab)))) ∧
    (∀ (l : Nat) (rank : Fin 4),
      let x := s.launches.look l
      (x.refused = true → exec (.sisterReport l rank true) s = .next s ∧ exec (.sisterReport l rank false) s = .next s) ∧
      (x.refused = false → x.reports + 1 < x.tasks.length → Does (.sisterReport l rank true) s fun t =>
        (t.launches.look l).reports = x.reports + 1 ∧ t.agenda = s.agenda) ∧
      (x.refused = false → x.tasks.length ≤ x.reports + 1 → Does (.sisterReport l rank true) s fun t =>
        (t.launches.look l).start = some (s.tick + 512) ∧ ∀ u ∈ x.tasks, DueAt t (.taskLaunch u) (s.now + 509))) ∧
    (∀ (d : Die),
      ((s.die d.val).regTest = none → exec (.admissionComplete d) s = .next s) ∧
      (∀ a, (s.die d.val).regTest = some a → a.code ≠ 0 → Does (.admissionComplete d) s fun t =>
        t.getF DLS_REG_CTL.STATE (16 * d.val + a.part) = 3 ∧
        t.getF DLS_REG_CTL.REASON (16 * d.val + a.part) = a.code % 65536 ∧ t.streams = s.streams) ∧
      (∀ a, (s.die d.val).regTest = some a → a.code = 0 → a.stream < 1024 → Does (.admissionComplete d) s fun t =>
        t.getF DLS_REG_CTL.STATE (16 * d.val + a.part) = 2 ∧ t.getF DLS_REG_CTL.REASON (16 * d.val + a.part) = 0 ∧
        t.getF DLS_REG_CTL.STREAM (16 * d.val + a.part) = a.stream)) ∧
    (∀ c : Cluster,
      let k := s.cluster c.val
      (k.gated = true ∨ s.clusterBusy c.val = true ∨ s.gateIdle (c.val / 12) = 0 → exec (.clusterGate c) s = .next s) ∧
      (k.gated = false → s.clusterBusy c.val = false → s.gateIdle (c.val / 12) ≠ 0 → k.idleSince + s.gateIdle (c.val / 12) ≤ s.now →
        Does (.clusterGate c) s fun t => (t.cluster c.val).gated = true ∧ (t.cluster c.val).icache = [] ∧
          ∀ i < 8, (t.core (8 * c.val + i)).spad = [] ∧ (t.core (8 * c.val + i)).tiles = []) ∧
      (Does (.wakeComplete c) s fun t => (t.cluster c.val).gated = false ∧ (t.cluster c.val).wakingTo = none ∧
        (t.cluster c.val).idleSince = s.now ∧ t.cores = s.cores ∧ t.mem = s.mem)) ∧
    ∀ (c : Cluster) (walk : Nat),
      ((s.cluster c.val).walks.find? (·.id = walk) = none → exec (.tgWalkResume c walk) s = .next s) ∧
      (∀ w u, (s.cluster c.val).walks.find? (·.id = walk) = some w → w.waitFor = some u → (s.task u).ended = false →
        exec (.tgWalkResume c walk) s = .next s) ∧
      (∀ w u, (s.cluster c.val).walks.find? (·.id = walk) = some w → w.waitFor = some u →
        (s.task u).st = .aborted ∨ (s.task u).st = .refused → Does (.tgWalkResume c walk) s fun t =>
          t.getF CCC_TG_STAT.ERR c.val = 2 ∧ ∀ x ∈ (t.cluster c.val).walks, x.id ≠ walk) ∧
      (∀ w b, (s.cluster c.val).walks.find? (·.id = walk) = some w → w.waitFor = none → w.id = walk → w.steps < 256 → w.node < w.tgn →
        s.vread w.die w.part (w.graph + 32 * w.node) 32 0 = some b → nodeBad b = false → natAt b 0 1 = 0 →
        Does (.tgWalkResume c walk) s fun t => t.getF CCC_TG_STAT.ERR c.val = s.getF CCC_TG_STAT.ERR c.val ∧
          ∀ x ∈ (t.cluster c.val).walks, x.id ≠ walk)

/-- R123, R167, R172 to R178, R202 to R208, R244, R287: what the control core sends. A bundle goes down the distribution tree,
each core one or two ticks after core 0, and the next bundle or its first empty bundle is a tick later; an empty bundle is a
cycle of nothing; a fixed task that must hold uses its budget; a held or waiting bundle is looked at again. An eligible
context that is chosen runs. A drain ends parked, or evicted with the save area written; a restore goes on at the re-entry,
or where it was stopped. A bound or a budget that is exhausted ends the task. A line fetched is in the instruction cache.
With their effect complete: BUNDLE_SEND, EMPTY_BUNDLE, HOLD_END, TWAIT_TICK_REACHED, CONTEXT_ELIGIBLE, DRAIN_END, RESTORE,
DRAIN_BOUND_EXCEEDED, HOLD_BUDGET_EXHAUSTED and ICACHE_FILL. -/
def Obligations.SendEvents : Prop :=
  ∀ (s : State),
    (∀ id : Nat,
      let k := s.task id
      let c := s.ahead id
      (∀ e ∈ [Instr.bundleSend id, .emptyBundle id, .holdEnd id, .twaitTickReached id], k.sends = false → exec e s = .next s) ∧
      (∀ e ∈ [Instr.emptyBundle id, .holdEnd id, .twaitTickReached id], k.empties = 0 → exec e s = exec (.bundleSend id) s) ∧
      (k.sends = true → k.run = .sending ∨ k.run = .holding → k.started = true → k.rblock = none → k.preemptReq = false →
        let j := s.judge id
        let kj := j.s.task id
        j.fill = false → j.hold = false → j.fault = none → Does (.bundleSend id) s fun t =>
          (t.task id).pc = j.bundle.next ∧ (t.task id).empties = j.bundle.empty ∧ (t.task id).yieldAfter = j.bundle.yields ∧
          (∀ i ∈ kj.idxs, ∃ x ∈ t.agenda, x.ops = j.ops ∧ x.time = j.s.now + skew i ∧
            x.ev = .writeLanding (Fin.ofNat 384 (kj.coreAt i)) (Fin.ofNat 8 kj.ctx) kj.cyc .registers) ∧
          DueAt t (if j.bundle.empty = 0 then .bundleSend id else .emptyBundle id) (j.s.now + 1)) ∧
      (∀ e ∈ [Instr.emptyBundle id, .holdEnd id, .twaitTickReached id], k.sends = true → k.empties ≠ 0 → k.run ≠ .blocked →
        (s.cycleHolds id c = false → c.fullQueues k = [] → (s.acceptDue id).2 = true → Does e s fun t =>
          (t.task id).empties = ((s.acceptDue id).1.task id).empties - 1) ∧
        (s.cycleHolds id c = true → k.dynamic = false → k.inSeq = false → k.holdUsed < k.budget → Does e s fun t =>
          (t.task id).holdUsed = k.holdUsed + 1 ∧ (t.task id).run = .holding ∧ DueAt t (.holdEnd id) (s.now + 1)) ∧
        (s.cycleHolds id c = true → k.dynamic = false → k.inSeq = false → k.budget ≤ k.holdUsed → Does e s fun t =>
          DueAt t (.holdBudgetExhausted id) s.now)) ∧
      (k.run = .blocked ∨ (k.run = .yielded ∧ k.preemptReq = false) → (s.group k.group).running ≠ none →
        Does (.contextEligible id) s fun t => (t.task id).run = .eligible ∧ (t.task id).eligTick = s.now ∧ (t.task id).cnt = 0) ∧
      (k.run = .eligible → (s.tasks.filter fun e => e.2.group = k.group && e.2.resident) = [(id, k)] →
        (s.group k.group).running = none → (s.die (k.group / 96)).frozen = none → s.smpOther k = false →
        Does (.contextEligible id) s fun t => (t.group k.group).running = some id ∧ (t.task id).run = .sending ∧
          DueAt t (if k.resume then .restore id else if k.empties = 0 then .bundleSend id else .emptyBundle id)
            (max (s.now + 3) (s.group k.group).freeAt)) ∧
      (k.run ≠ .draining → exec (.drainEnd id) s = .next s) ∧
      (k.run = .draining → k.saving = false → s.cycleHolds id c = false → c.fullQueues k = [] →
        ((c.aheadCycle id k.cyc).aheadStore id k.cyc).quiet id = true → k.lateFault = none → k.evicting = false →
        Does (.drainEnd id) s fun t => (t.task id).st = .parked ∧ (t.task id).run = .off) ∧
      (k.run = .draining → k.saving = true → k.left ≠ 0 → s.iced k = false → k.seqCycles < k.seqBound → Does (.drainEnd id) s fun t =>
        (t.task id).left = k.left - 1 ∧ (t.task id).drainHold = k.drainHold + 1 ∧ DueAt t (.drainEnd id) (s.now + 1)) ∧
      (k.run = .draining → k.saving = true → k.left = 0 → s.copiesTo id 2 = false → Does (.drainEnd id) s fun t =>
        (t.task id).st = .evicted ∧ (t.task id).run = .off ∧ (t.task id).saving = false ∧ t.mem = (s.saveRecords id).mem) ∧
      (k.resume = false → exec (.restore id) s = .next s) ∧
      (k.resume = true → k.st = .placing → Does (.restore id) s fun t => (t.task id).st = .running ∧ (t.task id).saving = true ∧
        (t.task id).left = 68 ∧ DueAt t (.restore id) s.now) ∧
      (k.resume = true → k.st ≠ .placing → k.saving = true → k.left ≠ 0 → s.iced k = false → k.seqCycles < k.seqBound →
        Does (.restore id) s fun t => (t.task id).left = k.left - 1 ∧ DueAt t (.restore id) (s.now + 1)) ∧
      (k.resume = true → k.st ≠ .placing → k.saving = false ∨ k.left = 0 → Does (.restore id) s fun t =>
        (t.task id).st = .running ∧ (t.task id).resume = false ∧ (t.task id).run = (if k.rlen = 0 then .sending else .restoring) ∧
        (t.task id).pc = (if k.rlen = 0 then k.resumePc else k.entryPc) ∧ DueAt t (.bundleSend id) s.now ∧
        ∀ b, t.bank b = (if k.saving then s.loadRecords id else s).bank b) ∧
      (Raisable s id → Does (.drainBoundExceeded id) s fun t => Aborted t id) ∧
      (Raisable s id → Does (.holdBudgetExhausted id) s fun t => Aborted t id)) ∧
    ∀ (c : Cluster) (part : Part) (line : Nat),
      let die := c.val / 12
      let tasks := s.lineTasks c.val part.val (line / 512)
      let w : Asker := { task := tasks.headD 0, tr := 4000, kind := 3, va := 128 * line, wake := some (.icacheFill c part line), ph := phMem }
      let f := (s.findXlate die part.val (s.die die).walkTlb (tasks.foldl (fun d id => min d (s.task id).dord) (2 ^ 64 - 1)) w).1
      (f = .wait → Does (.icacheFill c part line) s fun t => t.clusters = s.clusters ∧ t.mem = s.mem) ∧
      (∀ k, f = .fault k → Does (.icacheFill c part line) s fun t => t.clusters = s.clusters ∧ t.mem = s.mem ∧
        ∀ id ∈ tasks, { core := 400, page := line / 512, kind := 3, cause := k } ∈ (t.task id).walkRes) ∧
      ∀ x, f = .hit x → paD (x.pa (128 * line)) = false →
        let here := isHost (x.pa (128 * line)) || s.llcHas die part.val (x.pa (128 * line)) 128 || (s.cluster c.val).icWait.contains (part.val, line)
        (here = true → (s.cluster c.val).icache.length < 2048 → Does (.icacheFill c part line) s fun t =>
          t.lineData c.val part.val line ≠ none ∧ (part.val, line) ∉ (t.cluster c.val).icWait ∧
          (isHost (x.pa (128 * line)) = true → t.lineData c.val part.val line = some (s.sideBytes part.val (x.pa (128 * line)) 128))) ∧
        (here = false → Does (.icacheFill c part line) s fun t =>
          (part.val, line) ∈ (t.cluster c.val).icWait ∧ (t.cluster c.val).icache = (s.cluster c.val).icache ∧ t.mem = s.mem)
/-- R33 to R36, R42, R46 to R48, R50, R52, R53: the Wovor link. At a frame boundary the ports that are up join the masks. A slot
sends what waits; a flit that fails its CRC is asked for again, and the sender resends it and all after it, up to sixteen
times a frame. A port that loses its lanes or replays too often trains and comes back, with its partner's map or not at all.
An access passes the window check and is performed and answered, or is refused; an answer lands, and an access that is lost
or late faults. Barriers and all-reduce across modules gather arrivals and release. With their effect complete:
FAB_FRAME_BOUNDARY, FAB_SLOT, FLIT_RECEIVE, REPLAY_REQUEST, LANE_LOCK_LOSS, RETRAIN_COMPLETE, LINK_TRAINING_DONE,
FAB_ACCESS_ARRIVE, FAB_RESPONSE, FAB_TIMEOUT, FAB_BARRIER_ARRIVAL, FAB_BARRIER_RELEASE, ALLREDUCE_CONTRIBUTION and
ALLREDUCE_RESULT. -/
def Obligations.FabricEvents : Prop :=
  ∀ (s : State),
    (Does .fabFrameBoundary s fun t => t.mem = s.mem ∧ ∀ p < 36, (t.ports.look p).replays = 0 ∧
      (s.getF FAB_PORT_STAT.STATE p ≠ 2 → (s.ports.look p).fell = true → ∀ m < 64,
        bit (t.routeMask m) p = false ∧ (bit (s.routeMask m) p = true → m ∈ (t.ports.look p).routes)) ∧
      (s.getF FAB_PORT_STAT.STATE p = 2 → (s.ports.look p).rejoin = true → ∀ m < 64,
        bit (t.routeMask m) p = (bit (s.routeMask m) p || (s.ports.look p).routes.contains m))) ∧
    (∀ p : Port,
      let o := s.ports.look p.val
      let seqOf (f : OutFlit) : Nat := if f.fl.seq = 0 then o.seqTx + 1 else f.fl.seq
      let up := s.getF FAB_PORT_STAT.STATE p.val
      (s.tickBase = none → exec (.fabSlot p) s = .next s) ∧
      (up ≠ 2 → exec (.fabSlot p) s = .next s ∧ exec (.laneLockLoss p) s = .next s ∧
        (∀ n, exec (.replayRequest p n) s = .next s) ∧ ∀ ok fl, exec (.flitReceive p ok fl) s = .next s) ∧
      (∀ f, up = 2 → s.tickBase ≠ none → (s.die (p.val / 9)).stopped = false → o.q = [] → o.control = [f] → Does (.fabSlot p) s fun t =>
        t.out = s.out ++ [.flit p.val { f.fl with seq := seqOf f }] ∧ (t.ports.look p.val).control = [] ∧ (t.ports.look p.val).q = []) ∧
      (∀ f, up = 2 → s.tickBase ≠ none → (s.die (p.val / 9)).stopped = false → o.q = [f] → f.cls = 3 → o.control = [] → Does (.fabSlot p) s fun t =>
        t.out = s.out ++ [.flit p.val { f.fl with seq := seqOf f }] ∧ (t.ports.look p.val).q = []) ∧
      (∀ fl, up = 2 → Does (.flitReceive p false fl) s fun t => (t.ports.look p.val).want = some (o.want.getD fl.seq) ∧
        ∃ g, (t.ports.look p.val).control.head? = some g ∧ g.fl.msg = .replay (o.want.getD fl.seq)) ∧
      (∀ fl l, up = 2 → o.takes fl = true → fl.msg = .data l → Does (.flitReceive p true fl) s fun t =>
        ∀ a, .access a ∈ l → DueAt t (.fabAccessArrive a) s.now) ∧
      (∀ fl n, up = 2 → o.want = some n → fl.seq ≠ n → fl.again = false → exec (.flitReceive p true fl) s = .next s) ∧
      (∀ fl, up = 2 → fl.seq ∈ o.got → exec (.flitReceive p true fl) s = .next s) ∧
      (∀ n g, up = 2 → g ∈ o.sent → g.fl.seq = n → o.replays < 16 → Does (.replayRequest p n) s fun t =>
        (t.ports.look p.val).replays = o.replays + 1 ∧ (∀ h ∈ o.sent, n ≤ h.fl.seq →
          let h' : OutFlit := { h with fl := { h.fl with again := true } }
          h' ∈ (t.ports.look p.val).q ∨ h' ∈ (t.ports.look p.val).control)) ∧
      (∀ n g, up = 2 → g ∈ o.sent → g.fl.seq = n → 16 ≤ o.replays → Does (.replayRequest p n) s fun t =>
        t.getF FAB_PORT_STAT.STATE p.val = 1 ∧ t.getF FAB_PORT_STAT.REASON p.val = 2) ∧
      (up = 2 → Does (.laneLockLoss p) s fun t =>
        t.getF FAB_PORT_STAT.STATE p.val = 1 ∧ t.getF FAB_PORT_STAT.REASON p.val = 1 ∧
        (t.ports.look p.val).fell = true ∧
        (s.due (.retrainComplete p none) = false → DueAt t (.retrainComplete p none) (s.now + 200000))) ∧
      (up ≠ 1 → ∀ m, exec (.retrainComplete p m) s = .next s) ∧
      (up = 1 → Does (.retrainComplete p none) s fun t => t.getF FAB_PORT_STAT.STATE p.val = 0 ∧
        t.getF FAB_PORT_STAT.REASON p.val ≠ 0) ∧
      (∀ m, up = 2 ∨ (up = 0 ∧ s.getF FAB_PORT_STAT.REASON p.val ≠ 0) → ∀ b, exec (.linkTrainingDone p b m) s = .next s) ∧
      (∀ m, up = 1 ∨ (up = 0 ∧ s.getF FAB_PORT_STAT.REASON p.val = 0) →
        (s.getF FAB_PORT_STAT.REASON p.val = 0 → Does (.linkTrainingDone p false m) s fun t =>
          t.getF FAB_PORT_STAT.STATE p.val = 0 ∧ t.getF FAB_PORT_STAT.REASON p.val = 4) ∧
        (∀ i : Instr, i = .linkTrainingDone p true m ∨ (up = 1 ∧ i = .retrainComplete p (some m)) →
          (sameMap m (s.localMap p.val) = false → Does i s fun t =>
            t.getF FAB_PORT_STAT.STATE p.val = 0 ∧ t.getF FAB_PORT_STAT.REASON p.val = 3) ∧
          (sameMap m (s.localMap p.val) = true → s.ingressOk p.val m = true → Does i s fun t =>
            t.getF FAB_PORT_STAT.STATE p.val = 2 ∧ t.getF FAB_PORT_STAT.REASON p.val = 0 ∧
            (t.ports.look p.val).slotMap = m ∧ (t.ports.look p.val).rejoin = true)))) ∧
    (∀ a : RemoteAccess, a.module = s.getF FAB_DOM_CFG.MODID 0 →
      (s.window a.offset a.len = none → Does (.fabAccessArrive a) s fun t =>
        (∃ x ∈ t.agenda, x.ev = .fabResponse a.id .windowRefused [] ∧ s.now < x.time) ∧ t.mem = s.mem) ∧
      (∀ w, s.window a.offset a.len = some w → s.getF FAB_WIN.TAG w ≠ a.tag.toNat → Does (.fabAccessArrive a) s fun t =>
        (∃ x ∈ t.agenda, x.ev = .fabResponse a.id .windowRefused [] ∧ s.now < x.time) ∧ t.mem = s.mem) ∧
      (∀ w, s.window a.offset a.len = some w → s.getF FAB_WIN.TAG w = a.tag.toNat → backed a.offset = true → (∀ e ∈ s.fabIn, e.1 ≠ a) →
        let part := s.getF FAB_WIN.PRT w
        (a.kind = .read → Does (.fabAccessArrive a) s fun t => t.mem = s.mem ∧
          ∃ x ∈ t.agenda, x.ev = .fabResponse a.id .done (s.sideBytes part a.offset a.len) ∧ s.now < x.time) ∧
        (a.kind = .write → a.offset < 2 ^ 39 → Does (.fabAccessArrive a) s fun t =>
          (a, []) ∈ t.fabIn ∧ t.mem = (s.remoteStore a part a.bytes a.mask).mem) ∧
        (∀ op wide v, a.kind = .atomic op wide v → 2 ^ 39 ≤ a.offset → Does (.fabAccessArrive a) s fun t =>
          ∃ x ∈ t.agenda, s.now < x.time ∧ x.ev = .fabResponse a.id .done
            (natLe (if wide then 8 else 4) (leNat (s.sideBytes part a.offset (if wide then 8 else 4))))) ∧
        (∀ op wide v, a.kind = .atomic op wide v → a.offset < 2 ^ 39 → Does (.fabAccessArrive a) s fun t => t.mem = s.mem ∧
          (∃ x ∈ t.atoms, x.arrived = some a ∧ x.pa = a.offset ∧ x.interval = a.tick / 256 ∧ x.key = a.key) ∧
          ∃ x ∈ t.agenda, x.ev = .atomicGroup a.offset (a.tick / 256))) ∧
      (∀ w b, s.window a.offset a.len = some w → s.getF FAB_WIN.TAG w = a.tag.toNat → backed a.offset = true → s.fabIn = [(a, b)] →
        Does (.fabAccessArrive a) s fun t => t.fabIn = [] ∧ t.mem = s.mem ∧
          ∃ x ∈ t.agenda, x.ev = .fabResponse a.id .done b ∧ s.now < x.time)) ∧
    (∀ id : Nat,
      let f := s.fabric.look id
      (f.id ≠ id → exec (.fabTimeout id) s = .next s ∧ ∀ st b, exec (.fabResponse id st b) s = .next s) ∧
      (∀ l b, f.id = id → f.walk = none → f.line = none → f.poll = none → f.cmd = none → f.load = some l → id < s.nextId →
        s.barriers = [] → (s.loads.look l).id = l → 1 < (s.loads.look l).need → (s.loads.look l).late = false → (∀ k, (s.bank k).heldStores = []) →
        Does (.fabResponse id .done b) s fun t => t.fabric.look id = {} ∧ (t.loads.look l).need = (s.loads.look l).need - 1 ∧
          ((s.loads.look l).atomic = false → (t.loads.look l).data = ((s.loads.look l).take f.pa b).data)) ∧
      (∀ l b, f.id = id → f.walk = none → f.line = none → f.poll = none → f.cmd = none → f.load = some l → Raisable s (s.loads.look l).task →
        (Does (.fabResponse id .windowRefused b) s fun t => Aborted t (s.loads.look l).task) ∧
        (Does (.fabResponse id .unreachable b) s fun t => Aborted t (s.loads.look l).task) ∧
        (Does (.fabTimeout id) s fun t => Aborted t (s.loads.look l).task))) ∧
    ∀ bar : Fin 256,
      let b := s.barriers.look (domKey bar.val)
      let a := s.allred.look bar.val
      (∀ c, Does (.fabBarrierArrival bar c) s fun t => c.val ∈ (t.barriers.look (domKey bar.val)).children ∧
        (∀ x ∈ b.children, x ∈ (t.barriers.look (domKey bar.val)).children) ∧ t.banks = s.banks) ∧
      (∀ d < 4, b.children = [64 + d] →
        let x := s.barriers.look (dieKey bar.val d)
        let n := barCount x.level x.bar
        (x.arrived.map fun p => ctxOf p.1 p.2).Nodup → x.pending = 0 →
        (Does (.fabBarrierRelease bar) s fun t => t.barriers.look (domKey bar.val) = {} ∧ t.barriers.look (dieKey bar.val d) = {} ∧
          ∀ p ∈ x.arrived, (t.bank (ctxOf p.1 p.2)).barR.look n = (s.bank (ctxOf p.1 p.2)).barR.look n + 1) ∧
        ∀ data, a.dsts = [] → Does (.allreduceResult bar data) s fun t => t.barriers.look (domKey bar.val) = {} ∧
          t.allred.look bar.val = {} ∧ (∀ e ∈ t.cmds, e.2.kind = .fred → e.2.ring ≠ bar.val) ∧
          ∀ p ∈ x.arrived, (t.bank (ctxOf p.1 p.2)).barR.look n = (s.bank (ctxOf p.1 p.2)).barR.look n + 1) ∧
      (∀ data core ctx off, a.dsts = [(core, ctx, off)] → s.capturing ((s.holder core ctx).getD 0) = false →
        off + data.length ≤ (s.bank (ctxOf core ctx)).spadSize →
        Does (.allreduceResult bar data) s fun t => t.spadBytes core ctx off data.length = data) ∧
      ∀ die src data,
        (Does (.allreduceContribution bar 0 die src data) s fun t => (t.allred.look bar.val).own = a.own ++ [(src, data)]) ∧
        (Does (.allreduceContribution bar 1 die src data) s fun t => (t.allred.look bar.val).dies = a.dies ++ [(die.val, data)]) ∧
        (Does (.allreduceContribution bar 2 die src data) s fun t => (t.allred.look bar.val).mods = a.mods ++ [(src, data)] ∧
          src ∈ (t.barriers.look (domKey bar.val)).children)
/-- R56 to R74: the Ultra Ethernet endpoint and the clock. A message without a ring, or one that its ring refuses, is counted;
one accepted takes the ring's next slot, and is published when every write of it is done. A chunk that no other of its
stream precedes leaves as one send. The checkpoint engine ends, or stops at a sector. An announcement on the timing port
selects the best master, and a timing message of that master gives the offset; a second boundary latches S and T, takes a
pending step or refuses it, sets INCR and may start the tick; the states follow R71; a read of the time latches it with the
tick. (That MASTER_LOST forgets the masters, and that a step waits while the clock moves, are the model's choices,
notes/assumptions/84.md and 85.md.) With their effect complete: SENSOR_TOKEN, UNSUPPORTED_REQUEST, UUD_TIMEOUT,
RING_PUBLISH, ACTION_CHUNK, CKPT_DONE, CKPT_FAULT, PTP_MESSAGE, PTP_SECOND_BOUNDARY, LOCKWAIT_EXPIRE, MASTER_LOST,
HOLDMAX_EXPIRE, ETH_LINK_DOWN, ETH_LINK_UP and PTC_TIME_LO_READ. -/
def Obligations.EndpointEvents : Prop :=
  ∀ (s : State),
    (∀ (d : Die) (m : SensorMsg),
      let ring := (s.rxMatch d.val m).filter fun r => s.rxEnabled (512 * d.val + r)
      ((s.die d.val).stopped = true → exec (.sensorToken d m) s = .next s) ∧
      ((s.die d.val).stopped = false → ring = none → Does (.sensorToken d m) s fun t =>
        t.getF UEE_DROP_NOMATCH.COUNT d.val = min (s.getF UEE_DROP_NOMATCH.COUNT d.val + 1) UEE_DROP_NOMATCH.COUNT.top ∧
        t.out = s.out ++ [.ethError d.val m.source true] ∧ t.rx = s.rx) ∧
      (∀ r, (s.die d.val).stopped = false → ring = some r →
        (∀ f, s.rxRefuse (512 * d.val + r) m = some f → Does (.sensorToken d m) s fun t =>
          t.getF f (512 * d.val + r) = min (s.getF f (512 * d.val + r) + 1) f.top ∧ t.rx = s.rx ∧ t.mem = s.mem) ∧
        (s.rxRefuse (512 * d.val + r) m = none → Does (.sensorToken d m) s fun t =>
          let o := s.rx.look (512 * d.val + r)
          let slot := (o.tail + o.pubQ.length) % s.rxSlots (512 * d.val + r)
          (t.rx.look (512 * d.val + r)).occ = o.occ ++ [slot] ∧ (t.rx.look (512 * d.val + r)).tail = o.tail ∧
          (t.rx.look (512 * d.val + r)).pubQ.length = o.pubQ.length + 1 ∧ t.mem = s.mem ∧
          ∃ x ∈ (t.rx.look (512 * d.val + r)).pubQ, x.slot = slot ∧ x.source = m.source ∧
            x.b = m.bytes.take 24 ++ natLe 8 s.deviceTime ++ m.bytes.drop 32))) ∧
    (∀ (d : Die) (src : Nat), (s.die d.val).stopped = false → Does (.unsupportedRequest d src) s fun t =>
      t.out = s.out ++ [.ethError d.val src false] ∧ t.csr = s.csr) ∧
    (∀ (d : Die) (ring : Fin 512),
      let k := 512 * d.val + ring.val
      let o := s.rx.look k
      (s.rxEnabled k = true → s.getF UEE_RXQ_CFG.MODE k = 2 → Does (.uudTimeout d ring) s fun t =>
        t.getF UEE_RXQ_STAT.BADHDR k = min (s.getF UEE_RXQ_STAT.BADHDR k + 1) UEE_RXQ_STAT.BADHDR.top) ∧
      (s.getF UEE_RXQ_CFG.MODE k ≠ 2 → exec (.uudTimeout d ring) s = .next s) ∧
      ((s.die d.val).stopped = true → ∀ msg put, exec (.ringPublish d ⟨ring, msg, put⟩) s = .next s) ∧
      ∀ (x : PubMsg) (put : Fin 8), (s.die d.val).stopped = false → o.pubQ = [x] → put.val ∉ x.look →
        (x.wait = [put.val] → Does (.ringPublish d ⟨ring, x.id, put⟩) s fun t =>
          (t.rx.look k).pubQ = [] ∧ (t.rx.look k).tail = (o.tail + 1) % 2 ^ 32 ∧ (t.rx.look k).lastSrc = x.source) ∧
        (∀ q, x.wait = [put.val, q] → q ≠ put.val → q / 2 = d.val → Does (.ringPublish d ⟨ring, x.id, put⟩) s fun t =>
          (t.rx.look k).pubQ = [{ x with wait := [q] }] ∧ (t.rx.look k).tail = o.tail)) ∧
    (∀ (d : Die) (id : Nat),
      let k := s.task id
      (k.txSlot = none ∨ (s.die d.val).stopped = true → exec (.actionChunk d id) s = .next s) ∧
      (∀ r slot, k.txSlot = some (r, slot) → (s.die d.val).stopped = false → k.chunkLook = false →
        (s.tasks.filter fun e => e.2.die = d.val && e.2.stream = k.stream && e.2.txSlot.isSome && decide (e.2.chunkNo ≠ 0)) = [(id, k)] →
        Does (.actionChunk d id) s fun t => (t.task id).txSlot = none ∧
          ∃ b, t.out = s.out ++ [.ethSend d.val k.cls (s.getF UEE_TXQ_CFG.MODE (512 * d.val + r))
            (s.rx.look (512 * d.val + s.getF UEE_TXQ_CFG.RXQ (512 * d.val + r))).lastSrc (s.getF UEE_TXQ_CFG.RIDX (512 * d.val + r)) b])) ∧
    (∀ d : Die,
      (s.getF UEE_CKPT_CTL.STATE d.val ≠ 1 → exec (.ckptDone d) s = .next s ∧ ∀ n, exec (.ckptFault d n) s = .next s) ∧
      (64 * (s.die d.val).ckptPos < ckLen (s.die d.val).ckptDesc → exec (.ckptDone d) s = .next s) ∧
      (∀ u, s.getF UEE_CKPT_CTL.STATE d.val = 1 → ckLen (s.die d.val).ckptDesc ≤ 64 * (s.die d.val).ckptPos →
        s.vwrite d.val (ckPart d.val) 0 3 (ckDone (s.die d.val).ckptDesc) (((s.die d.val).ckptDesc.drop 40).take 8) = some u →
        Does (.ckptDone d) s fun t => t.getF UEE_CKPT_CTL.STATE d.val = 0 ∧ t.mem = u.mem) ∧
      (∀ n, s.getF UEE_CKPT_CTL.STATE d.val = 1 → Does (.ckptFault d n) s fun t =>
        t.getF UEE_CKPT_CTL.STATE d.val = 2 ∧ (t.die d.val).ckptPos = n)) ∧
    (∀ m : PtpMsg,
      (s.takesPtp m = false → exec (.ptpMessage m) s = .next s) ∧
      (s.takesPtp m = true → m.offset = none → Does (.ptpMessage m) s fun t =>
        let l := (s.ptp.masters.filter fun x => x.getLast? ≠ m.master.getLast?) ++ [m.master]
        let best := leastBy (fun a b => lexLt a b) l
        t.ptp.masters = l ∧ t.ptp.master = best ∧ t.getF PTC_STAT.STATE 0 =
          (if best.bind (·.getLast?) = s.ptp.master.bind (·.getLast?) then s.getF PTC_STAT.STATE 0 else 1)) ∧
      (∀ o, s.takesPtp m = true → m.offset = some o →
        (s.ptp.master = none ∨ s.ptp.master.bind (·.getLast?) ≠ m.master.getLast? → exec (.ptpMessage m) s = .next s) ∧
        (s.ptp.master ≠ none → s.ptp.master.bind (·.getLast?) = m.master.getLast? → Does (.ptpMessage m) s fun t =>
          t.ptp.offset = o ∧ t.getF PTC_OFFSET.OFS 0 = (o % (2 ^ 64 : Int)).toNat ∧
          t.getF PTC_STAT.STATE 0 = s.getF PTC_STAT.STATE 0))) ∧
    (let sec := (s.deviceTime + 500000000) / 1000000000 * 1000000000
     let die := if (s.die 0).stopped || (s.die 0).heldInReset then 2 else 0
     let moves : Bool := decide (die ≠ s.getF PTC_STAT.PRIMARY 0)
     let st := s.getF PTC_STAT.STATE 0
     let starts := s.ptp.reached || (decide (st = 0) && s.ptp.waited)
     Does .ptpSecondBoundary s fun t => t.ptp.t = s.now ∧ t.getF PTC_STAT.PRIMARY 0 = die ∧
      t.ptp.s = (if s.ptp.stepPending && !moves && !s.anyAdmitted then ((sec : Int) - s.ptp.offset).toNat else sec) ∧
      t.ptp.stepPending = (s.ptp.stepPending && moves && !s.anyAdmitted) ∧
      (s.ptp.stepPending = true → s.anyAdmitted = true → t.getF PTC_STAT.STEPREF 0 = 1) ∧
      (moves = true ∨ st = 3 → t.incr = s.incr) ∧ (moves = false → st = 0 → t.incr = 2 ^ 46) ∧
      (moves = false → st = 1 ∨ st = 2 → incrMin ≤ t.incr ∧ t.incr ≤ incrMax) ∧
      (s.tickBase = none → starts = true → t.tickBase = some s.now ∧ t.getF PTC_STAT.TICKRUN 0 = 1) ∧
      (s.tickBase ≠ none ∨ starts = false → t.tickBase = s.tickBase) ∧
      ∃ x ∈ t.agenda, x.ev = .ptpSecondBoundary ∧ s.now < x.time) ∧
    (let st := s.getF PTC_STAT.STATE 0
     let due := s.ptp.from_ + seconds (max 1 (s.getF PTC_CFG.LOCKWAIT 0))
     (st ≠ 0 → exec .lockwaitExpire s = .next s) ∧
     (st = 0 → s.now < due → Does .lockwaitExpire s fun t => DueAt t .lockwaitExpire due ∧ t.ptp = s.ptp) ∧
     (st = 0 → due ≤ s.now → Does .lockwaitExpire s fun t => t.ptp.waited = true) ∧
     (st ≠ 1 → st ≠ 2 → exec .masterLost s = .next s) ∧
     (st = 1 ∨ st = 2 → Does .masterLost s fun t => t.getF PTC_STAT.STATE 0 = 3 ∧
       DueAt t .holdmaxExpire (s.now + seconds (s.getF PTC_CFG.HOLDMAX 0)) ∧ t.incr = s.incr ∧ t.ptp.master = none) ∧
     (st = 3 → Does .holdmaxExpire s fun t => t.getF PTC_STAT.ALARM 0 = 1 ∧ t.incr = s.incr) ∧
     (st ≠ 3 → exec .holdmaxExpire s = .next s)) ∧
    (∀ p : EthPort,
      (Does (.ethLinkDown p) s fun t => t.ethUp.getLsbD p.val = false ∧ (∀ q, q ≠ p.val → t.ethUp.getLsbD q = s.ethUp.getLsbD q)) ∧
      (Does (.ethLinkUp p) s fun t => t.ethUp.getLsbD p.val = true ∧ (∀ q, q ≠ p.val → t.ethUp.getLsbD q = s.ethUp.getLsbD q))) ∧
    ∀ f : Fn, Does (.ptcTimeLoRead f) s fun t => t.latch.look f.val = (s.deviceTime, s.tick) ∧ t.csr = s.csr ∧ t.mem = s.mem
/-- R22, R23, R26 to R28, R66, R128 to R130, R212, R213: the dies of a pair, heat and machine checks. A heartbeat is kept and
acknowledged; without one at the check tick the partner becomes home of the stream. Lane groups and links that are lost show
in PLDEG, PLLOSS and a machine check. A sample sets the temperature and the thermal state; a freeze of 400 µs trips the die,
and the lowest die left reports it. A machine check zeroes the word it hit. With their effect complete: COMMIT_HEARTBEAT,
HEARTBEAT_ACK, HEARTBEAT_RELAY, LEVEL_CHANGE_MESSAGE, CHECK_TICK, LANE_GROUP_LOSS, PAIR_LINK_LOSS, PAIR_LINK_RETURN,
CROSS_LINK_LOSS, THERMAL_SAMPLE, FREEZE_TIMEOUT, DIE_STOP_DETECT, CORRECTED_ERROR and MACHINE_CHECK. -/
def Obligations.DieEvents : Prop :=
  ∀ (s : State),
    (∀ (d : Die) (h : Heartbeat),
      ((s.die d.val).stopped = true → exec (.commitHeartbeat d h) s = .next s) ∧
      ((s.die d.val).stopped = false → Does (.commitHeartbeat d h) s fun t => h ∈ (t.die d.val).hbs ∧ t.mem = s.mem ∧
        (s.pairLive (d.val / 2) = true → Pending s t (pairEvent (partnerOf d.val) (.ack h.stream h.period)) 480))) ∧
    (∀ (d : Die) (st p : Nat), Does (.heartbeatAck d st p) s fun t =>
      (∀ h ∈ (t.die d.val).unacked, ¬(h.stream = st ∧ h.period = p)) ∧ ∀ h ∈ (s.die d.val).unacked,
        ¬(h.stream = st ∧ h.period = p) → h ∈ (t.die d.val).unacked) ∧
    (∀ (via dst : Die) (m : PairMsg),
      ((s.die via.val).stopped = true ∨ s.crossDown.look (linkKey via.val dst.val) = true →
        exec (.heartbeatRelay via dst m) s = .next s) ∧
      ((s.die via.val).stopped = false → s.crossDown.look (linkKey via.val dst.val) = false →
        Does (.heartbeatRelay via dst m) s fun t => Pending s t (pairEvent dst.val m) 960)) ∧
    (∀ (d : Die) (se : Fin 256) (lv : Fin 4) (tk : Nat),
      let k := 256 * d.val + se.val
      (s.tick < tk + 8000 → Does (.levelChangeMessage d se lv tk) s fun t =>
        DueAt t (.levelChangeMessage d se lv tk) (max s.now (s.cycleOf (tk + 8000))) ∧ t.csr = s.csr) ∧
      (tk + 8000 ≤ s.tick → s.getF DLS_SES.VALID k = 0 → exec (.levelChangeMessage d se lv tk) s = .next s) ∧
      (tk + 8000 ≤ s.tick → s.getF DLS_SES.VALID k = 1 → Does (.levelChangeMessage d se lv tk) s fun t =>
        t.getF DLS_SES.LEVEL k = lv.val)) ∧
    (∀ (d : Die) (st : Fin 1024) (p : Nat),
      (s.copyOf d.val st.val p = none ∨ (s.die d.val).stopped = true → exec (.checkTick d st p) s = .next s) ∧
      (∀ id h, s.copyOf d.val st.val p = some id → (s.die d.val).stopped = false → s.pairLive (d.val / 2) = true →
        (s.die d.val).hbs.find? (fun h => h.stream = st.val && h.period = p) = some h →
        (s.task id).st = .committed → (s.task id).chunkCrc = some h.crc → Does (.checkTick d st p) s fun t =>
          (t.task id).txSlot = none ∧ t.streams = s.streams) ∧
      (∀ id, s.copyOf d.val st.val p = some id → (s.die d.val).stopped = false → s.pairLive (d.val / 2) = true →
        (s.die d.val).hbs.find? (fun h => h.stream = st.val && h.period = p) = none →
        (s.pathHeld (d.val / 2) = false → Does (.checkTick d st p) s fun t => (t.task id).txSlot = none ∧ t.streams = s.streams) ∧
        (s.pathHeld (d.val / 2) = true → Does (.checkTick d st p) s fun t =>
          (t.stream d.val st.val).copy = false ∧ (t.stream (partnerOf d.val) st.val).copy = true ∧ (t.task id).tookOver = true))) ∧
    (∀ pr g : Fin 2, Does (.laneGroupLoss pr g) s fun t =>
      t.pairUp.getLsbD (2 * pr.val + g.val) = false ∧ (∀ i, i ≠ 2 * pr.val + g.val → t.pairUp.getLsbD i = s.pairUp.getLsbD i) ∧
      t.getF DLS_THERM_STAT.PLDEG (2 * pr.val) = 1 ∧ t.getF DLS_THERM_STAT.PLDEG (2 * pr.val + 1) = 1) ∧
    (∀ pr : Fin 2,
      (Does (.pairLinkLoss pr) s fun t => t.pairLive pr.val = false ∧
        (∀ d, d = 2 * pr.val ∨ d = 2 * pr.val + 1 → (s.die d).stopped = false →
          t.getF DLS_THERM_STAT.PLLOSS d = 1 ∧ t.getF DST_MC_STAT.LAST d = 0x36) ∧
        ∀ d n, d / 2 = pr.val → n < 1024 → (s.stream d n).valid = true → (t.stream d n).shadow = false) ∧
      (∀ g : Fin 2, Does (.pairLinkReturn pr (some g)) s fun t => t.pairUp.getLsbD (2 * pr.val + g.val) = true ∧
        ∀ i, i ≠ 2 * pr.val + g.val → t.pairUp.getLsbD i = s.pairUp.getLsbD i) ∧
      (Does (.pairLinkReturn pr none) s fun t => t.pairUp.getLsbD (2 * pr.val) = true ∧ t.pairUp.getLsbD (2 * pr.val + 1) = true)) ∧
    (∀ a b : Die,
      (a.val / 2 = b.val / 2 → exec (.crossLinkLoss a b) s = .next s) ∧
      (a.val / 2 ≠ b.val / 2 → Does (.crossLinkLoss a b) s fun t => t.crossDown.look (linkKey a.val b.val) = true ∧
        t.getF DST_MC_STAT.LAST a.val = 0x39 ∧ t.getF DST_MC_STAT.LAST b.val = 0x39)) ∧
    (∀ (d : Die) (c : Nat),
      let st := s.getF DLS_THERM_STAT.STATE d.val
      (s.die d.val).stopped = false → st ≠ 3 →
        (115 ≤ c → Does (.thermalSample d c) s fun t => t.getF DLS_THERM_STAT.STATE d.val = 3 ∧ (t.die d.val).stopped = true) ∧
        (105 ≤ c → c < 115 → st ≠ 2 → Does (.thermalSample d c) s fun t => t.getF DLS_THERM_STAT.STATE d.val = 2 ∧
          t.getF DLS_THERM_STAT.TEMP d.val = c ∧ (t.die d.val).frozen = some s.now ∧ DueAt t (.freezeTimeout d) (s.now + 1600000)) ∧
        (95 ≤ c → c < 105 → st ≠ 2 → Does (.thermalSample d c) s fun t => t.getF DLS_THERM_STAT.STATE d.val = 1 ∧
          t.getF DLS_THERM_STAT.TEMP d.val = c ∧ t.dies = s.dies) ∧
        (c < 90 → st ≠ 2 → Does (.thermalSample d c) s fun t => t.getF DLS_THERM_STAT.STATE d.val = 0 ∧
          t.getF DLS_THERM_STAT.TEMP d.val = c ∧ t.dies = s.dies) ∧
        (90 ≤ c → c < 95 → st ≠ 2 → Does (.thermalSample d c) s fun t => t.getF DLS_THERM_STAT.STATE d.val = st ∧
          t.getF DLS_THERM_STAT.TEMP d.val = c ∧ t.dies = s.dies) ∧
        (c < 100 → st = 2 → Does (.thermalSample d c) s fun t =>
          t.getF DLS_THERM_STAT.STATE d.val = (if c < 90 then 0 else 1) ∧ (t.die d.val).frozen = none) ∧
        (100 ≤ c → c < 115 → st = 2 → Does (.thermalSample d c) s fun t => t.getF DLS_THERM_STAT.STATE d.val = 2 ∧
          t.getF DLS_THERM_STAT.TEMP d.val = c ∧ t.dies = s.dies)) ∧
    (∀ d : Die,
      ((s.die d.val).frozen = none → exec (.freezeTimeout d) s = .next s) ∧
      ((s.die d.val).frozen ≠ none → Does (.freezeTimeout d) s fun t =>
        t.getF DLS_THERM_STAT.STATE d.val = 3 ∧ (t.die d.val).stopped = true) ∧
      ((s.die d.val).stopped = false → exec (.dieStopDetect d) s = .next s) ∧
      (∀ x, (s.die d.val).stopped = true → (List.range 4).find? (fun x => !(s.die x).stopped) = some x →
        Does (.dieStopDetect d) s fun t => t.getF DST_MC_STAT.LAST x = (s.die d.val).stopCause % 256) ∧
      (Does (.correctedError d) s fun t =>
        t.getF DST_MC_STAT.CE d.val = min (s.getF DST_MC_STAT.CE d.val + 1) DST_MC_STAT.CE.top ∧ t.mem = s.mem) ∧
      (∀ c : BitVec 8, (s.die d.val).stopped = true → ∀ w, exec (.machineCheck d c w) s = .next s) ∧
      ∀ c : BitVec 8, (s.die d.val).stopped = false →
        (c = 0x37 ∨ c = 0x38 → Does (.machineCheck d c .die) s fun t => (t.die d.val).stopped = true) ∧
        (c ≠ 0x37 → c ≠ 0x38 → Does (.machineCheck d c .die) s fun t => t.getF DST_MC_STAT.LAST d.val = c.toNat ∧
          t.getF DST_MC_STAT.UE d.val = min (s.getF DST_MC_STAT.UE d.val + 1) DST_MC_STAT.UE.top) ∧
        (∀ core x w, Does (.machineCheck d c (.register core x w)) s fun t => (t.bank (ctxOf core.val x.val)).s.look w.val = 0) ∧
        (∀ core x off, off - off % 8 + 8 ≤ (s.bank (ctxOf core.val x.val)).spadSize →
          Does (.machineCheck d c (.spad core x off)) s fun t => t.spadNat core.val x.val (off - off % 8) 8 = 0) ∧
        (∀ core q n, Does (.machineCheck d c (.bank core q n)) s fun t => (t.core core.val).tiles.look (16 * q.val + n.val) = 0) ∧
        (∀ id pa, Raisable s id → Does (.machineCheck d c (.sector id pa)) s fun t => Aborted t id))
/-- R10, R76, R94 to R102: the measured start, the journal's restarts, images, attestation and snapshots. A step that passes its
checks brings the next one, one that fails a restart; step 0 halts the module on die 0 and leaves another die absent, until
a die at step 1 or beyond finds it so (the code of that Fail is the model's choice, notes/assumptions/88.md). With their
effect complete: POWER_ON_RESET, POWER_LOSS, START_STEP_PASS, START_STEP_FAIL, START_STEP_TIMEOUT, SJ_IMG_DONE, ATT_REPORT,
SPDM_REQUEST, SNAP_IN_EDGE, SNP_LATCH and SNAP_OUT_END. -/
def Obligations.StartEvents : Prop :=
  ∀ (s : State),
    (Does .powerOnReset s fun t => t.getF SJ_STAT.BOOT 0 = (s.getF SJ_STAT.BOOT 0 + 1) % 2 ^ 32 ∧ t.tickBase = none ∧
      t.tasks = [] ∧ t.banks = [] ∧ t.cores = [] ∧ t.mem = s.mem.filter (fun c => decide (2 ^ 39 ≤ c.1)) ∧
      (s.journal = [] → (∀ d < 4, s.getF SJ_MARKS.MARKS d = 0) → ∀ d : Die,
        (t.die d.val).startStep = 0 ∧ (t.die d.val).starting = true ∧ DueAt t (.startStepTimeout d) (stepBound 0))) ∧
    (Does .powerLoss s fun t => t.powered = false ∧ t.tasks = [] ∧ t.banks = [] ∧ t.cores = [] ∧
      (∀ d < 4, (t.die d).stopped = true) ∧ t.mem = s.mem.filter (fun c => decide (2 ^ 39 ≤ c.1))) ∧
    (∀ (d : Die),
      let n := (s.die d.val).startStep
      let pass : Instr := .startStepPass d (Fin.ofNat 11 n)
      let boots (t : State) : Prop := t.getF SJ_STAT.BOOT 0 = (s.getF SJ_STAT.BOOT 0 + 1) % 2 ^ 32 ∧ t.mem = s.mem ∧
        t.tickBase = s.tickBase ∧ t.now = s.now ∧ t.tasks = []
      let check := s.imageCheck d.val n (s.stepSlot d.val n)
      let good : Bool := !stepImage n || (check.signatureOk && check.versionOk)
      let alone : Prop := ∀ x < 4, x ≠ d.val → (s.die x).absent = false
      ((s.die d.val).starting = false → (∀ k, exec (.startStepPass d k) s = .next s) ∧
        (∀ c, exec (.startStepFail d c) s = .next s) ∧ exec (.startStepTimeout d) s = .next s) ∧
      (∀ k, k.val ≠ n → exec (.startStepPass d k) s = .next s) ∧
      ((s.die d.val).starting = true → d = 0 → n = 0 →
        (∀ c, Does (.startStepFail d c) s fun t => t.halted = true) ∧ Does (.startStepTimeout d) s fun t => t.halted = true) ∧
      ((s.die d.val).starting = true → n ≠ 0 →
        (∀ c, Does (.startStepFail d c) s boots) ∧ Does (.startStepTimeout d) s boots) ∧
      ((s.die d.val).starting = true → d ≠ 0 → n = 0 → alone →
        ((∃ x < 4, x ≠ d.val ∧ (s.die x).starting = true ∧ 1 ≤ (s.die x).startStep) →
          (∀ c, Does (.startStepFail d c) s boots) ∧ Does (.startStepTimeout d) s boots) ∧
        ((∀ x < 4, x ≠ d.val → (s.die x).starting = false ∨ (s.die x).startStep = 0) →
          (∀ c, Does (.startStepFail d c) s fun t => (t.die d.val).absent = true ∧ (t.die d.val).starting = false ∧ t.csr = s.csr) ∧
          Does (.startStepTimeout d) s fun t => (t.die d.val).absent = true ∧ (t.die d.val).starting = false ∧ t.csr = s.csr)) ∧
      ((s.die d.val).starting = true → n < 10 → Does pass s fun t => good = false → boots t) ∧
      ((s.die d.val).starting = true → n < 10 → d = 0 ∨ n ≠ 5 → (∀ x < 4, (s.die x).absent = false) →
        stepOptional (n + 1) = false ∨ s.mark d.val (2 * (n + 1)) = false → Does pass s fun t => good = true →
          (t.die d.val).startStep = n + 1 ∧ (t.die d.val).starting = true ∧
          t.meas = s.meas ++ (if stepImage n then [⟨d.val, n, s.stepSlot d.val n, check⟩] else [])) ∧
      ((s.die d.val).starting = true → n = 10 → s.tickBase = none → exec pass s = .next s) ∧
      ((s.die d.val).starting = true → n = 10 → s.tickBase ≠ none → Does pass s fun t =>
        (t.die d.val).ready = true ∧ (t.die d.val).starting = false)) ∧
    ((s.getF SJ_IMG_CTL.STATE 0 ≠ 1 → ∀ ok, exec (.sjImgDone ok) s = .next s) ∧
      (s.getF SJ_IMG_CTL.STATE 0 = 1 → Does (.sjImgDone false) s fun t => t.getF SJ_IMG_CTL.STATE 0 = 3 ∧ t.flash = s.flash) ∧
      (s.getF SJ_IMG_CTL.STATE 0 = 1 → Does (.sjImgDone true) s fun t => t.getF SJ_IMG_CTL.STATE 0 = 2 ∧
        (s.getF SJ_IMG_CTL.LEN 0 ≠ 0 → t.flash.look (s.getF SJ_IMG_CTL.SLOT 0) =
          s.memBytes (2 ^ 39 + 4096 * s.getF SJ_IMG_CTL.SRC 0) (s.getF SJ_IMG_CTL.LEN 0 * 2 ^ 20)))) ∧
    (∀ p : Part,
      let w := s.vwrite 0 p.val 0 3 (64 * s.getF PRT_ATT_CTL.DEST p.val) (s.signedReport p.val)
      (w = none → Does (.attReport p) s fun t => t.getF PRT_ATT_CTL.STATE p.val = 3 ∧ t.mem = s.mem) ∧
      (∀ u, w = some u → Does (.attReport p) s fun t => t.getF PRT_ATT_CTL.STATE p.val = 2 ∧ t.mem = u.mem)) ∧
    (∀ f : Fn,
      (f.val ≠ 0 ∨ s.hostUp = false → exec (.spdmRequest f) s = .next s) ∧
      (f.val = 0 → s.hostUp = true → Does (.spdmRequest f) s fun t => ∃ b, t.out = s.out ++ [.spdm b])) ∧
    ((s.getF SNP_CTL.PIN 0 ≠ 1 → exec .snapInEdge s = .next s) ∧
      (s.getF SNP_CTL.PIN 0 = 1 → s.getF SNP_CTL.ARM 0 = 1 → s.getF SNP_STAT.STATE 0 ≠ 2 → s.snap.pending = none →
        Does .snapInEdge s fun t => t.snap.pending = some s.now ∧ t.snap.cause = 2 ∧ DueAt t .snpLatch (s.now + 64)) ∧
      (s.snap.pending = none → exec .snpLatch s = .next s) ∧
      (s.snap.pending ≠ none → Does .snpLatch s fun t => t.getF SNP_STAT.STATE 0 = 2 ∧ t.snap.banks = s.banks ∧
        t.getF SNP_STAT.CAUSE 0 = s.snap.cause % 2 ^ 10 ∧ t.snap.pending = none ∧ t.snap.high = true ∧
        DueAt t .snapOutEnd (s.now + 64)) ∧
      Does .snapOutEnd s fun t => t.snap.high = false ∧ t.out = s.out ++ [.snapOut false])

/-- R81, R84 to R93, R103: launches, signals, ownership and the reset of a partition. A push that cannot be taken is counted and
dropped; a block that R85 rejects is counted; one accepted is a release. A signal stores its word, or waits, or is dropped.
A reset fences the partition, stops its tasks, scrubs what it owns, and releases it. With their effect complete:
LAUNCH_PUSH, HOST_SIGNAL, SIGNAL_DEFERRED_STORE, PRT_SCRUB_DONE, VF_FLR, PF_FLR, RESET_STOP, RESET_SCRUB and RESET_RELEASE. -/
def Obligations.HostEvents : Prop :=
  ∀ (s : State),
    (∀ (f : Fn) (d : Die),
      let p := f.val - 1
      let k := 16 * d.val + p
      let counts (c : CsrField) (t : State) : Prop := t.getF c k = min (s.getF c k + 1) c.top
      let shut := s.getF HIF_LQ_CFG.EN k = 0 ∨ s.getF PRT_STAT.RST p = 1 ∨ s.getF SJ_STAT.READY 0 = 0 ∨ s.tickBase = none ∨
        (s.die d.val).stopped = true ∨ 2 ^ min 8 (s.getF HIF_LQ_CFG.DEPTH k) ≤ s.lqOcc k
      (s.vfUp f.val = false → ∀ b, exec (.launchPush f d b) s = .next s) ∧
      (s.vfUp f.val = true → Does (.launchPush f d none) s fun t => counts HIF_LQ_STAT.BADPUSH t ∧ t.tasks = s.tasks) ∧
      (∀ b, s.vfUp f.val = true → shut → Does (.launchPush f d (some b)) s fun t =>
        counts HIF_LQ_STAT.OVF t ∧ t.tasks = s.tasks) ∧
      (∀ b, s.vfUp f.val = true → ¬shut → s.blockCause d.val p (natLe 64 b.toNat) ≠ 0 → Does (.launchPush f d (some b)) s fun t =>
        counts HIF_LQ_STAT.REJECT t ∧ t.tasks = s.tasks) ∧
      (∀ b : BitVec 512,
        let w := natLe 64 b.toNat
        let st := s.stream d.val (natAt w 48 2 % 1024)
        let rel := if natAt w 16 8 = 0 then s.deviceTime else natAt w 16 8
        let r0 := s.timeToTick rel true
        let r := match st.prevRel with | some x => max r0 (x + durTicks st.period) | none => r0
        let dab := s.timeToTick (natAt w 24 8) false
        s.vfUp f.val = true → ¬shut → s.blockCause d.val p w = 0 → 2 ≤ st.cls → st.shadow = false → r < dab → s.tick < dab →
        Does (.launchPush f d (some b)) s fun t =>
          (t.task s.nextId).st = .pending ∧ (t.task s.nextId).r = r ∧ (t.task s.nextId).dabort = dab ∧
          (t.task s.nextId).doneVa = natAt w 32 8 ∧ (t.task s.nextId).args = BitVec.ofNat 64 (natAt w 8 8) ∧
          (t.task s.nextId).var.kernel = natAt w 0 8 ∧ DueAt t (.taskReady s.nextId) (max s.now (s.cycleOf r)))) ∧
    (∀ (f : Fn) (i : Fin 64) (v : Word),
      let p := f.val - 1
      let k := 64 * p + i.val
      (s.vfUp f.val = false ∨ s.getF PRT_STAT.RST p = 1 → exec (.hostSignal f i v) s = .next s) ∧
      (s.vfUp f.val = true → s.getF PRT_STAT.RST p ≠ 1 → s.getF HIF_SIG_CFG.EN k = 0 → Does (.hostSignal f i v) s fun t =>
        t.getF PRT_STAT.SIGDROP p = 1 ∧ t.sigDef = s.sigDef) ∧
      (s.vfUp f.val = true → s.getF PRT_STAT.RST p ≠ 1 → s.getF HIF_SIG_CFG.EN k = 1 → Does (.hostSignal f i v) s fun t =>
        t.sigDef = s.sigDef ++ [(96 * s.getF HIF_SIG_CFG.DIE k + 8 * s.getF HIF_SIG_CFG.CLUSTER k + s.getF HIF_SIG_CFG.CORE k,
          s.getF HIF_SIG_CFG.CTX k, 8 * s.getF HIF_SIG_CFG.OFFSET k, v, p)] ∧ ∃ y ∈ t.agenda, y.time = s.now ∧ ∃ c x, y.ev = .signalDeferredStore c x)) ∧
    (∀ (c : Core) (x : Fin 8),
      (s.sigDef = [] → exec (.signalDeferredStore c x) s = .next s) ∧
      ∀ (core ctx off : Nat) (v : Word) (p : Nat), s.sigDef = [(core, ctx, off, v, p)] →
        (s.sigHeld core ctx = true → Does (.signalDeferredStore c x) s fun t => t.sigDef = s.sigDef ∧ t.cores = s.cores) ∧
        (s.sigHeld core ctx = false → (s.die (core / 96)).stopped = false → (s.bank (ctxOf core ctx)).holds off 8 = true →
          s.ownsCluster p (core / 8) = true → s.capturing ((s.holder core ctx).getD 0) = false →
          Does (.signalDeferredStore c x) s fun t => t.sigDef = [] ∧ t.spadNat core ctx off 8 = v.toNat) ∧
        (s.sigHeld core ctx = false → (s.die (core / 96)).stopped = false →
          ((s.bank (ctxOf core ctx)).holds off 8 = false ∨ s.ownsCluster p (core / 8) = false) →
          Does (.signalDeferredStore c x) s fun t => t.sigDef = [] ∧ t.getF PRT_STAT.SIGDROP p = 1 ∧ t.cores = s.cores)) ∧
    (∀ p : Part,
      (∀ (m : BitVec 176) (rest : List (BitVec 176)), s.scrubbing.look p.val = m :: rest → Does (.prtScrubDone p) s fun t =>
        t.getF PRT_STAT.BUSY p.val = (if rest = [] then 0 else 1) ∧ t.scrubbing.look p.val = rest ∧
        ∀ c < 48, bit m.toNat c = true → ∀ i < 8, (t.core (8 * c + i)).spad = []) ∧
      (s.hostUp = false → exec (.vfFlr p) s = .next s) ∧
      (s.hostUp = true → s.getF PRT_STAT.RST p.val = 1 → exec (.vfFlr p) s = .next s) ∧
      (s.hostUp = true → s.getF PRT_STAT.RST p.val ≠ 1 → Does (.vfFlr p) s fun t => t.getF PRT_STAT.RST p.val = 1 ∧
        Pending s t (.resetStop p) 8000) ∧
      (Does (.resetStop p) s fun t => Pending s t (.resetScrub p) 80000 ∧ ∀ id, (s.task id).part = p.val →
        (s.task id).resident = true → (s.task id).run ≠ .draining → (t.task id).st = .aborted ∧ (t.task id).run = .off) ∧
      (Does (.resetScrub p) s fun t => Pending s t (.resetRelease p) 712000 ∧
        (∀ c < 48, bit (s.getF PRT_CLUSTERS.MASK p.val) c = true → ∀ i < 8, (t.core (8 * c + i)).spad = []) ∧
        ∀ d < 4, ∀ x ∈ (t.die d).lockArr, x.part ≠ p.val) ∧
      (Does (.resetRelease p) s fun t => t.getF PRT_STAT.RST p.val = 0 ∧ (s.hostUp = true → Msg.msix (p.val + 1) 0 ∈ t.out))) ∧
    (s.hostUp = false → exec .pfFlr s = .next s) ∧
    (s.hostUp = true → Does .pfFlr s fun t => t.flr = true ∧ ∀ p < 16, t.getF PRT_STAT.RST p = 1)
namespace Sys2Proof.Spec

open Sys2Proof.Machine

/-- A change of the bank of the operation's context in one field, which `f` hides, and of nothing else. -/
def OnlyBank (s t : State) (f : Bank → Bank) : Prop :=
  (∀ b, b ≠ s.b → t.bank b = s.bank b) ∧ f (t.bank s.b) = f (s.bank s.b) ∧ t.mem = s.mem ∧ t.cores = s.cores ∧ t.csr = s.csr ∧
  t.tasks = s.tasks ∧ t.agenda = s.agenda
/-- A bank but for the writes that are on their way. -/
def standing (b : Bank) : Bank := { b with pend := [] }
/-- Nothing but writes on their way, event counters, the energy counter and the request counts of NTQ has changed. -/
def OnlyIssues (s t : State) : Prop :=
  (∀ b, standing (t.bank b) = standing (s.bank b) ∧ (s.bank b).pend <+: (t.bank b).pend) ∧
  t.mem = s.mem ∧ t.cores = s.cores ∧ t.clusters = s.clusters ∧ t.dies = s.dies ∧ t.agenda = s.agenda ∧
  (∀ (c : Csr) (i : Nat), c ≠ .CCC_EVT → c ≠ .CCC_ECNT → t.csrVal c i = s.csrVal c i) ∧
  ∀ id, { t.task id with nt0 := 0, nt1 := 0 } = { s.task id with nt0 := 0, nt1 := 0 }

end Sys2Proof.Spec

/-- R12, R157, R227, R268, R269, R279: what the register writes do as they land, and their frame. Each changes its own register
and no other, no other bank, no core, no memory and no control register; s0 takes nothing; a write under a mask changes the
bits of the mask. Flags join FLG, and a flag whose TEN bit is set raises its trap. A read lands its bytes later. What is due
by a context's cycle on a core lands in that cycle (WRITE_LANDING). WRITE_LANDING completes. -/
def Obligations.Landings : Prop :=
  ∀ (s : State) (due ord : Nat),
    let core := s.env.core
    let ctx := s.env.ctx
    let land (w : Write) : State := s.landOne ⟨due, ord, w⟩
    let m := s.bank s.b
    let pushed (w : Write) (l : List Landing) : Prop :=
      land w = s.modBank s.b fun b => { b with pend := b.pend ++ l }
    (∀ (n : Nat) (v : Word),
      (OnlyBank s (land (.s n v)) fun b => { b with s := [] }) ∧
      (∀ i, ((land (.s n v)).bank s.b).s.look i = if i = n ∧ n ≠ 0 then v else m.s.look i) ∧
      (OnlyBank s (land (.k n v)) fun b => { b with k := [] }) ∧
      (∀ i, ((land (.k n v)).bank s.b).k.look i = if i = n then v else m.k.look i) ∧
      (∀ i, ((land (.kAdd n v)).bank s.b).k.look i = if i = n then m.k.look i + v else m.k.look i)) ∧
    (∀ (n : Nat) (v : Bool), n < 16 →
      (OnlyBank s (land (.p n v)) fun b => { b with p := 0 }) ∧
      ∀ i < 16, ((land (.p n v)).bank s.b).p.getLsbD i = if i = n then v else m.p.getLsbD i) ∧
    (∀ (x v : Word),
      (OnlyBank s (land (.rrb x v)) fun b => { b with rrb := 0 }) ∧ (OnlyBank s (land (.fmt x v)) fun b => { b with fmt := 0 }) ∧
      ∀ i, ((land (.rrb x v)).bank s.b).rrb.getLsbD i = (if x.getLsbD i then v.getLsbD i else m.rrb.getLsbD i) ∧
        ((land (.fmt x v)).bank s.b).fmt.getLsbD i = (if x.getLsbD i then v.getLsbD i else m.fmt.getLsbD i)) ∧
    (∀ (n : Nat) (v : Vec),
      (OnlyBank s (land (.v n v)) fun b => { b with v := [], wroteV := [] }) ∧
      ∀ i, ((land (.v n v)).bank s.b).v.look i = if i = n then v else m.v.look i) ∧
    (∀ (n lo len v : Nat), 0 < len → lo + len ≤ 4096 →
      (OnlyBank s (land (.vpart n lo len v)) fun b => { b with v := [], wroteV := [] }) ∧
      (∀ i, i ≠ n → ((land (.vpart n lo len v)).bank s.b).v.look i = m.v.look i) ∧
      ∀ i < 4096, (((land (.vpart n lo len v)).bank s.b).v.look n).getLsbD i =
        if lo ≤ i ∧ i < lo + len then v.testBit (i - lo) else (m.v.look n).getLsbD i) ∧
    (∀ (h : Nat) (x v : Word), (OnlyBank s (land (.shape 0 h x v)) fun b => { b with hm := [] }) ∧
      (((land (.shape 0 h x v)).bank s.b).hm.look h).live = (m.hm.look h).live ∧
      ∀ i, (((land (.shape 0 h x v)).bank s.b).hm.look h).shadow.getLsbD i =
        if x.getLsbD i then v.getLsbD i else (m.hm.look h).shadow.getLsbD i) ∧
    (∀ (f slot : Nat) (pc : Word),
      (trapCause (orFlags m.fmt f) f = none → (OnlyBank s (land (.flags f slot pc)) fun b => { b with fmt := 0 }) ∧
        ((land (.flags f slot pc)).bank s.b).fmt = m.fmt ||| BitVec.ofNat 64 (f % 64 * 2 ^ 44)) ∧
      (∀ c, trapCause (orFlags m.fmt f) f = some c → Raisable s s.env.task → s.cur.run ≠ .draining → s.cur.run ≠ .restoring →
        Aborted (land (.flags f slot pc)) s.env.task)) ∧
    (∀ (off n cyc : Nat) (sx : Bool) (d : Nat),
      pushed (.loadS off n sx (.s d) cyc) [⟨cyc, ord, .s d (extend (8 * n) sx (leNat (s.spadBytes core ctx off n)))⟩] ∧
      pushed (.loadP off cyc) [⟨cyc, ord, .preds (BitVec.ofNat 16 (s.spadNat core ctx off 2))⟩] ∧
      ∀ (op : Nat) (v : Word), pushed (.rmw off n op v d cyc)
        [⟨cyc, ord, .s d (BitVec.ofNat 64 (s.spadNat core ctx off n))⟩,
         ⟨cyc, ord, .spad off (natLe n (applyAtomic op (8 * n) (s.spadNat core ctx off n) v.toNat))⟩]) ∧
    ∀ (c : Core) (x : Fin 8) (cyc : Nat),
      let b := ctxOf c.val x.val
      (∀ (n : Nat) (v : Word), n ≠ 0 → (s.bank b).pend = [⟨cyc, ord, .s n v⟩] → s.env.landOnly = false →
        (s.core c.val).cube = [] → (s.core c.val).smpOp = none → Does (.writeLanding c x cyc .registers) s fun t =>
          (t.bank b).s.look n = v ∧ (t.bank b).pend = [] ∧ (t.bank b).lastCyc = cyc ∧ (t.bank b).lastTick = s.now ∧ t.mem = s.mem) ∧
      (∀ (off : Nat) (l : List Byte), (s.bank b).pend = [⟨cyc, ord, .spad off l⟩] → (s.bank b).lastTick = s.now →
        s.capturing s.env.task = false → Does (.writeLanding c x cyc .storage) s fun t =>
          t.spadBytes c.val x.val off l.length = l ∧ (t.bank b).pend = [] ∧ t.mem = s.mem)

/-- R12, R157, R343: where stores go. A scratchpad store changes the bytes at its offset of its context's partition, with
the address that the issue computed (Scratchpad, GatherScatter), and no other byte of any scratchpad, no register and no
memory. A store to an uncached page of the module changes the bytes at its physical address (GlobalStores) and no other
byte of memory. The scalar, address and vector forms store nothing and, as they issue, change no register: their results
are on their way. A checked accumulator form changes no tile as it issues. -/
def Obligations.Frames : Prop :=
  ∀ (s : State) (due ord : Nat),
    let core := s.env.core
    let ctx := s.env.ctx
    (∀ (off : Nat) (l : List Byte), s.capturing s.env.task = false →
      let t := s.landOne ⟨due, ord, .spad off l⟩
      let a := (s.bank s.b).at_ off
      t.spadBytes core ctx off l.length = l ∧ t.banks = s.banks ∧ t.mem = s.mem ∧ t.csr = s.csr ∧
      (∀ i, i < a ∨ a + l.length ≤ i → (t.core core).spad.look i = (s.core core).spad.look i) ∧
      ∀ c, c ≠ core → t.core c = s.core c) ∧
    (∀ (pa : Nat) (l : List Byte), s.capturing s.env.task = false → paD pa = false → paOff pa + l.length ≤ 2 ^ 40 →
      (s.bank s.b).heldStores = [] → (s.bank s.b).fence = 0 →
      (∀ w ∈ (s.core core).wcb, ∀ x ∈ linesOf pa l, w.2.line ≠ some x.1) →
      let t := s.landOne ⟨due, ord, .store pa 1 l false 0⟩
      (isHost pa = false → s.joined (dieOf core) (ownerDie pa) = false → t.mem = s.mem) ∧
      (isHost pa = true ∨ s.joined (dieOf core) (ownerDie pa) = true → ∀ i x, l[i]? = some x → t.memBytes (paOff pa + i) 1 = [x]) ∧
      (∀ i, i < paOff pa ∨ paOff pa + l.length ≤ i → t.memBytes i 1 = s.memBytes i 1) ∧
      ∀ b, (t.bank b).s = (s.bank b).s ∧ (t.bank b).v = (s.bank b).v ∧ (t.bank b).fmt = (s.bank b).fmt) ∧
    (∀ (i : Instr) (slot : Nat) (opc : BitVec 7) (opd : BitVec 20), i.wf = true → encodeOp i = some (slot, opc, opd) →
      slot = 1 ∨ slot = 2 ∨ slot = 3 ∨ slot = 4 → (∀ l < 4, s.cur.loopKind l ≠ 1 ∧ s.cur.loopKind l ≠ 2) →
      (∀ o, i ≠ .qrd o) → (∀ o, i ≠ .sfeed o) → (∀ k, i ≠ .nop k) → Does i s fun t => OnlyIssues s t) ∧
    ∀ (o : MK), bit (s.cur.hdrNat 24 2) o.bank.toNat = true → s.env.probe = false → Does (.qclr o) s fun t => OnlyIssues s t

/-- R123, R125, R194 to R199, R255: taking a fault. An operation with a reserved field value is decode-fault 0x04. A fault
raised on a task that holds a context aborts it, with vector 3 of its partition and, where the record ring is enabled, its
record; a task that no longer runs takes none. A fault offered for service sets the task draining and awaiting its
answer. -/
def Obligations.Exceptions : Prop :=
  (∀ (i : Instr) (s : State), encodeOp i ≠ none → i.wf = false → exec i s = .next (s.faultHere 0x04 0)) ∧
  ∀ (s : State) (id : Nat) (r : FaultRec),
    let k := s.task id
    (Raisable s id → Aborted (s.raiseHere id r) id ∧
      (s.getF PRT_STAT.RST k.part = 0 → Msg.msix (k.part + 1) 3 ∈ (s.raiseHere id r).out)) ∧
    (s.env.probe = false → k.resident = false ∨ k.run = .aborting → s.raiseHere id r = s) ∧
    (k.resident = true → k.run ≠ .aborting → s.offers id r = none → Aborted (s.takeFault id r) id) ∧
    (∀ e, k.resident = true → k.run ≠ .aborting → s.offers id r = some e → s.queueRecord id r (some (0, id)) ≠ none →
      let t := s.takeFault id r
      (t.task id).st = .draining ∧ (t.task id).run = .draining ∧ (t.task id).awaitSvc = true ∧ (t.task id).resumePc = k.pc) ∧
    ∀ reason, Aborted (s.abort id reason) id ∧ ((s.abort id reason).task id).awaitSvc = false ∧
      (s.getF DLS_TREC_CFG.EN (16 * k.die + k.part) = 1 →
        (s.abort id reason).getF DLS_TREC_CFG.HEAD (16 * k.die + k.part) =
          (s.getF DLS_TREC_CFG.HEAD (16 * k.die + k.part) + 1) % 2 ^ 32)

/-- Every instruction answers a next state in every state, and so does every step, but for a logit word that decodes to
nothing: faults of the spec are next states, and nothing stops the machine (R194, R197). -/
def Obligations.NothingStops : Prop :=
  (∀ (i : Instr) (s : State), ∃ t, exec i s = .next t) ∧
  ∀ s : State, (s.lg.active = true → ∀ w l, s.lg.prog.drop s.lg.pos = w :: l → ∃ i, decodeLogit w = .ok i) → ∃ t, step s = .next t

/-- Memory keeps its canonical form: addresses strictly rising and no entry that reads as an unlisted address does. From
every state with it, whatever the step does, the next state has it; the state after reset has it. -/
def Obligations.MemoryStaysCanonical : Prop :=
  Memory.wf State.reset.mem = true ∧ ∀ s t : State, Memory.wf s.mem = true → step s = .next t → Memory.wf t.mem = true

/-- R247, R253, R254, R365: for every well-formed instruction with a word of its own, decoding its encoding, under every
guard of R248, gives it back. -/
def Obligations.DecodeEncode : Prop :=
  ∀ i : Instr, i.wf = true →
    (∀ slot opc opd, encodeOp i = some (slot, opc, opd) → decodeOp slot (opc ++ opd) = .ok i ∧
      ∀ guard : BitVec 5, decodeSlotWord slot (guard ++ opc ++ opd) =
        if guard.toNat ≤ 20 then .ok (guard.toNat, i) else .error .reservedGuard) ∧
    ∀ w, encodeLogit i = some w → decodeLogit w = .ok i

/-- R194, R247, R253, R254, R365: every word has one meaning. A word that decodes is the encoding of what it decodes to, so
two words never give one instruction, no bit is dropped, and what decodes is well-formed; in a slot above 7 nothing
decodes. -/
def Obligations.EncodeDecode : Prop :=
  (∀ (slot : Nat) (w : BitVec 27) (i : Instr), decodeOp slot w = .ok i →
    i.wf = true ∧ slot < 8 ∧ encodeOp i = some (slot, w.extractLsb' 20 7, w.extractLsb' 0 20)) ∧
  ∀ (w : BitVec 16) (i : Instr), decodeLogit w = .ok i → encodeLogit i = some w
end

