-- ==== Sys2Proof/Laws/Map.lean ====
section
/-! SUPPORT. The laws of the sparse maps and of bytes: a read after a write, a write leaves every other key alone, every operation keeps the canonical form. -/

namespace Sys2Proof.Machine

variable {α : Type} [Inhabited α]

@[simp] theorem SMap.look_nil (n : Nat) : SMap.look ([] : SMap α) n = default := rfl

variable [DecidableEq α]

/-- The canonical form of a map with a first pair. -/
theorem SMap.wf_cons (k : Nat) (v : α) (m : SMap α) :
    SMap.wf ((k, v) :: m) = true ↔ v ≠ default ∧ (∀ p ∈ m, k < p.1) ∧ SMap.wf m = true := by
  simp [SMap.wf, and_assoc]

@[simp] theorem SMap.wf_nil : SMap.wf ([] : SMap α) = true := rfl

/-- The keys after an insertion. -/
theorem SMap.mem_ins {β : Type} (m : SMap β) (n : Nat) (v : β) (p : Nat × β) (h : p ∈ m.ins n v) : p = (n, v) ∨ p ∈ m := by
  induction m with
  | nil => simpa [SMap.ins] using h
  | cons q m ih =>
    obtain ⟨k, w⟩ := q
    unfold SMap.ins at h
    split at h
    · rcases List.mem_cons.1 h with h | h
      · exact .inl h
      · exact .inr (by simp [h])
    · split at h
      · simpa using h
      · rcases List.mem_cons.1 h with h | h
        · exact .inr (by simp [h])
        · exact (ih h).imp id fun h => by simp [h]

/-- Leaving out pairs keeps the canonical form. -/
theorem SMap.wf_filter (m : SMap α) (f : Nat × α → Bool) (h : SMap.wf m = true) :
    SMap.wf (List.filter f m : SMap α) = true := by
  induction m with
  | nil => rfl
  | cons q m ih =>
    obtain ⟨k, w⟩ := q
    obtain ⟨hw, hk, hm⟩ := (SMap.wf_cons k w m).1 h
    rw [List.filter_cons]
    split
    · exact (SMap.wf_cons k w _).2 ⟨hw, fun p hp => hk p (List.mem_filter.1 hp).1, ih hm⟩
    · exact ih hm

theorem SMap.wf_drop (m : SMap α) (f : Nat → Bool) (h : SMap.wf m = true) : SMap.wf (SMap.drop m f) = true :=
  SMap.wf_filter m _ h

/-- An insertion keeps the canonical form. -/
theorem SMap.wf_ins (m : SMap α) (n : Nat) (v : α) (h : SMap.wf m = true) (hv : v ≠ default) :
    SMap.wf (m.ins n v) = true := by
  induction m with
  | nil => simp [SMap.ins, SMap.wf_cons, hv]
  | cons q m ih =>
    obtain ⟨k, w⟩ := q
    obtain ⟨hw, hk, hm⟩ := (SMap.wf_cons k w m).1 h
    unfold SMap.ins
    split
    · subst_vars; exact (SMap.wf_cons _ v m).2 ⟨hv, hk, hm⟩
    · split
      · refine (SMap.wf_cons n v _).2 ⟨hv, fun p hp => ?_, h⟩
        rcases List.mem_cons.1 hp with rfl | hp
        · assumption
        · have := hk p hp; omega
      · refine (SMap.wf_cons k w _).2 ⟨hw, fun p hp => ?_, ih hm⟩
        rcases SMap.mem_ins m n v p hp with rfl | hp
        · simp only; omega
        · exact hk p hp

/-- A write keeps the canonical form. -/
theorem SMap.wf_put (m : SMap α) (n : Nat) (v : α) (h : SMap.wf m = true) : SMap.wf (m.put n v) = true := by
  unfold SMap.put
  split
  · exact SMap.wf_filter m _ h
  · exact SMap.wf_ins m n v h ‹_›

omit [DecidableEq α] in
/-- What a map reads as after an insertion. -/
theorem SMap.look_ins (m : SMap α) (n : Nat) (v : α) (x : Nat) : (m.ins n v).look x = if x = n then v else m.look x := by
  induction m with
  | nil => rfl
  | cons q m ih =>
    obtain ⟨k, w⟩ := q
    unfold SMap.ins
    split
    · subst_vars
      by_cases hx : x = k <;> simp [SMap.look, hx]
    · split
      · rfl
      · simp only [SMap.look, ih]
        by_cases hx : x = k
        · rw [if_pos hx, if_pos hx, if_neg (by omega)]
        · simp [hx]

omit [DecidableEq α] in
/-- What a map reads as when the pairs of one key are left out. -/
theorem SMap.look_without (m : SMap α) (n x : Nat) :
    SMap.look (List.filter (fun p : Nat × α => p.1 ≠ n) m : SMap α) x = if x = n then default else m.look x := by
  induction m with
  | nil => simp
  | cons q m ih =>
    obtain ⟨k, w⟩ := q
    rw [List.filter_cons]
    by_cases hk : k = n
    · subst hk
      by_cases hx : x = k
      · simp_all
      · simp_all [SMap.look]
    · by_cases hx : x = k
      · subst hx; simp [SMap.look, hk]
      · simp_all [SMap.look]

/-- What a map reads as after a write: the value written at its key, every other key as before. -/
theorem SMap.look_put (m : SMap α) (n : Nat) (v : α) (x : Nat) : (m.put n v).look x = if x = n then v else m.look x := by
  unfold SMap.put
  split
  · subst_vars; exact SMap.look_without m n x
  · exact SMap.look_ins m n v x

@[simp] theorem SMap.look_put_same (m : SMap α) (n : Nat) (v : α) : (m.put n v).look n = v := by simp [SMap.look_put]

theorem SMap.look_put_ne (m : SMap α) (n : Nat) (v : α) (x : Nat) (h : x ≠ n) : (m.put n v).look x = m.look x := by
  simp [SMap.look_put, h]

/-- What a map reads as after a change of one key. -/
theorem SMap.look_upd (m : SMap α) (n : Nat) (f : α → α) (x : Nat) :
    (m.upd n f).look x = if x = n then f (m.look n) else m.look x := SMap.look_put m n _ x

@[simp] theorem SMap.look_upd_same (m : SMap α) (n : Nat) (f : α → α) : (m.upd n f).look n = f (m.look n) := by
  simp [SMap.look_upd]

theorem SMap.wf_upd (m : SMap α) (n : Nat) (f : α → α) (h : SMap.wf m = true) : SMap.wf (m.upd n f) = true :=
  SMap.wf_put m n _ h

/-! Bytes -/

@[simp] theorem bytesAt_length (m : SMap Byte) (a n : Nat) : (bytesAt m a n).length = n := by
  induction n generalizing a with
  | zero => rfl
  | succ n ih => simp [bytesAt, ih]

@[simp] theorem natLe_length (n v : Nat) : (natLe n v).length = n := by
  induction n generalizing v with
  | zero => rfl
  | succ n ih => simp [natLe, ih]

/-- Storing bytes keeps the canonical form. -/
theorem putBytes_wf (m : SMap Byte) (a : Nat) (b : List Byte) (h : SMap.wf m = true) : SMap.wf (putBytes m a b) = true := by
  induction b generalizing m a with
  | nil => exact h
  | cons x b ih => exact ih _ _ (SMap.wf_put m a x h)

/-- Storing bytes under a mask keeps the canonical form. -/
theorem putMasked_wf (m : SMap Byte) (a : Nat) (b : List Byte) (x : List Bool) (h : SMap.wf m = true) :
    SMap.wf (putMasked m a b x) = true := by
  induction b generalizing m a x with
  | nil => cases x <;> exact h
  | cons y b ih =>
    cases x with
    | nil => exact h
    | cons z x =>
      refine ih _ _ _ ?_
      split
      · exact SMap.wf_put m a y h
      · exact h

/-- Bytes outside the range stored read as before. -/
theorem putBytes_look_out (m : SMap Byte) (a : Nat) (b : List Byte) (x : Nat) (h : x < a ∨ a + b.length ≤ x) :
    (putBytes m a b).look x = m.look x := by
  induction b generalizing m a with
  | nil => rfl
  | cons y b ih =>
    simp only [List.length_cons] at h
    show (putBytes (m.put a y) (a + 1) b).look x = m.look x
    rw [ih _ _ (by omega), SMap.look_put_ne _ _ _ _ (by omega)]

/-- A byte of the range stored reads as the byte stored there. -/
theorem putBytes_look_in (m : SMap Byte) (a : Nat) (b : List Byte) (i : Nat) (hi : i < b.length) :
    (putBytes m a b).look (a + i) = b[i] := by
  induction b generalizing m a i with
  | nil => simp at hi
  | cons y b ih =>
    show (putBytes (m.put a y) (a + 1) b).look (a + i) = _
    cases i with
    | zero => rw [putBytes_look_out _ _ _ _ (by omega), SMap.look_put]; simp
    | succ i =>
      have := ih (m.put a y) (a + 1) i (by simpa using hi)
      rw [show a + (i + 1) = a + 1 + i by omega, this]
      rfl

/-- Masked bytes outside the range read as before. -/
theorem putMasked_look_out (m : SMap Byte) (a : Nat) (b : List Byte) (k : List Bool) (x : Nat)
    (h : x < a ∨ a + b.length ≤ x) : (putMasked m a b k).look x = m.look x := by
  induction b generalizing m a k with
  | nil => cases k <;> rfl
  | cons y b ih =>
    cases k with
    | nil => rfl
    | cons z k =>
      simp only [List.length_cons] at h
      show (putMasked (if z then m.put a y else m) (a + 1) b k).look x = m.look x
      rw [ih _ _ _ (by omega)]
      split
      · exact SMap.look_put_ne _ _ _ _ (by omega)
      · rfl

/-- The bytes stored are read back. -/
theorem bytesAt_putBytes (m : SMap Byte) (a : Nat) (b : List Byte) :
    bytesAt (putBytes m a b) a b.length = b := by
  induction b generalizing m a with
  | nil => rfl
  | cons y b ih =>
    show (putBytes (m.put a y) (a + 1) b).look a :: bytesAt (putBytes (m.put a y) (a + 1) b) (a + 1) b.length = y :: b
    rw [ih, putBytes_look_out _ _ _ _ (by omega), SMap.look_put]
    simp

/-- The value of n little-endian bytes. -/
theorem leNat_natLe (n v : Nat) : leNat (natLe n v) = v % 256 ^ n := by
  induction n generalizing v with
  | zero => simp [natLe, leNat, Nat.mod_one]
  | succ n ih =>
    simp only [natLe, leNat, ih, BitVec.toNat_ofNat]
    rw [show (2 : Nat) ^ 8 = 256 from rfl, Nat.pow_succ, Nat.mul_comm (256 ^ n) 256, Nat.mod_mul]

end Sys2Proof.Machine
end

