-- ==== Sys2Proof/Laws/State.lean ====
section
/-! SUPPORT. One lemma per field of the state and per update: an update changes its own field and no other. -/

namespace Sys2Proof.Machine

/-! `State.csrPut` -/

@[simp] theorem State.csrPut_now (s : State) (c : Csr) (i : Nat) (v : BitVec 128) : (s.csrPut c i v).now = s.now := rfl
@[simp] theorem State.csrPut_tickBase (s : State) (c : Csr) (i : Nat) (v : BitVec 128) : (s.csrPut c i v).tickBase = s.tickBase := rfl
@[simp] theorem State.csrPut_seq (s : State) (c : Csr) (i : Nat) (v : BitVec 128) : (s.csrPut c i v).seq = s.seq := rfl
@[simp] theorem State.csrPut_free (s : State) (c : Csr) (i : Nat) (v : BitVec 128) : (s.csrPut c i v).free = s.free := rfl
@[simp] theorem State.csrPut_nextId (s : State) (c : Csr) (i : Nat) (v : BitVec 128) : (s.csrPut c i v).nextId = s.nextId := rfl
@[simp] theorem State.csrPut_agenda (s : State) (c : Csr) (i : Nat) (v : BitVec 128) : (s.csrPut c i v).agenda = s.agenda := rfl
@[simp] theorem State.csrPut_env (s : State) (c : Csr) (i : Nat) (v : BitVec 128) : (s.csrPut c i v).env = s.env := rfl
@[simp] theorem State.csrPut_found (s : State) (c : Csr) (i : Nat) (v : BitVec 128) : (s.csrPut c i v).found = s.found := rfl
@[simp] theorem State.csrPut_wants (s : State) (c : Csr) (i : Nat) (v : BitVec 128) : (s.csrPut c i v).wants = s.wants := rfl
@[simp] theorem State.csrPut_issueQ (s : State) (c : Csr) (i : Nat) (v : BitVec 128) : (s.csrPut c i v).issueQ = s.issueQ := rfl
@[simp] theorem State.csrPut_out (s : State) (c : Csr) (i : Nat) (v : BitVec 128) : (s.csrPut c i v).out = s.out := rfl
@[simp] theorem State.csrPut_mem (s : State) (c : Csr) (i : Nat) (v : BitVec 128) : (s.csrPut c i v).mem = s.mem := rfl
@[simp] theorem State.csrPut_banks (s : State) (c : Csr) (i : Nat) (v : BitVec 128) : (s.csrPut c i v).banks = s.banks := rfl
@[simp] theorem State.csrPut_cores (s : State) (c : Csr) (i : Nat) (v : BitVec 128) : (s.csrPut c i v).cores = s.cores := rfl
@[simp] theorem State.csrPut_clusters (s : State) (c : Csr) (i : Nat) (v : BitVec 128) : (s.csrPut c i v).clusters = s.clusters := rfl
@[simp] theorem State.csrPut_dies (s : State) (c : Csr) (i : Nat) (v : BitVec 128) : (s.csrPut c i v).dies = s.dies := rfl
@[simp] theorem State.csrPut_groups (s : State) (c : Csr) (i : Nat) (v : BitVec 128) : (s.csrPut c i v).groups = s.groups := rfl
@[simp] theorem State.csrPut_streams (s : State) (c : Csr) (i : Nat) (v : BitVec 128) : (s.csrPut c i v).streams = s.streams := rfl
@[simp] theorem State.csrPut_tasks (s : State) (c : Csr) (i : Nat) (v : BitVec 128) : (s.csrPut c i v).tasks = s.tasks := rfl
@[simp] theorem State.csrPut_launches (s : State) (c : Csr) (i : Nat) (v : BitVec 128) : (s.csrPut c i v).launches = s.launches := rfl
@[simp] theorem State.csrPut_cmds (s : State) (c : Csr) (i : Nat) (v : BitVec 128) : (s.csrPut c i v).cmds = s.cmds := rfl
@[simp] theorem State.csrPut_ceTaken (s : State) (c : Csr) (i : Nat) (v : BitVec 128) : (s.csrPut c i v).ceTaken = s.ceTaken := rfl
@[simp] theorem State.csrPut_loads (s : State) (c : Csr) (i : Nat) (v : BitVec 128) : (s.csrPut c i v).loads = s.loads := rfl
@[simp] theorem State.csrPut_stores (s : State) (c : Csr) (i : Nat) (v : BitVec 128) : (s.csrPut c i v).stores = s.stores := rfl
@[simp] theorem State.csrPut_atoms (s : State) (c : Csr) (i : Nat) (v : BitVec 128) : (s.csrPut c i v).atoms = s.atoms := rfl
@[simp] theorem State.csrPut_barriers (s : State) (c : Csr) (i : Nat) (v : BitVec 128) : (s.csrPut c i v).barriers = s.barriers := rfl
@[simp] theorem State.csrPut_allred (s : State) (c : Csr) (i : Nat) (v : BitVec 128) : (s.csrPut c i v).allred = s.allred := rfl
@[simp] theorem State.csrPut_subs (s : State) (c : Csr) (i : Nat) (v : BitVec 128) : (s.csrPut c i v).subs = s.subs := rfl
@[simp] theorem State.csrPut_bwsQ (s : State) (c : Csr) (i : Nat) (v : BitVec 128) : (s.csrPut c i v).bwsQ = s.bwsQ := rfl
@[simp] theorem State.csrPut_ceTlb (s : State) (c : Csr) (i : Nat) (v : BitVec 128) : (s.csrPut c i v).ceTlb = s.ceTlb := rfl
@[simp] theorem State.csrPut_mslTlb (s : State) (c : Csr) (i : Nat) (v : BitVec 128) : (s.csrPut c i v).mslTlb = s.mslTlb := rfl
@[simp] theorem State.csrPut_ports (s : State) (c : Csr) (i : Nat) (v : BitVec 128) : (s.csrPut c i v).ports = s.ports := rfl
@[simp] theorem State.csrPut_fabric (s : State) (c : Csr) (i : Nat) (v : BitVec 128) : (s.csrPut c i v).fabric = s.fabric := rfl
@[simp] theorem State.csrPut_fabIn (s : State) (c : Csr) (i : Nat) (v : BitVec 128) : (s.csrPut c i v).fabIn = s.fabIn := rfl
@[simp] theorem State.csrPut_ethUp (s : State) (c : Csr) (i : Nat) (v : BitVec 128) : (s.csrPut c i v).ethUp = s.ethUp := rfl
@[simp] theorem State.csrPut_pairUp (s : State) (c : Csr) (i : Nat) (v : BitVec 128) : (s.csrPut c i v).pairUp = s.pairUp := rfl
@[simp] theorem State.csrPut_crossDown (s : State) (c : Csr) (i : Nat) (v : BitVec 128) : (s.csrPut c i v).crossDown = s.crossDown := rfl
@[simp] theorem State.csrPut_hif (s : State) (c : Csr) (i : Nat) (v : BitVec 128) : (s.csrPut c i v).hif = s.hif := rfl
@[simp] theorem State.csrPut_energyLog (s : State) (c : Csr) (i : Nat) (v : BitVec 128) : (s.csrPut c i v).energyLog = s.energyLog := rfl
@[simp] theorem State.csrPut_lowering (s : State) (c : Csr) (i : Nat) (v : BitVec 128) : (s.csrPut c i v).lowering = s.lowering := rfl
@[simp] theorem State.csrPut_pairLost (s : State) (c : Csr) (i : Nat) (v : BitVec 128) : (s.csrPut c i v).pairLost = s.pairLost := rfl
@[simp] theorem State.csrPut_pathFrom (s : State) (c : Csr) (i : Nat) (v : BitVec 128) : (s.csrPut c i v).pathFrom = s.pathFrom := rfl
@[simp] theorem State.csrPut_tookSes (s : State) (c : Csr) (i : Nat) (v : BitVec 128) : (s.csrPut c i v).tookSes = s.tookSes := rfl
@[simp] theorem State.csrPut_rx (s : State) (c : Csr) (i : Nat) (v : BitVec 128) : (s.csrPut c i v).rx = s.rx := rfl
@[simp] theorem State.csrPut_tx (s : State) (c : Csr) (i : Nat) (v : BitVec 128) : (s.csrPut c i v).tx = s.tx := rfl
@[simp] theorem State.csrPut_ptp (s : State) (c : Csr) (i : Nat) (v : BitVec 128) : (s.csrPut c i v).ptp = s.ptp := rfl
@[simp] theorem State.csrPut_latch (s : State) (c : Csr) (i : Nat) (v : BitVec 128) : (s.csrPut c i v).latch = s.latch := rfl
@[simp] theorem State.csrPut_numVfs (s : State) (c : Csr) (i : Nat) (v : BitVec 128) : (s.csrPut c i v).numVfs = s.numVfs := rfl
@[simp] theorem State.csrPut_lq (s : State) (c : Csr) (i : Nat) (v : BitVec 128) : (s.csrPut c i v).lq = s.lq := rfl
@[simp] theorem State.csrPut_flr (s : State) (c : Csr) (i : Nat) (v : BitVec 128) : (s.csrPut c i v).flr = s.flr := rfl
@[simp] theorem State.csrPut_hostDeny (s : State) (c : Csr) (i : Nat) (v : BitVec 128) : (s.csrPut c i v).hostDeny = s.hostDeny := rfl
@[simp] theorem State.csrPut_sigDef (s : State) (c : Csr) (i : Nat) (v : BitVec 128) : (s.csrPut c i v).sigDef = s.sigDef := rfl
@[simp] theorem State.csrPut_dirtyAt (s : State) (c : Csr) (i : Nat) (v : BitVec 128) : (s.csrPut c i v).dirtyAt = s.dirtyAt := rfl
@[simp] theorem State.csrPut_bbt (s : State) (c : Csr) (i : Nat) (v : BitVec 128) : (s.csrPut c i v).bbt = s.bbt := rfl
@[simp] theorem State.csrPut_scrubbing (s : State) (c : Csr) (i : Nat) (v : BitVec 128) : (s.csrPut c i v).scrubbing = s.scrubbing := rfl
@[simp] theorem State.csrPut_memOwnNew (s : State) (c : Csr) (i : Nat) (v : BitVec 128) : (s.csrPut c i v).memOwnNew = s.memOwnNew := rfl
@[simp] theorem State.csrPut_l1New (s : State) (c : Csr) (i : Nat) (v : BitVec 128) : (s.csrPut c i v).l1New = s.l1New := rfl
@[simp] theorem State.csrPut_snap (s : State) (c : Csr) (i : Nat) (v : BitVec 128) : (s.csrPut c i v).snap = s.snap := rfl
@[simp] theorem State.csrPut_journal (s : State) (c : Csr) (i : Nat) (v : BitVec 128) : (s.csrPut c i v).journal = s.journal := rfl
@[simp] theorem State.csrPut_meas (s : State) (c : Csr) (i : Nat) (v : BitVec 128) : (s.csrPut c i v).meas = s.meas := rfl
@[simp] theorem State.csrPut_flash (s : State) (c : Csr) (i : Nat) (v : BitVec 128) : (s.csrPut c i v).flash = s.flash := rfl
@[simp] theorem State.csrPut_sjClear (s : State) (c : Csr) (i : Nat) (v : BitVec 128) : (s.csrPut c i v).sjClear = s.sjClear := rfl
@[simp] theorem State.csrPut_halted (s : State) (c : Csr) (i : Nat) (v : BitVec 128) : (s.csrPut c i v).halted = s.halted := rfl
@[simp] theorem State.csrPut_powered (s : State) (c : Csr) (i : Nat) (v : BitVec 128) : (s.csrPut c i v).powered = s.powered := rfl
@[simp] theorem State.csrPut_svcAwait (s : State) (c : Csr) (i : Nat) (v : BitVec 128) : (s.csrPut c i v).svcAwait = s.svcAwait := rfl
@[simp] theorem State.csrPut_hostEdits (s : State) (c : Csr) (i : Nat) (v : BitVec 128) : (s.csrPut c i v).hostEdits = s.hostEdits := rfl
@[simp] theorem State.csrPut_lg (s : State) (c : Csr) (i : Nat) (v : BitVec 128) : (s.csrPut c i v).lg = s.lg := rfl

/-! `State.setF` -/

@[simp] theorem State.setF_now (s : State) (f : CsrField) (i v : Nat) : (s.setF f i v).now = s.now := rfl
@[simp] theorem State.setF_tickBase (s : State) (f : CsrField) (i v : Nat) : (s.setF f i v).tickBase = s.tickBase := rfl
@[simp] theorem State.setF_seq (s : State) (f : CsrField) (i v : Nat) : (s.setF f i v).seq = s.seq := rfl
@[simp] theorem State.setF_free (s : State) (f : CsrField) (i v : Nat) : (s.setF f i v).free = s.free := rfl
@[simp] theorem State.setF_nextId (s : State) (f : CsrField) (i v : Nat) : (s.setF f i v).nextId = s.nextId := rfl
@[simp] theorem State.setF_agenda (s : State) (f : CsrField) (i v : Nat) : (s.setF f i v).agenda = s.agenda := rfl
@[simp] theorem State.setF_env (s : State) (f : CsrField) (i v : Nat) : (s.setF f i v).env = s.env := rfl
@[simp] theorem State.setF_found (s : State) (f : CsrField) (i v : Nat) : (s.setF f i v).found = s.found := rfl
@[simp] theorem State.setF_wants (s : State) (f : CsrField) (i v : Nat) : (s.setF f i v).wants = s.wants := rfl
@[simp] theorem State.setF_issueQ (s : State) (f : CsrField) (i v : Nat) : (s.setF f i v).issueQ = s.issueQ := rfl
@[simp] theorem State.setF_out (s : State) (f : CsrField) (i v : Nat) : (s.setF f i v).out = s.out := rfl
@[simp] theorem State.setF_mem (s : State) (f : CsrField) (i v : Nat) : (s.setF f i v).mem = s.mem := rfl
@[simp] theorem State.setF_banks (s : State) (f : CsrField) (i v : Nat) : (s.setF f i v).banks = s.banks := rfl
@[simp] theorem State.setF_cores (s : State) (f : CsrField) (i v : Nat) : (s.setF f i v).cores = s.cores := rfl
@[simp] theorem State.setF_clusters (s : State) (f : CsrField) (i v : Nat) : (s.setF f i v).clusters = s.clusters := rfl
@[simp] theorem State.setF_dies (s : State) (f : CsrField) (i v : Nat) : (s.setF f i v).dies = s.dies := rfl
@[simp] theorem State.setF_groups (s : State) (f : CsrField) (i v : Nat) : (s.setF f i v).groups = s.groups := rfl
@[simp] theorem State.setF_streams (s : State) (f : CsrField) (i v : Nat) : (s.setF f i v).streams = s.streams := rfl
@[simp] theorem State.setF_tasks (s : State) (f : CsrField) (i v : Nat) : (s.setF f i v).tasks = s.tasks := rfl
@[simp] theorem State.setF_launches (s : State) (f : CsrField) (i v : Nat) : (s.setF f i v).launches = s.launches := rfl
@[simp] theorem State.setF_cmds (s : State) (f : CsrField) (i v : Nat) : (s.setF f i v).cmds = s.cmds := rfl
@[simp] theorem State.setF_ceTaken (s : State) (f : CsrField) (i v : Nat) : (s.setF f i v).ceTaken = s.ceTaken := rfl
@[simp] theorem State.setF_loads (s : State) (f : CsrField) (i v : Nat) : (s.setF f i v).loads = s.loads := rfl
@[simp] theorem State.setF_stores (s : State) (f : CsrField) (i v : Nat) : (s.setF f i v).stores = s.stores := rfl
@[simp] theorem State.setF_atoms (s : State) (f : CsrField) (i v : Nat) : (s.setF f i v).atoms = s.atoms := rfl
@[simp] theorem State.setF_barriers (s : State) (f : CsrField) (i v : Nat) : (s.setF f i v).barriers = s.barriers := rfl
@[simp] theorem State.setF_allred (s : State) (f : CsrField) (i v : Nat) : (s.setF f i v).allred = s.allred := rfl
@[simp] theorem State.setF_subs (s : State) (f : CsrField) (i v : Nat) : (s.setF f i v).subs = s.subs := rfl
@[simp] theorem State.setF_bwsQ (s : State) (f : CsrField) (i v : Nat) : (s.setF f i v).bwsQ = s.bwsQ := rfl
@[simp] theorem State.setF_ceTlb (s : State) (f : CsrField) (i v : Nat) : (s.setF f i v).ceTlb = s.ceTlb := rfl
@[simp] theorem State.setF_mslTlb (s : State) (f : CsrField) (i v : Nat) : (s.setF f i v).mslTlb = s.mslTlb := rfl
@[simp] theorem State.setF_ports (s : State) (f : CsrField) (i v : Nat) : (s.setF f i v).ports = s.ports := rfl
@[simp] theorem State.setF_fabric (s : State) (f : CsrField) (i v : Nat) : (s.setF f i v).fabric = s.fabric := rfl
@[simp] theorem State.setF_fabIn (s : State) (f : CsrField) (i v : Nat) : (s.setF f i v).fabIn = s.fabIn := rfl
@[simp] theorem State.setF_ethUp (s : State) (f : CsrField) (i v : Nat) : (s.setF f i v).ethUp = s.ethUp := rfl
@[simp] theorem State.setF_pairUp (s : State) (f : CsrField) (i v : Nat) : (s.setF f i v).pairUp = s.pairUp := rfl
@[simp] theorem State.setF_crossDown (s : State) (f : CsrField) (i v : Nat) : (s.setF f i v).crossDown = s.crossDown := rfl
@[simp] theorem State.setF_hif (s : State) (f : CsrField) (i v : Nat) : (s.setF f i v).hif = s.hif := rfl
@[simp] theorem State.setF_energyLog (s : State) (f : CsrField) (i v : Nat) : (s.setF f i v).energyLog = s.energyLog := rfl
@[simp] theorem State.setF_lowering (s : State) (f : CsrField) (i v : Nat) : (s.setF f i v).lowering = s.lowering := rfl
@[simp] theorem State.setF_pairLost (s : State) (f : CsrField) (i v : Nat) : (s.setF f i v).pairLost = s.pairLost := rfl
@[simp] theorem State.setF_pathFrom (s : State) (f : CsrField) (i v : Nat) : (s.setF f i v).pathFrom = s.pathFrom := rfl
@[simp] theorem State.setF_tookSes (s : State) (f : CsrField) (i v : Nat) : (s.setF f i v).tookSes = s.tookSes := rfl
@[simp] theorem State.setF_rx (s : State) (f : CsrField) (i v : Nat) : (s.setF f i v).rx = s.rx := rfl
@[simp] theorem State.setF_tx (s : State) (f : CsrField) (i v : Nat) : (s.setF f i v).tx = s.tx := rfl
@[simp] theorem State.setF_ptp (s : State) (f : CsrField) (i v : Nat) : (s.setF f i v).ptp = s.ptp := rfl
@[simp] theorem State.setF_latch (s : State) (f : CsrField) (i v : Nat) : (s.setF f i v).latch = s.latch := rfl
@[simp] theorem State.setF_numVfs (s : State) (f : CsrField) (i v : Nat) : (s.setF f i v).numVfs = s.numVfs := rfl
@[simp] theorem State.setF_lq (s : State) (f : CsrField) (i v : Nat) : (s.setF f i v).lq = s.lq := rfl
@[simp] theorem State.setF_flr (s : State) (f : CsrField) (i v : Nat) : (s.setF f i v).flr = s.flr := rfl
@[simp] theorem State.setF_hostDeny (s : State) (f : CsrField) (i v : Nat) : (s.setF f i v).hostDeny = s.hostDeny := rfl
@[simp] theorem State.setF_sigDef (s : State) (f : CsrField) (i v : Nat) : (s.setF f i v).sigDef = s.sigDef := rfl
@[simp] theorem State.setF_dirtyAt (s : State) (f : CsrField) (i v : Nat) : (s.setF f i v).dirtyAt = s.dirtyAt := rfl
@[simp] theorem State.setF_bbt (s : State) (f : CsrField) (i v : Nat) : (s.setF f i v).bbt = s.bbt := rfl
@[simp] theorem State.setF_scrubbing (s : State) (f : CsrField) (i v : Nat) : (s.setF f i v).scrubbing = s.scrubbing := rfl
@[simp] theorem State.setF_memOwnNew (s : State) (f : CsrField) (i v : Nat) : (s.setF f i v).memOwnNew = s.memOwnNew := rfl
@[simp] theorem State.setF_l1New (s : State) (f : CsrField) (i v : Nat) : (s.setF f i v).l1New = s.l1New := rfl
@[simp] theorem State.setF_snap (s : State) (f : CsrField) (i v : Nat) : (s.setF f i v).snap = s.snap := rfl
@[simp] theorem State.setF_journal (s : State) (f : CsrField) (i v : Nat) : (s.setF f i v).journal = s.journal := rfl
@[simp] theorem State.setF_meas (s : State) (f : CsrField) (i v : Nat) : (s.setF f i v).meas = s.meas := rfl
@[simp] theorem State.setF_flash (s : State) (f : CsrField) (i v : Nat) : (s.setF f i v).flash = s.flash := rfl
@[simp] theorem State.setF_sjClear (s : State) (f : CsrField) (i v : Nat) : (s.setF f i v).sjClear = s.sjClear := rfl
@[simp] theorem State.setF_halted (s : State) (f : CsrField) (i v : Nat) : (s.setF f i v).halted = s.halted := rfl
@[simp] theorem State.setF_powered (s : State) (f : CsrField) (i v : Nat) : (s.setF f i v).powered = s.powered := rfl
@[simp] theorem State.setF_svcAwait (s : State) (f : CsrField) (i v : Nat) : (s.setF f i v).svcAwait = s.svcAwait := rfl
@[simp] theorem State.setF_hostEdits (s : State) (f : CsrField) (i v : Nat) : (s.setF f i v).hostEdits = s.hostEdits := rfl
@[simp] theorem State.setF_lg (s : State) (f : CsrField) (i v : Nat) : (s.setF f i v).lg = s.lg := rfl

/-! `State.modBank` -/

@[simp] theorem State.modBank_now (s : State) (b : Nat) (f : Bank → Bank) : (s.modBank b f).now = s.now := rfl
@[simp] theorem State.modBank_tickBase (s : State) (b : Nat) (f : Bank → Bank) : (s.modBank b f).tickBase = s.tickBase := rfl
@[simp] theorem State.modBank_seq (s : State) (b : Nat) (f : Bank → Bank) : (s.modBank b f).seq = s.seq := rfl
@[simp] theorem State.modBank_free (s : State) (b : Nat) (f : Bank → Bank) : (s.modBank b f).free = s.free := rfl
@[simp] theorem State.modBank_nextId (s : State) (b : Nat) (f : Bank → Bank) : (s.modBank b f).nextId = s.nextId := rfl
@[simp] theorem State.modBank_agenda (s : State) (b : Nat) (f : Bank → Bank) : (s.modBank b f).agenda = s.agenda := rfl
@[simp] theorem State.modBank_env (s : State) (b : Nat) (f : Bank → Bank) : (s.modBank b f).env = s.env := rfl
@[simp] theorem State.modBank_found (s : State) (b : Nat) (f : Bank → Bank) : (s.modBank b f).found = s.found := rfl
@[simp] theorem State.modBank_wants (s : State) (b : Nat) (f : Bank → Bank) : (s.modBank b f).wants = s.wants := rfl
@[simp] theorem State.modBank_issueQ (s : State) (b : Nat) (f : Bank → Bank) : (s.modBank b f).issueQ = s.issueQ := rfl
@[simp] theorem State.modBank_out (s : State) (b : Nat) (f : Bank → Bank) : (s.modBank b f).out = s.out := rfl
@[simp] theorem State.modBank_mem (s : State) (b : Nat) (f : Bank → Bank) : (s.modBank b f).mem = s.mem := rfl
@[simp] theorem State.modBank_csr (s : State) (b : Nat) (f : Bank → Bank) : (s.modBank b f).csr = s.csr := rfl
@[simp] theorem State.modBank_cores (s : State) (b : Nat) (f : Bank → Bank) : (s.modBank b f).cores = s.cores := rfl
@[simp] theorem State.modBank_clusters (s : State) (b : Nat) (f : Bank → Bank) : (s.modBank b f).clusters = s.clusters := rfl
@[simp] theorem State.modBank_dies (s : State) (b : Nat) (f : Bank → Bank) : (s.modBank b f).dies = s.dies := rfl
@[simp] theorem State.modBank_groups (s : State) (b : Nat) (f : Bank → Bank) : (s.modBank b f).groups = s.groups := rfl
@[simp] theorem State.modBank_streams (s : State) (b : Nat) (f : Bank → Bank) : (s.modBank b f).streams = s.streams := rfl
@[simp] theorem State.modBank_tasks (s : State) (b : Nat) (f : Bank → Bank) : (s.modBank b f).tasks = s.tasks := rfl
@[simp] theorem State.modBank_launches (s : State) (b : Nat) (f : Bank → Bank) : (s.modBank b f).launches = s.launches := rfl
@[simp] theorem State.modBank_cmds (s : State) (b : Nat) (f : Bank → Bank) : (s.modBank b f).cmds = s.cmds := rfl
@[simp] theorem State.modBank_ceTaken (s : State) (b : Nat) (f : Bank → Bank) : (s.modBank b f).ceTaken = s.ceTaken := rfl
@[simp] theorem State.modBank_loads (s : State) (b : Nat) (f : Bank → Bank) : (s.modBank b f).loads = s.loads := rfl
@[simp] theorem State.modBank_stores (s : State) (b : Nat) (f : Bank → Bank) : (s.modBank b f).stores = s.stores := rfl
@[simp] theorem State.modBank_atoms (s : State) (b : Nat) (f : Bank → Bank) : (s.modBank b f).atoms = s.atoms := rfl
@[simp] theorem State.modBank_barriers (s : State) (b : Nat) (f : Bank → Bank) : (s.modBank b f).barriers = s.barriers := rfl
@[simp] theorem State.modBank_allred (s : State) (b : Nat) (f : Bank → Bank) : (s.modBank b f).allred = s.allred := rfl
@[simp] theorem State.modBank_subs (s : State) (b : Nat) (f : Bank → Bank) : (s.modBank b f).subs = s.subs := rfl
@[simp] theorem State.modBank_bwsQ (s : State) (b : Nat) (f : Bank → Bank) : (s.modBank b f).bwsQ = s.bwsQ := rfl
@[simp] theorem State.modBank_ceTlb (s : State) (b : Nat) (f : Bank → Bank) : (s.modBank b f).ceTlb = s.ceTlb := rfl
@[simp] theorem State.modBank_mslTlb (s : State) (b : Nat) (f : Bank → Bank) : (s.modBank b f).mslTlb = s.mslTlb := rfl
@[simp] theorem State.modBank_ports (s : State) (b : Nat) (f : Bank → Bank) : (s.modBank b f).ports = s.ports := rfl
@[simp] theorem State.modBank_fabric (s : State) (b : Nat) (f : Bank → Bank) : (s.modBank b f).fabric = s.fabric := rfl
@[simp] theorem State.modBank_fabIn (s : State) (b : Nat) (f : Bank → Bank) : (s.modBank b f).fabIn = s.fabIn := rfl
@[simp] theorem State.modBank_ethUp (s : State) (b : Nat) (f : Bank → Bank) : (s.modBank b f).ethUp = s.ethUp := rfl
@[simp] theorem State.modBank_pairUp (s : State) (b : Nat) (f : Bank → Bank) : (s.modBank b f).pairUp = s.pairUp := rfl
@[simp] theorem State.modBank_crossDown (s : State) (b : Nat) (f : Bank → Bank) : (s.modBank b f).crossDown = s.crossDown := rfl
@[simp] theorem State.modBank_hif (s : State) (b : Nat) (f : Bank → Bank) : (s.modBank b f).hif = s.hif := rfl
@[simp] theorem State.modBank_energyLog (s : State) (b : Nat) (f : Bank → Bank) : (s.modBank b f).energyLog = s.energyLog := rfl
@[simp] theorem State.modBank_lowering (s : State) (b : Nat) (f : Bank → Bank) : (s.modBank b f).lowering = s.lowering := rfl
@[simp] theorem State.modBank_pairLost (s : State) (b : Nat) (f : Bank → Bank) : (s.modBank b f).pairLost = s.pairLost := rfl
@[simp] theorem State.modBank_pathFrom (s : State) (b : Nat) (f : Bank → Bank) : (s.modBank b f).pathFrom = s.pathFrom := rfl
@[simp] theorem State.modBank_tookSes (s : State) (b : Nat) (f : Bank → Bank) : (s.modBank b f).tookSes = s.tookSes := rfl
@[simp] theorem State.modBank_rx (s : State) (b : Nat) (f : Bank → Bank) : (s.modBank b f).rx = s.rx := rfl
@[simp] theorem State.modBank_tx (s : State) (b : Nat) (f : Bank → Bank) : (s.modBank b f).tx = s.tx := rfl
@[simp] theorem State.modBank_ptp (s : State) (b : Nat) (f : Bank → Bank) : (s.modBank b f).ptp = s.ptp := rfl
@[simp] theorem State.modBank_latch (s : State) (b : Nat) (f : Bank → Bank) : (s.modBank b f).latch = s.latch := rfl
@[simp] theorem State.modBank_numVfs (s : State) (b : Nat) (f : Bank → Bank) : (s.modBank b f).numVfs = s.numVfs := rfl
@[simp] theorem State.modBank_lq (s : State) (b : Nat) (f : Bank → Bank) : (s.modBank b f).lq = s.lq := rfl
@[simp] theorem State.modBank_flr (s : State) (b : Nat) (f : Bank → Bank) : (s.modBank b f).flr = s.flr := rfl
@[simp] theorem State.modBank_hostDeny (s : State) (b : Nat) (f : Bank → Bank) : (s.modBank b f).hostDeny = s.hostDeny := rfl
@[simp] theorem State.modBank_sigDef (s : State) (b : Nat) (f : Bank → Bank) : (s.modBank b f).sigDef = s.sigDef := rfl
@[simp] theorem State.modBank_dirtyAt (s : State) (b : Nat) (f : Bank → Bank) : (s.modBank b f).dirtyAt = s.dirtyAt := rfl
@[simp] theorem State.modBank_bbt (s : State) (b : Nat) (f : Bank → Bank) : (s.modBank b f).bbt = s.bbt := rfl
@[simp] theorem State.modBank_scrubbing (s : State) (b : Nat) (f : Bank → Bank) : (s.modBank b f).scrubbing = s.scrubbing := rfl
@[simp] theorem State.modBank_memOwnNew (s : State) (b : Nat) (f : Bank → Bank) : (s.modBank b f).memOwnNew = s.memOwnNew := rfl
@[simp] theorem State.modBank_l1New (s : State) (b : Nat) (f : Bank → Bank) : (s.modBank b f).l1New = s.l1New := rfl
@[simp] theorem State.modBank_snap (s : State) (b : Nat) (f : Bank → Bank) : (s.modBank b f).snap = s.snap := rfl
@[simp] theorem State.modBank_journal (s : State) (b : Nat) (f : Bank → Bank) : (s.modBank b f).journal = s.journal := rfl
@[simp] theorem State.modBank_meas (s : State) (b : Nat) (f : Bank → Bank) : (s.modBank b f).meas = s.meas := rfl
@[simp] theorem State.modBank_flash (s : State) (b : Nat) (f : Bank → Bank) : (s.modBank b f).flash = s.flash := rfl
@[simp] theorem State.modBank_sjClear (s : State) (b : Nat) (f : Bank → Bank) : (s.modBank b f).sjClear = s.sjClear := rfl
@[simp] theorem State.modBank_halted (s : State) (b : Nat) (f : Bank → Bank) : (s.modBank b f).halted = s.halted := rfl
@[simp] theorem State.modBank_powered (s : State) (b : Nat) (f : Bank → Bank) : (s.modBank b f).powered = s.powered := rfl
@[simp] theorem State.modBank_svcAwait (s : State) (b : Nat) (f : Bank → Bank) : (s.modBank b f).svcAwait = s.svcAwait := rfl
@[simp] theorem State.modBank_hostEdits (s : State) (b : Nat) (f : Bank → Bank) : (s.modBank b f).hostEdits = s.hostEdits := rfl
@[simp] theorem State.modBank_lg (s : State) (b : Nat) (f : Bank → Bank) : (s.modBank b f).lg = s.lg := rfl

/-! `State.modCore` -/

@[simp] theorem State.modCore_now (s : State) (c : Nat) (f : CoreSt → CoreSt) : (s.modCore c f).now = s.now := rfl
@[simp] theorem State.modCore_tickBase (s : State) (c : Nat) (f : CoreSt → CoreSt) : (s.modCore c f).tickBase = s.tickBase := rfl
@[simp] theorem State.modCore_seq (s : State) (c : Nat) (f : CoreSt → CoreSt) : (s.modCore c f).seq = s.seq := rfl
@[simp] theorem State.modCore_free (s : State) (c : Nat) (f : CoreSt → CoreSt) : (s.modCore c f).free = s.free := rfl
@[simp] theorem State.modCore_nextId (s : State) (c : Nat) (f : CoreSt → CoreSt) : (s.modCore c f).nextId = s.nextId := rfl
@[simp] theorem State.modCore_agenda (s : State) (c : Nat) (f : CoreSt → CoreSt) : (s.modCore c f).agenda = s.agenda := rfl
@[simp] theorem State.modCore_env (s : State) (c : Nat) (f : CoreSt → CoreSt) : (s.modCore c f).env = s.env := rfl
@[simp] theorem State.modCore_found (s : State) (c : Nat) (f : CoreSt → CoreSt) : (s.modCore c f).found = s.found := rfl
@[simp] theorem State.modCore_wants (s : State) (c : Nat) (f : CoreSt → CoreSt) : (s.modCore c f).wants = s.wants := rfl
@[simp] theorem State.modCore_issueQ (s : State) (c : Nat) (f : CoreSt → CoreSt) : (s.modCore c f).issueQ = s.issueQ := rfl
@[simp] theorem State.modCore_out (s : State) (c : Nat) (f : CoreSt → CoreSt) : (s.modCore c f).out = s.out := rfl
@[simp] theorem State.modCore_mem (s : State) (c : Nat) (f : CoreSt → CoreSt) : (s.modCore c f).mem = s.mem := rfl
@[simp] theorem State.modCore_csr (s : State) (c : Nat) (f : CoreSt → CoreSt) : (s.modCore c f).csr = s.csr := rfl
@[simp] theorem State.modCore_banks (s : State) (c : Nat) (f : CoreSt → CoreSt) : (s.modCore c f).banks = s.banks := rfl
@[simp] theorem State.modCore_clusters (s : State) (c : Nat) (f : CoreSt → CoreSt) : (s.modCore c f).clusters = s.clusters := rfl
@[simp] theorem State.modCore_dies (s : State) (c : Nat) (f : CoreSt → CoreSt) : (s.modCore c f).dies = s.dies := rfl
@[simp] theorem State.modCore_groups (s : State) (c : Nat) (f : CoreSt → CoreSt) : (s.modCore c f).groups = s.groups := rfl
@[simp] theorem State.modCore_streams (s : State) (c : Nat) (f : CoreSt → CoreSt) : (s.modCore c f).streams = s.streams := rfl
@[simp] theorem State.modCore_tasks (s : State) (c : Nat) (f : CoreSt → CoreSt) : (s.modCore c f).tasks = s.tasks := rfl
@[simp] theorem State.modCore_launches (s : State) (c : Nat) (f : CoreSt → CoreSt) : (s.modCore c f).launches = s.launches := rfl
@[simp] theorem State.modCore_cmds (s : State) (c : Nat) (f : CoreSt → CoreSt) : (s.modCore c f).cmds = s.cmds := rfl
@[simp] theorem State.modCore_ceTaken (s : State) (c : Nat) (f : CoreSt → CoreSt) : (s.modCore c f).ceTaken = s.ceTaken := rfl
@[simp] theorem State.modCore_loads (s : State) (c : Nat) (f : CoreSt → CoreSt) : (s.modCore c f).loads = s.loads := rfl
@[simp] theorem State.modCore_stores (s : State) (c : Nat) (f : CoreSt → CoreSt) : (s.modCore c f).stores = s.stores := rfl
@[simp] theorem State.modCore_atoms (s : State) (c : Nat) (f : CoreSt → CoreSt) : (s.modCore c f).atoms = s.atoms := rfl
@[simp] theorem State.modCore_barriers (s : State) (c : Nat) (f : CoreSt → CoreSt) : (s.modCore c f).barriers = s.barriers := rfl
@[simp] theorem State.modCore_allred (s : State) (c : Nat) (f : CoreSt → CoreSt) : (s.modCore c f).allred = s.allred := rfl
@[simp] theorem State.modCore_subs (s : State) (c : Nat) (f : CoreSt → CoreSt) : (s.modCore c f).subs = s.subs := rfl
@[simp] theorem State.modCore_bwsQ (s : State) (c : Nat) (f : CoreSt → CoreSt) : (s.modCore c f).bwsQ = s.bwsQ := rfl
@[simp] theorem State.modCore_ceTlb (s : State) (c : Nat) (f : CoreSt → CoreSt) : (s.modCore c f).ceTlb = s.ceTlb := rfl
@[simp] theorem State.modCore_mslTlb (s : State) (c : Nat) (f : CoreSt → CoreSt) : (s.modCore c f).mslTlb = s.mslTlb := rfl
@[simp] theorem State.modCore_ports (s : State) (c : Nat) (f : CoreSt → CoreSt) : (s.modCore c f).ports = s.ports := rfl
@[simp] theorem State.modCore_fabric (s : State) (c : Nat) (f : CoreSt → CoreSt) : (s.modCore c f).fabric = s.fabric := rfl
@[simp] theorem State.modCore_fabIn (s : State) (c : Nat) (f : CoreSt → CoreSt) : (s.modCore c f).fabIn = s.fabIn := rfl
@[simp] theorem State.modCore_ethUp (s : State) (c : Nat) (f : CoreSt → CoreSt) : (s.modCore c f).ethUp = s.ethUp := rfl
@[simp] theorem State.modCore_pairUp (s : State) (c : Nat) (f : CoreSt → CoreSt) : (s.modCore c f).pairUp = s.pairUp := rfl
@[simp] theorem State.modCore_crossDown (s : State) (c : Nat) (f : CoreSt → CoreSt) : (s.modCore c f).crossDown = s.crossDown := rfl
@[simp] theorem State.modCore_hif (s : State) (c : Nat) (f : CoreSt → CoreSt) : (s.modCore c f).hif = s.hif := rfl
@[simp] theorem State.modCore_energyLog (s : State) (c : Nat) (f : CoreSt → CoreSt) : (s.modCore c f).energyLog = s.energyLog := rfl
@[simp] theorem State.modCore_lowering (s : State) (c : Nat) (f : CoreSt → CoreSt) : (s.modCore c f).lowering = s.lowering := rfl
@[simp] theorem State.modCore_pairLost (s : State) (c : Nat) (f : CoreSt → CoreSt) : (s.modCore c f).pairLost = s.pairLost := rfl
@[simp] theorem State.modCore_pathFrom (s : State) (c : Nat) (f : CoreSt → CoreSt) : (s.modCore c f).pathFrom = s.pathFrom := rfl
@[simp] theorem State.modCore_tookSes (s : State) (c : Nat) (f : CoreSt → CoreSt) : (s.modCore c f).tookSes = s.tookSes := rfl
@[simp] theorem State.modCore_rx (s : State) (c : Nat) (f : CoreSt → CoreSt) : (s.modCore c f).rx = s.rx := rfl
@[simp] theorem State.modCore_tx (s : State) (c : Nat) (f : CoreSt → CoreSt) : (s.modCore c f).tx = s.tx := rfl
@[simp] theorem State.modCore_ptp (s : State) (c : Nat) (f : CoreSt → CoreSt) : (s.modCore c f).ptp = s.ptp := rfl
@[simp] theorem State.modCore_latch (s : State) (c : Nat) (f : CoreSt → CoreSt) : (s.modCore c f).latch = s.latch := rfl
@[simp] theorem State.modCore_numVfs (s : State) (c : Nat) (f : CoreSt → CoreSt) : (s.modCore c f).numVfs = s.numVfs := rfl
@[simp] theorem State.modCore_lq (s : State) (c : Nat) (f : CoreSt → CoreSt) : (s.modCore c f).lq = s.lq := rfl
@[simp] theorem State.modCore_flr (s : State) (c : Nat) (f : CoreSt → CoreSt) : (s.modCore c f).flr = s.flr := rfl
@[simp] theorem State.modCore_hostDeny (s : State) (c : Nat) (f : CoreSt → CoreSt) : (s.modCore c f).hostDeny = s.hostDeny := rfl
@[simp] theorem State.modCore_sigDef (s : State) (c : Nat) (f : CoreSt → CoreSt) : (s.modCore c f).sigDef = s.sigDef := rfl
@[simp] theorem State.modCore_dirtyAt (s : State) (c : Nat) (f : CoreSt → CoreSt) : (s.modCore c f).dirtyAt = s.dirtyAt := rfl
@[simp] theorem State.modCore_bbt (s : State) (c : Nat) (f : CoreSt → CoreSt) : (s.modCore c f).bbt = s.bbt := rfl
@[simp] theorem State.modCore_scrubbing (s : State) (c : Nat) (f : CoreSt → CoreSt) : (s.modCore c f).scrubbing = s.scrubbing := rfl
@[simp] theorem State.modCore_memOwnNew (s : State) (c : Nat) (f : CoreSt → CoreSt) : (s.modCore c f).memOwnNew = s.memOwnNew := rfl
@[simp] theorem State.modCore_l1New (s : State) (c : Nat) (f : CoreSt → CoreSt) : (s.modCore c f).l1New = s.l1New := rfl
@[simp] theorem State.modCore_snap (s : State) (c : Nat) (f : CoreSt → CoreSt) : (s.modCore c f).snap = s.snap := rfl
@[simp] theorem State.modCore_journal (s : State) (c : Nat) (f : CoreSt → CoreSt) : (s.modCore c f).journal = s.journal := rfl
@[simp] theorem State.modCore_meas (s : State) (c : Nat) (f : CoreSt → CoreSt) : (s.modCore c f).meas = s.meas := rfl
@[simp] theorem State.modCore_flash (s : State) (c : Nat) (f : CoreSt → CoreSt) : (s.modCore c f).flash = s.flash := rfl
@[simp] theorem State.modCore_sjClear (s : State) (c : Nat) (f : CoreSt → CoreSt) : (s.modCore c f).sjClear = s.sjClear := rfl
@[simp] theorem State.modCore_halted (s : State) (c : Nat) (f : CoreSt → CoreSt) : (s.modCore c f).halted = s.halted := rfl
@[simp] theorem State.modCore_powered (s : State) (c : Nat) (f : CoreSt → CoreSt) : (s.modCore c f).powered = s.powered := rfl
@[simp] theorem State.modCore_svcAwait (s : State) (c : Nat) (f : CoreSt → CoreSt) : (s.modCore c f).svcAwait = s.svcAwait := rfl
@[simp] theorem State.modCore_hostEdits (s : State) (c : Nat) (f : CoreSt → CoreSt) : (s.modCore c f).hostEdits = s.hostEdits := rfl
@[simp] theorem State.modCore_lg (s : State) (c : Nat) (f : CoreSt → CoreSt) : (s.modCore c f).lg = s.lg := rfl

/-! `State.modCluster` -/

@[simp] theorem State.modCluster_now (s : State) (c : Nat) (f : ClusterSt → ClusterSt) : (s.modCluster c f).now = s.now := rfl
@[simp] theorem State.modCluster_tickBase (s : State) (c : Nat) (f : ClusterSt → ClusterSt) : (s.modCluster c f).tickBase = s.tickBase := rfl
@[simp] theorem State.modCluster_seq (s : State) (c : Nat) (f : ClusterSt → ClusterSt) : (s.modCluster c f).seq = s.seq := rfl
@[simp] theorem State.modCluster_free (s : State) (c : Nat) (f : ClusterSt → ClusterSt) : (s.modCluster c f).free = s.free := rfl
@[simp] theorem State.modCluster_nextId (s : State) (c : Nat) (f : ClusterSt → ClusterSt) : (s.modCluster c f).nextId = s.nextId := rfl
@[simp] theorem State.modCluster_agenda (s : State) (c : Nat) (f : ClusterSt → ClusterSt) : (s.modCluster c f).agenda = s.agenda := rfl
@[simp] theorem State.modCluster_env (s : State) (c : Nat) (f : ClusterSt → ClusterSt) : (s.modCluster c f).env = s.env := rfl
@[simp] theorem State.modCluster_found (s : State) (c : Nat) (f : ClusterSt → ClusterSt) : (s.modCluster c f).found = s.found := rfl
@[simp] theorem State.modCluster_wants (s : State) (c : Nat) (f : ClusterSt → ClusterSt) : (s.modCluster c f).wants = s.wants := rfl
@[simp] theorem State.modCluster_issueQ (s : State) (c : Nat) (f : ClusterSt → ClusterSt) : (s.modCluster c f).issueQ = s.issueQ := rfl
@[simp] theorem State.modCluster_out (s : State) (c : Nat) (f : ClusterSt → ClusterSt) : (s.modCluster c f).out = s.out := rfl
@[simp] theorem State.modCluster_mem (s : State) (c : Nat) (f : ClusterSt → ClusterSt) : (s.modCluster c f).mem = s.mem := rfl
@[simp] theorem State.modCluster_csr (s : State) (c : Nat) (f : ClusterSt → ClusterSt) : (s.modCluster c f).csr = s.csr := rfl
@[simp] theorem State.modCluster_banks (s : State) (c : Nat) (f : ClusterSt → ClusterSt) : (s.modCluster c f).banks = s.banks := rfl
@[simp] theorem State.modCluster_cores (s : State) (c : Nat) (f : ClusterSt → ClusterSt) : (s.modCluster c f).cores = s.cores := rfl
@[simp] theorem State.modCluster_dies (s : State) (c : Nat) (f : ClusterSt → ClusterSt) : (s.modCluster c f).dies = s.dies := rfl
@[simp] theorem State.modCluster_groups (s : State) (c : Nat) (f : ClusterSt → ClusterSt) : (s.modCluster c f).groups = s.groups := rfl
@[simp] theorem State.modCluster_streams (s : State) (c : Nat) (f : ClusterSt → ClusterSt) : (s.modCluster c f).streams = s.streams := rfl
@[simp] theorem State.modCluster_tasks (s : State) (c : Nat) (f : ClusterSt → ClusterSt) : (s.modCluster c f).tasks = s.tasks := rfl
@[simp] theorem State.modCluster_launches (s : State) (c : Nat) (f : ClusterSt → ClusterSt) : (s.modCluster c f).launches = s.launches := rfl
@[simp] theorem State.modCluster_cmds (s : State) (c : Nat) (f : ClusterSt → ClusterSt) : (s.modCluster c f).cmds = s.cmds := rfl
@[simp] theorem State.modCluster_ceTaken (s : State) (c : Nat) (f : ClusterSt → ClusterSt) : (s.modCluster c f).ceTaken = s.ceTaken := rfl
@[simp] theorem State.modCluster_loads (s : State) (c : Nat) (f : ClusterSt → ClusterSt) : (s.modCluster c f).loads = s.loads := rfl
@[simp] theorem State.modCluster_stores (s : State) (c : Nat) (f : ClusterSt → ClusterSt) : (s.modCluster c f).stores = s.stores := rfl
@[simp] theorem State.modCluster_atoms (s : State) (c : Nat) (f : ClusterSt → ClusterSt) : (s.modCluster c f).atoms = s.atoms := rfl
@[simp] theorem State.modCluster_barriers (s : State) (c : Nat) (f : ClusterSt → ClusterSt) : (s.modCluster c f).barriers = s.barriers := rfl
@[simp] theorem State.modCluster_allred (s : State) (c : Nat) (f : ClusterSt → ClusterSt) : (s.modCluster c f).allred = s.allred := rfl
@[simp] theorem State.modCluster_subs (s : State) (c : Nat) (f : ClusterSt → ClusterSt) : (s.modCluster c f).subs = s.subs := rfl
@[simp] theorem State.modCluster_bwsQ (s : State) (c : Nat) (f : ClusterSt → ClusterSt) : (s.modCluster c f).bwsQ = s.bwsQ := rfl
@[simp] theorem State.modCluster_ceTlb (s : State) (c : Nat) (f : ClusterSt → ClusterSt) : (s.modCluster c f).ceTlb = s.ceTlb := rfl
@[simp] theorem State.modCluster_mslTlb (s : State) (c : Nat) (f : ClusterSt → ClusterSt) : (s.modCluster c f).mslTlb = s.mslTlb := rfl
@[simp] theorem State.modCluster_ports (s : State) (c : Nat) (f : ClusterSt → ClusterSt) : (s.modCluster c f).ports = s.ports := rfl
@[simp] theorem State.modCluster_fabric (s : State) (c : Nat) (f : ClusterSt → ClusterSt) : (s.modCluster c f).fabric = s.fabric := rfl
@[simp] theorem State.modCluster_fabIn (s : State) (c : Nat) (f : ClusterSt → ClusterSt) : (s.modCluster c f).fabIn = s.fabIn := rfl
@[simp] theorem State.modCluster_ethUp (s : State) (c : Nat) (f : ClusterSt → ClusterSt) : (s.modCluster c f).ethUp = s.ethUp := rfl
@[simp] theorem State.modCluster_pairUp (s : State) (c : Nat) (f : ClusterSt → ClusterSt) : (s.modCluster c f).pairUp = s.pairUp := rfl
@[simp] theorem State.modCluster_crossDown (s : State) (c : Nat) (f : ClusterSt → ClusterSt) : (s.modCluster c f).crossDown = s.crossDown := rfl
@[simp] theorem State.modCluster_hif (s : State) (c : Nat) (f : ClusterSt → ClusterSt) : (s.modCluster c f).hif = s.hif := rfl
@[simp] theorem State.modCluster_energyLog (s : State) (c : Nat) (f : ClusterSt → ClusterSt) : (s.modCluster c f).energyLog = s.energyLog := rfl
@[simp] theorem State.modCluster_lowering (s : State) (c : Nat) (f : ClusterSt → ClusterSt) : (s.modCluster c f).lowering = s.lowering := rfl
@[simp] theorem State.modCluster_pairLost (s : State) (c : Nat) (f : ClusterSt → ClusterSt) : (s.modCluster c f).pairLost = s.pairLost := rfl
@[simp] theorem State.modCluster_pathFrom (s : State) (c : Nat) (f : ClusterSt → ClusterSt) : (s.modCluster c f).pathFrom = s.pathFrom := rfl
@[simp] theorem State.modCluster_tookSes (s : State) (c : Nat) (f : ClusterSt → ClusterSt) : (s.modCluster c f).tookSes = s.tookSes := rfl
@[simp] theorem State.modCluster_rx (s : State) (c : Nat) (f : ClusterSt → ClusterSt) : (s.modCluster c f).rx = s.rx := rfl
@[simp] theorem State.modCluster_tx (s : State) (c : Nat) (f : ClusterSt → ClusterSt) : (s.modCluster c f).tx = s.tx := rfl
@[simp] theorem State.modCluster_ptp (s : State) (c : Nat) (f : ClusterSt → ClusterSt) : (s.modCluster c f).ptp = s.ptp := rfl
@[simp] theorem State.modCluster_latch (s : State) (c : Nat) (f : ClusterSt → ClusterSt) : (s.modCluster c f).latch = s.latch := rfl
@[simp] theorem State.modCluster_numVfs (s : State) (c : Nat) (f : ClusterSt → ClusterSt) : (s.modCluster c f).numVfs = s.numVfs := rfl
@[simp] theorem State.modCluster_lq (s : State) (c : Nat) (f : ClusterSt → ClusterSt) : (s.modCluster c f).lq = s.lq := rfl
@[simp] theorem State.modCluster_flr (s : State) (c : Nat) (f : ClusterSt → ClusterSt) : (s.modCluster c f).flr = s.flr := rfl
@[simp] theorem State.modCluster_hostDeny (s : State) (c : Nat) (f : ClusterSt → ClusterSt) : (s.modCluster c f).hostDeny = s.hostDeny := rfl
@[simp] theorem State.modCluster_sigDef (s : State) (c : Nat) (f : ClusterSt → ClusterSt) : (s.modCluster c f).sigDef = s.sigDef := rfl
@[simp] theorem State.modCluster_dirtyAt (s : State) (c : Nat) (f : ClusterSt → ClusterSt) : (s.modCluster c f).dirtyAt = s.dirtyAt := rfl
@[simp] theorem State.modCluster_bbt (s : State) (c : Nat) (f : ClusterSt → ClusterSt) : (s.modCluster c f).bbt = s.bbt := rfl
@[simp] theorem State.modCluster_scrubbing (s : State) (c : Nat) (f : ClusterSt → ClusterSt) : (s.modCluster c f).scrubbing = s.scrubbing := rfl
@[simp] theorem State.modCluster_memOwnNew (s : State) (c : Nat) (f : ClusterSt → ClusterSt) : (s.modCluster c f).memOwnNew = s.memOwnNew := rfl
@[simp] theorem State.modCluster_l1New (s : State) (c : Nat) (f : ClusterSt → ClusterSt) : (s.modCluster c f).l1New = s.l1New := rfl
@[simp] theorem State.modCluster_snap (s : State) (c : Nat) (f : ClusterSt → ClusterSt) : (s.modCluster c f).snap = s.snap := rfl
@[simp] theorem State.modCluster_journal (s : State) (c : Nat) (f : ClusterSt → ClusterSt) : (s.modCluster c f).journal = s.journal := rfl
@[simp] theorem State.modCluster_meas (s : State) (c : Nat) (f : ClusterSt → ClusterSt) : (s.modCluster c f).meas = s.meas := rfl
@[simp] theorem State.modCluster_flash (s : State) (c : Nat) (f : ClusterSt → ClusterSt) : (s.modCluster c f).flash = s.flash := rfl
@[simp] theorem State.modCluster_sjClear (s : State) (c : Nat) (f : ClusterSt → ClusterSt) : (s.modCluster c f).sjClear = s.sjClear := rfl
@[simp] theorem State.modCluster_halted (s : State) (c : Nat) (f : ClusterSt → ClusterSt) : (s.modCluster c f).halted = s.halted := rfl
@[simp] theorem State.modCluster_powered (s : State) (c : Nat) (f : ClusterSt → ClusterSt) : (s.modCluster c f).powered = s.powered := rfl
@[simp] theorem State.modCluster_svcAwait (s : State) (c : Nat) (f : ClusterSt → ClusterSt) : (s.modCluster c f).svcAwait = s.svcAwait := rfl
@[simp] theorem State.modCluster_hostEdits (s : State) (c : Nat) (f : ClusterSt → ClusterSt) : (s.modCluster c f).hostEdits = s.hostEdits := rfl
@[simp] theorem State.modCluster_lg (s : State) (c : Nat) (f : ClusterSt → ClusterSt) : (s.modCluster c f).lg = s.lg := rfl

/-! `State.modDie` -/

@[simp] theorem State.modDie_now (s : State) (d : Nat) (f : DieSt → DieSt) : (s.modDie d f).now = s.now := rfl
@[simp] theorem State.modDie_tickBase (s : State) (d : Nat) (f : DieSt → DieSt) : (s.modDie d f).tickBase = s.tickBase := rfl
@[simp] theorem State.modDie_seq (s : State) (d : Nat) (f : DieSt → DieSt) : (s.modDie d f).seq = s.seq := rfl
@[simp] theorem State.modDie_free (s : State) (d : Nat) (f : DieSt → DieSt) : (s.modDie d f).free = s.free := rfl
@[simp] theorem State.modDie_nextId (s : State) (d : Nat) (f : DieSt → DieSt) : (s.modDie d f).nextId = s.nextId := rfl
@[simp] theorem State.modDie_agenda (s : State) (d : Nat) (f : DieSt → DieSt) : (s.modDie d f).agenda = s.agenda := rfl
@[simp] theorem State.modDie_env (s : State) (d : Nat) (f : DieSt → DieSt) : (s.modDie d f).env = s.env := rfl
@[simp] theorem State.modDie_found (s : State) (d : Nat) (f : DieSt → DieSt) : (s.modDie d f).found = s.found := rfl
@[simp] theorem State.modDie_wants (s : State) (d : Nat) (f : DieSt → DieSt) : (s.modDie d f).wants = s.wants := rfl
@[simp] theorem State.modDie_issueQ (s : State) (d : Nat) (f : DieSt → DieSt) : (s.modDie d f).issueQ = s.issueQ := rfl
@[simp] theorem State.modDie_out (s : State) (d : Nat) (f : DieSt → DieSt) : (s.modDie d f).out = s.out := rfl
@[simp] theorem State.modDie_mem (s : State) (d : Nat) (f : DieSt → DieSt) : (s.modDie d f).mem = s.mem := rfl
@[simp] theorem State.modDie_csr (s : State) (d : Nat) (f : DieSt → DieSt) : (s.modDie d f).csr = s.csr := rfl
@[simp] theorem State.modDie_banks (s : State) (d : Nat) (f : DieSt → DieSt) : (s.modDie d f).banks = s.banks := rfl
@[simp] theorem State.modDie_cores (s : State) (d : Nat) (f : DieSt → DieSt) : (s.modDie d f).cores = s.cores := rfl
@[simp] theorem State.modDie_clusters (s : State) (d : Nat) (f : DieSt → DieSt) : (s.modDie d f).clusters = s.clusters := rfl
@[simp] theorem State.modDie_groups (s : State) (d : Nat) (f : DieSt → DieSt) : (s.modDie d f).groups = s.groups := rfl
@[simp] theorem State.modDie_streams (s : State) (d : Nat) (f : DieSt → DieSt) : (s.modDie d f).streams = s.streams := rfl
@[simp] theorem State.modDie_tasks (s : State) (d : Nat) (f : DieSt → DieSt) : (s.modDie d f).tasks = s.tasks := rfl
@[simp] theorem State.modDie_launches (s : State) (d : Nat) (f : DieSt → DieSt) : (s.modDie d f).launches = s.launches := rfl
@[simp] theorem State.modDie_cmds (s : State) (d : Nat) (f : DieSt → DieSt) : (s.modDie d f).cmds = s.cmds := rfl
@[simp] theorem State.modDie_ceTaken (s : State) (d : Nat) (f : DieSt → DieSt) : (s.modDie d f).ceTaken = s.ceTaken := rfl
@[simp] theorem State.modDie_loads (s : State) (d : Nat) (f : DieSt → DieSt) : (s.modDie d f).loads = s.loads := rfl
@[simp] theorem State.modDie_stores (s : State) (d : Nat) (f : DieSt → DieSt) : (s.modDie d f).stores = s.stores := rfl
@[simp] theorem State.modDie_atoms (s : State) (d : Nat) (f : DieSt → DieSt) : (s.modDie d f).atoms = s.atoms := rfl
@[simp] theorem State.modDie_barriers (s : State) (d : Nat) (f : DieSt → DieSt) : (s.modDie d f).barriers = s.barriers := rfl
@[simp] theorem State.modDie_allred (s : State) (d : Nat) (f : DieSt → DieSt) : (s.modDie d f).allred = s.allred := rfl
@[simp] theorem State.modDie_subs (s : State) (d : Nat) (f : DieSt → DieSt) : (s.modDie d f).subs = s.subs := rfl
@[simp] theorem State.modDie_bwsQ (s : State) (d : Nat) (f : DieSt → DieSt) : (s.modDie d f).bwsQ = s.bwsQ := rfl
@[simp] theorem State.modDie_ceTlb (s : State) (d : Nat) (f : DieSt → DieSt) : (s.modDie d f).ceTlb = s.ceTlb := rfl
@[simp] theorem State.modDie_mslTlb (s : State) (d : Nat) (f : DieSt → DieSt) : (s.modDie d f).mslTlb = s.mslTlb := rfl
@[simp] theorem State.modDie_ports (s : State) (d : Nat) (f : DieSt → DieSt) : (s.modDie d f).ports = s.ports := rfl
@[simp] theorem State.modDie_fabric (s : State) (d : Nat) (f : DieSt → DieSt) : (s.modDie d f).fabric = s.fabric := rfl
@[simp] theorem State.modDie_fabIn (s : State) (d : Nat) (f : DieSt → DieSt) : (s.modDie d f).fabIn = s.fabIn := rfl
@[simp] theorem State.modDie_ethUp (s : State) (d : Nat) (f : DieSt → DieSt) : (s.modDie d f).ethUp = s.ethUp := rfl
@[simp] theorem State.modDie_pairUp (s : State) (d : Nat) (f : DieSt → DieSt) : (s.modDie d f).pairUp = s.pairUp := rfl
@[simp] theorem State.modDie_crossDown (s : State) (d : Nat) (f : DieSt → DieSt) : (s.modDie d f).crossDown = s.crossDown := rfl
@[simp] theorem State.modDie_hif (s : State) (d : Nat) (f : DieSt → DieSt) : (s.modDie d f).hif = s.hif := rfl
@[simp] theorem State.modDie_energyLog (s : State) (d : Nat) (f : DieSt → DieSt) : (s.modDie d f).energyLog = s.energyLog := rfl
@[simp] theorem State.modDie_lowering (s : State) (d : Nat) (f : DieSt → DieSt) : (s.modDie d f).lowering = s.lowering := rfl
@[simp] theorem State.modDie_pairLost (s : State) (d : Nat) (f : DieSt → DieSt) : (s.modDie d f).pairLost = s.pairLost := rfl
@[simp] theorem State.modDie_pathFrom (s : State) (d : Nat) (f : DieSt → DieSt) : (s.modDie d f).pathFrom = s.pathFrom := rfl
@[simp] theorem State.modDie_tookSes (s : State) (d : Nat) (f : DieSt → DieSt) : (s.modDie d f).tookSes = s.tookSes := rfl
@[simp] theorem State.modDie_rx (s : State) (d : Nat) (f : DieSt → DieSt) : (s.modDie d f).rx = s.rx := rfl
@[simp] theorem State.modDie_tx (s : State) (d : Nat) (f : DieSt → DieSt) : (s.modDie d f).tx = s.tx := rfl
@[simp] theorem State.modDie_ptp (s : State) (d : Nat) (f : DieSt → DieSt) : (s.modDie d f).ptp = s.ptp := rfl
@[simp] theorem State.modDie_latch (s : State) (d : Nat) (f : DieSt → DieSt) : (s.modDie d f).latch = s.latch := rfl
@[simp] theorem State.modDie_numVfs (s : State) (d : Nat) (f : DieSt → DieSt) : (s.modDie d f).numVfs = s.numVfs := rfl
@[simp] theorem State.modDie_lq (s : State) (d : Nat) (f : DieSt → DieSt) : (s.modDie d f).lq = s.lq := rfl
@[simp] theorem State.modDie_flr (s : State) (d : Nat) (f : DieSt → DieSt) : (s.modDie d f).flr = s.flr := rfl
@[simp] theorem State.modDie_hostDeny (s : State) (d : Nat) (f : DieSt → DieSt) : (s.modDie d f).hostDeny = s.hostDeny := rfl
@[simp] theorem State.modDie_sigDef (s : State) (d : Nat) (f : DieSt → DieSt) : (s.modDie d f).sigDef = s.sigDef := rfl
@[simp] theorem State.modDie_dirtyAt (s : State) (d : Nat) (f : DieSt → DieSt) : (s.modDie d f).dirtyAt = s.dirtyAt := rfl
@[simp] theorem State.modDie_bbt (s : State) (d : Nat) (f : DieSt → DieSt) : (s.modDie d f).bbt = s.bbt := rfl
@[simp] theorem State.modDie_scrubbing (s : State) (d : Nat) (f : DieSt → DieSt) : (s.modDie d f).scrubbing = s.scrubbing := rfl
@[simp] theorem State.modDie_memOwnNew (s : State) (d : Nat) (f : DieSt → DieSt) : (s.modDie d f).memOwnNew = s.memOwnNew := rfl
@[simp] theorem State.modDie_l1New (s : State) (d : Nat) (f : DieSt → DieSt) : (s.modDie d f).l1New = s.l1New := rfl
@[simp] theorem State.modDie_snap (s : State) (d : Nat) (f : DieSt → DieSt) : (s.modDie d f).snap = s.snap := rfl
@[simp] theorem State.modDie_journal (s : State) (d : Nat) (f : DieSt → DieSt) : (s.modDie d f).journal = s.journal := rfl
@[simp] theorem State.modDie_meas (s : State) (d : Nat) (f : DieSt → DieSt) : (s.modDie d f).meas = s.meas := rfl
@[simp] theorem State.modDie_flash (s : State) (d : Nat) (f : DieSt → DieSt) : (s.modDie d f).flash = s.flash := rfl
@[simp] theorem State.modDie_sjClear (s : State) (d : Nat) (f : DieSt → DieSt) : (s.modDie d f).sjClear = s.sjClear := rfl
@[simp] theorem State.modDie_halted (s : State) (d : Nat) (f : DieSt → DieSt) : (s.modDie d f).halted = s.halted := rfl
@[simp] theorem State.modDie_powered (s : State) (d : Nat) (f : DieSt → DieSt) : (s.modDie d f).powered = s.powered := rfl
@[simp] theorem State.modDie_svcAwait (s : State) (d : Nat) (f : DieSt → DieSt) : (s.modDie d f).svcAwait = s.svcAwait := rfl
@[simp] theorem State.modDie_hostEdits (s : State) (d : Nat) (f : DieSt → DieSt) : (s.modDie d f).hostEdits = s.hostEdits := rfl
@[simp] theorem State.modDie_lg (s : State) (d : Nat) (f : DieSt → DieSt) : (s.modDie d f).lg = s.lg := rfl

/-! `State.modGroup` -/

@[simp] theorem State.modGroup_now (s : State) (g : Nat) (f : Group → Group) : (s.modGroup g f).now = s.now := rfl
@[simp] theorem State.modGroup_tickBase (s : State) (g : Nat) (f : Group → Group) : (s.modGroup g f).tickBase = s.tickBase := rfl
@[simp] theorem State.modGroup_seq (s : State) (g : Nat) (f : Group → Group) : (s.modGroup g f).seq = s.seq := rfl
@[simp] theorem State.modGroup_free (s : State) (g : Nat) (f : Group → Group) : (s.modGroup g f).free = s.free := rfl
@[simp] theorem State.modGroup_nextId (s : State) (g : Nat) (f : Group → Group) : (s.modGroup g f).nextId = s.nextId := rfl
@[simp] theorem State.modGroup_agenda (s : State) (g : Nat) (f : Group → Group) : (s.modGroup g f).agenda = s.agenda := rfl
@[simp] theorem State.modGroup_env (s : State) (g : Nat) (f : Group → Group) : (s.modGroup g f).env = s.env := rfl
@[simp] theorem State.modGroup_found (s : State) (g : Nat) (f : Group → Group) : (s.modGroup g f).found = s.found := rfl
@[simp] theorem State.modGroup_wants (s : State) (g : Nat) (f : Group → Group) : (s.modGroup g f).wants = s.wants := rfl
@[simp] theorem State.modGroup_issueQ (s : State) (g : Nat) (f : Group → Group) : (s.modGroup g f).issueQ = s.issueQ := rfl
@[simp] theorem State.modGroup_out (s : State) (g : Nat) (f : Group → Group) : (s.modGroup g f).out = s.out := rfl
@[simp] theorem State.modGroup_mem (s : State) (g : Nat) (f : Group → Group) : (s.modGroup g f).mem = s.mem := rfl
@[simp] theorem State.modGroup_csr (s : State) (g : Nat) (f : Group → Group) : (s.modGroup g f).csr = s.csr := rfl
@[simp] theorem State.modGroup_banks (s : State) (g : Nat) (f : Group → Group) : (s.modGroup g f).banks = s.banks := rfl
@[simp] theorem State.modGroup_cores (s : State) (g : Nat) (f : Group → Group) : (s.modGroup g f).cores = s.cores := rfl
@[simp] theorem State.modGroup_clusters (s : State) (g : Nat) (f : Group → Group) : (s.modGroup g f).clusters = s.clusters := rfl
@[simp] theorem State.modGroup_dies (s : State) (g : Nat) (f : Group → Group) : (s.modGroup g f).dies = s.dies := rfl
@[simp] theorem State.modGroup_streams (s : State) (g : Nat) (f : Group → Group) : (s.modGroup g f).streams = s.streams := rfl
@[simp] theorem State.modGroup_tasks (s : State) (g : Nat) (f : Group → Group) : (s.modGroup g f).tasks = s.tasks := rfl
@[simp] theorem State.modGroup_launches (s : State) (g : Nat) (f : Group → Group) : (s.modGroup g f).launches = s.launches := rfl
@[simp] theorem State.modGroup_cmds (s : State) (g : Nat) (f : Group → Group) : (s.modGroup g f).cmds = s.cmds := rfl
@[simp] theorem State.modGroup_ceTaken (s : State) (g : Nat) (f : Group → Group) : (s.modGroup g f).ceTaken = s.ceTaken := rfl
@[simp] theorem State.modGroup_loads (s : State) (g : Nat) (f : Group → Group) : (s.modGroup g f).loads = s.loads := rfl
@[simp] theorem State.modGroup_stores (s : State) (g : Nat) (f : Group → Group) : (s.modGroup g f).stores = s.stores := rfl
@[simp] theorem State.modGroup_atoms (s : State) (g : Nat) (f : Group → Group) : (s.modGroup g f).atoms = s.atoms := rfl
@[simp] theorem State.modGroup_barriers (s : State) (g : Nat) (f : Group → Group) : (s.modGroup g f).barriers = s.barriers := rfl
@[simp] theorem State.modGroup_allred (s : State) (g : Nat) (f : Group → Group) : (s.modGroup g f).allred = s.allred := rfl
@[simp] theorem State.modGroup_subs (s : State) (g : Nat) (f : Group → Group) : (s.modGroup g f).subs = s.subs := rfl
@[simp] theorem State.modGroup_bwsQ (s : State) (g : Nat) (f : Group → Group) : (s.modGroup g f).bwsQ = s.bwsQ := rfl
@[simp] theorem State.modGroup_ceTlb (s : State) (g : Nat) (f : Group → Group) : (s.modGroup g f).ceTlb = s.ceTlb := rfl
@[simp] theorem State.modGroup_mslTlb (s : State) (g : Nat) (f : Group → Group) : (s.modGroup g f).mslTlb = s.mslTlb := rfl
@[simp] theorem State.modGroup_ports (s : State) (g : Nat) (f : Group → Group) : (s.modGroup g f).ports = s.ports := rfl
@[simp] theorem State.modGroup_fabric (s : State) (g : Nat) (f : Group → Group) : (s.modGroup g f).fabric = s.fabric := rfl
@[simp] theorem State.modGroup_fabIn (s : State) (g : Nat) (f : Group → Group) : (s.modGroup g f).fabIn = s.fabIn := rfl
@[simp] theorem State.modGroup_ethUp (s : State) (g : Nat) (f : Group → Group) : (s.modGroup g f).ethUp = s.ethUp := rfl
@[simp] theorem State.modGroup_pairUp (s : State) (g : Nat) (f : Group → Group) : (s.modGroup g f).pairUp = s.pairUp := rfl
@[simp] theorem State.modGroup_crossDown (s : State) (g : Nat) (f : Group → Group) : (s.modGroup g f).crossDown = s.crossDown := rfl
@[simp] theorem State.modGroup_hif (s : State) (g : Nat) (f : Group → Group) : (s.modGroup g f).hif = s.hif := rfl
@[simp] theorem State.modGroup_energyLog (s : State) (g : Nat) (f : Group → Group) : (s.modGroup g f).energyLog = s.energyLog := rfl
@[simp] theorem State.modGroup_lowering (s : State) (g : Nat) (f : Group → Group) : (s.modGroup g f).lowering = s.lowering := rfl
@[simp] theorem State.modGroup_pairLost (s : State) (g : Nat) (f : Group → Group) : (s.modGroup g f).pairLost = s.pairLost := rfl
@[simp] theorem State.modGroup_pathFrom (s : State) (g : Nat) (f : Group → Group) : (s.modGroup g f).pathFrom = s.pathFrom := rfl
@[simp] theorem State.modGroup_tookSes (s : State) (g : Nat) (f : Group → Group) : (s.modGroup g f).tookSes = s.tookSes := rfl
@[simp] theorem State.modGroup_rx (s : State) (g : Nat) (f : Group → Group) : (s.modGroup g f).rx = s.rx := rfl
@[simp] theorem State.modGroup_tx (s : State) (g : Nat) (f : Group → Group) : (s.modGroup g f).tx = s.tx := rfl
@[simp] theorem State.modGroup_ptp (s : State) (g : Nat) (f : Group → Group) : (s.modGroup g f).ptp = s.ptp := rfl
@[simp] theorem State.modGroup_latch (s : State) (g : Nat) (f : Group → Group) : (s.modGroup g f).latch = s.latch := rfl
@[simp] theorem State.modGroup_numVfs (s : State) (g : Nat) (f : Group → Group) : (s.modGroup g f).numVfs = s.numVfs := rfl
@[simp] theorem State.modGroup_lq (s : State) (g : Nat) (f : Group → Group) : (s.modGroup g f).lq = s.lq := rfl
@[simp] theorem State.modGroup_flr (s : State) (g : Nat) (f : Group → Group) : (s.modGroup g f).flr = s.flr := rfl
@[simp] theorem State.modGroup_hostDeny (s : State) (g : Nat) (f : Group → Group) : (s.modGroup g f).hostDeny = s.hostDeny := rfl
@[simp] theorem State.modGroup_sigDef (s : State) (g : Nat) (f : Group → Group) : (s.modGroup g f).sigDef = s.sigDef := rfl
@[simp] theorem State.modGroup_dirtyAt (s : State) (g : Nat) (f : Group → Group) : (s.modGroup g f).dirtyAt = s.dirtyAt := rfl
@[simp] theorem State.modGroup_bbt (s : State) (g : Nat) (f : Group → Group) : (s.modGroup g f).bbt = s.bbt := rfl
@[simp] theorem State.modGroup_scrubbing (s : State) (g : Nat) (f : Group → Group) : (s.modGroup g f).scrubbing = s.scrubbing := rfl
@[simp] theorem State.modGroup_memOwnNew (s : State) (g : Nat) (f : Group → Group) : (s.modGroup g f).memOwnNew = s.memOwnNew := rfl
@[simp] theorem State.modGroup_l1New (s : State) (g : Nat) (f : Group → Group) : (s.modGroup g f).l1New = s.l1New := rfl
@[simp] theorem State.modGroup_snap (s : State) (g : Nat) (f : Group → Group) : (s.modGroup g f).snap = s.snap := rfl
@[simp] theorem State.modGroup_journal (s : State) (g : Nat) (f : Group → Group) : (s.modGroup g f).journal = s.journal := rfl
@[simp] theorem State.modGroup_meas (s : State) (g : Nat) (f : Group → Group) : (s.modGroup g f).meas = s.meas := rfl
@[simp] theorem State.modGroup_flash (s : State) (g : Nat) (f : Group → Group) : (s.modGroup g f).flash = s.flash := rfl
@[simp] theorem State.modGroup_sjClear (s : State) (g : Nat) (f : Group → Group) : (s.modGroup g f).sjClear = s.sjClear := rfl
@[simp] theorem State.modGroup_halted (s : State) (g : Nat) (f : Group → Group) : (s.modGroup g f).halted = s.halted := rfl
@[simp] theorem State.modGroup_powered (s : State) (g : Nat) (f : Group → Group) : (s.modGroup g f).powered = s.powered := rfl
@[simp] theorem State.modGroup_svcAwait (s : State) (g : Nat) (f : Group → Group) : (s.modGroup g f).svcAwait = s.svcAwait := rfl
@[simp] theorem State.modGroup_hostEdits (s : State) (g : Nat) (f : Group → Group) : (s.modGroup g f).hostEdits = s.hostEdits := rfl
@[simp] theorem State.modGroup_lg (s : State) (g : Nat) (f : Group → Group) : (s.modGroup g f).lg = s.lg := rfl

/-! `State.modTask` -/

@[simp] theorem State.modTask_now (s : State) (t : Nat) (f : Task → Task) : (s.modTask t f).now = s.now := rfl
@[simp] theorem State.modTask_tickBase (s : State) (t : Nat) (f : Task → Task) : (s.modTask t f).tickBase = s.tickBase := rfl
@[simp] theorem State.modTask_seq (s : State) (t : Nat) (f : Task → Task) : (s.modTask t f).seq = s.seq := rfl
@[simp] theorem State.modTask_free (s : State) (t : Nat) (f : Task → Task) : (s.modTask t f).free = s.free := rfl
@[simp] theorem State.modTask_nextId (s : State) (t : Nat) (f : Task → Task) : (s.modTask t f).nextId = s.nextId := rfl
@[simp] theorem State.modTask_agenda (s : State) (t : Nat) (f : Task → Task) : (s.modTask t f).agenda = s.agenda := rfl
@[simp] theorem State.modTask_env (s : State) (t : Nat) (f : Task → Task) : (s.modTask t f).env = s.env := rfl
@[simp] theorem State.modTask_found (s : State) (t : Nat) (f : Task → Task) : (s.modTask t f).found = s.found := rfl
@[simp] theorem State.modTask_wants (s : State) (t : Nat) (f : Task → Task) : (s.modTask t f).wants = s.wants := rfl
@[simp] theorem State.modTask_issueQ (s : State) (t : Nat) (f : Task → Task) : (s.modTask t f).issueQ = s.issueQ := rfl
@[simp] theorem State.modTask_out (s : State) (t : Nat) (f : Task → Task) : (s.modTask t f).out = s.out := rfl
@[simp] theorem State.modTask_mem (s : State) (t : Nat) (f : Task → Task) : (s.modTask t f).mem = s.mem := rfl
@[simp] theorem State.modTask_csr (s : State) (t : Nat) (f : Task → Task) : (s.modTask t f).csr = s.csr := rfl
@[simp] theorem State.modTask_banks (s : State) (t : Nat) (f : Task → Task) : (s.modTask t f).banks = s.banks := rfl
@[simp] theorem State.modTask_cores (s : State) (t : Nat) (f : Task → Task) : (s.modTask t f).cores = s.cores := rfl
@[simp] theorem State.modTask_clusters (s : State) (t : Nat) (f : Task → Task) : (s.modTask t f).clusters = s.clusters := rfl
@[simp] theorem State.modTask_dies (s : State) (t : Nat) (f : Task → Task) : (s.modTask t f).dies = s.dies := rfl
@[simp] theorem State.modTask_groups (s : State) (t : Nat) (f : Task → Task) : (s.modTask t f).groups = s.groups := rfl
@[simp] theorem State.modTask_streams (s : State) (t : Nat) (f : Task → Task) : (s.modTask t f).streams = s.streams := rfl
@[simp] theorem State.modTask_launches (s : State) (t : Nat) (f : Task → Task) : (s.modTask t f).launches = s.launches := rfl
@[simp] theorem State.modTask_cmds (s : State) (t : Nat) (f : Task → Task) : (s.modTask t f).cmds = s.cmds := rfl
@[simp] theorem State.modTask_ceTaken (s : State) (t : Nat) (f : Task → Task) : (s.modTask t f).ceTaken = s.ceTaken := rfl
@[simp] theorem State.modTask_loads (s : State) (t : Nat) (f : Task → Task) : (s.modTask t f).loads = s.loads := rfl
@[simp] theorem State.modTask_stores (s : State) (t : Nat) (f : Task → Task) : (s.modTask t f).stores = s.stores := rfl
@[simp] theorem State.modTask_atoms (s : State) (t : Nat) (f : Task → Task) : (s.modTask t f).atoms = s.atoms := rfl
@[simp] theorem State.modTask_barriers (s : State) (t : Nat) (f : Task → Task) : (s.modTask t f).barriers = s.barriers := rfl
@[simp] theorem State.modTask_allred (s : State) (t : Nat) (f : Task → Task) : (s.modTask t f).allred = s.allred := rfl
@[simp] theorem State.modTask_subs (s : State) (t : Nat) (f : Task → Task) : (s.modTask t f).subs = s.subs := rfl
@[simp] theorem State.modTask_bwsQ (s : State) (t : Nat) (f : Task → Task) : (s.modTask t f).bwsQ = s.bwsQ := rfl
@[simp] theorem State.modTask_ceTlb (s : State) (t : Nat) (f : Task → Task) : (s.modTask t f).ceTlb = s.ceTlb := rfl
@[simp] theorem State.modTask_mslTlb (s : State) (t : Nat) (f : Task → Task) : (s.modTask t f).mslTlb = s.mslTlb := rfl
@[simp] theorem State.modTask_ports (s : State) (t : Nat) (f : Task → Task) : (s.modTask t f).ports = s.ports := rfl
@[simp] theorem State.modTask_fabric (s : State) (t : Nat) (f : Task → Task) : (s.modTask t f).fabric = s.fabric := rfl
@[simp] theorem State.modTask_fabIn (s : State) (t : Nat) (f : Task → Task) : (s.modTask t f).fabIn = s.fabIn := rfl
@[simp] theorem State.modTask_ethUp (s : State) (t : Nat) (f : Task → Task) : (s.modTask t f).ethUp = s.ethUp := rfl
@[simp] theorem State.modTask_pairUp (s : State) (t : Nat) (f : Task → Task) : (s.modTask t f).pairUp = s.pairUp := rfl
@[simp] theorem State.modTask_crossDown (s : State) (t : Nat) (f : Task → Task) : (s.modTask t f).crossDown = s.crossDown := rfl
@[simp] theorem State.modTask_hif (s : State) (t : Nat) (f : Task → Task) : (s.modTask t f).hif = s.hif := rfl
@[simp] theorem State.modTask_energyLog (s : State) (t : Nat) (f : Task → Task) : (s.modTask t f).energyLog = s.energyLog := rfl
@[simp] theorem State.modTask_lowering (s : State) (t : Nat) (f : Task → Task) : (s.modTask t f).lowering = s.lowering := rfl
@[simp] theorem State.modTask_pairLost (s : State) (t : Nat) (f : Task → Task) : (s.modTask t f).pairLost = s.pairLost := rfl
@[simp] theorem State.modTask_pathFrom (s : State) (t : Nat) (f : Task → Task) : (s.modTask t f).pathFrom = s.pathFrom := rfl
@[simp] theorem State.modTask_tookSes (s : State) (t : Nat) (f : Task → Task) : (s.modTask t f).tookSes = s.tookSes := rfl
@[simp] theorem State.modTask_rx (s : State) (t : Nat) (f : Task → Task) : (s.modTask t f).rx = s.rx := rfl
@[simp] theorem State.modTask_tx (s : State) (t : Nat) (f : Task → Task) : (s.modTask t f).tx = s.tx := rfl
@[simp] theorem State.modTask_ptp (s : State) (t : Nat) (f : Task → Task) : (s.modTask t f).ptp = s.ptp := rfl
@[simp] theorem State.modTask_latch (s : State) (t : Nat) (f : Task → Task) : (s.modTask t f).latch = s.latch := rfl
@[simp] theorem State.modTask_numVfs (s : State) (t : Nat) (f : Task → Task) : (s.modTask t f).numVfs = s.numVfs := rfl
@[simp] theorem State.modTask_lq (s : State) (t : Nat) (f : Task → Task) : (s.modTask t f).lq = s.lq := rfl
@[simp] theorem State.modTask_flr (s : State) (t : Nat) (f : Task → Task) : (s.modTask t f).flr = s.flr := rfl
@[simp] theorem State.modTask_hostDeny (s : State) (t : Nat) (f : Task → Task) : (s.modTask t f).hostDeny = s.hostDeny := rfl
@[simp] theorem State.modTask_sigDef (s : State) (t : Nat) (f : Task → Task) : (s.modTask t f).sigDef = s.sigDef := rfl
@[simp] theorem State.modTask_dirtyAt (s : State) (t : Nat) (f : Task → Task) : (s.modTask t f).dirtyAt = s.dirtyAt := rfl
@[simp] theorem State.modTask_bbt (s : State) (t : Nat) (f : Task → Task) : (s.modTask t f).bbt = s.bbt := rfl
@[simp] theorem State.modTask_scrubbing (s : State) (t : Nat) (f : Task → Task) : (s.modTask t f).scrubbing = s.scrubbing := rfl
@[simp] theorem State.modTask_memOwnNew (s : State) (t : Nat) (f : Task → Task) : (s.modTask t f).memOwnNew = s.memOwnNew := rfl
@[simp] theorem State.modTask_l1New (s : State) (t : Nat) (f : Task → Task) : (s.modTask t f).l1New = s.l1New := rfl
@[simp] theorem State.modTask_snap (s : State) (t : Nat) (f : Task → Task) : (s.modTask t f).snap = s.snap := rfl
@[simp] theorem State.modTask_journal (s : State) (t : Nat) (f : Task → Task) : (s.modTask t f).journal = s.journal := rfl
@[simp] theorem State.modTask_meas (s : State) (t : Nat) (f : Task → Task) : (s.modTask t f).meas = s.meas := rfl
@[simp] theorem State.modTask_flash (s : State) (t : Nat) (f : Task → Task) : (s.modTask t f).flash = s.flash := rfl
@[simp] theorem State.modTask_sjClear (s : State) (t : Nat) (f : Task → Task) : (s.modTask t f).sjClear = s.sjClear := rfl
@[simp] theorem State.modTask_halted (s : State) (t : Nat) (f : Task → Task) : (s.modTask t f).halted = s.halted := rfl
@[simp] theorem State.modTask_powered (s : State) (t : Nat) (f : Task → Task) : (s.modTask t f).powered = s.powered := rfl
@[simp] theorem State.modTask_svcAwait (s : State) (t : Nat) (f : Task → Task) : (s.modTask t f).svcAwait = s.svcAwait := rfl
@[simp] theorem State.modTask_hostEdits (s : State) (t : Nat) (f : Task → Task) : (s.modTask t f).hostEdits = s.hostEdits := rfl
@[simp] theorem State.modTask_lg (s : State) (t : Nat) (f : Task → Task) : (s.modTask t f).lg = s.lg := rfl

/-! `State.modCmd` -/

@[simp] theorem State.modCmd_now (s : State) (c : Nat) (f : Cmd → Cmd) : (s.modCmd c f).now = s.now := rfl
@[simp] theorem State.modCmd_tickBase (s : State) (c : Nat) (f : Cmd → Cmd) : (s.modCmd c f).tickBase = s.tickBase := rfl
@[simp] theorem State.modCmd_seq (s : State) (c : Nat) (f : Cmd → Cmd) : (s.modCmd c f).seq = s.seq := rfl
@[simp] theorem State.modCmd_free (s : State) (c : Nat) (f : Cmd → Cmd) : (s.modCmd c f).free = s.free := rfl
@[simp] theorem State.modCmd_nextId (s : State) (c : Nat) (f : Cmd → Cmd) : (s.modCmd c f).nextId = s.nextId := rfl
@[simp] theorem State.modCmd_agenda (s : State) (c : Nat) (f : Cmd → Cmd) : (s.modCmd c f).agenda = s.agenda := rfl
@[simp] theorem State.modCmd_env (s : State) (c : Nat) (f : Cmd → Cmd) : (s.modCmd c f).env = s.env := rfl
@[simp] theorem State.modCmd_found (s : State) (c : Nat) (f : Cmd → Cmd) : (s.modCmd c f).found = s.found := rfl
@[simp] theorem State.modCmd_wants (s : State) (c : Nat) (f : Cmd → Cmd) : (s.modCmd c f).wants = s.wants := rfl
@[simp] theorem State.modCmd_issueQ (s : State) (c : Nat) (f : Cmd → Cmd) : (s.modCmd c f).issueQ = s.issueQ := rfl
@[simp] theorem State.modCmd_out (s : State) (c : Nat) (f : Cmd → Cmd) : (s.modCmd c f).out = s.out := rfl
@[simp] theorem State.modCmd_mem (s : State) (c : Nat) (f : Cmd → Cmd) : (s.modCmd c f).mem = s.mem := rfl
@[simp] theorem State.modCmd_csr (s : State) (c : Nat) (f : Cmd → Cmd) : (s.modCmd c f).csr = s.csr := rfl
@[simp] theorem State.modCmd_banks (s : State) (c : Nat) (f : Cmd → Cmd) : (s.modCmd c f).banks = s.banks := rfl
@[simp] theorem State.modCmd_cores (s : State) (c : Nat) (f : Cmd → Cmd) : (s.modCmd c f).cores = s.cores := rfl
@[simp] theorem State.modCmd_clusters (s : State) (c : Nat) (f : Cmd → Cmd) : (s.modCmd c f).clusters = s.clusters := rfl
@[simp] theorem State.modCmd_dies (s : State) (c : Nat) (f : Cmd → Cmd) : (s.modCmd c f).dies = s.dies := rfl
@[simp] theorem State.modCmd_groups (s : State) (c : Nat) (f : Cmd → Cmd) : (s.modCmd c f).groups = s.groups := rfl
@[simp] theorem State.modCmd_streams (s : State) (c : Nat) (f : Cmd → Cmd) : (s.modCmd c f).streams = s.streams := rfl
@[simp] theorem State.modCmd_tasks (s : State) (c : Nat) (f : Cmd → Cmd) : (s.modCmd c f).tasks = s.tasks := rfl
@[simp] theorem State.modCmd_launches (s : State) (c : Nat) (f : Cmd → Cmd) : (s.modCmd c f).launches = s.launches := rfl
@[simp] theorem State.modCmd_ceTaken (s : State) (c : Nat) (f : Cmd → Cmd) : (s.modCmd c f).ceTaken = s.ceTaken := rfl
@[simp] theorem State.modCmd_loads (s : State) (c : Nat) (f : Cmd → Cmd) : (s.modCmd c f).loads = s.loads := rfl
@[simp] theorem State.modCmd_stores (s : State) (c : Nat) (f : Cmd → Cmd) : (s.modCmd c f).stores = s.stores := rfl
@[simp] theorem State.modCmd_atoms (s : State) (c : Nat) (f : Cmd → Cmd) : (s.modCmd c f).atoms = s.atoms := rfl
@[simp] theorem State.modCmd_barriers (s : State) (c : Nat) (f : Cmd → Cmd) : (s.modCmd c f).barriers = s.barriers := rfl
@[simp] theorem State.modCmd_allred (s : State) (c : Nat) (f : Cmd → Cmd) : (s.modCmd c f).allred = s.allred := rfl
@[simp] theorem State.modCmd_subs (s : State) (c : Nat) (f : Cmd → Cmd) : (s.modCmd c f).subs = s.subs := rfl
@[simp] theorem State.modCmd_bwsQ (s : State) (c : Nat) (f : Cmd → Cmd) : (s.modCmd c f).bwsQ = s.bwsQ := rfl
@[simp] theorem State.modCmd_ceTlb (s : State) (c : Nat) (f : Cmd → Cmd) : (s.modCmd c f).ceTlb = s.ceTlb := rfl
@[simp] theorem State.modCmd_mslTlb (s : State) (c : Nat) (f : Cmd → Cmd) : (s.modCmd c f).mslTlb = s.mslTlb := rfl
@[simp] theorem State.modCmd_ports (s : State) (c : Nat) (f : Cmd → Cmd) : (s.modCmd c f).ports = s.ports := rfl
@[simp] theorem State.modCmd_fabric (s : State) (c : Nat) (f : Cmd → Cmd) : (s.modCmd c f).fabric = s.fabric := rfl
@[simp] theorem State.modCmd_fabIn (s : State) (c : Nat) (f : Cmd → Cmd) : (s.modCmd c f).fabIn = s.fabIn := rfl
@[simp] theorem State.modCmd_ethUp (s : State) (c : Nat) (f : Cmd → Cmd) : (s.modCmd c f).ethUp = s.ethUp := rfl
@[simp] theorem State.modCmd_pairUp (s : State) (c : Nat) (f : Cmd → Cmd) : (s.modCmd c f).pairUp = s.pairUp := rfl
@[simp] theorem State.modCmd_crossDown (s : State) (c : Nat) (f : Cmd → Cmd) : (s.modCmd c f).crossDown = s.crossDown := rfl
@[simp] theorem State.modCmd_hif (s : State) (c : Nat) (f : Cmd → Cmd) : (s.modCmd c f).hif = s.hif := rfl
@[simp] theorem State.modCmd_energyLog (s : State) (c : Nat) (f : Cmd → Cmd) : (s.modCmd c f).energyLog = s.energyLog := rfl
@[simp] theorem State.modCmd_lowering (s : State) (c : Nat) (f : Cmd → Cmd) : (s.modCmd c f).lowering = s.lowering := rfl
@[simp] theorem State.modCmd_pairLost (s : State) (c : Nat) (f : Cmd → Cmd) : (s.modCmd c f).pairLost = s.pairLost := rfl
@[simp] theorem State.modCmd_pathFrom (s : State) (c : Nat) (f : Cmd → Cmd) : (s.modCmd c f).pathFrom = s.pathFrom := rfl
@[simp] theorem State.modCmd_tookSes (s : State) (c : Nat) (f : Cmd → Cmd) : (s.modCmd c f).tookSes = s.tookSes := rfl
@[simp] theorem State.modCmd_rx (s : State) (c : Nat) (f : Cmd → Cmd) : (s.modCmd c f).rx = s.rx := rfl
@[simp] theorem State.modCmd_tx (s : State) (c : Nat) (f : Cmd → Cmd) : (s.modCmd c f).tx = s.tx := rfl
@[simp] theorem State.modCmd_ptp (s : State) (c : Nat) (f : Cmd → Cmd) : (s.modCmd c f).ptp = s.ptp := rfl
@[simp] theorem State.modCmd_latch (s : State) (c : Nat) (f : Cmd → Cmd) : (s.modCmd c f).latch = s.latch := rfl
@[simp] theorem State.modCmd_numVfs (s : State) (c : Nat) (f : Cmd → Cmd) : (s.modCmd c f).numVfs = s.numVfs := rfl
@[simp] theorem State.modCmd_lq (s : State) (c : Nat) (f : Cmd → Cmd) : (s.modCmd c f).lq = s.lq := rfl
@[simp] theorem State.modCmd_flr (s : State) (c : Nat) (f : Cmd → Cmd) : (s.modCmd c f).flr = s.flr := rfl
@[simp] theorem State.modCmd_hostDeny (s : State) (c : Nat) (f : Cmd → Cmd) : (s.modCmd c f).hostDeny = s.hostDeny := rfl
@[simp] theorem State.modCmd_sigDef (s : State) (c : Nat) (f : Cmd → Cmd) : (s.modCmd c f).sigDef = s.sigDef := rfl
@[simp] theorem State.modCmd_dirtyAt (s : State) (c : Nat) (f : Cmd → Cmd) : (s.modCmd c f).dirtyAt = s.dirtyAt := rfl
@[simp] theorem State.modCmd_bbt (s : State) (c : Nat) (f : Cmd → Cmd) : (s.modCmd c f).bbt = s.bbt := rfl
@[simp] theorem State.modCmd_scrubbing (s : State) (c : Nat) (f : Cmd → Cmd) : (s.modCmd c f).scrubbing = s.scrubbing := rfl
@[simp] theorem State.modCmd_memOwnNew (s : State) (c : Nat) (f : Cmd → Cmd) : (s.modCmd c f).memOwnNew = s.memOwnNew := rfl
@[simp] theorem State.modCmd_l1New (s : State) (c : Nat) (f : Cmd → Cmd) : (s.modCmd c f).l1New = s.l1New := rfl
@[simp] theorem State.modCmd_snap (s : State) (c : Nat) (f : Cmd → Cmd) : (s.modCmd c f).snap = s.snap := rfl
@[simp] theorem State.modCmd_journal (s : State) (c : Nat) (f : Cmd → Cmd) : (s.modCmd c f).journal = s.journal := rfl
@[simp] theorem State.modCmd_meas (s : State) (c : Nat) (f : Cmd → Cmd) : (s.modCmd c f).meas = s.meas := rfl
@[simp] theorem State.modCmd_flash (s : State) (c : Nat) (f : Cmd → Cmd) : (s.modCmd c f).flash = s.flash := rfl
@[simp] theorem State.modCmd_sjClear (s : State) (c : Nat) (f : Cmd → Cmd) : (s.modCmd c f).sjClear = s.sjClear := rfl
@[simp] theorem State.modCmd_halted (s : State) (c : Nat) (f : Cmd → Cmd) : (s.modCmd c f).halted = s.halted := rfl
@[simp] theorem State.modCmd_powered (s : State) (c : Nat) (f : Cmd → Cmd) : (s.modCmd c f).powered = s.powered := rfl
@[simp] theorem State.modCmd_svcAwait (s : State) (c : Nat) (f : Cmd → Cmd) : (s.modCmd c f).svcAwait = s.svcAwait := rfl
@[simp] theorem State.modCmd_hostEdits (s : State) (c : Nat) (f : Cmd → Cmd) : (s.modCmd c f).hostEdits = s.hostEdits := rfl
@[simp] theorem State.modCmd_lg (s : State) (c : Nat) (f : Cmd → Cmd) : (s.modCmd c f).lg = s.lg := rfl

/-! `State.modStream` -/

@[simp] theorem State.modStream_now (s : State) (d n : Nat) (f : Stream → Stream) : (s.modStream d n f).now = s.now := rfl
@[simp] theorem State.modStream_tickBase (s : State) (d n : Nat) (f : Stream → Stream) : (s.modStream d n f).tickBase = s.tickBase := rfl
@[simp] theorem State.modStream_seq (s : State) (d n : Nat) (f : Stream → Stream) : (s.modStream d n f).seq = s.seq := rfl
@[simp] theorem State.modStream_free (s : State) (d n : Nat) (f : Stream → Stream) : (s.modStream d n f).free = s.free := rfl
@[simp] theorem State.modStream_nextId (s : State) (d n : Nat) (f : Stream → Stream) : (s.modStream d n f).nextId = s.nextId := rfl
@[simp] theorem State.modStream_agenda (s : State) (d n : Nat) (f : Stream → Stream) : (s.modStream d n f).agenda = s.agenda := rfl
@[simp] theorem State.modStream_env (s : State) (d n : Nat) (f : Stream → Stream) : (s.modStream d n f).env = s.env := rfl
@[simp] theorem State.modStream_found (s : State) (d n : Nat) (f : Stream → Stream) : (s.modStream d n f).found = s.found := rfl
@[simp] theorem State.modStream_wants (s : State) (d n : Nat) (f : Stream → Stream) : (s.modStream d n f).wants = s.wants := rfl
@[simp] theorem State.modStream_issueQ (s : State) (d n : Nat) (f : Stream → Stream) : (s.modStream d n f).issueQ = s.issueQ := rfl
@[simp] theorem State.modStream_out (s : State) (d n : Nat) (f : Stream → Stream) : (s.modStream d n f).out = s.out := rfl
@[simp] theorem State.modStream_mem (s : State) (d n : Nat) (f : Stream → Stream) : (s.modStream d n f).mem = s.mem := rfl
@[simp] theorem State.modStream_csr (s : State) (d n : Nat) (f : Stream → Stream) : (s.modStream d n f).csr = s.csr := rfl
@[simp] theorem State.modStream_banks (s : State) (d n : Nat) (f : Stream → Stream) : (s.modStream d n f).banks = s.banks := rfl
@[simp] theorem State.modStream_cores (s : State) (d n : Nat) (f : Stream → Stream) : (s.modStream d n f).cores = s.cores := rfl
@[simp] theorem State.modStream_clusters (s : State) (d n : Nat) (f : Stream → Stream) : (s.modStream d n f).clusters = s.clusters := rfl
@[simp] theorem State.modStream_dies (s : State) (d n : Nat) (f : Stream → Stream) : (s.modStream d n f).dies = s.dies := rfl
@[simp] theorem State.modStream_groups (s : State) (d n : Nat) (f : Stream → Stream) : (s.modStream d n f).groups = s.groups := rfl
@[simp] theorem State.modStream_tasks (s : State) (d n : Nat) (f : Stream → Stream) : (s.modStream d n f).tasks = s.tasks := rfl
@[simp] theorem State.modStream_launches (s : State) (d n : Nat) (f : Stream → Stream) : (s.modStream d n f).launches = s.launches := rfl
@[simp] theorem State.modStream_cmds (s : State) (d n : Nat) (f : Stream → Stream) : (s.modStream d n f).cmds = s.cmds := rfl
@[simp] theorem State.modStream_ceTaken (s : State) (d n : Nat) (f : Stream → Stream) : (s.modStream d n f).ceTaken = s.ceTaken := rfl
@[simp] theorem State.modStream_loads (s : State) (d n : Nat) (f : Stream → Stream) : (s.modStream d n f).loads = s.loads := rfl
@[simp] theorem State.modStream_stores (s : State) (d n : Nat) (f : Stream → Stream) : (s.modStream d n f).stores = s.stores := rfl
@[simp] theorem State.modStream_atoms (s : State) (d n : Nat) (f : Stream → Stream) : (s.modStream d n f).atoms = s.atoms := rfl
@[simp] theorem State.modStream_barriers (s : State) (d n : Nat) (f : Stream → Stream) : (s.modStream d n f).barriers = s.barriers := rfl
@[simp] theorem State.modStream_allred (s : State) (d n : Nat) (f : Stream → Stream) : (s.modStream d n f).allred = s.allred := rfl
@[simp] theorem State.modStream_subs (s : State) (d n : Nat) (f : Stream → Stream) : (s.modStream d n f).subs = s.subs := rfl
@[simp] theorem State.modStream_bwsQ (s : State) (d n : Nat) (f : Stream → Stream) : (s.modStream d n f).bwsQ = s.bwsQ := rfl
@[simp] theorem State.modStream_ceTlb (s : State) (d n : Nat) (f : Stream → Stream) : (s.modStream d n f).ceTlb = s.ceTlb := rfl
@[simp] theorem State.modStream_mslTlb (s : State) (d n : Nat) (f : Stream → Stream) : (s.modStream d n f).mslTlb = s.mslTlb := rfl
@[simp] theorem State.modStream_ports (s : State) (d n : Nat) (f : Stream → Stream) : (s.modStream d n f).ports = s.ports := rfl
@[simp] theorem State.modStream_fabric (s : State) (d n : Nat) (f : Stream → Stream) : (s.modStream d n f).fabric = s.fabric := rfl
@[simp] theorem State.modStream_fabIn (s : State) (d n : Nat) (f : Stream → Stream) : (s.modStream d n f).fabIn = s.fabIn := rfl
@[simp] theorem State.modStream_ethUp (s : State) (d n : Nat) (f : Stream → Stream) : (s.modStream d n f).ethUp = s.ethUp := rfl
@[simp] theorem State.modStream_pairUp (s : State) (d n : Nat) (f : Stream → Stream) : (s.modStream d n f).pairUp = s.pairUp := rfl
@[simp] theorem State.modStream_crossDown (s : State) (d n : Nat) (f : Stream → Stream) : (s.modStream d n f).crossDown = s.crossDown := rfl
@[simp] theorem State.modStream_hif (s : State) (d n : Nat) (f : Stream → Stream) : (s.modStream d n f).hif = s.hif := rfl
@[simp] theorem State.modStream_energyLog (s : State) (d n : Nat) (f : Stream → Stream) : (s.modStream d n f).energyLog = s.energyLog := rfl
@[simp] theorem State.modStream_lowering (s : State) (d n : Nat) (f : Stream → Stream) : (s.modStream d n f).lowering = s.lowering := rfl
@[simp] theorem State.modStream_pairLost (s : State) (d n : Nat) (f : Stream → Stream) : (s.modStream d n f).pairLost = s.pairLost := rfl
@[simp] theorem State.modStream_pathFrom (s : State) (d n : Nat) (f : Stream → Stream) : (s.modStream d n f).pathFrom = s.pathFrom := rfl
@[simp] theorem State.modStream_tookSes (s : State) (d n : Nat) (f : Stream → Stream) : (s.modStream d n f).tookSes = s.tookSes := rfl
@[simp] theorem State.modStream_rx (s : State) (d n : Nat) (f : Stream → Stream) : (s.modStream d n f).rx = s.rx := rfl
@[simp] theorem State.modStream_tx (s : State) (d n : Nat) (f : Stream → Stream) : (s.modStream d n f).tx = s.tx := rfl
@[simp] theorem State.modStream_ptp (s : State) (d n : Nat) (f : Stream → Stream) : (s.modStream d n f).ptp = s.ptp := rfl
@[simp] theorem State.modStream_latch (s : State) (d n : Nat) (f : Stream → Stream) : (s.modStream d n f).latch = s.latch := rfl
@[simp] theorem State.modStream_numVfs (s : State) (d n : Nat) (f : Stream → Stream) : (s.modStream d n f).numVfs = s.numVfs := rfl
@[simp] theorem State.modStream_lq (s : State) (d n : Nat) (f : Stream → Stream) : (s.modStream d n f).lq = s.lq := rfl
@[simp] theorem State.modStream_flr (s : State) (d n : Nat) (f : Stream → Stream) : (s.modStream d n f).flr = s.flr := rfl
@[simp] theorem State.modStream_hostDeny (s : State) (d n : Nat) (f : Stream → Stream) : (s.modStream d n f).hostDeny = s.hostDeny := rfl
@[simp] theorem State.modStream_sigDef (s : State) (d n : Nat) (f : Stream → Stream) : (s.modStream d n f).sigDef = s.sigDef := rfl
@[simp] theorem State.modStream_dirtyAt (s : State) (d n : Nat) (f : Stream → Stream) : (s.modStream d n f).dirtyAt = s.dirtyAt := rfl
@[simp] theorem State.modStream_bbt (s : State) (d n : Nat) (f : Stream → Stream) : (s.modStream d n f).bbt = s.bbt := rfl
@[simp] theorem State.modStream_scrubbing (s : State) (d n : Nat) (f : Stream → Stream) : (s.modStream d n f).scrubbing = s.scrubbing := rfl
@[simp] theorem State.modStream_memOwnNew (s : State) (d n : Nat) (f : Stream → Stream) : (s.modStream d n f).memOwnNew = s.memOwnNew := rfl
@[simp] theorem State.modStream_l1New (s : State) (d n : Nat) (f : Stream → Stream) : (s.modStream d n f).l1New = s.l1New := rfl
@[simp] theorem State.modStream_snap (s : State) (d n : Nat) (f : Stream → Stream) : (s.modStream d n f).snap = s.snap := rfl
@[simp] theorem State.modStream_journal (s : State) (d n : Nat) (f : Stream → Stream) : (s.modStream d n f).journal = s.journal := rfl
@[simp] theorem State.modStream_meas (s : State) (d n : Nat) (f : Stream → Stream) : (s.modStream d n f).meas = s.meas := rfl
@[simp] theorem State.modStream_flash (s : State) (d n : Nat) (f : Stream → Stream) : (s.modStream d n f).flash = s.flash := rfl
@[simp] theorem State.modStream_sjClear (s : State) (d n : Nat) (f : Stream → Stream) : (s.modStream d n f).sjClear = s.sjClear := rfl
@[simp] theorem State.modStream_halted (s : State) (d n : Nat) (f : Stream → Stream) : (s.modStream d n f).halted = s.halted := rfl
@[simp] theorem State.modStream_powered (s : State) (d n : Nat) (f : Stream → Stream) : (s.modStream d n f).powered = s.powered := rfl
@[simp] theorem State.modStream_svcAwait (s : State) (d n : Nat) (f : Stream → Stream) : (s.modStream d n f).svcAwait = s.svcAwait := rfl
@[simp] theorem State.modStream_hostEdits (s : State) (d n : Nat) (f : Stream → Stream) : (s.modStream d n f).hostEdits = s.hostEdits := rfl
@[simp] theorem State.modStream_lg (s : State) (d n : Nat) (f : Stream → Stream) : (s.modStream d n f).lg = s.lg := rfl

/-! `State.modBarrier` -/

@[simp] theorem State.modBarrier_now (s : State) (k : Nat) (f : Barrier → Barrier) : (s.modBarrier k f).now = s.now := rfl
@[simp] theorem State.modBarrier_tickBase (s : State) (k : Nat) (f : Barrier → Barrier) : (s.modBarrier k f).tickBase = s.tickBase := rfl
@[simp] theorem State.modBarrier_seq (s : State) (k : Nat) (f : Barrier → Barrier) : (s.modBarrier k f).seq = s.seq := rfl
@[simp] theorem State.modBarrier_free (s : State) (k : Nat) (f : Barrier → Barrier) : (s.modBarrier k f).free = s.free := rfl
@[simp] theorem State.modBarrier_nextId (s : State) (k : Nat) (f : Barrier → Barrier) : (s.modBarrier k f).nextId = s.nextId := rfl
@[simp] theorem State.modBarrier_agenda (s : State) (k : Nat) (f : Barrier → Barrier) : (s.modBarrier k f).agenda = s.agenda := rfl
@[simp] theorem State.modBarrier_env (s : State) (k : Nat) (f : Barrier → Barrier) : (s.modBarrier k f).env = s.env := rfl
@[simp] theorem State.modBarrier_found (s : State) (k : Nat) (f : Barrier → Barrier) : (s.modBarrier k f).found = s.found := rfl
@[simp] theorem State.modBarrier_wants (s : State) (k : Nat) (f : Barrier → Barrier) : (s.modBarrier k f).wants = s.wants := rfl
@[simp] theorem State.modBarrier_issueQ (s : State) (k : Nat) (f : Barrier → Barrier) : (s.modBarrier k f).issueQ = s.issueQ := rfl
@[simp] theorem State.modBarrier_out (s : State) (k : Nat) (f : Barrier → Barrier) : (s.modBarrier k f).out = s.out := rfl
@[simp] theorem State.modBarrier_mem (s : State) (k : Nat) (f : Barrier → Barrier) : (s.modBarrier k f).mem = s.mem := rfl
@[simp] theorem State.modBarrier_csr (s : State) (k : Nat) (f : Barrier → Barrier) : (s.modBarrier k f).csr = s.csr := rfl
@[simp] theorem State.modBarrier_banks (s : State) (k : Nat) (f : Barrier → Barrier) : (s.modBarrier k f).banks = s.banks := rfl
@[simp] theorem State.modBarrier_cores (s : State) (k : Nat) (f : Barrier → Barrier) : (s.modBarrier k f).cores = s.cores := rfl
@[simp] theorem State.modBarrier_clusters (s : State) (k : Nat) (f : Barrier → Barrier) : (s.modBarrier k f).clusters = s.clusters := rfl
@[simp] theorem State.modBarrier_dies (s : State) (k : Nat) (f : Barrier → Barrier) : (s.modBarrier k f).dies = s.dies := rfl
@[simp] theorem State.modBarrier_groups (s : State) (k : Nat) (f : Barrier → Barrier) : (s.modBarrier k f).groups = s.groups := rfl
@[simp] theorem State.modBarrier_streams (s : State) (k : Nat) (f : Barrier → Barrier) : (s.modBarrier k f).streams = s.streams := rfl
@[simp] theorem State.modBarrier_tasks (s : State) (k : Nat) (f : Barrier → Barrier) : (s.modBarrier k f).tasks = s.tasks := rfl
@[simp] theorem State.modBarrier_launches (s : State) (k : Nat) (f : Barrier → Barrier) : (s.modBarrier k f).launches = s.launches := rfl
@[simp] theorem State.modBarrier_cmds (s : State) (k : Nat) (f : Barrier → Barrier) : (s.modBarrier k f).cmds = s.cmds := rfl
@[simp] theorem State.modBarrier_ceTaken (s : State) (k : Nat) (f : Barrier → Barrier) : (s.modBarrier k f).ceTaken = s.ceTaken := rfl
@[simp] theorem State.modBarrier_loads (s : State) (k : Nat) (f : Barrier → Barrier) : (s.modBarrier k f).loads = s.loads := rfl
@[simp] theorem State.modBarrier_stores (s : State) (k : Nat) (f : Barrier → Barrier) : (s.modBarrier k f).stores = s.stores := rfl
@[simp] theorem State.modBarrier_atoms (s : State) (k : Nat) (f : Barrier → Barrier) : (s.modBarrier k f).atoms = s.atoms := rfl
@[simp] theorem State.modBarrier_allred (s : State) (k : Nat) (f : Barrier → Barrier) : (s.modBarrier k f).allred = s.allred := rfl
@[simp] theorem State.modBarrier_subs (s : State) (k : Nat) (f : Barrier → Barrier) : (s.modBarrier k f).subs = s.subs := rfl
@[simp] theorem State.modBarrier_bwsQ (s : State) (k : Nat) (f : Barrier → Barrier) : (s.modBarrier k f).bwsQ = s.bwsQ := rfl
@[simp] theorem State.modBarrier_ceTlb (s : State) (k : Nat) (f : Barrier → Barrier) : (s.modBarrier k f).ceTlb = s.ceTlb := rfl
@[simp] theorem State.modBarrier_mslTlb (s : State) (k : Nat) (f : Barrier → Barrier) : (s.modBarrier k f).mslTlb = s.mslTlb := rfl
@[simp] theorem State.modBarrier_ports (s : State) (k : Nat) (f : Barrier → Barrier) : (s.modBarrier k f).ports = s.ports := rfl
@[simp] theorem State.modBarrier_fabric (s : State) (k : Nat) (f : Barrier → Barrier) : (s.modBarrier k f).fabric = s.fabric := rfl
@[simp] theorem State.modBarrier_fabIn (s : State) (k : Nat) (f : Barrier → Barrier) : (s.modBarrier k f).fabIn = s.fabIn := rfl
@[simp] theorem State.modBarrier_ethUp (s : State) (k : Nat) (f : Barrier → Barrier) : (s.modBarrier k f).ethUp = s.ethUp := rfl
@[simp] theorem State.modBarrier_pairUp (s : State) (k : Nat) (f : Barrier → Barrier) : (s.modBarrier k f).pairUp = s.pairUp := rfl
@[simp] theorem State.modBarrier_crossDown (s : State) (k : Nat) (f : Barrier → Barrier) : (s.modBarrier k f).crossDown = s.crossDown := rfl
@[simp] theorem State.modBarrier_hif (s : State) (k : Nat) (f : Barrier → Barrier) : (s.modBarrier k f).hif = s.hif := rfl
@[simp] theorem State.modBarrier_energyLog (s : State) (k : Nat) (f : Barrier → Barrier) : (s.modBarrier k f).energyLog = s.energyLog := rfl
@[simp] theorem State.modBarrier_lowering (s : State) (k : Nat) (f : Barrier → Barrier) : (s.modBarrier k f).lowering = s.lowering := rfl
@[simp] theorem State.modBarrier_pairLost (s : State) (k : Nat) (f : Barrier → Barrier) : (s.modBarrier k f).pairLost = s.pairLost := rfl
@[simp] theorem State.modBarrier_pathFrom (s : State) (k : Nat) (f : Barrier → Barrier) : (s.modBarrier k f).pathFrom = s.pathFrom := rfl
@[simp] theorem State.modBarrier_tookSes (s : State) (k : Nat) (f : Barrier → Barrier) : (s.modBarrier k f).tookSes = s.tookSes := rfl
@[simp] theorem State.modBarrier_rx (s : State) (k : Nat) (f : Barrier → Barrier) : (s.modBarrier k f).rx = s.rx := rfl
@[simp] theorem State.modBarrier_tx (s : State) (k : Nat) (f : Barrier → Barrier) : (s.modBarrier k f).tx = s.tx := rfl
@[simp] theorem State.modBarrier_ptp (s : State) (k : Nat) (f : Barrier → Barrier) : (s.modBarrier k f).ptp = s.ptp := rfl
@[simp] theorem State.modBarrier_latch (s : State) (k : Nat) (f : Barrier → Barrier) : (s.modBarrier k f).latch = s.latch := rfl
@[simp] theorem State.modBarrier_numVfs (s : State) (k : Nat) (f : Barrier → Barrier) : (s.modBarrier k f).numVfs = s.numVfs := rfl
@[simp] theorem State.modBarrier_lq (s : State) (k : Nat) (f : Barrier → Barrier) : (s.modBarrier k f).lq = s.lq := rfl
@[simp] theorem State.modBarrier_flr (s : State) (k : Nat) (f : Barrier → Barrier) : (s.modBarrier k f).flr = s.flr := rfl
@[simp] theorem State.modBarrier_hostDeny (s : State) (k : Nat) (f : Barrier → Barrier) : (s.modBarrier k f).hostDeny = s.hostDeny := rfl
@[simp] theorem State.modBarrier_sigDef (s : State) (k : Nat) (f : Barrier → Barrier) : (s.modBarrier k f).sigDef = s.sigDef := rfl
@[simp] theorem State.modBarrier_dirtyAt (s : State) (k : Nat) (f : Barrier → Barrier) : (s.modBarrier k f).dirtyAt = s.dirtyAt := rfl
@[simp] theorem State.modBarrier_bbt (s : State) (k : Nat) (f : Barrier → Barrier) : (s.modBarrier k f).bbt = s.bbt := rfl
@[simp] theorem State.modBarrier_scrubbing (s : State) (k : Nat) (f : Barrier → Barrier) : (s.modBarrier k f).scrubbing = s.scrubbing := rfl
@[simp] theorem State.modBarrier_memOwnNew (s : State) (k : Nat) (f : Barrier → Barrier) : (s.modBarrier k f).memOwnNew = s.memOwnNew := rfl
@[simp] theorem State.modBarrier_l1New (s : State) (k : Nat) (f : Barrier → Barrier) : (s.modBarrier k f).l1New = s.l1New := rfl
@[simp] theorem State.modBarrier_snap (s : State) (k : Nat) (f : Barrier → Barrier) : (s.modBarrier k f).snap = s.snap := rfl
@[simp] theorem State.modBarrier_journal (s : State) (k : Nat) (f : Barrier → Barrier) : (s.modBarrier k f).journal = s.journal := rfl
@[simp] theorem State.modBarrier_meas (s : State) (k : Nat) (f : Barrier → Barrier) : (s.modBarrier k f).meas = s.meas := rfl
@[simp] theorem State.modBarrier_flash (s : State) (k : Nat) (f : Barrier → Barrier) : (s.modBarrier k f).flash = s.flash := rfl
@[simp] theorem State.modBarrier_sjClear (s : State) (k : Nat) (f : Barrier → Barrier) : (s.modBarrier k f).sjClear = s.sjClear := rfl
@[simp] theorem State.modBarrier_halted (s : State) (k : Nat) (f : Barrier → Barrier) : (s.modBarrier k f).halted = s.halted := rfl
@[simp] theorem State.modBarrier_powered (s : State) (k : Nat) (f : Barrier → Barrier) : (s.modBarrier k f).powered = s.powered := rfl
@[simp] theorem State.modBarrier_svcAwait (s : State) (k : Nat) (f : Barrier → Barrier) : (s.modBarrier k f).svcAwait = s.svcAwait := rfl
@[simp] theorem State.modBarrier_hostEdits (s : State) (k : Nat) (f : Barrier → Barrier) : (s.modBarrier k f).hostEdits = s.hostEdits := rfl
@[simp] theorem State.modBarrier_lg (s : State) (k : Nat) (f : Barrier → Barrier) : (s.modBarrier k f).lg = s.lg := rfl

/-! `State.sched` -/

@[simp] theorem State.sched_now (s : State) (t p : Nat) (e : Ev) (v : Env) (o : List SlotOp) : (s.sched t p e v o).now = s.now := rfl
@[simp] theorem State.sched_tickBase (s : State) (t p : Nat) (e : Ev) (v : Env) (o : List SlotOp) : (s.sched t p e v o).tickBase = s.tickBase := rfl
@[simp] theorem State.sched_free (s : State) (t p : Nat) (e : Ev) (v : Env) (o : List SlotOp) : (s.sched t p e v o).free = s.free := rfl
@[simp] theorem State.sched_nextId (s : State) (t p : Nat) (e : Ev) (v : Env) (o : List SlotOp) : (s.sched t p e v o).nextId = s.nextId := rfl
@[simp] theorem State.sched_env (s : State) (t p : Nat) (e : Ev) (v : Env) (o : List SlotOp) : (s.sched t p e v o).env = s.env := rfl
@[simp] theorem State.sched_found (s : State) (t p : Nat) (e : Ev) (v : Env) (o : List SlotOp) : (s.sched t p e v o).found = s.found := rfl
@[simp] theorem State.sched_wants (s : State) (t p : Nat) (e : Ev) (v : Env) (o : List SlotOp) : (s.sched t p e v o).wants = s.wants := rfl
@[simp] theorem State.sched_issueQ (s : State) (t p : Nat) (e : Ev) (v : Env) (o : List SlotOp) : (s.sched t p e v o).issueQ = s.issueQ := rfl
@[simp] theorem State.sched_out (s : State) (t p : Nat) (e : Ev) (v : Env) (o : List SlotOp) : (s.sched t p e v o).out = s.out := rfl
@[simp] theorem State.sched_mem (s : State) (t p : Nat) (e : Ev) (v : Env) (o : List SlotOp) : (s.sched t p e v o).mem = s.mem := rfl
@[simp] theorem State.sched_csr (s : State) (t p : Nat) (e : Ev) (v : Env) (o : List SlotOp) : (s.sched t p e v o).csr = s.csr := rfl
@[simp] theorem State.sched_banks (s : State) (t p : Nat) (e : Ev) (v : Env) (o : List SlotOp) : (s.sched t p e v o).banks = s.banks := rfl
@[simp] theorem State.sched_cores (s : State) (t p : Nat) (e : Ev) (v : Env) (o : List SlotOp) : (s.sched t p e v o).cores = s.cores := rfl
@[simp] theorem State.sched_clusters (s : State) (t p : Nat) (e : Ev) (v : Env) (o : List SlotOp) : (s.sched t p e v o).clusters = s.clusters := rfl
@[simp] theorem State.sched_dies (s : State) (t p : Nat) (e : Ev) (v : Env) (o : List SlotOp) : (s.sched t p e v o).dies = s.dies := rfl
@[simp] theorem State.sched_groups (s : State) (t p : Nat) (e : Ev) (v : Env) (o : List SlotOp) : (s.sched t p e v o).groups = s.groups := rfl
@[simp] theorem State.sched_streams (s : State) (t p : Nat) (e : Ev) (v : Env) (o : List SlotOp) : (s.sched t p e v o).streams = s.streams := rfl
@[simp] theorem State.sched_tasks (s : State) (t p : Nat) (e : Ev) (v : Env) (o : List SlotOp) : (s.sched t p e v o).tasks = s.tasks := rfl
@[simp] theorem State.sched_launches (s : State) (t p : Nat) (e : Ev) (v : Env) (o : List SlotOp) : (s.sched t p e v o).launches = s.launches := rfl
@[simp] theorem State.sched_cmds (s : State) (t p : Nat) (e : Ev) (v : Env) (o : List SlotOp) : (s.sched t p e v o).cmds = s.cmds := rfl
@[simp] theorem State.sched_ceTaken (s : State) (t p : Nat) (e : Ev) (v : Env) (o : List SlotOp) : (s.sched t p e v o).ceTaken = s.ceTaken := rfl
@[simp] theorem State.sched_loads (s : State) (t p : Nat) (e : Ev) (v : Env) (o : List SlotOp) : (s.sched t p e v o).loads = s.loads := rfl
@[simp] theorem State.sched_stores (s : State) (t p : Nat) (e : Ev) (v : Env) (o : List SlotOp) : (s.sched t p e v o).stores = s.stores := rfl
@[simp] theorem State.sched_atoms (s : State) (t p : Nat) (e : Ev) (v : Env) (o : List SlotOp) : (s.sched t p e v o).atoms = s.atoms := rfl
@[simp] theorem State.sched_barriers (s : State) (t p : Nat) (e : Ev) (v : Env) (o : List SlotOp) : (s.sched t p e v o).barriers = s.barriers := rfl
@[simp] theorem State.sched_allred (s : State) (t p : Nat) (e : Ev) (v : Env) (o : List SlotOp) : (s.sched t p e v o).allred = s.allred := rfl
@[simp] theorem State.sched_subs (s : State) (t p : Nat) (e : Ev) (v : Env) (o : List SlotOp) : (s.sched t p e v o).subs = s.subs := rfl
@[simp] theorem State.sched_bwsQ (s : State) (t p : Nat) (e : Ev) (v : Env) (o : List SlotOp) : (s.sched t p e v o).bwsQ = s.bwsQ := rfl
@[simp] theorem State.sched_ceTlb (s : State) (t p : Nat) (e : Ev) (v : Env) (o : List SlotOp) : (s.sched t p e v o).ceTlb = s.ceTlb := rfl
@[simp] theorem State.sched_mslTlb (s : State) (t p : Nat) (e : Ev) (v : Env) (o : List SlotOp) : (s.sched t p e v o).mslTlb = s.mslTlb := rfl
@[simp] theorem State.sched_ports (s : State) (t p : Nat) (e : Ev) (v : Env) (o : List SlotOp) : (s.sched t p e v o).ports = s.ports := rfl
@[simp] theorem State.sched_fabric (s : State) (t p : Nat) (e : Ev) (v : Env) (o : List SlotOp) : (s.sched t p e v o).fabric = s.fabric := rfl
@[simp] theorem State.sched_fabIn (s : State) (t p : Nat) (e : Ev) (v : Env) (o : List SlotOp) : (s.sched t p e v o).fabIn = s.fabIn := rfl
@[simp] theorem State.sched_ethUp (s : State) (t p : Nat) (e : Ev) (v : Env) (o : List SlotOp) : (s.sched t p e v o).ethUp = s.ethUp := rfl
@[simp] theorem State.sched_pairUp (s : State) (t p : Nat) (e : Ev) (v : Env) (o : List SlotOp) : (s.sched t p e v o).pairUp = s.pairUp := rfl
@[simp] theorem State.sched_crossDown (s : State) (t p : Nat) (e : Ev) (v : Env) (o : List SlotOp) : (s.sched t p e v o).crossDown = s.crossDown := rfl
@[simp] theorem State.sched_hif (s : State) (t p : Nat) (e : Ev) (v : Env) (o : List SlotOp) : (s.sched t p e v o).hif = s.hif := rfl
@[simp] theorem State.sched_energyLog (s : State) (t p : Nat) (e : Ev) (v : Env) (o : List SlotOp) : (s.sched t p e v o).energyLog = s.energyLog := rfl
@[simp] theorem State.sched_lowering (s : State) (t p : Nat) (e : Ev) (v : Env) (o : List SlotOp) : (s.sched t p e v o).lowering = s.lowering := rfl
@[simp] theorem State.sched_pairLost (s : State) (t p : Nat) (e : Ev) (v : Env) (o : List SlotOp) : (s.sched t p e v o).pairLost = s.pairLost := rfl
@[simp] theorem State.sched_pathFrom (s : State) (t p : Nat) (e : Ev) (v : Env) (o : List SlotOp) : (s.sched t p e v o).pathFrom = s.pathFrom := rfl
@[simp] theorem State.sched_tookSes (s : State) (t p : Nat) (e : Ev) (v : Env) (o : List SlotOp) : (s.sched t p e v o).tookSes = s.tookSes := rfl
@[simp] theorem State.sched_rx (s : State) (t p : Nat) (e : Ev) (v : Env) (o : List SlotOp) : (s.sched t p e v o).rx = s.rx := rfl
@[simp] theorem State.sched_tx (s : State) (t p : Nat) (e : Ev) (v : Env) (o : List SlotOp) : (s.sched t p e v o).tx = s.tx := rfl
@[simp] theorem State.sched_ptp (s : State) (t p : Nat) (e : Ev) (v : Env) (o : List SlotOp) : (s.sched t p e v o).ptp = s.ptp := rfl
@[simp] theorem State.sched_latch (s : State) (t p : Nat) (e : Ev) (v : Env) (o : List SlotOp) : (s.sched t p e v o).latch = s.latch := rfl
@[simp] theorem State.sched_numVfs (s : State) (t p : Nat) (e : Ev) (v : Env) (o : List SlotOp) : (s.sched t p e v o).numVfs = s.numVfs := rfl
@[simp] theorem State.sched_lq (s : State) (t p : Nat) (e : Ev) (v : Env) (o : List SlotOp) : (s.sched t p e v o).lq = s.lq := rfl
@[simp] theorem State.sched_flr (s : State) (t p : Nat) (e : Ev) (v : Env) (o : List SlotOp) : (s.sched t p e v o).flr = s.flr := rfl
@[simp] theorem State.sched_hostDeny (s : State) (t p : Nat) (e : Ev) (v : Env) (o : List SlotOp) : (s.sched t p e v o).hostDeny = s.hostDeny := rfl
@[simp] theorem State.sched_sigDef (s : State) (t p : Nat) (e : Ev) (v : Env) (o : List SlotOp) : (s.sched t p e v o).sigDef = s.sigDef := rfl
@[simp] theorem State.sched_dirtyAt (s : State) (t p : Nat) (e : Ev) (v : Env) (o : List SlotOp) : (s.sched t p e v o).dirtyAt = s.dirtyAt := rfl
@[simp] theorem State.sched_bbt (s : State) (t p : Nat) (e : Ev) (v : Env) (o : List SlotOp) : (s.sched t p e v o).bbt = s.bbt := rfl
@[simp] theorem State.sched_scrubbing (s : State) (t p : Nat) (e : Ev) (v : Env) (o : List SlotOp) : (s.sched t p e v o).scrubbing = s.scrubbing := rfl
@[simp] theorem State.sched_memOwnNew (s : State) (t p : Nat) (e : Ev) (v : Env) (o : List SlotOp) : (s.sched t p e v o).memOwnNew = s.memOwnNew := rfl
@[simp] theorem State.sched_l1New (s : State) (t p : Nat) (e : Ev) (v : Env) (o : List SlotOp) : (s.sched t p e v o).l1New = s.l1New := rfl
@[simp] theorem State.sched_snap (s : State) (t p : Nat) (e : Ev) (v : Env) (o : List SlotOp) : (s.sched t p e v o).snap = s.snap := rfl
@[simp] theorem State.sched_journal (s : State) (t p : Nat) (e : Ev) (v : Env) (o : List SlotOp) : (s.sched t p e v o).journal = s.journal := rfl
@[simp] theorem State.sched_meas (s : State) (t p : Nat) (e : Ev) (v : Env) (o : List SlotOp) : (s.sched t p e v o).meas = s.meas := rfl
@[simp] theorem State.sched_flash (s : State) (t p : Nat) (e : Ev) (v : Env) (o : List SlotOp) : (s.sched t p e v o).flash = s.flash := rfl
@[simp] theorem State.sched_sjClear (s : State) (t p : Nat) (e : Ev) (v : Env) (o : List SlotOp) : (s.sched t p e v o).sjClear = s.sjClear := rfl
@[simp] theorem State.sched_halted (s : State) (t p : Nat) (e : Ev) (v : Env) (o : List SlotOp) : (s.sched t p e v o).halted = s.halted := rfl
@[simp] theorem State.sched_powered (s : State) (t p : Nat) (e : Ev) (v : Env) (o : List SlotOp) : (s.sched t p e v o).powered = s.powered := rfl
@[simp] theorem State.sched_svcAwait (s : State) (t p : Nat) (e : Ev) (v : Env) (o : List SlotOp) : (s.sched t p e v o).svcAwait = s.svcAwait := rfl
@[simp] theorem State.sched_hostEdits (s : State) (t p : Nat) (e : Ev) (v : Env) (o : List SlotOp) : (s.sched t p e v o).hostEdits = s.hostEdits := rfl
@[simp] theorem State.sched_lg (s : State) (t p : Nat) (e : Ev) (v : Env) (o : List SlotOp) : (s.sched t p e v o).lg = s.lg := rfl

/-! `State.unsched` -/

@[simp] theorem State.unsched_now (s : State) (f : Due → Bool) : (s.unsched f).now = s.now := rfl
@[simp] theorem State.unsched_tickBase (s : State) (f : Due → Bool) : (s.unsched f).tickBase = s.tickBase := rfl
@[simp] theorem State.unsched_seq (s : State) (f : Due → Bool) : (s.unsched f).seq = s.seq := rfl
@[simp] theorem State.unsched_free (s : State) (f : Due → Bool) : (s.unsched f).free = s.free := rfl
@[simp] theorem State.unsched_nextId (s : State) (f : Due → Bool) : (s.unsched f).nextId = s.nextId := rfl
@[simp] theorem State.unsched_env (s : State) (f : Due → Bool) : (s.unsched f).env = s.env := rfl
@[simp] theorem State.unsched_found (s : State) (f : Due → Bool) : (s.unsched f).found = s.found := rfl
@[simp] theorem State.unsched_wants (s : State) (f : Due → Bool) : (s.unsched f).wants = s.wants := rfl
@[simp] theorem State.unsched_issueQ (s : State) (f : Due → Bool) : (s.unsched f).issueQ = s.issueQ := rfl
@[simp] theorem State.unsched_out (s : State) (f : Due → Bool) : (s.unsched f).out = s.out := rfl
@[simp] theorem State.unsched_mem (s : State) (f : Due → Bool) : (s.unsched f).mem = s.mem := rfl
@[simp] theorem State.unsched_csr (s : State) (f : Due → Bool) : (s.unsched f).csr = s.csr := rfl
@[simp] theorem State.unsched_banks (s : State) (f : Due → Bool) : (s.unsched f).banks = s.banks := rfl
@[simp] theorem State.unsched_cores (s : State) (f : Due → Bool) : (s.unsched f).cores = s.cores := rfl
@[simp] theorem State.unsched_clusters (s : State) (f : Due → Bool) : (s.unsched f).clusters = s.clusters := rfl
@[simp] theorem State.unsched_dies (s : State) (f : Due → Bool) : (s.unsched f).dies = s.dies := rfl
@[simp] theorem State.unsched_groups (s : State) (f : Due → Bool) : (s.unsched f).groups = s.groups := rfl
@[simp] theorem State.unsched_streams (s : State) (f : Due → Bool) : (s.unsched f).streams = s.streams := rfl
@[simp] theorem State.unsched_tasks (s : State) (f : Due → Bool) : (s.unsched f).tasks = s.tasks := rfl
@[simp] theorem State.unsched_launches (s : State) (f : Due → Bool) : (s.unsched f).launches = s.launches := rfl
@[simp] theorem State.unsched_cmds (s : State) (f : Due → Bool) : (s.unsched f).cmds = s.cmds := rfl
@[simp] theorem State.unsched_ceTaken (s : State) (f : Due → Bool) : (s.unsched f).ceTaken = s.ceTaken := rfl
@[simp] theorem State.unsched_loads (s : State) (f : Due → Bool) : (s.unsched f).loads = s.loads := rfl
@[simp] theorem State.unsched_stores (s : State) (f : Due → Bool) : (s.unsched f).stores = s.stores := rfl
@[simp] theorem State.unsched_atoms (s : State) (f : Due → Bool) : (s.unsched f).atoms = s.atoms := rfl
@[simp] theorem State.unsched_barriers (s : State) (f : Due → Bool) : (s.unsched f).barriers = s.barriers := rfl
@[simp] theorem State.unsched_allred (s : State) (f : Due → Bool) : (s.unsched f).allred = s.allred := rfl
@[simp] theorem State.unsched_subs (s : State) (f : Due → Bool) : (s.unsched f).subs = s.subs := rfl
@[simp] theorem State.unsched_bwsQ (s : State) (f : Due → Bool) : (s.unsched f).bwsQ = s.bwsQ := rfl
@[simp] theorem State.unsched_ceTlb (s : State) (f : Due → Bool) : (s.unsched f).ceTlb = s.ceTlb := rfl
@[simp] theorem State.unsched_mslTlb (s : State) (f : Due → Bool) : (s.unsched f).mslTlb = s.mslTlb := rfl
@[simp] theorem State.unsched_ports (s : State) (f : Due → Bool) : (s.unsched f).ports = s.ports := rfl
@[simp] theorem State.unsched_fabric (s : State) (f : Due → Bool) : (s.unsched f).fabric = s.fabric := rfl
@[simp] theorem State.unsched_fabIn (s : State) (f : Due → Bool) : (s.unsched f).fabIn = s.fabIn := rfl
@[simp] theorem State.unsched_ethUp (s : State) (f : Due → Bool) : (s.unsched f).ethUp = s.ethUp := rfl
@[simp] theorem State.unsched_pairUp (s : State) (f : Due → Bool) : (s.unsched f).pairUp = s.pairUp := rfl
@[simp] theorem State.unsched_crossDown (s : State) (f : Due → Bool) : (s.unsched f).crossDown = s.crossDown := rfl
@[simp] theorem State.unsched_hif (s : State) (f : Due → Bool) : (s.unsched f).hif = s.hif := rfl
@[simp] theorem State.unsched_energyLog (s : State) (f : Due → Bool) : (s.unsched f).energyLog = s.energyLog := rfl
@[simp] theorem State.unsched_lowering (s : State) (f : Due → Bool) : (s.unsched f).lowering = s.lowering := rfl
@[simp] theorem State.unsched_pairLost (s : State) (f : Due → Bool) : (s.unsched f).pairLost = s.pairLost := rfl
@[simp] theorem State.unsched_pathFrom (s : State) (f : Due → Bool) : (s.unsched f).pathFrom = s.pathFrom := rfl
@[simp] theorem State.unsched_tookSes (s : State) (f : Due → Bool) : (s.unsched f).tookSes = s.tookSes := rfl
@[simp] theorem State.unsched_rx (s : State) (f : Due → Bool) : (s.unsched f).rx = s.rx := rfl
@[simp] theorem State.unsched_tx (s : State) (f : Due → Bool) : (s.unsched f).tx = s.tx := rfl
@[simp] theorem State.unsched_ptp (s : State) (f : Due → Bool) : (s.unsched f).ptp = s.ptp := rfl
@[simp] theorem State.unsched_latch (s : State) (f : Due → Bool) : (s.unsched f).latch = s.latch := rfl
@[simp] theorem State.unsched_numVfs (s : State) (f : Due → Bool) : (s.unsched f).numVfs = s.numVfs := rfl
@[simp] theorem State.unsched_lq (s : State) (f : Due → Bool) : (s.unsched f).lq = s.lq := rfl
@[simp] theorem State.unsched_flr (s : State) (f : Due → Bool) : (s.unsched f).flr = s.flr := rfl
@[simp] theorem State.unsched_hostDeny (s : State) (f : Due → Bool) : (s.unsched f).hostDeny = s.hostDeny := rfl
@[simp] theorem State.unsched_sigDef (s : State) (f : Due → Bool) : (s.unsched f).sigDef = s.sigDef := rfl
@[simp] theorem State.unsched_dirtyAt (s : State) (f : Due → Bool) : (s.unsched f).dirtyAt = s.dirtyAt := rfl
@[simp] theorem State.unsched_bbt (s : State) (f : Due → Bool) : (s.unsched f).bbt = s.bbt := rfl
@[simp] theorem State.unsched_scrubbing (s : State) (f : Due → Bool) : (s.unsched f).scrubbing = s.scrubbing := rfl
@[simp] theorem State.unsched_memOwnNew (s : State) (f : Due → Bool) : (s.unsched f).memOwnNew = s.memOwnNew := rfl
@[simp] theorem State.unsched_l1New (s : State) (f : Due → Bool) : (s.unsched f).l1New = s.l1New := rfl
@[simp] theorem State.unsched_snap (s : State) (f : Due → Bool) : (s.unsched f).snap = s.snap := rfl
@[simp] theorem State.unsched_journal (s : State) (f : Due → Bool) : (s.unsched f).journal = s.journal := rfl
@[simp] theorem State.unsched_meas (s : State) (f : Due → Bool) : (s.unsched f).meas = s.meas := rfl
@[simp] theorem State.unsched_flash (s : State) (f : Due → Bool) : (s.unsched f).flash = s.flash := rfl
@[simp] theorem State.unsched_sjClear (s : State) (f : Due → Bool) : (s.unsched f).sjClear = s.sjClear := rfl
@[simp] theorem State.unsched_halted (s : State) (f : Due → Bool) : (s.unsched f).halted = s.halted := rfl
@[simp] theorem State.unsched_powered (s : State) (f : Due → Bool) : (s.unsched f).powered = s.powered := rfl
@[simp] theorem State.unsched_svcAwait (s : State) (f : Due → Bool) : (s.unsched f).svcAwait = s.svcAwait := rfl
@[simp] theorem State.unsched_hostEdits (s : State) (f : Due → Bool) : (s.unsched f).hostEdits = s.hostEdits := rfl
@[simp] theorem State.unsched_lg (s : State) (f : Due → Bool) : (s.unsched f).lg = s.lg := rfl

/-! `State.freed` -/

@[simp] theorem State.freed_now (s : State) : (s.freed).now = s.now := rfl
@[simp] theorem State.freed_tickBase (s : State) : (s.freed).tickBase = s.tickBase := rfl
@[simp] theorem State.freed_seq (s : State) : (s.freed).seq = s.seq := rfl
@[simp] theorem State.freed_nextId (s : State) : (s.freed).nextId = s.nextId := rfl
@[simp] theorem State.freed_agenda (s : State) : (s.freed).agenda = s.agenda := rfl
@[simp] theorem State.freed_env (s : State) : (s.freed).env = s.env := rfl
@[simp] theorem State.freed_found (s : State) : (s.freed).found = s.found := rfl
@[simp] theorem State.freed_wants (s : State) : (s.freed).wants = s.wants := rfl
@[simp] theorem State.freed_issueQ (s : State) : (s.freed).issueQ = s.issueQ := rfl
@[simp] theorem State.freed_out (s : State) : (s.freed).out = s.out := rfl
@[simp] theorem State.freed_mem (s : State) : (s.freed).mem = s.mem := rfl
@[simp] theorem State.freed_csr (s : State) : (s.freed).csr = s.csr := rfl
@[simp] theorem State.freed_banks (s : State) : (s.freed).banks = s.banks := rfl
@[simp] theorem State.freed_cores (s : State) : (s.freed).cores = s.cores := rfl
@[simp] theorem State.freed_clusters (s : State) : (s.freed).clusters = s.clusters := rfl
@[simp] theorem State.freed_dies (s : State) : (s.freed).dies = s.dies := rfl
@[simp] theorem State.freed_groups (s : State) : (s.freed).groups = s.groups := rfl
@[simp] theorem State.freed_streams (s : State) : (s.freed).streams = s.streams := rfl
@[simp] theorem State.freed_tasks (s : State) : (s.freed).tasks = s.tasks := rfl
@[simp] theorem State.freed_launches (s : State) : (s.freed).launches = s.launches := rfl
@[simp] theorem State.freed_cmds (s : State) : (s.freed).cmds = s.cmds := rfl
@[simp] theorem State.freed_ceTaken (s : State) : (s.freed).ceTaken = s.ceTaken := rfl
@[simp] theorem State.freed_loads (s : State) : (s.freed).loads = s.loads := rfl
@[simp] theorem State.freed_stores (s : State) : (s.freed).stores = s.stores := rfl
@[simp] theorem State.freed_atoms (s : State) : (s.freed).atoms = s.atoms := rfl
@[simp] theorem State.freed_barriers (s : State) : (s.freed).barriers = s.barriers := rfl
@[simp] theorem State.freed_allred (s : State) : (s.freed).allred = s.allred := rfl
@[simp] theorem State.freed_subs (s : State) : (s.freed).subs = s.subs := rfl
@[simp] theorem State.freed_bwsQ (s : State) : (s.freed).bwsQ = s.bwsQ := rfl
@[simp] theorem State.freed_ceTlb (s : State) : (s.freed).ceTlb = s.ceTlb := rfl
@[simp] theorem State.freed_mslTlb (s : State) : (s.freed).mslTlb = s.mslTlb := rfl
@[simp] theorem State.freed_ports (s : State) : (s.freed).ports = s.ports := rfl
@[simp] theorem State.freed_fabric (s : State) : (s.freed).fabric = s.fabric := rfl
@[simp] theorem State.freed_fabIn (s : State) : (s.freed).fabIn = s.fabIn := rfl
@[simp] theorem State.freed_ethUp (s : State) : (s.freed).ethUp = s.ethUp := rfl
@[simp] theorem State.freed_pairUp (s : State) : (s.freed).pairUp = s.pairUp := rfl
@[simp] theorem State.freed_crossDown (s : State) : (s.freed).crossDown = s.crossDown := rfl
@[simp] theorem State.freed_hif (s : State) : (s.freed).hif = s.hif := rfl
@[simp] theorem State.freed_energyLog (s : State) : (s.freed).energyLog = s.energyLog := rfl
@[simp] theorem State.freed_lowering (s : State) : (s.freed).lowering = s.lowering := rfl
@[simp] theorem State.freed_pairLost (s : State) : (s.freed).pairLost = s.pairLost := rfl
@[simp] theorem State.freed_pathFrom (s : State) : (s.freed).pathFrom = s.pathFrom := rfl
@[simp] theorem State.freed_tookSes (s : State) : (s.freed).tookSes = s.tookSes := rfl
@[simp] theorem State.freed_rx (s : State) : (s.freed).rx = s.rx := rfl
@[simp] theorem State.freed_tx (s : State) : (s.freed).tx = s.tx := rfl
@[simp] theorem State.freed_ptp (s : State) : (s.freed).ptp = s.ptp := rfl
@[simp] theorem State.freed_latch (s : State) : (s.freed).latch = s.latch := rfl
@[simp] theorem State.freed_numVfs (s : State) : (s.freed).numVfs = s.numVfs := rfl
@[simp] theorem State.freed_lq (s : State) : (s.freed).lq = s.lq := rfl
@[simp] theorem State.freed_flr (s : State) : (s.freed).flr = s.flr := rfl
@[simp] theorem State.freed_hostDeny (s : State) : (s.freed).hostDeny = s.hostDeny := rfl
@[simp] theorem State.freed_sigDef (s : State) : (s.freed).sigDef = s.sigDef := rfl
@[simp] theorem State.freed_dirtyAt (s : State) : (s.freed).dirtyAt = s.dirtyAt := rfl
@[simp] theorem State.freed_bbt (s : State) : (s.freed).bbt = s.bbt := rfl
@[simp] theorem State.freed_scrubbing (s : State) : (s.freed).scrubbing = s.scrubbing := rfl
@[simp] theorem State.freed_memOwnNew (s : State) : (s.freed).memOwnNew = s.memOwnNew := rfl
@[simp] theorem State.freed_l1New (s : State) : (s.freed).l1New = s.l1New := rfl
@[simp] theorem State.freed_snap (s : State) : (s.freed).snap = s.snap := rfl
@[simp] theorem State.freed_journal (s : State) : (s.freed).journal = s.journal := rfl
@[simp] theorem State.freed_meas (s : State) : (s.freed).meas = s.meas := rfl
@[simp] theorem State.freed_flash (s : State) : (s.freed).flash = s.flash := rfl
@[simp] theorem State.freed_sjClear (s : State) : (s.freed).sjClear = s.sjClear := rfl
@[simp] theorem State.freed_halted (s : State) : (s.freed).halted = s.halted := rfl
@[simp] theorem State.freed_powered (s : State) : (s.freed).powered = s.powered := rfl
@[simp] theorem State.freed_svcAwait (s : State) : (s.freed).svcAwait = s.svcAwait := rfl
@[simp] theorem State.freed_hostEdits (s : State) : (s.freed).hostEdits = s.hostEdits := rfl
@[simp] theorem State.freed_lg (s : State) : (s.freed).lg = s.lg := rfl

/-! `State.send` -/

@[simp] theorem State.send_now (s : State) (m : Msg) : (s.send m).now = s.now := rfl
@[simp] theorem State.send_tickBase (s : State) (m : Msg) : (s.send m).tickBase = s.tickBase := rfl
@[simp] theorem State.send_seq (s : State) (m : Msg) : (s.send m).seq = s.seq := rfl
@[simp] theorem State.send_free (s : State) (m : Msg) : (s.send m).free = s.free := rfl
@[simp] theorem State.send_nextId (s : State) (m : Msg) : (s.send m).nextId = s.nextId := rfl
@[simp] theorem State.send_agenda (s : State) (m : Msg) : (s.send m).agenda = s.agenda := rfl
@[simp] theorem State.send_env (s : State) (m : Msg) : (s.send m).env = s.env := rfl
@[simp] theorem State.send_found (s : State) (m : Msg) : (s.send m).found = s.found := rfl
@[simp] theorem State.send_wants (s : State) (m : Msg) : (s.send m).wants = s.wants := rfl
@[simp] theorem State.send_issueQ (s : State) (m : Msg) : (s.send m).issueQ = s.issueQ := rfl
@[simp] theorem State.send_mem (s : State) (m : Msg) : (s.send m).mem = s.mem := rfl
@[simp] theorem State.send_csr (s : State) (m : Msg) : (s.send m).csr = s.csr := rfl
@[simp] theorem State.send_banks (s : State) (m : Msg) : (s.send m).banks = s.banks := rfl
@[simp] theorem State.send_cores (s : State) (m : Msg) : (s.send m).cores = s.cores := rfl
@[simp] theorem State.send_clusters (s : State) (m : Msg) : (s.send m).clusters = s.clusters := rfl
@[simp] theorem State.send_dies (s : State) (m : Msg) : (s.send m).dies = s.dies := rfl
@[simp] theorem State.send_groups (s : State) (m : Msg) : (s.send m).groups = s.groups := rfl
@[simp] theorem State.send_streams (s : State) (m : Msg) : (s.send m).streams = s.streams := rfl
@[simp] theorem State.send_tasks (s : State) (m : Msg) : (s.send m).tasks = s.tasks := rfl
@[simp] theorem State.send_launches (s : State) (m : Msg) : (s.send m).launches = s.launches := rfl
@[simp] theorem State.send_cmds (s : State) (m : Msg) : (s.send m).cmds = s.cmds := rfl
@[simp] theorem State.send_ceTaken (s : State) (m : Msg) : (s.send m).ceTaken = s.ceTaken := rfl
@[simp] theorem State.send_loads (s : State) (m : Msg) : (s.send m).loads = s.loads := rfl
@[simp] theorem State.send_stores (s : State) (m : Msg) : (s.send m).stores = s.stores := rfl
@[simp] theorem State.send_atoms (s : State) (m : Msg) : (s.send m).atoms = s.atoms := rfl
@[simp] theorem State.send_barriers (s : State) (m : Msg) : (s.send m).barriers = s.barriers := rfl
@[simp] theorem State.send_allred (s : State) (m : Msg) : (s.send m).allred = s.allred := rfl
@[simp] theorem State.send_subs (s : State) (m : Msg) : (s.send m).subs = s.subs := rfl
@[simp] theorem State.send_bwsQ (s : State) (m : Msg) : (s.send m).bwsQ = s.bwsQ := rfl
@[simp] theorem State.send_ceTlb (s : State) (m : Msg) : (s.send m).ceTlb = s.ceTlb := rfl
@[simp] theorem State.send_mslTlb (s : State) (m : Msg) : (s.send m).mslTlb = s.mslTlb := rfl
@[simp] theorem State.send_ports (s : State) (m : Msg) : (s.send m).ports = s.ports := rfl
@[simp] theorem State.send_fabric (s : State) (m : Msg) : (s.send m).fabric = s.fabric := rfl
@[simp] theorem State.send_fabIn (s : State) (m : Msg) : (s.send m).fabIn = s.fabIn := rfl
@[simp] theorem State.send_ethUp (s : State) (m : Msg) : (s.send m).ethUp = s.ethUp := rfl
@[simp] theorem State.send_pairUp (s : State) (m : Msg) : (s.send m).pairUp = s.pairUp := rfl
@[simp] theorem State.send_crossDown (s : State) (m : Msg) : (s.send m).crossDown = s.crossDown := rfl
@[simp] theorem State.send_hif (s : State) (m : Msg) : (s.send m).hif = s.hif := rfl
@[simp] theorem State.send_energyLog (s : State) (m : Msg) : (s.send m).energyLog = s.energyLog := rfl
@[simp] theorem State.send_lowering (s : State) (m : Msg) : (s.send m).lowering = s.lowering := rfl
@[simp] theorem State.send_pairLost (s : State) (m : Msg) : (s.send m).pairLost = s.pairLost := rfl
@[simp] theorem State.send_pathFrom (s : State) (m : Msg) : (s.send m).pathFrom = s.pathFrom := rfl
@[simp] theorem State.send_tookSes (s : State) (m : Msg) : (s.send m).tookSes = s.tookSes := rfl
@[simp] theorem State.send_rx (s : State) (m : Msg) : (s.send m).rx = s.rx := rfl
@[simp] theorem State.send_tx (s : State) (m : Msg) : (s.send m).tx = s.tx := rfl
@[simp] theorem State.send_ptp (s : State) (m : Msg) : (s.send m).ptp = s.ptp := rfl
@[simp] theorem State.send_latch (s : State) (m : Msg) : (s.send m).latch = s.latch := rfl
@[simp] theorem State.send_numVfs (s : State) (m : Msg) : (s.send m).numVfs = s.numVfs := rfl
@[simp] theorem State.send_lq (s : State) (m : Msg) : (s.send m).lq = s.lq := rfl
@[simp] theorem State.send_flr (s : State) (m : Msg) : (s.send m).flr = s.flr := rfl
@[simp] theorem State.send_hostDeny (s : State) (m : Msg) : (s.send m).hostDeny = s.hostDeny := rfl
@[simp] theorem State.send_sigDef (s : State) (m : Msg) : (s.send m).sigDef = s.sigDef := rfl
@[simp] theorem State.send_dirtyAt (s : State) (m : Msg) : (s.send m).dirtyAt = s.dirtyAt := rfl
@[simp] theorem State.send_bbt (s : State) (m : Msg) : (s.send m).bbt = s.bbt := rfl
@[simp] theorem State.send_scrubbing (s : State) (m : Msg) : (s.send m).scrubbing = s.scrubbing := rfl
@[simp] theorem State.send_memOwnNew (s : State) (m : Msg) : (s.send m).memOwnNew = s.memOwnNew := rfl
@[simp] theorem State.send_l1New (s : State) (m : Msg) : (s.send m).l1New = s.l1New := rfl
@[simp] theorem State.send_snap (s : State) (m : Msg) : (s.send m).snap = s.snap := rfl
@[simp] theorem State.send_journal (s : State) (m : Msg) : (s.send m).journal = s.journal := rfl
@[simp] theorem State.send_meas (s : State) (m : Msg) : (s.send m).meas = s.meas := rfl
@[simp] theorem State.send_flash (s : State) (m : Msg) : (s.send m).flash = s.flash := rfl
@[simp] theorem State.send_sjClear (s : State) (m : Msg) : (s.send m).sjClear = s.sjClear := rfl
@[simp] theorem State.send_halted (s : State) (m : Msg) : (s.send m).halted = s.halted := rfl
@[simp] theorem State.send_powered (s : State) (m : Msg) : (s.send m).powered = s.powered := rfl
@[simp] theorem State.send_svcAwait (s : State) (m : Msg) : (s.send m).svcAwait = s.svcAwait := rfl
@[simp] theorem State.send_hostEdits (s : State) (m : Msg) : (s.send m).hostEdits = s.hostEdits := rfl
@[simp] theorem State.send_lg (s : State) (m : Msg) : (s.send m).lg = s.lg := rfl

/-! `State.memStore` -/

@[simp] theorem State.memStore_now (s : State) (a : Nat) (b : List Byte) : (s.memStore a b).now = s.now := rfl
@[simp] theorem State.memStore_tickBase (s : State) (a : Nat) (b : List Byte) : (s.memStore a b).tickBase = s.tickBase := rfl
@[simp] theorem State.memStore_seq (s : State) (a : Nat) (b : List Byte) : (s.memStore a b).seq = s.seq := rfl
@[simp] theorem State.memStore_free (s : State) (a : Nat) (b : List Byte) : (s.memStore a b).free = s.free := rfl
@[simp] theorem State.memStore_nextId (s : State) (a : Nat) (b : List Byte) : (s.memStore a b).nextId = s.nextId := rfl
@[simp] theorem State.memStore_agenda (s : State) (a : Nat) (b : List Byte) : (s.memStore a b).agenda = s.agenda := rfl
@[simp] theorem State.memStore_env (s : State) (a : Nat) (b : List Byte) : (s.memStore a b).env = s.env := rfl
@[simp] theorem State.memStore_found (s : State) (a : Nat) (b : List Byte) : (s.memStore a b).found = s.found := rfl
@[simp] theorem State.memStore_wants (s : State) (a : Nat) (b : List Byte) : (s.memStore a b).wants = s.wants := rfl
@[simp] theorem State.memStore_issueQ (s : State) (a : Nat) (b : List Byte) : (s.memStore a b).issueQ = s.issueQ := rfl
@[simp] theorem State.memStore_out (s : State) (a : Nat) (b : List Byte) : (s.memStore a b).out = s.out := rfl
@[simp] theorem State.memStore_csr (s : State) (a : Nat) (b : List Byte) : (s.memStore a b).csr = s.csr := rfl
@[simp] theorem State.memStore_banks (s : State) (a : Nat) (b : List Byte) : (s.memStore a b).banks = s.banks := rfl
@[simp] theorem State.memStore_cores (s : State) (a : Nat) (b : List Byte) : (s.memStore a b).cores = s.cores := rfl
@[simp] theorem State.memStore_clusters (s : State) (a : Nat) (b : List Byte) : (s.memStore a b).clusters = s.clusters := rfl
@[simp] theorem State.memStore_dies (s : State) (a : Nat) (b : List Byte) : (s.memStore a b).dies = s.dies := rfl
@[simp] theorem State.memStore_groups (s : State) (a : Nat) (b : List Byte) : (s.memStore a b).groups = s.groups := rfl
@[simp] theorem State.memStore_streams (s : State) (a : Nat) (b : List Byte) : (s.memStore a b).streams = s.streams := rfl
@[simp] theorem State.memStore_tasks (s : State) (a : Nat) (b : List Byte) : (s.memStore a b).tasks = s.tasks := rfl
@[simp] theorem State.memStore_launches (s : State) (a : Nat) (b : List Byte) : (s.memStore a b).launches = s.launches := rfl
@[simp] theorem State.memStore_cmds (s : State) (a : Nat) (b : List Byte) : (s.memStore a b).cmds = s.cmds := rfl
@[simp] theorem State.memStore_ceTaken (s : State) (a : Nat) (b : List Byte) : (s.memStore a b).ceTaken = s.ceTaken := rfl
@[simp] theorem State.memStore_loads (s : State) (a : Nat) (b : List Byte) : (s.memStore a b).loads = s.loads := rfl
@[simp] theorem State.memStore_stores (s : State) (a : Nat) (b : List Byte) : (s.memStore a b).stores = s.stores := rfl
@[simp] theorem State.memStore_atoms (s : State) (a : Nat) (b : List Byte) : (s.memStore a b).atoms = s.atoms := rfl
@[simp] theorem State.memStore_barriers (s : State) (a : Nat) (b : List Byte) : (s.memStore a b).barriers = s.barriers := rfl
@[simp] theorem State.memStore_allred (s : State) (a : Nat) (b : List Byte) : (s.memStore a b).allred = s.allred := rfl
@[simp] theorem State.memStore_subs (s : State) (a : Nat) (b : List Byte) : (s.memStore a b).subs = s.subs := rfl
@[simp] theorem State.memStore_bwsQ (s : State) (a : Nat) (b : List Byte) : (s.memStore a b).bwsQ = s.bwsQ := rfl
@[simp] theorem State.memStore_ceTlb (s : State) (a : Nat) (b : List Byte) : (s.memStore a b).ceTlb = s.ceTlb := rfl
@[simp] theorem State.memStore_mslTlb (s : State) (a : Nat) (b : List Byte) : (s.memStore a b).mslTlb = s.mslTlb := rfl
@[simp] theorem State.memStore_ports (s : State) (a : Nat) (b : List Byte) : (s.memStore a b).ports = s.ports := rfl
@[simp] theorem State.memStore_fabric (s : State) (a : Nat) (b : List Byte) : (s.memStore a b).fabric = s.fabric := rfl
@[simp] theorem State.memStore_fabIn (s : State) (a : Nat) (b : List Byte) : (s.memStore a b).fabIn = s.fabIn := rfl
@[simp] theorem State.memStore_ethUp (s : State) (a : Nat) (b : List Byte) : (s.memStore a b).ethUp = s.ethUp := rfl
@[simp] theorem State.memStore_pairUp (s : State) (a : Nat) (b : List Byte) : (s.memStore a b).pairUp = s.pairUp := rfl
@[simp] theorem State.memStore_crossDown (s : State) (a : Nat) (b : List Byte) : (s.memStore a b).crossDown = s.crossDown := rfl
@[simp] theorem State.memStore_hif (s : State) (a : Nat) (b : List Byte) : (s.memStore a b).hif = s.hif := rfl
@[simp] theorem State.memStore_energyLog (s : State) (a : Nat) (b : List Byte) : (s.memStore a b).energyLog = s.energyLog := rfl
@[simp] theorem State.memStore_lowering (s : State) (a : Nat) (b : List Byte) : (s.memStore a b).lowering = s.lowering := rfl
@[simp] theorem State.memStore_pairLost (s : State) (a : Nat) (b : List Byte) : (s.memStore a b).pairLost = s.pairLost := rfl
@[simp] theorem State.memStore_pathFrom (s : State) (a : Nat) (b : List Byte) : (s.memStore a b).pathFrom = s.pathFrom := rfl
@[simp] theorem State.memStore_tookSes (s : State) (a : Nat) (b : List Byte) : (s.memStore a b).tookSes = s.tookSes := rfl
@[simp] theorem State.memStore_rx (s : State) (a : Nat) (b : List Byte) : (s.memStore a b).rx = s.rx := rfl
@[simp] theorem State.memStore_tx (s : State) (a : Nat) (b : List Byte) : (s.memStore a b).tx = s.tx := rfl
@[simp] theorem State.memStore_ptp (s : State) (a : Nat) (b : List Byte) : (s.memStore a b).ptp = s.ptp := rfl
@[simp] theorem State.memStore_latch (s : State) (a : Nat) (b : List Byte) : (s.memStore a b).latch = s.latch := rfl
@[simp] theorem State.memStore_numVfs (s : State) (a : Nat) (b : List Byte) : (s.memStore a b).numVfs = s.numVfs := rfl
@[simp] theorem State.memStore_lq (s : State) (a : Nat) (b : List Byte) : (s.memStore a b).lq = s.lq := rfl
@[simp] theorem State.memStore_flr (s : State) (a : Nat) (b : List Byte) : (s.memStore a b).flr = s.flr := rfl
@[simp] theorem State.memStore_hostDeny (s : State) (a : Nat) (b : List Byte) : (s.memStore a b).hostDeny = s.hostDeny := rfl
@[simp] theorem State.memStore_sigDef (s : State) (a : Nat) (b : List Byte) : (s.memStore a b).sigDef = s.sigDef := rfl
@[simp] theorem State.memStore_dirtyAt (s : State) (a : Nat) (b : List Byte) : (s.memStore a b).dirtyAt = s.dirtyAt := rfl
@[simp] theorem State.memStore_bbt (s : State) (a : Nat) (b : List Byte) : (s.memStore a b).bbt = s.bbt := rfl
@[simp] theorem State.memStore_scrubbing (s : State) (a : Nat) (b : List Byte) : (s.memStore a b).scrubbing = s.scrubbing := rfl
@[simp] theorem State.memStore_memOwnNew (s : State) (a : Nat) (b : List Byte) : (s.memStore a b).memOwnNew = s.memOwnNew := rfl
@[simp] theorem State.memStore_l1New (s : State) (a : Nat) (b : List Byte) : (s.memStore a b).l1New = s.l1New := rfl
@[simp] theorem State.memStore_snap (s : State) (a : Nat) (b : List Byte) : (s.memStore a b).snap = s.snap := rfl
@[simp] theorem State.memStore_journal (s : State) (a : Nat) (b : List Byte) : (s.memStore a b).journal = s.journal := rfl
@[simp] theorem State.memStore_meas (s : State) (a : Nat) (b : List Byte) : (s.memStore a b).meas = s.meas := rfl
@[simp] theorem State.memStore_flash (s : State) (a : Nat) (b : List Byte) : (s.memStore a b).flash = s.flash := rfl
@[simp] theorem State.memStore_sjClear (s : State) (a : Nat) (b : List Byte) : (s.memStore a b).sjClear = s.sjClear := rfl
@[simp] theorem State.memStore_halted (s : State) (a : Nat) (b : List Byte) : (s.memStore a b).halted = s.halted := rfl
@[simp] theorem State.memStore_powered (s : State) (a : Nat) (b : List Byte) : (s.memStore a b).powered = s.powered := rfl
@[simp] theorem State.memStore_svcAwait (s : State) (a : Nat) (b : List Byte) : (s.memStore a b).svcAwait = s.svcAwait := rfl
@[simp] theorem State.memStore_hostEdits (s : State) (a : Nat) (b : List Byte) : (s.memStore a b).hostEdits = s.hostEdits := rfl
@[simp] theorem State.memStore_lg (s : State) (a : Nat) (b : List Byte) : (s.memStore a b).lg = s.lg := rfl

/-! `State.memStoreMasked` -/

@[simp] theorem State.memStoreMasked_now (s : State) (a : Nat) (b : List Byte) (m : List Bool) : (s.memStoreMasked a b m).now = s.now := rfl
@[simp] theorem State.memStoreMasked_tickBase (s : State) (a : Nat) (b : List Byte) (m : List Bool) : (s.memStoreMasked a b m).tickBase = s.tickBase := rfl
@[simp] theorem State.memStoreMasked_seq (s : State) (a : Nat) (b : List Byte) (m : List Bool) : (s.memStoreMasked a b m).seq = s.seq := rfl
@[simp] theorem State.memStoreMasked_free (s : State) (a : Nat) (b : List Byte) (m : List Bool) : (s.memStoreMasked a b m).free = s.free := rfl
@[simp] theorem State.memStoreMasked_nextId (s : State) (a : Nat) (b : List Byte) (m : List Bool) : (s.memStoreMasked a b m).nextId = s.nextId := rfl
@[simp] theorem State.memStoreMasked_agenda (s : State) (a : Nat) (b : List Byte) (m : List Bool) : (s.memStoreMasked a b m).agenda = s.agenda := rfl
@[simp] theorem State.memStoreMasked_env (s : State) (a : Nat) (b : List Byte) (m : List Bool) : (s.memStoreMasked a b m).env = s.env := rfl
@[simp] theorem State.memStoreMasked_found (s : State) (a : Nat) (b : List Byte) (m : List Bool) : (s.memStoreMasked a b m).found = s.found := rfl
@[simp] theorem State.memStoreMasked_wants (s : State) (a : Nat) (b : List Byte) (m : List Bool) : (s.memStoreMasked a b m).wants = s.wants := rfl
@[simp] theorem State.memStoreMasked_issueQ (s : State) (a : Nat) (b : List Byte) (m : List Bool) : (s.memStoreMasked a b m).issueQ = s.issueQ := rfl
@[simp] theorem State.memStoreMasked_out (s : State) (a : Nat) (b : List Byte) (m : List Bool) : (s.memStoreMasked a b m).out = s.out := rfl
@[simp] theorem State.memStoreMasked_csr (s : State) (a : Nat) (b : List Byte) (m : List Bool) : (s.memStoreMasked a b m).csr = s.csr := rfl
@[simp] theorem State.memStoreMasked_banks (s : State) (a : Nat) (b : List Byte) (m : List Bool) : (s.memStoreMasked a b m).banks = s.banks := rfl
@[simp] theorem State.memStoreMasked_cores (s : State) (a : Nat) (b : List Byte) (m : List Bool) : (s.memStoreMasked a b m).cores = s.cores := rfl
@[simp] theorem State.memStoreMasked_clusters (s : State) (a : Nat) (b : List Byte) (m : List Bool) : (s.memStoreMasked a b m).clusters = s.clusters := rfl
@[simp] theorem State.memStoreMasked_dies (s : State) (a : Nat) (b : List Byte) (m : List Bool) : (s.memStoreMasked a b m).dies = s.dies := rfl
@[simp] theorem State.memStoreMasked_groups (s : State) (a : Nat) (b : List Byte) (m : List Bool) : (s.memStoreMasked a b m).groups = s.groups := rfl
@[simp] theorem State.memStoreMasked_streams (s : State) (a : Nat) (b : List Byte) (m : List Bool) : (s.memStoreMasked a b m).streams = s.streams := rfl
@[simp] theorem State.memStoreMasked_tasks (s : State) (a : Nat) (b : List Byte) (m : List Bool) : (s.memStoreMasked a b m).tasks = s.tasks := rfl
@[simp] theorem State.memStoreMasked_launches (s : State) (a : Nat) (b : List Byte) (m : List Bool) : (s.memStoreMasked a b m).launches = s.launches := rfl
@[simp] theorem State.memStoreMasked_cmds (s : State) (a : Nat) (b : List Byte) (m : List Bool) : (s.memStoreMasked a b m).cmds = s.cmds := rfl
@[simp] theorem State.memStoreMasked_ceTaken (s : State) (a : Nat) (b : List Byte) (m : List Bool) : (s.memStoreMasked a b m).ceTaken = s.ceTaken := rfl
@[simp] theorem State.memStoreMasked_loads (s : State) (a : Nat) (b : List Byte) (m : List Bool) : (s.memStoreMasked a b m).loads = s.loads := rfl
@[simp] theorem State.memStoreMasked_stores (s : State) (a : Nat) (b : List Byte) (m : List Bool) : (s.memStoreMasked a b m).stores = s.stores := rfl
@[simp] theorem State.memStoreMasked_atoms (s : State) (a : Nat) (b : List Byte) (m : List Bool) : (s.memStoreMasked a b m).atoms = s.atoms := rfl
@[simp] theorem State.memStoreMasked_barriers (s : State) (a : Nat) (b : List Byte) (m : List Bool) : (s.memStoreMasked a b m).barriers = s.barriers := rfl
@[simp] theorem State.memStoreMasked_allred (s : State) (a : Nat) (b : List Byte) (m : List Bool) : (s.memStoreMasked a b m).allred = s.allred := rfl
@[simp] theorem State.memStoreMasked_subs (s : State) (a : Nat) (b : List Byte) (m : List Bool) : (s.memStoreMasked a b m).subs = s.subs := rfl
@[simp] theorem State.memStoreMasked_bwsQ (s : State) (a : Nat) (b : List Byte) (m : List Bool) : (s.memStoreMasked a b m).bwsQ = s.bwsQ := rfl
@[simp] theorem State.memStoreMasked_ceTlb (s : State) (a : Nat) (b : List Byte) (m : List Bool) : (s.memStoreMasked a b m).ceTlb = s.ceTlb := rfl
@[simp] theorem State.memStoreMasked_mslTlb (s : State) (a : Nat) (b : List Byte) (m : List Bool) : (s.memStoreMasked a b m).mslTlb = s.mslTlb := rfl
@[simp] theorem State.memStoreMasked_ports (s : State) (a : Nat) (b : List Byte) (m : List Bool) : (s.memStoreMasked a b m).ports = s.ports := rfl
@[simp] theorem State.memStoreMasked_fabric (s : State) (a : Nat) (b : List Byte) (m : List Bool) : (s.memStoreMasked a b m).fabric = s.fabric := rfl
@[simp] theorem State.memStoreMasked_fabIn (s : State) (a : Nat) (b : List Byte) (m : List Bool) : (s.memStoreMasked a b m).fabIn = s.fabIn := rfl
@[simp] theorem State.memStoreMasked_ethUp (s : State) (a : Nat) (b : List Byte) (m : List Bool) : (s.memStoreMasked a b m).ethUp = s.ethUp := rfl
@[simp] theorem State.memStoreMasked_pairUp (s : State) (a : Nat) (b : List Byte) (m : List Bool) : (s.memStoreMasked a b m).pairUp = s.pairUp := rfl
@[simp] theorem State.memStoreMasked_crossDown (s : State) (a : Nat) (b : List Byte) (m : List Bool) : (s.memStoreMasked a b m).crossDown = s.crossDown := rfl
@[simp] theorem State.memStoreMasked_hif (s : State) (a : Nat) (b : List Byte) (m : List Bool) : (s.memStoreMasked a b m).hif = s.hif := rfl
@[simp] theorem State.memStoreMasked_energyLog (s : State) (a : Nat) (b : List Byte) (m : List Bool) : (s.memStoreMasked a b m).energyLog = s.energyLog := rfl
@[simp] theorem State.memStoreMasked_lowering (s : State) (a : Nat) (b : List Byte) (m : List Bool) : (s.memStoreMasked a b m).lowering = s.lowering := rfl
@[simp] theorem State.memStoreMasked_pairLost (s : State) (a : Nat) (b : List Byte) (m : List Bool) : (s.memStoreMasked a b m).pairLost = s.pairLost := rfl
@[simp] theorem State.memStoreMasked_pathFrom (s : State) (a : Nat) (b : List Byte) (m : List Bool) : (s.memStoreMasked a b m).pathFrom = s.pathFrom := rfl
@[simp] theorem State.memStoreMasked_tookSes (s : State) (a : Nat) (b : List Byte) (m : List Bool) : (s.memStoreMasked a b m).tookSes = s.tookSes := rfl
@[simp] theorem State.memStoreMasked_rx (s : State) (a : Nat) (b : List Byte) (m : List Bool) : (s.memStoreMasked a b m).rx = s.rx := rfl
@[simp] theorem State.memStoreMasked_tx (s : State) (a : Nat) (b : List Byte) (m : List Bool) : (s.memStoreMasked a b m).tx = s.tx := rfl
@[simp] theorem State.memStoreMasked_ptp (s : State) (a : Nat) (b : List Byte) (m : List Bool) : (s.memStoreMasked a b m).ptp = s.ptp := rfl
@[simp] theorem State.memStoreMasked_latch (s : State) (a : Nat) (b : List Byte) (m : List Bool) : (s.memStoreMasked a b m).latch = s.latch := rfl
@[simp] theorem State.memStoreMasked_numVfs (s : State) (a : Nat) (b : List Byte) (m : List Bool) : (s.memStoreMasked a b m).numVfs = s.numVfs := rfl
@[simp] theorem State.memStoreMasked_lq (s : State) (a : Nat) (b : List Byte) (m : List Bool) : (s.memStoreMasked a b m).lq = s.lq := rfl
@[simp] theorem State.memStoreMasked_flr (s : State) (a : Nat) (b : List Byte) (m : List Bool) : (s.memStoreMasked a b m).flr = s.flr := rfl
@[simp] theorem State.memStoreMasked_hostDeny (s : State) (a : Nat) (b : List Byte) (m : List Bool) : (s.memStoreMasked a b m).hostDeny = s.hostDeny := rfl
@[simp] theorem State.memStoreMasked_sigDef (s : State) (a : Nat) (b : List Byte) (m : List Bool) : (s.memStoreMasked a b m).sigDef = s.sigDef := rfl
@[simp] theorem State.memStoreMasked_dirtyAt (s : State) (a : Nat) (b : List Byte) (m : List Bool) : (s.memStoreMasked a b m).dirtyAt = s.dirtyAt := rfl
@[simp] theorem State.memStoreMasked_bbt (s : State) (a : Nat) (b : List Byte) (m : List Bool) : (s.memStoreMasked a b m).bbt = s.bbt := rfl
@[simp] theorem State.memStoreMasked_scrubbing (s : State) (a : Nat) (b : List Byte) (m : List Bool) : (s.memStoreMasked a b m).scrubbing = s.scrubbing := rfl
@[simp] theorem State.memStoreMasked_memOwnNew (s : State) (a : Nat) (b : List Byte) (m : List Bool) : (s.memStoreMasked a b m).memOwnNew = s.memOwnNew := rfl
@[simp] theorem State.memStoreMasked_l1New (s : State) (a : Nat) (b : List Byte) (m : List Bool) : (s.memStoreMasked a b m).l1New = s.l1New := rfl
@[simp] theorem State.memStoreMasked_snap (s : State) (a : Nat) (b : List Byte) (m : List Bool) : (s.memStoreMasked a b m).snap = s.snap := rfl
@[simp] theorem State.memStoreMasked_journal (s : State) (a : Nat) (b : List Byte) (m : List Bool) : (s.memStoreMasked a b m).journal = s.journal := rfl
@[simp] theorem State.memStoreMasked_meas (s : State) (a : Nat) (b : List Byte) (m : List Bool) : (s.memStoreMasked a b m).meas = s.meas := rfl
@[simp] theorem State.memStoreMasked_flash (s : State) (a : Nat) (b : List Byte) (m : List Bool) : (s.memStoreMasked a b m).flash = s.flash := rfl
@[simp] theorem State.memStoreMasked_sjClear (s : State) (a : Nat) (b : List Byte) (m : List Bool) : (s.memStoreMasked a b m).sjClear = s.sjClear := rfl
@[simp] theorem State.memStoreMasked_halted (s : State) (a : Nat) (b : List Byte) (m : List Bool) : (s.memStoreMasked a b m).halted = s.halted := rfl
@[simp] theorem State.memStoreMasked_powered (s : State) (a : Nat) (b : List Byte) (m : List Bool) : (s.memStoreMasked a b m).powered = s.powered := rfl
@[simp] theorem State.memStoreMasked_svcAwait (s : State) (a : Nat) (b : List Byte) (m : List Bool) : (s.memStoreMasked a b m).svcAwait = s.svcAwait := rfl
@[simp] theorem State.memStoreMasked_hostEdits (s : State) (a : Nat) (b : List Byte) (m : List Bool) : (s.memStoreMasked a b m).hostEdits = s.hostEdits := rfl
@[simp] theorem State.memStoreMasked_lg (s : State) (a : Nat) (b : List Byte) (m : List Bool) : (s.memStoreMasked a b m).lg = s.lg := rfl

/-! `State.after` -/

@[simp] theorem State.after_now (s : State) (off : Nat) (w : Write) : (s.after off w).now = s.now := rfl
@[simp] theorem State.after_tickBase (s : State) (off : Nat) (w : Write) : (s.after off w).tickBase = s.tickBase := rfl
@[simp] theorem State.after_seq (s : State) (off : Nat) (w : Write) : (s.after off w).seq = s.seq := rfl
@[simp] theorem State.after_free (s : State) (off : Nat) (w : Write) : (s.after off w).free = s.free := rfl
@[simp] theorem State.after_nextId (s : State) (off : Nat) (w : Write) : (s.after off w).nextId = s.nextId := rfl
@[simp] theorem State.after_agenda (s : State) (off : Nat) (w : Write) : (s.after off w).agenda = s.agenda := rfl
@[simp] theorem State.after_env (s : State) (off : Nat) (w : Write) : (s.after off w).env = s.env := rfl
@[simp] theorem State.after_found (s : State) (off : Nat) (w : Write) : (s.after off w).found = s.found := rfl
@[simp] theorem State.after_wants (s : State) (off : Nat) (w : Write) : (s.after off w).wants = s.wants := rfl
@[simp] theorem State.after_issueQ (s : State) (off : Nat) (w : Write) : (s.after off w).issueQ = s.issueQ := rfl
@[simp] theorem State.after_out (s : State) (off : Nat) (w : Write) : (s.after off w).out = s.out := rfl
@[simp] theorem State.after_mem (s : State) (off : Nat) (w : Write) : (s.after off w).mem = s.mem := rfl
@[simp] theorem State.after_csr (s : State) (off : Nat) (w : Write) : (s.after off w).csr = s.csr := rfl
@[simp] theorem State.after_cores (s : State) (off : Nat) (w : Write) : (s.after off w).cores = s.cores := rfl
@[simp] theorem State.after_clusters (s : State) (off : Nat) (w : Write) : (s.after off w).clusters = s.clusters := rfl
@[simp] theorem State.after_dies (s : State) (off : Nat) (w : Write) : (s.after off w).dies = s.dies := rfl
@[simp] theorem State.after_groups (s : State) (off : Nat) (w : Write) : (s.after off w).groups = s.groups := rfl
@[simp] theorem State.after_streams (s : State) (off : Nat) (w : Write) : (s.after off w).streams = s.streams := rfl
@[simp] theorem State.after_tasks (s : State) (off : Nat) (w : Write) : (s.after off w).tasks = s.tasks := rfl
@[simp] theorem State.after_launches (s : State) (off : Nat) (w : Write) : (s.after off w).launches = s.launches := rfl
@[simp] theorem State.after_cmds (s : State) (off : Nat) (w : Write) : (s.after off w).cmds = s.cmds := rfl
@[simp] theorem State.after_ceTaken (s : State) (off : Nat) (w : Write) : (s.after off w).ceTaken = s.ceTaken := rfl
@[simp] theorem State.after_loads (s : State) (off : Nat) (w : Write) : (s.after off w).loads = s.loads := rfl
@[simp] theorem State.after_stores (s : State) (off : Nat) (w : Write) : (s.after off w).stores = s.stores := rfl
@[simp] theorem State.after_atoms (s : State) (off : Nat) (w : Write) : (s.after off w).atoms = s.atoms := rfl
@[simp] theorem State.after_barriers (s : State) (off : Nat) (w : Write) : (s.after off w).barriers = s.barriers := rfl
@[simp] theorem State.after_allred (s : State) (off : Nat) (w : Write) : (s.after off w).allred = s.allred := rfl
@[simp] theorem State.after_subs (s : State) (off : Nat) (w : Write) : (s.after off w).subs = s.subs := rfl
@[simp] theorem State.after_bwsQ (s : State) (off : Nat) (w : Write) : (s.after off w).bwsQ = s.bwsQ := rfl
@[simp] theorem State.after_ceTlb (s : State) (off : Nat) (w : Write) : (s.after off w).ceTlb = s.ceTlb := rfl
@[simp] theorem State.after_mslTlb (s : State) (off : Nat) (w : Write) : (s.after off w).mslTlb = s.mslTlb := rfl
@[simp] theorem State.after_ports (s : State) (off : Nat) (w : Write) : (s.after off w).ports = s.ports := rfl
@[simp] theorem State.after_fabric (s : State) (off : Nat) (w : Write) : (s.after off w).fabric = s.fabric := rfl
@[simp] theorem State.after_fabIn (s : State) (off : Nat) (w : Write) : (s.after off w).fabIn = s.fabIn := rfl
@[simp] theorem State.after_ethUp (s : State) (off : Nat) (w : Write) : (s.after off w).ethUp = s.ethUp := rfl
@[simp] theorem State.after_pairUp (s : State) (off : Nat) (w : Write) : (s.after off w).pairUp = s.pairUp := rfl
@[simp] theorem State.after_crossDown (s : State) (off : Nat) (w : Write) : (s.after off w).crossDown = s.crossDown := rfl
@[simp] theorem State.after_hif (s : State) (off : Nat) (w : Write) : (s.after off w).hif = s.hif := rfl
@[simp] theorem State.after_energyLog (s : State) (off : Nat) (w : Write) : (s.after off w).energyLog = s.energyLog := rfl
@[simp] theorem State.after_lowering (s : State) (off : Nat) (w : Write) : (s.after off w).lowering = s.lowering := rfl
@[simp] theorem State.after_pairLost (s : State) (off : Nat) (w : Write) : (s.after off w).pairLost = s.pairLost := rfl
@[simp] theorem State.after_pathFrom (s : State) (off : Nat) (w : Write) : (s.after off w).pathFrom = s.pathFrom := rfl
@[simp] theorem State.after_tookSes (s : State) (off : Nat) (w : Write) : (s.after off w).tookSes = s.tookSes := rfl
@[simp] theorem State.after_rx (s : State) (off : Nat) (w : Write) : (s.after off w).rx = s.rx := rfl
@[simp] theorem State.after_tx (s : State) (off : Nat) (w : Write) : (s.after off w).tx = s.tx := rfl
@[simp] theorem State.after_ptp (s : State) (off : Nat) (w : Write) : (s.after off w).ptp = s.ptp := rfl
@[simp] theorem State.after_latch (s : State) (off : Nat) (w : Write) : (s.after off w).latch = s.latch := rfl
@[simp] theorem State.after_numVfs (s : State) (off : Nat) (w : Write) : (s.after off w).numVfs = s.numVfs := rfl
@[simp] theorem State.after_lq (s : State) (off : Nat) (w : Write) : (s.after off w).lq = s.lq := rfl
@[simp] theorem State.after_flr (s : State) (off : Nat) (w : Write) : (s.after off w).flr = s.flr := rfl
@[simp] theorem State.after_hostDeny (s : State) (off : Nat) (w : Write) : (s.after off w).hostDeny = s.hostDeny := rfl
@[simp] theorem State.after_sigDef (s : State) (off : Nat) (w : Write) : (s.after off w).sigDef = s.sigDef := rfl
@[simp] theorem State.after_dirtyAt (s : State) (off : Nat) (w : Write) : (s.after off w).dirtyAt = s.dirtyAt := rfl
@[simp] theorem State.after_bbt (s : State) (off : Nat) (w : Write) : (s.after off w).bbt = s.bbt := rfl
@[simp] theorem State.after_scrubbing (s : State) (off : Nat) (w : Write) : (s.after off w).scrubbing = s.scrubbing := rfl
@[simp] theorem State.after_memOwnNew (s : State) (off : Nat) (w : Write) : (s.after off w).memOwnNew = s.memOwnNew := rfl
@[simp] theorem State.after_l1New (s : State) (off : Nat) (w : Write) : (s.after off w).l1New = s.l1New := rfl
@[simp] theorem State.after_snap (s : State) (off : Nat) (w : Write) : (s.after off w).snap = s.snap := rfl
@[simp] theorem State.after_journal (s : State) (off : Nat) (w : Write) : (s.after off w).journal = s.journal := rfl
@[simp] theorem State.after_meas (s : State) (off : Nat) (w : Write) : (s.after off w).meas = s.meas := rfl
@[simp] theorem State.after_flash (s : State) (off : Nat) (w : Write) : (s.after off w).flash = s.flash := rfl
@[simp] theorem State.after_sjClear (s : State) (off : Nat) (w : Write) : (s.after off w).sjClear = s.sjClear := rfl
@[simp] theorem State.after_halted (s : State) (off : Nat) (w : Write) : (s.after off w).halted = s.halted := rfl
@[simp] theorem State.after_powered (s : State) (off : Nat) (w : Write) : (s.after off w).powered = s.powered := rfl
@[simp] theorem State.after_svcAwait (s : State) (off : Nat) (w : Write) : (s.after off w).svcAwait = s.svcAwait := rfl
@[simp] theorem State.after_hostEdits (s : State) (off : Nat) (w : Write) : (s.after off w).hostEdits = s.hostEdits := rfl
@[simp] theorem State.after_lg (s : State) (off : Nat) (w : Write) : (s.after off w).lg = s.lg := rfl

end Sys2Proof.Machine
end

