-- ==== Sys2Proof/Laws/Fields.lean ====
section
/-! SUPPORT. The laws of bit fields and of the control registers: a field reads as it was set, and setting one leaves the others alone. -/

namespace Sys2Proof.Machine

/-- The bits of a field. -/
theorem testBit_bits (v hi lo j : Nat) : (bits v hi lo).testBit j = (decide (j < hi + 1 - lo) && v.testBit (j + lo)) := by
  simp [bits, Nat.testBit_mod_two_pow, Nat.testBit_div_two_pow]

/-- A number cut into the part below a field, the field and the part above. -/
theorem setBits_eq (v hi lo x : Nat) :
    setBits v hi lo x =
      v / 2 ^ lo / 2 ^ (hi + 1 - lo) * 2 ^ (hi + 1 - lo) * 2 ^ lo + x % 2 ^ (hi + 1 - lo) * 2 ^ lo + v % 2 ^ lo := by
  have h1 := Nat.div_add_mod v (2 ^ lo)
  have h2 := Nat.div_add_mod (v / 2 ^ lo) (2 ^ (hi + 1 - lo))
  unfold setBits bits
  generalize v / 2 ^ lo / 2 ^ (hi + 1 - lo) = c at *
  generalize v / 2 ^ lo % 2 ^ (hi + 1 - lo) = b at *
  generalize v % 2 ^ lo = a at *
  rw [← h2] at h1
  rw [← h1]
  rw [Nat.mul_add, Nat.mul_comm (2 ^ lo) b, Nat.mul_comm (2 ^ lo), Nat.mul_comm (2 ^ (hi + 1 - lo)) c]
  omega

/-- The bits of a number with a field replaced. -/
theorem testBit_setBits (v hi lo x j : Nat) :
    (setBits v hi lo x).testBit j = if lo ≤ j ∧ j < lo + (hi + 1 - lo) then x.testBit (j - lo) else v.testBit j := by
  rw [setBits_eq]
  generalize hw : hi + 1 - lo = w
  have e : v / 2 ^ lo / 2 ^ w * 2 ^ w * 2 ^ lo + x % 2 ^ w * 2 ^ lo + v % 2 ^ lo =
      2 ^ lo * (2 ^ w * (v / 2 ^ lo / 2 ^ w) + x % 2 ^ w) + v % 2 ^ lo := by
    rw [Nat.mul_add, Nat.mul_comm (2 ^ lo) (x % 2 ^ w), Nat.mul_comm (2 ^ w), Nat.mul_comm (2 ^ lo)]
  rw [e, Nat.testBit_two_pow_mul_add _ (Nat.mod_lt _ (Nat.two_pow_pos _))]
  by_cases h1 : j < lo
  · rw [if_pos h1, if_neg (by omega), Nat.testBit_mod_two_pow]; simp [h1]
  · rw [if_neg h1, Nat.testBit_two_pow_mul_add _ (Nat.mod_lt _ (Nat.two_pow_pos _))]
    by_cases h2 : j - lo < w
    · rw [if_pos h2, if_pos (by omega), Nat.testBit_mod_two_pow]; simp [h2]
    · rw [if_neg h2, if_neg (by omega), Nat.testBit_div_two_pow, Nat.testBit_div_two_pow]
      congr 1; omega

/-- A field reads as it was set. -/
theorem bits_setBits_same (v hi lo x : Nat) : bits (setBits v hi lo x) hi lo = x % 2 ^ (hi + 1 - lo) := by
  apply Nat.eq_of_testBit_eq
  intro j
  rw [testBit_bits, testBit_setBits, Nat.testBit_mod_two_pow]
  by_cases h : j < hi + 1 - lo
  · rw [if_pos (by omega)]; simp [h]
  · simp [h]

/-- Setting a field leaves every field outside it alone. -/
theorem bits_setBits_ne (v hi lo x hi' lo' : Nat) (h : hi' < lo ∨ hi < lo') :
    bits (setBits v hi lo x) hi' lo' = bits v hi' lo' := by
  apply Nat.eq_of_testBit_eq
  intro j
  rw [testBit_bits, testBit_bits, testBit_setBits]
  by_cases h : j < hi' + 1 - lo'
  · rw [if_neg (by omega)]
  · simp [h]

/-- A number with a field replaced has no more bits than it had. -/
theorem setBits_lt (v hi lo x n : Nat) (hv : v < 2 ^ n) (hn : hi < n) : setBits v hi lo x < 2 ^ n := by
  apply Nat.lt_pow_two_of_testBit
  intro j hj
  rw [testBit_setBits, if_neg (by omega)]
  exact Nat.testBit_lt_two_pow (Nat.lt_of_lt_of_le hv (Nat.pow_le_pow_right (by decide) hj))

/-! Control registers -/

/-- Registers are told apart by their numbers. -/
theorem Csr.ctorIdx_inj {c c' : Csr} (h : c.ctorIdx = c'.ctorIdx) : c = c' := by
  have e : ∀ c : Csr, Csr.ofNat c.ctorIdx = c := fun c => by cases c <;> rfl
  rw [← e c, ← e c', h]

theorem Csr.ctorIdx_lt (c : Csr) : c.ctorIdx < 128 := by cases c <;> decide

/-- Keys of different registers, or of different instances of one, differ. -/
@[simp] theorem csrKey_inj (c c' : Csr) (i i' : Nat) : csrKey c i = csrKey c' i' ↔ c = c' ∧ i = i' := by
  have h1 := Csr.ctorIdx_lt c
  have h2 := Csr.ctorIdx_lt c'
  unfold csrKey
  constructor
  · intro h
    exact ⟨Csr.ctorIdx_inj (by omega), by omega⟩
  · rintro ⟨rfl, rfl⟩; rfl

@[simp] theorem State.csrVal_csrPut_same (s : State) (c : Csr) (i : Nat) (v : BitVec 128) :
    (s.csrPut c i v).csrVal c i = v := by
  simp [State.csrVal, State.csrPut]

/-- Writing a register leaves every other register alone. -/
theorem State.csrVal_csrPut_ne (s : State) (c c' : Csr) (i i' : Nat) (v : BitVec 128) (h : ¬(c' = c ∧ i' = i)) :
    (s.csrPut c i v).csrVal c' i' = s.csrVal c' i' := by
  simp [State.csrVal, State.csrPut, SMap.look_put_ne _ _ _ _ (mt (csrKey_inj c' c i' i).1 h)]

@[simp] theorem State.csrVal_setF_same (s : State) (f : CsrField) (i v : Nat) :
    (s.setF f i v).csrVal f.reg i = BitVec.ofNat 128 (setBits (s.csrVal f.reg i).toNat f.hi f.lo v) :=
  s.csrVal_csrPut_same _ _ _

/-- A field of a register reads as it was set. -/
theorem State.getF_setF_same (s : State) (f : CsrField) (i v : Nat) (h : f.hi < 128) :
    (s.setF f i v).getF f i = v % 2 ^ (f.hi + 1 - f.lo) := by
  unfold State.getF
  rw [csrVal_setF_same, BitVec.toNat_ofNat, Nat.mod_eq_of_lt (setBits_lt _ _ _ _ _ (BitVec.isLt _) h)]
  exact bits_setBits_same _ _ _ _

/-- Setting a field leaves the other fields of its register alone. -/
theorem State.getF_setF_field (s : State) (f g : CsrField) (i v : Nat) (h : f.hi < 128) (hr : g.reg = f.reg)
    (hd : g.hi < f.lo ∨ f.hi < g.lo) : (s.setF f i v).getF g i = s.getF g i := by
  unfold State.getF
  rw [hr, csrVal_setF_same, BitVec.toNat_ofNat, Nat.mod_eq_of_lt (setBits_lt _ _ _ _ _ (BitVec.isLt _) h)]
  exact bits_setBits_ne _ _ _ _ _ _ hd

/-- Setting a field leaves every other register alone. -/
theorem State.getF_setF_ne (s : State) (f g : CsrField) (i i' v : Nat) (h : ¬(g.reg = f.reg ∧ i' = i)) :
    (s.setF f i v).getF g i' = s.getF g i' := by
  unfold State.getF State.setF
  rw [s.csrVal_csrPut_ne _ _ _ _ _ h]

/-- Only the registers decide what a field reads as. -/
theorem State.getF_congr {s t : State} (h : s.csr = t.csr) (f : CsrField) (i : Nat) : s.getF f i = t.getF f i := by
  simp [State.getF, State.csrVal, h]

end Sys2Proof.Machine
end

