-- ==== Sys2Proof/Laws/Access.lean ====
section
/-! SUPPORT. The parts of the state as they read after a change, and what counting and charging an operation changes: CCC_EVT and CCC_ECNT, and nothing else. -/

namespace Sys2Proof.Machine

theorem State.bank_modBank (s : State) (a b : Nat) (f : Bank → Bank) :
    (s.modBank a f).bank b = if b = a then f (s.bank a) else s.bank b := SMap.look_upd _ _ _ _
@[simp] theorem State.bank_modBank_same (s : State) (a : Nat) (f : Bank → Bank) : (s.modBank a f).bank a = f (s.bank a) :=
  SMap.look_upd_same _ _ _

theorem State.core_modCore (s : State) (a b : Nat) (f : CoreSt → CoreSt) :
    (s.modCore a f).core b = if b = a then f (s.core a) else s.core b := SMap.look_upd _ _ _ _
@[simp] theorem State.core_modCore_same (s : State) (a : Nat) (f : CoreSt → CoreSt) : (s.modCore a f).core a = f (s.core a) :=
  SMap.look_upd_same _ _ _

theorem State.cluster_modCluster (s : State) (a b : Nat) (f : ClusterSt → ClusterSt) :
    (s.modCluster a f).cluster b = if b = a then f (s.cluster a) else s.cluster b := SMap.look_upd _ _ _ _
@[simp] theorem State.cluster_modCluster_same (s : State) (a : Nat) (f : ClusterSt → ClusterSt) : (s.modCluster a f).cluster a = f (s.cluster a) :=
  SMap.look_upd_same _ _ _

theorem State.die_modDie (s : State) (a b : Nat) (f : DieSt → DieSt) :
    (s.modDie a f).die b = if b = a then f (s.die a) else s.die b := SMap.look_upd _ _ _ _
@[simp] theorem State.die_modDie_same (s : State) (a : Nat) (f : DieSt → DieSt) : (s.modDie a f).die a = f (s.die a) :=
  SMap.look_upd_same _ _ _

theorem State.group_modGroup (s : State) (a b : Nat) (f : Group → Group) :
    (s.modGroup a f).group b = if b = a then f (s.group a) else s.group b := SMap.look_upd _ _ _ _
@[simp] theorem State.group_modGroup_same (s : State) (a : Nat) (f : Group → Group) : (s.modGroup a f).group a = f (s.group a) :=
  SMap.look_upd_same _ _ _

theorem State.task_modTask (s : State) (a b : Nat) (f : Task → Task) :
    (s.modTask a f).task b = if b = a then f (s.task a) else s.task b := SMap.look_upd _ _ _ _
@[simp] theorem State.task_modTask_same (s : State) (a : Nat) (f : Task → Task) : (s.modTask a f).task a = f (s.task a) :=
  SMap.look_upd_same _ _ _

theorem State.cmd_modCmd (s : State) (a b : Nat) (f : Cmd → Cmd) :
    (s.modCmd a f).cmd b = if b = a then f (s.cmd a) else s.cmd b := SMap.look_upd _ _ _ _
@[simp] theorem State.cmd_modCmd_same (s : State) (a : Nat) (f : Cmd → Cmd) : (s.modCmd a f).cmd a = f (s.cmd a) :=
  SMap.look_upd_same _ _ _

/-! A change of one part leaves the views of the others alone -/

@[simp] theorem State.csrPut_bank_view (s : State) (c : Csr) (i : Nat) (v : BitVec 128) (n : Nat) : (s.csrPut c i v).bank n = s.bank n := rfl
@[simp] theorem State.csrPut_core_view (s : State) (c : Csr) (i : Nat) (v : BitVec 128) (n : Nat) : (s.csrPut c i v).core n = s.core n := rfl
@[simp] theorem State.csrPut_cluster_view (s : State) (c : Csr) (i : Nat) (v : BitVec 128) (n : Nat) : (s.csrPut c i v).cluster n = s.cluster n := rfl
@[simp] theorem State.csrPut_die_view (s : State) (c : Csr) (i : Nat) (v : BitVec 128) (n : Nat) : (s.csrPut c i v).die n = s.die n := rfl
@[simp] theorem State.csrPut_group_view (s : State) (c : Csr) (i : Nat) (v : BitVec 128) (n : Nat) : (s.csrPut c i v).group n = s.group n := rfl
@[simp] theorem State.csrPut_task_view (s : State) (c : Csr) (i : Nat) (v : BitVec 128) (n : Nat) : (s.csrPut c i v).task n = s.task n := rfl
@[simp] theorem State.csrPut_cmd_view (s : State) (c : Csr) (i : Nat) (v : BitVec 128) (n : Nat) : (s.csrPut c i v).cmd n = s.cmd n := rfl
@[simp] theorem State.setF_bank_view (s : State) (f : CsrField) (i v : Nat) (n : Nat) : (s.setF f i v).bank n = s.bank n := rfl
@[simp] theorem State.setF_core_view (s : State) (f : CsrField) (i v : Nat) (n : Nat) : (s.setF f i v).core n = s.core n := rfl
@[simp] theorem State.setF_cluster_view (s : State) (f : CsrField) (i v : Nat) (n : Nat) : (s.setF f i v).cluster n = s.cluster n := rfl
@[simp] theorem State.setF_die_view (s : State) (f : CsrField) (i v : Nat) (n : Nat) : (s.setF f i v).die n = s.die n := rfl
@[simp] theorem State.setF_group_view (s : State) (f : CsrField) (i v : Nat) (n : Nat) : (s.setF f i v).group n = s.group n := rfl
@[simp] theorem State.setF_task_view (s : State) (f : CsrField) (i v : Nat) (n : Nat) : (s.setF f i v).task n = s.task n := rfl
@[simp] theorem State.setF_cmd_view (s : State) (f : CsrField) (i v : Nat) (n : Nat) : (s.setF f i v).cmd n = s.cmd n := rfl
@[simp] theorem State.modBank_core_view (s : State) (b : Nat) (f : Bank → Bank) (n : Nat) : (s.modBank b f).core n = s.core n := rfl
@[simp] theorem State.modBank_cluster_view (s : State) (b : Nat) (f : Bank → Bank) (n : Nat) : (s.modBank b f).cluster n = s.cluster n := rfl
@[simp] theorem State.modBank_die_view (s : State) (b : Nat) (f : Bank → Bank) (n : Nat) : (s.modBank b f).die n = s.die n := rfl
@[simp] theorem State.modBank_group_view (s : State) (b : Nat) (f : Bank → Bank) (n : Nat) : (s.modBank b f).group n = s.group n := rfl
@[simp] theorem State.modBank_task_view (s : State) (b : Nat) (f : Bank → Bank) (n : Nat) : (s.modBank b f).task n = s.task n := rfl
@[simp] theorem State.modBank_cmd_view (s : State) (b : Nat) (f : Bank → Bank) (n : Nat) : (s.modBank b f).cmd n = s.cmd n := rfl
@[simp] theorem State.modBank_getF (s : State) (b : Nat) (f : Bank → Bank) (x : CsrField) (n : Nat) : (s.modBank b f).getF x n = s.getF x n := rfl
@[simp] theorem State.modBank_csrVal (s : State) (b : Nat) (f : Bank → Bank) (x : Csr) (n : Nat) : (s.modBank b f).csrVal x n = s.csrVal x n := rfl
@[simp] theorem State.modCore_bank_view (s : State) (c : Nat) (f : CoreSt → CoreSt) (n : Nat) : (s.modCore c f).bank n = s.bank n := rfl
@[simp] theorem State.modCore_cluster_view (s : State) (c : Nat) (f : CoreSt → CoreSt) (n : Nat) : (s.modCore c f).cluster n = s.cluster n := rfl
@[simp] theorem State.modCore_die_view (s : State) (c : Nat) (f : CoreSt → CoreSt) (n : Nat) : (s.modCore c f).die n = s.die n := rfl
@[simp] theorem State.modCore_group_view (s : State) (c : Nat) (f : CoreSt → CoreSt) (n : Nat) : (s.modCore c f).group n = s.group n := rfl
@[simp] theorem State.modCore_task_view (s : State) (c : Nat) (f : CoreSt → CoreSt) (n : Nat) : (s.modCore c f).task n = s.task n := rfl
@[simp] theorem State.modCore_cmd_view (s : State) (c : Nat) (f : CoreSt → CoreSt) (n : Nat) : (s.modCore c f).cmd n = s.cmd n := rfl
@[simp] theorem State.modCore_getF (s : State) (c : Nat) (f : CoreSt → CoreSt) (x : CsrField) (n : Nat) : (s.modCore c f).getF x n = s.getF x n := rfl
@[simp] theorem State.modCore_csrVal (s : State) (c : Nat) (f : CoreSt → CoreSt) (x : Csr) (n : Nat) : (s.modCore c f).csrVal x n = s.csrVal x n := rfl
@[simp] theorem State.modCluster_bank_view (s : State) (c : Nat) (f : ClusterSt → ClusterSt) (n : Nat) : (s.modCluster c f).bank n = s.bank n := rfl
@[simp] theorem State.modCluster_core_view (s : State) (c : Nat) (f : ClusterSt → ClusterSt) (n : Nat) : (s.modCluster c f).core n = s.core n := rfl
@[simp] theorem State.modCluster_die_view (s : State) (c : Nat) (f : ClusterSt → ClusterSt) (n : Nat) : (s.modCluster c f).die n = s.die n := rfl
@[simp] theorem State.modCluster_group_view (s : State) (c : Nat) (f : ClusterSt → ClusterSt) (n : Nat) : (s.modCluster c f).group n = s.group n := rfl
@[simp] theorem State.modCluster_task_view (s : State) (c : Nat) (f : ClusterSt → ClusterSt) (n : Nat) : (s.modCluster c f).task n = s.task n := rfl
@[simp] theorem State.modCluster_cmd_view (s : State) (c : Nat) (f : ClusterSt → ClusterSt) (n : Nat) : (s.modCluster c f).cmd n = s.cmd n := rfl
@[simp] theorem State.modCluster_getF (s : State) (c : Nat) (f : ClusterSt → ClusterSt) (x : CsrField) (n : Nat) : (s.modCluster c f).getF x n = s.getF x n := rfl
@[simp] theorem State.modCluster_csrVal (s : State) (c : Nat) (f : ClusterSt → ClusterSt) (x : Csr) (n : Nat) : (s.modCluster c f).csrVal x n = s.csrVal x n := rfl
@[simp] theorem State.modDie_bank_view (s : State) (d : Nat) (f : DieSt → DieSt) (n : Nat) : (s.modDie d f).bank n = s.bank n := rfl
@[simp] theorem State.modDie_core_view (s : State) (d : Nat) (f : DieSt → DieSt) (n : Nat) : (s.modDie d f).core n = s.core n := rfl
@[simp] theorem State.modDie_cluster_view (s : State) (d : Nat) (f : DieSt → DieSt) (n : Nat) : (s.modDie d f).cluster n = s.cluster n := rfl
@[simp] theorem State.modDie_group_view (s : State) (d : Nat) (f : DieSt → DieSt) (n : Nat) : (s.modDie d f).group n = s.group n := rfl
@[simp] theorem State.modDie_task_view (s : State) (d : Nat) (f : DieSt → DieSt) (n : Nat) : (s.modDie d f).task n = s.task n := rfl
@[simp] theorem State.modDie_cmd_view (s : State) (d : Nat) (f : DieSt → DieSt) (n : Nat) : (s.modDie d f).cmd n = s.cmd n := rfl
@[simp] theorem State.modDie_getF (s : State) (d : Nat) (f : DieSt → DieSt) (x : CsrField) (n : Nat) : (s.modDie d f).getF x n = s.getF x n := rfl
@[simp] theorem State.modDie_csrVal (s : State) (d : Nat) (f : DieSt → DieSt) (x : Csr) (n : Nat) : (s.modDie d f).csrVal x n = s.csrVal x n := rfl
@[simp] theorem State.modGroup_bank_view (s : State) (g : Nat) (f : Group → Group) (n : Nat) : (s.modGroup g f).bank n = s.bank n := rfl
@[simp] theorem State.modGroup_core_view (s : State) (g : Nat) (f : Group → Group) (n : Nat) : (s.modGroup g f).core n = s.core n := rfl
@[simp] theorem State.modGroup_cluster_view (s : State) (g : Nat) (f : Group → Group) (n : Nat) : (s.modGroup g f).cluster n = s.cluster n := rfl
@[simp] theorem State.modGroup_die_view (s : State) (g : Nat) (f : Group → Group) (n : Nat) : (s.modGroup g f).die n = s.die n := rfl
@[simp] theorem State.modGroup_task_view (s : State) (g : Nat) (f : Group → Group) (n : Nat) : (s.modGroup g f).task n = s.task n := rfl
@[simp] theorem State.modGroup_cmd_view (s : State) (g : Nat) (f : Group → Group) (n : Nat) : (s.modGroup g f).cmd n = s.cmd n := rfl
@[simp] theorem State.modGroup_getF (s : State) (g : Nat) (f : Group → Group) (x : CsrField) (n : Nat) : (s.modGroup g f).getF x n = s.getF x n := rfl
@[simp] theorem State.modGroup_csrVal (s : State) (g : Nat) (f : Group → Group) (x : Csr) (n : Nat) : (s.modGroup g f).csrVal x n = s.csrVal x n := rfl
@[simp] theorem State.modTask_bank_view (s : State) (t : Nat) (f : Task → Task) (n : Nat) : (s.modTask t f).bank n = s.bank n := rfl
@[simp] theorem State.modTask_core_view (s : State) (t : Nat) (f : Task → Task) (n : Nat) : (s.modTask t f).core n = s.core n := rfl
@[simp] theorem State.modTask_cluster_view (s : State) (t : Nat) (f : Task → Task) (n : Nat) : (s.modTask t f).cluster n = s.cluster n := rfl
@[simp] theorem State.modTask_die_view (s : State) (t : Nat) (f : Task → Task) (n : Nat) : (s.modTask t f).die n = s.die n := rfl
@[simp] theorem State.modTask_group_view (s : State) (t : Nat) (f : Task → Task) (n : Nat) : (s.modTask t f).group n = s.group n := rfl
@[simp] theorem State.modTask_cmd_view (s : State) (t : Nat) (f : Task → Task) (n : Nat) : (s.modTask t f).cmd n = s.cmd n := rfl
@[simp] theorem State.modTask_getF (s : State) (t : Nat) (f : Task → Task) (x : CsrField) (n : Nat) : (s.modTask t f).getF x n = s.getF x n := rfl
@[simp] theorem State.modTask_csrVal (s : State) (t : Nat) (f : Task → Task) (x : Csr) (n : Nat) : (s.modTask t f).csrVal x n = s.csrVal x n := rfl
@[simp] theorem State.modCmd_bank_view (s : State) (c : Nat) (f : Cmd → Cmd) (n : Nat) : (s.modCmd c f).bank n = s.bank n := rfl
@[simp] theorem State.modCmd_core_view (s : State) (c : Nat) (f : Cmd → Cmd) (n : Nat) : (s.modCmd c f).core n = s.core n := rfl
@[simp] theorem State.modCmd_cluster_view (s : State) (c : Nat) (f : Cmd → Cmd) (n : Nat) : (s.modCmd c f).cluster n = s.cluster n := rfl
@[simp] theorem State.modCmd_die_view (s : State) (c : Nat) (f : Cmd → Cmd) (n : Nat) : (s.modCmd c f).die n = s.die n := rfl
@[simp] theorem State.modCmd_group_view (s : State) (c : Nat) (f : Cmd → Cmd) (n : Nat) : (s.modCmd c f).group n = s.group n := rfl
@[simp] theorem State.modCmd_task_view (s : State) (c : Nat) (f : Cmd → Cmd) (n : Nat) : (s.modCmd c f).task n = s.task n := rfl
@[simp] theorem State.modCmd_getF (s : State) (c : Nat) (f : Cmd → Cmd) (x : CsrField) (n : Nat) : (s.modCmd c f).getF x n = s.getF x n := rfl
@[simp] theorem State.modCmd_csrVal (s : State) (c : Nat) (f : Cmd → Cmd) (x : Csr) (n : Nat) : (s.modCmd c f).csrVal x n = s.csrVal x n := rfl
@[simp] theorem State.sched_bank_view (s : State) (t p : Nat) (e : Ev) (v : Env) (o : List SlotOp) (n : Nat) : (s.sched t p e v o).bank n = s.bank n := rfl
@[simp] theorem State.sched_core_view (s : State) (t p : Nat) (e : Ev) (v : Env) (o : List SlotOp) (n : Nat) : (s.sched t p e v o).core n = s.core n := rfl
@[simp] theorem State.sched_cluster_view (s : State) (t p : Nat) (e : Ev) (v : Env) (o : List SlotOp) (n : Nat) : (s.sched t p e v o).cluster n = s.cluster n := rfl
@[simp] theorem State.sched_die_view (s : State) (t p : Nat) (e : Ev) (v : Env) (o : List SlotOp) (n : Nat) : (s.sched t p e v o).die n = s.die n := rfl
@[simp] theorem State.sched_group_view (s : State) (t p : Nat) (e : Ev) (v : Env) (o : List SlotOp) (n : Nat) : (s.sched t p e v o).group n = s.group n := rfl
@[simp] theorem State.sched_task_view (s : State) (t p : Nat) (e : Ev) (v : Env) (o : List SlotOp) (n : Nat) : (s.sched t p e v o).task n = s.task n := rfl
@[simp] theorem State.sched_cmd_view (s : State) (t p : Nat) (e : Ev) (v : Env) (o : List SlotOp) (n : Nat) : (s.sched t p e v o).cmd n = s.cmd n := rfl
@[simp] theorem State.sched_getF (s : State) (t p : Nat) (e : Ev) (v : Env) (o : List SlotOp) (x : CsrField) (n : Nat) : (s.sched t p e v o).getF x n = s.getF x n := rfl
@[simp] theorem State.sched_csrVal (s : State) (t p : Nat) (e : Ev) (v : Env) (o : List SlotOp) (x : Csr) (n : Nat) : (s.sched t p e v o).csrVal x n = s.csrVal x n := rfl
@[simp] theorem State.unsched_bank_view (s : State) (f : Due → Bool) (n : Nat) : (s.unsched f).bank n = s.bank n := rfl
@[simp] theorem State.unsched_core_view (s : State) (f : Due → Bool) (n : Nat) : (s.unsched f).core n = s.core n := rfl
@[simp] theorem State.unsched_cluster_view (s : State) (f : Due → Bool) (n : Nat) : (s.unsched f).cluster n = s.cluster n := rfl
@[simp] theorem State.unsched_die_view (s : State) (f : Due → Bool) (n : Nat) : (s.unsched f).die n = s.die n := rfl
@[simp] theorem State.unsched_group_view (s : State) (f : Due → Bool) (n : Nat) : (s.unsched f).group n = s.group n := rfl
@[simp] theorem State.unsched_task_view (s : State) (f : Due → Bool) (n : Nat) : (s.unsched f).task n = s.task n := rfl
@[simp] theorem State.unsched_cmd_view (s : State) (f : Due → Bool) (n : Nat) : (s.unsched f).cmd n = s.cmd n := rfl
@[simp] theorem State.unsched_getF (s : State) (f : Due → Bool) (x : CsrField) (n : Nat) : (s.unsched f).getF x n = s.getF x n := rfl
@[simp] theorem State.unsched_csrVal (s : State) (f : Due → Bool) (x : Csr) (n : Nat) : (s.unsched f).csrVal x n = s.csrVal x n := rfl
@[simp] theorem State.freed_bank_view (s : State) (n : Nat) : (s.freed).bank n = s.bank n := rfl
@[simp] theorem State.freed_core_view (s : State) (n : Nat) : (s.freed).core n = s.core n := rfl
@[simp] theorem State.freed_cluster_view (s : State) (n : Nat) : (s.freed).cluster n = s.cluster n := rfl
@[simp] theorem State.freed_die_view (s : State) (n : Nat) : (s.freed).die n = s.die n := rfl
@[simp] theorem State.freed_group_view (s : State) (n : Nat) : (s.freed).group n = s.group n := rfl
@[simp] theorem State.freed_task_view (s : State) (n : Nat) : (s.freed).task n = s.task n := rfl
@[simp] theorem State.freed_cmd_view (s : State) (n : Nat) : (s.freed).cmd n = s.cmd n := rfl
@[simp] theorem State.freed_getF (s : State) (x : CsrField) (n : Nat) : (s.freed).getF x n = s.getF x n := rfl
@[simp] theorem State.freed_csrVal (s : State) (x : Csr) (n : Nat) : (s.freed).csrVal x n = s.csrVal x n := rfl
@[simp] theorem State.send_bank_view (s : State) (m : Msg) (n : Nat) : (s.send m).bank n = s.bank n := rfl
@[simp] theorem State.send_core_view (s : State) (m : Msg) (n : Nat) : (s.send m).core n = s.core n := rfl
@[simp] theorem State.send_cluster_view (s : State) (m : Msg) (n : Nat) : (s.send m).cluster n = s.cluster n := rfl
@[simp] theorem State.send_die_view (s : State) (m : Msg) (n : Nat) : (s.send m).die n = s.die n := rfl
@[simp] theorem State.send_group_view (s : State) (m : Msg) (n : Nat) : (s.send m).group n = s.group n := rfl
@[simp] theorem State.send_task_view (s : State) (m : Msg) (n : Nat) : (s.send m).task n = s.task n := rfl
@[simp] theorem State.send_cmd_view (s : State) (m : Msg) (n : Nat) : (s.send m).cmd n = s.cmd n := rfl
@[simp] theorem State.send_getF (s : State) (m : Msg) (x : CsrField) (n : Nat) : (s.send m).getF x n = s.getF x n := rfl
@[simp] theorem State.send_csrVal (s : State) (m : Msg) (x : Csr) (n : Nat) : (s.send m).csrVal x n = s.csrVal x n := rfl
@[simp] theorem State.memStore_bank_view (s : State) (a : Nat) (b : List Byte) (n : Nat) : (s.memStore a b).bank n = s.bank n := rfl
@[simp] theorem State.memStore_core_view (s : State) (a : Nat) (b : List Byte) (n : Nat) : (s.memStore a b).core n = s.core n := rfl
@[simp] theorem State.memStore_cluster_view (s : State) (a : Nat) (b : List Byte) (n : Nat) : (s.memStore a b).cluster n = s.cluster n := rfl
@[simp] theorem State.memStore_die_view (s : State) (a : Nat) (b : List Byte) (n : Nat) : (s.memStore a b).die n = s.die n := rfl
@[simp] theorem State.memStore_group_view (s : State) (a : Nat) (b : List Byte) (n : Nat) : (s.memStore a b).group n = s.group n := rfl
@[simp] theorem State.memStore_task_view (s : State) (a : Nat) (b : List Byte) (n : Nat) : (s.memStore a b).task n = s.task n := rfl
@[simp] theorem State.memStore_cmd_view (s : State) (a : Nat) (b : List Byte) (n : Nat) : (s.memStore a b).cmd n = s.cmd n := rfl
@[simp] theorem State.memStore_getF (s : State) (a : Nat) (b : List Byte) (x : CsrField) (n : Nat) : (s.memStore a b).getF x n = s.getF x n := rfl
@[simp] theorem State.memStore_csrVal (s : State) (a : Nat) (b : List Byte) (x : Csr) (n : Nat) : (s.memStore a b).csrVal x n = s.csrVal x n := rfl
@[simp] theorem State.after_core_view (s : State) (off : Nat) (w : Write) (n : Nat) : (s.after off w).core n = s.core n := rfl
@[simp] theorem State.after_cluster_view (s : State) (off : Nat) (w : Write) (n : Nat) : (s.after off w).cluster n = s.cluster n := rfl
@[simp] theorem State.after_die_view (s : State) (off : Nat) (w : Write) (n : Nat) : (s.after off w).die n = s.die n := rfl
@[simp] theorem State.after_group_view (s : State) (off : Nat) (w : Write) (n : Nat) : (s.after off w).group n = s.group n := rfl
@[simp] theorem State.after_task_view (s : State) (off : Nat) (w : Write) (n : Nat) : (s.after off w).task n = s.task n := rfl
@[simp] theorem State.after_cmd_view (s : State) (off : Nat) (w : Write) (n : Nat) : (s.after off w).cmd n = s.cmd n := rfl
@[simp] theorem State.after_getF (s : State) (off : Nat) (w : Write) (x : CsrField) (n : Nat) : (s.after off w).getF x n = s.getF x n := rfl
@[simp] theorem State.after_csrVal (s : State) (off : Nat) (w : Write) (x : Csr) (n : Nat) : (s.after off w).csrVal x n = s.csrVal x n := rfl

/-! Counting and charging -/

/-- Two states that differ in control registers only, and there only in counters of events and of energy. -/
def CountsOnly (s t : State) : Prop :=
  (∃ c e, t = { s with csr := c, energyLog := e }) ∧ ∀ c i, c ≠ .CCC_EVT → c ≠ .CCC_ECNT → t.csrVal c i = s.csrVal c i

theorem CountsOnly.refl (s : State) : CountsOnly s s := ⟨⟨s.csr, s.energyLog, rfl⟩, fun _ _ _ _ => rfl⟩

theorem CountsOnly.trans {s t u : State} (h : CountsOnly s t) (k : CountsOnly t u) : CountsOnly s u := by
  obtain ⟨⟨c, e, rfl⟩, h⟩ := h
  obtain ⟨⟨d, f, rfl⟩, k⟩ := k
  exact ⟨⟨d, f, rfl⟩, fun c i h1 h2 => (k c i h1 h2).trans (h c i h1 h2)⟩

theorem State.setF_countsOnly (s : State) (f : CsrField) (i v : Nat) (hf : f.reg = .CCC_EVT ∨ f.reg = .CCC_ECNT) :
    CountsOnly s (s.setF f i v) := by
  refine ⟨⟨_, _, rfl⟩, fun c j h1 h2 => ?_⟩
  unfold State.setF
  refine s.csrVal_csrPut_ne _ _ _ _ _ fun h => ?_
  rcases hf with hf | hf
  · exact h1 (h.1.trans hf)
  · exact h2 (h.1.trans hf)

theorem State.addSat_countsOnly (s : State) (f g : CsrField) (i n : Nat) (hf : f.reg = .CCC_EVT ∨ f.reg = .CCC_ECNT)
    (hg : g.reg = .CCC_EVT ∨ g.reg = .CCC_ECNT) : CountsOnly s (s.addSat f g i n) := by
  unfold State.addSat
  simp only
  split
  · exact s.setF_countsOnly f i _ hf
  · exact (s.setF_countsOnly f i _ hf).trans (State.setF_countsOnly _ g i _ hg)

theorem State.countOne_countsOnly (s : State) (core ctx code n i : Nat) : CountsOnly s (s.countOne core ctx code n i) := by
  unfold State.countOne
  simp only
  split
  · exact s.addSat_countsOnly _ _ _ _ (.inl rfl) (.inl rfl)
  · exact .refl s

theorem State.count_countsOnly (s : State) (core ctx code n : Nat) : CountsOnly s (s.count core ctx code n) := by
  unfold State.count
  generalize List.range 4 = l
  induction l generalizing s with
  | nil => exact .refl s
  | cons i l ih => exact (s.countOne_countsOnly core ctx code n i).trans (ih _)

theorem State.charge_countsOnly (s : State) (core ctx n : Nat) : CountsOnly s (s.charge core ctx n) := by
  refine (s.addSat_countsOnly CCC_ECNT.COUNT CCC_ECNT.SAT (ctxOf core ctx) n (.inr rfl) (.inr rfl)).trans ?_
  exact ⟨⟨_, _, rfl⟩, fun _ _ _ _ => rfl⟩

/-- Issuing an operation counts and charges it, and changes nothing else. -/
theorem State.issued_countsOnly (s : State) (cls n pct : Nat) : CountsOnly s (s.issued cls n pct) :=
  (s.count_countsOnly _ _ _ _).trans (State.charge_countsOnly _ _ _ _)

theorem State.issued1_countsOnly (s : State) (cls : Nat) : CountsOnly s (s.issued1 cls) := s.issued_countsOnly cls 1 100

@[simp] theorem State.count_now (s : State) (core ctx code n : Nat) : (s.count core ctx code n).now = s.now := by
  obtain ⟨⟨c, e, h⟩, _⟩ := s.count_countsOnly core ctx code n; rw [h]
@[simp] theorem State.count_tickBase (s : State) (core ctx code n : Nat) : (s.count core ctx code n).tickBase = s.tickBase := by
  obtain ⟨⟨c, e, h⟩, _⟩ := s.count_countsOnly core ctx code n; rw [h]
@[simp] theorem State.count_seq (s : State) (core ctx code n : Nat) : (s.count core ctx code n).seq = s.seq := by
  obtain ⟨⟨c, e, h⟩, _⟩ := s.count_countsOnly core ctx code n; rw [h]
@[simp] theorem State.count_free (s : State) (core ctx code n : Nat) : (s.count core ctx code n).free = s.free := by
  obtain ⟨⟨c, e, h⟩, _⟩ := s.count_countsOnly core ctx code n; rw [h]
@[simp] theorem State.count_nextId (s : State) (core ctx code n : Nat) : (s.count core ctx code n).nextId = s.nextId := by
  obtain ⟨⟨c, e, h⟩, _⟩ := s.count_countsOnly core ctx code n; rw [h]
@[simp] theorem State.count_agenda (s : State) (core ctx code n : Nat) : (s.count core ctx code n).agenda = s.agenda := by
  obtain ⟨⟨c, e, h⟩, _⟩ := s.count_countsOnly core ctx code n; rw [h]
@[simp] theorem State.count_env (s : State) (core ctx code n : Nat) : (s.count core ctx code n).env = s.env := by
  obtain ⟨⟨c, e, h⟩, _⟩ := s.count_countsOnly core ctx code n; rw [h]
@[simp] theorem State.count_found (s : State) (core ctx code n : Nat) : (s.count core ctx code n).found = s.found := by
  obtain ⟨⟨c, e, h⟩, _⟩ := s.count_countsOnly core ctx code n; rw [h]
@[simp] theorem State.count_wants (s : State) (core ctx code n : Nat) : (s.count core ctx code n).wants = s.wants := by
  obtain ⟨⟨c, e, h⟩, _⟩ := s.count_countsOnly core ctx code n; rw [h]
@[simp] theorem State.count_issueQ (s : State) (core ctx code n : Nat) : (s.count core ctx code n).issueQ = s.issueQ := by
  obtain ⟨⟨c, e, h⟩, _⟩ := s.count_countsOnly core ctx code n; rw [h]
@[simp] theorem State.count_out (s : State) (core ctx code n : Nat) : (s.count core ctx code n).out = s.out := by
  obtain ⟨⟨c, e, h⟩, _⟩ := s.count_countsOnly core ctx code n; rw [h]
@[simp] theorem State.count_mem (s : State) (core ctx code n : Nat) : (s.count core ctx code n).mem = s.mem := by
  obtain ⟨⟨c, e, h⟩, _⟩ := s.count_countsOnly core ctx code n; rw [h]
@[simp] theorem State.count_banks (s : State) (core ctx code n : Nat) : (s.count core ctx code n).banks = s.banks := by
  obtain ⟨⟨c, e, h⟩, _⟩ := s.count_countsOnly core ctx code n; rw [h]
@[simp] theorem State.count_cores (s : State) (core ctx code n : Nat) : (s.count core ctx code n).cores = s.cores := by
  obtain ⟨⟨c, e, h⟩, _⟩ := s.count_countsOnly core ctx code n; rw [h]
@[simp] theorem State.count_clusters (s : State) (core ctx code n : Nat) : (s.count core ctx code n).clusters = s.clusters := by
  obtain ⟨⟨c, e, h⟩, _⟩ := s.count_countsOnly core ctx code n; rw [h]
@[simp] theorem State.count_dies (s : State) (core ctx code n : Nat) : (s.count core ctx code n).dies = s.dies := by
  obtain ⟨⟨c, e, h⟩, _⟩ := s.count_countsOnly core ctx code n; rw [h]
@[simp] theorem State.count_groups (s : State) (core ctx code n : Nat) : (s.count core ctx code n).groups = s.groups := by
  obtain ⟨⟨c, e, h⟩, _⟩ := s.count_countsOnly core ctx code n; rw [h]
@[simp] theorem State.count_streams (s : State) (core ctx code n : Nat) : (s.count core ctx code n).streams = s.streams := by
  obtain ⟨⟨c, e, h⟩, _⟩ := s.count_countsOnly core ctx code n; rw [h]
@[simp] theorem State.count_tasks (s : State) (core ctx code n : Nat) : (s.count core ctx code n).tasks = s.tasks := by
  obtain ⟨⟨c, e, h⟩, _⟩ := s.count_countsOnly core ctx code n; rw [h]
@[simp] theorem State.count_launches (s : State) (core ctx code n : Nat) : (s.count core ctx code n).launches = s.launches := by
  obtain ⟨⟨c, e, h⟩, _⟩ := s.count_countsOnly core ctx code n; rw [h]
@[simp] theorem State.count_cmds (s : State) (core ctx code n : Nat) : (s.count core ctx code n).cmds = s.cmds := by
  obtain ⟨⟨c, e, h⟩, _⟩ := s.count_countsOnly core ctx code n; rw [h]
@[simp] theorem State.count_ceTaken (s : State) (core ctx code n : Nat) : (s.count core ctx code n).ceTaken = s.ceTaken := by
  obtain ⟨⟨c, e, h⟩, _⟩ := s.count_countsOnly core ctx code n; rw [h]
@[simp] theorem State.count_loads (s : State) (core ctx code n : Nat) : (s.count core ctx code n).loads = s.loads := by
  obtain ⟨⟨c, e, h⟩, _⟩ := s.count_countsOnly core ctx code n; rw [h]
@[simp] theorem State.count_stores (s : State) (core ctx code n : Nat) : (s.count core ctx code n).stores = s.stores := by
  obtain ⟨⟨c, e, h⟩, _⟩ := s.count_countsOnly core ctx code n; rw [h]
@[simp] theorem State.count_atoms (s : State) (core ctx code n : Nat) : (s.count core ctx code n).atoms = s.atoms := by
  obtain ⟨⟨c, e, h⟩, _⟩ := s.count_countsOnly core ctx code n; rw [h]
@[simp] theorem State.count_barriers (s : State) (core ctx code n : Nat) : (s.count core ctx code n).barriers = s.barriers := by
  obtain ⟨⟨c, e, h⟩, _⟩ := s.count_countsOnly core ctx code n; rw [h]
@[simp] theorem State.count_allred (s : State) (core ctx code n : Nat) : (s.count core ctx code n).allred = s.allred := by
  obtain ⟨⟨c, e, h⟩, _⟩ := s.count_countsOnly core ctx code n; rw [h]
@[simp] theorem State.count_subs (s : State) (core ctx code n : Nat) : (s.count core ctx code n).subs = s.subs := by
  obtain ⟨⟨c, e, h⟩, _⟩ := s.count_countsOnly core ctx code n; rw [h]
@[simp] theorem State.count_bwsQ (s : State) (core ctx code n : Nat) : (s.count core ctx code n).bwsQ = s.bwsQ := by
  obtain ⟨⟨c, e, h⟩, _⟩ := s.count_countsOnly core ctx code n; rw [h]
@[simp] theorem State.count_ceTlb (s : State) (core ctx code n : Nat) : (s.count core ctx code n).ceTlb = s.ceTlb := by
  obtain ⟨⟨c, e, h⟩, _⟩ := s.count_countsOnly core ctx code n; rw [h]
@[simp] theorem State.count_mslTlb (s : State) (core ctx code n : Nat) : (s.count core ctx code n).mslTlb = s.mslTlb := by
  obtain ⟨⟨c, e, h⟩, _⟩ := s.count_countsOnly core ctx code n; rw [h]
@[simp] theorem State.count_ports (s : State) (core ctx code n : Nat) : (s.count core ctx code n).ports = s.ports := by
  obtain ⟨⟨c, e, h⟩, _⟩ := s.count_countsOnly core ctx code n; rw [h]
@[simp] theorem State.count_fabric (s : State) (core ctx code n : Nat) : (s.count core ctx code n).fabric = s.fabric := by
  obtain ⟨⟨c, e, h⟩, _⟩ := s.count_countsOnly core ctx code n; rw [h]
@[simp] theorem State.count_fabIn (s : State) (core ctx code n : Nat) : (s.count core ctx code n).fabIn = s.fabIn := by
  obtain ⟨⟨c, e, h⟩, _⟩ := s.count_countsOnly core ctx code n; rw [h]
@[simp] theorem State.count_ethUp (s : State) (core ctx code n : Nat) : (s.count core ctx code n).ethUp = s.ethUp := by
  obtain ⟨⟨c, e, h⟩, _⟩ := s.count_countsOnly core ctx code n; rw [h]
@[simp] theorem State.count_pairUp (s : State) (core ctx code n : Nat) : (s.count core ctx code n).pairUp = s.pairUp := by
  obtain ⟨⟨c, e, h⟩, _⟩ := s.count_countsOnly core ctx code n; rw [h]
@[simp] theorem State.count_crossDown (s : State) (core ctx code n : Nat) : (s.count core ctx code n).crossDown = s.crossDown := by
  obtain ⟨⟨c, e, h⟩, _⟩ := s.count_countsOnly core ctx code n; rw [h]
@[simp] theorem State.count_hif (s : State) (core ctx code n : Nat) : (s.count core ctx code n).hif = s.hif := by
  obtain ⟨⟨c, e, h⟩, _⟩ := s.count_countsOnly core ctx code n; rw [h]
@[simp] theorem State.count_pairLost (s : State) (core ctx code n : Nat) : (s.count core ctx code n).pairLost = s.pairLost := by
  obtain ⟨⟨c, e, h⟩, _⟩ := s.count_countsOnly core ctx code n; rw [h]
@[simp] theorem State.count_lowering (s : State) (core ctx code n : Nat) : (s.count core ctx code n).lowering = s.lowering := by
  obtain ⟨⟨c, e, h⟩, _⟩ := s.count_countsOnly core ctx code n; rw [h]
@[simp] theorem State.count_pathFrom (s : State) (core ctx code n : Nat) : (s.count core ctx code n).pathFrom = s.pathFrom := by
  obtain ⟨⟨c, e, h⟩, _⟩ := s.count_countsOnly core ctx code n; rw [h]
@[simp] theorem State.count_tookSes (s : State) (core ctx code n : Nat) : (s.count core ctx code n).tookSes = s.tookSes := by
  obtain ⟨⟨c, e, h⟩, _⟩ := s.count_countsOnly core ctx code n; rw [h]
@[simp] theorem State.count_rx (s : State) (core ctx code n : Nat) : (s.count core ctx code n).rx = s.rx := by
  obtain ⟨⟨c, e, h⟩, _⟩ := s.count_countsOnly core ctx code n; rw [h]
@[simp] theorem State.count_tx (s : State) (core ctx code n : Nat) : (s.count core ctx code n).tx = s.tx := by
  obtain ⟨⟨c, e, h⟩, _⟩ := s.count_countsOnly core ctx code n; rw [h]
@[simp] theorem State.count_ptp (s : State) (core ctx code n : Nat) : (s.count core ctx code n).ptp = s.ptp := by
  obtain ⟨⟨c, e, h⟩, _⟩ := s.count_countsOnly core ctx code n; rw [h]
@[simp] theorem State.count_latch (s : State) (core ctx code n : Nat) : (s.count core ctx code n).latch = s.latch := by
  obtain ⟨⟨c, e, h⟩, _⟩ := s.count_countsOnly core ctx code n; rw [h]
@[simp] theorem State.count_numVfs (s : State) (core ctx code n : Nat) : (s.count core ctx code n).numVfs = s.numVfs := by
  obtain ⟨⟨c, e, h⟩, _⟩ := s.count_countsOnly core ctx code n; rw [h]
@[simp] theorem State.count_lq (s : State) (core ctx code n : Nat) : (s.count core ctx code n).lq = s.lq := by
  obtain ⟨⟨c, e, h⟩, _⟩ := s.count_countsOnly core ctx code n; rw [h]
@[simp] theorem State.count_flr (s : State) (core ctx code n : Nat) : (s.count core ctx code n).flr = s.flr := by
  obtain ⟨⟨c, e, h⟩, _⟩ := s.count_countsOnly core ctx code n; rw [h]
@[simp] theorem State.count_hostDeny (s : State) (core ctx code n : Nat) : (s.count core ctx code n).hostDeny = s.hostDeny := by
  obtain ⟨⟨c, e, h⟩, _⟩ := s.count_countsOnly core ctx code n; rw [h]
@[simp] theorem State.count_sigDef (s : State) (core ctx code n : Nat) : (s.count core ctx code n).sigDef = s.sigDef := by
  obtain ⟨⟨c, e, h⟩, _⟩ := s.count_countsOnly core ctx code n; rw [h]
@[simp] theorem State.count_dirtyAt (s : State) (core ctx code n : Nat) : (s.count core ctx code n).dirtyAt = s.dirtyAt := by
  obtain ⟨⟨c, e, h⟩, _⟩ := s.count_countsOnly core ctx code n; rw [h]
@[simp] theorem State.count_bbt (s : State) (core ctx code n : Nat) : (s.count core ctx code n).bbt = s.bbt := by
  obtain ⟨⟨c, e, h⟩, _⟩ := s.count_countsOnly core ctx code n; rw [h]
@[simp] theorem State.count_scrubbing (s : State) (core ctx code n : Nat) : (s.count core ctx code n).scrubbing = s.scrubbing := by
  obtain ⟨⟨c, e, h⟩, _⟩ := s.count_countsOnly core ctx code n; rw [h]
@[simp] theorem State.count_memOwnNew (s : State) (core ctx code n : Nat) : (s.count core ctx code n).memOwnNew = s.memOwnNew := by
  obtain ⟨⟨c, e, h⟩, _⟩ := s.count_countsOnly core ctx code n; rw [h]
@[simp] theorem State.count_l1New (s : State) (core ctx code n : Nat) : (s.count core ctx code n).l1New = s.l1New := by
  obtain ⟨⟨c, e, h⟩, _⟩ := s.count_countsOnly core ctx code n; rw [h]
@[simp] theorem State.count_snap (s : State) (core ctx code n : Nat) : (s.count core ctx code n).snap = s.snap := by
  obtain ⟨⟨c, e, h⟩, _⟩ := s.count_countsOnly core ctx code n; rw [h]
@[simp] theorem State.count_journal (s : State) (core ctx code n : Nat) : (s.count core ctx code n).journal = s.journal := by
  obtain ⟨⟨c, e, h⟩, _⟩ := s.count_countsOnly core ctx code n; rw [h]
@[simp] theorem State.count_meas (s : State) (core ctx code n : Nat) : (s.count core ctx code n).meas = s.meas := by
  obtain ⟨⟨c, e, h⟩, _⟩ := s.count_countsOnly core ctx code n; rw [h]
@[simp] theorem State.count_flash (s : State) (core ctx code n : Nat) : (s.count core ctx code n).flash = s.flash := by
  obtain ⟨⟨c, e, h⟩, _⟩ := s.count_countsOnly core ctx code n; rw [h]
@[simp] theorem State.count_sjClear (s : State) (core ctx code n : Nat) : (s.count core ctx code n).sjClear = s.sjClear := by
  obtain ⟨⟨c, e, h⟩, _⟩ := s.count_countsOnly core ctx code n; rw [h]
@[simp] theorem State.count_halted (s : State) (core ctx code n : Nat) : (s.count core ctx code n).halted = s.halted := by
  obtain ⟨⟨c, e, h⟩, _⟩ := s.count_countsOnly core ctx code n; rw [h]
@[simp] theorem State.count_powered (s : State) (core ctx code n : Nat) : (s.count core ctx code n).powered = s.powered := by
  obtain ⟨⟨c, e, h⟩, _⟩ := s.count_countsOnly core ctx code n; rw [h]
@[simp] theorem State.count_svcAwait (s : State) (core ctx code n : Nat) : (s.count core ctx code n).svcAwait = s.svcAwait := by
  obtain ⟨⟨c, e, h⟩, _⟩ := s.count_countsOnly core ctx code n; rw [h]
@[simp] theorem State.count_hostEdits (s : State) (core ctx code n : Nat) : (s.count core ctx code n).hostEdits = s.hostEdits := by
  obtain ⟨⟨c, e, h⟩, _⟩ := s.count_countsOnly core ctx code n; rw [h]
@[simp] theorem State.count_lg (s : State) (core ctx code n : Nat) : (s.count core ctx code n).lg = s.lg := by
  obtain ⟨⟨c, e, h⟩, _⟩ := s.count_countsOnly core ctx code n; rw [h]
@[simp] theorem State.count_bank_view (s : State) (core ctx code n : Nat) (k : Nat) : (s.count core ctx code n).bank k = s.bank k := by
  simp [State.bank]
@[simp] theorem State.count_core_view (s : State) (core ctx code n : Nat) (k : Nat) : (s.count core ctx code n).core k = s.core k := by
  simp [State.core]
@[simp] theorem State.count_cluster_view (s : State) (core ctx code n : Nat) (k : Nat) : (s.count core ctx code n).cluster k = s.cluster k := by
  simp [State.cluster]
@[simp] theorem State.count_die_view (s : State) (core ctx code n : Nat) (k : Nat) : (s.count core ctx code n).die k = s.die k := by
  simp [State.die]
@[simp] theorem State.count_group_view (s : State) (core ctx code n : Nat) (k : Nat) : (s.count core ctx code n).group k = s.group k := by
  simp [State.group]
@[simp] theorem State.count_task_view (s : State) (core ctx code n : Nat) (k : Nat) : (s.count core ctx code n).task k = s.task k := by
  simp [State.task]
@[simp] theorem State.count_cmd_view (s : State) (core ctx code n : Nat) (k : Nat) : (s.count core ctx code n).cmd k = s.cmd k := by
  simp [State.cmd]
@[simp] theorem State.issued_now (s : State) (cls n pct : Nat) : (s.issued cls n pct).now = s.now := by
  obtain ⟨⟨c, e, h⟩, _⟩ := s.issued_countsOnly cls n pct; rw [h]
@[simp] theorem State.issued_tickBase (s : State) (cls n pct : Nat) : (s.issued cls n pct).tickBase = s.tickBase := by
  obtain ⟨⟨c, e, h⟩, _⟩ := s.issued_countsOnly cls n pct; rw [h]
@[simp] theorem State.issued_seq (s : State) (cls n pct : Nat) : (s.issued cls n pct).seq = s.seq := by
  obtain ⟨⟨c, e, h⟩, _⟩ := s.issued_countsOnly cls n pct; rw [h]
@[simp] theorem State.issued_free (s : State) (cls n pct : Nat) : (s.issued cls n pct).free = s.free := by
  obtain ⟨⟨c, e, h⟩, _⟩ := s.issued_countsOnly cls n pct; rw [h]
@[simp] theorem State.issued_nextId (s : State) (cls n pct : Nat) : (s.issued cls n pct).nextId = s.nextId := by
  obtain ⟨⟨c, e, h⟩, _⟩ := s.issued_countsOnly cls n pct; rw [h]
@[simp] theorem State.issued_agenda (s : State) (cls n pct : Nat) : (s.issued cls n pct).agenda = s.agenda := by
  obtain ⟨⟨c, e, h⟩, _⟩ := s.issued_countsOnly cls n pct; rw [h]
@[simp] theorem State.issued_env (s : State) (cls n pct : Nat) : (s.issued cls n pct).env = s.env := by
  obtain ⟨⟨c, e, h⟩, _⟩ := s.issued_countsOnly cls n pct; rw [h]
@[simp] theorem State.issued_found (s : State) (cls n pct : Nat) : (s.issued cls n pct).found = s.found := by
  obtain ⟨⟨c, e, h⟩, _⟩ := s.issued_countsOnly cls n pct; rw [h]
@[simp] theorem State.issued_wants (s : State) (cls n pct : Nat) : (s.issued cls n pct).wants = s.wants := by
  obtain ⟨⟨c, e, h⟩, _⟩ := s.issued_countsOnly cls n pct; rw [h]
@[simp] theorem State.issued_issueQ (s : State) (cls n pct : Nat) : (s.issued cls n pct).issueQ = s.issueQ := by
  obtain ⟨⟨c, e, h⟩, _⟩ := s.issued_countsOnly cls n pct; rw [h]
@[simp] theorem State.issued_out (s : State) (cls n pct : Nat) : (s.issued cls n pct).out = s.out := by
  obtain ⟨⟨c, e, h⟩, _⟩ := s.issued_countsOnly cls n pct; rw [h]
@[simp] theorem State.issued_mem (s : State) (cls n pct : Nat) : (s.issued cls n pct).mem = s.mem := by
  obtain ⟨⟨c, e, h⟩, _⟩ := s.issued_countsOnly cls n pct; rw [h]
@[simp] theorem State.issued_banks (s : State) (cls n pct : Nat) : (s.issued cls n pct).banks = s.banks := by
  obtain ⟨⟨c, e, h⟩, _⟩ := s.issued_countsOnly cls n pct; rw [h]
@[simp] theorem State.issued_cores (s : State) (cls n pct : Nat) : (s.issued cls n pct).cores = s.cores := by
  obtain ⟨⟨c, e, h⟩, _⟩ := s.issued_countsOnly cls n pct; rw [h]
@[simp] theorem State.issued_clusters (s : State) (cls n pct : Nat) : (s.issued cls n pct).clusters = s.clusters := by
  obtain ⟨⟨c, e, h⟩, _⟩ := s.issued_countsOnly cls n pct; rw [h]
@[simp] theorem State.issued_dies (s : State) (cls n pct : Nat) : (s.issued cls n pct).dies = s.dies := by
  obtain ⟨⟨c, e, h⟩, _⟩ := s.issued_countsOnly cls n pct; rw [h]
@[simp] theorem State.issued_groups (s : State) (cls n pct : Nat) : (s.issued cls n pct).groups = s.groups := by
  obtain ⟨⟨c, e, h⟩, _⟩ := s.issued_countsOnly cls n pct; rw [h]
@[simp] theorem State.issued_streams (s : State) (cls n pct : Nat) : (s.issued cls n pct).streams = s.streams := by
  obtain ⟨⟨c, e, h⟩, _⟩ := s.issued_countsOnly cls n pct; rw [h]
@[simp] theorem State.issued_tasks (s : State) (cls n pct : Nat) : (s.issued cls n pct).tasks = s.tasks := by
  obtain ⟨⟨c, e, h⟩, _⟩ := s.issued_countsOnly cls n pct; rw [h]
@[simp] theorem State.issued_launches (s : State) (cls n pct : Nat) : (s.issued cls n pct).launches = s.launches := by
  obtain ⟨⟨c, e, h⟩, _⟩ := s.issued_countsOnly cls n pct; rw [h]
@[simp] theorem State.issued_cmds (s : State) (cls n pct : Nat) : (s.issued cls n pct).cmds = s.cmds := by
  obtain ⟨⟨c, e, h⟩, _⟩ := s.issued_countsOnly cls n pct; rw [h]
@[simp] theorem State.issued_ceTaken (s : State) (cls n pct : Nat) : (s.issued cls n pct).ceTaken = s.ceTaken := by
  obtain ⟨⟨c, e, h⟩, _⟩ := s.issued_countsOnly cls n pct; rw [h]
@[simp] theorem State.issued_loads (s : State) (cls n pct : Nat) : (s.issued cls n pct).loads = s.loads := by
  obtain ⟨⟨c, e, h⟩, _⟩ := s.issued_countsOnly cls n pct; rw [h]
@[simp] theorem State.issued_stores (s : State) (cls n pct : Nat) : (s.issued cls n pct).stores = s.stores := by
  obtain ⟨⟨c, e, h⟩, _⟩ := s.issued_countsOnly cls n pct; rw [h]
@[simp] theorem State.issued_atoms (s : State) (cls n pct : Nat) : (s.issued cls n pct).atoms = s.atoms := by
  obtain ⟨⟨c, e, h⟩, _⟩ := s.issued_countsOnly cls n pct; rw [h]
@[simp] theorem State.issued_barriers (s : State) (cls n pct : Nat) : (s.issued cls n pct).barriers = s.barriers := by
  obtain ⟨⟨c, e, h⟩, _⟩ := s.issued_countsOnly cls n pct; rw [h]
@[simp] theorem State.issued_allred (s : State) (cls n pct : Nat) : (s.issued cls n pct).allred = s.allred := by
  obtain ⟨⟨c, e, h⟩, _⟩ := s.issued_countsOnly cls n pct; rw [h]
@[simp] theorem State.issued_subs (s : State) (cls n pct : Nat) : (s.issued cls n pct).subs = s.subs := by
  obtain ⟨⟨c, e, h⟩, _⟩ := s.issued_countsOnly cls n pct; rw [h]
@[simp] theorem State.issued_bwsQ (s : State) (cls n pct : Nat) : (s.issued cls n pct).bwsQ = s.bwsQ := by
  obtain ⟨⟨c, e, h⟩, _⟩ := s.issued_countsOnly cls n pct; rw [h]
@[simp] theorem State.issued_ceTlb (s : State) (cls n pct : Nat) : (s.issued cls n pct).ceTlb = s.ceTlb := by
  obtain ⟨⟨c, e, h⟩, _⟩ := s.issued_countsOnly cls n pct; rw [h]
@[simp] theorem State.issued_mslTlb (s : State) (cls n pct : Nat) : (s.issued cls n pct).mslTlb = s.mslTlb := by
  obtain ⟨⟨c, e, h⟩, _⟩ := s.issued_countsOnly cls n pct; rw [h]
@[simp] theorem State.issued_ports (s : State) (cls n pct : Nat) : (s.issued cls n pct).ports = s.ports := by
  obtain ⟨⟨c, e, h⟩, _⟩ := s.issued_countsOnly cls n pct; rw [h]
@[simp] theorem State.issued_fabric (s : State) (cls n pct : Nat) : (s.issued cls n pct).fabric = s.fabric := by
  obtain ⟨⟨c, e, h⟩, _⟩ := s.issued_countsOnly cls n pct; rw [h]
@[simp] theorem State.issued_fabIn (s : State) (cls n pct : Nat) : (s.issued cls n pct).fabIn = s.fabIn := by
  obtain ⟨⟨c, e, h⟩, _⟩ := s.issued_countsOnly cls n pct; rw [h]
@[simp] theorem State.issued_ethUp (s : State) (cls n pct : Nat) : (s.issued cls n pct).ethUp = s.ethUp := by
  obtain ⟨⟨c, e, h⟩, _⟩ := s.issued_countsOnly cls n pct; rw [h]
@[simp] theorem State.issued_pairUp (s : State) (cls n pct : Nat) : (s.issued cls n pct).pairUp = s.pairUp := by
  obtain ⟨⟨c, e, h⟩, _⟩ := s.issued_countsOnly cls n pct; rw [h]
@[simp] theorem State.issued_crossDown (s : State) (cls n pct : Nat) : (s.issued cls n pct).crossDown = s.crossDown := by
  obtain ⟨⟨c, e, h⟩, _⟩ := s.issued_countsOnly cls n pct; rw [h]
@[simp] theorem State.issued_hif (s : State) (cls n pct : Nat) : (s.issued cls n pct).hif = s.hif := by
  obtain ⟨⟨c, e, h⟩, _⟩ := s.issued_countsOnly cls n pct; rw [h]
@[simp] theorem State.issued_pairLost (s : State) (cls n pct : Nat) : (s.issued cls n pct).pairLost = s.pairLost := by
  obtain ⟨⟨c, e, h⟩, _⟩ := s.issued_countsOnly cls n pct; rw [h]
@[simp] theorem State.issued_lowering (s : State) (cls n pct : Nat) : (s.issued cls n pct).lowering = s.lowering := by
  obtain ⟨⟨c, e, h⟩, _⟩ := s.issued_countsOnly cls n pct; rw [h]
@[simp] theorem State.issued_pathFrom (s : State) (cls n pct : Nat) : (s.issued cls n pct).pathFrom = s.pathFrom := by
  obtain ⟨⟨c, e, h⟩, _⟩ := s.issued_countsOnly cls n pct; rw [h]
@[simp] theorem State.issued_tookSes (s : State) (cls n pct : Nat) : (s.issued cls n pct).tookSes = s.tookSes := by
  obtain ⟨⟨c, e, h⟩, _⟩ := s.issued_countsOnly cls n pct; rw [h]
@[simp] theorem State.issued_rx (s : State) (cls n pct : Nat) : (s.issued cls n pct).rx = s.rx := by
  obtain ⟨⟨c, e, h⟩, _⟩ := s.issued_countsOnly cls n pct; rw [h]
@[simp] theorem State.issued_tx (s : State) (cls n pct : Nat) : (s.issued cls n pct).tx = s.tx := by
  obtain ⟨⟨c, e, h⟩, _⟩ := s.issued_countsOnly cls n pct; rw [h]
@[simp] theorem State.issued_ptp (s : State) (cls n pct : Nat) : (s.issued cls n pct).ptp = s.ptp := by
  obtain ⟨⟨c, e, h⟩, _⟩ := s.issued_countsOnly cls n pct; rw [h]
@[simp] theorem State.issued_latch (s : State) (cls n pct : Nat) : (s.issued cls n pct).latch = s.latch := by
  obtain ⟨⟨c, e, h⟩, _⟩ := s.issued_countsOnly cls n pct; rw [h]
@[simp] theorem State.issued_numVfs (s : State) (cls n pct : Nat) : (s.issued cls n pct).numVfs = s.numVfs := by
  obtain ⟨⟨c, e, h⟩, _⟩ := s.issued_countsOnly cls n pct; rw [h]
@[simp] theorem State.issued_lq (s : State) (cls n pct : Nat) : (s.issued cls n pct).lq = s.lq := by
  obtain ⟨⟨c, e, h⟩, _⟩ := s.issued_countsOnly cls n pct; rw [h]
@[simp] theorem State.issued_flr (s : State) (cls n pct : Nat) : (s.issued cls n pct).flr = s.flr := by
  obtain ⟨⟨c, e, h⟩, _⟩ := s.issued_countsOnly cls n pct; rw [h]
@[simp] theorem State.issued_hostDeny (s : State) (cls n pct : Nat) : (s.issued cls n pct).hostDeny = s.hostDeny := by
  obtain ⟨⟨c, e, h⟩, _⟩ := s.issued_countsOnly cls n pct; rw [h]
@[simp] theorem State.issued_sigDef (s : State) (cls n pct : Nat) : (s.issued cls n pct).sigDef = s.sigDef := by
  obtain ⟨⟨c, e, h⟩, _⟩ := s.issued_countsOnly cls n pct; rw [h]
@[simp] theorem State.issued_dirtyAt (s : State) (cls n pct : Nat) : (s.issued cls n pct).dirtyAt = s.dirtyAt := by
  obtain ⟨⟨c, e, h⟩, _⟩ := s.issued_countsOnly cls n pct; rw [h]
@[simp] theorem State.issued_bbt (s : State) (cls n pct : Nat) : (s.issued cls n pct).bbt = s.bbt := by
  obtain ⟨⟨c, e, h⟩, _⟩ := s.issued_countsOnly cls n pct; rw [h]
@[simp] theorem State.issued_scrubbing (s : State) (cls n pct : Nat) : (s.issued cls n pct).scrubbing = s.scrubbing := by
  obtain ⟨⟨c, e, h⟩, _⟩ := s.issued_countsOnly cls n pct; rw [h]
@[simp] theorem State.issued_memOwnNew (s : State) (cls n pct : Nat) : (s.issued cls n pct).memOwnNew = s.memOwnNew := by
  obtain ⟨⟨c, e, h⟩, _⟩ := s.issued_countsOnly cls n pct; rw [h]
@[simp] theorem State.issued_l1New (s : State) (cls n pct : Nat) : (s.issued cls n pct).l1New = s.l1New := by
  obtain ⟨⟨c, e, h⟩, _⟩ := s.issued_countsOnly cls n pct; rw [h]
@[simp] theorem State.issued_snap (s : State) (cls n pct : Nat) : (s.issued cls n pct).snap = s.snap := by
  obtain ⟨⟨c, e, h⟩, _⟩ := s.issued_countsOnly cls n pct; rw [h]
@[simp] theorem State.issued_journal (s : State) (cls n pct : Nat) : (s.issued cls n pct).journal = s.journal := by
  obtain ⟨⟨c, e, h⟩, _⟩ := s.issued_countsOnly cls n pct; rw [h]
@[simp] theorem State.issued_meas (s : State) (cls n pct : Nat) : (s.issued cls n pct).meas = s.meas := by
  obtain ⟨⟨c, e, h⟩, _⟩ := s.issued_countsOnly cls n pct; rw [h]
@[simp] theorem State.issued_flash (s : State) (cls n pct : Nat) : (s.issued cls n pct).flash = s.flash := by
  obtain ⟨⟨c, e, h⟩, _⟩ := s.issued_countsOnly cls n pct; rw [h]
@[simp] theorem State.issued_sjClear (s : State) (cls n pct : Nat) : (s.issued cls n pct).sjClear = s.sjClear := by
  obtain ⟨⟨c, e, h⟩, _⟩ := s.issued_countsOnly cls n pct; rw [h]
@[simp] theorem State.issued_halted (s : State) (cls n pct : Nat) : (s.issued cls n pct).halted = s.halted := by
  obtain ⟨⟨c, e, h⟩, _⟩ := s.issued_countsOnly cls n pct; rw [h]
@[simp] theorem State.issued_powered (s : State) (cls n pct : Nat) : (s.issued cls n pct).powered = s.powered := by
  obtain ⟨⟨c, e, h⟩, _⟩ := s.issued_countsOnly cls n pct; rw [h]
@[simp] theorem State.issued_svcAwait (s : State) (cls n pct : Nat) : (s.issued cls n pct).svcAwait = s.svcAwait := by
  obtain ⟨⟨c, e, h⟩, _⟩ := s.issued_countsOnly cls n pct; rw [h]
@[simp] theorem State.issued_hostEdits (s : State) (cls n pct : Nat) : (s.issued cls n pct).hostEdits = s.hostEdits := by
  obtain ⟨⟨c, e, h⟩, _⟩ := s.issued_countsOnly cls n pct; rw [h]
@[simp] theorem State.issued_lg (s : State) (cls n pct : Nat) : (s.issued cls n pct).lg = s.lg := by
  obtain ⟨⟨c, e, h⟩, _⟩ := s.issued_countsOnly cls n pct; rw [h]
@[simp] theorem State.issued_bank_view (s : State) (cls n pct : Nat) (k : Nat) : (s.issued cls n pct).bank k = s.bank k := by
  simp [State.bank]
@[simp] theorem State.issued_core_view (s : State) (cls n pct : Nat) (k : Nat) : (s.issued cls n pct).core k = s.core k := by
  simp [State.core]
@[simp] theorem State.issued_cluster_view (s : State) (cls n pct : Nat) (k : Nat) : (s.issued cls n pct).cluster k = s.cluster k := by
  simp [State.cluster]
@[simp] theorem State.issued_die_view (s : State) (cls n pct : Nat) (k : Nat) : (s.issued cls n pct).die k = s.die k := by
  simp [State.die]
@[simp] theorem State.issued_group_view (s : State) (cls n pct : Nat) (k : Nat) : (s.issued cls n pct).group k = s.group k := by
  simp [State.group]
@[simp] theorem State.issued_task_view (s : State) (cls n pct : Nat) (k : Nat) : (s.issued cls n pct).task k = s.task k := by
  simp [State.task]
@[simp] theorem State.issued_cmd_view (s : State) (cls n pct : Nat) (k : Nat) : (s.issued cls n pct).cmd k = s.cmd k := by
  simp [State.cmd]
@[simp] theorem State.issued1_now (s : State) (cls : Nat) : (s.issued1 cls).now = s.now := by
  obtain ⟨⟨c, e, h⟩, _⟩ := s.issued1_countsOnly cls; rw [h]
@[simp] theorem State.issued1_tickBase (s : State) (cls : Nat) : (s.issued1 cls).tickBase = s.tickBase := by
  obtain ⟨⟨c, e, h⟩, _⟩ := s.issued1_countsOnly cls; rw [h]
@[simp] theorem State.issued1_seq (s : State) (cls : Nat) : (s.issued1 cls).seq = s.seq := by
  obtain ⟨⟨c, e, h⟩, _⟩ := s.issued1_countsOnly cls; rw [h]
@[simp] theorem State.issued1_free (s : State) (cls : Nat) : (s.issued1 cls).free = s.free := by
  obtain ⟨⟨c, e, h⟩, _⟩ := s.issued1_countsOnly cls; rw [h]
@[simp] theorem State.issued1_nextId (s : State) (cls : Nat) : (s.issued1 cls).nextId = s.nextId := by
  obtain ⟨⟨c, e, h⟩, _⟩ := s.issued1_countsOnly cls; rw [h]
@[simp] theorem State.issued1_agenda (s : State) (cls : Nat) : (s.issued1 cls).agenda = s.agenda := by
  obtain ⟨⟨c, e, h⟩, _⟩ := s.issued1_countsOnly cls; rw [h]
@[simp] theorem State.issued1_env (s : State) (cls : Nat) : (s.issued1 cls).env = s.env := by
  obtain ⟨⟨c, e, h⟩, _⟩ := s.issued1_countsOnly cls; rw [h]
@[simp] theorem State.issued1_found (s : State) (cls : Nat) : (s.issued1 cls).found = s.found := by
  obtain ⟨⟨c, e, h⟩, _⟩ := s.issued1_countsOnly cls; rw [h]
@[simp] theorem State.issued1_wants (s : State) (cls : Nat) : (s.issued1 cls).wants = s.wants := by
  obtain ⟨⟨c, e, h⟩, _⟩ := s.issued1_countsOnly cls; rw [h]
@[simp] theorem State.issued1_issueQ (s : State) (cls : Nat) : (s.issued1 cls).issueQ = s.issueQ := by
  obtain ⟨⟨c, e, h⟩, _⟩ := s.issued1_countsOnly cls; rw [h]
@[simp] theorem State.issued1_out (s : State) (cls : Nat) : (s.issued1 cls).out = s.out := by
  obtain ⟨⟨c, e, h⟩, _⟩ := s.issued1_countsOnly cls; rw [h]
@[simp] theorem State.issued1_mem (s : State) (cls : Nat) : (s.issued1 cls).mem = s.mem := by
  obtain ⟨⟨c, e, h⟩, _⟩ := s.issued1_countsOnly cls; rw [h]
@[simp] theorem State.issued1_banks (s : State) (cls : Nat) : (s.issued1 cls).banks = s.banks := by
  obtain ⟨⟨c, e, h⟩, _⟩ := s.issued1_countsOnly cls; rw [h]
@[simp] theorem State.issued1_cores (s : State) (cls : Nat) : (s.issued1 cls).cores = s.cores := by
  obtain ⟨⟨c, e, h⟩, _⟩ := s.issued1_countsOnly cls; rw [h]
@[simp] theorem State.issued1_clusters (s : State) (cls : Nat) : (s.issued1 cls).clusters = s.clusters := by
  obtain ⟨⟨c, e, h⟩, _⟩ := s.issued1_countsOnly cls; rw [h]
@[simp] theorem State.issued1_dies (s : State) (cls : Nat) : (s.issued1 cls).dies = s.dies := by
  obtain ⟨⟨c, e, h⟩, _⟩ := s.issued1_countsOnly cls; rw [h]
@[simp] theorem State.issued1_groups (s : State) (cls : Nat) : (s.issued1 cls).groups = s.groups := by
  obtain ⟨⟨c, e, h⟩, _⟩ := s.issued1_countsOnly cls; rw [h]
@[simp] theorem State.issued1_streams (s : State) (cls : Nat) : (s.issued1 cls).streams = s.streams := by
  obtain ⟨⟨c, e, h⟩, _⟩ := s.issued1_countsOnly cls; rw [h]
@[simp] theorem State.issued1_tasks (s : State) (cls : Nat) : (s.issued1 cls).tasks = s.tasks := by
  obtain ⟨⟨c, e, h⟩, _⟩ := s.issued1_countsOnly cls; rw [h]
@[simp] theorem State.issued1_launches (s : State) (cls : Nat) : (s.issued1 cls).launches = s.launches := by
  obtain ⟨⟨c, e, h⟩, _⟩ := s.issued1_countsOnly cls; rw [h]
@[simp] theorem State.issued1_cmds (s : State) (cls : Nat) : (s.issued1 cls).cmds = s.cmds := by
  obtain ⟨⟨c, e, h⟩, _⟩ := s.issued1_countsOnly cls; rw [h]
@[simp] theorem State.issued1_ceTaken (s : State) (cls : Nat) : (s.issued1 cls).ceTaken = s.ceTaken := by
  obtain ⟨⟨c, e, h⟩, _⟩ := s.issued1_countsOnly cls; rw [h]
@[simp] theorem State.issued1_loads (s : State) (cls : Nat) : (s.issued1 cls).loads = s.loads := by
  obtain ⟨⟨c, e, h⟩, _⟩ := s.issued1_countsOnly cls; rw [h]
@[simp] theorem State.issued1_stores (s : State) (cls : Nat) : (s.issued1 cls).stores = s.stores := by
  obtain ⟨⟨c, e, h⟩, _⟩ := s.issued1_countsOnly cls; rw [h]
@[simp] theorem State.issued1_atoms (s : State) (cls : Nat) : (s.issued1 cls).atoms = s.atoms := by
  obtain ⟨⟨c, e, h⟩, _⟩ := s.issued1_countsOnly cls; rw [h]
@[simp] theorem State.issued1_barriers (s : State) (cls : Nat) : (s.issued1 cls).barriers = s.barriers := by
  obtain ⟨⟨c, e, h⟩, _⟩ := s.issued1_countsOnly cls; rw [h]
@[simp] theorem State.issued1_allred (s : State) (cls : Nat) : (s.issued1 cls).allred = s.allred := by
  obtain ⟨⟨c, e, h⟩, _⟩ := s.issued1_countsOnly cls; rw [h]
@[simp] theorem State.issued1_subs (s : State) (cls : Nat) : (s.issued1 cls).subs = s.subs := by
  obtain ⟨⟨c, e, h⟩, _⟩ := s.issued1_countsOnly cls; rw [h]
@[simp] theorem State.issued1_bwsQ (s : State) (cls : Nat) : (s.issued1 cls).bwsQ = s.bwsQ := by
  obtain ⟨⟨c, e, h⟩, _⟩ := s.issued1_countsOnly cls; rw [h]
@[simp] theorem State.issued1_ceTlb (s : State) (cls : Nat) : (s.issued1 cls).ceTlb = s.ceTlb := by
  obtain ⟨⟨c, e, h⟩, _⟩ := s.issued1_countsOnly cls; rw [h]
@[simp] theorem State.issued1_mslTlb (s : State) (cls : Nat) : (s.issued1 cls).mslTlb = s.mslTlb := by
  obtain ⟨⟨c, e, h⟩, _⟩ := s.issued1_countsOnly cls; rw [h]
@[simp] theorem State.issued1_ports (s : State) (cls : Nat) : (s.issued1 cls).ports = s.ports := by
  obtain ⟨⟨c, e, h⟩, _⟩ := s.issued1_countsOnly cls; rw [h]
@[simp] theorem State.issued1_fabric (s : State) (cls : Nat) : (s.issued1 cls).fabric = s.fabric := by
  obtain ⟨⟨c, e, h⟩, _⟩ := s.issued1_countsOnly cls; rw [h]
@[simp] theorem State.issued1_fabIn (s : State) (cls : Nat) : (s.issued1 cls).fabIn = s.fabIn := by
  obtain ⟨⟨c, e, h⟩, _⟩ := s.issued1_countsOnly cls; rw [h]
@[simp] theorem State.issued1_ethUp (s : State) (cls : Nat) : (s.issued1 cls).ethUp = s.ethUp := by
  obtain ⟨⟨c, e, h⟩, _⟩ := s.issued1_countsOnly cls; rw [h]
@[simp] theorem State.issued1_pairUp (s : State) (cls : Nat) : (s.issued1 cls).pairUp = s.pairUp := by
  obtain ⟨⟨c, e, h⟩, _⟩ := s.issued1_countsOnly cls; rw [h]
@[simp] theorem State.issued1_crossDown (s : State) (cls : Nat) : (s.issued1 cls).crossDown = s.crossDown := by
  obtain ⟨⟨c, e, h⟩, _⟩ := s.issued1_countsOnly cls; rw [h]
@[simp] theorem State.issued1_hif (s : State) (cls : Nat) : (s.issued1 cls).hif = s.hif := by
  obtain ⟨⟨c, e, h⟩, _⟩ := s.issued1_countsOnly cls; rw [h]
@[simp] theorem State.issued1_pairLost (s : State) (cls : Nat) : (s.issued1 cls).pairLost = s.pairLost := by
  obtain ⟨⟨c, e, h⟩, _⟩ := s.issued1_countsOnly cls; rw [h]
@[simp] theorem State.issued1_lowering (s : State) (cls : Nat) : (s.issued1 cls).lowering = s.lowering := by
  obtain ⟨⟨c, e, h⟩, _⟩ := s.issued1_countsOnly cls; rw [h]
@[simp] theorem State.issued1_pathFrom (s : State) (cls : Nat) : (s.issued1 cls).pathFrom = s.pathFrom := by
  obtain ⟨⟨c, e, h⟩, _⟩ := s.issued1_countsOnly cls; rw [h]
@[simp] theorem State.issued1_tookSes (s : State) (cls : Nat) : (s.issued1 cls).tookSes = s.tookSes := by
  obtain ⟨⟨c, e, h⟩, _⟩ := s.issued1_countsOnly cls; rw [h]
@[simp] theorem State.issued1_rx (s : State) (cls : Nat) : (s.issued1 cls).rx = s.rx := by
  obtain ⟨⟨c, e, h⟩, _⟩ := s.issued1_countsOnly cls; rw [h]
@[simp] theorem State.issued1_tx (s : State) (cls : Nat) : (s.issued1 cls).tx = s.tx := by
  obtain ⟨⟨c, e, h⟩, _⟩ := s.issued1_countsOnly cls; rw [h]
@[simp] theorem State.issued1_ptp (s : State) (cls : Nat) : (s.issued1 cls).ptp = s.ptp := by
  obtain ⟨⟨c, e, h⟩, _⟩ := s.issued1_countsOnly cls; rw [h]
@[simp] theorem State.issued1_latch (s : State) (cls : Nat) : (s.issued1 cls).latch = s.latch := by
  obtain ⟨⟨c, e, h⟩, _⟩ := s.issued1_countsOnly cls; rw [h]
@[simp] theorem State.issued1_numVfs (s : State) (cls : Nat) : (s.issued1 cls).numVfs = s.numVfs := by
  obtain ⟨⟨c, e, h⟩, _⟩ := s.issued1_countsOnly cls; rw [h]
@[simp] theorem State.issued1_lq (s : State) (cls : Nat) : (s.issued1 cls).lq = s.lq := by
  obtain ⟨⟨c, e, h⟩, _⟩ := s.issued1_countsOnly cls; rw [h]
@[simp] theorem State.issued1_flr (s : State) (cls : Nat) : (s.issued1 cls).flr = s.flr := by
  obtain ⟨⟨c, e, h⟩, _⟩ := s.issued1_countsOnly cls; rw [h]
@[simp] theorem State.issued1_hostDeny (s : State) (cls : Nat) : (s.issued1 cls).hostDeny = s.hostDeny := by
  obtain ⟨⟨c, e, h⟩, _⟩ := s.issued1_countsOnly cls; rw [h]
@[simp] theorem State.issued1_sigDef (s : State) (cls : Nat) : (s.issued1 cls).sigDef = s.sigDef := by
  obtain ⟨⟨c, e, h⟩, _⟩ := s.issued1_countsOnly cls; rw [h]
@[simp] theorem State.issued1_dirtyAt (s : State) (cls : Nat) : (s.issued1 cls).dirtyAt = s.dirtyAt := by
  obtain ⟨⟨c, e, h⟩, _⟩ := s.issued1_countsOnly cls; rw [h]
@[simp] theorem State.issued1_bbt (s : State) (cls : Nat) : (s.issued1 cls).bbt = s.bbt := by
  obtain ⟨⟨c, e, h⟩, _⟩ := s.issued1_countsOnly cls; rw [h]
@[simp] theorem State.issued1_scrubbing (s : State) (cls : Nat) : (s.issued1 cls).scrubbing = s.scrubbing := by
  obtain ⟨⟨c, e, h⟩, _⟩ := s.issued1_countsOnly cls; rw [h]
@[simp] theorem State.issued1_memOwnNew (s : State) (cls : Nat) : (s.issued1 cls).memOwnNew = s.memOwnNew := by
  obtain ⟨⟨c, e, h⟩, _⟩ := s.issued1_countsOnly cls; rw [h]
@[simp] theorem State.issued1_l1New (s : State) (cls : Nat) : (s.issued1 cls).l1New = s.l1New := by
  obtain ⟨⟨c, e, h⟩, _⟩ := s.issued1_countsOnly cls; rw [h]
@[simp] theorem State.issued1_snap (s : State) (cls : Nat) : (s.issued1 cls).snap = s.snap := by
  obtain ⟨⟨c, e, h⟩, _⟩ := s.issued1_countsOnly cls; rw [h]
@[simp] theorem State.issued1_journal (s : State) (cls : Nat) : (s.issued1 cls).journal = s.journal := by
  obtain ⟨⟨c, e, h⟩, _⟩ := s.issued1_countsOnly cls; rw [h]
@[simp] theorem State.issued1_meas (s : State) (cls : Nat) : (s.issued1 cls).meas = s.meas := by
  obtain ⟨⟨c, e, h⟩, _⟩ := s.issued1_countsOnly cls; rw [h]
@[simp] theorem State.issued1_flash (s : State) (cls : Nat) : (s.issued1 cls).flash = s.flash := by
  obtain ⟨⟨c, e, h⟩, _⟩ := s.issued1_countsOnly cls; rw [h]
@[simp] theorem State.issued1_sjClear (s : State) (cls : Nat) : (s.issued1 cls).sjClear = s.sjClear := by
  obtain ⟨⟨c, e, h⟩, _⟩ := s.issued1_countsOnly cls; rw [h]
@[simp] theorem State.issued1_halted (s : State) (cls : Nat) : (s.issued1 cls).halted = s.halted := by
  obtain ⟨⟨c, e, h⟩, _⟩ := s.issued1_countsOnly cls; rw [h]
@[simp] theorem State.issued1_powered (s : State) (cls : Nat) : (s.issued1 cls).powered = s.powered := by
  obtain ⟨⟨c, e, h⟩, _⟩ := s.issued1_countsOnly cls; rw [h]
@[simp] theorem State.issued1_svcAwait (s : State) (cls : Nat) : (s.issued1 cls).svcAwait = s.svcAwait := by
  obtain ⟨⟨c, e, h⟩, _⟩ := s.issued1_countsOnly cls; rw [h]
@[simp] theorem State.issued1_hostEdits (s : State) (cls : Nat) : (s.issued1 cls).hostEdits = s.hostEdits := by
  obtain ⟨⟨c, e, h⟩, _⟩ := s.issued1_countsOnly cls; rw [h]
@[simp] theorem State.issued1_lg (s : State) (cls : Nat) : (s.issued1 cls).lg = s.lg := by
  obtain ⟨⟨c, e, h⟩, _⟩ := s.issued1_countsOnly cls; rw [h]
@[simp] theorem State.issued1_bank_view (s : State) (cls : Nat) (k : Nat) : (s.issued1 cls).bank k = s.bank k := by
  simp [State.bank]
@[simp] theorem State.issued1_core_view (s : State) (cls : Nat) (k : Nat) : (s.issued1 cls).core k = s.core k := by
  simp [State.core]
@[simp] theorem State.issued1_cluster_view (s : State) (cls : Nat) (k : Nat) : (s.issued1 cls).cluster k = s.cluster k := by
  simp [State.cluster]
@[simp] theorem State.issued1_die_view (s : State) (cls : Nat) (k : Nat) : (s.issued1 cls).die k = s.die k := by
  simp [State.die]
@[simp] theorem State.issued1_group_view (s : State) (cls : Nat) (k : Nat) : (s.issued1 cls).group k = s.group k := by
  simp [State.group]
@[simp] theorem State.issued1_task_view (s : State) (cls : Nat) (k : Nat) : (s.issued1 cls).task k = s.task k := by
  simp [State.task]
@[simp] theorem State.issued1_cmd_view (s : State) (cls : Nat) (k : Nat) : (s.issued1 cls).cmd k = s.cmd k := by
  simp [State.cmd]

/-! Sources of an operation after it is charged -/

@[simp] theorem State.issued1_sv (s : State) (cls : Nat) (n : BitVec 6) : (s.issued1 cls).sv n = s.sv n := by
  simp [State.sv, State.mine, State.b]
@[simp] theorem State.issued1_pv (s : State) (cls : Nat) (n : BitVec 4) : (s.issued1 cls).pv n = s.pv n := by
  simp [State.pv, State.mine, State.b]
@[simp] theorem State.issued1_vv (s : State) (cls : Nat) (n : BitVec 5) : (s.issued1 cls).vv n = s.vv n := by
  simp [State.vv, State.mine, State.b]
@[simp] theorem State.issued1_kv (s : State) (cls : Nat) (n : BitVec 4) : (s.issued1 cls).kv n = s.kv n := by
  simp [State.kv, State.mine, State.b]
@[simp] theorem State.issued1_mine (s : State) (cls : Nat) : (s.issued1 cls).mine = s.mine := by
  simp [State.mine, State.b]
@[simp] theorem State.issued1_cur (s : State) (cls : Nat) : (s.issued1 cls).cur = s.cur := by simp [State.cur]
@[simp] theorem State.issued1_b (s : State) (cls : Nat) : (s.issued1 cls).b = s.b := by simp [State.b]

end Sys2Proof.Machine
end

