-- ==== Sys2Proof/Machine/DarmasText.lean ====
section
/-! DEFINITION. Source text of darmas (10 R257 to R259): tokens, numbers, register names and expressions. A source is a list of characters. -/

namespace Sys2Proof.Darmas

/-- A token: a run of letters, digits, underscores and dots; the bundle separator `||`; any other character. -/
inductive Tok where
  | word (cs : List Char)
  | bar
  | sym (c : Char)
  deriving DecidableEq, Repr, Inhabited

/-- Characters of words. -/
def wordChar (c : Char) : Bool := c.isAlphanum || c = '_' || c = '.'
/-- Space between tokens. -/
def blank (c : Char) : Bool := c = ' ' || c = '\t' || c = '\r'

/-- The word gathered so far, as a token, in front of others. -/
def closeWord (w : List Char) (ts : List Tok) : List Tok := if w.isEmpty then ts else .word w.reverse :: ts

/-- The tokens of a line after a word's characters (in reverse); a comment ends the line (R258). -/
def tokens : List Char → List Char → List Tok
  | w, [] => closeWord w []
  | w, ';' :: _ => closeWord w []
  | w, '/' :: '/' :: _ => closeWord w []
  | w, '|' :: '|' :: r => closeWord w (.bar :: tokens [] r)
  | w, c :: r =>
    if wordChar c then tokens (c :: w) r
    else if blank c then closeWord w (tokens [] r)
    else closeWord w (.sym c :: tokens [] r)

/-- The parts of a list between separators that a test names. -/
def splitOn {α : Type} (sep : α → Bool) : List α → List (List α)
  | [] => [[]]
  | x :: r =>
    if sep x then [] :: splitOn sep r
    else
      match splitOn sep r with
      | p :: ps => (x :: p) :: ps
      | [] => [[x]]

/-- The parts between commas that stand in no brackets; `d` is the depth of brackets. No part for no tokens. -/
def commas (d : Nat) : List Tok → List (List Tok)
  | [] => [[]]
  | t :: r =>
    let d' := match t with
      | .sym '(' => d + 1
      | .sym ')' => d - 1
      | _ => d
    if t = .sym ',' && d = 0 then [] :: commas 0 r
    else
      match commas d' r with
      | p :: ps => (t :: p) :: ps
      | [] => [[t]]
/-- Operands separated by commas. -/
def operands (ts : List Tok) : List (List Tok) := if ts.isEmpty then [] else commas 0 ts

/-- A logical line: its tokens with their line numbers. A line whose last token is `||` goes on in the next (R258). -/
abbrev Line := List (Nat × Tok)

/-- Whether a line's last token is the bundle separator. -/
def opens (l : Line) : Bool := match l.getLast? with | some (_, .bar) => true | _ => false

/-- Numbered lines joined into logical lines; lines without a token are dropped. -/
def joinLines : List Line → List Line
  | [] => []
  | l :: r =>
    if l.isEmpty then joinLines r
    else
      match joinLines r with
      | n :: ns => if opens l then (l ++ n) :: ns else l :: n :: ns
      | [] => [l]

/-- The logical lines of a source; lines count from 1. -/
def linesOf (src : List Char) : List Line :=
  joinLines ((splitOn (· = '\n') src).mapIdx fun i cs => (tokens [] cs).map fun t => (i + 1, t))

/-! Numbers (R1, R259) -/

/-- Value of a digit of a base. -/
def digit (base : Nat) (c : Char) : Option Nat :=
  let v := if c.isDigit then c.toNat - 48 else if c.isLower then c.toNat - 87 else if c.isUpper then c.toNat - 55 else 99
  if v < base then some v else none

/-- Digits of a base, underscores between digits without a value. `prev` says whether a digit stands before. -/
def digits (base acc : Nat) (prev : Bool) : List Char → Option Nat
  | [] => if prev then some acc else none
  | '_' :: r => if prev && !r.isEmpty then digits base acc false r else none
  | c :: r =>
    match digit base c with
    | some d => digits base (acc * base + d) true r
    | none => none

/-- A natural number: decimal, hexadecimal after 0x, binary after 0b. -/
def natOf : List Char → Option Nat
  | '0' :: 'x' :: r => digits 16 0 false r
  | '0' :: 'b' :: r => digits 2 0 false r
  | r => digits 10 0 false r

/-- A decimal number without separators, leading zeros or prefix, below a bound: the number in a name. -/
def small (bound : Nat) (cs : List Char) : Option Nat :=
  if !cs.all Char.isDigit || (cs.length ≠ 1 && cs.head? = some '0') then none
  else
    match digits 10 0 false cs with
    | some n => if n < bound then some n else none
    | none => none

/-! Names (R257, R258) -/

/-- The registers of "Registers and names". A shape register has its set: 0 hm, 1 hl, 2 hx. -/
inductive Reg where
  | s (n : Nat)
  | p (n : Nat)
  | v (n : Nat)
  | k (n : Nat)
  | q (bank tile : Nat)
  | rg (n : Nat)
  | h (set n : Nat)
  | bs
  | bv (n : Nat)
  | bm
  | fmt
  | rrb
  | tick
  deriving DecidableEq, Repr, Inhabited

/-- The register that a word names, without regard to case. -/
def regOf (w : List Char) : Option Reg :=
  match w.map Char.toLower with
  | ['b', 's'] => some .bs
  | ['b', 'v', '0'] => some (.bv 0)
  | ['b', 'v', '1'] => some (.bv 1)
  | ['b', 'm'] => some .bm
  | ['f', 'm', 't'] => some .fmt
  | ['r', 'r', 'b'] => some .rrb
  | ['t', 'i', 'c', 'k'] => some .tick
  | 'r' :: 'g' :: n => (small 16 n).map .rg
  | 'h' :: 'm' :: n => (small 4 n).map (.h 0)
  | 'h' :: 'l' :: n => (small 4 n).map (.h 1)
  | 'h' :: 'x' :: n => (small 4 n).map (.h 2)
  | 's' :: n => (small 64 n).map .s
  | 'p' :: n => (small 16 n).map .p
  | 'v' :: n => (small 32 n).map .v
  | 'k' :: n => (small 16 n).map .k
  | 'q' :: n =>
    match splitOn (· = '.') n with
    | [b, t] => (small 16 b).bind fun b => (small 16 t).map (.q b)
    | _ => none
  | _ => none

/-- The slot tags. -/
def slotTags : List String := ["c", "s", "a", "v0", "v1", "m", "l", "x"]
/-- Position of a word in a list of names, letter for letter. -/
def nameIn (names : List String) (w : List Char) : Option Nat := names.findIdx? fun n => n.toList = w

/-- An identifier: a letter or underscore, then letters, digits, underscores and dots. -/
def identifier : List Char → Bool
  | [] => false
  | c :: r => (c.isAlpha || c = '_') && r.all wordChar

/-! Expressions (R259) -/

/-- The value of a word in an expression: an integer, or a symbol's. -/
def wordVal (sym : List Char → Option Int) (w : List Char) : Option Int :=
  match w with
  | c :: _ => if c.isDigit then (natOf w).map Int.ofNat else sym w
  | [] => none

/-- Terms added to and taken from a value; an integer may carry a minus sign of its own. -/
def evalMore (sym : List Char → Option Int) (acc : Int) : List Tok → Option Int
  | [] => some acc
  | .sym '+' :: .sym '-' :: .word w :: r => (natOf w).bind fun n => evalMore sym (acc - n) r
  | .sym '-' :: .sym '-' :: .word w :: r => (natOf w).bind fun n => evalMore sym (acc + n) r
  | .sym '+' :: .word w :: r => (wordVal sym w).bind fun n => evalMore sym (acc + n) r
  | .sym '-' :: .word w :: r => (wordVal sym w).bind fun n => evalMore sym (acc - n) r
  | _ => none

/-- The value of an expression: integers and symbols combined with + and −. -/
def eval (sym : List Char → Option Int) : List Tok → Option Int
  | .sym '-' :: .word w :: r => (natOf w).bind fun n => evalMore sym (-n) r
  | .word w :: r => (wordVal sym w).bind fun n => evalMore sym n r
  | _ => none

/-- A value in a field of natural numbers below a bound. -/
def natBelow (bound : Nat) (v : Int) : Option Nat := if 0 ≤ v ∧ v < bound then some v.toNat else none
/-- A value in a two's-complement field of n bits, as the field's bits. -/
def signedIn (n : Nat) (v : Int) : Option Nat :=
  if -(2 ^ (n - 1) : Nat) ≤ v ∧ v < (2 ^ (n - 1) : Nat) then some (v % (2 ^ n : Nat)).toNat else none

/-- Names joined by `+`, none where the text is anything else. -/
def joined : List Tok → Option (List (List Char))
  | [.word w] => some [w]
  | .word w :: .sym '+' :: r => (joined r).map (w :: ·)
  | _ => none

end Sys2Proof.Darmas
end

