-- ==== Sys2Proof/Machine/DarmasForms.lean ====
section
/-! DEFINITION. The slot operations as darmas writes them (10 R253, R254, R257 to R259, and the form each instruction's own rule gives): mnemonics, type suffixes, and where each operand goes in the operand bits. -/

namespace Sys2Proof.Darmas

/-- An operand of a form, with the place of its bits in OPD. -/
inductive Opnd where
  | s (pos : Nat)
  | p (pos : Nat)
  | v (pos : Nat)
  | k (pos : Nat)
  /-- A scalar register, or bs, which sets a bit and leaves the field zero. -/
  | sb (pos bit : Nat)
  /-- A vector register, or the bypass of the operation's own slot. -/
  | vb (pos bit : Nat)
  /-- `[sN]`. -/
  | mem (pos : Nat)
  /-- A natural number, and a signed one, of so many bits. -/
  | nat (width pos : Nat)
  | int (width pos : Nat)
  /-- A target of a control transfer: OFS of so many bits. -/
  | target (width : Nat)
  /-- `qB.T`. -/
  | tile (bank tile : Nat)
  /-- `qB.T`, or bm, which sets a bit. -/
  | tileBm (bank tile bit : Nat)
  /-- A shape register of one set. -/
  | shape (set pos : Nat)
  /-- A shape register of any set: ENG above its number. -/
  | anyShape (pos : Nat)
  /-- A ring register, or a ring's symbol. -/
  | ring (pos : Nat)
  /-- A code by its name, or where `num` by its number. -/
  | code (num : Bool) (names : List (String × Nat)) (pos : Nat)
  /-- Names joined by `+`, each the bits it sets; or where `num` a number of so many bits. No two names of `one`. -/
  | flags (num : Option Nat) (names one : List (String × Nat))
  /-- An operand that may be left out. -/
  | opt (o : Opnd)
  deriving Repr, Inhabited

/-- A form: mnemonic, opcode, places of its type codes, operands, and operand bits it always sets. -/
structure Form where
  name : String
  opc : Nat
  tys : List Nat := []
  args : List Opnd := []
  base : Nat := 0
  deriving Repr, Inhabited

/-- Forms of one shape with consecutive opcodes. -/
def run (tys : List Nat) (args : List Opnd) : Nat → List String → List Form
  | _, [] => []
  | opc, n :: ns => ⟨n, opc, tys, args, 0⟩ :: run tys args (opc + 1) ns

/-! Named codes -/

def scopeNames : List (String × Nat) :=
  [("context", 0), ("team", 1), ("cluster", 2), ("die", 3), ("module", 4), ("domain", 5), ("system", 6)]
def levelNames : List (String × Nat) := [("team", 0), ("die", 1), ("module", 2), ("domain", 3)]
def modeNames : List (String × Nat) := [("GN", 0), ("GL", 1), ("GR", 2), ("GD", 3)]
def srdNames : List (String × Nat) :=
  [("tick", 0x00), ("cid", 0x01), ("tsz", 0x02), ("srk", 0x03), ("nsr", 0x04), ("lc", 0x05), ("holdused", 0x06), ("energy", 0x07),
   ("rrb", 0x08), ("fmt", 0x09), ("ctx", 0x0A), ("core", 0x0B), ("prt", 0x0C), ("period", 0x0D), ("evt0", 0x10), ("evt1", 0x11),
   ("evt2", 0x12), ("evt3", 0x13)]
def atomNames : List (String × Nat) :=
  [("add", 0), ("and", 1), ("or", 2), ("xor", 3), ("min", 4), ("max", 5), ("minn", 6), ("maxn", 7), ("swap", 8)]
def fmtNames : List (String × Nat) :=
  [("FA", 1), ("FB", 2), ("FG", 4), ("RM", 8), ("FTZ", 16), ("F8SAT", 32), ("ZPM", 64), ("GSZ", 128), ("APX", 256), ("FLG", 512),
   ("TEN", 1024)]
def cubeNames : List (String × Nat) := [("swap", 2 ^ 17), ("clr", 1), ("keepa", 2), ("keepb", 4), ("keepg", 8)]
/-- A level name sets B and LEVEL (R350). -/
def copyLevels : List (String × Nat) := [("team", 1), ("die", 3), ("module", 5), ("domain", 7)]
def swapName : List (String × Nat) := [("swap", 2 ^ 17)]
/-- The suffixes by their codes (R251). -/
def typeNames : List String :=
  ["S8", "S16", "S32", "S64", "N8", "N16", "N32", "N64", "F32", "F16", "BF16", "E4M3", "E5M2", "Q4", "Q8"]

/-! The maps of R254 -/

def scope (pos : Nat) : Opnd := .code true scopeNames pos

def formsC : List Form :=
  [⟨"NOP", 0x00, [], [], 0⟩, ⟨"BR", 0x01, [], [.target 20], 0⟩, ⟨"BRR", 0x02, [], [.s 14], 0⟩, ⟨"BTREE", 0x03, [], [.nat 8 0], 0⟩,
   ⟨"CALL", 0x04, [], [.target 20], 0⟩, ⟨"CALLR", 0x05, [], [.s 14], 0⟩, ⟨"RET", 0x06, [], [], 0⟩,
   ⟨"LEND", 0x07, [], [.nat 2 18, .target 18], 0⟩, ⟨"LREP", 0x08, [], [.nat 8 0], 0⟩, ⟨"LEXIT", 0x09, [], [], 0⟩,
   ⟨"END", 0x0A, [], [], 0⟩, ⟨"TRAP", 0x0B, [], [.nat 8 0], 0⟩, ⟨"FMTW", 0x0C, [], [.s 14, .flags (some 11) fmtNames []], 0⟩,
   ⟨"FENCE", 0x0D, [], [scope 0], 0⟩, ⟨"AWAIT", 0x0E, [], [.s 14, .s 8, scope 0], 0⟩, ⟨"WAITA", 0x0F, [], [.s 14, .s 8, scope 0], 0⟩,
   ⟨"TWAIT", 0x10, [], [.s 14], 0⟩, ⟨"MARK", 0x11, [], [.nat 8 0], 0⟩]

/-- d, a, b of layout S3. -/
def threeS : List Opnd := [.s 14, .s 8, .sb 2 1]

def formsS : List Form :=
  ⟨"NOP", 0x00, [], [], 0⟩ ::
  run [] threeS 0x01 ["ADD", "SUB", "MUL", "MULH", "MULHN", "DIV", "DIVN", "REM", "REMN", "AND", "OR", "XOR", "ANDN", "SHL", "SHR",
    "SAR", "ROTL"] ++
  run [] [.s 14, .s 8] 0x12 ["CLZ", "POPC"] ++
  run [] threeS 0x14 ["MIN", "MAX", "MINN", "MAXN"] ++
  [⟨"EXT", 0x18, [4], [.s 14, .s 8], 0⟩] ++
  run [] [.p 16, .s 10, .sb 4 3] 0x19 ["CMPEQ", "CMPNE", "CMPLT", "CMPLTN", "CMPLE", "CMPLEN"] ++
  [⟨"SEL", 0x1F, [], [.s 14, .s 8, .p 4], 0⟩, ⟨"ADDI", 0x20, [], [.s 14, .s 8, .int 8 0], 0⟩,
   ⟨"MOVI", 0x21, [], [.s 14, .int 14 0], 0⟩, ⟨"MOVHI", 0x22, [], [.s 14, .nat 14 0], 0⟩,
   ⟨"PLOG", 0x23, [], [.p 16, .p 12, .p 8, .nat 4 4], 0⟩, ⟨"SRD", 0x24, [], [.s 14, .code true srdNames 0], 0⟩]

def formsA : List Form :=
  [⟨"NOP", 0x00, [], [], 0⟩, ⟨"LSET", 0x01, [], [.nat 2 18, .s 12], 0⟩] ++
  run [] [.k 16, .s 10, .int 10 0] 0x02 ["KSET", "KADD", "KGET"] ++
  run [] threeS 0x05 ["AADD", "ASUB"] ++
  [⟨"AADDI", 0x07, [], [.s 14, .s 8, .int 8 0], 0⟩, ⟨"AMOV", 0x08, [], [.s 14, .s 8], 0⟩] ++
  run [] threeS 0x09 ["AIDX", "AWRAP"] ++
  [⟨"SHF", 0x0B, [], [.anyShape 16, .nat 4 12, .s 6], 0⟩, ⟨"SHCP", 0x0C, [], [.anyShape 16], 0⟩] ++
  run [] [.nat 8 0] 0x0D ["NTQ", "RRBW", "PSTG"] ++
  [⟨"LCNT", 0x10, [], [.nat 4 16, .s 10, .int 10 0], 0⟩, ⟨"LREPT", 0x11, [], [.k 16, .s 10, .nat 3 2, .nat 2 0], 0⟩]

/-- d, a, b and d, a of layout V3, and of VC. -/
def threeV : List Opnd := [.v 15, .v 10, .vb 5 0]
def twoV : List Opnd := [.v 15, .vb 10 0]

def formsV : List Form :=
  ⟨"NOP", 0x00, [], [], 0⟩ ::
  run [1] threeV 0x01 ["VADD", "VSUB", "VMUL", "VFMA", "VFMS", "VFNMA", "VMIN", "VMAX"] ++
  run [1] twoV 0x09 ["VABS", "VNEG", "VRCP", "VRSQ", "VSQRT", "VEXP2", "VLOG2"] ++
  [⟨"VCVT", 0x10, [6, 2], twoV, 0⟩] ++
  run [1] threeV 0x11 ["VCMPEQ", "VCMPLT", "VCMPLE", "VCMPUN", "VSEL", "VAND", "VOR", "VXOR", "VSHL", "VSHR", "VSAR", "VADDS",
    "VSUBS", "VMULLO", "VDOT", "VDOTA", "VRSUM", "VRMAX", "VRMIN"] ++
  [⟨"VBCAST", 0x24, [1], [.v 15, .s 9], 0⟩, ⟨"VMOVI", 0x25, [1], [.v 15, .int 10 5], 0⟩, ⟨"VMOV", 0x26, [1], twoV, 0⟩,
   ⟨"VIDX", 0x27, [1], [.v 15, .int 10 5], 0⟩] ++
  run [1] twoV 0x28 ["VCLZ", "VPOPC", "VROUND"] ++ [⟨"VCLAMP", 0x2B, [1], threeV, 0⟩]

def formsV1 : List Form :=
  run [] [.v 15, .vb 10 0, .nat 9 1] 0x40 ["VPERM", "VXGRP", "VSHUF"] ++
  [⟨"VPACK", 0x43, [6, 2], [.v 15, .v 10], 0⟩, ⟨"VUNPK", 0x44, [6, 2], twoV, 0⟩,
   ⟨"QRD", 0x45, [], [.v 15, .tileBm 11 7 5, .nat 1 6], 0⟩,
   ⟨"SFEED", 0x46, [], [.vb 15 0, .nat 3 1], 0⟩, ⟨"SFEED", 0x46, [], [.tile 10 6, .nat 1 5, .nat 3 1], 2 ^ 14⟩]

def formsM : List Form :=
  ⟨"NOP", 0x00, [], [], 0⟩ ::
  run [] [.tile 11 7, .shape 0 18, .code true modeNames 15, .opt (.flags none cubeNames [])] 0x01
    ["CMUL", "CMULC", "CMULQ", "CMULI", "CMULA"] ++
  [⟨"QWR", 0x06, [], [.v 15, .tile 11 7, .nat 1 6], 0⟩, ⟨"QCLR", 0x07, [], [.nat 4 16, .nat 16 0], 0⟩] ++
  run [] [.tile 16 12, .tile 8 4] 0x08 ["QMOV", "QADD"] ++
  run [] [.tile 10 6, .s 14] 0x0A ["QFILL", "QSAVE", "QLOAD"] ++
  [⟨"QTHR", 0x0D, [], [.s 14, .code true [("zero", 0), ("scalar", 1), ("sampler", 2)] 12], 0⟩]

def formsL : List Form :=
  let rd (pos : Nat) : Opnd := .opt (.nat 3 pos)
  let atom : List Opnd := [.s 14, .mem 8, .code true atomNames 4, .code false [("32", 0), ("64", 1)] 3]
  [⟨"NOP", 0x00, [], [], 0⟩] ++ run [4] [.s 14, .mem 8] 0x01 ["LDS", "STS"] ++ run [5] [.v 15, .mem 9] 0x03 ["LDSV", "STSV"] ++
  [⟨"LDG", 0x05, [4], [.s 14, .mem 8, rd 1], 0⟩, ⟨"STG", 0x06, [4], [.s 14, .mem 8], 0⟩,
   ⟨"LDGV", 0x07, [5], [.v 15, .mem 9, rd 2], 0⟩, ⟨"STGV", 0x08, [5], [.v 15, .mem 9], 0⟩,
   ⟨"STNT", 0x09, [4], [.s 14, .mem 8], 0⟩, ⟨"STNTV", 0x0A, [5], [.v 15, .mem 9], 0⟩] ++
  run [4] [.s 14, .mem 8, scope 1] 0x0B ["LDA", "STL"] ++ run [] atom 0x0D ["RMWS", "ATOMG", "ATOMN"] ++
  [⟨"ACQB", 0x10, [], [.s 14, .nat 8 0], 0⟩, ⟨"RELB", 0x11, [], [.nat 8 0], 0⟩] ++ run [] [.mem 8] 0x12 ["LDP", "STP"] ++
  run [0] [.v 15, .v 10, .s 4] 0x14 ["GATH", "SCAT"] ++
  [⟨"LDK", 0x16, [], [.k 16, .mem 10], 0⟩, ⟨"PREF", 0x17, [], [.mem 8, rd 1], 0⟩]

def formsX : List Form :=
  let hx : Opnd := .shape 2 18
  let sw : Opnd := .opt (.flags none swapName [])
  let copy : List Opnd := [hx, .s 11, .s 5, .opt (.flags none (swapName ++ [("eth", 8)] ++ copyLevels) copyLevels)]
  let level : Opnd := .code true levelNames 18
  [⟨"NOP", 0x00, [], [], 0⟩, ⟨"COPY", 0x01, [], copy, 0⟩, ⟨"SUBS", 0x02, [], [hx, .s 11, .ring 0, sw], 0⟩,
   ⟨"UNSUB", 0x03, [], [hx, .ring 0, sw], 0⟩, ⟨"BARA", 0x04, [], [level, .nat 8 10, .s 4], 0⟩,
   ⟨"BARW", 0x05, [], [level, .nat 8 10], 0⟩, ⟨"BARAW", 0x06, [], [level, .nat 8 10, .s 4], 0⟩, ⟨"FPUT", 0x07, [], copy, 0⟩,
   ⟨"FGET", 0x08, [], copy, 0⟩, ⟨"FRED", 0x09, [], [hx, .s 11, sw], 0⟩,
   ⟨"CMO", 0x0A, [], [.s 14, .s 8, .code true [("clean", 0), ("inval", 1), ("cleaninval", 2)] 6,
     .code true [("L1", 0), ("LLC", 1), ("MEM", 2)] 4], 0⟩] ++
  run [] [hx, .s 11, .ring 0, sw] 0x0B ["RPUB", "RPOP"] ++
  [⟨"SMP.BIND", 0x10, [], [.s 14, .nat 3 0], 0⟩, ⟨"SMP.LOAD", 0x11, [], [.s 8, .nat 3 0], 0⟩,
   ⟨"SMP.RESET", 0x12, [], [.nat 3 0, .opt (.flags none [("keep", 8)] [])], 0⟩,
   ⟨"SMP.MERGE", 0x13, [], [.s 14, .nat 3 0, .code true [("out", 0), ("in", 1)] 3], 0⟩,
   ⟨"SMP.DRAW", 0x14, [], [.s 14, .s 8, .nat 3 0], 0⟩,
   ⟨"SMP.COMMIT", 0x15, [], [.s 14, .s 8, .nat 3 0, .code true [("commit", 0), ("pend", 1), ("settle", 2)] 3], 0⟩,
   ⟨"SMP.GREEDY", 0x16, [], [.s 14, .nat 3 0], 0⟩, ⟨"SMP.THR", 0x17, [], [.nat 3 0, .nat 1 3], 0⟩,
   ⟨"SMP.FLUSH", 0x18, [], [.s 8, .nat 3 0], 0⟩, ⟨"BFLIP", 0x19, [], [], 0⟩]

/-- The forms of a slot. -/
def formsOf : Nat → List Form
  | 0 => formsC
  | 1 => formsS
  | 2 => formsA
  | 3 => formsV
  | 4 => formsV ++ formsV1
  | 5 => formsM
  | 6 => formsL
  | _ => formsX

/-! Mnemonics and suffixes -/

/-- A word's parts between dots, in upper case. -/
def partsOf (w : List Char) : List (List Char) := splitOn (· = '.') (w.map Char.toUpper)
/-- The parts after those of a name, none where the word does not begin with the name. -/
def afterName : List (List Char) → List (List Char) → Option (List (List Char))
  | [], r => some r
  | n :: ns, w :: ws => if n = w then afterName ns ws else none
  | _ :: _, [] => none
/-- The suffixes of a word that is a form's mnemonic. -/
def Form.suffixes (f : Form) (w : List Char) : Option (List (List Char)) := afterName (partsOf f.name.toList) (partsOf w)
/-- The codes of suffixes. -/
def typeCode (x : List Char) : Option Nat := nameIn typeNames x
/-- The suffixes in their places; there are as many as the form has places. -/
def placeTypes : List Nat → List (List Char) → Option Nat
  | [], [] => some 0
  | p :: ps, x :: xs => (typeCode x).bind fun c => (placeTypes ps xs).map (c * 2 ^ p + ·)
  | _, _ => none

/-- Whether a word is a mnemonic of some slot. -/
def isMnemonic (w : List Char) : Bool :=
  let u := w.map Char.toUpper
  (List.range 8).any fun s => (formsOf s).any fun f => f.name.toList = u
/-- Words that a label may have as its name (R258). -/
def labelName (w : List Char) : Bool := identifier w && (regOf w).isNone && (nameIn slotTags w).isNone && !isMnemonic w

/-! Operands -/

/-- Where an operation stands: its slot, the address of its bundle's header, and the values of symbols. -/
structure Site where
  slot : Nat
  addr : Int
  sym : List Char → Option Int

/-- The value of a name in a list. -/
def named (names : List (String × Nat)) (w : List Char) : Option Nat := (names.find? fun n => n.1.toList = w).map (·.2)
/-- The bits of names, each of a list and none twice, at most one of `one`. -/
def namedAll (names one : List (String × Nat)) (ws : List (List Char)) : Option Nat :=
  if decide (1 < (ws.filter fun w => (named one w).isSome).length) || !decide ws.Nodup then none
  else ws.foldr (fun w acc => acc.bind fun v => (named names w).map (Nat.lor v)) (some 0)

/-- The operand bits of one operand, none where it is not what the form asks for or does not fit its field. -/
def Opnd.place (x : Site) (ts : List Tok) : Opnd → Option Nat
  | .opt o => o.place x ts
  | .s pos => match ts with
    | [.word w] => match regOf w with | some (.s n) => some (n * 2 ^ pos) | _ => none
    | _ => none
  | .p pos => match ts with
    | [.word w] => match regOf w with | some (.p n) => some (n * 2 ^ pos) | _ => none
    | _ => none
  | .v pos => match ts with
    | [.word w] => match regOf w with | some (.v n) => some (n * 2 ^ pos) | _ => none
    | _ => none
  | .k pos => match ts with
    | [.word w] => match regOf w with | some (.k n) => some (n * 2 ^ pos) | _ => none
    | _ => none
  | .sb pos b => match ts with
    | [.word w] => match regOf w with | some (.s n) => some (n * 2 ^ pos) | some .bs => some (2 ^ b) | _ => none
    | _ => none
  | .vb pos b => match ts with
    | [.word w] => match regOf w with
      | some (.v n) => some (n * 2 ^ pos)
      | some (.bv n) => if x.slot = 3 + n then some (2 ^ b) else none
      | _ => none
    | _ => none
  | .mem pos => match ts with
    | [.sym '[', .word w, .sym ']'] => match regOf w with | some (.s n) => some (n * 2 ^ pos) | _ => none
    | _ => none
  | .nat width pos => (eval x.sym ts).bind fun v => (natBelow (2 ^ width) v).map (· * 2 ^ pos)
  | .int width pos => (eval x.sym ts).bind fun v => (signedIn width v).map (· * 2 ^ pos)
  | .target width => (eval x.sym ts).bind fun v => if (v - x.addr) % 4 = 0 then signedIn width ((v - x.addr) / 4) else none
  | .tile b t => match ts with
    | [.word w] => match regOf w with | some (.q n m) => some (n * 2 ^ b + m * 2 ^ t) | _ => none
    | _ => none
  | .tileBm b t f => match ts with
    | [.word w] => match regOf w with
      | some (.q n m) => some (n * 2 ^ b + m * 2 ^ t)
      | some .bm => some (2 ^ f)
      | _ => none
    | _ => none
  | .shape set pos => match ts with
    | [.word w] => match regOf w with | some (.h e n) => if e = set then some (n * 2 ^ pos) else none | _ => none
    | _ => none
  | .anyShape pos => match ts with
    | [.word w] => match regOf w with | some (.h e n) => some ((4 * e + n) * 2 ^ pos) | _ => none
    | _ => none
  | .ring pos => match ts with
    | [.word w] => match regOf w with
      | some (.rg n) => some (n * 2 ^ pos)
      | _ => (eval x.sym ts).bind fun v => (natBelow 16 v).map (· * 2 ^ pos)
    | _ => none
  | .code num names pos =>
    match ts with
    | [.word w] => match named names w with
      | some c => some (c * 2 ^ pos)
      | none =>
        if !num then none
        else (eval x.sym ts).bind fun v => if names.any fun n => (n.2 : Int) = v then some (v.toNat * 2 ^ pos) else none
    | _ => none
  | .flags num names one =>
    match (joined ts).bind (namedAll names one) with
    | some c => some c
    | none => num.bind fun n => (eval x.sym ts).bind (natBelow (2 ^ n))

/-- The operand bits of all operands in order. -/
def placeAll (x : Site) : List Opnd → List (List Tok) → Option Nat
  | [], [] => some 0
  | .opt _ :: os, [] => placeAll x os []
  | o :: os, t :: ts => (o.place x t).bind fun v => (placeAll x os ts).map (v + ·)
  | _, _ => none

/-- The operand bits of an operation in a form, by its mnemonic's word and its operands. -/
def Form.opd (f : Form) (x : Site) (w : List Char) (args : List (List Tok)) : Option Nat :=
  (f.suffixes w).bind fun sx => (placeTypes f.tys sx).bind fun t => (placeAll x f.args args).map (f.base + t + ·)

/-- A slot operation of a source: its line, slot, guard, mnemonic with suffixes, and operands. -/
structure OpText where
  line : Nat
  slot : Nat
  guard : Nat
  word : List Char
  args : List (List Tok)
  deriving DecidableEq, Repr, Inhabited

/-- Whether an operation is the no-operation with guard 0, whose word is zero (R249, R260). -/
def OpText.zero (o : OpText) : Bool := o.guard = 0 && o.word.map Char.toUpper = "NOP".toList && o.args.isEmpty

/-- The slot word of an operation (R247), none where no form of its mnemonic takes it. -/
def OpText.slotWord (o : OpText) (addr : Int) (sym : List Char → Option Int) : Option Nat :=
  (formsOf o.slot).findSome? fun f =>
    (f.opd ⟨o.slot, addr, sym⟩ o.word o.args).map fun v => o.guard * 2 ^ 27 + f.opc * 2 ^ 20 + v

/-- The guard that a word in parentheses writes. -/
def guardOf (w : List Char) : Option Nat :=
  match w with
  | 'p' :: 'a' :: 't' :: 'h' :: n => (small 5 n).map (16 + ·)
  | _ => match regOf w with | some (.p n) => some n | _ => none

/-- A slot operation from its tokens: tag, guard, mnemonic, operands (R258). -/
def opOf (line : Nat) : List Tok → Option OpText
  | .word tag :: .sym ':' :: .sym '(' :: .word g :: .sym ')' :: .word w :: r =>
    (nameIn slotTags tag).bind fun s => (guardOf g).map fun g => ⟨line, s, g, w, operands r⟩
  | .word tag :: .sym ':' :: .word w :: r => (nameIn slotTags tag).map fun s => ⟨line, s, 0, w, operands r⟩
  | _ => none

end Sys2Proof.Darmas
end

