-- ==== Sys2Proof/Machine/DarmasLayout.lean ====
section
/-! DEFINITION. Sections, labels and bytes of darmas (10 R260 to R262, R409): what a section holds in the order of the source, the address of each part, the values of symbols, and the bytes of `.data`. -/

namespace Sys2Proof.Darmas

open Sys2Proof.Machine

/-- A bundle of a source: its line, its operations, and what the directives before it and folding (R260) set. -/
structure BundleText where
  line : Nat := 0
  ops : List OpText := []
  yield : Bool := false
  stop : Bool := false
  prof : Option Nat := none
  empty : Nat := 0
  deriving DecidableEq, Repr, Inhabited

/-- What a section holds. A value list has the code of its suffix, 15 for `.i4`, and the kernel it stands in. -/
inductive Item where
  | label (name : List Char)
  | bundle (b : BundleText)
  | pad (n : Nat)
  | vals (line : Nat) (scope : Option Nat) (code : Nat) (vals : List (List Tok))
  | session (line : Nat) (scope : Option Nat) (keys : List (List Tok))
  deriving DecidableEq, Repr, Inhabited

/-- The sections (R261, R262). -/
inductive Section where
  | text
  | stubs
  | graph
  | data
  deriving DecidableEq, Repr, Inhabited

/-- Bits of an element of a suffix (R218, R261). -/
def suffixBits (code : Nat) : Nat := [8, 16, 32, 64, 8, 16, 32, 64, 32, 16, 16, 8, 8, 4, 8, 4].getD code 8

/-- Bytes from a place that is a multiple of 4 to the next multiple of n, or of any place. -/
def padTo (n : Nat) (a : Int) : Nat := (-a % n).toNat

/-- Bytes of an item at an address. -/
def Item.size (a : Int) : Item → Nat
  | .label _ => 0
  | .bundle b => 4 * (1 + (b.ops.filter fun o => !o.zero).length)
  | .pad n => padTo n a
  | .vals _ _ code vs => (suffixBits code * vs.length + 7) / 8
  | .session .. => 256

/-- The items with their addresses, from an address up. -/
def spans (a : Int) : List Item → List (Int × Item)
  | [] => []
  | i :: r => (a, i) :: spans (a + i.size a) r

/-- The address after the items. -/
def endOf (a : Int) (l : List Item) : Int := l.foldl (fun a i => a + i.size a) a

/-- The labels of items with their values. -/
def labelsIn (l : List (Int × Item)) : List (List Char × Int) :=
  l.filterMap fun e => match e.2 with | .label n => some (n, e.1) | _ => none

/-- A branch-tree entry of a source (R276): its tests, with NEG, and its targets, none for `next`. -/
structure TreeText where
  line : Nat
  n : Nat
  tests : List (Bool × Nat)
  targets : List (Option (List Char))
  deriving DecidableEq, Repr, Inhabited

/-- A drain-stub entry of a source (R264): its labels, and its flags. -/
structure StubText where
  line : Nat
  lo : List Char
  hi : List Char
  stub : List Tok
  entry : List Tok
  point : Bool
  quiet : Bool
  deriving DecidableEq, Repr, Inhabited

/-- A kernel of a source. The header's keys have their values (a named value by its position), the loop table its kinds and
counts. -/
structure KernelText where
  name : List Char := []
  line : Nat := 0
  /-- Line of `.endk`. -/
  last : Nat := 0
  addr : Option Nat := none
  /-- `text` has been opened. -/
  opened : Bool := false
  text : List Item := []
  stubs : List Item := []
  graph : List Item := []
  keys : List (List Char × Nat) := []
  /-- Line of the key `class`. -/
  classLine : Nat := 0
  loops : List (Nat × Nat × Nat) := []
  trees : List TreeText := []
  entries : List StubText := []
  deriving DecidableEq, Repr, Inhabited

def KernelText.items (k : KernelText) : Section → List Item
  | .text => k.text
  | .stubs => k.stubs
  | .graph => k.graph
  | .data => []

def KernelText.setItems (k : KernelText) (s : Section) (l : List Item) : KernelText :=
  match s with
  | .text => { k with text := l }
  | .stubs => { k with stubs := l }
  | .graph => { k with graph := l }
  | .data => k

/-- The value of a header key. -/
def KernelText.key (k : KernelText) (n : String) : Option Nat := (k.keys.find? fun e => e.1 = n.toList).map (·.2)
/-- The value of a header key that may be left out. -/
def KernelText.get (k : KernelText) (n : String) (d : Nat) : Nat := (k.key n).getD d

/-- Dynamic mode, and a loop level over dies. -/
def KernelText.dynamic (k : KernelText) : Bool := k.get "mode" 0 = 1
def KernelText.dies (k : KernelText) : Bool := k.loops.any fun l => l.2.1 = 2

/-! The kernel image (R262, R409) -/

/-- The next multiple of n. -/
def roundUp (n v : Nat) : Nat := ceilDiv v n * n

/-- A: the address of the code's first byte. -/
def KernelText.base (k : KernelText) : Int := (k.addr.getD 0 : Nat)
/-- The value of the kernel's name: the address of its header. -/
def KernelText.header (k : KernelText) : Int := k.base - 128
def KernelText.textSpans (k : KernelText) : List (Int × Item) := spans k.base k.text
def KernelText.stubBase (k : KernelText) : Int := endOf k.base k.text
def KernelText.stubSpans (k : KernelText) : List (Int × Item) := spans k.stubBase k.stubs
def KernelText.codeEnd (k : KernelText) : Int := endOf k.stubBase k.stubs
def KernelText.codeLen (k : KernelText) : Nat := (k.codeEnd - k.base).toNat
/-- BTTN: one above the highest entry number. -/
def KernelText.bttn (k : KernelText) : Nat := k.trees.foldl (fun m t => max m (t.n + 1)) 0
def KernelText.bttOff (k : KernelText) : Nat := roundUp 8 (128 + k.codeLen)
def KernelText.dstOff (k : KernelText) : Nat := roundUp 32 (k.bttOff + 32 * k.bttn)
def KernelText.tgOff (k : KernelText) : Nat := roundUp 32 (k.dstOff + 32 * k.entries.length)
def KernelText.graphSpans (k : KernelText) : List (Int × Item) := spans (k.header + k.tgOff) k.graph

/-- The labels of a kernel with their values (R409). -/
def KernelText.labels (k : KernelText) : List (List Char × Int) :=
  labelsIn k.textSpans ++ labelsIn k.stubSpans ++ labelsIn k.graphSpans
/-- The labels of its code. -/
def KernelText.codeLabels (k : KernelText) : List (List Char × Int) := labelsIn k.textSpans ++ labelsIn k.stubSpans

/-! The source as a whole -/

/-- A source that has been read: its kernels, its data section, and the numbers that `.ring` defines with the kernel they stand
in. -/
structure Source where
  kernels : List KernelText := []
  data : List Item := []
  /-- The address of `data`, none while it has not been opened. -/
  dataAddr : Option Nat := none
  rings : List (Option Nat × List Char × Int) := []
  deriving DecidableEq, Repr, Inhabited

/-- The number of a ring's symbol in a scope: the kernel's own first, then the file's. -/
def Source.ring (f : Source) (scope : Option Nat) (n : List Char) : Option Int :=
  let at_ (x : Option Nat) := (f.rings.find? fun r => r.1 = x && r.2.1 = n).map (·.2.2)
  (scope.bind fun _ => at_ scope).orElse fun _ => at_ none

/-- The value of a symbol in a scope: labels and rings of the kernel, then labels of `data`, names of kernels and rings of the
file. -/
def Source.symbol (f : Source) (scope : Option Nat) (n : List Char) : Option Int :=
  let own := (scope.bind (f.kernels[·]?)).bind fun k => (k.labels.find? fun l => l.1 = n).map (·.2)
  let data := ((labelsIn (spans (f.dataAddr.getD 0 : Nat) f.data)).find? fun l => l.1 = n).map (·.2)
  let kernel := (f.kernels.find? fun k => k.name = n).map (·.header)
  own.orElse fun _ => (scope.bind fun i => f.ring (some i) n).orElse fun _ => data.orElse fun _ => kernel.orElse fun _ => f.ring none n

/-! Values of `.data` (R261) -/

/-- A decimal number with a point, as a real. -/
def decimal (neg : Bool) (w : List Char) : Option FpVal :=
  match splitOn (· = '.') w with
  | [a, b] =>
    (digits 10 0 false a).bind fun x => (digits 10 0 false b).map fun y =>
      let den := 10 ^ (b.filter Char.isDigit).length
      .fin neg (x * den + y) den
  | _ => none

/-- A value written for a floating-point suffix: a decimal number, or an integer as its value. -/
def realOf (sym : List Char → Option Int) (ts : List Tok) : Option FpVal :=
  let int := (eval sym ts).map FpVal.ofInt
  match ts with
  | [.word w] => (decimal false w).orElse fun _ => int
  | [.sym '-', .word w] => (decimal true w).orElse fun _ => int
  | _ => int

/-- The format of a floating-point suffix. -/
def suffixFmt : Nat → Option Fmt
  | 8 => some fp32
  | 9 => some fp16
  | 10 => some bf16
  | 11 => some fpE4M3
  | 12 => some fpE5M2
  | _ => none

/-- The bits of one value under a suffix: round_fp under RNE, with sat for `.e4m3` and `.e5m2`; an integer in range. -/
def valueBits (code : Nat) (sym : List Char → Option Int) (ts : List Tok) : Option Nat :=
  match suffixFmt code with
  | some f => (realOf sym ts).map fun v => (roundFp v f .rne (f.width = 8)).1
  | none =>
    let n := suffixBits code
    (eval sym ts).bind fun v => if code < 4 || code = 15 then signedIn n v else natBelow (2 ^ n) v

/-- Two 4-bit codes to a byte, the lower index in bits 3:0 (R218). -/
def pairUp : List Nat → List Nat
  | a :: b :: r => (a + 16 * b) :: pairUp r
  | r => r

/-- The bytes of values of a suffix. -/
def valueBytes (code : Nat) (vs : List Nat) : List Byte :=
  if suffixBits code = 4 then (pairUp vs).map (BitVec.ofNat 8) else (vs.map (natLe (suffixBits code / 8))).flatten

end Sys2Proof.Darmas
end

