-- ==== Sys2Proof/Machine/DarmasKernel.lean ====
section
/-! DEFINITION. Kernel images and stream descriptors of darmas (10 R241, R260 to R266, R276, R409; 07 R179, R180; 08 R200 to R202; 05 R107; 11 R274): their bytes, and the lines that hold an error. -/

namespace Sys2Proof.Darmas

open Sys2Proof.Machine

/-! Bundles -/

/-- A bundle with its address and its words: the header, and the slot words that are not absent. -/
structure Placed where
  addr : Int := 0
  line : Nat := 0
  hdr : Nat := 0
  words : List (Nat × Nat) := []
  /-- Lines of the operations, by slot. -/
  at_ : List (Nat × Nat) := []
  /-- Lines of operations that no form takes. -/
  errs : List Nat := []
  deriving DecidableEq, Repr, Inhabited

/-- Cycles of a bundle with its empty bundles (R244). -/
def Placed.cycles (b : Placed) : Nat := 1 + bits b.hdr 11 8
/-- Its bytes (R242). -/
def Placed.bytes (b : Placed) : List Byte := natLe 4 b.hdr ++ (b.words.map fun w => natLe 4 w.2).flatten

/-- A bundle at an address: its slot words in ascending slot number, and its header (R241, R260). -/
def BundleText.place (b : BundleText) (sym : List Char → Option Int) (a : Int) : Placed :=
  let ops := (List.range 8).filterMap fun s => b.ops.find? fun o => o.slot = s && !o.zero
  let ws := ops.map fun o => (o, o.slotWord a sym)
  let good := ws.filterMap fun w => w.2.map fun v => (w.1.slot, v)
  let flag (x : Bool) (v : Nat) : Nat := if x then v else 0
  { addr := a, line := b.line, words := good
    hdr := (good.map fun w => 2 ^ w.1).foldl (· + ·) 0 + 256 * b.empty + flag b.yield 4096 + flag b.stop 8192 + 65536 * b.prof.getD 0
    at_ := b.ops.map fun o => (o.slot, o.line)
    errs := (b.ops.filter fun o => (o.slotWord a sym).isNone).map (·.line) }

/-- The bundles of a code section: those of the source, and the headers 0x0000_0000 of a padding (R261). -/
def placeAllBundles (sym : List Char → Option Int) (l : List (Int × Item)) : List Placed :=
  l.flatMap fun e =>
    match e.2 with
    | .bundle b => [b.place sym e.1]
    | .pad n => (List.range (padTo n e.1 / 4)).map fun i => { addr := e.1 + 4 * i }
    | _ => []

/-! Header and tables -/

/-- The loop-table entry of a level (R180, R261): KIND 3 and COUNT 0 without a `.loop`. -/
def KernelText.loopEntry (k : KernelText) (l : Nat) : Nat :=
  match k.loops.find? fun x => x.1 = l with
  | some (_, 1, _) => 2 ^ 62 + k.get "team" 1
  | some (_, kind, count) => kind * 2 ^ 62 + count
  | none => 3 * 2 ^ 62

/-- The 128-byte header (R179, R263). -/
def KernelText.headerBytes (k : KernelText) : List Byte :=
  let g (n : String) : Nat := k.get n 0
  natLe 2 1 ++ natLe 1 (g "mode" + 2 * g "l1") ++ natLe 1 (k.get "team" 1) ++ natLe 2 (g "profile") ++ natLe 2 (g "spad") ++
  natLe 4 (g "tlen") ++ natLe 4 (g "hold") ++ natLe 4 (g "pgap") ++ natLe 2 (g "drain") ++ natLe 2 (g "restore") ++
  natLe 2 (g "banks") ++ natLe 2 (g "wt") ++ natLe 2 (g "brt") ++ natLe 2 (g "ced") ++ natLe 2 (g "bar") ++ natLe 2 (g "fbe") ++
  natLe 4 128 ++ natLe 4 k.codeLen ++ natLe 4 k.bttOff ++ natLe 2 k.bttn ++ natLe 2 k.entries.length ++ natLe 4 k.dstOff ++
  natLe 4 k.tgOff ++ natLe 2 ((endOf (k.header + k.tgOff) k.graph - (k.header + k.tgOff)).toNat / 32) ++ natLe 2 0 ++
  ((List.range 4).map fun l => natLe 8 (k.loopEntry l)).flatten ++ natLe 32 0

/-- The code offset of a code label. -/
def KernelText.codeOff (k : KernelText) (n : List Char) : Option Nat :=
  (k.codeLabels.find? fun l => l.1 = n).map fun l => (l.2 - k.base).toNat

/-- A branch-tree entry (R274, R276): its bytes, none where a target is no code label. -/
def TreeText.bytes (t : TreeText) (k : KernelText) : Option (List Byte) :=
  let tests := t.tests.map fun x => 128 + (if x.1 then 16 else 0) + x.2
  (t.targets.foldr (fun x acc => acc.bind fun l =>
    match x with
    | none => some (0xFFFFFFFF :: l)
    | some n => (k.codeOff n).map (· :: l)) (some [])).map fun ts =>
    (tests ++ List.replicate (4 - tests.length) 0).flatMap (natLe 1) ++ natLe 4 0 ++
    (ts ++ List.replicate (5 - ts.length) 0).flatMap (natLe 4) ++ natLe 4 0

/-- The branch-tree table; entries not written are zero (R262). -/
def KernelText.btt (k : KernelText) : List Byte :=
  (List.range k.bttn).flatMap fun n =>
    (((k.trees.find? fun t => t.n = n).bind fun t => t.bytes k)).getD (List.replicate 32 0)

/-- The offsets at which labels of `stubs` stand. -/
def KernelText.stubStarts (k : KernelText) : List Int := (labelsIn k.stubSpans).map (·.2)

/-- The bundles of the sequence from a label of `stubs`: up to the next label of the section, or to its end (R264). -/
def KernelText.sequence (k : KernelText) (bs : List Placed) (ts : List Tok) : Option (List Placed) :=
  match ts with
  | [.word n] => ((labelsIn k.stubSpans).find? fun l => l.1 = n).map fun l =>
    let stop := leastBy (fun a b => decide (a < b)) (k.stubStarts.filter fun a => decide (l.2 < a))
    bs.filter fun b => decide (l.2 ≤ b.addr) && (match stop with | some e => decide (b.addr < e) | none => true)
  | _ => none

/-- A drain-stub entry with the bundles of its two sequences. -/
structure PlacedStub where
  line : Nat := 0
  e : StubEntry := {}
  stub : List Placed := []
  entry : List Placed := []
  deriving DecidableEq, Repr, Inhabited

/-- A `.stub` (R264), none where a label is missing, a sequence is empty or the length does not fit. -/
def StubText.place (t : StubText) (k : KernelText) (bs : List Placed) : Option PlacedStub :=
  (k.codeOff t.lo).bind fun lo => (k.codeOff t.hi).bind fun hi =>
    let flags := (if t.point then 1 else 0) + (if t.quiet then 2 else 0)
    if t.quiet then
      if eval (fun _ => none) t.stub = some 0 ∧ eval (fun _ => none) t.entry = some 0
      then some { line := t.line, e := { lo := lo, hi := hi, flags := flags } } else none
    else
      (k.sequence bs t.stub).bind fun s => (k.sequence bs t.entry).bind fun r =>
        let off (l : List Placed) : Nat := ((l.head?.map (·.addr)).getD 0 - k.base).toNat
        let len (l : List Placed) : Nat := (l.map Placed.cycles).foldl (· + ·) 0
        if s.isEmpty || r.isEmpty || decide (65536 ≤ len s) || decide (65536 ≤ len r) then none
        else some { line := t.line, stub := s, entry := r
                    e := { lo := lo, hi := hi, stub := off s, entry := off r, dlen := len s, rlen := len r, flags := flags } }

/-- Bytes of a drain-stub entry (R200). -/
def entryBytes (e : StubEntry) : List Byte :=
  natLe 4 e.lo ++ natLe 4 e.hi ++ natLe 4 e.stub ++ natLe 4 e.entry ++ natLe 2 e.dlen ++ natLe 2 e.rlen ++ natLe 1 e.flags ++ natLe 11 0

/-- An entry in a list sorted by LO. -/
def insertLo (e : PlacedStub) : List PlacedStub → List PlacedStub
  | [] => [e]
  | x :: r => if e.e.lo < x.e.lo then e :: x :: r else x :: insertLo e r

/-! Data -/

/-- The value list at an address in its bytes, and the lines of values that do not fit. -/
def Source.values (f : Source) (scope : Option Nat) (code : Nat) (vs : List (List Tok)) : List Byte × Bool :=
  let xs := vs.map (valueBits code (f.symbol scope))
  (valueBytes code (xs.map (·.getD 0)), xs.all Option.isSome)

/-- A placement group written cluster.base.size (R265). -/
def groupBits (w : List Char) : Option Nat :=
  match splitOn (· = '.') w with
  | [c, b, z] => (small 16 c).bind fun c => (small 8 b).bind fun b => (small 9 z).bind fun z =>
    (([1, 2, 4, 8] : List Nat).findIdx? (· = z)).map fun l => c + 16 * b + 128 * l
  | _ => none

def classNames : List (String × Nat) := [("fast", 0), ("slow", 1), ("system", 2), ("bulk", 3)]

/-- The tokens of a session's key, none where it is not written. -/
def keyOf (keys : List (List Tok)) (n : String) : Option (List Tok) :=
  keys.findSome? fun g => match g with | .word w :: r => if w = n.toList then some r else none | _ => none

/-- The names of a session's keys. -/
def sessionKeys : List String :=
  ["session", "class", "timer", "shadow", "group", "pgroup", "period", "rdeadline", "phase"] ++
  ["kernel0", "spad0", "slots0", "kernel1", "spad1", "slots1", "kernel2", "spad2", "slots2", "kernel3", "spad3", "slots3"]

/-- A number of a session's key, 0 where it is not written, none where it does not fit. -/
def sessionNat (sym : List Char → Option Int) (keys : List (List Tok)) (n : String) (bound : Nat) : Option Nat :=
  match keyOf keys n with
  | none => some 0
  | some ts => (eval sym ts).bind (natBelow bound)

/-- Bytes 24 to 39 of a variant: eight values in parentheses (R265). -/
def slotsBytes (sym : List Char → Option Int) (ts : List Tok) : Option (List Byte) :=
  match ts with
  | .sym '(' :: r =>
    if r.getLast? = some (.sym ')') then
      let vs := commas 0 r.dropLast
      if vs.length = 8 then
        vs.foldr (fun v acc => acc.bind fun l => ((eval sym v).bind (natBelow 65536)).map fun x => natLe 2 x ++ l) (some [])
      else none
    else none
  | _ => none

/-- The class a session names (R105), 0 where it names none. -/
def sessionClass (sym : List Char → Option Int) (keys : List (List Tok)) : Option Nat :=
  match keyOf keys "class" with
  | some [.word w] => (named classNames w).orElse fun _ => (eval sym [.word w]).bind (natBelow 4)
  | some _ => none
  | none => some 0

/-- Variant L of a session (R107, R265). Its kernel gives TLEN, HOLD and PGAP; one of a fast or slow session is no dynamic
kernel and has no level over dies. -/
def Source.variantBytes (f : Source) (sym : List Char → Option Int) (keys : List (List Tok)) (cls : Nat)
    (kernel spad slots : String) : Option (List Byte) :=
  let head : Option (List Byte) :=
    match keyOf keys kernel with
    | none => some (natLe 20 0)
    | some [.word n] => (f.kernels.find? fun k => k.name = n).bind fun k =>
      if cls < 2 && (k.dynamic || k.dies) then none
      else some (natLe 8 (k.header % (2 ^ 64 : Nat)).toNat ++ natLe 4 (k.get "tlen" 0) ++ natLe 4 (k.get "hold" 0) ++ natLe 4 (k.get "pgap" 0))
    | some _ => none
  let sl : Option (List Byte) := match keyOf keys slots with | none => some (natLe 16 0) | some ts => slotsBytes sym ts
  head.bind fun h => (sessionNat sym keys spad (2 ^ 32)).bind fun p => sl.map fun b => h ++ natLe 4 p ++ b ++ natLe 8 0

/-- A stream descriptor (R107, R265), none where a key is unknown, given twice or does not fit. -/
def Source.descriptor (f : Source) (scope : Option Nat) (keys : List (List Tok)) : Option (List Byte) :=
  let sym := f.symbol scope
  let names := keys.map fun g => match g with | .word w :: _ => w | _ => []
  let group (n : String) : Option Nat := match keyOf keys n with
    | none => some 0
    | some [.word w] => groupBits w
    | some _ => none
  if !(names.all fun n => (nameIn sessionKeys n).isSome) || !decide names.Nodup then none
  else
    (sessionNat sym keys "session" 256).bind fun ses => (sessionClass sym keys).bind fun cls =>
    (sessionNat sym keys "timer" 2).bind fun tm => (sessionNat sym keys "shadow" 2).bind fun sh =>
    (group "group").bind fun g => (group "pgroup").bind fun pg =>
    (sessionNat sym keys "period" (2 ^ 64)).bind fun per => (sessionNat sym keys "rdeadline" (2 ^ 64)).bind fun rd =>
    (sessionNat sym keys "phase" (2 ^ 64)).bind fun ph =>
    (f.variantBytes sym keys cls "kernel0" "spad0" "slots0").bind fun v0 =>
    (f.variantBytes sym keys cls "kernel1" "spad1" "slots1").bind fun v1 =>
    (f.variantBytes sym keys cls "kernel2" "spad2" "slots2").bind fun v2 =>
    (f.variantBytes sym keys cls "kernel3" "spad3" "slots3").map fun v3 =>
      natLe 1 ses ++ natLe 1 cls ++ natLe 1 (tm + 2 * sh) ++ natLe 1 0 ++ natLe 2 g ++ natLe 2 pg ++ natLe 8 per ++ natLe 8 rd ++
      natLe 8 ph ++ natLe 32 0 ++ v0 ++ v1 ++ v2 ++ v3

/-- The bytes of items of `graph` or `data`, and the lines of errors. -/
def Source.dataBytes (f : Source) (l : List (Int × Item)) : List Byte × List Nat :=
  l.foldr (fun e acc =>
    match e.2 with
    | .vals line scope code vs =>
      let r := f.values scope code vs
      (r.1 ++ acc.1, if r.2 then acc.2 else line :: acc.2)
    | .session line scope keys =>
      match f.descriptor scope keys with
      | some b => (b ++ acc.1, acc.2)
      | none => (acc.1, line :: acc.2)
    | .pad n => (List.replicate (padTo n e.1) 0 ++ acc.1, acc.2)
    | _ => acc) ([], [])

/-! Checks (R264 to R266) -/

/-- A cube operation whose profile, resolved under R184, its form does not admit with its mode (R228, R324). -/
def cubeBad (prof : Nat) (i : Instr) : Bool :=
  match i with
  | .cmul o => !cubeForm 1 prof o.mode.toNat
  | .cmulc o => !cubeForm 2 prof o.mode.toNat
  | .cmulq o => !cubeForm 3 prof o.mode.toNat
  | .cmuli o => !cubeForm 4 prof o.mode.toNat
  | .cmula o => !cubeForm 5 prof o.mode.toNat
  | _ => false

/-- Lines of a bundle at which a decode check of R255 other than 8 and 9 fails, under a kernel header; `block` says whether it
stands in a replay block (R282), `stub` is none or, of a stub or re-entry sequence, whether it is a re-entry sequence and the
bundle its last. -/
def Placed.fails (b : Placed) (h : List Byte) (block : Bool) (stub : Option (Bool × Bool)) : List Nat :=
  let t : Task := { (default : Task) with hdr := h, rblock := if block then some default else none }
  let prof := if bits b.hdr 27 16 = 0 then natAt h 4 2 else bits b.hdr 27 16
  let lineOf (s : Nat) : Nat := ((b.at_.find? fun x => x.1 = s).map (·.2)).getD b.line
  let tree := b.words.any fun w => w.1 = 0 && (match decodeSlotWord 0 (BitVec.ofNat 32 w.2) with | .ok (_, .btree _) => true | _ => false)
  let closed := b.words.any fun w => w.1 = 0 && bits w.2 31 20 = 0x001
  (if headerCause t { (default : Bundle) with hdr := b.hdr } stub.isSome ≠ 0 then [b.line] else []) ++
  (if stub = some (true, true) && !closed then [b.line] else []) ++
  b.words.filterMap fun w =>
    match slotCheck t tree none 0 0 stub w.1 w.2 {} with
    | .inl _ => some (lineOf w.1)
    | .inr (o, _) => if cubeBad prof o.instr then some (lineOf w.1) else none

/-- Bundles that stand in a replay block: those that follow an LREP in the image (R281). `n` are left of a block. -/
def inBlocks : Nat → List Placed → List Bool
  | _, [] => []
  | n, b :: r =>
    let more := (b.words.find? fun w => w.1 = 0 && bits w.2 26 20 = 0x08).map fun w => bits w.2 4 0 + 1
    (decide (0 < n)) :: inBlocks (max (n - 1) (more.getD 0)) r

/-- The parts of sequences that a bundle plays. -/
def rolesOf (es : List PlacedStub) (a : Int) : List (Bool × Bool) :=
  es.flatMap fun e =>
    (if e.stub.any fun b => b.addr = a then [(false, false)] else []) ++
    (if e.entry.any fun b => b.addr = a then [(true, decide ((e.entry.getLast?.map (·.addr)) = some a))] else [])

/-- Keys that have no default (R263). -/
def KernelText.lacks (k : KernelText) : Bool :=
  (k.key "profile").isNone || (!k.dynamic && ["tlen", "hold", "pgap", "drain", "restore"].any fun n => (k.key n).isNone)

/-- A kernel's image from its header on (R262), and the lines of its errors (R264 to R266). -/
def Source.kernelImage (f : Source) (i : Nat) (k : KernelText) : List Byte × List Nat :=
  let sym := f.symbol (some i)
  let bs := placeAllBundles sym (k.textSpans ++ k.stubSpans)
  let h := k.headerBytes
  let code := bs.flatMap Placed.bytes
  let placed := k.entries.map fun t => (t.line, t.place k bs)
  let es := (placed.filterMap (·.2)).foldr insertLo []
  let covered (a : Int) : Bool := es.any fun e => decide ((e.e.lo : Int) ≤ a - k.base ∧ a - k.base ≤ e.e.hi)
  let graph := f.dataBytes k.graphSpans
  let fill (l : List Byte) (off : Nat) (next : List Byte) : List Byte :=
    if next.isEmpty then l else l ++ List.replicate (off - l.length) 0 ++ next
  let dst := es.flatMap fun e => entryBytes e.e
  let image := fill (fill (fill (h ++ code) k.bttOff k.btt) k.dstOff dst) k.tgOff graph.1
  let decodeErrs := (bs.zip (inBlocks 0 bs)).flatMap fun b =>
    match rolesOf es b.1.addr with
    | [] => b.1.fails h b.2 none ++ (if !k.dynamic && !covered b.1.addr then [b.1.line] else [])
    | roles => (roles.flatMap fun r => b.1.fails h b.2 (some r)) ++ (if covered b.1.addr then [b.1.line] else [])
  let pairs := (List.range es.length).filterMap fun j =>
    match es[j]?, es[j + 1]? with
    | some a, some b => if a.e.hi < b.e.lo then none else some b.line
    | _, _ => none
  (image,
    bs.flatMap (·.errs) ++ decodeErrs ++ graph.2 ++ pairs ++
    (placed.filterMap fun p => if p.2.isNone then some p.1 else none) ++
    (es.filterMap fun e => if decide (e.e.hi < e.e.lo) || (decide (e.e.lo < e.e.hi) && !e.e.quiet) then some e.line else none) ++
    (k.trees.filterMap fun t => if (t.bytes k).isNone then some t.line else none) ++
    (if k.lacks || !headerOk 0 h || graph.1.length % 32 ≠ 0 then [k.last] else []) ++
    (if decide (k.get "class" 3 < 2) && (k.dynamic || k.dies) then [k.classLine] else []))

end Sys2Proof.Darmas
end

