-- ==== Sys2Proof/Machine/Darmas.lean ====
section
/-! DEFINITION. darmas, the assembler (10 R257 to R266, R409; 11 R276): the lines of a source read one by one, and the images that a source without an error gives. What the rules leave open is in notes/assumptions/64.md. -/

namespace Sys2Proof.Darmas

open Sys2Proof.Machine

/-- What has been read of a source. -/
structure Asm where
  src : Source := {}
  /-- A kernel is open: the last of the source's. -/
  kernel : Bool := false
  sec : Option Section := none
  /-- Names defined, each with the kernel whose scope it is in. -/
  names : List (Option Nat × List Char) := []
  /-- Lines of `.yield` and `.stop`, line and number of `.profile`, that wait for the next bundle. -/
  yield : Option Nat := none
  stop : Option Nat := none
  prof : Option (Nat × Nat) := none
  /-- Where the last bundle stands: its kernel and section. -/
  lastAt : Option (Nat × Section) := none
  errs : List Nat := []
  deriving DecidableEq, Repr, Inhabited

/-- The source has an error in a line. -/
def Asm.error (a : Asm) (line : Nat) : Asm := { a with errs := a.errs ++ [line] }
/-- The state where a part has been read, or an error in the line. -/
def Asm.orError (a : Asm) (line : Nat) (b : Option Asm) : Asm := b.getD (a.error line)

/-- Number of the open kernel, and the kernel. -/
def Asm.scope (a : Asm) : Option Nat := if a.kernel then some (a.src.kernels.length - 1) else none
def Asm.cur (a : Asm) : Option KernelText := if a.kernel then a.src.kernels.getLast? else none
/-- The open kernel changed. -/
def Asm.setCur (a : Asm) (k : KernelText) : Asm := { a with src.kernels := a.src.kernels.dropLast ++ [k] }

/-- A name defined in a scope, once. -/
def Asm.define (a : Asm) (scope : Option Nat) (n : List Char) : Option Asm :=
  if a.names.contains (scope, n) then none else some { a with names := a.names ++ [(scope, n)] }

/-- The items of the current section, none while no section is open. -/
def Asm.items (a : Asm) : Option (List Item) :=
  match a.sec with
  | none => none
  | some .data => some a.src.data
  | some s => a.cur.map fun k => k.items s
/-- Items added to the current section. -/
def Asm.emit (a : Asm) (l : List Item) : Option Asm :=
  match a.sec with
  | none => none
  | some .data => some { a with src.data := a.src.data ++ l }
  | some s => a.cur.map fun k => a.setCur (k.setItems s (k.items s ++ l))

/-- A label defined where the current section stands: a label of a kernel's section is the kernel's (R409). -/
def Asm.label (a : Asm) (n : List Char) : Option Asm :=
  if !labelName n then none
  else
    (a.define (if a.sec = some .data then none else a.scope) n).bind fun a => a.emit [.label n]

/-- A value that the layout does not decide: integers and numbers of rings. -/
def Asm.value (a : Asm) (ts : List Tok) : Option Int := eval (a.src.ring a.scope) ts
def Asm.natural (a : Asm) (bound : Nat) (ts : List Tok) : Option Nat := (a.value ts).bind (natBelow bound)

/-! Bundles -/

/-- Whether a bundle folds into the last item of its section (R260). -/
def Asm.folds (a : Asm) (b : BundleText) : Option Item :=
  if b.ops.all OpText.zero && !b.yield && !b.stop && b.prof.isNone && a.lastAt.isSome &&
      a.lastAt = (a.scope.bind fun i => a.sec.map fun s => (i, s)) then
    match a.items.bind List.getLast? with
    | some (.bundle p) => if p.empty < 15 then some (.bundle { p with empty := p.empty + 1 }) else none
    | _ => none
  else none

/-- A bundle in the current code section: folded into the bundle before it, or added. -/
def Asm.bundle (a : Asm) (line : Nat) (ops : List OpText) : Option Asm :=
  let b : BundleText :=
    { line := line, ops := ops, yield := a.yield.isSome, stop := a.stop.isSome, prof := a.prof.map (·.2) }
  match a.sec, a.scope with
  | some s, some i =>
    if s = .text ∨ s = .stubs then
      let done (a : Asm) : Asm := { a with yield := none, stop := none, prof := none, lastAt := some (i, s) }
      match a.folds b with
      | some x => a.cur.map fun k => done (a.setCur (k.setItems s ((k.items s).dropLast ++ [x])))
      | none => (a.emit [.bundle b]).map done
    else none
  | _, _ => none

/-- A bundle line: its operations between `||`, no tag twice. -/
def Asm.bundleLine (a : Asm) (l : Line) : Asm :=
  let line := (l.head?.map (·.1)).getD 0
  let parts := splitOn (fun (x : Nat × Tok) => x.2 = .bar) l
  let ops := parts.map fun p => (((p.head?.map (·.1)).getD line), opOf ((p.head?.map (·.1)).getD line) (p.map (·.2)))
  let bad := ops.filterMap fun o => if o.2.isNone then some o.1 else none
  let good := ops.filterMap (·.2)
  let twice := (List.range good.length).filterMap fun j =>
    match good[j]? with
    | some o => if (good.take j).any fun p => p.slot = o.slot then some o.line else none
    | none => none
  let a := a.orError line (a.bundle line good)
  { a with errs := a.errs ++ bad ++ twice }

/-! Directives (R261) -/

/-- `.section`: the section, with an address only at the first opening of `text` before it holds anything, or of `data` (R409). -/
def Asm.openSection (a : Asm) (args : List (List Tok)) : Option Asm :=
  let addr : Option (Option Nat) := match args with
    | [_] => some none
    | [_, v] => (a.natural (2 ^ 64) v).map some
    | _ => none
  addr.bind fun addr =>
  match args.head? with
  | some [.word w] =>
    if w = "data".toList then
      match addr, a.src.dataAddr with
      | some _, some _ => none
      | x, none => some { a with sec := some .data, src.dataAddr := some (x.getD 0) }
      | none, some _ => some { a with sec := some .data }
    else
      a.cur.bind fun k =>
      if w = "text".toList then
        match addr with
        | none => some { a.setCur { k with opened := true } with sec := some .text }
        | some v =>
          if k.opened || v % 128 ≠ 0 then none else some { a.setCur { k with opened := true, addr := some v } with sec := some .text }
      else if addr.isSome then none
      else if w = "stubs".toList then some { a with sec := some .stubs }
      else if w = "graph".toList then some { a with sec := some .graph }
      else none
  | _ => none

/-- The keys under `occupancy`, and their bounds (R179, R263). -/
def occKeys : List (String × Nat) :=
  [("banks", 65536), ("wt", 65536), ("brt", 65536), ("ced", 65536), ("bar", 65536), ("fbe", 4097)]
/-- The keys with a number, and their bounds. -/
def numKeys : List (String × Nat) :=
  [("team", 9), ("profile", 4096), ("spad", 2049), ("tlen", 2 ^ 32), ("hold", 2 ^ 32), ("pgap", 2 ^ 32), ("drain", 65536), ("restore", 65536)]
/-- The keys with a name, and the names by their values. -/
def nameKeys : List (String × List String) :=
  [("mode", ["timetable", "dynamic"]), ("l1", ["private", "fused"]), ("class", ["fast", "slow", "system", "bulk"])]

/-- The pairs of key and value under `occupancy`. -/
def occPairs : List Tok → List (List Char × List Tok)
  | [] => []
  | t :: r =>
    let isKey (t : Tok) : Option (List Char) := match t with
      | .word w => if (named occKeys w).isSome then some w else none
      | _ => none
    match isKey t, occPairs r with
    | some w, ps => (w, r.takeWhile fun x => (isKey x).isNone) :: ps
    | none, ps => ps

/-- A key's value stored, once. -/
def Asm.setKey (a : Asm) (line : Nat) (w : List Char) (v : Nat) : Option Asm :=
  a.cur.bind fun k =>
    if k.keys.any fun e => e.1 = w then none
    else some (a.setCur { k with keys := k.keys ++ [(w, v)], classLine := if w = "class".toList then line else k.classLine })

/-- A number's key: in its bound, a team not 0, a profile that is published. -/
def Asm.numKey (a : Asm) (line : Nat) (keys : List (String × Nat)) (w : List Char) (ts : List Tok) : Option Asm :=
  (named keys w).bind fun bound => (a.natural bound ts).bind fun v =>
    if (w = "team".toList && v = 0) || (w = "profile".toList && !published v) then none else a.setKey line w v

/-- One pair of `.header` (R263). -/
def Asm.headerKey (a : Asm) (line : Nat) (ts : List Tok) : Option Asm :=
  match ts with
  | .word w :: v =>
    if w = "occupancy".toList then
      let first := match v with | .word x :: _ => (named occKeys x).isSome | _ => false
      if first then (occPairs v).foldl (fun acc p => acc.bind fun a => a.numKey line occKeys p.1 p.2) (some a) else none
    else
      match nameKeys.find? fun n => n.1.toList = w with
      | some n => match v with
        | [.word x] => (nameIn n.2 x).bind fun c => a.setKey line w c
        | _ => none
      | none => a.numKey line numKeys w v
  | _ => none

/-- `.loop level, kind, count` (R180, R261). -/
def Asm.loop (a : Asm) (args : List (List Tok)) : Option Asm :=
  a.cur.bind fun k =>
  match args with
  | lv :: [.word kind] :: count =>
    (a.natural 4 lv).bind fun l =>
    if k.loops.any fun x => x.1 = l then none
    else
      let entry : Option (Nat × Nat) := match nameIn ["temporal", "cores", "dies", "unused"] kind, count with
        | some 0, [c] => (a.natural (2 ^ 32) c).bind fun n => if n = 0 then none else some (0, n)
        | some 2, [c] => (a.natural 5 c).bind fun n => if n < 2 then none else some (2, n)
        | some 1, [] => some (1, 0)
        | some 3, [] => some (3, 0)
        | _, _ => none
      entry.map fun e => a.setCur { k with loops := k.loops ++ [(l, e.1, e.2)] }
  | _ => none

/-- The parts between the parentheses of an operand. -/
def inner (ts : List Tok) : Option (List (List Tok)) :=
  match ts with
  | .sym '(' :: r => if r.getLast? = some (.sym ')') then some (operands r.dropLast) else none
  | _ => none

/-- A test `pN` or `!pN`. -/
def testOf (ts : List Tok) : Option (Bool × Nat) :=
  match ts with
  | [.word w] => match regOf w with | some (.p n) => some (false, n) | _ => none
  | [.sym '!', .word w] => match regOf w with | some (.p n) => some (true, n) | _ => none
  | _ => none

/-- A list of parts each read, none where one is not. -/
def allOf {α β : Type} (f : α → Option β) : List α → Option (List β)
  | [] => some []
  | x :: r => (f x).bind fun y => (allOf f r).map (y :: ·)

/-- `.tree n, (tests), (targets)` (R276). -/
def Asm.tree (a : Asm) (line : Nat) (args : List (List Tok)) : Option Asm :=
  a.cur.bind fun k =>
  match args with
  | [n, tests, targets] =>
    (a.natural 256 n).bind fun n => (inner tests).bind fun ts => (allOf testOf ts).bind fun ts => (inner targets).bind fun gs =>
    (allOf (fun g => match g with | [.word w] => some (if w = "next".toList then none else some w) | _ => none) gs).bind fun gs =>
      if decide (4 < ts.length) || gs.length ≠ ts.length + 1 || (k.trees.any fun t => t.n = n) then none
      else some (a.setCur { k with trees := k.trees ++ [⟨line, n, ts, gs⟩] })
  | _ => none

/-- `.stub lo, hi, stub, entry, flags` (R264). -/
def Asm.stub (a : Asm) (line : Nat) (args : List (List Tok)) : Option Asm :=
  a.cur.bind fun k =>
  match args with
  | [[.word lo], [.word hi], s, e, fl] =>
    (joined fl).bind fun fs =>
      let has (n : String) : Bool := fs.contains n.toList
      if fs = ["none".toList] || (decide fs.Nodup && fs.all fun w => (nameIn ["point", "quiet"] w).isSome) then
        some (a.setCur { k with entries := k.entries ++ [⟨line, lo, hi, s, e, has "point", has "quiet"⟩] })
      else none
  | _ => none

/-- `.ring name, rgN, slot bytes, slot count`. -/
def Asm.ring (a : Asm) (args : List (List Tok)) : Option Asm :=
  match args with
  | [[.word n], [.word r], b, c] =>
    match regOf r, labelName n with
    | some (.rg i), true =>
      (a.value b).bind fun b => (a.value c).bind fun c =>
      let defs := [(n, (i : Int)), (n ++ ".slot".toList, b), (n ++ ".count".toList, c)]
      defs.foldl (fun acc d => acc.bind fun a => (a.define a.scope d.1).map fun a =>
        { a with src.rings := a.src.rings ++ [(a.scope, d.1, d.2)] }) (some a)
    | _, _ => none
  | _ => none

/-- Code of a suffix of `.data`, 15 for `.i4`. -/
def suffixOf (w : List Char) : Option Nat :=
  match w.map Char.toUpper with
  | '.' :: x => if x = "I4".toList then some 15 else typeCode x
  | _ => none

/-- `.data suffix, values`, in `graph` or `data`: code sections hold bundles only (R262). -/
def Asm.dataLine (a : Asm) (line : Nat) (ts : List Tok) : Option Asm :=
  match ts with
  | .word w :: r =>
    let vs := operands (match r with | .sym ',' :: q => q | _ => r)
    (suffixOf w).bind fun c =>
      if vs.isEmpty || !(a.sec = some .graph || a.sec = some .data) then none else a.emit [.vals line a.scope c vs]
  | _ => none

/-- `.align n`: a power of two, in a code section at least 4. -/
def Asm.align (a : Asm) (ts : List Tok) : Option Asm :=
  (a.natural (2 ^ 64) ts).bind fun n =>
    if n = 0 || n ≠ 2 ^ n.log2 || ((a.sec = some .text || a.sec = some .stubs) && decide (n < 4)) then none else a.emit [.pad n]

/-- `.endk`: what waits for a bundle finds none. -/
def Asm.endKernel (a : Asm) (line : Nat) : Option Asm :=
  a.cur.map fun k =>
    let a := a.setCur { k with last := line }
    let left := a.yield.toList ++ a.stop.toList ++ (a.prof.map (·.1)).toList
    { a with kernel := false, sec := none, yield := none, stop := none, prof := none, errs := a.errs ++ left }

/-- A directive with its tokens; `labels` are the labels of its line. -/
def Asm.directive (a : Asm) (line : Nat) (labels : List (List Char)) (d : String) (ts : List Tok) : Asm :=
  let args := operands ts
  let here (a : Asm) : Asm := labels.foldl (fun a n => a.orError line (a.label n)) a
  let put (b : Asm → Option Asm) : Asm := let a := here a; a.orError line (b a)
  match d with
  | "kernel" => put fun a =>
    match args with
    | [[.word n]] =>
      if a.kernel || !labelName n then none
      else (a.define none n).map fun a =>
        { a with src.kernels := a.src.kernels ++ [{ name := n, line := line }], kernel := true, sec := none }
    | _ => none
  | "endk" => put fun a => if ts.isEmpty then a.endKernel line else none
  | "header" => put fun a =>
    if args.isEmpty then none else args.foldl (fun acc g => acc.bind fun a => a.headerKey line g) (some a)
  | "loop" => put fun a => a.loop args
  | "tree" => put fun a => a.tree line args
  | "stub" => put fun a => a.stub line args
  | "ring" => put fun a => a.ring args
  | "data" => put fun a => a.dataLine line ts
  | "align" => put fun a => match args with | [n] => a.align n | _ => none
  | "section" => put fun a => a.openSection args
  | "session" =>
    match args, a.sec with
    | [.word n] :: keys, some .data =>
      if identifier n then
        match a.emit [.pad 256] with
        | some a => let a := here a; a.orError line (a.emit [.session line a.scope keys])
        | none => a.error line
      else a.error line
    | _, _ => a.error line
  | "yield" => put fun a => if ts.isEmpty then some { a with yield := some line } else none
  | "stop" => put fun a => if ts.isEmpty then some { a with stop := some line } else none
  | "profile" => put fun a => if a.prof.isSome then none else (a.natural 4096 ts).map fun n => { a with prof := some (line, n) }
  | _ => a.error line

/-- The labels at the head of a line, and the rest (R258). -/
def takeLabels : Line → List (List Char) × Line
  | (n, .word w) :: (m, .sym ':') :: r =>
    if (nameIn slotTags w).isSome then ([], (n, .word w) :: (m, .sym ':') :: r)
    else let x := takeLabels r; (w :: x.1, x.2)
  | l => ([], l)

/-- One logical line. -/
def Asm.line (a : Asm) (l : Line) : Asm :=
  let n := (l.head?.map (·.1)).getD 0
  let (ls, rest) := takeLabels l
  match rest with
  | (_, .word ('.' :: d)) :: r => a.directive n ls (String.ofList d) (r.map (·.2))
  | _ =>
    let a := ls.foldl (fun a w => a.orError n (a.label w)) a
    if rest.isEmpty then a else a.bundleLine rest

/-- An image: its address, an offset where a kernel's `text` has none (R409), and its bytes. -/
structure Image where
  addr : Int
  bytes : List Byte
  deriving DecidableEq, Repr, Inhabited

/-- What darmas answers: the images, or the lines of the errors it finds and no image (R266). -/
inductive Answer where
  | images (l : List Image)
  | errors (lines : List Nat)
  deriving DecidableEq, Repr, Inhabited

/-- The source read to its end; a kernel still open, or a directive still waiting for a bundle, is an error there. -/
def readAll (src : List Char) : Asm :=
  let a := (linesOf src).foldl Asm.line {}
  let left := a.yield.toList ++ a.stop.toList ++ (a.prof.map (·.1)).toList ++ (a.cur.map (·.line)).toList
  { a with errs := a.errs ++ left }

/-- Numbers in ascending order, each once. -/
def insertLine (n : Nat) : List Nat → List Nat
  | [] => [n]
  | m :: r => if n < m then n :: m :: r else if n = m then m :: r else m :: insertLine n r

/-- darmas: the images of a source's kernels and of its data section, each by itself (R409), or the lines of its errors. -/
def assemble (src : List Char) : Answer :=
  let a := readAll src
  let f := a.src
  let ks := f.kernels.mapIdx fun i k => (k.header, f.kernelImage i k)
  let base : Int := (f.dataAddr.getD 0 : Nat)
  let data := f.dataBytes (spans base f.data)
  let errs := (a.errs ++ ks.flatMap (·.2.2) ++ data.2).foldr insertLine []
  if errs.isEmpty then
    .images ((ks.map fun k => ⟨k.1, k.2.1⟩) ++ (if f.dataAddr.isSome then [⟨base, data.1⟩] else []))
  else .errors errs

end Sys2Proof.Darmas
end

