-- ==== Sys2Proof/Laws/Darmas.lean ====
section
/-! SUPPORT. What darmas answers (10 R266): images only for a source whose reading, kernels and data have no error. -/

namespace Sys2Proof.Darmas

open Sys2Proof.Machine

theorem insertLine_ne_nil (n : Nat) (l : List Nat) : insertLine n l ≠ [] := by
  cases l with
  | nil => simp [insertLine]
  | cons m r => simp only [insertLine]; split <;> (try split) <;> simp

theorem foldr_insertLine_eq_nil {l : List Nat} : l.foldr insertLine [] = [] ↔ l = [] := by
  cases l with
  | nil => simp
  | cons n r => simp [insertLine_ne_nil]

/-- A part of parts that together hold nothing holds nothing. -/
theorem part_of_mapIdx_nil {α β γ : Type} {f : Nat → α → β} {g : β → List γ} {l : List α} {i : Nat} {x : α}
    (h : (l.mapIdx f).flatMap g = []) (hx : l[i]? = some x) : g (f i x) = [] := by
  obtain ⟨hi, rfl⟩ := List.getElem?_eq_some_iff.1 hx
  exact List.flatMap_eq_nil_iff.1 h _ (List.mem_mapIdx.2 ⟨i, hi, rfl⟩)

/-- No image for a source with an error (R266). -/
theorem assemble_images {src : List Char} {l : List Image} (h : assemble src = .images l) :
    (readAll src).errs = [] ∧
      ∀ (i : Nat) (k : KernelText), (readAll src).src.kernels[i]? = some k → ((readAll src).src.kernelImage i k).2 = [] := by
  simp only [assemble] at h
  split at h
  · next hn =>
    simp only [List.isEmpty_iff, foldr_insertLine_eq_nil, List.append_eq_nil_iff] at hn
    refine ⟨hn.1.1, fun i k hk => ?_⟩
    exact part_of_mapIdx_nil (f := fun i k => (k.header, (readAll src).src.kernelImage i k)) (g := (·.2.2)) hn.1.2 hk
  · cases h

end Sys2Proof.Darmas
end

