-- ==== Sys2Proof/Laws/Issue.lean ====
section
/-! SUPPORT. What issuing a slot operation can do: it always answers a next state, that of the effect when its checks find nothing. -/

namespace Sys2Proof.Machine

@[simp] theorem State.finding_pass (s : State) : s.finding .pass = (0, 0) := rfl
@[simp] theorem State.missing_pass (s : State) : s.missing .pass = [] := rfl

/-- A well-formed operation without checks has its effect. -/
theorem State.issue_pass (s : State) (i : Instr) (f : State → State) (h : i.wf = true) : s.issue i .pass f = .next (f s) := by
  have e : ({ s with wants := s.wants ++ [] } : State) = s := by simp
  unfold State.issue
  simp [h]

/-- A well-formed operation whose checks find nothing has its effect. -/
theorem State.issue_next (s : State) (i : Instr) (c : Check) (f : State → State) (h : i.wf = true)
    (hc : (s.finding c).1 = 0) (hp : s.env.probe = false) : s.issue i c f = .next (f s) := by
  unfold State.issue
  simp [h, hc, hp]

/-- A well-formed operation whose checks find a fault takes it. -/
theorem State.issue_fault (s : State) (i : Instr) (c : Check) (f : State → State) (h : i.wf = true)
    (hc : (s.finding c).1 ≠ 0) (hp : s.env.probe = false) :
    s.issue i c f = .next (s.faultHere (s.finding c).1 (s.finding c).2) := by
  unfold State.issue
  simp [h, hc, hp]

/-- An operation with a reserved field value is decode-fault 0x04 (R194, R255). -/
theorem State.issue_illFormed (s : State) (i : Instr) (c : Check) (f : State → State) (h : i.wf = false) :
    s.issue i c f = .next (s.faultHere 0x04 0) := by
  unfold State.issue
  simp [h]

/-- An issue always answers a next state. -/
theorem State.issue_some (s : State) (i : Instr) (c : Check) (f : State → State) : ∃ t, s.issue i c f = .next t := by
  unfold State.issue
  simp only
  split
  · exact ⟨_, rfl⟩
  · split <;> exact ⟨_, rfl⟩

/-- A check without a cause and without accesses finds nothing. -/
theorem State.finding_when (s : State) (c : Bool) (n a : Nat) (h : c = false) : s.finding (.when c n a) = (0, 0) := by
  subst h; rfl

/-! The shared forms of the slots: a well-formed operation whose checks find nothing answers the state of its effect -/

theorem State.control_next (s : State) (i : Instr) (f : State → State) (h : i.wf = true) :
    s.control i .pass f = .next (f (s.issued1 0)) := s.issue_pass i _ h

theorem State.control_checked (s : State) (i : Instr) (c : Check) (f : State → State) (h : i.wf = true)
    (hc : (s.finding c).1 = 0) (hp : s.env.probe = false) : s.control i c f = .next (f (s.issued1 0)) :=
  s.issue_next i c _ h hc hp

theorem State.scalar2_next (s : State) (i : Instr) (o : S3) (off : Nat) (f : Word → Word → Word) (h : i.wf = true) :
    s.scalar2 i o off f = .next ((s.issued1 1).writeSbs off o.d (f (s.sv o.a) (s.bS3 o))) := s.issue_pass i _ h

theorem State.scalarDiv_next (s : State) (i : Instr) (o : S3) (f : Word → Word → Word) (g : Word → Word → Nat)
    (h : i.wf = true) :
    s.scalarDiv i o f g = .next
      (((s.issued1 1).writeSbs 18 o.d (f (s.sv o.a) (s.bS3 o))).writeFlags 18 (g (s.sv o.a) (s.bS3 o))) := s.issue_pass i _ h

theorem State.scalar1_next (s : State) (i : Instr) (d : BitVec 6) (v : Word) (h : i.wf = true) :
    s.scalar1 i d v = .next ((s.issued1 1).writeSbs 1 d v) := s.issue_pass i _ h

theorem State.address_next (s : State) (i : Instr) (d : BitVec 6) (v : Word) (h : i.wf = true) :
    s.address i d v = .next ((s.issued1 2).writeS 1 d v) := s.issue_pass i _ h

theorem State.address1_next (s : State) (i : Instr) (w : Write) (h : i.wf = true) :
    s.address1 i .pass w = .next ((s.issued1 2).after 1 w) := s.issue_pass i _ h

theorem State.vector_next (s : State) (i : Instr) (u : VUnit) (d : BitVec 5) (off cls : Nat) (r : State → Vec × Nat)
    (h : i.wf = true) :
    s.vector i u d off cls r = .next
      ((((s.issued1 cls).count s.env.core s.env.ctx 0x09 1).writeV (unitNum u) off d.toNat (r s).1).writeFlags off (r s).2) :=
  s.issue_pass i _ h

theorem State.globalOp_next (s : State) (i : Instr) (c : Check) (f : State → State) (h : i.wf = true)
    (hc : (s.finding c).1 = 0) (hp : s.env.probe = false) : s.globalOp i c f = .next (f (s.issued1 11)) :=
  s.issue_next i c _ h hc hp

theorem State.padAccess_next (s : State) (i : Instr) (c : Check) (offs : List Nat) (f : State → List Nat → State)
    (h : i.wf = true) (hc : (s.finding c).1 = 0) (hp : s.env.probe = false) :
    s.padAccess i c offs f = .next
      (f (((s.issued1 10).count s.env.core s.env.ctx 0x0A 1).takePort offs).2
        (((s.issued1 10).count s.env.core s.env.ctx 0x0A 1).takePort offs).1) := s.issue_next i c _ h hc hp

/-! Writes that land later -/

/-- A write joins the landings of the operation's bank. -/
theorem State.mine_after (s : State) (off : Nat) (w : Write) :
    (s.after off w).mine = { s.mine with pend := s.mine.pend ++ [⟨s.env.cyc + off, s.env.cyc * 8 + s.env.slot, w⟩] } :=
  State.bank_modBank_same _ _ _

/-- Other banks are not changed. -/
theorem State.bank_after (s : State) (off : Nat) (w : Write) (n : Nat) (h : n ≠ s.b) : (s.after off w).bank n = s.bank n := by
  simp [State.after, State.bank_modBank, h]

@[simp] theorem State.after_b (s : State) (off : Nat) (w : Write) : (s.after off w).b = s.b := rfl

/-- A write of the operation that was issued: where it waits, and what it is. -/
def State.writes (s : State) (l : List (Nat × Write)) : List Landing :=
  l.map fun p => ⟨s.env.cyc + p.1, s.env.cyc * 8 + s.env.slot, p.2⟩

end Sys2Proof.Machine
end

