-- ==== Sys2Proof/Laws/Layouts.lean ====
section
/-! SUPPORT. The operand layouts (R253): reading the bits that a layout writes gives the operands back. -/

namespace Sys2Proof

set_option linter.unusedSimpArgs false
set_option linter.unusedTactic false
set_option linter.unreachableTactic false
set_option linter.unnecessarySeqFocus false

/-- A fact about each of twenty bits. -/
theorem bits20 {P : Nat → Prop} (h0 : P 0) (h1 : P 1) (h2 : P 2) (h3 : P 3) (h4 : P 4) (h5 : P 5) (h6 : P 6) (h7 : P 7)
    (h8 : P 8) (h9 : P 9) (h10 : P 10) (h11 : P 11) (h12 : P 12) (h13 : P 13) (h14 : P 14) (h15 : P 15) (h16 : P 16)
    (h17 : P 17) (h18 : P 18) (h19 : P 19) : ∀ i, i < 20 → P i := by
  intro i hi
  have : i = 0 ∨ i = 1 ∨ i = 2 ∨ i = 3 ∨ i = 4 ∨ i = 5 ∨ i = 6 ∨ i = 7 ∨ i = 8 ∨ i = 9 ∨ i = 10 ∨ i = 11 ∨ i = 12 ∨
    i = 13 ∨ i = 14 ∨ i = 15 ∨ i = 16 ∨ i = 17 ∨ i = 18 ∨ i = 19 := by omega
  rcases this with h | h | h | h | h | h | h | h | h | h | h | h | h | h | h | h | h | h | h | h <;> (subst h; assumption)

theorem CJ.ofBits_toBits (o : CJ) : CJ.ofBits o.toBits = o := by
  obtain ⟨ofs⟩ := o
  simp only [CJ.ofBits, CJ.toBits, CJ.mk.injEq]
  apply BitVec.eq_of_getLsbD_eq; intro i hi; simp [hi] <;> grind
theorem CJ.read_toBits (c : CJ → Instr) (o : CJ) : CJ.read c o.toBits = .ok (c o) := by
  simp [CJ.read, CJ.ofBits_toBits]

theorem CL.ofBits_toBits (o : CL) : CL.ofBits o.toBits = o := by
  obtain ⟨lvl, ofs⟩ := o
  simp only [CL.ofBits, CL.toBits, CL.mk.injEq]
  refine ⟨?_, ?_⟩ <;> (apply BitVec.eq_of_getLsbD_eq; intro i hi; simp [hi] <;> grind)
theorem CL.read_toBits (c : CL → Instr) (o : CL) : CL.read c o.toBits = .ok (c o) := by
  simp [CL.read, CL.ofBits_toBits]

theorem CR.ofBits_toBits (o : CR) : CR.ofBits o.toBits = o := by
  obtain ⟨a⟩ := o
  simp only [CR.ofBits, CR.toBits, CR.mk.injEq]
  apply BitVec.eq_of_getLsbD_eq; intro i hi; simp [hi] <;> grind
theorem CR.read_toBits (c : CR → Instr) (o : CR) : CR.read c o.toBits = .ok (c o) := by
  have z : o.toBits &&& 0x3fff#20 = 0#20 := by
    apply BitVec.eq_of_getLsbD_eq; apply bits20 <;> (
      simp only [CR.toBits, BitVec.getLsbD_and]
      rw [BitVec.getLsbD_append]
      first | (simp; done) | (simp [BitVec.getElem_append]; done) | (simp; rw [BitVec.getElem_append]; simp; done) | (simp; repeat (rw [BitVec.getElem_append]; simp)))
  simp [CR.read, z, CR.ofBits_toBits]

theorem CT.ofBits_toBits (o : CT) : CT.ofBits o.toBits = o := by
  obtain ⟨n⟩ := o
  simp only [CT.ofBits, CT.toBits, CT.mk.injEq]
  apply BitVec.eq_of_getLsbD_eq; intro i hi; simp [hi] <;> grind
theorem CT.read_toBits (c : CT → Instr) (o : CT) : CT.read c o.toBits = .ok (c o) := by
  have z : o.toBits &&& 0xfff00#20 = 0#20 := by
    apply BitVec.eq_of_getLsbD_eq; apply bits20 <;> (
      simp only [CT.toBits, BitVec.getLsbD_and]
      rw [BitVec.getLsbD_append]
      first | (simp; done) | (simp [BitVec.getElem_append]; done) | (simp; rw [BitVec.getElem_append]; simp; done) | (simp; repeat (rw [BitVec.getElem_append]; simp)))
  simp [CT.read, z, CT.ofBits_toBits]

theorem CW.ofBits_toBits (o : CW) : CW.ofBits o.toBits = o := by
  obtain ⟨a, b, scope⟩ := o
  simp only [CW.ofBits, CW.toBits, CW.mk.injEq]
  refine ⟨?_, ?_, ?_⟩ <;> (apply BitVec.eq_of_getLsbD_eq; intro i hi; simp [hi] <;> grind)
theorem CW.read_toBits (c : CW → Instr) (o : CW) : CW.read c o.toBits = .ok (c o) := by
  have z : o.toBits &&& 0xf8#20 = 0#20 := by
    apply BitVec.eq_of_getLsbD_eq; apply bits20 <;> (
      simp only [CW.toBits, BitVec.getLsbD_and]
      rw [BitVec.getLsbD_append]
      first | (simp; done) | (simp [BitVec.getElem_append]; done) | (simp; rw [BitVec.getElem_append]; simp; done) | (simp; repeat (rw [BitVec.getElem_append]; simp)))
  simp [CW.read, z, CW.ofBits_toBits]

theorem CF.ofBits_toBits (o : CF) : CF.ofBits o.toBits = o := by
  obtain ⟨a, fmask⟩ := o
  simp only [CF.ofBits, CF.toBits, CF.mk.injEq]
  refine ⟨?_, ?_⟩ <;> (apply BitVec.eq_of_getLsbD_eq; intro i hi; simp [hi] <;> grind)
theorem CF.read_toBits (c : CF → Instr) (o : CF) : CF.read c o.toBits = .ok (c o) := by
  have z : o.toBits &&& 0x3800#20 = 0#20 := by
    apply BitVec.eq_of_getLsbD_eq; apply bits20 <;> (
      simp only [CF.toBits, BitVec.getLsbD_and]
      rw [BitVec.getLsbD_append]
      first | (simp; done) | (simp [BitVec.getElem_append]; done) | (simp; rw [BitVec.getElem_append]; simp; done) | (simp; repeat (rw [BitVec.getElem_append]; simp)))
  simp [CF.read, z, CF.ofBits_toBits]

theorem S3.ofBits_toBits (o : S3) : S3.ofBits o.toBits = o := by
  obtain ⟨d, a, b, ba⟩ := o
  simp only [S3.ofBits, S3.toBits, S3.mk.injEq]
  refine ⟨?_, ?_, ?_, ?_⟩ <;> (apply BitVec.eq_of_getLsbD_eq; intro i hi; simp [hi] <;> grind)
theorem S3.read_toBits (c : S3 → Instr) (o : S3) : S3.read c o.toBits = .ok (c o) := by
  have z : o.toBits &&& 0x1#20 = 0#20 := by
    apply BitVec.eq_of_getLsbD_eq; apply bits20 <;> (
      simp only [S3.toBits, BitVec.getLsbD_and]
      rw [BitVec.getLsbD_append]
      first | (simp; done) | (simp [BitVec.getElem_append]; done) | (simp; rw [BitVec.getElem_append]; simp; done) | (simp; repeat (rw [BitVec.getElem_append]; simp)))
  simp [S3.read, z, S3.ofBits_toBits]

theorem SI.ofBits_toBits (o : SI) : SI.ofBits o.toBits = o := by
  obtain ⟨d, a, imm⟩ := o
  simp only [SI.ofBits, SI.toBits, SI.mk.injEq]
  refine ⟨?_, ?_, ?_⟩ <;> (apply BitVec.eq_of_getLsbD_eq; intro i hi; simp [hi] <;> grind)
theorem SI.read_toBits (c : SI → Instr) (o : SI) : SI.read c o.toBits = .ok (c o) := by
  simp [SI.read, SI.ofBits_toBits]

theorem SM.ofBits_toBits (o : SM) : SM.ofBits o.toBits = o := by
  obtain ⟨d, imm⟩ := o
  simp only [SM.ofBits, SM.toBits, SM.mk.injEq]
  refine ⟨?_, ?_⟩ <;> (apply BitVec.eq_of_getLsbD_eq; intro i hi; simp [hi] <;> grind)
theorem SM.read_toBits (c : SM → Instr) (o : SM) : SM.read c o.toBits = .ok (c o) := by
  simp [SM.read, SM.ofBits_toBits]

theorem SP.ofBits_toBits (o : SP) : SP.ofBits o.toBits = o := by
  obtain ⟨pd, a, b, ba⟩ := o
  simp only [SP.ofBits, SP.toBits, SP.mk.injEq]
  refine ⟨?_, ?_, ?_, ?_⟩ <;> (apply BitVec.eq_of_getLsbD_eq; intro i hi; simp [hi] <;> grind)
theorem SP.read_toBits (c : SP → Instr) (o : SP) : SP.read c o.toBits = .ok (c o) := by
  have z : o.toBits &&& 0x7#20 = 0#20 := by
    apply BitVec.eq_of_getLsbD_eq; apply bits20 <;> (
      simp only [SP.toBits, BitVec.getLsbD_and]
      rw [BitVec.getLsbD_append]
      first | (simp; done) | (simp [BitVec.getElem_append]; done) | (simp; rw [BitVec.getElem_append]; simp; done) | (simp; repeat (rw [BitVec.getElem_append]; simp)))
  simp [SP.read, z, SP.ofBits_toBits]

theorem SS.ofBits_toBits (o : SS) : SS.ofBits o.toBits = o := by
  obtain ⟨d, a, p⟩ := o
  simp only [SS.ofBits, SS.toBits, SS.mk.injEq]
  refine ⟨?_, ?_, ?_⟩ <;> (apply BitVec.eq_of_getLsbD_eq; intro i hi; simp [hi] <;> grind)
theorem SS.read_toBits (c : SS → Instr) (o : SS) : SS.read c o.toBits = .ok (c o) := by
  have z : o.toBits &&& 0xf#20 = 0#20 := by
    apply BitVec.eq_of_getLsbD_eq; apply bits20 <;> (
      simp only [SS.toBits, BitVec.getLsbD_and]
      rw [BitVec.getLsbD_append]
      first | (simp; done) | (simp [BitVec.getElem_append]; done) | (simp; rw [BitVec.getElem_append]; simp; done) | (simp; repeat (rw [BitVec.getElem_append]; simp)))
  simp [SS.read, z, SS.ofBits_toBits]

theorem SQ.ofBits_toBits (o : SQ) : SQ.ofBits o.toBits = o := by
  obtain ⟨pd, pa, pb, fn⟩ := o
  simp only [SQ.ofBits, SQ.toBits, SQ.mk.injEq]
  refine ⟨?_, ?_, ?_, ?_⟩ <;> (apply BitVec.eq_of_getLsbD_eq; intro i hi; simp [hi] <;> grind)
theorem SQ.read_toBits (c : SQ → Instr) (o : SQ) : SQ.read c o.toBits = .ok (c o) := by
  have z : o.toBits &&& 0xf#20 = 0#20 := by
    apply BitVec.eq_of_getLsbD_eq; apply bits20 <;> (
      simp only [SQ.toBits, BitVec.getLsbD_and]
      rw [BitVec.getLsbD_append]
      first | (simp; done) | (simp [BitVec.getElem_append]; done) | (simp; rw [BitVec.getElem_append]; simp; done) | (simp; repeat (rw [BitVec.getElem_append]; simp)))
  simp [SQ.read, z, SQ.ofBits_toBits]

theorem SX.ofBits_toBits (o : SX) : SX.ofBits o.toBits = o := by
  obtain ⟨d, a, ty⟩ := o
  simp only [SX.ofBits, SX.toBits, SX.mk.injEq]
  refine ⟨?_, ?_, ?_⟩ <;> (apply BitVec.eq_of_getLsbD_eq; intro i hi; simp [hi] <;> grind)
theorem SX.read_toBits (c : SX → Instr) (o : SX) : SX.read c o.toBits = .ok (c o) := by
  have z : o.toBits &&& 0xf#20 = 0#20 := by
    apply BitVec.eq_of_getLsbD_eq; apply bits20 <;> (
      simp only [SX.toBits, BitVec.getLsbD_and]
      rw [BitVec.getLsbD_append]
      first | (simp; done) | (simp [BitVec.getElem_append]; done) | (simp; rw [BitVec.getElem_append]; simp; done) | (simp; repeat (rw [BitVec.getElem_append]; simp)))
  simp [SX.read, z, SX.ofBits_toBits]

theorem SV.ofBits_toBits (o : SV) : SV.ofBits o.toBits = o := by
  obtain ⟨d, sel⟩ := o
  simp only [SV.ofBits, SV.toBits, SV.mk.injEq]
  refine ⟨?_, ?_⟩ <;> (apply BitVec.eq_of_getLsbD_eq; intro i hi; simp [hi] <;> grind)
theorem SV.read_toBits (c : SV → Instr) (o : SV) : SV.read c o.toBits = .ok (c o) := by
  have z : o.toBits &&& 0x3f00#20 = 0#20 := by
    apply BitVec.eq_of_getLsbD_eq; apply bits20 <;> (
      simp only [SV.toBits, BitVec.getLsbD_and]
      rw [BitVec.getLsbD_append]
      first | (simp; done) | (simp [BitVec.getElem_append]; done) | (simp; rw [BitVec.getElem_append]; simp; done) | (simp; repeat (rw [BitVec.getElem_append]; simp)))
  simp [SV.read, z, SV.ofBits_toBits]

theorem AL.ofBits_toBits (o : AL) : AL.ofBits o.toBits = o := by
  obtain ⟨lvl, a⟩ := o
  simp only [AL.ofBits, AL.toBits, AL.mk.injEq]
  refine ⟨?_, ?_⟩ <;> (apply BitVec.eq_of_getLsbD_eq; intro i hi; simp [hi] <;> grind)
theorem AL.read_toBits (c : AL → Instr) (o : AL) : AL.read c o.toBits = .ok (c o) := by
  have z : o.toBits &&& 0xfff#20 = 0#20 := by
    apply BitVec.eq_of_getLsbD_eq; apply bits20 <;> (
      simp only [AL.toBits, BitVec.getLsbD_and]
      rw [BitVec.getLsbD_append]
      first | (simp; done) | (simp [BitVec.getElem_append]; done) | (simp; rw [BitVec.getElem_append]; simp; done) | (simp; repeat (rw [BitVec.getElem_append]; simp)))
  simp [AL.read, z, AL.ofBits_toBits]

theorem AK.ofBits_toBits (o : AK) : AK.ofBits o.toBits = o := by
  obtain ⟨k, a, imm⟩ := o
  simp only [AK.ofBits, AK.toBits, AK.mk.injEq]
  refine ⟨?_, ?_, ?_⟩ <;> (apply BitVec.eq_of_getLsbD_eq; intro i hi; simp [hi] <;> grind)
theorem AK.read_toBits (c : AK → Instr) (o : AK) : AK.read c o.toBits = .ok (c o) := by
  simp [AK.read, AK.ofBits_toBits]

theorem AH.ofBits_toBits (o : AH) : AH.ofBits o.toBits = o := by
  obtain ⟨eng, h, field, a⟩ := o
  simp only [AH.ofBits, AH.toBits, AH.mk.injEq]
  refine ⟨?_, ?_, ?_, ?_⟩ <;> (apply BitVec.eq_of_getLsbD_eq; intro i hi; simp [hi] <;> grind)
theorem AH.read_toBits (c : AH → Instr) (o : AH) : AH.read c o.toBits = .ok (c o) := by
  have z : o.toBits &&& 0x3f#20 = 0#20 := by
    apply BitVec.eq_of_getLsbD_eq; apply bits20 <;> (
      simp only [AH.toBits, BitVec.getLsbD_and]
      rw [BitVec.getLsbD_append]
      first | (simp; done) | (simp [BitVec.getElem_append]; done) | (simp; rw [BitVec.getElem_append]; simp; done) | (simp; repeat (rw [BitVec.getElem_append]; simp)))
  simp [AH.read, z, AH.ofBits_toBits]

theorem AN.ofBits_toBits (o : AN) : AN.ofBits o.toBits = o := by
  obtain ⟨n⟩ := o
  simp only [AN.ofBits, AN.toBits, AN.mk.injEq]
  apply BitVec.eq_of_getLsbD_eq; intro i hi; simp [hi] <;> grind
theorem AN.read_toBits (c : AN → Instr) (o : AN) : AN.read c o.toBits = .ok (c o) := by
  have z : o.toBits &&& 0xfff00#20 = 0#20 := by
    apply BitVec.eq_of_getLsbD_eq; apply bits20 <;> (
      simp only [AN.toBits, BitVec.getLsbD_and]
      rw [BitVec.getLsbD_append]
      first | (simp; done) | (simp [BitVec.getElem_append]; done) | (simp; rw [BitVec.getElem_append]; simp; done) | (simp; repeat (rw [BitVec.getElem_append]; simp)))
  simp [AN.read, z, AN.ofBits_toBits]

theorem V3.ofBits_toBits (o : V3) : V3.ofBits o.toBits = o := by
  obtain ⟨d, a, b, ty, byp⟩ := o
  simp only [V3.ofBits, V3.toBits, V3.mk.injEq]
  refine ⟨?_, ?_, ?_, ?_, ?_⟩ <;> (apply BitVec.eq_of_getLsbD_eq; intro i hi; simp [hi] <;> grind)
theorem V3.read_toBits (c : V3 → Instr) (o : V3) : V3.read c o.toBits = .ok (c o) := by
  simp [V3.read, V3.ofBits_toBits]

theorem VC.ofBits_toBits (o : VC) : VC.ofBits o.toBits = o := by
  obtain ⟨d, a, tys, tyd, byp⟩ := o
  simp only [VC.ofBits, VC.toBits, VC.mk.injEq]
  refine ⟨?_, ?_, ?_, ?_, ?_⟩ <;> (apply BitVec.eq_of_getLsbD_eq; intro i hi; simp [hi] <;> grind)
theorem VC.read_toBits (c : VC → Instr) (o : VC) : VC.read c o.toBits = .ok (c o) := by
  have z : o.toBits &&& 0x2#20 = 0#20 := by
    apply BitVec.eq_of_getLsbD_eq; apply bits20 <;> (
      simp only [VC.toBits, BitVec.getLsbD_and]
      rw [BitVec.getLsbD_append]
      first | (simp; done) | (simp [BitVec.getElem_append]; done) | (simp; rw [BitVec.getElem_append]; simp; done) | (simp; repeat (rw [BitVec.getElem_append]; simp)))
  simp [VC.read, z, VC.ofBits_toBits]

theorem VS.ofBits_toBits (o : VS) : VS.ofBits o.toBits = o := by
  obtain ⟨d, a, ty⟩ := o
  simp only [VS.ofBits, VS.toBits, VS.mk.injEq]
  refine ⟨?_, ?_, ?_⟩ <;> (apply BitVec.eq_of_getLsbD_eq; intro i hi; simp [hi] <;> grind)
theorem VS.read_toBits (c : VS → Instr) (o : VS) : VS.read c o.toBits = .ok (c o) := by
  have z : o.toBits &&& 0x1e1#20 = 0#20 := by
    apply BitVec.eq_of_getLsbD_eq; apply bits20 <;> (
      simp only [VS.toBits, BitVec.getLsbD_and]
      rw [BitVec.getLsbD_append]
      first | (simp; done) | (simp [BitVec.getElem_append]; done) | (simp; rw [BitVec.getElem_append]; simp; done) | (simp; repeat (rw [BitVec.getElem_append]; simp)))
  simp [VS.read, z, VS.ofBits_toBits]

theorem VI.ofBits_toBits (o : VI) : VI.ofBits o.toBits = o := by
  obtain ⟨d, imm, ty⟩ := o
  simp only [VI.ofBits, VI.toBits, VI.mk.injEq]
  refine ⟨?_, ?_, ?_⟩ <;> (apply BitVec.eq_of_getLsbD_eq; intro i hi; simp [hi] <;> grind)
theorem VI.read_toBits (c : VI → Instr) (o : VI) : VI.read c o.toBits = .ok (c o) := by
  have z : o.toBits &&& 0x1#20 = 0#20 := by
    apply BitVec.eq_of_getLsbD_eq; apply bits20 <;> (
      simp only [VI.toBits, BitVec.getLsbD_and]
      rw [BitVec.getLsbD_append]
      first | (simp; done) | (simp [BitVec.getElem_append]; done) | (simp; rw [BitVec.getElem_append]; simp; done) | (simp; repeat (rw [BitVec.getElem_append]; simp)))
  simp [VI.read, z, VI.ofBits_toBits]

theorem VX.ofBits_toBits (o : VX) : VX.ofBits o.toBits = o := by
  obtain ⟨d, a, ctl, byp⟩ := o
  simp only [VX.ofBits, VX.toBits, VX.mk.injEq]
  refine ⟨?_, ?_, ?_, ?_⟩ <;> (apply BitVec.eq_of_getLsbD_eq; intro i hi; simp [hi] <;> grind)
theorem VX.read_toBits (c : VX → Instr) (o : VX) : VX.read c o.toBits = .ok (c o) := by
  simp [VX.read, VX.ofBits_toBits]

theorem VQ.ofBits_toBits (o : VQ) : VQ.ofBits o.toBits = o := by
  obtain ⟨d, bank, tile, h, bm⟩ := o
  simp only [VQ.ofBits, VQ.toBits, VQ.mk.injEq]
  refine ⟨?_, ?_, ?_, ?_, ?_⟩ <;> (apply BitVec.eq_of_getLsbD_eq; intro i hi; simp [hi] <;> grind)
theorem VQ.read_toBits (c : VQ → Instr) (o : VQ) : VQ.read c o.toBits = .ok (c o) := by
  have z : o.toBits &&& 0x1f#20 = 0#20 := by
    apply BitVec.eq_of_getLsbD_eq; apply bits20 <;> (
      simp only [VQ.toBits, BitVec.getLsbD_and]
      rw [BitVec.getLsbD_append]
      first | (simp; done) | (simp [BitVec.getElem_append]; done) | (simp; rw [BitVec.getElem_append]; simp; done) | (simp; repeat (rw [BitVec.getElem_append]; simp)))
  simp [VQ.read, z, VQ.ofBits_toBits]

theorem VF.ofBits_toBits (o : VF) : VF.ofBits o.toBits = o := by
  obtain ⟨a, ctl, byp⟩ := o
  simp only [VF.ofBits, VF.toBits, VF.mk.injEq]
  refine ⟨?_, ?_, ?_⟩ <;> (apply BitVec.eq_of_getLsbD_eq; intro i hi; simp [hi] <;> grind)
theorem VF.read_toBits (c : VF → Instr) (o : VF) : VF.read c o.toBits = .ok (c o) := by
  simp [VF.read, VF.ofBits_toBits]

theorem MC.ofBits_toBits (o : MC) : MC.ofBits o.toBits = o := by
  obtain ⟨hm, sw, mode, bank, tile, ctl⟩ := o
  simp only [MC.ofBits, MC.toBits, MC.mk.injEq]
  refine ⟨?_, ?_, ?_, ?_, ?_, ?_⟩ <;> (apply BitVec.eq_of_getLsbD_eq; intro i hi; simp [hi] <;> grind)
theorem MC.read_toBits (c : MC → Instr) (o : MC) : MC.read c o.toBits = .ok (c o) := by
  simp [MC.read, MC.ofBits_toBits]

theorem MW.ofBits_toBits (o : MW) : MW.ofBits o.toBits = o := by
  obtain ⟨a, bank, tile, h⟩ := o
  simp only [MW.ofBits, MW.toBits, MW.mk.injEq]
  refine ⟨?_, ?_, ?_, ?_⟩ <;> (apply BitVec.eq_of_getLsbD_eq; intro i hi; simp [hi] <;> grind)
theorem MW.read_toBits (c : MW → Instr) (o : MW) : MW.read c o.toBits = .ok (c o) := by
  have z : o.toBits &&& 0x3f#20 = 0#20 := by
    apply BitVec.eq_of_getLsbD_eq; apply bits20 <;> (
      simp only [MW.toBits, BitVec.getLsbD_and]
      rw [BitVec.getLsbD_append]
      first | (simp; done) | (simp [BitVec.getElem_append]; done) | (simp; rw [BitVec.getElem_append]; simp; done) | (simp; repeat (rw [BitVec.getElem_append]; simp)))
  simp [MW.read, z, MW.ofBits_toBits]

theorem MK.ofBits_toBits (o : MK) : MK.ofBits o.toBits = o := by
  obtain ⟨bank, mask⟩ := o
  simp only [MK.ofBits, MK.toBits, MK.mk.injEq]
  refine ⟨?_, ?_⟩ <;> (apply BitVec.eq_of_getLsbD_eq; intro i hi; simp [hi] <;> grind)
theorem MK.read_toBits (c : MK → Instr) (o : MK) : MK.read c o.toBits = .ok (c o) := by
  simp [MK.read, MK.ofBits_toBits]

theorem MT.ofBits_toBits (o : MT) : MT.ofBits o.toBits = o := by
  obtain ⟨bank, tile, sbank, stile⟩ := o
  simp only [MT.ofBits, MT.toBits, MT.mk.injEq]
  refine ⟨?_, ?_, ?_, ?_⟩ <;> (apply BitVec.eq_of_getLsbD_eq; intro i hi; simp [hi] <;> grind)
theorem MT.read_toBits (c : MT → Instr) (o : MT) : MT.read c o.toBits = .ok (c o) := by
  have z : o.toBits &&& 0xf#20 = 0#20 := by
    apply BitVec.eq_of_getLsbD_eq; apply bits20 <;> (
      simp only [MT.toBits, BitVec.getLsbD_and]
      rw [BitVec.getLsbD_append]
      first | (simp; done) | (simp [BitVec.getElem_append]; done) | (simp; rw [BitVec.getElem_append]; simp; done) | (simp; repeat (rw [BitVec.getElem_append]; simp)))
  simp [MT.read, z, MT.ofBits_toBits]

theorem MF.ofBits_toBits (o : MF) : MF.ofBits o.toBits = o := by
  obtain ⟨a, bank, tile⟩ := o
  simp only [MF.ofBits, MF.toBits, MF.mk.injEq]
  refine ⟨?_, ?_, ?_⟩ <;> (apply BitVec.eq_of_getLsbD_eq; intro i hi; simp [hi] <;> grind)
theorem MF.read_toBits (c : MF → Instr) (o : MF) : MF.read c o.toBits = .ok (c o) := by
  have z : o.toBits &&& 0x3f#20 = 0#20 := by
    apply BitVec.eq_of_getLsbD_eq; apply bits20 <;> (
      simp only [MF.toBits, BitVec.getLsbD_and]
      rw [BitVec.getLsbD_append]
      first | (simp; done) | (simp [BitVec.getElem_append]; done) | (simp; rw [BitVec.getElem_append]; simp; done) | (simp; repeat (rw [BitVec.getElem_append]; simp)))
  simp [MF.read, z, MF.ofBits_toBits]

theorem MH.ofBits_toBits (o : MH) : MH.ofBits o.toBits = o := by
  obtain ⟨a, kind⟩ := o
  simp only [MH.ofBits, MH.toBits, MH.mk.injEq]
  refine ⟨?_, ?_⟩ <;> (apply BitVec.eq_of_getLsbD_eq; intro i hi; simp [hi] <;> grind)
theorem MH.read_toBits (c : MH → Instr) (o : MH) : MH.read c o.toBits = .ok (c o) := by
  have z : o.toBits &&& 0xfff#20 = 0#20 := by
    apply BitVec.eq_of_getLsbD_eq; apply bits20 <;> (
      simp only [MH.toBits, BitVec.getLsbD_and]
      rw [BitVec.getLsbD_append]
      first | (simp; done) | (simp [BitVec.getElem_append]; done) | (simp; rw [BitVec.getElem_append]; simp; done) | (simp; repeat (rw [BitVec.getElem_append]; simp)))
  simp [MH.read, z, MH.ofBits_toBits]

theorem LS.ofBits_toBits (o : LS) : LS.ofBits o.toBits = o := by
  obtain ⟨d, a, ty, rd⟩ := o
  simp only [LS.ofBits, LS.toBits, LS.mk.injEq]
  refine ⟨?_, ?_, ?_, ?_⟩ <;> (apply BitVec.eq_of_getLsbD_eq; intro i hi; simp [hi] <;> grind)
theorem LS.read_toBits (c : LS → Instr) (o : LS) : LS.read c o.toBits = .ok (c o) := by
  have z : o.toBits &&& 0x1#20 = 0#20 := by
    apply BitVec.eq_of_getLsbD_eq; apply bits20 <;> (
      simp only [LS.toBits, BitVec.getLsbD_and]
      rw [BitVec.getLsbD_append]
      first | (simp; done) | (simp [BitVec.getElem_append]; done) | (simp; rw [BitVec.getElem_append]; simp; done) | (simp; repeat (rw [BitVec.getElem_append]; simp)))
  simp [LS.read, z, LS.ofBits_toBits]

theorem LV.ofBits_toBits (o : LV) : LV.ofBits o.toBits = o := by
  obtain ⟨d, a, ty, rd⟩ := o
  simp only [LV.ofBits, LV.toBits, LV.mk.injEq]
  refine ⟨?_, ?_, ?_, ?_⟩ <;> (apply BitVec.eq_of_getLsbD_eq; intro i hi; simp [hi] <;> grind)
theorem LV.read_toBits (c : LV → Instr) (o : LV) : LV.read c o.toBits = .ok (c o) := by
  have z : o.toBits &&& 0x3#20 = 0#20 := by
    apply BitVec.eq_of_getLsbD_eq; apply bits20 <;> (
      simp only [LV.toBits, BitVec.getLsbD_and]
      rw [BitVec.getLsbD_append]
      first | (simp; done) | (simp [BitVec.getElem_append]; done) | (simp; rw [BitVec.getElem_append]; simp; done) | (simp; repeat (rw [BitVec.getElem_append]; simp)))
  simp [LV.read, z, LV.ofBits_toBits]

theorem LR.ofBits_toBits (o : LR) : LR.ofBits o.toBits = o := by
  obtain ⟨d, a, ty, scope⟩ := o
  simp only [LR.ofBits, LR.toBits, LR.mk.injEq]
  refine ⟨?_, ?_, ?_, ?_⟩ <;> (apply BitVec.eq_of_getLsbD_eq; intro i hi; simp [hi] <;> grind)
theorem LR.read_toBits (c : LR → Instr) (o : LR) : LR.read c o.toBits = .ok (c o) := by
  have z : o.toBits &&& 0x1#20 = 0#20 := by
    apply BitVec.eq_of_getLsbD_eq; apply bits20 <;> (
      simp only [LR.toBits, BitVec.getLsbD_and]
      rw [BitVec.getLsbD_append]
      first | (simp; done) | (simp [BitVec.getElem_append]; done) | (simp; rw [BitVec.getElem_append]; simp; done) | (simp; repeat (rw [BitVec.getElem_append]; simp)))
  simp [LR.read, z, LR.ofBits_toBits]

theorem LA.ofBits_toBits (o : LA) : LA.ofBits o.toBits = o := by
  obtain ⟨d, a, op, w⟩ := o
  simp only [LA.ofBits, LA.toBits, LA.mk.injEq]
  refine ⟨?_, ?_, ?_, ?_⟩ <;> (apply BitVec.eq_of_getLsbD_eq; intro i hi; simp [hi] <;> grind)
theorem LA.read_toBits (c : LA → Instr) (o : LA) : LA.read c o.toBits = .ok (c o) := by
  have z : o.toBits &&& 0x7#20 = 0#20 := by
    apply BitVec.eq_of_getLsbD_eq; apply bits20 <;> (
      simp only [LA.toBits, BitVec.getLsbD_and]
      rw [BitVec.getLsbD_append]
      first | (simp; done) | (simp [BitVec.getElem_append]; done) | (simp; rw [BitVec.getElem_append]; simp; done) | (simp; repeat (rw [BitVec.getElem_append]; simp)))
  simp [LA.read, z, LA.ofBits_toBits]

theorem LB.ofBits_toBits (o : LB) : LB.ofBits o.toBits = o := by
  obtain ⟨d, n⟩ := o
  simp only [LB.ofBits, LB.toBits, LB.mk.injEq]
  refine ⟨?_, ?_⟩ <;> (apply BitVec.eq_of_getLsbD_eq; intro i hi; simp [hi] <;> grind)
theorem LB.read_toBits (c : LB → Instr) (o : LB) : LB.read c o.toBits = .ok (c o) := by
  have z : o.toBits &&& 0x3f00#20 = 0#20 := by
    apply BitVec.eq_of_getLsbD_eq; apply bits20 <;> (
      simp only [LB.toBits, BitVec.getLsbD_and]
      rw [BitVec.getLsbD_append]
      first | (simp; done) | (simp [BitVec.getElem_append]; done) | (simp; rw [BitVec.getElem_append]; simp; done) | (simp; repeat (rw [BitVec.getElem_append]; simp)))
  simp [LB.read, z, LB.ofBits_toBits]

theorem LG.ofBits_toBits (o : LG) : LG.ofBits o.toBits = o := by
  obtain ⟨d, a, b, ty⟩ := o
  simp only [LG.ofBits, LG.toBits, LG.mk.injEq]
  refine ⟨?_, ?_, ?_, ?_⟩ <;> (apply BitVec.eq_of_getLsbD_eq; intro i hi; simp [hi] <;> grind)
theorem LG.read_toBits (c : LG → Instr) (o : LG) : LG.read c o.toBits = .ok (c o) := by
  simp [LG.read, LG.ofBits_toBits]

theorem LK.ofBits_toBits (o : LK) : LK.ofBits o.toBits = o := by
  obtain ⟨k, a⟩ := o
  simp only [LK.ofBits, LK.toBits, LK.mk.injEq]
  refine ⟨?_, ?_⟩ <;> (apply BitVec.eq_of_getLsbD_eq; intro i hi; simp [hi] <;> grind)
theorem LK.read_toBits (c : LK → Instr) (o : LK) : LK.read c o.toBits = .ok (c o) := by
  have z : o.toBits &&& 0x3ff#20 = 0#20 := by
    apply BitVec.eq_of_getLsbD_eq; apply bits20 <;> (
      simp only [LK.toBits, BitVec.getLsbD_and]
      rw [BitVec.getLsbD_append]
      first | (simp; done) | (simp [BitVec.getElem_append]; done) | (simp; rw [BitVec.getElem_append]; simp; done) | (simp; repeat (rw [BitVec.getElem_append]; simp)))
  simp [LK.read, z, LK.ofBits_toBits]

theorem XE.ofBits_toBits (o : XE) : XE.ofBits o.toBits = o := by
  obtain ⟨hx, sw, a, b, ctl⟩ := o
  simp only [XE.ofBits, XE.toBits, XE.mk.injEq]
  refine ⟨?_, ?_, ?_, ?_, ?_⟩ <;> (apply BitVec.eq_of_getLsbD_eq; intro i hi; simp [hi] <;> grind)
theorem XE.read_toBits (c : XE → Instr) (o : XE) : XE.read c o.toBits = .ok (c o) := by
  simp [XE.read, XE.ofBits_toBits]

theorem XB.ofBits_toBits (o : XB) : XB.ofBits o.toBits = o := by
  obtain ⟨level, bar, a⟩ := o
  simp only [XB.ofBits, XB.toBits, XB.mk.injEq]
  refine ⟨?_, ?_, ?_⟩ <;> (apply BitVec.eq_of_getLsbD_eq; intro i hi; simp [hi] <;> grind)
theorem XB.read_toBits (c : XB → Instr) (o : XB) : XB.read c o.toBits = .ok (c o) := by
  have z : o.toBits &&& 0xf#20 = 0#20 := by
    apply BitVec.eq_of_getLsbD_eq; apply bits20 <;> (
      simp only [XB.toBits, BitVec.getLsbD_and]
      rw [BitVec.getLsbD_append]
      first | (simp; done) | (simp [BitVec.getElem_append]; done) | (simp; rw [BitVec.getElem_append]; simp; done) | (simp; repeat (rw [BitVec.getElem_append]; simp)))
  simp [XB.read, z, XB.ofBits_toBits]

theorem XS.ofBits_toBits (o : XS) : XS.ofBits o.toBits = o := by
  obtain ⟨a, b, ctl⟩ := o
  simp only [XS.ofBits, XS.toBits, XS.mk.injEq]
  refine ⟨?_, ?_, ?_⟩ <;> (apply BitVec.eq_of_getLsbD_eq; intro i hi; simp [hi] <;> grind)
theorem XS.read_toBits (c : XS → Instr) (o : XS) : XS.read c o.toBits = .ok (c o) := by
  simp [XS.read, XS.ofBits_toBits]

theorem XC.ofBits_toBits (o : XC) : XC.ofBits o.toBits = o := by
  obtain ⟨a, b, op, lvl⟩ := o
  simp only [XC.ofBits, XC.toBits, XC.mk.injEq]
  refine ⟨?_, ?_, ?_, ?_⟩ <;> (apply BitVec.eq_of_getLsbD_eq; intro i hi; simp [hi] <;> grind)
theorem XC.read_toBits (c : XC → Instr) (o : XC) : XC.read c o.toBits = .ok (c o) := by
  have z : o.toBits &&& 0xf#20 = 0#20 := by
    apply BitVec.eq_of_getLsbD_eq; apply bits20 <;> (
      simp only [XC.toBits, BitVec.getLsbD_and]
      rw [BitVec.getLsbD_append]
      first | (simp; done) | (simp [BitVec.getElem_append]; done) | (simp; rw [BitVec.getElem_append]; simp; done) | (simp; repeat (rw [BitVec.getElem_append]; simp)))
  simp [XC.read, z, XC.ofBits_toBits]

/-! The logit word (R365) -/

theorem logitWord_op (op : BitVec 5) (d a b : BitVec 3) : (logitWord op d a b).extractLsb' 11 5 = op := by
  apply BitVec.eq_of_getLsbD_eq; intro i hi; simp [logitWord, hi] <;> grind
theorem logitWord_d (op : BitVec 5) (d a b : BitVec 3) : (logitWord op d a b).extractLsb' 8 3 = d := by
  apply BitVec.eq_of_getLsbD_eq; intro i hi; simp [logitWord, hi] <;> grind
theorem logitWord_a (op : BitVec 5) (d a b : BitVec 3) : (logitWord op d a b).extractLsb' 5 3 = a := by
  apply BitVec.eq_of_getLsbD_eq; intro i hi; simp [logitWord, hi] <;> grind
theorem logitWord_b (op : BitVec 5) (d a b : BitVec 3) : (logitWord op d a b).extractLsb' 2 3 = b := by
  apply BitVec.eq_of_getLsbD_eq; intro i hi; simp [logitWord, hi] <;> grind
theorem bits16 {P : Nat → Prop} (h0 : P 0) (h1 : P 1) (h2 : P 2) (h3 : P 3) (h4 : P 4) (h5 : P 5) (h6 : P 6) (h7 : P 7)
    (h8 : P 8) (h9 : P 9) (h10 : P 10) (h11 : P 11) (h12 : P 12) (h13 : P 13) (h14 : P 14) (h15 : P 15) : ∀ i, i < 16 → P i := by
  intro i hi
  have : i = 0 ∨ i = 1 ∨ i = 2 ∨ i = 3 ∨ i = 4 ∨ i = 5 ∨ i = 6 ∨ i = 7 ∨ i = 8 ∨ i = 9 ∨ i = 10 ∨ i = 11 ∨ i = 12 ∨
    i = 13 ∨ i = 14 ∨ i = 15 := by omega
  rcases this with h | h | h | h | h | h | h | h | h | h | h | h | h | h | h | h <;> (subst h; assumption)
theorem logitWord_m3 (op : BitVec 5) (d a b : BitVec 3) : logitWord op d a b &&& 0x0003#16 = 0#16 := by
  apply BitVec.eq_of_getLsbD_eq; apply bits16 <;> (
    simp only [logitWord, BitVec.getLsbD_and]
    rw [BitVec.getLsbD_append]
    first | (simp; done) | (simp [BitVec.getElem_append]; done) | (simp; rw [BitVec.getElem_append]; simp; done) | (simp; repeat (rw [BitVec.getElem_append]; simp)))
theorem logitWord_m1f (op : BitVec 5) (d a : BitVec 3) : logitWord op d a 0 &&& 0x001F#16 = 0#16 := by
  apply BitVec.eq_of_getLsbD_eq; apply bits16 <;> (
    simp only [logitWord, BitVec.getLsbD_and]
    rw [BitVec.getLsbD_append]
    first | (simp; done) | (simp [BitVec.getElem_append]; done) | (simp; rw [BitVec.getElem_append]; simp; done) | (simp; repeat (rw [BitVec.getElem_append]; simp)))
theorem logitWord_mff (op : BitVec 5) (d : BitVec 3) : logitWord op d 0 0 &&& 0x00FF#16 = 0#16 := by
  apply BitVec.eq_of_getLsbD_eq; apply bits16 <;> (
    simp only [logitWord, BitVec.getLsbD_and]
    rw [BitVec.getLsbD_append]
    first | (simp; done) | (simp [BitVec.getElem_append]; done) | (simp; rw [BitVec.getElem_append]; simp; done) | (simp; repeat (rw [BitVec.getElem_append]; simp)))
theorem logitWord_m7ff (op : BitVec 5) : logitWord op 0 0 0 &&& 0x07FF#16 = 0#16 := by
  apply BitVec.eq_of_getLsbD_eq; apply bits16 <;> (
    simp only [logitWord, BitVec.getLsbD_and]
    rw [BitVec.getLsbD_append]
    first | (simp; done) | (simp [BitVec.getElem_append]; done) | (simp; rw [BitVec.getElem_append]; simp; done) | (simp; repeat (rw [BitVec.getElem_append]; simp)))
theorem logitWord_m703 (op : BitVec 5) (a b : BitVec 3) : logitWord op 0 a b &&& 0x0703#16 = 0#16 := by
  apply BitVec.eq_of_getLsbD_eq; apply bits16 <;> (
    simp only [logitWord, BitVec.getLsbD_and]
    rw [BitVec.getLsbD_append]
    first | (simp; done) | (simp [BitVec.getElem_append]; done) | (simp; rw [BitVec.getElem_append]; simp; done) | (simp; repeat (rw [BitVec.getElem_append]; simp)))
theorem logitWord_m71f (op : BitVec 5) (a : BitVec 3) : logitWord op 0 a 0 &&& 0x071F#16 = 0#16 := by
  apply BitVec.eq_of_getLsbD_eq; apply bits16 <;> (
    simp only [logitWord, BitVec.getLsbD_and]
    rw [BitVec.getLsbD_append]
    first | (simp; done) | (simp [BitVec.getElem_append]; done) | (simp; rw [BitVec.getElem_append]; simp; done) | (simp; repeat (rw [BitVec.getElem_append]; simp)))
end Sys2Proof
end

