-- ==== Sys2Proof/Laws/Memory.lean ====
section
/-! SUPPORT. Memory: what a store changes, and that the stores keep its canonical form. -/

namespace Sys2Proof.Machine

/-- After a store, its own bytes read back. -/
theorem State.memBytes_memStore (s : State) (off : Nat) (b : List Byte) :
    (s.memStore off b).memBytes off b.length = b := bytesAt_putBytes s.mem off b

/-- A store leaves every byte outside it. -/
theorem State.memStore_look_out (s : State) (off : Nat) (b : List Byte) (x : Nat) (h : x < off ∨ off + b.length ≤ x) :
    SMap.look (s.memStore off b).mem x = SMap.look s.mem x := putBytes_look_out s.mem off b x h

/-- A masked store leaves every byte outside it. -/
theorem State.memStoreMasked_look_out (s : State) (off : Nat) (b : List Byte) (k : List Bool) (x : Nat)
    (h : x < off ∨ off + b.length ≤ x) : SMap.look (s.memStoreMasked off b k).mem x = SMap.look s.mem x :=
  putMasked_look_out s.mem off b k x h

/-- A store keeps the canonical form. -/
theorem State.memStore_wf (s : State) (off : Nat) (b : List Byte) (h : Memory.wf s.mem = true) :
    Memory.wf (s.memStore off b).mem = true := putBytes_wf s.mem off b h

/-- A masked store keeps the canonical form. -/
theorem State.memStoreMasked_wf (s : State) (off : Nat) (b : List Byte) (k : List Bool) (h : Memory.wf s.mem = true) :
    Memory.wf (s.memStoreMasked off b k).mem = true := putMasked_wf s.mem off b k h

/-- What a loss of power leaves of memory is in canonical form. -/
theorem Memory.wf_kept (m : List Host.Cell) (f : Host.Cell → Bool) (h : Memory.wf m = true) :
    Memory.wf (m.filter f) = true := SMap.wf_filter m f h

/-- The memory after reset is in canonical form. -/
theorem State.reset_mem_wf : Memory.wf State.reset.mem = true := rfl

end Sys2Proof.Machine
end

