-- ==== Sys2Proof/Laws/PerInstr.lean ====
section
/-! SUPPORT. Per instruction: decoding the bits that the encoder gives a well-formed instruction gives it back. -/

namespace Sys2Proof.Laws.RoundTrip

set_option linter.unusedSimpArgs false
set_option linter.unusedTactic false
set_option linter.unreachableTactic false
set_option linter.unnecessarySeqFocus false

/-- A well-formed instruction that has a slot operation's bits, or a logit word, is what they decode to. -/
def Statement (i : Instr) : Prop :=
  i.wf = true →
    (∀ slot opc opd, encodeOp i = some (slot, opc, opd) → decodeOp slot (opc ++ opd) = .ok i) ∧
    ∀ w, encodeLogit i = some w → decodeLogit w = .ok i

/-- The opcode of a slot operation's bits. -/
theorem opcode_append (opc : BitVec 7) (opd : BitVec 20) : (opc ++ opd : BitVec 27).extractLsb' 20 7 = opc := by
  apply BitVec.eq_of_getLsbD_eq; intro i hi; simp [hi] <;> grind

/-- The operands of a slot operation's bits. -/
theorem operands_append (opc : BitVec 7) (opd : BitVec 20) : (opc ++ opd : BitVec 27).extractLsb' 0 20 = opd := by
  apply BitVec.eq_of_getLsbD_eq; intro i hi; simp [hi] <;> grind

/-- A slot operation whose opcode and operands decode to it. -/
theorem ofOp {i : Instr} {slot : Nat} {opc : BitVec 7} {opd : BitVec 20} (he : encodeOp i = some (slot, opc, opd))
    (hl : encodeLogit i = none) (hd : i.wf = true → decodeOpd slot opc.toNat opd = .ok i) : Statement i := by
  refine fun h => ⟨fun a b c e => ?_, fun w e => by rw [hl] at e; cases e⟩
  rw [he] at e
  cases e
  unfold decodeOp
  rw [opcode_append, operands_append, hd h]
  simp [h]

/-- A logit instruction whose word decodes to it. -/
theorem ofLogit {i : Instr} {w : BitVec 16} (hl : encodeLogit i = some w) (he : encodeOp i = none)
    (hd : decodeLogit w = .ok i) : Statement i :=
  fun _ => ⟨fun _ _ _ e => (nomatch he.symm.trans e), fun x e => by rw [hl] at e; cases e; exact hd⟩

/-- An instruction without bits. -/
theorem ofEvent {i : Instr} (he : encodeOp i = none) (hl : encodeLogit i = none) : Statement i :=
  fun _ => ⟨fun _ _ _ e => (nomatch he.symm.trans e), fun _ e => (nomatch hl.symm.trans e)⟩

/-- The sampler forms that share an opcode are told apart by CTL. -/
theorem smp_merge (ctl : BitVec 8) (h : ctl &&& ~~~0x07#8 = 0#8) : ctl.getLsbD 3 = false := by
  revert ctl; decide

theorem smp_commit0 (ctl : BitVec 8) (h : ctl &&& ~~~0x07#8 = 0#8) : (ctl.extractLsb' 3 2).toNat = 0 := by
  revert ctl; decide
theorem smp_commit1 (ctl : BitVec 8) (h : ctl &&& ~~~0x0F#8 = 0#8) (h3 : ctl.getLsbD 3 = true) :
    (ctl.extractLsb' 3 2).toNat = 1 := by
  revert ctl; decide
theorem smp_commit2 (ctl : BitVec 8) (h : ctl &&& ~~~0x17#8 = 0#8) (h4 : ctl.getLsbD 4 = true) :
    (ctl.extractLsb' 3 2).toNat = 2 := by
  revert ctl; decide

theorem nop (slot : Fin 8) : Statement (.nop slot) := by
  refine ofOp rfl rfl fun _ => ?_
  obtain ⟨k, hk⟩ := slot
  have : k = 0 ∨ k = 1 ∨ k = 2 ∨ k = 3 ∨ k = 4 ∨ k = 5 ∨ k = 6 ∨ k = 7 := by omega
  rcases this with h | h | h | h | h | h | h | h <;> subst h <;> rfl
theorem br (o : CJ) : Statement (.br o) :=
  ofOp rfl rfl fun _ => CJ.read_toBits .br o
theorem brr (o : CR) : Statement (.brr o) :=
  ofOp rfl rfl fun _ => CR.read_toBits .brr o
theorem btree (o : CT) : Statement (.btree o) :=
  ofOp rfl rfl fun _ => CT.read_toBits .btree o
theorem call (o : CJ) : Statement (.call o) :=
  ofOp rfl rfl fun _ => CJ.read_toBits .call o
theorem callr (o : CR) : Statement (.callr o) :=
  ofOp rfl rfl fun _ => CR.read_toBits .callr o
theorem ret : Statement .ret := ofOp rfl rfl fun _ => rfl
theorem lend (o : CL) : Statement (.lend o) :=
  ofOp rfl rfl fun _ => CL.read_toBits .lend o
theorem lrep (o : CT) : Statement (.lrep o) :=
  ofOp rfl rfl fun _ => CT.read_toBits .lrep o
theorem lexit : Statement .lexit := ofOp rfl rfl fun _ => rfl
theorem endTask : Statement .endTask := ofOp rfl rfl fun _ => rfl
theorem trap (o : CT) : Statement (.trap o) :=
  ofOp rfl rfl fun _ => CT.read_toBits .trap o
theorem fmtw (o : CF) : Statement (.fmtw o) :=
  ofOp rfl rfl fun _ => CF.read_toBits .fmtw o
theorem fence (o : CW) : Statement (.fence o) :=
  ofOp rfl rfl fun _ => CW.read_toBits .fence o
theorem await (o : CW) : Statement (.await o) :=
  ofOp rfl rfl fun _ => CW.read_toBits .await o
theorem waita (o : CW) : Statement (.waita o) :=
  ofOp rfl rfl fun _ => CW.read_toBits .waita o
theorem twait (o : CW) : Statement (.twait o) :=
  ofOp rfl rfl fun _ => CW.read_toBits .twait o
theorem mark (o : CT) : Statement (.mark o) :=
  ofOp rfl rfl fun _ => CT.read_toBits .mark o
theorem add (o : S3) : Statement (.add o) :=
  ofOp rfl rfl fun _ => S3.read_toBits .add o
theorem sub (o : S3) : Statement (.sub o) :=
  ofOp rfl rfl fun _ => S3.read_toBits .sub o
theorem mul (o : S3) : Statement (.mul o) :=
  ofOp rfl rfl fun _ => S3.read_toBits .mul o
theorem mulh (o : S3) : Statement (.mulh o) :=
  ofOp rfl rfl fun _ => S3.read_toBits .mulh o
theorem mulhn (o : S3) : Statement (.mulhn o) :=
  ofOp rfl rfl fun _ => S3.read_toBits .mulhn o
theorem div (o : S3) : Statement (.div o) :=
  ofOp rfl rfl fun _ => S3.read_toBits .div o
theorem divn (o : S3) : Statement (.divn o) :=
  ofOp rfl rfl fun _ => S3.read_toBits .divn o
theorem rem (o : S3) : Statement (.rem o) :=
  ofOp rfl rfl fun _ => S3.read_toBits .rem o
theorem remn (o : S3) : Statement (.remn o) :=
  ofOp rfl rfl fun _ => S3.read_toBits .remn o
theorem and (o : S3) : Statement (.and o) :=
  ofOp rfl rfl fun _ => S3.read_toBits .and o
theorem or (o : S3) : Statement (.or o) :=
  ofOp rfl rfl fun _ => S3.read_toBits .or o
theorem xor (o : S3) : Statement (.xor o) :=
  ofOp rfl rfl fun _ => S3.read_toBits .xor o
theorem andn (o : S3) : Statement (.andn o) :=
  ofOp rfl rfl fun _ => S3.read_toBits .andn o
theorem shl (o : S3) : Statement (.shl o) :=
  ofOp rfl rfl fun _ => S3.read_toBits .shl o
theorem shr (o : S3) : Statement (.shr o) :=
  ofOp rfl rfl fun _ => S3.read_toBits .shr o
theorem sar (o : S3) : Statement (.sar o) :=
  ofOp rfl rfl fun _ => S3.read_toBits .sar o
theorem rotl (o : S3) : Statement (.rotl o) :=
  ofOp rfl rfl fun _ => S3.read_toBits .rotl o
theorem clz (o : S3) : Statement (.clz o) :=
  ofOp rfl rfl fun _ => S3.read_toBits .clz o
theorem popc (o : S3) : Statement (.popc o) :=
  ofOp rfl rfl fun _ => S3.read_toBits .popc o
theorem min (o : S3) : Statement (.min o) :=
  ofOp rfl rfl fun _ => S3.read_toBits .min o
theorem max (o : S3) : Statement (.max o) :=
  ofOp rfl rfl fun _ => S3.read_toBits .max o
theorem minn (o : S3) : Statement (.minn o) :=
  ofOp rfl rfl fun _ => S3.read_toBits .minn o
theorem maxn (o : S3) : Statement (.maxn o) :=
  ofOp rfl rfl fun _ => S3.read_toBits .maxn o
theorem ext (o : SX) : Statement (.ext o) :=
  ofOp rfl rfl fun _ => SX.read_toBits .ext o
theorem cmpeq (o : SP) : Statement (.cmpeq o) :=
  ofOp rfl rfl fun _ => SP.read_toBits .cmpeq o
theorem cmpne (o : SP) : Statement (.cmpne o) :=
  ofOp rfl rfl fun _ => SP.read_toBits .cmpne o
theorem cmplt (o : SP) : Statement (.cmplt o) :=
  ofOp rfl rfl fun _ => SP.read_toBits .cmplt o
theorem cmpltn (o : SP) : Statement (.cmpltn o) :=
  ofOp rfl rfl fun _ => SP.read_toBits .cmpltn o
theorem cmple (o : SP) : Statement (.cmple o) :=
  ofOp rfl rfl fun _ => SP.read_toBits .cmple o
theorem cmplen (o : SP) : Statement (.cmplen o) :=
  ofOp rfl rfl fun _ => SP.read_toBits .cmplen o
theorem sel (o : SS) : Statement (.sel o) :=
  ofOp rfl rfl fun _ => SS.read_toBits .sel o
theorem addi (o : SI) : Statement (.addi o) :=
  ofOp rfl rfl fun _ => SI.read_toBits .addi o
theorem movi (o : SM) : Statement (.movi o) :=
  ofOp rfl rfl fun _ => SM.read_toBits .movi o
theorem movhi (o : SM) : Statement (.movhi o) :=
  ofOp rfl rfl fun _ => SM.read_toBits .movhi o
theorem plog (o : SQ) : Statement (.plog o) :=
  ofOp rfl rfl fun _ => SQ.read_toBits .plog o
theorem srd (o : SV) : Statement (.srd o) :=
  ofOp rfl rfl fun _ => SV.read_toBits .srd o
theorem lset (o : AL) : Statement (.lset o) :=
  ofOp rfl rfl fun _ => AL.read_toBits .lset o
theorem kset (o : AK) : Statement (.kset o) :=
  ofOp rfl rfl fun _ => AK.read_toBits .kset o
theorem kadd (o : AK) : Statement (.kadd o) :=
  ofOp rfl rfl fun _ => AK.read_toBits .kadd o
theorem kget (o : AK) : Statement (.kget o) :=
  ofOp rfl rfl fun _ => AK.read_toBits .kget o
theorem aadd (o : S3) : Statement (.aadd o) :=
  ofOp rfl rfl fun _ => S3.read_toBits .aadd o
theorem asub (o : S3) : Statement (.asub o) :=
  ofOp rfl rfl fun _ => S3.read_toBits .asub o
theorem aaddi (o : SI) : Statement (.aaddi o) :=
  ofOp rfl rfl fun _ => SI.read_toBits .aaddi o
theorem amov (o : S3) : Statement (.amov o) :=
  ofOp rfl rfl fun _ => S3.read_toBits .amov o
theorem aidx (o : S3) : Statement (.aidx o) :=
  ofOp rfl rfl fun _ => S3.read_toBits .aidx o
theorem awrap (o : S3) : Statement (.awrap o) :=
  ofOp rfl rfl fun _ => S3.read_toBits .awrap o
theorem shf (o : AH) : Statement (.shf o) :=
  ofOp rfl rfl fun _ => AH.read_toBits .shf o
theorem shcp (o : AH) : Statement (.shcp o) :=
  ofOp rfl rfl fun _ => AH.read_toBits .shcp o
theorem ntq (o : AN) : Statement (.ntq o) :=
  ofOp rfl rfl fun _ => AN.read_toBits .ntq o
theorem rrbw (o : AN) : Statement (.rrbw o) :=
  ofOp rfl rfl fun _ => AN.read_toBits .rrbw o
theorem pstg (o : AN) : Statement (.pstg o) :=
  ofOp rfl rfl fun _ => AN.read_toBits .pstg o
theorem lcnt (o : AK) : Statement (.lcnt o) :=
  ofOp rfl rfl fun _ => AK.read_toBits .lcnt o
theorem lrept (o : AK) : Statement (.lrept o) :=
  ofOp rfl rfl fun _ => AK.read_toBits .lrept o
theorem vadd (u : VUnit) (o : V3) : Statement (.vadd u o) := by
  cases u <;> exact ofOp rfl rfl fun _ => V3.read_toBits (.vadd _) o
theorem vsub (u : VUnit) (o : V3) : Statement (.vsub u o) := by
  cases u <;> exact ofOp rfl rfl fun _ => V3.read_toBits (.vsub _) o
theorem vmul (u : VUnit) (o : V3) : Statement (.vmul u o) := by
  cases u <;> exact ofOp rfl rfl fun _ => V3.read_toBits (.vmul _) o
theorem vfma (u : VUnit) (o : V3) : Statement (.vfma u o) := by
  cases u <;> exact ofOp rfl rfl fun _ => V3.read_toBits (.vfma _) o
theorem vfms (u : VUnit) (o : V3) : Statement (.vfms u o) := by
  cases u <;> exact ofOp rfl rfl fun _ => V3.read_toBits (.vfms _) o
theorem vfnma (u : VUnit) (o : V3) : Statement (.vfnma u o) := by
  cases u <;> exact ofOp rfl rfl fun _ => V3.read_toBits (.vfnma _) o
theorem vmin (u : VUnit) (o : V3) : Statement (.vmin u o) := by
  cases u <;> exact ofOp rfl rfl fun _ => V3.read_toBits (.vmin _) o
theorem vmax (u : VUnit) (o : V3) : Statement (.vmax u o) := by
  cases u <;> exact ofOp rfl rfl fun _ => V3.read_toBits (.vmax _) o
theorem vabs (u : VUnit) (o : V3) : Statement (.vabs u o) := by
  cases u <;> exact ofOp rfl rfl fun _ => V3.read_toBits (.vabs _) o
theorem vneg (u : VUnit) (o : V3) : Statement (.vneg u o) := by
  cases u <;> exact ofOp rfl rfl fun _ => V3.read_toBits (.vneg _) o
theorem vrcp (u : VUnit) (o : V3) : Statement (.vrcp u o) := by
  cases u <;> exact ofOp rfl rfl fun _ => V3.read_toBits (.vrcp _) o
theorem vrsq (u : VUnit) (o : V3) : Statement (.vrsq u o) := by
  cases u <;> exact ofOp rfl rfl fun _ => V3.read_toBits (.vrsq _) o
theorem vsqrt (u : VUnit) (o : V3) : Statement (.vsqrt u o) := by
  cases u <;> exact ofOp rfl rfl fun _ => V3.read_toBits (.vsqrt _) o
theorem vexp2 (u : VUnit) (o : V3) : Statement (.vexp2 u o) := by
  cases u <;> exact ofOp rfl rfl fun _ => V3.read_toBits (.vexp2 _) o
theorem vlog2 (u : VUnit) (o : V3) : Statement (.vlog2 u o) := by
  cases u <;> exact ofOp rfl rfl fun _ => V3.read_toBits (.vlog2 _) o
theorem vcvt (u : VUnit) (o : VC) : Statement (.vcvt u o) := by
  cases u <;> exact ofOp rfl rfl fun _ => VC.read_toBits (.vcvt _) o
theorem vcmpeq (u : VUnit) (o : V3) : Statement (.vcmpeq u o) := by
  cases u <;> exact ofOp rfl rfl fun _ => V3.read_toBits (.vcmpeq _) o
theorem vcmplt (u : VUnit) (o : V3) : Statement (.vcmplt u o) := by
  cases u <;> exact ofOp rfl rfl fun _ => V3.read_toBits (.vcmplt _) o
theorem vcmple (u : VUnit) (o : V3) : Statement (.vcmple u o) := by
  cases u <;> exact ofOp rfl rfl fun _ => V3.read_toBits (.vcmple _) o
theorem vcmpun (u : VUnit) (o : V3) : Statement (.vcmpun u o) := by
  cases u <;> exact ofOp rfl rfl fun _ => V3.read_toBits (.vcmpun _) o
theorem vsel (u : VUnit) (o : V3) : Statement (.vsel u o) := by
  cases u <;> exact ofOp rfl rfl fun _ => V3.read_toBits (.vsel _) o
theorem vand (u : VUnit) (o : V3) : Statement (.vand u o) := by
  cases u <;> exact ofOp rfl rfl fun _ => V3.read_toBits (.vand _) o
theorem vor (u : VUnit) (o : V3) : Statement (.vor u o) := by
  cases u <;> exact ofOp rfl rfl fun _ => V3.read_toBits (.vor _) o
theorem vxor (u : VUnit) (o : V3) : Statement (.vxor u o) := by
  cases u <;> exact ofOp rfl rfl fun _ => V3.read_toBits (.vxor _) o
theorem vshl (u : VUnit) (o : V3) : Statement (.vshl u o) := by
  cases u <;> exact ofOp rfl rfl fun _ => V3.read_toBits (.vshl _) o
theorem vshr (u : VUnit) (o : V3) : Statement (.vshr u o) := by
  cases u <;> exact ofOp rfl rfl fun _ => V3.read_toBits (.vshr _) o
theorem vsar (u : VUnit) (o : V3) : Statement (.vsar u o) := by
  cases u <;> exact ofOp rfl rfl fun _ => V3.read_toBits (.vsar _) o
theorem vadds (u : VUnit) (o : V3) : Statement (.vadds u o) := by
  cases u <;> exact ofOp rfl rfl fun _ => V3.read_toBits (.vadds _) o
theorem vsubs (u : VUnit) (o : V3) : Statement (.vsubs u o) := by
  cases u <;> exact ofOp rfl rfl fun _ => V3.read_toBits (.vsubs _) o
theorem vmullo (u : VUnit) (o : V3) : Statement (.vmullo u o) := by
  cases u <;> exact ofOp rfl rfl fun _ => V3.read_toBits (.vmullo _) o
theorem vdot (u : VUnit) (o : V3) : Statement (.vdot u o) := by
  cases u <;> exact ofOp rfl rfl fun _ => V3.read_toBits (.vdot _) o
theorem vdota (u : VUnit) (o : V3) : Statement (.vdota u o) := by
  cases u <;> exact ofOp rfl rfl fun _ => V3.read_toBits (.vdota _) o
theorem vrsum (u : VUnit) (o : V3) : Statement (.vrsum u o) := by
  cases u <;> exact ofOp rfl rfl fun _ => V3.read_toBits (.vrsum _) o
theorem vrmax (u : VUnit) (o : V3) : Statement (.vrmax u o) := by
  cases u <;> exact ofOp rfl rfl fun _ => V3.read_toBits (.vrmax _) o
theorem vrmin (u : VUnit) (o : V3) : Statement (.vrmin u o) := by
  cases u <;> exact ofOp rfl rfl fun _ => V3.read_toBits (.vrmin _) o
theorem vbcast (u : VUnit) (o : VS) : Statement (.vbcast u o) := by
  cases u <;> exact ofOp rfl rfl fun _ => VS.read_toBits (.vbcast _) o
theorem vmovi (u : VUnit) (o : VI) : Statement (.vmovi u o) := by
  cases u <;> exact ofOp rfl rfl fun _ => VI.read_toBits (.vmovi _) o
theorem vmov (u : VUnit) (o : V3) : Statement (.vmov u o) := by
  cases u <;> exact ofOp rfl rfl fun _ => V3.read_toBits (.vmov _) o
theorem vidx (u : VUnit) (o : VI) : Statement (.vidx u o) := by
  cases u <;> exact ofOp rfl rfl fun _ => VI.read_toBits (.vidx _) o
theorem vclz (u : VUnit) (o : V3) : Statement (.vclz u o) := by
  cases u <;> exact ofOp rfl rfl fun _ => V3.read_toBits (.vclz _) o
theorem vpopc (u : VUnit) (o : V3) : Statement (.vpopc u o) := by
  cases u <;> exact ofOp rfl rfl fun _ => V3.read_toBits (.vpopc _) o
theorem vround (u : VUnit) (o : V3) : Statement (.vround u o) := by
  cases u <;> exact ofOp rfl rfl fun _ => V3.read_toBits (.vround _) o
theorem vclamp (u : VUnit) (o : V3) : Statement (.vclamp u o) := by
  cases u <;> exact ofOp rfl rfl fun _ => V3.read_toBits (.vclamp _) o
theorem vperm (o : VX) : Statement (.vperm o) :=
  ofOp rfl rfl fun _ => VX.read_toBits .vperm o
theorem vxgrp (o : VX) : Statement (.vxgrp o) :=
  ofOp rfl rfl fun _ => VX.read_toBits .vxgrp o
theorem vshuf (o : VX) : Statement (.vshuf o) :=
  ofOp rfl rfl fun _ => VX.read_toBits .vshuf o
theorem vpack (o : VC) : Statement (.vpack o) :=
  ofOp rfl rfl fun _ => VC.read_toBits .vpack o
theorem vunpk (o : VC) : Statement (.vunpk o) :=
  ofOp rfl rfl fun _ => VC.read_toBits .vunpk o
theorem qrd (o : VQ) : Statement (.qrd o) :=
  ofOp rfl rfl fun _ => VQ.read_toBits .qrd o
theorem sfeed (o : VF) : Statement (.sfeed o) :=
  ofOp rfl rfl fun _ => VF.read_toBits .sfeed o
theorem cmul (o : MC) : Statement (.cmul o) :=
  ofOp rfl rfl fun _ => MC.read_toBits .cmul o
theorem cmulc (o : MC) : Statement (.cmulc o) :=
  ofOp rfl rfl fun _ => MC.read_toBits .cmulc o
theorem cmulq (o : MC) : Statement (.cmulq o) :=
  ofOp rfl rfl fun _ => MC.read_toBits .cmulq o
theorem cmuli (o : MC) : Statement (.cmuli o) :=
  ofOp rfl rfl fun _ => MC.read_toBits .cmuli o
theorem cmula (o : MC) : Statement (.cmula o) :=
  ofOp rfl rfl fun _ => MC.read_toBits .cmula o
theorem qwr (o : MW) : Statement (.qwr o) :=
  ofOp rfl rfl fun _ => MW.read_toBits .qwr o
theorem qclr (o : MK) : Statement (.qclr o) :=
  ofOp rfl rfl fun _ => MK.read_toBits .qclr o
theorem qmov (o : MT) : Statement (.qmov o) :=
  ofOp rfl rfl fun _ => MT.read_toBits .qmov o
theorem qadd (o : MT) : Statement (.qadd o) :=
  ofOp rfl rfl fun _ => MT.read_toBits .qadd o
theorem qfill (o : MF) : Statement (.qfill o) :=
  ofOp rfl rfl fun _ => MF.read_toBits .qfill o
theorem qsave (o : MF) : Statement (.qsave o) :=
  ofOp rfl rfl fun _ => MF.read_toBits .qsave o
theorem qload (o : MF) : Statement (.qload o) :=
  ofOp rfl rfl fun _ => MF.read_toBits .qload o
theorem qthr (o : MH) : Statement (.qthr o) :=
  ofOp rfl rfl fun _ => MH.read_toBits .qthr o
theorem lds (o : LS) : Statement (.lds o) :=
  ofOp rfl rfl fun _ => LS.read_toBits .lds o
theorem sts (o : LS) : Statement (.sts o) :=
  ofOp rfl rfl fun _ => LS.read_toBits .sts o
theorem ldsv (o : LV) : Statement (.ldsv o) :=
  ofOp rfl rfl fun _ => LV.read_toBits .ldsv o
theorem stsv (o : LV) : Statement (.stsv o) :=
  ofOp rfl rfl fun _ => LV.read_toBits .stsv o
theorem ldg (o : LS) : Statement (.ldg o) :=
  ofOp rfl rfl fun _ => LS.read_toBits .ldg o
theorem stg (o : LS) : Statement (.stg o) :=
  ofOp rfl rfl fun _ => LS.read_toBits .stg o
theorem ldgv (o : LV) : Statement (.ldgv o) :=
  ofOp rfl rfl fun _ => LV.read_toBits .ldgv o
theorem stgv (o : LV) : Statement (.stgv o) :=
  ofOp rfl rfl fun _ => LV.read_toBits .stgv o
theorem stnt (o : LS) : Statement (.stnt o) :=
  ofOp rfl rfl fun _ => LS.read_toBits .stnt o
theorem stntv (o : LV) : Statement (.stntv o) :=
  ofOp rfl rfl fun _ => LV.read_toBits .stntv o
theorem lda (o : LR) : Statement (.lda o) :=
  ofOp rfl rfl fun _ => LR.read_toBits .lda o
theorem stl (o : LR) : Statement (.stl o) :=
  ofOp rfl rfl fun _ => LR.read_toBits .stl o
theorem rmws (o : LA) : Statement (.rmws o) :=
  ofOp rfl rfl fun _ => LA.read_toBits .rmws o
theorem atomg (o : LA) : Statement (.atomg o) :=
  ofOp rfl rfl fun _ => LA.read_toBits .atomg o
theorem atomn (o : LA) : Statement (.atomn o) :=
  ofOp rfl rfl fun _ => LA.read_toBits .atomn o
theorem acqb (o : LB) : Statement (.acqb o) :=
  ofOp rfl rfl fun _ => LB.read_toBits .acqb o
theorem relb (o : LB) : Statement (.relb o) :=
  ofOp rfl rfl fun _ => LB.read_toBits .relb o
theorem ldp (o : LS) : Statement (.ldp o) :=
  ofOp rfl rfl fun _ => LS.read_toBits .ldp o
theorem stp (o : LS) : Statement (.stp o) :=
  ofOp rfl rfl fun _ => LS.read_toBits .stp o
theorem gath (o : LG) : Statement (.gath o) :=
  ofOp rfl rfl fun _ => LG.read_toBits .gath o
theorem scat (o : LG) : Statement (.scat o) :=
  ofOp rfl rfl fun _ => LG.read_toBits .scat o
theorem ldk (o : LK) : Statement (.ldk o) :=
  ofOp rfl rfl fun _ => LK.read_toBits .ldk o
theorem pref (o : LS) : Statement (.pref o) :=
  ofOp rfl rfl fun _ => LS.read_toBits .pref o
theorem copy (o : XE) : Statement (.copy o) :=
  ofOp rfl rfl fun _ => XE.read_toBits .copy o
theorem subs (o : XE) : Statement (.subs o) :=
  ofOp rfl rfl fun _ => XE.read_toBits .subs o
theorem unsub (o : XE) : Statement (.unsub o) :=
  ofOp rfl rfl fun _ => XE.read_toBits .unsub o
theorem bara (o : XB) : Statement (.bara o) :=
  ofOp rfl rfl fun _ => XB.read_toBits .bara o
theorem barw (o : XB) : Statement (.barw o) :=
  ofOp rfl rfl fun _ => XB.read_toBits .barw o
theorem baraw (o : XB) : Statement (.baraw o) :=
  ofOp rfl rfl fun _ => XB.read_toBits .baraw o
theorem fput (o : XE) : Statement (.fput o) :=
  ofOp rfl rfl fun _ => XE.read_toBits .fput o
theorem fget (o : XE) : Statement (.fget o) :=
  ofOp rfl rfl fun _ => XE.read_toBits .fget o
theorem fred (o : XE) : Statement (.fred o) :=
  ofOp rfl rfl fun _ => XE.read_toBits .fred o
theorem cmo (o : XC) : Statement (.cmo o) :=
  ofOp rfl rfl fun _ => XC.read_toBits .cmo o
theorem rpub (o : XE) : Statement (.rpub o) :=
  ofOp rfl rfl fun _ => XE.read_toBits .rpub o
theorem rpop (o : XE) : Statement (.rpop o) :=
  ofOp rfl rfl fun _ => XE.read_toBits .rpop o
theorem smpBind (o : XS) : Statement (.smpBind o) :=
  ofOp rfl rfl fun _ => XS.read_toBits .smpBind o
theorem smpLoad (o : XS) : Statement (.smpLoad o) :=
  ofOp rfl rfl fun _ => XS.read_toBits .smpLoad o
theorem smpReset (o : XS) : Statement (.smpReset o) :=
  ofOp rfl rfl fun _ => XS.read_toBits .smpReset o
theorem smpMergeOut (o : XS) : Statement (.smpMergeOut o) := by
  refine ofOp rfl rfl fun h => (XS.read_toBits (fun o => if o.ctl.getLsbD 3 then .smpMergeIn o else .smpMergeOut o) o).trans ?_
  have e : o.ctl.getLsbD 3 = false := smp_merge o.ctl (by simp_all [Instr.wf, XS.ok])
  simp only [e]; rfl
theorem smpMergeIn (o : XS) : Statement (.smpMergeIn o) := by
  refine ofOp rfl rfl fun h => (XS.read_toBits (fun o => if o.ctl.getLsbD 3 then .smpMergeIn o else .smpMergeOut o) o).trans ?_
  have e : o.ctl.getLsbD 3 = true := by simp_all [Instr.wf, XS.ok]
  simp only [e]; rfl
theorem smpDraw (o : XS) : Statement (.smpDraw o) :=
  ofOp rfl rfl fun _ => XS.read_toBits .smpDraw o
theorem smpCommit (o : XS) : Statement (.smpCommit o) := by
  refine ofOp rfl rfl fun h => (XS.read_toBits (fun o => match (o.ctl.extractLsb' 3 2).toNat with | 0 => .smpCommit o | 1 => .smpCommitPend o | _ => .smpCommitSettle o) o).trans ?_
  have e := smp_commit0 o.ctl (by simp_all [Instr.wf, XS.ok])
  simp only [e]
theorem smpCommitPend (o : XS) : Statement (.smpCommitPend o) := by
  refine ofOp rfl rfl fun h => (XS.read_toBits (fun o => match (o.ctl.extractLsb' 3 2).toNat with | 0 => .smpCommit o | 1 => .smpCommitPend o | _ => .smpCommitSettle o) o).trans ?_
  have e := smp_commit1 o.ctl (by simp_all [Instr.wf, XS.ok]) (by simp_all [Instr.wf, XS.ok])
  simp only [e]
theorem smpCommitSettle (o : XS) : Statement (.smpCommitSettle o) := by
  refine ofOp rfl rfl fun h => (XS.read_toBits (fun o => match (o.ctl.extractLsb' 3 2).toNat with | 0 => .smpCommit o | 1 => .smpCommitPend o | _ => .smpCommitSettle o) o).trans ?_
  have e := smp_commit2 o.ctl (by simp_all [Instr.wf, XS.ok]) (by simp_all [Instr.wf, XS.ok])
  simp only [e]
theorem smpGreedy (o : XS) : Statement (.smpGreedy o) :=
  ofOp rfl rfl fun _ => XS.read_toBits .smpGreedy o
theorem smpThr (o : XS) : Statement (.smpThr o) :=
  ofOp rfl rfl fun _ => XS.read_toBits .smpThr o
theorem smpFlush (o : XS) : Statement (.smpFlush o) :=
  ofOp rfl rfl fun _ => XS.read_toBits .smpFlush o
theorem bflip : Statement .bflip := ofOp rfl rfl fun _ => rfl
theorem lgnop : Statement .lgnop := by
  refine ofLogit rfl rfl ?_
  simp [decodeLogit, logitWord_op, logitWord_d, logitWord_a, logitWord_b]
  exact logitWord_m7ff ..
theorem lgmov (d : BitVec 3) (a : BitVec 3) : Statement (.lgmov d a) := by
  refine ofLogit rfl rfl ?_
  simp [decodeLogit, logitWord_op, logitWord_d, logitWord_a, logitWord_b]
  exact logitWord_m1f ..
theorem lgadd (d : BitVec 3) (a : BitVec 3) (b : BitVec 3) : Statement (.lgadd d a b) := by
  refine ofLogit rfl rfl ?_
  simp [decodeLogit, logitWord_op, logitWord_d, logitWord_a, logitWord_b, logitWord_m3]
theorem lgsub (d : BitVec 3) (a : BitVec 3) (b : BitVec 3) : Statement (.lgsub d a b) := by
  refine ofLogit rfl rfl ?_
  simp [decodeLogit, logitWord_op, logitWord_d, logitWord_a, logitWord_b, logitWord_m3]
theorem lgmul (d : BitVec 3) (a : BitVec 3) (b : BitVec 3) : Statement (.lgmul d a b) := by
  refine ofLogit rfl rfl ?_
  simp [decodeLogit, logitWord_op, logitWord_d, logitWord_a, logitWord_b, logitWord_m3]
theorem lgfma (d : BitVec 3) (a : BitVec 3) (b : BitVec 3) : Statement (.lgfma d a b) := by
  refine ofLogit rfl rfl ?_
  simp [decodeLogit, logitWord_op, logitWord_d, logitWord_a, logitWord_b, logitWord_m3]
theorem lgmin (d : BitVec 3) (a : BitVec 3) (b : BitVec 3) : Statement (.lgmin d a b) := by
  refine ofLogit rfl rfl ?_
  simp [decodeLogit, logitWord_op, logitWord_d, logitWord_a, logitWord_b, logitWord_m3]
theorem lgmax (d : BitVec 3) (a : BitVec 3) (b : BitVec 3) : Statement (.lgmax d a b) := by
  refine ofLogit rfl rfl ?_
  simp [decodeLogit, logitWord_op, logitWord_d, logitWord_a, logitWord_b, logitWord_m3]
theorem lgneg (d : BitVec 3) (a : BitVec 3) : Statement (.lgneg d a) := by
  refine ofLogit rfl rfl ?_
  simp [decodeLogit, logitWord_op, logitWord_d, logitWord_a, logitWord_b]
  exact logitWord_m1f ..
theorem lgrcp (d : BitVec 3) (a : BitVec 3) : Statement (.lgrcp d a) := by
  refine ofLogit rfl rfl ?_
  simp [decodeLogit, logitWord_op, logitWord_d, logitWord_a, logitWord_b]
  exact logitWord_m1f ..
theorem lgcst (d : BitVec 3) (c : BitVec 3) : Statement (.lgcst d c) := by
  refine ofLogit rfl rfl ?_
  simp [decodeLogit, logitWord_op, logitWord_d, logitWord_a, logitWord_b]
  exact logitWord_m1f ..
theorem lgimm (d : BitVec 3) (imm : BitVec 8) : Statement (.lgimm d imm) := by
  refine ofLogit rfl rfl ?_
  have h1 : (0x0B#5 ++ d ++ imm : BitVec 16).extractLsb' 11 5 = 0x0B#5 := by
    apply BitVec.eq_of_getLsbD_eq; intro i hi; simp [hi] <;> grind
  have h2 : (0x0B#5 ++ d ++ imm : BitVec 16).extractLsb' 8 3 = d := by
    apply BitVec.eq_of_getLsbD_eq; intro i hi; simp [hi] <;> grind
  have h3 : (0x0B#5 ++ d ++ imm : BitVec 16).extractLsb' 0 8 = imm := by
    apply BitVec.eq_of_getLsbD_eq; intro i hi; simp [hi] <;> grind
  simp [decodeLogit, h1, h2, h3]
theorem lgcnt (d : BitVec 3) : Statement (.lgcnt d) := by
  refine ofLogit rfl rfl ?_
  simp [decodeLogit, logitWord_op, logitWord_d, logitWord_a, logitWord_b]
  exact logitWord_mff ..
theorem lgbias (d : BitVec 3) : Statement (.lgbias d) := by
  refine ofLogit rfl rfl ?_
  simp [decodeLogit, logitWord_op, logitWord_d, logitWord_a, logitWord_b]
  exact logitWord_mff ..
theorem lgban (d : BitVec 3) : Statement (.lgban d) := by
  refine ofLogit rfl rfl ?_
  simp [decodeLogit, logitWord_op, logitWord_d, logitWord_a, logitWord_b]
  exact logitWord_mff ..
theorem lgtok (d : BitVec 3) : Statement (.lgtok d) := by
  refine ofLogit rfl rfl ?_
  simp [decodeLogit, logitWord_op, logitWord_d, logitWord_a, logitWord_b]
  exact logitWord_mff ..
theorem lgsel (d : BitVec 3) (a : BitVec 3) (b : BitVec 3) : Statement (.lgsel d a b) := by
  refine ofLogit rfl rfl ?_
  simp [decodeLogit, logitWord_op, logitWord_d, logitWord_a, logitWord_b, logitWord_m3]
theorem lgcgt (a : BitVec 3) (b : BitVec 3) : Statement (.lgcgt a b) := by
  refine ofLogit rfl rfl ?_
  simp [decodeLogit, logitWord_op, logitWord_d, logitWord_a, logitWord_b]
  exact logitWord_m703 ..
theorem lgcge (a : BitVec 3) (b : BitVec 3) : Statement (.lgcge a b) := by
  refine ofLogit rfl rfl ?_
  simp [decodeLogit, logitWord_op, logitWord_d, logitWord_a, logitWord_b]
  exact logitWord_m703 ..
theorem lgceq (a : BitVec 3) (b : BitVec 3) : Statement (.lgceq a b) := by
  refine ofLogit rfl rfl ?_
  simp [decodeLogit, logitWord_op, logitWord_d, logitWord_a, logitWord_b]
  exact logitWord_m703 ..
theorem lgkeep : Statement .lgkeep := by
  refine ofLogit rfl rfl ?_
  simp [decodeLogit, logitWord_op, logitWord_d, logitWord_a, logitWord_b]
  exact logitWord_m7ff ..
theorem lgdrop : Statement .lgdrop := by
  refine ofLogit rfl rfl ?_
  simp [decodeLogit, logitWord_op, logitWord_d, logitWord_a, logitWord_b]
  exact logitWord_m7ff ..
theorem lgmaxv (d : BitVec 3) : Statement (.lgmaxv d) := by
  refine ofLogit rfl rfl ?_
  simp [decodeLogit, logitWord_op, logitWord_d, logitWord_a, logitWord_b]
  exact logitWord_mff ..
theorem lgout (a : BitVec 3) : Statement (.lgout a) := by
  refine ofLogit rfl rfl ?_
  simp [decodeLogit, logitWord_op, logitWord_d, logitWord_a, logitWord_b]
  exact logitWord_m71f ..
theorem registerWrite (f : Fn) (c : Csr) (i : Nat) (v : BitVec 128) : Statement (.registerWrite f c i v) := ofEvent rfl rfl
theorem laneGroupLoss (pr : Fin 2) (g : Fin 2) : Statement (.laneGroupLoss pr g) := ofEvent rfl rfl
theorem pairLinkLoss (pr : Fin 2) : Statement (.pairLinkLoss pr) := ofEvent rfl rfl
theorem crossLinkLoss (a : Die) (b : Die) : Statement (.crossLinkLoss a b) := ofEvent rfl rfl
theorem commitHeartbeat (d : Die) (h : Heartbeat) : Statement (.commitHeartbeat d h) := ofEvent rfl rfl
theorem heartbeatAck (d : Die) (stream : Nat) (period : Nat) : Statement (.heartbeatAck d stream period) := ofEvent rfl rfl
theorem heartbeatRelay (via : Die) (dst : Die) (m : PairMsg) : Statement (.heartbeatRelay via dst m) := ofEvent rfl rfl
theorem levelChangeMessage (d : Die) (session : Fin 256) (level : Fin 4) (tick : Nat) : Statement (.levelChangeMessage d session level tick) := ofEvent rfl rfl
theorem checkTick (d : Die) (stream : Nat) (period : Nat) : Statement (.checkTick d stream period) := ofEvent rfl rfl
theorem thermalSample (d : Die) (temp : Nat) : Statement (.thermalSample d temp) := ofEvent rfl rfl
theorem freezeTimeout (d : Die) : Statement (.freezeTimeout d) := ofEvent rfl rfl
theorem dieStopDetect (d : Die) : Statement (.dieStopDetect d) := ofEvent rfl rfl
theorem clusterGate (c : Cluster) : Statement (.clusterGate c) := ofEvent rfl rfl
theorem wakeComplete (c : Cluster) : Statement (.wakeComplete c) := ofEvent rfl rfl
theorem linkTrainingDone (p : Port) (partner : Bool) (map : List (BitVec 8)) : Statement (.linkTrainingDone p partner map) := ofEvent rfl rfl
theorem retrain (f : Fn) (p : Port) (v : BitVec 64) : Statement (.retrain f p v) := ofEvent rfl rfl
theorem fabFrameBoundary : Statement .fabFrameBoundary := ofEvent rfl rfl
theorem fabSlot (p : Port) : Statement (.fabSlot p) := ofEvent rfl rfl
theorem flitReceive (p : Port) (crcOk : Bool) (fl : Flit) : Statement (.flitReceive p crcOk fl) := ofEvent rfl rfl
theorem replayRequest (p : Port) (flit : Nat) : Statement (.replayRequest p flit) := ofEvent rfl rfl
theorem laneLockLoss (p : Port) : Statement (.laneLockLoss p) := ofEvent rfl rfl
theorem retrainComplete (p : Port) (map : Option (List (BitVec 8))) : Statement (.retrainComplete p map) := ofEvent rfl rfl
theorem fabAccessArrive (a : RemoteAccess) : Statement (.fabAccessArrive a) := ofEvent rfl rfl
theorem fabResponse (id : Nat) (st : RespStatus) (data : List Byte) : Statement (.fabResponse id st data) := ofEvent rfl rfl
theorem fabTimeout (id : Nat) : Statement (.fabTimeout id) := ofEvent rfl rfl
theorem fabBarrierArrival (bar : Fin 256) (child : Fin 64) : Statement (.fabBarrierArrival bar child) := ofEvent rfl rfl
theorem fabBarrierRelease (bar : Fin 256) : Statement (.fabBarrierRelease bar) := ofEvent rfl rfl
theorem allreduceContribution (bar : Fin 256) (level : Fin 4) (die : Die) (src : Nat) (data : List Byte) : Statement (.allreduceContribution bar level die src data) := ofEvent rfl rfl
theorem allreduceResult (bar : Fin 256) (data : List Byte) : Statement (.allreduceResult bar data) := ofEvent rfl rfl
theorem fabWinWrite (f : Fn) (w : Fin 64) (v : BitVec 128) : Statement (.fabWinWrite f w v) := ofEvent rfl rfl
theorem bwsFabInWrite (f : Fn) (n : Fin 128) (v : BitVec 64) : Statement (.bwsFabInWrite f n v) := ofEvent rfl rfl
theorem sensorToken (d : Die) (m : SensorMsg) : Statement (.sensorToken d m) := ofEvent rfl rfl
theorem unsupportedRequest (d : Die) (source : Nat) : Statement (.unsupportedRequest d source) := ofEvent rfl rfl
theorem uudTimeout (d : Die) (ring : Fin 512) : Statement (.uudTimeout d ring) := ofEvent rfl rfl
theorem ringPublish (d : Die) (w : RingPut) : Statement (.ringPublish d w) := ofEvent rfl rfl
theorem actionChunk (d : Die) (task : Nat) : Statement (.actionChunk d task) := ofEvent rfl rfl
theorem ckptGo (f : Fn) (d : Die) (v : BitVec 64) : Statement (.ckptGo f d v) := ofEvent rfl rfl
theorem ckptDone (d : Die) : Statement (.ckptDone d) := ofEvent rfl rfl
theorem ckptFault (d : Die) (sector : Nat) : Statement (.ckptFault d sector) := ofEvent rfl rfl
theorem ptpMessage (m : PtpMsg) : Statement (.ptpMessage m) := ofEvent rfl rfl
theorem ptpSecondBoundary : Statement .ptpSecondBoundary := ofEvent rfl rfl
theorem lockwaitExpire : Statement .lockwaitExpire := ofEvent rfl rfl
theorem holdmaxExpire : Statement .holdmaxExpire := ofEvent rfl rfl
theorem masterLost : Statement .masterLost := ofEvent rfl rfl
theorem ethLinkDown (p : EthPort) : Statement (.ethLinkDown p) := ofEvent rfl rfl
theorem ptcStep (f : Fn) (v : BitVec 64) : Statement (.ptcStep f v) := ofEvent rfl rfl
theorem ptcTimeLoRead (f : Fn) : Statement (.ptcTimeLoRead f) := ofEvent rfl rfl
theorem launchPush (f : Fn) (d : Die) (block : Option (BitVec 512)) : Statement (.launchPush f d block) := ofEvent rfl rfl
theorem hostSignal (f : Fn) (i : Fin 64) (v : Word) : Statement (.hostSignal f i v) := ofEvent rfl rfl
theorem signalDeferredStore (core : Core) (ctx : Fin 8) : Statement (.signalDeferredStore core ctx) := ofEvent rfl rfl
theorem prtOwnershipWrite (f : Fn) (ways : Bool) (p : Part) (v : BitVec 128) : Statement (.prtOwnershipWrite f ways p v) := ofEvent rfl rfl
theorem prtScrubDone (p : Part) : Statement (.prtScrubDone p) := ofEvent rfl rfl
theorem vfFlr (p : Part) : Statement (.vfFlr p) := ofEvent rfl rfl
theorem prtResetGo (f : Fn) (p : Part) (v : BitVec 64) : Statement (.prtResetGo f p v) := ofEvent rfl rfl
theorem pfFlr : Statement .pfFlr := ofEvent rfl rfl
theorem resetStop (p : Part) : Statement (.resetStop p) := ofEvent rfl rfl
theorem resetScrub (p : Part) : Statement (.resetScrub p) := ofEvent rfl rfl
theorem resetRelease (p : Part) : Statement (.resetRelease p) := ofEvent rfl rfl
theorem powerOnReset : Statement .powerOnReset := ofEvent rfl rfl
theorem startStepPass (d : Die) (step : Fin 11) : Statement (.startStepPass d step) := ofEvent rfl rfl
theorem startStepFail (d : Die) (code : BitVec 16) : Statement (.startStepFail d code) := ofEvent rfl rfl
theorem startStepTimeout (d : Die) : Statement (.startStepTimeout d) := ofEvent rfl rfl
theorem sjRestart (f : Fn) (v : BitVec 64) : Statement (.sjRestart f v) := ofEvent rfl rfl
theorem sjClear (f : Fn) (v : BitVec 64) : Statement (.sjClear f v) := ofEvent rfl rfl
theorem sjImgGo (f : Fn) (v : BitVec 64) : Statement (.sjImgGo f v) := ofEvent rfl rfl
theorem sjImgDone (ok : Bool) : Statement (.sjImgDone ok) := ofEvent rfl rfl
theorem attGo (f : Fn) (p : Part) (v : BitVec 64) : Statement (.attGo f p v) := ofEvent rfl rfl
theorem attReport (p : Part) : Statement (.attReport p) := ofEvent rfl rfl
theorem spdmRequest (f : Fn) : Statement (.spdmRequest f) := ofEvent rfl rfl
theorem snpTrig (f : Fn) (v : BitVec 64) : Statement (.snpTrig f v) := ofEvent rfl rfl
theorem snapInEdge : Statement .snapInEdge := ofEvent rfl rfl
theorem snpLatch : Statement .snpLatch := ofEvent rfl rfl
theorem snapOutEnd : Statement .snapOutEnd := ofEvent rfl rfl
theorem snpArm (f : Fn) (v : BitVec 64) : Statement (.snpArm f v) := ofEvent rfl rfl
theorem streamRegister (f : Fn) (d : Die) (p : Part) (v : BitVec 128) : Statement (.streamRegister f d p v) := ofEvent rfl rfl
theorem admissionComplete (d : Die) : Statement (.admissionComplete d) := ofEvent rfl rfl
theorem streamDeregister (f : Fn) (d : Die) (p : Part) (v : BitVec 128) : Statement (.streamDeregister f d p v) := ofEvent rfl rfl
theorem timerRelease (d : Die) (stream : Fin 1024) : Statement (.timerRelease d stream) := ofEvent rfl rfl
theorem taskReady (t : Nat) : Statement (.taskReady t) := ofEvent rfl rfl
theorem taskLaunch (t : Nat) : Statement (.taskLaunch t) := ofEvent rfl rfl
theorem deadlineAbort (t : Nat) : Statement (.deadlineAbort t) := ofEvent rfl rfl
theorem holdBudgetExhausted (t : Nat) : Statement (.holdBudgetExhausted t) := ofEvent rfl rfl
theorem taskCommit (t : Nat) : Statement (.taskCommit t) := ofEvent rfl rfl
theorem dlsSesFloorWrite (f : Fn) (d : Die) (session : Fin 256) (v : BitVec 64) : Statement (.dlsSesFloorWrite f d session v) := ofEvent rfl rfl
theorem admGrpWrite (f : Fn) (d : Die) (g : Fin 96) (v : BitVec 64) : Statement (.admGrpWrite f d g v) := ofEvent rfl rfl
theorem bwsFrameCfgWrite (f : Fn) (j : Stack) (v : BitVec 64) : Statement (.bwsFrameCfgWrite f j v) := ofEvent rfl rfl
theorem bwsFrameBoundary (j : Stack) : Statement (.bwsFrameBoundary j) := ofEvent rfl rfl
theorem bwsSlot (j : Stack) : Statement (.bwsSlot j) := ofEvent rfl rfl
theorem prtMemOwnWrite (f : Fn) (b : Fin 512) (v : BitVec 64) : Statement (.prtMemOwnWrite f b v) := ofEvent rfl rfl
theorem prtMemOwnDone (b : Fin 512) : Statement (.prtMemOwnDone b) := ofEvent rfl rfl
theorem prtLock (f : Fn) (d : Die) (p : Fin 16) (i : Fin 16) (v : BitVec 128) : Statement (.prtLock f d p i v) := ofEvent rfl rfl
theorem prtLockDone (d : Die) (p : Fin 16) (i : Fin 16) : Statement (.prtLockDone d p i) := ofEvent rfl rfl
theorem prtUnlock (f : Fn) (d : Die) (p : Fin 16) (i : Fin 16) (v : BitVec 128) : Statement (.prtUnlock f d p i v) := ofEvent rfl rfl
theorem tlbi (f : Fn) (p : Part) (v : BitVec 128) : Statement (.tlbi f p v) := ofEvent rfl rfl
theorem tlbiDone (p : Part) : Statement (.tlbiDone p) := ofEvent rfl rfl
theorem tableWalkDone (d : Die) (walk : Nat) : Statement (.tableWalkDone d walk) := ofEvent rfl rfl
theorem l1ModeWrite (f : Fn) (c : Cluster) (v : BitVec 64) : Statement (.l1ModeWrite f c v) := ofEvent rfl rfl
theorem l1ModeDone (c : Cluster) : Statement (.l1ModeDone c) := ofEvent rfl rfl
theorem loadDataLand (load : Nat) : Statement (.loadDataLand load) := ofEvent rfl rfl
theorem rhizoidTile (j : Stack) (sub : Nat) : Statement (.rhizoidTile j sub) := ofEvent rfl rfl
theorem subscriptionGrant (j : Stack) : Statement (.subscriptionGrant j) := ofEvent rfl rfl
theorem atomicGroup (word : Nat) (interval : Nat) : Statement (.atomicGroup word interval) := ofEvent rfl rfl
theorem wcbDrain (core : Core) (buf : Fin 16) : Statement (.wcbDrain core buf) := ofEvent rfl rfl
theorem bundleSend (t : Nat) : Statement (.bundleSend t) := ofEvent rfl rfl
theorem emptyBundle (t : Nat) : Statement (.emptyBundle t) := ofEvent rfl rfl
theorem holdEnd (t : Nat) : Statement (.holdEnd t) := ofEvent rfl rfl
theorem contextEligible (t : Nat) : Statement (.contextEligible t) := ofEvent rfl rfl
theorem icacheFill (c : Cluster) (part : Part) (line : Nat) : Statement (.icacheFill c part line) := ofEvent rfl rfl
theorem writeLanding (core : Core) (ctx : Fin 8) (cyc : Nat) (ph : LandPhase) : Statement (.writeLanding core ctx cyc ph) := ofEvent rfl rfl
theorem drainEnd (t : Nat) : Statement (.drainEnd t) := ofEvent rfl rfl
theorem restore (t : Nat) : Statement (.restore t) := ofEvent rfl rfl
theorem svcResume (f : Fn) (d : Die) (p : Part) (v : BitVec 64) : Statement (.svcResume f d p v) := ofEvent rfl rfl
theorem svcAbort (f : Fn) (d : Die) (p : Part) (v : BitVec 64) : Statement (.svcAbort f d p v) := ofEvent rfl rfl
theorem dstSvcCfgWrite (f : Fn) (d : Die) (p : Part) (v : BitVec 128) : Statement (.dstSvcCfgWrite f d p v) := ofEvent rfl rfl
theorem dstSaveBaseWrite (f : Fn) (d : Die) (p : Part) (v : BitVec 64) : Statement (.dstSaveBaseWrite f d p v) := ofEvent rfl rfl
theorem machineCheck (d : Die) (cause : BitVec 8) (target : McTarget) : Statement (.machineCheck d cause target) := ofEvent rfl rfl
theorem correctedError (d : Die) : Statement (.correctedError d) := ofEvent rfl rfl
theorem tgWalkResume (c : Cluster) (walk : Nat) : Statement (.tgWalkResume c walk) := ofEvent rfl rfl
theorem sisterReport (launch : Nat) (rank : Fin 4) (ok : Bool) : Statement (.sisterReport launch rank ok) := ofEvent rfl rfl
theorem rplArm (f : Fn) (c : Cluster) (v : BitVec 64) : Statement (.rplArm f c v) := ofEvent rfl rfl
theorem rplPassEnd (t : Nat) : Statement (.rplPassEnd t) := ofEvent rfl rfl
theorem ecntClr (f : Fn) (n : Fin 3072) (v : BitVec 64) : Statement (.ecntClr f n v) := ofEvent rfl rfl
theorem engineStart (cmd : Nat) : Statement (.engineStart cmd) := ofEvent rfl rfl
theorem copySector (cmd : Nat) : Statement (.copySector cmd) := ofEvent rfl rfl
theorem copyComplete (cmd : Nat) : Statement (.copyComplete cmd) := ofEvent rfl rfl
theorem barrierRelease (inst : Nat) : Statement (.barrierRelease inst) := ofEvent rfl rfl
theorem cmoComplete (cmd : Nat) : Statement (.cmoComplete cmd) := ofEvent rfl rfl
theorem samplerOpBegin (core : Core) : Statement (.samplerOpBegin core) := ofEvent rfl rfl
theorem samplerOpLand (core : Core) : Statement (.samplerOpLand core) := ofEvent rfl rfl
theorem bbtEdit (f : Fn) (d : Die) (p : Part) (v : BitVec 64) : Statement (.bbtEdit f d p v) := ofEvent rfl rfl
theorem bflipPerform (d : Die) (p : Part) : Statement (.bflipPerform d p) := ofEvent rfl rfl
theorem bflipReplayDone (d : Die) (p : Part) : Statement (.bflipReplayDone d p) := ofEvent rfl rfl
theorem pairLinkReturn (pr : Fin 2) (g : Option (Fin 2)) : Statement (.pairLinkReturn pr g) := ofEvent rfl rfl
theorem ethLinkUp (p : EthPort) : Statement (.ethLinkUp p) := ofEvent rfl rfl
theorem powerLoss : Statement .powerLoss := ofEvent rfl rfl
theorem twaitTickReached (t : Nat) : Statement (.twaitTickReached t) := ofEvent rfl rfl
theorem drainBoundExceeded (t : Nat) : Statement (.drainBoundExceeded t) := ofEvent rfl rfl
theorem rmaWriteAcknowledged (cmd : Nat) (sectors : Nat) (ok : Bool) : Statement (.rmaWriteAcknowledged cmd sectors ok) := ofEvent rfl rfl
theorem storeAcknowledged (id : Nat) : Statement (.storeAcknowledged id) := ofEvent rfl rfl

end Sys2Proof.Laws.RoundTrip
end

