-- ==== Sys2Proof/Laws/Step.lean ====
section
/-! SUPPORT. What a step runs, and that the shorter dispatchers run what `exec` runs. -/

namespace Sys2Proof.Machine

/-- What is due on the agenda runs as the instruction of its name. -/
theorem runEv_eq_exec (e : Ev) (i : Instr) (s : State) (h : e.names i) : runEv e s = exec i s := by
  cases e <;> first | exact False.elim h | (subst h; rfl)

/-- What the control core runs ahead is what the cores run. -/
theorem slotOp_eq_exec (i : Instr) (s : State) (h : (encodeOp i).isSome = true) : slotOp i s = exec i s := by
  cases i <;> first | exact absurd h Bool.false_ne_true | rfl

/-- A logit program in work runs its next instruction. -/
theorem step_logit (s : State) (w : BitVec 16) (l : List (BitVec 16)) (i : Instr) (h : s.lg.active = true)
    (hp : s.lg.prog.drop s.lg.pos = w :: l) (hd : decodeLogit w = .ok i) :
    step s = exec i { s with lg := { s.lg with pos := s.lg.pos + 1 } } := by
  simp [step, State.fetch, h, hp, hd]

/-- A slot operation waiting in the cycle's queue runs when its guard is true. -/
theorem step_op (s : State) (op : SlotOp) (l : List SlotOp) (h : s.lg.active = false) (hq : s.issueQ = op :: l)
    (hg : State.guardTrue { s with issueQ := l, env := { s.env with slot := op.slot } } op = true) :
    step s = exec op.instr { s with issueQ := l, env := { s.env with slot := op.slot } } := by
  simp [step, State.fetch, h, hq, hg]

/-- A slot operation whose guard is false has no effect but its count. -/
theorem step_guardedOff (s : State) (op : SlotOp) (l : List SlotOp) (h : s.lg.active = false) (hq : s.issueQ = op :: l)
    (hg : State.guardTrue { s with issueQ := l, env := { s.env with slot := op.slot } } op = false) :
    step s = .next (State.guardedOff { s with issueQ := l, env := { s.env with slot := op.slot } }) := by
  simp [step, State.fetch, h, hq, hg]

/-- What is due first runs once its time has come, unless it is a release that commits of the tick come before. -/
theorem step_event (s : State) (d : Due) (l : List Due) (h : s.lg.active = false) (hq : s.issueQ = [])
    (ha : s.agenda = d :: l) (ht : d.time ≤ s.now) (hp : d.phase < phReady ∨ s.unsettled = false) :
    step s = runEv d.ev { s with agenda := l, env := d.env, issueQ := d.ops } := by
  have hp : ¬(phReady ≤ d.phase ∧ s.unsettled = true) := by
    rintro ⟨h1, h2⟩
    rcases hp with hp | hp
    · exact absurd h1 (Nat.not_le.2 hp)
    · simp [hp] at h2
  simp [step, State.fetch, h, hq, ha, ht, hp]

/-- The commits of a tick and the lowerings that they bring come before its releases (R117, R127). -/
theorem step_settle (s : State) (d : Due) (l : List Due) (h : s.lg.active = false) (hq : s.issueQ = [])
    (ha : s.agenda = d :: l) (ht : d.time ≤ s.now) (hp : phReady ≤ d.phase) (hu : s.unsettled = true) :
    step s = .next s.settle := by
  simp [step, State.fetch, h, hq, ha, ht, hp, hu]

/-- With nothing due, the tick ends. -/
theorem step_endTick (s : State) (h : s.lg.active = false) (hq : s.issueQ = []) (ha : ∀ d ∈ s.agenda.head?, s.now < d.time) :
    step s = .next s.endTick := by
  cases e : s.agenda with
  | nil => simp [step, State.fetch, h, hq, e]
  | cons d l =>
    have : s.now < d.time := ha d (by simp [e])
    simp [step, State.fetch, h, hq, e, Nat.not_le.2 this]

end Sys2Proof.Machine
end

