-- ==== Sys2Proof/Laws/Vector.lean ====
section
/-! SUPPORT. Vector forms element by element: what the shared forms of slots 3 and 4 give for element e. -/

namespace Sys2Proof.Machine

/-- Element e of a vector of elements of w bits (R300). -/
def elem (w : Nat) (v : Vec) (e : Nat) : Nat := bits v.toNat (w * e + w - 1) (w * e)

theorem elems_eq (w : Nat) (v : Vec) : elems w v = (List.range (4096 / w)).map (elem w v) := rfl

/-- Elements listed by index. -/
theorem gather_range (w : Nat) (g : Nat → Elem) :
    gather w ((List.range (4096 / w)).map g) =
      (tabulate w fun e => (g e).1, (List.range (4096 / w)).foldl (fun f e => f ||| (g e).2) 0) := by
  simp [gather, tabulate, List.map_map, List.foldl_map]; rfl

theorem zip2_eq (w : Nat) (a b : Vec) (f : Nat → Nat → Elem) :
    zip2 w a b f = gather w ((List.range (4096 / w)).map fun e => f (elem w a e) (elem w b e)) := by
  simp only [zip2, elems_eq, List.zip_map', List.map_map]; rfl

theorem zip3_eq (w : Nat) (a b d : Vec) (f : Nat → Nat → Nat → Elem) :
    zip3 w a b d f = gather w ((List.range (4096 / w)).map fun e => f (elem w a e) (elem w b e) (elem w d e)) := by
  simp only [zip3, elems_eq, List.zip_map', List.map_map]; rfl

theorem map1_eq (w : Nat) (a : Vec) (f : Nat → Elem) :
    map1 w a f = gather w ((List.range (4096 / w)).map fun e => f (elem w a e)) := by
  simp only [map1, elems_eq, List.map_map]; rfl

/-- An element read by index, also beyond the vector. -/
theorem elems_getD (w : Nat) (v : Vec) (e : Nat) (hd : w ∣ 4096) : (elems w v).getD e 0 = elem w v e := by
  rw [elems_eq, List.getD_eq_getElem?_getD, List.getElem?_map]
  by_cases h : e < 4096 / w
  · simp [h]
  · have h2 : 4096 ≤ w * e := by
      have := Nat.mul_le_mul_left w (Nat.le_of_not_lt h)
      rwa [Nat.mul_div_cancel' hd] at this
    have h3 : v.toNat / 2 ^ (w * e) = 0 :=
      Nat.div_eq_of_lt (Nat.lt_of_lt_of_le v.isLt (Nat.pow_le_pow_right (by decide) h2))
    simp [h, elem, bits, h3]

end Sys2Proof.Machine
end

