-- ==== Sys2Proof/Tests/Slice0.lean ====
section
/-! SUPPORT. Tests: the well-formedness checks refuse, words of the spec's encodings decode, worked examples of the spec come out, and the hypotheses of every statement are met. Expected values stand in the rules cited or are computed from them by hand. -/

namespace Sys2Proof.Tests

set_option Elab.async false

open Sys2Proof Sys2Proof.Machine Sys2Proof.Spec

/-- The next state of an outcome. -/
def out (o : Host.Outcome State Fault Refusal) : State := match o with | .next s => s | _ => {}
/-- Whether an outcome is a next state. -/
def isNext (o : Host.Outcome State Fault Refusal) : Bool := match o with | .next _ => true | _ => false
/-- A kernel header (R179): a mode, a team of one, all banks named, 1 tree entry, 1 buffer ring, 4 word tests, 2 copy
descriptors, 4 barriers, 2 fabric buffers, and a kind of level 0. -/
def hdrOf (mode kind : Nat) : List Byte :=
  natLe 128 (mode * 2 ^ 16 + 2 ^ 24 + 0xFFFF * 2 ^ 192 + 4 * 2 ^ 208 + 2 ^ 224 + 2 * 2 ^ 240 + 4 * 2 ^ 256 + 2 * 2 ^ 272 + 2 ^ 384 +
    kind * 2 ^ (512 + 62))
/-- A task running on core 0, context 0. -/
def task0 : Task :=
  { team := 1, st := .running, run := .sending, started := true, cls := 2, occ := true, hdr := hdrOf 0 0, btt := List.replicate 32 0 }
/-- The module after power-on with that task, a partition of 4,096 bytes of scratchpad and the tick running, in team cycle
10. -/
def base : State :=
  { State.reset with
    tasks := [(1, task0)], banks := [(0, { spadSize := 4096 })], env := { task := 1, cyc := 10, lc := 10 }, now := 100, tickBase := some 0 }
/-- The same with registers in the context's bank. -/
def withRegs (l : List (Nat × Word)) : State := { base with banks := [(0, { spadSize := 4096, s := l })] }
/-- The writes on their way, by offset from the operation's cycle. -/
def writes (o : Host.Outcome State Fault Refusal) : List (Nat × Write) := ((out o).bank 0).pend.map fun l => (l.due - 10, l.w)

/-! ## Well-formedness: a term for each check of WellFormed, which the check refuses -/

theorem test_wf_lrep : Instr.wf (.lrep ⟨0x80⟩) = false := by decide
theorem test_wf_fence : Instr.wf (.fence ⟨1, 0, 0⟩) = false ∧ Instr.wf (.fence ⟨0, 1, 0⟩) = false ∧ Instr.wf (.fence ⟨0, 0, 7⟩) = false := by
  decide
theorem test_wf_await : Instr.wf (.await ⟨1, 2, 7⟩) = false ∧ Instr.wf (.waita ⟨1, 2, 7⟩) = false := by decide
theorem test_wf_twait : Instr.wf (.twait ⟨1, 1, 0⟩) = false ∧ Instr.wf (.twait ⟨1, 0, 1⟩) = false := by decide
theorem test_wf_bypassed_source : Instr.wf (.add ⟨1, 2, 3, 1⟩) = false ∧ Instr.wf (.aadd ⟨1, 2, 3, 1⟩) = false ∧
    Instr.wf (.cmpeq ⟨1, 2, 3, 1⟩) = false := by decide
theorem test_wf_no_second_source : Instr.wf (.clz ⟨1, 2, 3, 0⟩) = false ∧ Instr.wf (.popc ⟨1, 2, 0, 1⟩) = false ∧
    Instr.wf (.amov ⟨1, 2, 3, 0⟩) = false := by decide
theorem test_wf_ext_type : Instr.wf (.ext ⟨1, 2, 8⟩) = false := by decide
theorem test_wf_srd_selector : Instr.wf (.srd ⟨1, 0x0E⟩) = false ∧ Instr.wf (.srd ⟨1, 0x14⟩) = false := by decide
theorem test_wf_replay : Instr.wf (.lcnt ⟨4, 1, 0⟩) = false ∧ Instr.wf (.lrept ⟨1, 1, 32⟩) = false := by decide
theorem test_wf_shapes : Instr.wf (.shf ⟨3, 0, 0, 1⟩) = false ∧ Instr.wf (.shf ⟨0, 0, 15, 1⟩) = false ∧ Instr.wf (.shcp ⟨3, 0, 0, 0⟩) = false ∧
    Instr.wf (.shcp ⟨0, 0, 1, 0⟩) = false ∧ Instr.wf (.shcp ⟨0, 0, 0, 1⟩) = false := by decide
theorem test_wf_counts : Instr.wf (.ntq ⟨2⟩) = false ∧ Instr.wf (.rrbw ⟨16⟩) = false := by decide
theorem test_wf_vector_types : Instr.wf (.vadd .v0 ⟨1, 2, 3, 0, 0⟩) = false ∧ Instr.wf (.vmul .v0 ⟨1, 2, 3, 2, 0⟩) = false ∧
    Instr.wf (.vand .v0 ⟨1, 2, 3, 8, 0⟩) = false ∧ Instr.wf (.vrcp .v0 ⟨1, 2, 0, 2, 0⟩) = false ∧ Instr.wf (.vclz .v0 ⟨1, 2, 0, 8, 0⟩) = false := by
  decide
theorem test_wf_vector_sources : Instr.wf (.vadd .v0 ⟨1, 2, 3, 8, 1⟩) = false ∧ Instr.wf (.vabs .v0 ⟨1, 2, 3, 8, 0⟩) = false ∧
    Instr.wf (.vabs .v0 ⟨1, 2, 0, 8, 1⟩) = false := by decide
theorem test_wf_conversions : Instr.wf (.vcvt .v0 ⟨1, 2, 8, 9, 0⟩) = false ∧ Instr.wf (.vcvt .v0 ⟨1, 2, 8, 2, 1⟩) = false ∧
    Instr.wf (.vpack ⟨1, 3, 8, 9, 0⟩) = false ∧ Instr.wf (.vpack ⟨1, 2, 8, 9, 1⟩) = false ∧ Instr.wf (.vpack ⟨1, 2, 9, 8, 0⟩) = false ∧
    Instr.wf (.vunpk ⟨1, 2, 9, 8, 0⟩) = false ∧ Instr.wf (.vunpk ⟨2, 2, 9, 8, 1⟩) = false ∧ Instr.wf (.vunpk ⟨2, 2, 8, 9, 0⟩) = false := by decide
theorem test_wf_vector_immediates : Instr.wf (.vbcast .v0 ⟨1, 2, 0⟩) = false ∧ Instr.wf (.vmovi .v0 ⟨1, 2, 10⟩) = false ∧
    Instr.wf (.vidx .v0 ⟨1, 2, 8⟩) = false := by decide
theorem test_wf_permutes : Instr.wf (.vperm ⟨1, 2, 0x80, 0⟩) = false ∧ Instr.wf (.vperm ⟨1, 2, 0x20, 0⟩) = false ∧
    Instr.wf (.vshuf ⟨1, 2, 0x10, 0⟩) = false ∧ Instr.wf (.vshuf ⟨1, 2, 0x1C1, 0⟩) = false ∧ Instr.wf (.vxgrp ⟨1, 2, 8, 0⟩) = false ∧
    Instr.wf (.vxgrp ⟨1, 2, 0x181, 0⟩) = false ∧ Instr.wf (.vxgrp ⟨1, 2, 0, 1⟩) = false := by decide
theorem test_wf_qrd_sfeed : Instr.wf (.qrd ⟨1, 1, 0, 0, 1⟩) = false ∧ Instr.wf (.qrd ⟨1, 0, 1, 0, 1⟩) = false ∧
    Instr.wf (.sfeed ⟨1, 8, 0⟩) = false ∧ Instr.wf (.sfeed ⟨1, 0x2000, 0⟩) = false ∧ Instr.wf (.sfeed ⟨1, 0x10, 0⟩) = false ∧
    Instr.wf (.sfeed ⟨1, 0, 1⟩) = false := by decide
theorem test_wf_cube : Instr.wf (.cmul ⟨0, 0, 0, 0, 0, 0x10⟩) = false ∧ Instr.wf (.cmulc ⟨0, 0, 0, 0, 0, 1⟩) = false ∧
    Instr.wf (.cmulq ⟨0, 0, 1, 0, 0, 0⟩) = false ∧ Instr.wf (.cmula ⟨0, 0, 0, 0, 0, 1⟩) = false ∧ Instr.wf (.qthr ⟨1, 3⟩) = false := by decide
theorem test_wf_scratchpad : Instr.wf (.lds ⟨1, 2, 8, 0⟩) = false ∧ Instr.wf (.sts ⟨1, 2, 0, 1⟩) = false ∧ Instr.wf (.ldsv ⟨1, 2, 3, 0⟩) = false ∧
    Instr.wf (.ldsv ⟨1, 2, 8, 1⟩) = false ∧ Instr.wf (.ldp ⟨1, 2, 0, 0⟩) = false ∧ Instr.wf (.stp ⟨0, 2, 1, 0⟩) = false ∧
    Instr.wf (.rmws ⟨1, 2, 9, 0⟩) = false ∧ Instr.wf (.relb ⟨1, 0⟩) = false ∧ Instr.wf (.gath ⟨1, 2, 3, 1⟩) = false := by decide
theorem test_wf_global : Instr.wf (.ldg ⟨1, 2, 8, 0⟩) = false ∧ Instr.wf (.stg ⟨1, 2, 0, 1⟩) = false ∧ Instr.wf (.ldgv ⟨1, 2, 13, 0⟩) = false ∧
    Instr.wf (.stgv ⟨1, 2, 8, 1⟩) = false ∧ Instr.wf (.lda ⟨1, 2, 0, 7⟩) = false ∧ Instr.wf (.stl ⟨1, 2, 8, 0⟩) = false ∧
    Instr.wf (.pref ⟨1, 2, 0, 0⟩) = false ∧ Instr.wf (.pref ⟨0, 2, 1, 0⟩) = false ∧ Instr.wf (.atomg ⟨1, 2, 9, 0⟩) = false := by decide
theorem test_wf_engines : Instr.wf (.copy ⟨0, 0, 1, 2, 0x10⟩) = false ∧ Instr.wf (.subs ⟨0, 0, 1, 2, 0⟩) = false ∧
    Instr.wf (.rpub ⟨0, 0, 1, 0, 0x10⟩) = false ∧ Instr.wf (.unsub ⟨0, 0, 1, 0, 0⟩) = false ∧ Instr.wf (.fred ⟨0, 0, 1, 0, 1⟩) = false ∧
    Instr.wf (.fred ⟨0, 0, 1, 1, 0⟩) = false ∧ Instr.wf (.barw ⟨0, 0, 1⟩) = false ∧ Instr.wf (.cmo ⟨1, 2, 3, 0⟩) = false ∧
    Instr.wf (.cmo ⟨1, 2, 0, 3⟩) = false := by decide
theorem test_wf_sampler : Instr.wf (.smpBind ⟨1, 1, 0⟩) = false ∧ Instr.wf (.smpBind ⟨1, 0, 8⟩) = false ∧ Instr.wf (.smpLoad ⟨1, 1, 0⟩) = false ∧
    Instr.wf (.smpReset ⟨1, 0, 0⟩) = false ∧ Instr.wf (.smpThr ⟨0, 0, 16⟩) = false ∧ Instr.wf (.smpMergeOut ⟨1, 0, 8⟩) = false ∧
    Instr.wf (.smpMergeIn ⟨1, 0, 0⟩) = false ∧ Instr.wf (.smpDraw ⟨1, 1, 8⟩) = false ∧ Instr.wf (.smpGreedy ⟨1, 1, 0⟩) = false ∧
    Instr.wf (.smpCommit ⟨1, 1, 8⟩) = false ∧ Instr.wf (.smpCommitPend ⟨0, 1, 0⟩) = false ∧ Instr.wf (.smpCommitSettle ⟨0, 1, 0⟩) = false := by
  decide
theorem test_wf_register_index : Instr.wf (.registerWrite 0 .PTC_CFG 1 0) = false := by decide

/-! ## Decoding: words written out from the encodings (R247, R248, R253, R254, R365) -/

theorem test_decode_br : decodeSlotWord 0 0b00000000000111111111111111110101#32 = .ok (0, .br ⟨-11⟩) := by rfl
theorem test_decode_lend : decodeSlotWord 0 0b00010000011101111111111111111101#32 = .ok (2, .lend ⟨1, -3⟩) := by rfl
theorem test_decode_brr : decodeSlotWord 0 0b00000000001010111000000000000000#32 = .ok (0, .brr ⟨46⟩) := by rfl
theorem test_decode_trap : decodeSlotWord 0 0b00000000101100000000000010100101#32 = .ok (0, .trap ⟨0xA5⟩) := by rfl
theorem test_decode_await : decodeSlotWord 0 0b00000000111000110000101100000101#32 = .ok (0, .await ⟨12, 11, 5⟩) := by rfl
theorem test_decode_fmtw : decodeSlotWord 0 0b00000000110000100100010000000101#32 = .ok (0, .fmtw ⟨9, 0x405⟩) := by rfl
theorem test_decode_subn : decodeSlotWord 1 0b10100000001000000100001000000010#32 = .ok (20, .sub ⟨1, 2, 0, 1⟩) := by rfl
theorem test_decode_movhi : decodeSlotWord 1 0b00000010001000011011000000000001#32 = .ok (0, .movhi ⟨6, 0x3001⟩) := by rfl
theorem test_decode_cmplen : decodeSlotWord 1 0b00000001111001000000010000100000#32 = .ok (0, .cmplen ⟨4, 1, 2, 0⟩) := by rfl
theorem test_decode_sel : decodeSlotWord 1 0b00000001111100000100001010010000#32 = .ok (0, .sel ⟨1, 2, 9⟩) := by rfl
theorem test_decode_plog : decodeSlotWord 1 0b00000010001100010010001101100000#32 = .ok (0, .plog ⟨1, 2, 3, 6⟩) := by rfl
theorem test_decode_ext : decodeSlotWord 1 0b00000001100000000100001001010000#32 = .ok (0, .ext ⟨1, 2, 5⟩) := by rfl
theorem test_decode_srd : decodeSlotWord 1 0b00000010010000000100000000010011#32 = .ok (0, .srd ⟨1, 0x13⟩) := by rfl
theorem test_decode_lset : decodeSlotWord 2 0b00000000000111000110000000000000#32 = .ok (0, .lset ⟨3, 6⟩) := by rfl
theorem test_decode_kadd : decodeSlotWord 2 0b00000000001111000001111111111011#32 = .ok (0, .kadd ⟨12, 7, -5⟩) := by rfl
theorem test_decode_shf : decodeSlotWord 2 0b00000000101110011110000110000000#32 = .ok (0, .shf ⟨2, 1, 14, 6⟩) := by rfl
theorem test_decode_pstg : decodeSlotWord 2 0b00000000111100000000000011000011#32 = .ok (0, .pstg ⟨0xC3⟩) := by rfl
theorem test_decode_vfnma : decodeSlotWord 3 0b00000000011001000010010101010100#32 = .ok (0, .vfnma .v0 ⟨8, 9, 10, 10, 0⟩) := by rfl
theorem test_decode_vcvt : decodeSlotWord 4 0b00000001000000001000101000011000#32 = .ok (0, .vcvt .v1 ⟨1, 2, 8, 6, 0⟩) := by rfl
theorem test_decode_vbcast : decodeSlotWord 4 0b00000010010000001101000000010000#32 = .ok (0, .vbcast .v1 ⟨1, 40, 8⟩) := by rfl
theorem test_decode_vmovi : decodeSlotWord 3 0b00000010010100001111111111000100#32 = .ok (0, .vmovi .v0 ⟨1, -2, 2⟩) := by rfl
theorem test_decode_vshuf : decodeSlotWord 4 0b00000100001000001000100110001010#32 = .ok (0, .vshuf ⟨1, 2, 0x0C5, 0⟩) := by rfl
theorem test_decode_qrd : decodeSlotWord 4 0b00000100010100011010001011000000#32 = .ok (0, .qrd ⟨3, 4, 5, 1, 0⟩) := by rfl
theorem test_decode_sfeed : decodeSlotWord 4 0b00000100011000001000000000000110#32 = .ok (0, .sfeed ⟨1, 3, 0⟩) := by rfl
theorem test_decode_cmul : decodeSlotWord 5 0b00000000000111110010101100001110#32 = .ok (0, .cmul ⟨3, 1, 2, 5, 6, 0x0E⟩) := by rfl
theorem test_decode_qwr : decodeSlotWord 5 0b00000000011000111001000111000000#32 = .ok (0, .qwr ⟨7, 2, 3, 1⟩) := by rfl
theorem test_decode_qclr : decodeSlotWord 5 0b00000000011110011000000000000001#32 = .ok (0, .qclr ⟨9, 0x8001⟩) := by rfl
theorem test_decode_qadd : decodeSlotWord 5 0b00000000100100010010001101000000#32 = .ok (0, .qadd ⟨1, 2, 3, 4⟩) := by rfl
theorem test_decode_qsave : decodeSlotWord 5 0b00000000101101010000110100000000#32 = .ok (0, .qsave ⟨20, 3, 4⟩) := by rfl
theorem test_decode_qthr : decodeSlotWord 5 0b00000000110101010010000000000000#32 = .ok (0, .qthr ⟨20, 2⟩) := by rfl
theorem test_decode_ldg : decodeSlotWord 6 0b00000000010100100000011101110110#32 = .ok (0, .ldg ⟨8, 7, 7, 3⟩) := by rfl
theorem test_decode_ldsv : decodeSlotWord 6 0b00000000001100010001110011000000#32 = .ok (0, .ldsv ⟨2, 14, 6, 0⟩) := by rfl
theorem test_decode_stl : decodeSlotWord 6 0b00000000110000100000011100111100#32 = .ok (0, .stl ⟨8, 7, 3, 6⟩) := by rfl
theorem test_decode_atomn : decodeSlotWord 6 0b00000000111100011000000110001000#32 = .ok (0, .atomn ⟨6, 1, 8, 1⟩) := by rfl
theorem test_decode_acqb : decodeSlotWord 6 0b00000001000000011000000010000001#32 = .ok (0, .acqb ⟨6, 0x81⟩) := by rfl
theorem test_decode_gath : decodeSlotWord 6 0b00000001010000001000100000111000#32 = .ok (0, .gath ⟨1, 2, 3, 8⟩) := by rfl
theorem test_decode_ldk : decodeSlotWord 6 0b00000001011011010010010000000000#32 = .ok (0, .ldk ⟨13, 9⟩) := by rfl
theorem test_decode_copy : decodeSlotWord 7 0b00000000000101100101000101101111#32 = .ok (0, .copy ⟨1, 1, 10, 11, 0x0F⟩) := by rfl
theorem test_decode_baraw : decodeSlotWord 7 0b00000000011011010000100010010000#32 = .ok (0, .baraw ⟨3, 0x42, 9⟩) := by rfl
theorem test_decode_cmo : decodeSlotWord 7 0b00000000101000000100001010010000#32 = .ok (0, .cmo ⟨1, 2, 2, 1⟩) := by rfl
theorem test_decode_smpDraw : decodeSlotWord 7 0b00000001010000010000010100000110#32 = .ok (0, .smpDraw ⟨4, 5, 6⟩) := by rfl
theorem test_decode_smpMergeIn : decodeSlotWord 7 0b00000001001100010000000000001011#32 = .ok (0, .smpMergeIn ⟨4, 0, 0x0B⟩) := by rfl
theorem test_decode_smpSettle : decodeSlotWord 7 0b00000001010100010000010100010010#32 = .ok (0, .smpCommitSettle ⟨4, 5, 0x12⟩) := by rfl
/-- A logit word: opcode 15:11, d 10:8, a 7:5, b 4:2 (R365): LGFMA e1,e2,e3. -/
theorem test_decode_logit : decodeLogit 0x294C#16 = .ok (.lgfma 1 2 3) := by rfl
/-- A guard above 20 is reserved (R248). -/
theorem test_decode_reserved_guard : (decodeSlotWord 1 0xA8000000#32).isOk = false := by rfl
/-- Opcodes that a slot's map does not assign (R254). -/
theorem test_decode_reserved_opcodes : (decodeSlotWord 0 0x01200000#32).isOk = false ∧ (decodeSlotWord 1 0x02500000#32).isOk = false ∧
    (decodeSlotWord 3 0x04000000#32).isOk = false ∧ (decodeSlotWord 7 0x00D00000#32).isOk = false := ⟨rfl, rfl, rfl, rfl⟩
/-- A zero field that holds a one (R253). -/
theorem test_decode_zero_fields : (decodeSlotWord 0 0x00900001#32).isOk = false ∧ (decodeSlotWord 5 0x00600001#32).isOk = false := ⟨rfl, rfl⟩

/-! ## Worked examples of the spec and corners -/

/-- R16, R271: BR −11 at 0x8000 goes 44 bytes back. -/
theorem test_br : ((out (exec (.br ⟨-11⟩) { base with env := { base.env with pc := 0x8000 } })).task 1).pc = 0x7FD4 := by decide +kernel
/-- R289: an operand that is also the destination is read before it. -/
theorem test_add_wraps : writes (exec (.add ⟨4, 4, 4, 0⟩) (withRegs [(4, 0x8000000000000001)])) = [(1, .bs 2), (1, .s 4 2)] := by decide +kernel
/-- R289: the high half of −1 × −1, signed and unsigned. -/
theorem test_mulh : writes (exec (.mulh ⟨5, 4, 4, 0⟩) (withRegs [(4, -1)])) = [(3, .bs 0), (4, .s 5 0)] := by decide +kernel
theorem test_mulhn : writes (exec (.mulhn ⟨5, 4, 4, 0⟩) (withRegs [(4, -1)])) = [(3, .bs (-2)), (4, .s 5 (-2))] := by decide +kernel
/-- R290: the four corners of division. -/
theorem test_div_zero : writes (exec (.div ⟨5, 4, 3, 0⟩) (withRegs [(4, 7)])) = [(17, .bs (-1)), (18, .s 5 (-1)), (18, .flags 2 0 0)] := by decide +kernel
theorem test_div_least : writes (exec (.div ⟨5, 4, 3, 0⟩) (withRegs [(3, -1), (4, 0x8000000000000000)])) =
    [(17, .bs 0x8000000000000000), (18, .s 5 0x8000000000000000), (18, .flags 96 0 0)] := by decide +kernel
theorem test_rem_least : writes (exec (.rem ⟨5, 4, 3, 0⟩) (withRegs [(3, -1), (4, 0x8000000000000000)])) = [(17, .bs 0), (18, .s 5 0)] := by decide +kernel
theorem test_rem_negative : writes (exec (.rem ⟨5, 4, 3, 0⟩) (withRegs [(3, 2), (4, -7)])) = [(17, .bs (-1)), (18, .s 5 (-1))] := by decide +kernel
/-- R291: an even destination has a complement beside it; the pair of p0 keeps it alone. -/
theorem test_cmplt : writes (exec (.cmplt ⟨8, 4, 3, 0⟩) (withRegs [(4, -1)])) = [(1, .p 8 true), (1, .p 9 false)] := by decide +kernel
theorem test_cmplt_p0 : writes (exec (.cmplt ⟨0, 4, 3, 0⟩) (withRegs [(4, -1)])) = [(1, .p 1 false)] := by decide +kernel
/-- R292: MOVHI shifts by 14 and inserts; EXT sign-extends 16 bits. -/
theorem test_movhi : writes (exec (.movhi ⟨6, 0x3FFF⟩) (withRegs [(6, 1)])) = [(1, .bs 0x7FFF), (1, .s 6 0x7FFF)] := by decide +kernel
theorem test_ext : writes (exec (.ext ⟨6, 6, 1⟩) (withRegs [(6, 0x18000)])) = [(1, .bs 0xFFFFFFFFFFFF8000), (1, .s 6 0xFFFFFFFFFFFF8000)] := by decide +kernel
/-- R294: AIDX adds 256 times b. -/
theorem test_aidx : writes (exec (.aidx ⟨6, 6, 5, 0⟩) (withRegs [(5, 3), (6, 0x1000)])) = [(1, .s 6 0x1300)] := by decide +kernel
/-- R269, R250: s0 discards. -/
theorem test_s0 : writes (exec (.aaddi ⟨0, 6, 1⟩) base) = [] := by decide +kernel
/-- R318: VFMA.f32 of 2.0, 3.0 and 1.0 shows 7.0 in bv0 at offset 3 and lands it at 4, lane by lane. -/
theorem test_vfma : ((writes (exec (.vfma .v0 ⟨8, 9, 10, 8, 0⟩) { base with banks := [(0, { v := [(8, 0x3F800000), (9, 0x40000000), (10, 0x40400000)] })] })) =
    [(3, .bv 0 0x40E00000), (4, .v 8 0x40E00000)]) := by decide +kernel
/-- R240: the total alone is clamped: 32,131, and 64,516 to 32,767 with the overflow. -/
theorem test_vdot : writes (exec (.vdot .v1 ⟨4, 5, 6, 1, 0⟩) { base with banks := [(0, { v := [(5, 0x807F7F7F), (6, 0x7F7F7F7F)] })] }) =
    [(3, .bv 1 0x7D83), (4, .v 4 0x7D83)] := by decide +kernel
theorem test_vdot_clamps : writes (exec (.vdot .v1 ⟨4, 5, 6, 1, 0⟩) { base with banks := [(0, { v := [(5, 0x7F7F7F7F), (6, 0x7F7F7F7F)] })] }) =
    [(3, .bv 1 0x7FFF), (4, .v 4 0x7FFF), (4, .flags flTrapInt 0 0)] := by decide +kernel
/-- R225: the FP32 value 0x3F88_0008 to E4M3 directly, and to FP16 to odd and to nearest even. -/
theorem test_round_e4m3 : (roundFp (fp32.val 0x3F880008) (tyFmt 11) .rne false).1 = 0x39 := by decide +kernel
theorem test_round_fp16 : (roundFp (fp32.val 0x3F880008) fp16 .rto false).1 = 0x3C41 ∧ (roundFp (fp32.val 0x3F880008) fp16 .rne false).1 = 0x3C40 := by
  decide +kernel
/-- R337: 3.75 is 0x4070_0000. -/
theorem test_encode : (roundFp (FpVal.add (FpVal.ofInt 3) (fp32.val 0x3F400000)) fp32 .rne false).1 = 0x40700000 := by decide +kernel
/-- R376 with a counter and a key of zero: the first word of Philox-4x32-10. -/
theorem test_philox : (philox (0, 0, 0, 0) (0, 0)).1 = 0x6627E8D5 := by decide +kernel
/-- R346: signed and unsigned extremes differ at the sign. -/
theorem test_atomic_min : applyAtomic 4 32 0xFFFFFFFF 1 = 0xFFFFFFFF ∧ applyAtomic 6 32 0xFFFFFFFF 1 = 1 := by decide +kernel
theorem test_atomic_add : applyAtomic 0 32 0xFFFFFFFF 2 = 1 := by decide +kernel
/-- R274: the first valid test that holds; without one, the number of valid tests. -/
theorem test_tree_path : treePath [0x81, 0x92, 0x80] (fun n => n = 1) = 0 ∧ treePath [0x81, 0x92, 0x80] (fun n => n = 2) = 3 ∧
    treePath [0x81, 0x92, 0x80] (fun _ => false) = 1 := by decide +kernel
/-- R234: sint(0xFF) × sint(0x02) = −2 in an INT8 cell. -/
theorem test_int8_cell : (({ prof := 0x020, fmt := 0x44 } : CubeOp).cell [(0xFF, 0x02, 0)] 0 0).x = 0xFFFFFFFE := by decide +kernel
/-- R74: with S = 5,000,000,000 ns at tick 20,000,000,000 and INCR 2^46, the release is tick 20,000,480,000 and the deadline
20,007,600,000. -/
theorem test_time_to_tick : ∀ s : State, s = { State.reset with now := 20000000000, tickBase := some 0, ptp := { s := 5000000000, t := 20000000000 } } →
    s.timeToTick 5000120000 true = 20000480000 ∧ s.timeToTick 5001900000 false = 20007600000 := by rintro _ rfl; decide +kernel
/-- R366: LGMAX of the default NaN and a number is the number; LGIMM holds −1 as 0xBF80_0000. -/
theorem test_lgimm : ((out (exec (.lgimm 1 0xFF) base)).lg.e.look 1) = 0xBF800000 := by decide +kernel
theorem test_lgmax : ((out (exec (.lgmax 1 2 3) { base with lg := { e := [(2, 0x7FC00000), (3, 0x3F800000)] } })).lg.e.look 1) = 0x3F800000 := by decide +kernel
/-- R278: a plain loop at its last count falls through with 0. -/
theorem test_lend_last : writes (exec (.lend ⟨0, -3⟩) { base with banks := [(0, { k := [(0, 1)] })] }) = [(1, .k 0 0)] := by decide +kernel
/-- R279: PSTG SLV 3, EC 3: STG in bit 12, SLV in 11:10, EC in 9:4. -/
theorem test_pstg : writes (exec (.pstg ⟨0xC3⟩) base) = [(1, .rrb 0x1FF0 0x1C30)] := by decide +kernel
/-- R81: PRT_RESET with GO sets RST. -/
theorem test_reset_command : ((out (exec (.prtResetGo 0 3 1) State.reset)).getF PRT_STAT.RST 3) = 1 := by decide +kernel

/-! ## Witnesses: for every statement with hypotheses, states and operands that meet them, clause by clause -/

/-- Two pages of partition 0 in the translations locked on die 0: a cacheable one at 0x20000 and an uncached one at
0x40000. -/
def locked : List Xlate := [⟨0, 0x20000, 16, 0x10001D⟩, ⟨0, 0x40000, 16, 0x20003D⟩]
/-- The task with those pages, s1 at the cacheable one, s2 at the uncached one, and s3 at the end of its scratchpad
partition. -/
def mapped : State :=
  { base with
    banks := [(0, { spadSize := 4096, s := [(1, 0x20000), (2, 0x40000), (3, 4095), (4, 3584), (5, 3072)] })], dies := [(0, { lockArr := locked })] }

theorem witness_StepRuns_slot : ∀ op : SlotOp, op = ⟨1, 0, .movi ⟨6, 1⟩⟩ → ({ base with issueQ := [op] } : State).lg.active = false ∧ base.guardTrue op = true ∧
    base.guardTrue { op with guard := 1 } = false := by rintro _ rfl; decide +kernel
theorem witness_StepRuns_logit : decodeLogit 0x6900#16 = .ok (.lgbias 1) ∧ [0x6900#16].drop 0 = 0x6900#16 :: [] := ⟨rfl, rfl⟩
theorem witness_StepRuns_event : ∀ d : Due, d = { time := 100, phase := 0, seq := 0, ev := .bundleSend 1 } → d.time ≤ base.now ∧ d.ev.names (.bundleSend 1) ∧
    base.issueQ = [] ∧ base.lg.active = false := by rintro _ rfl; exact ⟨by decide, rfl, rfl, rfl⟩
theorem witness_StepRuns_tick : base.lg.active = false ∧ base.issueQ = [] ∧ (∀ d ∈ base.agenda.head?, base.now < d.time) := by decide +kernel
theorem witness_ScalarArithmetic : ∀ o : S3, o = ⟨4, 63, 0, 1⟩ → (o.ba = 0 ∨ o.b = 0) := by rintro _ rfl; decide
theorem witness_ScalarArithmetic_one_source : ∀ o : S3, o = ⟨63, 4, 0, 0⟩ → (o.ba = 0 ∨ o.b = 0) ∧ o.ba = 0 ∧ o.b = 0 := by rintro _ rfl; decide
theorem witness_ScalarDivision : ∀ o : S3, o = ⟨5, 4, 3, 0⟩ → (o.ba = 0 ∨ o.b = 0) ∧ (withRegs [(4, 7)]).sv o.b = 0 ∧ (withRegs [(3, 1)]).sv o.b ≠ 0 ∧
    ((withRegs [(3, -1), (4, 0x8000000000000000)]).sv o.a = 0x8000000000000000#64 ∧ (withRegs [(3, -1), (4, 0x8000000000000000)]).sv o.b = -1#64) ∧
    ¬((withRegs [(3, -1), (4, 0x8000000000000001)]).sv o.a = 0x8000000000000000#64) := by rintro _ rfl; decide +kernel
theorem witness_ScalarCompares : ∀ o : SP, o = ⟨15, 4, 0, 1⟩ → (o.ba = 0 ∨ o.b = 0) := by rintro _ rfl; decide
theorem witness_ScalarMoves : (⟨1, 2, 7⟩ : SX).ty.toNat ≤ 7 ∧ (⟨1, 0x0D⟩ : SV).sel.toNat ≤ 0x0D ∧ (0x10 ≤ (⟨1, 0x13⟩ : SV).sel.toNat ∧ (⟨1, 0x13⟩ : SV).sel.toNat ≤ 0x13) := by
  decide
theorem witness_AddressForms : ∀ o : S3, o = ⟨4, 4, 0, 0⟩ → (o.ba = 0 ∨ o.b = 0) ∧ o.ba = 0 ∧ o.b = 0 := by rintro _ rfl; decide
theorem witness_CountRegisters : (base.cur.loopKind 0 ≠ 1 ∧ base.cur.loopKind 0 ≠ 2) ∧ (base.cur.loopKind 3 ≠ 1 ∧ base.cur.loopKind 3 ≠ 2) ∧
    4 ≤ (⟨4, 0, 0⟩ : AK).k.toNat := by decide +kernel
theorem witness_CountRegisters_spatial : ({ base with tasks := [(1, { task0 with hdr := hdrOf 0 1 })] } : State).cur.loopKind 0 = 1 ∧
    ({ base with tasks := [(1, { task0 with hdr := hdrOf 0 2 })] } : State).cur.loopKind 0 = 2 ∧ (⟨0, 0⟩ : LK).k.toNat < 4 := by decide +kernel
theorem witness_ShapesAndReplayState : (⟨2, 3, 14, 6⟩ : AH).eng ≠ 3 ∧ (⟨2, 3, 14, 6⟩ : AH).field ≠ 15 ∧ ((⟨2, 3, 0, 0⟩ : AH).field = 0 ∧ (⟨2, 3, 0, 0⟩ : AH).a = 0) ∧
    (⟨15⟩ : AN).n.toNat < 16 ∧ (⟨3, 0, 0⟩ : AK).k.toNat ≤ 3 ∧ (⟨15, 0, 31⟩ : AK).imm.toNat < 32 ∧ (⟨1⟩ : AN).n.toNat ≤ 1 := by decide
theorem witness_Transfers : base.env.idx = 0 := rfl
theorem witness_BranchTree : (⟨0⟩ : CT).n.toNat < base.cur.hdrNat 48 2 ∧ base.cur.hdrNat 48 2 ≤ (⟨1⟩ : CT).n.toNat ∧ base.env.idx = 0 ∧
    base.measured base.env.task = false ∧ ({ base with env := { base.env with idx := 1 } } : State).env.idx ≠ 0 := by decide +kernel
/-- A staged loop of level 1 with an epilogue count. -/
def staged (n ec : Nat) : State := { base with banks := [(0, { k := [(1, BitVec.ofNat 64 n)], rrb := BitVec.ofNat 64 (0x1400 + 16 * ec) })] }
theorem witness_LoopEnd : (base.cur.loopKind 1 ≠ 1 ∧ base.cur.loopKind 1 ≠ 2) ∧
    (1 < ((staged 2 0).mine.k.look 1).toNat ∧ (staged 2 0).mine.rrb.getLsbD 12 = true ∧ bits (staged 2 0).mine.rrb.toNat 11 10 = 1) ∧
    (((staged 1 1).mine.k.look 1).toNat ≤ 1 ∧ (staged 1 1).mine.rrb.getLsbD 12 = true ∧ 0 < bits (staged 1 1).mine.rrb.toNat 9 4) ∧
    (((staged 1 0).mine.k.look 1).toNat ≤ 1 ∧ bits (staged 1 0).mine.rrb.toNat 9 4 = 0) ∧ bits (staged 1 0).mine.rrb.toNat 11 10 ≠ 0 := by
  decide +kernel
theorem witness_LoopEnd_spatial : ({ base with tasks := [(1, { task0 with hdr := hdrOf 0 1 })] } : State).cur.loopKind 0 = 1 := by decide +kernel
theorem witness_ReplayBlock : (⟨127⟩ : CT).n.toNat < 128 ∧ base.env.idx = 0 ∧ base.cur.rblock = none ∧
    ({ base with tasks := [(1, { task0 with rblock := some (0, 1, 1), rpass := [0] })] } : State).cur.rblock ≠ none := by decide +kernel
theorem witness_FencesAndWaits : ((⟨0, 0, 6⟩ : CW).a = 0 ∧ (⟨0, 0, 6⟩ : CW).b = 0 ∧ (⟨0, 0, 6⟩ : CW).scope ≠ 7) ∧
    (mapped.finding (mapped.awaitCheck true ⟨1, 2, 0⟩)).1 = 0 ∧
    (∀ s : State, s = withRegs [(1, 0x8000000000000FF8)] → (s.finding (s.awaitCheck false ⟨1, 2, 0⟩)).1 = 0 ∧ s.env.probe = false) := by
  refine ⟨by decide, by decide +kernel, ?_⟩; rintro _ rfl; decide +kernel
/-- A fence of a core that has a store unacknowledged, and of one that has nothing on its way. -/
theorem witness_FencesAndWaits_release : ∀ (s t : State), s = { base with stores := [(1, { id := 1, n := 1 })] } →
    t = (((s.issued1 0).releaseActs 0 0 0 6).acquireActs 0 0 6).acquireLater 0 0 6 → s.env.core = 0 ∧ s.env.ctx = 0 ∧ s.cur.part = 0 ∧ t.releaseWaits 0 0 6 = true ∧
    (((base.issued1 0).releaseActs 0 0 0 6).acquireActs 0 0 6).acquireLater 0 0 6 = base.issued1 0 ∧ (base.issued1 0).releaseWaits 0 0 6 = false ∧ (base.issued1 0).fabric = [] := by
  rintro _ _ rfl rfl; decide +kernel
/-- The domain enabled, and its page of module 1 at 0x40000 locked. -/
def abroad : State :=
  { (mapped.setF FAB_DOM_CFG.EN 0 1) with dies := [(0, { lockArr := [⟨0, 0x20000, 16, 0x10001D⟩, ⟨0, 0x40000, 16, 0x800000020003D⟩] })] }
theorem witness_FencesAndWaits_remote : (abroad.finding (abroad.awaitCheck true ⟨2, 1, 6⟩)).1 = 0 ∧ abroad.env.probe = false ∧ awaitWord (abroad.sv 2) = .inr 0x40000 ∧
    paD (((abroad.issued1 0).coreXlate 0 0 0x40000 0).2.pa 0x40000) = true ∧ (abroad.issued1 0).awaitValue abroad.cur 0 6 (.inr 0x40000) = none := by decide +kernel
/-- A dynamic-mode task. -/
def dynamic : State := { base with tasks := [(1, { task0 with hdr := hdrOf 1 0 })], banks := [(0, { s := [(1, 100), (2, 101)] })] }
theorem witness_FencesAndWaits_tick : dynamic.cur.dynamic = true ∧ (dynamic.sv 1).toNat ≤ dynamic.tick ∧ dynamic.tick < (dynamic.sv 2).toNat ∧
    0 < dynamic.cur.hdrNat 26 2 ∧ (⟨2, 0, 0⟩ : CW).b = 0 := by decide +kernel
theorem witness_FencesAndWaits_no_tests : ∀ s : State, s = { dynamic with tasks := [(1, { task0 with hdr := natLe 128 (2 ^ 16) })] } →
    s.cur.dynamic = true ∧ s.tick < (s.sv 2).toNat ∧ s.cur.hdrNat 26 2 = 0 ∧ s.env.probe = false := by rintro _ rfl; decide +kernel
theorem witness_VectorInteger : isI 1 = true ∧ isI 2 = true ∧ isI 5 = true ∧ isI 6 = true ∧ ((⟨1, 2, 0, 6, 1⟩ : V3).byp = 0 ∨ (⟨1, 2, 0, 6, 1⟩ : V3).b = 0) ∧
    (⟨1, 0, 0, 6, 1⟩ : V3).b = 0 ∧ ((⟨1, 0, 0, 6, 1⟩ : V3).byp = 0 ∨ (⟨1, 0, 0, 6, 1⟩ : V3).a = 0) := by decide
theorem witness_VectorFloat : isF 8 = true ∧ isF 9 = true ∧ isF 10 = true ∧ isIF 10 = true ∧ ((⟨1, 2, 3, 10, 0⟩ : V3).byp = 0 ∨ (⟨1, 2, 3, 10, 0⟩ : V3).b = 0) ∧
    (⟨1, 2, 0, 10, 0⟩ : V3).b = 0 ∧ ((⟨1, 2, 0, 10, 0⟩ : V3).byp = 0 ∨ (⟨1, 2, 0, 10, 0⟩ : V3).a = 0) := by decide
theorem witness_VectorCompares : isIF 2 = true ∧ isI 2 = true ∧ isIF 9 = true ∧ isF 9 = true ∧ ((⟨1, 2, 0, 9, 1⟩ : V3).byp = 0 ∨ (⟨1, 2, 0, 9, 1⟩ : V3).b = 0) := by decide
theorem witness_VectorDot : isI 1 = true ∧ isI 6 = true ∧ ((⟨1, 2, 3, 6, 0⟩ : V3).byp = 0 ∨ (⟨1, 2, 3, 6, 0⟩ : V3).b = 0) := by decide
theorem witness_VectorReductions : isIF 8 = true ∧ ((⟨1, 2, 3, 8, 0⟩ : V3).byp = 0 ∨ (⟨1, 2, 3, 8, 0⟩ : V3).b = 0) := by decide
theorem witness_VectorConversions : (cvtWidth 8 = some 32 ∧ cvtWidth 6 = some 32 ∧ cvtWidth 12 = some 8 ∧ cvtWidth 0 = some 8) ∧ ((⟨1, 0, 8, 6, 1⟩ : VC).byp = 0 ∨ (⟨1, 0, 8, 6, 1⟩ : VC).a = 0) ∧
    (widthRatio 8 9 = some 2 ∧ widthRatio 8 12 = some 4) ∧ (⟨1, 28, 8, 12, 0⟩ : VC).byp = 0 ∧ (⟨1, 28, 8, 12, 0⟩ : VC).a.toNat % 4 = 0 ∧ (⟨28, 1, 12, 8, 0⟩ : VC).d.toNat % 4 = 0 := by
  decide
theorem witness_VectorMoves : isIF 10 = true ∧ isI 5 = true ∧ (⟨1, 0, 9⟩ : VI).ty = 9 ∧ (⟨1, 0, 0, 10, 1⟩ : V3).b = 0 ∧ (⟨1, 0, 0, 10, 1⟩ : V3).a = 0 := by decide
theorem witness_VectorPermutes : (⟨1, 2, 0x40, 0⟩ : VX).ok true false = true ∧ (⟨1, 2, 0x15F, 0⟩ : VX).ok false true = true ∧ (⟨1, 2, 0x180, 0⟩ : VX).ok false true = true ∧
    (⟨1, 0, 0x107, 1⟩ : VX).ok false false = true ∧ bit (base.cur.hdrNat 24 2) 15 = true ∧ ((⟨1, 15, 15, 1, 0⟩ : VQ).bm = 0) ∧
    ((⟨1, 0, 0, 1, 1⟩ : VQ).bm = 1 ∧ ({ base with banks := [(0, { bm := some (15, 15) })] } : State).mine.bm = some (15, 15)) := by decide +kernel
theorem witness_CubeIssue_forms : (⟨0, 0, 0, 0, 0, 0⟩ : MC).ok true true = true ∧ (⟨0, 1, 3, 15, 15, 0x0E⟩ : MC).ok false false = true ∧ base.env.probe = false := by decide
theorem witness_CubeIntegerCell : ({ prof := 0x020, fmt := 0x55 } : CubeOp).prof = 0x020 ∧ fmtFA ({ prof := 0x020, fmt := 0x55 } : CubeOp).fmt = 5 ∧
    fmtFA ({ prof := 0x020, fmt := 0x44 } : CubeOp).fmt ≠ 5 := by decide
theorem witness_Accumulators : mapped.env.probe = false ∧ bit (mapped.cur.hdrNat 24 2) 15 = true ∧ (mapped.sv 5).toNat - (mapped.sv 5).toNat % 128 + 1024 ≤ mapped.mine.spadSize ∧
    (⟨5, 2⟩ : MH).kind ≠ 3 := by decide +kernel
theorem witness_AccumulatorLandings : ∀ s : State, s = { base with cores := [(0, { cube := [{ id := 7, form := 2, prof := 0x020, fmt := 0x44, n := 0 }] })] } →
    ∃ o, s.cubeAt s.env.core 7 = some o ∧ ∀ c ∈ o.cells, c.fl = 0 := by
  rintro _ rfl; exact ⟨{ id := 7, form := 2, prof := 0x020, fmt := 0x44, n := 0 }, by decide +kernel, by decide +kernel⟩
theorem witness_Scratchpad : mapped.env.probe = false ∧ ((mapped.sv 3).toNat - (mapped.sv 3).toNat % 8 + 8 ≤ mapped.mine.spadSize) ∧
    ((mapped.sv 4).toNat - (mapped.sv 4).toNat % 128 + 512 ≤ mapped.mine.spadSize) ∧ (⟨8, 3, 7, 0⟩ : LS).ty.toNat ≤ 7 ∧ isBulk 12 = true ∧ (⟨0, 3, 0, 0⟩ : LS).d = 0 ∧
    (⟨8, 3, 8, 1⟩ : LA).op.toNat ≤ 8 ∧ (mapped.cur.loopKind 3 ≠ 1 ∧ mapped.cur.loopKind 3 ≠ 2) := by decide +kernel
theorem witness_GatherScatter : mapped.env.probe = false ∧ ((⟨1, 2, 3, 8⟩ : LG).ty = 2 ∨ (⟨1, 2, 3, 8⟩ : LG).ty = 6 ∨ (⟨1, 2, 3, 8⟩ : LG).ty = 8) ∧
    ∀ e < 128, (((mapped.sv 3).toNat + lane 32 (mapped.vv 2) e) % 2 ^ 64) - (((mapped.sv 3).toNat + lane 32 (mapped.vv 2) e) % 2 ^ 64) % 4 + 4 ≤ mapped.mine.spadSize := by
  decide +kernel
/-- Entry 0 of the buffer-ring table: base 1,024, size 2 units, count 4. -/
def ringed : State := { base with cores := [(0, { spad := putBytes [] 256 (natLe 7 (1024 + 2 * 2 ^ 32 + 4 * 2 ^ 48)) })] }
theorem witness_BufferRings : ringed.env.probe = false ∧ 0 < ringed.cur.hdrNat 28 2 ∧ 256 + 16 * 0 + 16 ≤ ringed.mine.spadSize ∧
    (∀ b, b = (fun off k => ringed.spadNat 0 0 (256 + 16 * 0 + off) k) → b 0 4 % 128 = 0 ∧ 1 ≤ b 4 2 ∧ b 4 2 ≤ 4096 ∧ 1 ≤ b 6 1 ∧ b 6 1 ≤ 64 ∧ b 0 4 + b 6 1 * b 4 2 * 128 ≤ ringed.mine.spadSize ∧
      b 7 8 = 0 ∧ b 15 1 = 0 ∧ ringed.mine.brA.look 0 - ringed.mine.brF.look 0 < b 6 1) ∧
    ringed.cur.hdrNat 28 2 ≤ 1 ∧ ¬1 ≤ base.spadNat 0 0 (256 + 16 * 0 + 4) 2 := by
  refine ⟨by decide +kernel, by decide +kernel, by decide +kernel, ?_, by decide +kernel, by decide +kernel⟩; rintro _ rfl; decide +kernel
theorem witness_BufferRings_full : ∀ s : State, s = { ringed with banks := [(0, { spadSize := 4096, brA := [(0, 4)] })] } → 0 ∈ (s.task 1).idxs ∧
    { s with env := s.envOf 1 0 10 }.guardTrue ⟨6, 0, .acqb ⟨1, 0⟩⟩ = true ∧ s.spadNat ((s.task 1).coreAt 0) (s.task 1).ctx (256 + 16 * 0 + 6) 1 ≤ (s.bank 0).brA.look 0 - (s.bank 0).brF.look 0 ∧
    ctxOf ((s.task 1).coreAt 0) (s.task 1).ctx = 0 := by rintro _ rfl; decide +kernel
theorem witness_GlobalStores : mapped.env.probe = false ∧ mapped.capturing mapped.env.task = false ∧ (mapped.finding (mapped.globalCheck 0x20000 8 1)).1 = 0 ∧
    (mapped.finding (mapped.globalCheck 0x4FE00 512 1)).1 = 0 ∧ (⟨1, 2, 7, 6⟩ : LR).scope ≠ 7 := by decide +kernel
/-- The line of 0x20000 held whole in core 0's L1. -/
def cached : State :=
  { mapped with cores := [(0, { l1 := (List.range 4).map fun i => (lineKey (l1Set false (0x100000 + 128 * i)) 0, { pa := 0x100000 + 128 * i, held := List.replicate 128 true, data := List.replicate 128 7 }) })] }
theorem witness_LoadHits : cached.env.probe = false ∧ (∀ b < 16, ((cached.core cached.env.core).wcb.look b).line = none) ∧ cached.atoms = [] ∧ cached.loads = [] ∧
    (cached.finding (cached.globalCheck 0x20000 512 0)).1 = 0 ∧
    (∀ p ∈ (cached.issued1 11).pieces cached.env.core cached.cur.part 0x20000 512 0, p.2.2 = 0 ∧ paD p.1 = false ∧ (cached.issued1 11).l1Hits cached.env.core p.1 p.2.1 = true) := by
  decide +kernel
theorem witness_LoadsIssue : mapped.env.probe = false ∧ (mapped.finding (mapped.globalCheck 0x2FFF8 8 0)).1 = 0 ∧ (mapped.finding (mapped.globalCheck 0x2FE00 512 0)).1 = 0 ∧
    (⟨8, 1, 7, 6⟩ : LR).scope ≠ 7 := by decide +kernel
theorem witness_LoadsIssue_prefetch : ((mapped.issued1 11).coreXlate 0 0 0x20000 0).1 = 0 ∧ ((mapped.issued1 11).coreXlate 0 0 0x20000 0).2.mt 0x20000 = 0 ∧
    ((mapped.issued1 11).coreXlate 0 0 0x40000 0).2.mt 0x40000 ≠ 0 ∧ ((mapped.issued1 11).coreXlate 0 0 0x80000 0).1 ≠ 0 := by decide +kernel
theorem witness_LoadsIssue_prefetch_page : paD (((mapped.issued1 11).coreXlate 0 0 0x20000 0).2.pa 0x20000) = false ∧
    isHost (((mapped.issued1 11).coreXlate 0 0 0x20000 0).2.pa 0x20000) = false := by decide +kernel
theorem witness_Atomics : (⟨6, 1, 8, 1⟩ : LA).op.toNat ≤ 8 ∧ mapped.env.probe = false ∧ mapped.capturing mapped.env.task = false ∧
    (∀ b < 16, ((mapped.core mapped.env.core).wcb.look b).line = none) ∧ (mapped.finding (mapped.globalCheck 0x20000 8 2)).1 = 0 ∧
    paD (((mapped.issued1 11).coreXlate mapped.env.core mapped.cur.part 0x20000 2).2.pa 0x20000) = false := by decide +kernel
theorem witness_Atomics_joined : mapped.joined (dieOf mapped.env.core) (ownerDie 0x100000) = true ∧ (((mapped.issued1 11).coreXlate mapped.env.core mapped.cur.part 0x20000 2).2.pa 0x20000) = 0x100000 := by
  decide +kernel
theorem witness_Atomics_abroad : (abroad.finding (abroad.globalCheck 0x40000 8 2)).1 = 0 ∧ paD (((abroad.issued1 11).coreXlate 0 0 0x40000 2).2.pa 0x40000) = true ∧
    (abroad.bank abroad.b).heldStores = [] ∧ abroad.capturing abroad.env.task = false ∧
    (∀ s : State, s = abroad.modBank abroad.b (fun b => { b with heldStores := [⟨0x8000000200000, 1, [1], false, 0, none, none⟩] }) → (s.bank s.b).heldStores ≠ [] ∧
      (s.finding (s.globalCheck 0x40000 8 2)).1 = 0) := by refine ⟨by decide +kernel, by decide +kernel, by decide +kernel, by decide +kernel, ?_⟩; rintro _ rfl; decide +kernel
/-- Ring entry n: two slots of 512 bytes at an offset, publish word at 512 + 8n. -/
def ringEntry (n base : Nat) : SMap Byte → SMap Byte := fun m => putBytes m (16 * n) (natLe 12 (base + 4 * 2 ^ 32 + 2 * 2 ^ 48 + (512 + 8 * n) * 2 ^ 64))
/-- A context with rings 0, 1 and 2, and hm0 of two k-slices over them, in a profile and a format. -/
def cubed (prof fmt : Nat) : State :=
  { base with
    env := { base.env with prof := prof }
    banks := [(0, { spadSize := 4096, fmt := BitVec.ofNat 64 fmt, hm := [(0, ⟨0x21001, 0x21001⟩)] })]
    cores := [(0, { spad := ringEntry 2 3072 (ringEntry 1 2048 (ringEntry 0 1024 [])) })] }
theorem witness_CubeIssue_cmul : ∀ o : MC, o = ⟨0, 0, 0, 15, 15, 1⟩ → o.ok true false = true ∧ ((cubed 1 0x800000000).finding ((cubed 1 0x800000000).cubeCheck 1 o)).1 = 0 := by
  rintro _ rfl; decide +kernel
theorem witness_CubeIssue_cmulc : ∀ o : MC, o = ⟨0, 1, 2, 0, 0, 0x0E⟩ → o.ok false false = true ∧ ((cubed 2 0x800000000).finding ((cubed 2 0x800000000).cubeCheck 2 o)).1 = 0 := by
  rintro _ rfl; decide +kernel
theorem witness_CubeIssue_cmulq : ∀ o : MC, o = ⟨0, 0, 0, 1, 2, 0⟩ → o.ok true true = true ∧ ((cubed 0x10 0x800000077).finding ((cubed 0x10 0x800000077).cubeCheck 3 o)).1 = 0 := by
  rintro _ rfl; decide +kernel
theorem witness_CubeIssue_cmuli : ∀ o : MC, o = ⟨0, 0, 0, 1, 2, 0⟩ → o.ok true true = true ∧ ((cubed 0x20 0x800000044).finding ((cubed 0x20 0x800000044).cubeCheck 4 o)).1 = 0 := by
  rintro _ rfl; decide +kernel
theorem witness_CubeIssue_cmula : ∀ o : MC, o = ⟨0, 0, 0, 1, 2, 0⟩ → o.ok false true = true ∧ ((cubed 0x30 0x800000000).finding ((cubed 0x30 0x800000000).cubeCheck 5 o)).1 = 0 := by
  rintro _ rfl; decide +kernel
theorem witness_CubeIssue_wide : ∀ o : MC, o = ⟨0, 0, 0, 1, 2, 0⟩ → ((cubed 3 0x800000033).finding ((cubed 3 0x800000033).cubeCheck 1 o)).1 = 0 ∧ (cubed 3 0x33).env.probe = false := by
  rintro _ rfl; decide +kernel
/-- A copy descriptor of one row of 64 bytes (R350), from one address to another, its completion word at the end of 4,096
bytes. -/
def descriptor (src dst len rows : Nat) : List Byte := natLe 64 (src + dst * 2 ^ 64 + len * 2 ^ 128 + rows * 2 ^ 160 + 4088 * 2 ^ 256)
/-- A context whose s4 names a descriptor at offset 1,024; hx0 has the current cycle for its START. -/
def engined (d : List Byte) : State :=
  { mapped with
    banks := [(0, { spadSize := 4096, s := [(4, 1024)], hx := [(0, ⟨10 * 2 ^ 32, 10 * 2 ^ 32⟩), (3, ⟨0xFFFFFFFF00000000, 0⟩)] })]
    cores := [(0, { spad := putBytes (ringEntry 0 2048 []) 1024 d })] }
theorem witness_CopyCommands_copy : ∀ (o : XE) (s : State), o = ⟨0, 0, 4, 0, 7⟩ → s = engined (descriptor (2 ^ 63 + 2048) 0x20000 64 1) →
    o.ctl.getLsbD 4 = false ∧ clearX s o (s.copyCheck o (fun d => copyOk d (xeE o)) s.cedCheck) ∧ xeB o = true := by
  rintro _ _ rfl rfl; exact ⟨by decide, ⟨by decide +kernel, by decide +kernel⟩, by decide⟩
theorem witness_CopyCommands_put : ∀ (o : XE) (s : State), o = ⟨3, 0, 4, 0, 0⟩ → s = engined (descriptor (2 ^ 63 + 2048) 0x20000 2048 2) →
    o.ctl.getLsbD 4 = false ∧ clearX s o (s.copyCheck o (fun d => !xeE o && fabricOk d true) s.fbeCheck) ∧ xeB o = false := by
  rintro _ _ rfl rfl; exact ⟨by decide, ⟨by decide +kernel, by decide +kernel⟩, by decide⟩
theorem witness_CopyCommands_get : ∀ (o : XE) (s : State), o = ⟨0, 1, 4, 0, 0⟩ → s = engined (descriptor 0x20000 (2 ^ 63 + 2048) 2048 2) →
    o.ctl.getLsbD 4 = false ∧ clearX s o (s.copyCheck o (fun d => !xeE o && fabricOk d false) s.fbeCheck) := by
  rintro _ _ rfl rfl; exact ⟨by decide, ⟨by decide +kernel, by decide +kernel⟩⟩
/-- A subscription table (R153) at 0x20000, which is locked at physical address 0x100000: rows of 16 bytes, one tile. -/
def subscribed : State :=
  { (engined []).setF MSL_SUB_BASE.BASE 0 0x800 with
    mem := putBytes [] 0x100000 (natLe 64 (0x20000 + 16 * 2 ^ 64 + 2 ^ 80 + (1 + 2 ^ 16 + 2 ^ 32 + 2 ^ 48) * 2 ^ 128)) }
theorem witness_RingCommands_subs : ∀ (o : XE) (s : State) (d : List Byte), o = ⟨0, 0, 0, 0, 0⟩ → s = subscribed →
    d = natLe 64 (0x20000 + 16 * 2 ^ 64 + 2 ^ 80 + (1 + 2 ^ 16 + 2 ^ 32 + 2 ^ 48) * 2 ^ 128) → o.ctl.getLsbD 4 = false ∧ o.b = 0 ∧ startGood s o ∧ ringInside s (xeRing o) ∧ ringFree s (xeRing o) ∧
    (s.sv o.a).toNat < 2 ^ min 12 (s.getF MSL_SUB_BASE.LOG2N 0) ∧ s.vread 0 0 (64 * s.getF MSL_SUB_BASE.BASE 0 + 64 * (s.sv o.a).toNat) 64 0 = some d ∧
    subOk d (128 * s.spadNat 0 0 (16 * xeRing o + 4) 2) = true ∧ paD ((s.agentXlate 0 0 (field d 0 8) 0).2.pa (field d 0 8)) = false := by
  rintro _ _ _ rfl rfl rfl
  exact ⟨by decide, by decide, ⟨by decide +kernel, Or.inr (by decide +kernel)⟩, ⟨by decide +kernel, by decide +kernel⟩, ⟨by decide +kernel, by decide +kernel⟩, by decide +kernel, by decide +kernel,
    by decide +kernel, by decide +kernel⟩
theorem witness_RingCommands : ∀ (o : XE) (s : State), o = ⟨3, 0, 0, 0, 0⟩ → s = engined [] → o.ctl.getLsbD 4 = false ∧ o.b = 0 ∧ o.a = 0 ∧ startGood s o ∧ startGood s ⟨0, 0, 0, 0, 0⟩ ∧
    ringInside s (xeRing o) ∧ ringFree s (xeRing o) ∧ s.mine.ringP.look (xeRing o) = 0 ∧ 16 * xeRing o + 16 ≤ s.mine.spadSize := by
  rintro _ _ rfl rfl
  exact ⟨by decide, by decide, by decide, ⟨by decide +kernel, Or.inr (by decide +kernel)⟩, ⟨by decide +kernel, Or.inr (by decide +kernel)⟩, ⟨by decide +kernel, by decide +kernel⟩,
    ⟨by decide +kernel, by decide +kernel⟩, by decide +kernel, by decide +kernel⟩
/-- R49: a sum of 32 words from offset 2,048 to 2,176, at barrier 255. -/
theorem witness_RingCommands_fred : ∀ (o : XE) (s : State), o = ⟨0, 0, 4, 0, 0⟩ → s = engined (natLe 16 (2176 * 2 ^ 64 + 2048 * 2 ^ 32 + 255 * 2 ^ 24 + 32 * 2 ^ 16)) →
    o.ctl = 0 ∧ o.b = 0 ∧ startGood s o ∧ (s.sv o.a).toNat + 16 ≤ s.mine.spadSize ∧ (s.redDesc (s.sv o.a).toNat).ok = true ∧
    (s.redDesc (s.sv o.a).toNat).src + (s.redDesc (s.sv o.a).toNat).bytes ≤ s.mine.spadSize ∧ (s.redDesc (s.sv o.a).toNat).dst + (s.redDesc (s.sv o.a).toNat).bytes ≤ s.mine.spadSize ∧
    s.fabHeld s.env.task < s.cur.hdrNat 34 2 ∧ s.mine.barA.look (768 + 255) ≤ s.mine.barR.look (768 + 255) := by
  rintro _ _ rfl rfl
  exact ⟨by decide, by decide, ⟨by decide +kernel, Or.inr (by decide +kernel)⟩, by decide +kernel, by decide +kernel, by decide +kernel, by decide +kernel, by decide +kernel, by decide +kernel⟩
theorem witness_Maintenance : ∀ (o : XC) (s : State), o = ⟨4, 5, 2, 2⟩ → s = withRegs [(4, 0x20000), (5, 0x100000000)] →
    o.op ≠ 3 ∧ o.lvl ≠ 3 ∧ s.env.probe = false ∧ min (s.sv o.b).toNat (2 ^ 32) ≠ 0 ∧ min (base.sv o.b).toNat (2 ^ 32) = 0 ∧
    (({ s with dies := [(0, { lockArr := locked })] } : State).cmoPage s.env.core s.cur.part (s.sv o.a).toNat o.op.toNat).1 = 0 := by
  rintro _ _ rfl rfl; decide +kernel
theorem witness_Barriers : (⟨3, 255, 0⟩ : XB).level = 3 ∧ (⟨0, 3, 0⟩ : XB).bar.toNat < base.cur.hdrNat 32 2 ∧ base.sv 0 = 0 ∧ base.mine.barA.look 3 ≤ base.mine.barR.look 3 ∧
    (∀ b : Bank, b = { barA := [(3, 1)] } → b.barR.look 3 < b.barA.look 3) := by refine ⟨by decide, by decide +kernel, by decide +kernel, by decide +kernel, ?_⟩; rintro _ rfl; decide
theorem witness_Barriers_bflip : base.env.idx = 0 ∧ base.getF BBT_CFG.EN 0 = 0 ∧ (base.setF BBT_CFG.EN 0 1).getF BBT_CFG.EN 0 ≠ 0 ∧ base.env.probe = false := by decide +kernel
/-- A sampler descriptor (R364): one word of program, LGOUT e0; a shard of 1,024 tokens; tables at 8,192; the completion
word at the end of 65,536 bytes. -/
def sampler : List Byte :=
  natLe 256 (0xB800 + 1024 * 2 ^ 1056 + 8192 * 2 ^ 1088 + 2 ^ 1216 + 2 ^ 1232 + 2 ^ 1240 + 65528 * 2 ^ 1280)
/-- A context of 65,536 bytes with the descriptor at offset 1,024, slot 0 bound to it, and s5 at the last 8 bytes. -/
def sampling : State :=
  { base with
    banks := [(0, { spadSize := 65536, s := [(4, 1024), (5, 65528), (6, 64960), (7, 0x104)] })]
    cores := [(0, { spad := putBytes [] 1024 sampler, slots := [(recKey 0 0, { issued := sampler, desc := sampler })] })] }
theorem witness_SamplerCommands : sampling.env.probe = false ∧ boundSlot sampling 0 ∧ inPart sampling (sampling.sv 6) 576 64 ∧ inPart sampling (sampling.sv 5) 8 8 ∧
    (sampling.sv 7).toNat % 8 ≤ 4 := by
  refine ⟨by decide +kernel, ⟨by decide +kernel, by decide +kernel⟩, ⟨by decide +kernel, by decide +kernel⟩, ⟨by decide +kernel, by decide +kernel⟩, by decide +kernel⟩
theorem witness_SamplerCommands_bind : ∀ o : XS, o = ⟨4, 0, 7⟩ → o.b = 0 ∧ o.ctl.toNat < 8 ∧ inPart sampling (sampling.sv o.a) 256 256 ∧
    1024 * (o.ctl.toNat % 8 + 1) ≤ sampling.shareSize sampling.env.core sampling.env.ctx ∧ sdOk (sampling.spadBytes 0 0 1024 256) = true ∧
    sdTmoff sampler + 33 * sdVlen sampler / 8 ≤ sampling.shareSize 0 0 := by
  rintro _ rfl; exact ⟨by decide, by decide, ⟨by decide +kernel, by decide +kernel⟩, by decide +kernel, by decide +kernel, by decide +kernel⟩
theorem witness_SamplerCommands_tables : ∀ o : XS, o = ⟨0, 4, 0⟩ → o.a = 0 ∧ o.ctl.toNat < 8 ∧ sdDone (sampling.boundDesc 0) + 8 ≤ sampling.mine.spadSize ∧
    sampling.cedHeld sampling.env.task < sampling.cur.hdrNat 30 2 := by rintro _ rfl; decide +kernel
theorem witness_SamplerCommands_control : (8 ≤ (⟨0, 0, 15⟩ : XS).ctl.toNat ∧ (⟨0, 0, 15⟩ : XS).ctl.toNat < 16) ∧ (16 ≤ (⟨0, 0, 23⟩ : XS).ctl.toNat ∧ (⟨0, 0, 23⟩ : XS).ctl.toNat < 24) ∧
    (⟨3, 0, 1⟩ : VF).ok = true ∨ (⟨0, 0x21F0, 0⟩ : VF).ok = true := by decide
/-- Partition 15 serves virtual function 16. -/
def served : State := base.setF PRT_CTL.EN 15 1
theorem witness_HostRegisterWrites : base.hostUp = true ∧ 0 < csrCount .PTC_CFG ∧ Csr.PTC_CFG ∈ plainRegs ∧ (16 : Fn) ≠ 0 ∧ served.vfUp 16 = true ∧ served.vfUp 15 = false ∧
    vfWritable .PTC_CFG = false ∧ ({ base with powered := false } : State).hostUp = false := by decide +kernel
theorem witness_HostRegisterWrites_own : vfWritable .UEE_MATCH = true ∧ served.regOwn 14 .UEE_MATCH 0 = false := by decide +kernel
theorem witness_RegisterOperations_translation : base.hostUp = true ∧ base.getF PRT_TLBI.STATE 15 ≠ 1 ∧ bit (1 : BitVec 128).toNat 0 = true ∧ base.getF PRT_LOCK.EN 1023 = 0 ∧
    base.getF PRT_LOCK.STATE 1023 = 0 ∧ bits (2 ^ 96 + 1 : BitVec 128).toNat 127 96 ≠ 0 := by decide +kernel
theorem witness_RegisterOperations_unlock : ∀ s : State, s = (base.setF PRT_LOCK.EN 0 1).setF PRT_LOCK.STATE 0 2 → s.getF PRT_LOCK.EN 0 = 1 ∧ s.getF PRT_LOCK.STATE 0 = 2 ∧
    s.lockHolds 0 0 = [] := by rintro _ rfl; decide +kernel
/-- A locked translation of block 0's memory. -/
def lockedBlock : State := { base with dies := [(0, { lockArr := [⟨0, 0, 16, 0x1D⟩] })] }
theorem witness_RegisterOperations_memory : (lockedBlock.dies.any fun e => e.2.lockArr.any (·.inBlock 0)) = true ∧ (lockedBlock.dies.any fun e => e.2.lockArr.any (·.inBlock 511)) = false := by
  decide +kernel
theorem witness_RegisterOperations_l1 : base.holder 0 0 ≠ none ∧ (∀ i < 8, ∀ q < 8, base.holder (8 * 47 + i) q = none) := by decide +kernel
theorem witness_RegisterOperations_l1_used : ∃ i < 8, ∃ q < 8, base.holder (8 * 0 + i) q ≠ none := ⟨0, by decide, 0, by decide, by decide +kernel⟩
theorem witness_RegisterOperations_service : base.getF DST_SVC_CFG.EN 63 = 0 ∧ (base.setF DST_SVC_CFG.EN 63 1).getF DST_SVC_CFG.EN 63 = 1 ∧ State.reset.tasks = [] ∧
    (1 : BitVec 64).getLsbD 0 = true ∧ (0 : BitVec 64).getLsbD 0 = false ∧ State.reset.lockedRange 0 0 0 (24 * 2 ^ 20) = false := by decide +kernel
theorem witness_RegisterOperations_saved : ((State.reset.setF PRT_LOCK.STATE 0 2).setF PRT_LOCK.SIZE 0 384).lockedRange 0 0 0 (24 * 2 ^ 20) = true ∧
    ((State.reset.setF PRT_LOCK.STATE 0 2).setF PRT_LOCK.SIZE 0 383).lockedRange 0 0 0 (24 * 2 ^ 20) = false := by decide +kernel
theorem witness_RegisterOperations_answer : ∀ s : State, s = { base with svcAwait := [(63, 0xFFFFFFFF, 0, 1, 0x12)] } → 0xFFFFFFFF < 2 ^ 32 ∧
    (s.svcAwait.find? fun a => a.1 = 16 * 3 + 15 && a.2.1 = 0xFFFFFFFF) = some (63, 0xFFFFFFFF, 0, 1, 0x12) ∧ (s.task 1).resident = true := by rintro _ rfl; decide +kernel
theorem witness_RegisterOperations_replay : ∀ v : BitVec 64, v = BitVec.ofNat 64 (setBits 1 CCC_RPL_CTL.NEV.hi CCC_RPL_CTL.NEV.lo 32) → lockedBlock.getF CCC_RPL_CTL.STATE 0 = 0 ∧
    (lockedBlock.cluster 0).rpl.armed = false ∧ v.getLsbD 0 = true ∧ bits v.toNat CCC_RPL_CTL.NEV.hi CCC_RPL_CTL.NEV.lo = 32 ∧
    (lockedBlock.stream 0 (bits v.toNat CCC_RPL_CTL.STREAM.hi CCC_RPL_CTL.STREAM.lo)).valid = false ∧ lockedBlock.getF CCC_RPL_BUF.CAPSZ 0 = 0 ∧
    lockedBlock.rangeFault 0 0 (lockedBlock.getF CCC_RPL_BUF.RES 0) (8 * 32 + 4 * 8) 1 = none := by rintro _ rfl; decide +kernel
theorem witness_RegisterCommands : base.hostUp = true ∧ bits (1 : BitVec 128).toNat 107 88 = 0 ∧ (1 : BitVec 64).getLsbD 0 = true ∧ base.scrubbing = [] ∧
    base.getF PRT_CLUSTERS.MASK 15 = 0 ∧ base.ownedElse PRT_CLUSTERS.MASK 15 = 0 ∧ base.getF PRT_STAT.RST 15 = 0 ∧ base.getF SJ_IMG_CTL.STATE 0 ≠ 1 ∧ base.getF PRT_ATT_CTL.STATE 15 ≠ 1 ∧
    base.snap.pending = none ∧ base.tickBase ≠ none ∧ base.getF DLS_REG_CTL.STATE 63 ≠ 1 := by decide +kernel
theorem witness_RegisterCommands_owned : Nat.land 1 ((base.setF PRT_CLUSTERS.MASK 0 1).ownedElse PRT_CLUSTERS.MASK 15) ≠ 0 := by decide +kernel
theorem witness_RegisterCommands_bandwidth : base.slotSum 0 0 [] base.levelOf none = 0 ∧ base.slotSum 0 1 [] base.levelOf none = 0 ∧
    base.slotSum 0 0 [] base.levelOf none ≤ base.getF BWS_FRAME_CFG.FAST 0 ∧
    (∀ s : State, s = base.setF BWS_FAB_IN.FAST 0 1 → ¬s.slotSum 0 0 [] s.levelOf none ≤ s.getF BWS_FRAME_CFG.FAST 0) := by
  refine ⟨by decide +kernel, by decide +kernel, by decide +kernel, ?_⟩; rintro _ rfl; decide +kernel
theorem witness_RegisterCommands_busy_clock : (({ base with streams := [(0, { valid := true })] } : State).streams.any fun e => e.2.valid && decide (e.2.cls < 2)) = true ∧
    (base.streams.any fun e => e.2.valid && decide (e.2.cls < 2)) = false := by decide +kernel
theorem witness_RegisterCommands_streams : (base.stream 0 1023).valid = false ∧ (∀ s : State, s = { base with streams := [(0, { valid := true, part := 15 })] } →
    (s.stream 0 0).valid = true ∧ (s.stream 0 0).part = 15) ∧ (base.die 0).regTest = none := by
  refine ⟨by decide +kernel, ?_, by decide +kernel⟩; rintro _ rfl; decide +kernel
theorem witness_RegisterCommands_floor : ∀ s : State, s = { base.setF DLS_SES.VALID 255 1 with streams := [(0, { valid := true, session := 255 })] } → s.getF DLS_SES.VALID 255 = 1 ∧
    s.getF DLS_SES.LEVEL 255 < 3 ∧ s.shadowed 0 255 = false ∧ s.hasStream 0 255 0 = true := by rintro _ rfl; decide +kernel
theorem witness_RegisterCommands_group : base.streams = [] ∧ (∀ h, h / 8 = 0 / 8 → h ≠ 0 → base.getF ADM_GRP.EN h = 0) := by
  refine ⟨by decide +kernel, fun h _ _ => ?_⟩
  exact (by decide +kernel : ∀ h < 8, base.getF ADM_GRP.EN h = 0) h (by omega)
theorem witness_RegisterCommands_group_used : ∀ s : State, s = { base with streams := [(0, { valid := true, group := 95 })] } →
    (s.streams.any fun e => e.2.valid && decide (e.2.cls < 2) && decide (e.2.group = 95)) = true ∧ (3 ≠ s.getF ADM_GRP.SIZE 95) := by rintro _ rfl; decide +kernel
/-- R67: a checkpoint descriptor of one page at 0x20000, which is locked for whatever partition the engine uses. -/
theorem witness_RegisterCommands_checkpoint_read : ∀ s : State, s = { base with
      dies := [(0, { lockArr := [⟨ckPart 0, 0x20000, 16, 0x10001D⟩] })]
      mem := putBytes [] 0x100000 (natLe 64 (65536 * 2 ^ (8 * 8))) } → s.getF UEE_CKPT_CTL.STATE 0 = 0 ∧
    ∃ b, s.vread 0 (ckPart 0) 0x20000 64 0 = some b ∧ ckOk b = true := by
  have h : ∀ p < 16, (({ base with
      dies := [(0, { lockArr := [⟨p, 0x20000, 16, 0x10001D⟩] })]
      mem := putBytes [] 0x100000 (natLe 64 (65536 * 2 ^ (8 * 8))) } : State).vread 0 p 0x20000 64 0).map ckOk = some true := by decide +kernel
  rintro _ rfl
  refine ⟨by decide +kernel, ?_⟩
  have h := h (ckPart 0) (Nat.mod_lt _ (by decide))
  rw [Option.map_eq_some_iff] at h
  exact h
theorem witness_RegisterCommands_checkpoint : base.getF UEE_CKPT_CTL.STATE 3 = 0 ∧ base.vread 3 (ckPart 3) 0 64 0 = none ∧
    (base.setF UEE_CKPT_CTL.STATE 0 1).getF UEE_CKPT_CTL.STATE 0 = 1 := by decide +kernel
theorem witness_MemoryRegisterEvents_queue : base.bwsQ.look 7 = [] ∧ base.tickBase ≠ none ∧ State.reset.tickBase = none ∧
    (∀ s : State, s = { base with bwsQ := [(7, [{ cls := 3, n := 12501 }]), (6, [{ cls := 3, n := 1, ev := some .fabFrameBoundary }])] } → s.tickBase ≠ none ∧
    s.bwsQ.look 7 ≠ [] ∧ bwsPick (s.bwsQ.look 7) (s.bwsOwner 7 (bwsIndex s.tick)).1 (s.bwsOwner 7 (bwsIndex s.tick)).2 = some 0 ∧ 12500 < ((s.bwsQ.look 7).getD 0 {}).n ∧ (s.bwsQ.look 7).length = 1 ∧
    bwsPick (s.bwsQ.look 6) (s.bwsOwner 6 (bwsIndex s.tick)).1 (s.bwsOwner 6 (bwsIndex s.tick)).2 = some 0 ∧ ((s.bwsQ.look 6).getD 0 {}).n ≤ 12500 ∧ (s.bwsQ.look 6).length = 1 ∧
    ((s.bwsQ.look 6).getD 0 {}).ev = some .fabFrameBoundary) := by refine ⟨by decide +kernel, by decide, by decide, ?_⟩; rintro _ rfl; decide +kernel
theorem witness_MemoryRegisterEvents_due : base.due (.prtMemOwnDone 511) = false ∧ base.due (.l1ModeDone 47) = false ∧
    (∀ s : State, s = { base with agenda := [{ time := 200, phase := 0, seq := 0, ev := .prtMemOwnDone 511 }, { time := 200, phase := 0, seq := 1, ev := .l1ModeDone 47 }] } →
      s.due (.prtMemOwnDone 511) = true ∧ s.due (.l1ModeDone 47) = true) := by refine ⟨by decide +kernel, by decide +kernel, ?_⟩; rintro _ rfl; decide +kernel
theorem witness_MemoryRegisterEvents_owner : ({ base with memOwnNew := [(511, some 31)] } : State).memOwnNew.look 511 = some 31 ∧ 31 < 32 := by decide +kernel
theorem witness_MemoryRegisterEvents_lock : base.getF PRT_LOCK.STATE 0 ≠ 1 ∧ (base.setF PRT_LOCK.STATE 0 1).getF PRT_LOCK.STATE 0 = 1 ∧
    ((base.setF PRT_LOCK.STATE 0 1).lockWalk 0 0 0 []).1 = 0 ∧ ((base.setF PRT_LOCK.STATE 0 1).lockWalk 0 1 0 []).1 ≠ 0 := by decide +kernel
theorem witness_MemoryRegisterEvents_walk : ∀ (w : Asker) (m : Miss) (s : State), w = { task := 1, tr := 383, va := 0x20000 } → m = { id := 5, reqs := [w], res := some (0x12, {}) } →
    s = { base with dies := [(0, { walkQ := [m] })] } → (s.die 0).walkQ = [m] ∧ m.id = 5 ∧ m.reqs = [w] ∧ w.tr < 1000 ∧ w.wake = none ∧ m.res = some (0x12, {}) ∧
    (∀ x ∈ (s.die 1).walkQ, x.id ≠ 5) := by rintro _ _ _ rfl rfl rfl; decide +kernel
/-- A table walk that ends at a page (R146): the root at 0x100000, four levels on, each in a table of its own, and the
memory partition 0's. -/
def tables : State :=
  { ((base.setF PRT_TT_ROOT.ROOT 0 0x10).setF PRT_MEM_OWN.EN 0 1) with
    mem := putBytes (putBytes (putBytes (putBytes [] 0x100000 (natLe 8 0x110003)) 0x110000 (natLe 8 0x120003)) 0x120000 (natLe 8 0x130003)) 0x130010 (natLe 8 0x20001D) }
theorem witness_MemoryRegisterEvents_walk_ends :
    (walkLevels[0]?.map fun lv => lv.entry false 0 0x20000 (tables.readEntry 0 (0x100000 + 8 * bits 0x20000 lv.hi lv.lo))) = some (.table 0x110000) ∧
    (walkLevels[3]?.map fun lv => lv.entry true 0 0x20000 (tables.readEntry 0 (0x130000 + 8 * bits 0x20000 lv.hi lv.lo))) = some (.leaf ⟨0, 0x20000, 16, 0x20001D⟩) ∧
    (walkLevels[3]?.map fun lv => lv.entry true 0 0x30000 (tables.readEntry 0 (0x130000 + 8 * bits 0x30000 lv.hi lv.lo))) = some (.fault 0x12) ∧
    ((tables.setF PRT_LOCK.STATE 0 1).lockWalk 0 1 2 []).1 = 0 ∧ ((tables.setF PRT_LOCK.STATE 0 1).lockWalk 0 1 2 []).2.length = 1 := by decide +kernel
theorem witness_DataEvents_load : ∀ s : State, s = { base with loads := [(1, { id := 1, need := 2 }), (2, { id := 2, need := 1, notBefore := 101 }), (3, { id := 3, need := 1, notBefore := 100, width := 8, dst := .s 63 })] } →
    (s.loads.look 4).id ≠ 4 ∧ ((s.loads.look 1).id = 1 ∧ 1 < (s.loads.look 1).need) ∧ ((s.loads.look 2).need ≤ 1 ∧ s.now < (s.loads.look 2).notBefore) ∧
    (s.loads.look 3).id = 3 ∧ (s.loads.look 3).need ≤ 1 ∧ (s.loads.look 3).notBefore ≤ s.now ∧ (s.loads.look 3).late = false ∧ (s.loads.look 3).width ≠ 0 ∧ (s.loads.look 3).dst ≠ .s 0 ∧ (s.loads.look 3).acq = 0 ∧ (s.bank 0).heldStores = [] := by
  rintro _ rfl; decide +kernel
theorem witness_DataEvents_late : ∀ s : State, s = { base with loads := [(5, { id := 5, late := true })] } → (s.loads.look 5).id = 5 ∧ (s.loads.look 5).late = true := by rintro _ rfl; decide +kernel
/-- Subscription 9 of one tile of one row of 16 bytes into ring 0, whose entry stands at 0 and publish word at 512. -/
def subscription : Sub := { id := 9, desc := natLe 64 (0x20000 + 16 * 2 ^ 64 + 2 ^ 80 + (1 + 2 ^ 16 + 2 ^ 32 + 2 ^ 48) * 2 ^ 128), moving := true }
def streamed : State := { engined [] with subs := [(9, subscription), (8, { subscription with id := 8, stopped := true }), (7, { subscription with id := 7, tile := 1 })] }
theorem witness_DataEvents_tile : (streamed.subs.look 8).stopped = true ∧ (streamed.subs.look 7).stopped = false ∧ subTiles (streamed.subs.look 7).desc ≤ (streamed.subs.look 7).tile ∧
    (streamed.subs.look 7).desc ≠ [] ∧ (streamed.subs.look 7).id = 7 ∧ streamed.joined 0 0 = true := by decide +kernel
theorem witness_DataEvents_publish : ∀ (x : Sub) (s : State), x = subscription → s = streamed → x.desc ≠ [] ∧ x.id = 9 ∧ x.stopped = false ∧ x.tile < subTiles x.desc ∧ subPull x.desc = false ∧
    x.remote = false ∧ x.moving = true ∧ x.need = 0 ∧ (s.ringTail 0 0 (s.ringEnt 0 0 0) + 2 ^ 32 - (s.ringEnt 0 0 0).head) % 2 ^ 32 ≠ (s.ringEnt 0 0 0).count ∧ (s.tilePieces x).1.map (·.1) = some (0, 0) ∧
    s.capturing x.task = false ∧ 0 < subRows x.desc * subRowBytes x.desc ∧ (s.ringEnt 0 0 0).slotAt (s.ringTail 0 0 (s.ringEnt 0 0 0)) + subRows x.desc * subRowBytes x.desc ≤ (s.bank 0).spadSize / 64 * 64 ∧
    16 * x.ring + 16 ≤ (s.ringEnt 0 0 0).slotAt 0 ∧ (s.ringEnt 0 0 0).pub + 8 ≤ (s.ringEnt 0 0 0).slotAt 0 := by rintro _ _ rfl rfl; decide +kernel
theorem witness_DataEvents_grant : (∀ e ∈ base.cmds, e.2.waiting = false) ∧ ∀ c : Cmd, c = { id := 3, kind := .subs, waiting := true, src := 0x20000 } →
    ({ mapped with cmds := [(3, c)] } : State).cmds = [(c.id, c)] ∧ c.kind = .subs ∧ c.waiting = true ∧ ({ mapped with cmds := [(3, c)] } : State).subStack c = (0, false) ∧ mapped.subs = [] ∧ (∀ e ∈ mapped.tasks, e.2.subWait ≠ some 0) := by
  refine ⟨by decide +kernel, ?_⟩; rintro _ rfl; decide +kernel
theorem witness_DataEvents_atomics : ∀ (a : Atom) (s : State), a = { pa := 0xFFFFFFFF8, operand := 1, w := true } → s = { base with atoms := [a] } → s.groupOf 0xFFFFFFFF8 0 = [a] ∧ 0xFFFFFFFF8 < 2 ^ 40 ∧ 0xFFFFFFFF8 % 8 = 0 ∧
    s.cores = [] ∧ s.dies = [] ∧ s.capturing a.task = false ∧
    s.groupWaits 0xFFFFFFFF8 0 [a] = false ∧ a.mt = 0 ∧ a.arrived = none ∧
    (∀ u : State, u = { base with atoms := [{ a with interval := 1 }, a] } → u.groupWaits 0xFFFFFFFF8 1 (u.groupOf 0xFFFFFFFF8 1) = true) := by
  rintro _ _ rfl rfl; refine ⟨by decide +kernel, by decide, by decide, rfl, rfl, by decide +kernel, by decide +kernel, rfl, rfl, ?_⟩; rintro _ rfl; decide +kernel
/-- What every entry listed has and the default has, each look has. -/
theorem look_all {α : Type} [Inhabited α] (P : α → Prop) (d : P default) (m : SMap α) (h : ∀ e ∈ m, P e.2) (k : Nat) : P (m.look k) := by
  induction m with
  | nil => exact d
  | cons e m ih =>
    obtain ⟨a, v⟩ := e
    simp only [SMap.look]
    split
    · exact h (a, v) (by simp)
    · exact ih fun e he => h e (by simp [he])
/-- Where no bank listed holds a store, no context does. -/
theorem held_none (s : State) (h : ∀ e ∈ s.banks, e.2.heldStores = []) (k : Nat) : (s.bank k).heldStores = [] :=
  look_all (fun b => b.heldStores = []) rfl s.banks h k
theorem witness_DataEvents_held : ∀ k, (base.bank k).heldStores = [] := held_none base (by decide +kernel)
theorem witness_DataEvents_buffers : ∀ s : State, s = { base with cores := [(0, { wcb := [(15, { line := some 0x100000, data := List.replicate 128 1, mask := List.replicate 128 true, draining := true })] })] } →
    ((s.core 0).wcb.look 0).draining = false ∧ ((s.core 0).wcb.look 15).draining = true ∧ ((s.core 0).wcb.look 15).line = some 0x100000 ∧ paD 0x100000 = false ∧ s.joined (dieOf 0) (ownerDie 0x100000) = true := by rintro _ rfl; decide +kernel
theorem witness_DataEvents_acknowledged : ∀ s : State, s = { base with stores := [(1, { id := 1, n := 2 }), (2, { id := 2 })] } → (s.stores.look 3).id ≠ 3 ∧ ((s.stores.look 1).id = 1 ∧ 1 < (s.stores.look 1).n) ∧
    (s.stores.look 2).id = 2 ∧ (s.stores.look 2).n ≤ 1 ∧ s.barriers = [] ∧ (∀ e ∈ s.banks, e.2.heldStores = []) := by rintro _ rfl; decide +kernel
theorem witness_EngineEvents_rings : ∀ s : State, s = { base with cmds := [(1, { id := 1, kind := .rpub }), (2, { id := 2, kind := .rpop }), (3, { id := 3, kind := .subs }), (4, { id := 4, kind := .unsub })] } →
    (s.cmd 1).kind = .rpub ∧ (s.cmd 2).kind = .rpop ∧ ((s.cmd 3).kind = .subs ∧ (s.cmd 3).id = 3) ∧ (s.cmd 4).kind = .unsub ∧ s.subs = [] ∧ (s.cmd 1).serving = false := by rintro _ rfl; decide +kernel
theorem witness_EngineEvents_copy : ∀ s : State, s = { base with cmds := [(1, { id := 1, kind := .put, engine := some 483 })] } → s.cmds = [(1, s.cmd 1)] ∧ (s.cmd 1).id = 1 ∧
    ((s.cmd 1).kind = .copy ∨ (s.cmd 1).kind = .put ∨ (s.cmd 1).kind = .get) ∧ (s.cmd 1).engine = some 483 ∧ (s.cmd 1).ended = false ∧ (s.cmd 1).serving = false ∧ (s.cmd 1).setAside = false := by
  rintro _ rfl; decide +kernel
/-- Commands in work: a copy within a partition at its first unit, one to Ethernet, one whose bytes are done. -/
def working : State :=
  { base with
    cmds := [(1, { id := 1, serving := true, stage := 2, srcSpace := 2, dstSpace := 2, src := 1024, dst := 4032, len := 64 }),
      (2, { id := 2, dstSpace := 5, begun := true, pos := 1 }), (3, { id := 3, done := some 4088, doneVal := 7 }), (4, { id := 4, kind := .cmo })] }
theorem witness_EngineEvents_sector : ∀ c : Cmd, c = working.cmd 1 → c.id = 1 ∧ c.serving = true ∧ c.awaiting = false ∧ c.stage = 2 ∧ c.buf = [] ∧ c.srcSpace = 2 ∧ c.dstSpace = 2 ∧
    ∃ n, c.unit = some (1024, 4032, n) ∧ 1024 + n ≤ (working.bank (ctxOf c.core c.ctx)).spadSize ∧ 4032 + n ≤ (working.bank (ctxOf c.core c.ctx)).spadSize := by
  rintro _ rfl; refine ⟨by decide +kernel, by decide +kernel, by decide +kernel, by decide +kernel, by decide +kernel, by decide +kernel, by decide +kernel, 64, ?_⟩; decide +kernel
theorem witness_EngineEvents_ends : ((working.cmd 3).id = 3 ∧ (working.cmd 3).done = some 4088 ∧ 4088 + 8 ≤ (working.bank (ctxOf (working.cmd 3).core (working.cmd 3).ctx)).spadSize) ∧
    ((working.cmd 4).kind = .cmo ∧ (working.cmd 4).id = 4 ∧ (working.cmd 4).setAside = false ∧ (working.cmd 4).len ≤ (working.cmd 4).off ∧ working.cmoBusy (working.cmd 4) = false ∧
      ({ working with bwsQ := [(0, [{ who := 5 }])] } : State).cmoBusy (working.cmd 4) = true) ∧
    ((working.cmd 2).dstSpace = 5 ∧ (working.cmd 2).begun = true ∧ (working.cmd 2).ended = false ∧ (working.cmd 2).barrier = none) := by decide +kernel
theorem witness_EngineEvents_barrier : ((({ base with barriers := [(5, { arrived := [(0, 0), (383, 7)] })] } : State).barriers.look 5).arrived.map (fun p => ctxOf p.1 p.2)).Nodup := by decide +kernel
theorem witness_SamplerEvents : ∀ s : State, s = { base with cores := [(383, { smpQ := [⟨7, 1, 7, 4, .reset false⟩] }), (382, { smpOp := some ⟨0, 1, 7, 1, .thr true⟩, smpLand := { store := some (0, [1]) } })] } →
    ((s.core 383).smpOp = none ∧ (s.core 383).smpQ = [⟨7, 1, 7, 4, .reset false⟩]) ∧ (s.core 381).smpQ = [] ∧
    ((s.core 382).smpOp = some ⟨0, 1, 7, 1, .thr true⟩ ∧ (s.core 382).smpQ = [] ∧ (s.core 382).smpLand.bumps = [] ∧ (s.core 382).smpLand.edit = none) := by rintro _ rfl; decide +kernel
/-- A batching table enabled on die 0 for partition 0, its flip word at 0x20000. -/
def flipping : State := (mapped.setF BBT_CFG.EN 0 1).setF BBT_CFG.FLIPW 0 0x20000
theorem witness_SamplerEvents_flip : base.getF BBT_CFG.EN 63 = 0 ∧ flipping.getF BBT_CFG.EN 0 ≠ 0 ∧
    (flipping.vwrite 0 0 0 2 (flipping.getF BBT_CFG.FLIPW 0) (natLe 8 3) ≠ none) ∧ (flipping.bbt.look 0).waiting = [] := by decide +kernel
/-- A task in a state. -/
def tasked (t : Task) : State := { base with tasks := [(1, t)] }
theorem witness_TaskEvents_ready : ∀ s : State, s = tasked { task0 with st := .pending, cls := 1 } → (s.task 1).st = .pending ∧ s.levelOf (s.task 1).die (s.task 1).session < 2 ∧
    (base.task 1).st ≠ .pending ∧ (base.task 1).st ≠ .deferred ∧ (base.task 1).cls ≠ 1 := by rintro _ rfl; decide +kernel
theorem witness_TaskEvents_launch : ((tasked { task0 with st := .placing, cls := 1, occ := false }).task 1).st = .placing ∧ ((tasked { task0 with st := .placing, cls := 1 }).task 1).cls < 2 ∧
    ((tasked { task0 with st := .placing, cls := 3 }).task 1).occ = true ∧ (base.task 1).st ≠ .placing := by decide +kernel
/-- A dynamic kernel of one bundle (R179), and a launch whose variant names it: in host memory, or in HBM. -/
def kimg : List Byte :=
  natLe 132 (1 + 2 ^ 16 + 2 ^ 24 + 2 ^ 32 + 2 ^ 48 + 2 ^ 128 + 128 * 2 ^ 288 + 4 * 2 ^ 320 + (2 ^ 512 + 2 ^ 576 + 2 ^ 640 + 2 ^ 704) + 0x102 * 2 ^ 1024)
def launched (host : Bool) (k : List Byte) : State :=
  { mapped with
    mem := putBytes [] (if host then 0x8000100000 else 0x100000) k, dies := [(0, { lockArr := [⟨0, 0x20000, 16, if host then 0x800010001D else 0x10001D⟩] })], clusters := (List.range 12).map fun c => (c, { gated := true })
    tasks := [(1, { task0 with st := .placing, occ := false, var := { kernel := 0x20000 } })] }
theorem witness_TaskEvents_header : ∀ k : Task, k = (launched false kimg).task 1 → k.st = .placing ∧ k.occ = false ∧ (launched false kimg).headerAway k = true ∧
    (∀ k : Task, k = (tasked { task0 with st := .placing, cls := 1, occ := false }).task 1 → (tasked { task0 with st := .placing, cls := 1, occ := false }).headerAway k = false) := by
  rintro _ rfl; refine ⟨by decide +kernel, by decide +kernel, by decide +kernel, ?_⟩; rintro _ rfl; decide +kernel
/-- What a launch of such a kernel is refused with, and none where the kernel cannot be read. -/
def refusalOf (s : State) : Option Nat := (s.readKernel 0 0 0x20000).map fun r => s.refusal (s.task 1) r.1 r.2
theorem witness_TaskEvents_away : 2 ≤ ((launched true kimg).task 1).cls ∧ ((launched true kimg).task 1).launch = none ∧ (launched true kimg).headerAt ((launched true kimg).task 1) = none ∧
    (launched true []).headerAt ((launched true []).task 1) = none := by decide +kernel
theorem witness_TaskEvents_kernel : (((launched true kimg).taskBoundary 0).task 1).launch = none ∧ (((launched true kimg).taskBoundary 0).task 1).st = .placing ∧
    refusalOf ((launched true kimg).taskBoundary 0) = some 0 := by
  unfold State.taskBoundary State.powerUpdate
  simp only [show ((List.range 12).filter fun c => !((launched true kimg).cluster (12 * 0 + c)).gated).length = 0 by decide +kernel, Nat.zero_mul]
  decide +kernel
theorem witness_TaskEvents_refused : refusalOf ((launched true []).taskBoundary 0) = some 0x0301 := by
  unfold State.taskBoundary State.powerUpdate
  simp only [show ((List.range 12).filter fun c => !((launched true []).cluster (12 * 0 + c)).gated).length = 0 by decide +kernel, Nat.zero_mul]
  decide +kernel
theorem witness_TaskEvents_abort : (base.task 1).st = .running ∧ ((tasked { task0 with st := .deferred }).task 1).st = .deferred := by decide +kernel
theorem witness_TaskEvents_commit : ∀ s : State, s = tasked { task0 with run := .ending } → (s.task 1).run = .ending ∧ s.rplMore 1 = false ∧ s.chunkLong (s.task 1) = false ∧ (s.task 1).hdrNat 60 2 = 0 ∧
    (s.task 1).preemptReq = false ∧ (base.task 1).run ≠ .ending := by rintro _ rfl; decide +kernel
theorem witness_TaskEvents_pass : ∀ s : State, s = { tasked { task0 with run := .ending } with clusters := [(0, { rpl := { armed := true, task := some 1, pass := 0, passes := 2 } })] } →
    s.rplMore 1 = true ∧ (s.cluster ((s.task 1).group / 8)).rpl.task = some 1 ∧ (base.cluster ((base.task 1).group / 8)).rpl.task ≠ some 1 := by rintro _ rfl; decide +kernel
/-- A timer stream whose first release is at 1,000,000 ns, with the tick at zero device time. -/
def timed (now : Nat) : State :=
  { base with now := now, streams := [(0, { valid := true, timer := true, period := 1000000, rdl := 800000, phase := 1000000, vars := [{}] })] }
theorem witness_TaskEvents_timer : ∀ st : Stream, st = (timed 100).stream 0 0 → st.valid = true ∧ st.timer = true ∧ st.leaving = false ∧ st.cls = 0 ∧ st.copy = false ∧ st.shadow = false ∧
    (timed 100).tick < (timed 100).timerTick st ∧ (timed 100).tickBase ≠ none ∧ ((timed 100).die 0).stopped = false ∧ (timed 100).getF PRT_STAT.RST st.part ≠ 1 ∧
    (base.stream 0 1023).valid = false := by rintro _ rfl; decide +kernel
theorem witness_TaskEvents_released : ∀ (s : State) (st : Stream), s = timed 4000000 → st = s.stream 0 0 → s.timerTick st ≤ s.tick ∧ st.prevRel = none ∧
    s.timeToTick 1000000 true < s.timeToTick 1800000 false ∧ s.tick < s.timeToTick 1800000 false := by rintro _ _ rfl rfl; decide +kernel
theorem witness_TaskEvents_sisters : ∀ s : State, s = { base with launches := [(1, { tasks := [1, 2] }), (2, { tasks := [1, 2], reports := 1 }), (3, { refused := true })] } →
    ((s.launches.look 1).refused = false ∧ (s.launches.look 1).reports + 1 < (s.launches.look 1).tasks.length) ∧ ((s.launches.look 2).refused = false ∧ (s.launches.look 2).tasks.length ≤ (s.launches.look 2).reports + 1) ∧
    (s.launches.look 3).refused = true := by rintro _ rfl; decide +kernel
theorem witness_TaskEvents_admission : ∀ s : State, s = { base with dies := [(3, { regTest := some { code := 0, stream := 1023 } }), (2, { regTest := some { code := 0x0108 } })] } →
    (s.die 3).regTest = some { code := 0, stream := 1023 } ∧ 1023 < 1024 ∧ (s.die 2).regTest = some { code := 0x0108 } ∧ (s.die 1).regTest = none := by rintro _ rfl; decide +kernel
theorem witness_TaskEvents_gate : ∀ s : State, s = { base with now := 200000 } → (s.cluster 47).gated = false ∧ s.clusterBusy 47 = false ∧ s.gateIdle (47 / 12) ≠ 0 ∧
    (s.cluster 47).idleSince + s.gateIdle (47 / 12) ≤ s.now ∧ s.clusterBusy 0 = true ∧ (s.setF DLS_PWR_CFG.GATEIDLE 3 0).gateIdle 3 = 0 := by rintro _ rfl; decide +kernel
/-- Task-graph walks: one that waits for a task, one at a node that is read from locked memory. -/
def walking (st : TState) : State :=
  { mapped with
    tasks := [(1, task0), (2, { st := st })]
    clusters := [(0, { walks := [{ id := 1, waitFor := some 2 }, { id := 2, graph := 0x20000, tgn := 1 }] })] }
theorem witness_TaskEvents_walk : ((walking .running).cluster 0).walks.find? (·.id = 3) = none ∧ ((walking .running).cluster 0).walks.find? (·.id = 1) = some { id := 1, waitFor := some 2 } ∧
    ((walking .running).task 2).ended = false ∧ ((walking .aborted).task 2).st = .aborted := by decide +kernel
theorem witness_TaskEvents_node : ((walking .running).cluster 0).walks.find? (·.id = 2) = some { id := 2, graph := 0x20000, tgn := 1 } ∧
    (∃ b, (walking .running).vread 0 0 (0x20000 + 32 * 0) 32 0 = some b ∧ nodeBad b = false ∧ natAt b 0 1 = 0) := by
  refine ⟨by decide +kernel, List.replicate 32 0, by decide +kernel⟩
theorem witness_SendEvents_idle : ((tasked { task0 with run := .off }).task 1).sends = false ∧ (base.task 1).empties = 0 := by decide +kernel
/-- The task of one bundle at address 0 of locked code, a plain NOP in slot 1 with EMPTY 1. -/
def coded : State :=
  { base with
    dies := [(0, { lockArr := [⟨0, 0, 16, 0x10001D⟩] })], clusters := [(0, { icache := [⟨0, 0, natLe 128 0x102⟩] })]
    mem := putBytes [] 0x100000 (natLe 8 0x102) }
theorem witness_SendEvents_bundle : ∀ k : Task, k = coded.task 1 → k.sends = true ∧ (k.run = .sending ∨ k.run = .holding) ∧ k.started = true ∧ k.rblock = none ∧ k.preemptReq = false ∧
    (coded.judge 1).hold = false ∧ (coded.judge 1).fault = none := by rintro _ rfl; decide +kernel
theorem witness_SendEvents_empty : ∀ s : State, s = tasked { task0 with empties := 15 } → (s.task 1).sends = true ∧ (s.task 1).empties ≠ 0 ∧ (s.task 1).run ≠ .blocked ∧
    s.cycleHolds 1 (s.ahead 1) = false ∧ (s.ahead 1).fullQueues (s.task 1) = [] ∧ (s.acceptDue 1).2 = true := by rintro _ rfl; decide +kernel
/-- A team that waits for a load of its own which has not arrived by its offset. -/
def late (used : Nat) : State :=
  { tasked { task0 with empties := 1, cyc := 30, holdUsed := used, hdr := (hdrOf 0 0).take 12 ++ [2] ++ (hdrOf 0 0).drop 13, var := { hold := 2 } } with
    loads := [(1, { id := 1, task := 1, land := 30, need := 1, width := 8 })] }
theorem witness_SendEvents_hold : (late 1).cycleHolds 1 ((late 1).ahead 1) = true ∧ ((late 1).task 1).dynamic = false ∧ ((late 1).task 1).inSeq = false ∧
    ((late 1).task 1).holdUsed < ((late 1).task 1).budget ∧ ((late 2).task 1).budget ≤ ((late 2).task 1).holdUsed ∧ (late 2).cycleHolds 1 ((late 2).ahead 1) = true := by decide +kernel
theorem witness_SendEvents_eligible : ∀ s : State, s = { tasked { task0 with run := .blocked } with groups := [(0, { running := some 2 })] } → (s.task 1).run = .blocked ∧
    (s.group (s.task 1).group).running ≠ none := by rintro _ rfl; decide +kernel
theorem witness_SendEvents_chosen : ∀ s : State, s = tasked { task0 with run := .eligible } → (s.task 1).run = .eligible ∧
    (s.tasks.filter fun e => e.2.group = (s.task 1).group && e.2.resident) = [(1, s.task 1)] ∧ (s.group (s.task 1).group).running = none ∧
    (s.die ((s.task 1).group / 96)).frozen = none ∧ s.smpOther (s.task 1) = false := by rintro _ rfl; decide +kernel
/-- A task at the end of a drain. -/
def drained (saving : Bool) : State := tasked { task0 with st := .draining, run := .draining, saving := saving, stubEnd := 0, drainFrom := 0, lc := 10, cyc := 10 }
theorem witness_SendEvents_drain : ((drained false).task 1).run = .draining ∧ ((drained false).task 1).saving = false ∧ (drained false).cycleHolds 1 ((drained false).ahead 1) = false ∧
    ((drained false).ahead 1).fullQueues ((drained false).task 1) = [] ∧ ((((drained false).ahead 1).aheadCycle 1 10).aheadStore 1 10).quiet 1 = true ∧
    ((drained false).task 1).lateFault = none ∧ ((drained false).task 1).evicting = false ∧ (base.task 1).run ≠ .draining := by decide +kernel
theorem witness_SendEvents_saved : ((drained true).task 1).saving = true ∧ (drained true).copiesTo 1 2 = false := by decide +kernel
theorem witness_SendEvents_saving : ∀ k : Task, k = { task0 with st := .draining, run := .draining, saving := true, left := 68, hdr := natLe 128 (68 * 2 ^ 160) } → k.saving = true ∧ k.left ≠ 0 ∧
    (tasked k).iced k = false ∧ k.seqCycles < k.seqBound := by rintro _ rfl; decide +kernel
theorem witness_SendEvents_loading : ∀ k : Task, k = { task0 with run := .restoring, resume := true, saving := true, left := 68, hdr := natLe 128 (68 * 2 ^ 176) } → k.st ≠ .placing ∧ k.saving = true ∧ k.left ≠ 0 ∧
    (tasked k).iced k = false ∧ k.seqCycles < k.seqBound := by rintro _ rfl; decide +kernel
theorem witness_SendEvents_restore : (base.task 1).resume = false ∧ ((tasked { task0 with resume := true }).task 1).resume = true ∧ 0 ≤ (task0.hdrNat 22 2) ∧
    (∀ k : Task, k = { task0 with st := .placing, resume := true, hdr := natLe 128 (68 * 2 ^ 176) } → k.st = .placing ∧ 68 ≤ k.hdrNat 22 2) := by
  refine ⟨by decide +kernel, by decide +kernel, Nat.zero_le _, ?_⟩; rintro _ rfl; decide +kernel
theorem witness_SendEvents_raised : Raisable base 1 := ⟨by decide +kernel, by decide +kernel, by decide +kernel⟩
theorem witness_SendEvents_fill : ∀ (w : Asker) (s : State), w = { task := 1, tr := 4000, kind := 3, va := 128 * 1, wake := some (.icacheFill 0 0 1), ph := phMem } → s = coded →
    (s.findXlate 0 0 [] 0 w).1 = .hit ⟨0, 0, 16, 0x10001D⟩ ∧ paD ((⟨0, 0, 16, 0x10001D⟩ : Xlate).pa (128 * 1)) = false ∧ isHost ((⟨0, 0, 16, 0x10001D⟩ : Xlate).pa (128 * 1)) = false ∧
    s.llcHas 0 0 ((⟨0, 0, 16, 0x10001D⟩ : Xlate).pa (128 * 1)) 128 = false ∧ (s.cluster 0).icWait.contains (0, 1) = false ∧ s.lineTasks 0 0 (1 / 512) = [1] ∧ (s.die 0).walkTlb = [] ∧ (s.task 1).dord = 0 ∧
    (s.cluster 0).icache.length < 2048 ∧ (base.findXlate 0 0 [] 0 w).1 = .wait ∧
    (∀ u : State, u = { base with dies := [(0, { badWalks := [{ tr := 4000, kind := 3, cause := 0x1A }] })] } → (u.findXlate 0 0 [] 0 w).1 = .fault 0x1A) ∧
    (∀ u : State, u = { coded with clusters := [(0, { icWait := [(0, 1)] })] } → (u.cluster 0).icWait.contains (0, 1) = true) := by
  rintro _ _ rfl rfl
  refine ⟨by decide +kernel, by decide +kernel, by decide +kernel, by decide +kernel, by decide +kernel, by decide +kernel, by decide +kernel, by decide +kernel, by decide +kernel, by decide +kernel, ?_, ?_⟩
  · rintro _ rfl; decide +kernel
  · rintro _ rfl; decide +kernel
/-- A port that is up, one that trains, and one that is down. -/
def ported : State := (base.setF FAB_PORT_STAT.STATE 0 2).setF FAB_PORT_STAT.STATE 1 1
theorem witness_FabricEvents_ports : ported.getF FAB_PORT_STAT.STATE 0 = 2 ∧ ported.getF FAB_PORT_STAT.STATE 1 = 1 ∧ ported.getF FAB_PORT_STAT.STATE 35 ≠ 1 ∧ ported.getF FAB_PORT_STAT.STATE 35 ≠ 2 ∧
    (ported.die (35 / 9)).stopped = false ∧ (ported.ports.look 0).q = [] ∧ (ported.ports.look 0).want = none ∧ ported.due (.retrainComplete 0 none) = false ∧ ported.getF FAB_PORT_STAT.REASON 35 = 0 ∧
    ({ seq := 7, cls := 3, part := 0, msg := .data [] } : Flit).seq ∉ (ported.ports.look 0).got := by decide +kernel
theorem witness_FabricEvents_send : ∀ (f : OutFlit) (s : State), f = { cls := 3, fl := { seq := 0, cls := 3, part := 0, msg := .data [] } } → s = { ported with ports := [(0, { control := [f] }), (1, { q := [f] })] } →
    (s.ports.look 0).q = [] ∧ (s.ports.look 0).control = [f] ∧ (s.ports.look 1).q = [f] ∧ f.cls = 3 ∧ (s.ports.look 1).control = [] := by rintro _ _ rfl rfl; decide +kernel
theorem witness_FabricEvents_replay : ∀ (f : OutFlit) (s : State), f = { fl := { seq := 7, cls := 3, part := 0, msg := .idle } } → s = { ported with ports := [(0, { sent := [f], replays := 15 }), (1, { sent := [f], replays := 16 })] } →
    (f ∈ (s.ports.look 0).sent ∧ f.fl.seq = 7 ∧ (s.ports.look 0).replays < 16) ∧ f ∈ (s.ports.look 1).sent ∧ 16 ≤ (s.ports.look 1).replays := by rintro _ _ rfl rfl; decide +kernel
theorem witness_FabricEvents_maps : sameMap [1] (ported.localMap 35) = false ∧ sameMap (ported.localMap 35) (ported.localMap 35) = true ∧ ported.ingressOk 35 (ported.localMap 35) = true := by decide +kernel
/-- Window 63 of 2 MiB at offset 0, for tag 7 and partition 0. -/
def windowed : State := ((base.setF FAB_WIN.EN 63 1).setF FAB_WIN.SIZE 63 1).setF FAB_WIN.TAG 63 7
def access (off tag : Nat) : RemoteAccess :=
  { id := 9, module := 0, tag := BitVec.ofNat 16 tag, cls := 0, kind := .read, offset := off, bytes := [], mask := [], len := 8 }
theorem witness_FabricEvents_access : (access 2097144 7).module = windowed.getF FAB_DOM_CFG.MODID 0 ∧ windowed.window (access 2097144 7).offset 8 = some 63 ∧ windowed.window (access 2097152 7).offset 8 = none ∧
    windowed.getF FAB_WIN.TAG 63 = (access 2097144 7).tag.toNat ∧ windowed.getF FAB_WIN.TAG 63 ≠ (access 2097144 8).tag.toNat ∧ backed (access 2097144 7).offset = true ∧ (∀ e ∈ windowed.fabIn, e.1 ≠ access 2097144 7) := by decide +kernel
theorem witness_FabricEvents_response : ∀ s : State, s = { base with fabric := [(1, { id := 1, load := some 2 })], loads := [(2, { id := 2, task := 1, need := 2 })], nextId := 3 } → (s.fabric.look 3).id ≠ 3 ∧
    (s.fabric.look 1).id = 1 ∧ (s.fabric.look 1).walk = none ∧ (s.fabric.look 1).line = none ∧ (s.fabric.look 1).poll = none ∧ (s.fabric.look 1).cmd = none ∧ (s.fabric.look 1).load = some 2 ∧ 1 < s.nextId ∧
    s.barriers = [] ∧ (s.loads.look 2).id = 2 ∧ 1 < (s.loads.look 2).need ∧ (s.loads.look 2).late = false ∧ (∀ e ∈ s.banks, e.2.heldStores = []) ∧ Raisable s (s.loads.look 2).task := by
  rintro _ rfl; exact ⟨by decide +kernel, by decide +kernel, rfl, rfl, rfl, rfl, rfl, by decide, by decide +kernel, by decide +kernel, by decide +kernel, by decide +kernel, by decide +kernel, by decide +kernel,
    by decide +kernel, by decide +kernel⟩
theorem witness_FabricEvents_frame : ∀ s : State, s = { ported with ports := [(0, { rejoin := true, routes := [63] }), (1, { fell := true })] } → s.getF FAB_PORT_STAT.STATE 1 ≠ 2 ∧ (s.ports.look 1).fell = true ∧
    s.getF FAB_PORT_STAT.STATE 0 = 2 ∧ (s.ports.look 0).rejoin = true := by rintro _ rfl; decide +kernel
theorem witness_FabricEvents_receive : ported.tickBase ≠ none ∧ (∀ o : PortSt, o = { want := some 5, got := [3] } → o.takes ⟨5, 3, 0, .data [], 0, 0, false⟩ = true ∧ o.want = some 5 ∧ 3 ∈ o.got) ∧
    (∀ s : State, s = { windowed with fabIn := [(access 2097144 7, [1])] } → s.fabIn = [(access 2097144 7, [1])] ∧ s.window (access 2097144 7).offset 8 = some 63) ∧
    (access 2097144 7).kind = .read ∧ (access 2097144 7).offset < 2 ^ 39 := by
  refine ⟨by decide +kernel, ?_, ?_, rfl, by decide +kernel⟩
  · rintro _ rfl; decide +kernel
  · rintro _ rfl; decide +kernel
theorem witness_FabricEvents_barrier : ∀ s : State, s = { base with barriers := [(domKey 255, { level := 3, bar := 255, children := [64 + 0] }), (dieKey 255 0, { level := 3, bar := 255, arrived := [(0, 0)] })], allred := [(255, { dsts := [(0, 0, 3968)] })] } →
    (s.barriers.look (domKey 255)).children = [64 + 0] ∧ (s.barriers.look (dieKey 255 0)).pending = 0 ∧
    ((s.barriers.look (dieKey 255 0)).arrived.map fun p => ctxOf p.1 p.2).Nodup ∧ (s.allred.look 254).dsts = [] ∧ (s.allred.look 255).dsts = [(0, 0, 3968)] ∧ s.capturing ((s.holder 0 0).getD 0) = false ∧
    3968 + 128 ≤ (s.bank (ctxOf 0 0)).spadSize := by rintro _ rfl; decide +kernel
/-- A ring matched by an enabled entry, and a token of 40 bytes for it: RELEASE 1, DEADLINE 2, 8 bytes of data. -/
def receiving : State := (base.setF UEE_MATCH.EN 0 1).setF UEE_RXQ_CFG.EN 0 1
def token (n : Nat) : SensorMsg := ⟨0, 0, 0, 5, 0, natLe n (1 + 2 * 2 ^ 64 + 8 * 2 ^ 160)⟩
theorem witness_EndpointEvents_token : (receiving.die 0).stopped = false ∧ receiving.tickBase ≠ none ∧ receiving.rxMatch 0 (token 40) = some 0 ∧ receiving.rxEnabled (512 * 0 + 0) = true ∧
    receiving.rxRefuse (512 * 0 + 0) (token 40) = none ∧ receiving.rxRefuse (512 * 0 + 0) (token 39) = some UEE_RXQ_STAT.BADHDR := by decide +kernel
theorem witness_EndpointEvents_unmatched : ({ base with dies := [(3, { stopped := true })] } : State).rxMatch 3 (token 40) = none ∧ base.tickBase ≠ none ∧ State.reset.tickBase = none := by decide +kernel
theorem witness_EndpointEvents_rings : (receiving.setF UEE_RXQ_CFG.MODE 0 2).getF UEE_RXQ_CFG.MODE 0 = 2 ∧ (receiving.setF UEE_RXQ_CFG.MODE 0 2).rxEnabled 0 = true ∧ base.getF UEE_RXQ_CFG.MODE 2047 ≠ 2 ∧
    (∀ x : PubMsg, x = { id := 4, wait := [0] } → ({ base with rx := [(0, { pubQ := [x] })] } : State).rx.look 0 = { pubQ := [x] } ∧ 0 ∉ x.look ∧ x.wait = [0]) ∧
    (∀ x : PubMsg, x = { id := 4, wait := [2, 3] } → 2 ∉ x.look ∧ x.wait = [2, 3] ∧ 3 ≠ 2 ∧ 3 / 2 = 1) := by
  refine ⟨by decide +kernel, by decide +kernel, by decide +kernel, ?_, ?_⟩ <;> · rintro _ rfl; decide +kernel
theorem witness_EndpointEvents_chunk : (base.task 1).txSlot = none ∧ (∀ k : Task, k = { task0 with txSlot := some (511, 3), chunkNo := 1 } → (tasked k).task 1 = k ∧ k.txSlot = some (511, 3) ∧ k.chunkLook = false ∧
    ((tasked k).tasks.filter fun e => e.2.die = 0 && e.2.stream = k.stream && e.2.txSlot.isSome && decide (e.2.chunkNo ≠ 0)) = [(1, k)]) := by refine ⟨by decide, ?_⟩; rintro _ rfl; decide +kernel
/-- The checkpoint engine at work, its completion word at 0x20000, locked for whatever partition it uses. -/
def saving : State :=
  { base.setF UEE_CKPT_CTL.STATE 0 1 with dies := [(0, { lockArr := [⟨ckPart 0, 0x20000, 16, 0x10001D⟩], ckptDesc := natLe 64 (0x20000 * 2 ^ 256) })] }
theorem witness_EndpointEvents_checkpoint : saving.getF UEE_CKPT_CTL.STATE 0 = 1 ∧ base.getF UEE_CKPT_CTL.STATE 0 ≠ 1 ∧ saving.agenda = [] ∧ ckDone (saving.die 0).ckptDesc = 0x20000 ∧ ckLen (saving.die 0).ckptDesc ≤ 64 * (saving.die 0).ckptPos ∧
    (64 * 0 < ckLen (natLe 64 (65536 * 2 ^ 64))) ∧ ((saving.die 0).ckptDesc.drop 40).take 8 = natLe 8 0 ∧ saving.vwrite 0 (ckPart 0) 0 3 0x20000 (natLe 8 0) ≠ none := by
  refine ⟨by decide +kernel, by decide +kernel, by decide +kernel, by decide +kernel, by decide +kernel, by decide +kernel, by decide +kernel, ?_⟩
  have h : ∀ p < 16, (({ base with dies := [(0, { lockArr := [⟨p, 0x20000, 16, 0x10001D⟩], ckptDesc := natLe 64 (0x20000 * 2 ^ 256) })] } : State).setF UEE_CKPT_CTL.STATE 0 1).vwrite
      0 p 0 3 0x20000 (natLe 8 0) ≠ none := by decide +kernel
  exact h (ckPart 0) (Nat.mod_lt _ (by decide))
theorem witness_EndpointEvents_clock : base.takesPtp ⟨base.timingPort, 0, 0, 0, [5], none⟩ = true ∧ base.takesPtp ⟨base.timingPort + 1, 0, 0, 0, [5], none⟩ = false ∧ base.ptp.master = none ∧
    base.takesPtp ⟨base.timingPort, 0, 0, 0, [5], some (-1)⟩ = true ∧ (∀ s : State, s = { base with ptp := { master := some [1, 5] } } → s.ptp.master ≠ none ∧
      s.takesPtp ⟨s.timingPort, 0, 0, 0, [5], some 7⟩ = true ∧ s.ptp.master.bind (·.getLast?) = [5].getLast? ∧ s.ptp.master.bind (·.getLast?) ≠ [6].getLast?) := by
  refine ⟨by decide +kernel, by decide +kernel, by decide +kernel, by decide +kernel, ?_⟩; rintro _ rfl; decide +kernel
theorem witness_EndpointEvents_boundary : (({ base with dies := [(0, { stopped := true })] } : State).die 0).stopped = true ∧ base.getF PTC_STAT.PRIMARY 0 = 0 ∧ base.anyAdmitted = false ∧
    (∀ s : State, s = { base with ptp := { stepPending := true }, streams := [(0, { valid := true, cls := 1 })] } → s.ptp.stepPending = true ∧ s.anyAdmitted = true) ∧
    (∀ s : State, s = { State.reset with ptp := { waited := true } } → s.tickBase = none ∧ s.getF PTC_STAT.STATE 0 = 0 ∧ s.ptp.waited = true) := by
  refine ⟨by decide +kernel, by decide +kernel, by decide +kernel, ?_, ?_⟩ <;> · rintro _ rfl; decide +kernel
theorem witness_EndpointEvents_states : base.getF PTC_STAT.STATE 0 = 0 ∧ (base.setF PTC_STAT.STATE 0 1).getF PTC_STAT.STATE 0 = 1 ∧ (base.setF PTC_STAT.STATE 0 2).getF PTC_STAT.STATE 0 = 2 ∧
    (base.setF PTC_STAT.STATE 0 3).getF PTC_STAT.STATE 0 = 3 ∧ (State.reset.setF PTC_STAT.STATE 0 2).tickBase = none ∧ base.now < base.ptp.from_ + seconds (max 1 (base.getF PTC_CFG.LOCKWAIT 0)) ∧
    ({ base with ptp := { from_ := 0 }, now := 4000000000 * 65536 } : State).ptp.from_ + seconds (max 1 (base.getF PTC_CFG.LOCKWAIT 0)) ≤ 4000000000 * 65536 := by decide +kernel
/-- A copy of period 7 of a shadowed stream on die 1, committed, with its heartbeat. -/
def shadowed (h : List Heartbeat) (up : Nat) (st : TState) : State :=
  { base with
    tasks := [(1, { die := 1, stream := 3, period := 7, copy := true, st := st, chunkCrc := some 9 })], dies := [(1, { hbs := h })], pairUp := BitVec.ofNat 4 up }
theorem witness_DieEvents_heartbeat : (base.die 3).stopped = false ∧ (({ base with dies := [(3, { stopped := true })] } : State).die 3).stopped = true ∧ base.pairLive (3 / 2) = true := by decide +kernel
theorem witness_DieEvents_relay : base.crossDown.look (linkKey 3 0) = false ∧ (({ base with crossDown := [(linkKey 3 0, true)] } : State).crossDown.look (linkKey 3 0)) = true := by decide +kernel
theorem witness_DieEvents_levels : base.tick < 0 + 8000 ∧ ({ base with now := 8000 } : State).tick ≥ 0 + 8000 ∧ base.getF DLS_SES.VALID 1023 = 0 ∧ (base.setF DLS_SES.VALID 1023 1).getF DLS_SES.VALID 1023 = 1 := by decide +kernel
theorem witness_DieEvents_check : ∀ (h : Heartbeat) (s : State), h = ⟨0, 3, 7, 0, 0, 9⟩ → s = shadowed [h] 0xF .committed → s.copyOf 1 3 7 = some 1 ∧ (s.die 1).stopped = false ∧ s.pairLive (1 / 2) = true ∧
    (s.die 1).hbs.find? (fun h => h.stream = 3 && h.period = 7) = some h ∧ (s.task 1).st = .committed ∧ (s.task 1).chunkCrc = some h.crc ∧ base.copyOf 1 3 7 = none := by rintro _ _ rfl rfl; decide +kernel
theorem witness_DieEvents_take_over : ∀ s : State, s = shadowed [] 0xF .running → s.copyOf 1 3 7 = some 1 ∧ s.pairLive 0 = true ∧
    (s.die 1).hbs.find? (fun h => h.stream = 3 && h.period = 7) = none ∧ s.pathHeld 0 = true ∧ ({ s with pathFrom := [(0, 100)] } : State).pathHeld 0 = false := by rintro _ rfl; decide +kernel
theorem witness_DieEvents_heat : base.getF DLS_THERM_STAT.STATE 0 ≠ 3 ∧ base.getF DLS_THERM_STAT.STATE 0 ≠ 2 ∧ (base.setF DLS_THERM_STAT.STATE 0 2).getF DLS_THERM_STAT.STATE 0 = 2 ∧
    (115 ≤ 115 ∧ 105 ≤ 105 ∧ 114 < 115 ∧ 95 ≤ 95 ∧ 104 < 105 ∧ 89 < 90 ∧ 90 ≤ 94 ∧ 94 < 95 ∧ 99 < 100 ∧ 100 ≤ 100) := by decide +kernel
theorem witness_DieEvents_stop : ∀ s : State, s = { base with dies := [(0, { stopped := true, stopCause := 0x37, frozen := some 1 })] } → (s.die 0).stopped = true ∧ (s.die 0).frozen ≠ none ∧ (s.die 1).frozen = none ∧
    (List.range 4).find? (fun x => !(s.die x).stopped) = some 1 := by rintro _ rfl; decide +kernel
theorem witness_DieEvents_machine_check : (0x37#8 = 0x37 ∨ 0x37#8 = 0x38) ∧ (0x31#8 ≠ 0x37 ∧ 0x31#8 ≠ 0x38) ∧ 4095 - 4095 % 8 + 8 ≤ (base.bank (ctxOf 0 0)).spadSize ∧ (1 / 2 = (0 : Nat) ∧ (1 : Nat) / 2 ≠ 2 / 2) := by decide +kernel
theorem witness_DieEvents_sector : Raisable base 1 := witness_SendEvents_raised
theorem witness_StartEvents_reset : base.journal = [] ∧ (∀ d < 4, base.getF SJ_MARKS.MARKS d = 0) := by decide +kernel
/-- Die d in a step of the measured start. -/
def starting (d n : Nat) : State := { base with dies := [(d, { starting := true, startStep := n })] }
theorem witness_StartEvents_steps : ((starting 0 0).die 0).starting = true ∧ ((starting 0 0).die 0).startStep = 0 ∧ (base.die 0).starting = false ∧ ((starting 3 0).die 3).starting = true ∧ stepImage 1 = true ∧ stepImage 9 = true ∧
    ((starting 0 9).die 0).startStep < 10 ∧ stepOptional (9 + 1) = false ∧ base.mark 0 (2 * (4 + 1)) = false ∧ ((starting 0 10).die 0).startStep = 10 ∧ base.tickBase ≠ none ∧
    State.reset.tickBase = none := by decide +kernel
theorem witness_StartEvents_absent : (∀ x < 4, x ≠ 1 → ((starting 1 0).die x).absent = false) ∧ (∀ x < 4, x ≠ 1 → ((starting 1 0).die x).starting = false ∨ ((starting 1 0).die x).startStep = 0) ∧
    (∀ s : State, s = { base with dies := [(1, { starting := true }), (0, { starting := true, startStep := 1 })] } → (s.die 1).startStep = 0 ∧ ∃ x < 4, x ≠ 1 ∧ (s.die x).starting = true ∧ 1 ≤ (s.die x).startStep) := by
  refine ⟨by decide +kernel, by decide +kernel, ?_⟩; rintro _ rfl; exact ⟨by decide +kernel, 0, by decide +kernel⟩
theorem witness_StartEvents_images : base.getF SJ_IMG_CTL.STATE 0 ≠ 1 ∧ (base.setF SJ_IMG_CTL.STATE 0 1).getF SJ_IMG_CTL.STATE 0 = 1 ∧ ((base.setF SJ_IMG_CTL.STATE 0 1).setF SJ_IMG_CTL.LEN 0 1).getF SJ_IMG_CTL.LEN 0 ≠ 0 := by
  decide +kernel
theorem witness_StartEvents_report : base.vwrite 0 15 0 3 (64 * base.getF PRT_ATT_CTL.DEST 15) (base.signedReport 15) = none := by
  have h : (base.signedReport 15).length = 192 := by
    simp only [State.signedReport, List.length_append, List.length_take, List.length_replicate, show (base.report 15).length = 128 by decide +kernel]; omega
  obtain ⟨p, hp⟩ := Option.isSome_iff_exists.mp (by decide +kernel : (base.rangeFault 0 15 0 192 1).isSome = true)
  unfold State.vwrite
  rw [h, show 64 * base.getF PRT_ATT_CTL.DEST 15 = 0 by decide +kernel, hp]
theorem witness_StartEvents_request : (1 : Fn).val ≠ 0 ∧ (0 : Fn).val = 0 ∧ base.hostUp = true := by decide +kernel
theorem witness_StartEvents_snapshot : ∀ s : State, s = (base.setF SNP_CTL.PIN 0 1).setF SNP_CTL.ARM 0 1 → s.getF SNP_CTL.PIN 0 = 1 ∧ s.getF SNP_CTL.ARM 0 = 1 ∧ s.getF SNP_STAT.STATE 0 ≠ 2 ∧ s.snap.pending = none ∧
    base.getF SNP_CTL.PIN 0 ≠ 1 ∧ (({ s with snap := { pending := some 1 } } : State).snap.pending ≠ none) := by rintro _ rfl; decide +kernel
/-- A launch queue of die 0 that takes blocks for a system stream of partition 15, its completion word at 0x20000. -/
def launching : State :=
  { ((served.setF HIF_LQ_CFG.EN 15 1).setF SJ_STAT.READY 0 1) with
    streams := [(5, { valid := true, part := 15, cls := 2 })], dies := [(0, { lockArr := [⟨15, 0x20000, 16, 0x10001D⟩] })] }
def launchBlock : BitVec 512 := BitVec.ofNat 512 (2000000 * 2 ^ 192 + 0x20000 * 2 ^ 256 + 5 * 2 ^ 384 + 2 * 2 ^ 400)
theorem witness_HostEvents_launch : ∀ (s : State) (st : Stream) (w : List Byte), s = launching → st = s.stream 0 5 → w = natLe 64 launchBlock.toNat → s.vfUp 16 = true ∧
    ¬(s.getF HIF_LQ_CFG.EN 15 = 0 ∨ s.getF PRT_STAT.RST 15 = 1 ∨ s.getF SJ_STAT.READY 0 = 0 ∨ s.tickBase = none ∨ (s.die 0).stopped = true ∨ 2 ^ min 8 (s.getF HIF_LQ_CFG.DEPTH 15) ≤ s.lqOcc 15) ∧
    s.blockCause 0 15 w = 0 ∧ 2 ≤ st.cls ∧ st.shadow = false ∧ s.timeToTick s.deviceTime true < s.timeToTick (natAt w 24 8) false ∧ s.tick < s.timeToTick (natAt w 24 8) false ∧ st.prevRel = none := by
  rintro _ _ _ rfl rfl rfl; decide +kernel
theorem witness_HostEvents_launch_refused : launching.blockCause 0 15 (natLe 64 0) ≠ 0 ∧ served.getF HIF_LQ_CFG.EN 15 = 0 ∧ served.vfUp 16 = true ∧ base.vfUp 16 = false := by decide +kernel
theorem witness_HostEvents_signal : ∀ s : State, s = served.setF HIF_SIG_CFG.EN 1023 1 → s.vfUp 16 = true ∧ s.getF PRT_STAT.RST 15 ≠ 1 ∧ s.getF HIF_SIG_CFG.EN 1023 = 1 ∧ s.getF HIF_SIG_CFG.EN 1022 = 0 ∧
    (s.setF PRT_STAT.RST 15 1).getF PRT_STAT.RST 15 = 1 := by rintro _ rfl; decide +kernel
/-- A signal of partition 0 that waits for core 0's context 0, at the last word of its range. -/
def signalled (run : Run) (clusters : Nat) : State := { (tasked { task0 with run := run }).setF PRT_CLUSTERS.MASK 0 clusters with sigDef := [(0, 0, 4088, 7, 0)] }
theorem witness_HostEvents_store : (signalled .holding 1).sigHeld 0 0 = true ∧ (signalled .sending 1).sigHeld 0 0 = false ∧ ((signalled .sending 1).die 0).stopped = false ∧ ((signalled .sending 1).bank 0).holds 4088 8 = true ∧
    (signalled .sending 1).ownsCluster 0 0 = true ∧ (signalled .sending 1).capturing (((signalled .sending 1).holder 0 0).getD 0) = false ∧ (signalled .sending 0).ownsCluster 0 0 = false ∧ base.sigDef = [] := by decide +kernel
theorem witness_HostEvents_reset : base.hostUp = true ∧ base.getF PRT_STAT.RST 0 ≠ 1 ∧ (base.setF PRT_STAT.RST 15 1).getF PRT_STAT.RST 15 = 1 ∧ (base.task 1).part = 0 ∧ (base.task 1).resident = true ∧ (base.task 1).run ≠ .draining := by decide +kernel
theorem witness_HostEvents_scrub : ∀ s : State, s = { base.setF PRT_CLUSTERS.MASK 0 (2 ^ 47) with scrubbing := [(0, [0x800000000000])] } → s.scrubbing.look 0 = [0x800000000000] ∧ bit (0x800000000000 : BitVec 176).toNat 47 = true ∧ bit (s.getF PRT_CLUSTERS.MASK 0) 47 = true := by
  rintro _ rfl; decide +kernel
theorem witness_Landings : base.env.landOnly = false ∧ (base.core 0).cube = [] ∧ (base.core 0).smpOp = none ∧ (7 : Nat) ≠ 0 ∧ 4095 + 1 ≤ 4096 ∧
    (∀ s : State, s = { base with banks := [(0, { spadSize := 4096, pend := [⟨11, 89, .s 7 1⟩] })] } → (s.bank (ctxOf 0 0)).pend = [⟨11, 89, .s 7 1⟩]) ∧
    ∀ s : State, s = { base with banks := [(0, { spadSize := 4096, pend := [⟨11, 89, .spad 4095 [1]⟩], lastTick := 100 })] } → (s.bank (ctxOf 0 0)).pend = [⟨11, 89, .spad 4095 [1]⟩] ∧
      (s.bank (ctxOf 0 0)).lastTick = s.now ∧ s.capturing s.env.task = false := by
  refine ⟨by decide +kernel, by decide +kernel, by decide +kernel, by decide, by decide, ?_, ?_⟩ <;> (rintro _ rfl; decide +kernel)
theorem witness_Landings_flags : trapCause (orFlags base.mine.fmt 1) 1 = none ∧ Raisable base base.env.task ∧ base.cur.run ≠ .draining ∧ base.cur.run ≠ .restoring ∧
    ∃ c, trapCause (orFlags (base.mine.fmt ||| BitVec.ofNat 64 (2 ^ 50)) 1) 1 = some c :=
  ⟨by decide +kernel, witness_SendEvents_raised, by decide +kernel, by decide +kernel, 0x61, by decide +kernel⟩
theorem witness_Frames : base.capturing base.env.task = false ∧ paD 0xFFFFFFFFF8 = false ∧ paOff 0xFFFFFFFFF8 + (natLe 8 1).length ≤ 2 ^ 40 ∧ (base.bank base.b).heldStores = [] ∧ (base.bank base.b).fence = 0 := by decide +kernel
theorem witness_Frames_forms : (Instr.add ⟨1, 2, 3, 0⟩).wf = true ∧ encodeOp (.add ⟨1, 2, 3, 0⟩) = some (1, 1, 0b00000100001000001100#20) ∧ (∀ l < 4, base.cur.loopKind l ≠ 1 ∧ base.cur.loopKind l ≠ 2) ∧
    bit (base.cur.hdrNat 24 2) 15 = true ∧ base.env.probe = false := by decide +kernel
/-- A bulk task whose stub table covers its code, and a page fault of an access of its own. -/
theorem witness_Exceptions : (Instr.add ⟨1, 2, 3, 1⟩).wf = false ∧ encodeOp (.add ⟨1, 2, 3, 1⟩) ≠ none ∧ Raisable base 1 ∧ base.getF PRT_STAT.RST (base.task 1).part = 0 ∧ base.offers 1 { cause := 0x12 } = none ∧
    ((tasked { task0 with st := .committed }).task 1).resident = false ∧ (base.setF DLS_TREC_CFG.EN 0 1).getF DLS_TREC_CFG.EN 0 = 1 :=
  ⟨by decide, by decide, witness_SendEvents_raised, by decide +kernel, by decide +kernel, by decide +kernel, by decide +kernel⟩
theorem witness_NothingStops : base.lg.active = false ∧ ∃ t, exec (.lgnop) base = .next t := ⟨rfl, _, rfl⟩
theorem witness_MemoryStaysCanonical : Memory.wf coded.mem = true ∧ isNext (step base) = true := by decide +kernel
theorem witness_DecodeEncode : (Instr.cmo ⟨63, 63, 2, 2⟩).wf = true ∧ encodeOp (.cmo ⟨63, 63, 2, 2⟩) = some (7, 0x0A, 0b11111111111110100000#20) ∧ encodeLogit (.lgout 7) = some 0xB8E0 := by decide
theorem witness_EncodeDecode : decodeOp 7 0b000101011111111111110100000#27 = .ok (.cmo ⟨63, 63, 2, 2⟩) ∧ decodeLogit 0xB8E0#16 = .ok (.lgout 7) := ⟨rfl, rfl⟩

/-! darmas (10 R266's example; 18, the kernel `bump`) -/

/-- The example of R266, read in a kernel's open `text` section. -/
def darmasExample : Darmas.Source :=
  ((Darmas.linesOf ("start:  s: MOVI s6, 100\n c: NOP // folded\n a: LSET 0, s6\n.stop\n" ++
    "body: s: ADD s4, s4, s5 || v0: (p3) VFMA.f32 v8, v9, v10 ||\n c: LEND 0, body").toList).foldl Darmas.Asm.line
      { src := { kernels := [{}] }, kernel := true, sec := some .text }).src
theorem test_darmas_example : darmasExample.symbol (some 0) "body".toList = some 0x10 ∧
    (darmasExample.kernels.map fun k => (Darmas.placeAllBundles (darmasExample.symbol (some 0)) k.textSpans).flatMap fun b => b.hdr :: b.words.map (·.2)) =
      [[0x00000102, 0x02118064, 0x00000004, 0x00106000, 0x0000200B, 0x00700000, 0x00110414, 0x18442550]] := by decide +kernel
/-- `ADD` with bs in the place of a, and a branch to no label: the lines of the errors. -/
theorem test_darmas_errors : Darmas.assemble (".kernel k\n.header mode dynamic, profile 0x001, pgap 1\n.section text\n s: ADD s1, bs, s2\n c: BR nowhere\n.endk").toList =
    .errors [4, 5] := by decide +kernel
/-- A kernel at an address: its image begins 128 bytes below, and its code is `MOVI s6, 5` and `END` with `ATOMN s6, [s1], add, 64`. -/
theorem test_darmas_image : (match Darmas.assemble (".kernel bump\n.header mode dynamic, profile 0x001, pgap 1\n.section text, 0x300_0002_0080\n s: MOVI s6, 5\n c: END || l: ATOMN s6, [s1], add, 64\n.endk").toList with
    | .images [m] => m.addr == 0x30000020000 && (m.bytes.drop 128).map BitVec.toNat ==
        [2, 0, 0, 0, 0x05, 0x80, 0x11, 0x02, 0x41, 0, 0, 0, 0, 0, 0xA0, 0, 0x08, 0x81, 0xF1, 0x00]
    | _ => false) = true := by decide +kernel

end Sys2Proof.Tests
end

section
/-! PROOFS. The state after power-on (O1) and what a step runs (O2). -/

namespace Sys2Proof.Machine

/-- Memory that nothing has written reads 0. -/
theorem bytesAt_nil (a n : Nat) : bytesAt ([] : SMap Byte) a n = List.replicate n 0 := by
  induction n generalizing a with
  | zero => rfl
  | succ n ih => rw [bytesAt, ih]; rfl

/-- Registers that nothing has changed hold their reset values. -/
theorem State.csrVal_of_csr_nil (s : State) (h : s.csr = []) (c : Csr) (i : Nat) : s.csrVal c i = csrReset c := by
  simp [State.csrVal, h]; rfl

/-- Scalars that nothing has written read 0. -/
theorem Bank.sNamed_of_s_nil (b : Bank) (h : b.s = []) (n : Nat) : b.sNamed n = 0 := by
  unfold Bank.sNamed
  split
  · rfl
  · rw [h]; rfl

/-- Settles O1: every map of the state after reset is empty. -/
theorem resetState : Obligations.ResetState :=
  ⟨State.csrVal_of_csr_nil _ rfl, fun _ => rfl, fun _ => Bank.sNamed_of_s_nil _ rfl, fun _ _ => bytesAt_nil _ _,
    rfl, rfl, State.reset_mem_wf⟩

/-- Settles O2, by the laws of `step`; what is due runs as `exec` runs the instruction of its name. -/
theorem stepRuns : Obligations.StepRuns := by
  refine ⟨fun s op l hlg hq => ⟨step_op s op l hlg hq, step_guardedOff s op l hlg hq⟩, step_logit,
    fun s d l i hlg hq ha ht hi hp => ?_, step_settle, step_endTick⟩
  rw [step_event s d l hlg hq ha ht hp, runEv_eq_exec d.ev i _ hi]

end Sys2Proof.Machine
end

section
/-! PROOFS. Counterexamples to two statements of the scope (O40, O54). -/
namespace Sys2Proof.Machine

open Sys2Proof.Spec

/-- Partition 0 is served by virtual function 1; a snapshot has been latched, and SNP_CTL.FAULTS enables the class of partition
faults alone, bit 8 + 6 in the row order of R15 (R103). -/
def latchedState : State :=
  ((({ numVfs := 1 } : State).setF PRT_CTL.EN 0 1).setF SNP_CTL.FAULTS 0 0x40).setF SNP_STAT.STATE 0 2

/-- Refutes O40: the access of R83 is a partition fault, row 6 of R15, so its snapshot trigger hangs on bit 6 of SNP_CTL.FAULTS,
not on bit 2 (translation faults). With bit 6 alone set and a snapshot latched, the refused write counts in SNP_STAT.MISSED. -/
theorem not_hostRegisterWrites : ¬ Obligations.HostRegisterWrites := by
  intro h
  obtain ⟨-, hvf, -, -⟩ := h latchedState .FAB_PTAG 0 0 (by decide)
  obtain ⟨t, ht, -, -, -, hstat, -⟩ := hvf 1 (by decide) (by decide) (.inl rfl)
  have e : latchedState.hostWrite 1 .FAB_PTAG 0 0 = t := Host.Outcome.next.inj ht
  have missed : (latchedState.hostWrite 1 .FAB_PTAG 0 0).csrVal .SNP_STAT 0 ≠ latchedState.csrVal .SNP_STAT 0 := by decide
  exact missed (e ▸ hstat (by decide))

/-- A task that is being aborted, with one write to the scratchpad on its way and one store to host memory held back behind it. -/
def abortingState : State :=
  { tasks := [(0, { run := .aborting })]
    banks := [(0, { pend := [⟨0, 0, .spad 0 []⟩]
                    heldStores := [{ pa := 2 ^ 39, mt := 1, bytes := [1], stream := false, scope := 0 }] })] }

/-- Refutes O54: the storage half of a cycle of a task that is being aborted also performs the stores that its context holds
back (R123), so WRITE_LANDING of a scratchpad write can change memory. -/
theorem not_landings : ¬ Obligations.Landings := by
  intro h
  obtain ⟨-, -, -, -, -, -, -, -, hland⟩ := h abortingState 0 0
  obtain ⟨-, hstorage⟩ := hland 0 0 0
  obtain ⟨t, ht, -, -, hmem⟩ := hstorage 0 [] rfl rfl (by decide)
  have e : State.storagePulse { abortingState with env := { abortingState.env with energy := _ } } 0 = t :=
    Host.Outcome.next.inj ht
  have stored : (State.storagePulse abortingState 0).memBytes (2 ^ 39) 1 = [1] := by decide +kernel
  have same : t.memBytes (2 ^ 39) 1 = abortingState.memBytes (2 ^ 39) 1 := congrArg (bytesAt · (2 ^ 39) 1) hmem
  rw [← e] at same
  exact absurd (stored.symm.trans same) (by decide)

end Sys2Proof.Machine
end

section
/-! PROOFS. The events of a start: power-on, restarts, steps, images, attestation and snapshots (O52). -/
namespace Sys2Proof.Machine

open Sys2Proof.Spec

/-! Folds -/

/-- What every step of a fold keeps, the fold keeps. -/
theorem foldl_keeps {α β : Type} {f : α → β → α} {P : α → Prop} (l : List β) (hP : ∀ s, ∀ b ∈ l, P s → P (f s b)) (s : α)
    (h : P s) : P (l.foldl f s) := List.foldlRecOn l f h fun t ht b hb => hP t b hb ht

/-- A fold that keeps `I`, establishes `P` of each element it meets and keeps what it has established, has established `P` of
every element at its end. -/
theorem foldl_establishes {α β : Type} {f : α → β → α} {I : α → Prop} {P : α → β → Prop} (l : List β)
    (hI : ∀ s, ∀ b ∈ l, I s → I (f s b)) (hP : ∀ s, ∀ b ∈ l, I s → P (f s b) b)
    (hK : ∀ s, ∀ b ∈ l, ∀ c, I s → P s c → P (f s b) c) (s : α) (h : I s) : ∀ b ∈ l, P (l.foldl f s) b := by
  induction l generalizing s with
  | nil => simp
  | cons b l ih =>
    have hI' := fun s c hc => hI s c (List.mem_cons_of_mem b hc)
    have hK' := fun s c hc => hK s c (List.mem_cons_of_mem b hc)
    have hb := hI s b List.mem_cons_self h
    intro c hc
    rcases List.mem_cons.1 hc with rfl | hc
    · exact (foldl_keeps (P := fun t => I t ∧ P t c) l (fun t x hx ht => ⟨hI' t x hx ht.1, hK' t x hx c ht.1 ht.2⟩) _
        ⟨hb, hP s c List.mem_cons_self h⟩).2
    · exact ih hI' (fun s c hc => hP s c (List.mem_cons_of_mem b hc)) hK' _ hb c hc

/-- A fold of steps that a reflexive and transitive relation holds of. -/
theorem foldl_rel {α β : Type} {R : α → α → Prop} (refl : ∀ s, R s s) (trans : ∀ {s t u}, R s t → R t u → R s u)
    {f : α → β → α} (l : List β) (s : α) (h : ∀ t, ∀ b ∈ l, R t (f t b)) : R s (l.foldl f s) :=
  List.foldlRecOn l f (refl s) fun t ht b hb => trans ht (h t b hb)

/-- The first element of a range that a test accepts, when it accepts one alone. -/
theorem find?_range_unique {n d : Nat} {p : Nat → Bool} (hd : d < n) (hp : p d = true)
    (h : ∀ x < n, x ≠ d → p x = false) : (List.range n).find? p = some d := by
  cases e : (List.range n).find? p with
  | none => simp [List.find?_eq_none.1 e d (List.mem_range.2 hd)] at hp
  | some x =>
    by_cases hx : x = d
    · rw [hx]
    · have := h x (List.mem_range.1 (List.mem_of_find?_eq_some e)) hx
      simp [List.find?_some e] at this

/-! What messages to the host change -/

/-- A vector of the physical function is at most a message. -/
theorem State.pfVec_spec (s : State) (v : Nat) : ∃ o, s.pfVec v = { s with out := o } := by
  unfold State.pfVec
  split
  · exact ⟨_, rfl⟩
  · exact ⟨_, rfl⟩

/-- A vector of a virtual function is at most a message. -/
theorem State.vec_spec (s : State) (p v : Nat) : ∃ o, s.vec p v = { s with out := o } := by
  unfold State.vec
  split
  · exact ⟨_, rfl⟩
  · exact ⟨_, rfl⟩

/-- A journal record changes the journal, and beyond it at most the messages sent. -/
theorem State.record_spec (s : State) (d n event : Nat) (img : Bool) (code : BitVec 16) :
    ∃ j o, s.record d n event img code = { s with journal := j, out := o } := by
  unfold State.record
  simp only
  split
  · obtain ⟨o, h⟩ := State.pfVec_spec { s with journal := _ } 4
    exact ⟨_, o, h⟩
  · exact ⟨_, _, rfl⟩

@[simp] theorem State.record_die (s : State) (d n event : Nat) (img : Bool) (code : BitVec 16) (x : Nat) :
    (s.record d n event img code).die x = s.die x := by
  obtain ⟨j, o, h⟩ := s.record_spec d n event img code
  rw [h]; rfl

@[simp] theorem State.record_now (s : State) (d n event : Nat) (img : Bool) (code : BitVec 16) :
    (s.record d n event img code).now = s.now := by
  obtain ⟨j, o, h⟩ := s.record_spec d n event img code
  rw [h]

@[simp] theorem State.record_meas (s : State) (d n event : Nat) (img : Bool) (code : BitVec 16) :
    (s.record d n event img code).meas = s.meas := by
  obtain ⟨j, o, h⟩ := s.record_spec d n event img code
  rw [h]

@[simp] theorem State.record_agenda (s : State) (d n event : Nat) (img : Bool) (code : BitVec 16) :
    (s.record d n event img code).agenda = s.agenda := by
  obtain ⟨j, o, h⟩ := s.record_spec d n event img code
  rw [h]

@[simp] theorem State.record_csr (s : State) (d n event : Nat) (img : Bool) (code : BitVec 16) :
    (s.record d n event img code).csr = s.csr := by
  obtain ⟨j, o, h⟩ := s.record_spec d n event img code
  rw [h]

/-! What a start of the module leaves alone -/

/-- A change that leaves memory, contexts, cores, tasks and the clock alone. -/
structure Kept (s t : State) : Prop where
  mem : t.mem = s.mem
  banks : t.banks = s.banks
  cores : t.cores = s.cores
  tasks : t.tasks = s.tasks
  tickBase : t.tickBase = s.tickBase
  now : t.now = s.now

theorem Kept.trans {s t u : State} (h : Kept s t) (k : Kept t u) : Kept s u :=
  ⟨k.mem.trans h.mem, k.banks.trans h.banks, k.cores.trans h.cores, k.tasks.trans h.tasks, k.tickBase.trans h.tickBase,
    k.now.trans h.now⟩

theorem State.setF_kept (s : State) (f : CsrField) (i v : Nat) : Kept s (s.setF f i v) := ⟨rfl, rfl, rfl, rfl, rfl, rfl⟩

/-- A change that leaves the boot count alone as well. -/
structure StartFrame (s t : State) : Prop extends Kept s t where
  boot : t.getF SJ_STAT.BOOT 0 = s.getF SJ_STAT.BOOT 0

theorem StartFrame.refl (s : State) : StartFrame s s := ⟨⟨rfl, rfl, rfl, rfl, rfl, rfl⟩, rfl⟩

theorem StartFrame.trans {s t u : State} (h : StartFrame s t) (k : StartFrame t u) : StartFrame s u :=
  ⟨h.toKept.trans k.toKept, k.boot.trans h.boot⟩

theorem State.foldl_startFrame {β : Type} {f : State → β → State} (l : List β) (s : State)
    (h : ∀ t, ∀ b ∈ l, StartFrame t (f t b)) : StartFrame s (l.foldl f s) := foldl_rel StartFrame.refl StartFrame.trans l s h

theorem State.setF_startFrame (s : State) (f : CsrField) (i v : Nat) (h : f.reg ≠ .SJ_STAT) : StartFrame s (s.setF f i v) :=
  ⟨s.setF_kept f i v, s.getF_setF_ne _ _ _ _ _ fun e => h e.1.symm⟩

theorem State.setRecovery_startFrame (s : State) (v : Nat) : StartFrame s (s.setF SJ_STAT.RECOVERY 0 v) :=
  ⟨s.setF_kept _ _ _, s.getF_setF_field _ _ _ _ (by decide) rfl (by decide)⟩

theorem State.csrPut_startFrame (s : State) (c : Csr) (i : Nat) (v : BitVec 128) (h : c ≠ .SJ_STAT) :
    StartFrame s (s.csrPut c i v) := by
  refine ⟨⟨rfl, rfl, rfl, rfl, rfl, rfl⟩, ?_⟩
  have e : (s.csrPut c i v).csrVal .SJ_STAT 0 = s.csrVal .SJ_STAT 0 := s.csrVal_csrPut_ne _ _ _ _ _ fun e => h e.1.symm
  exact congrArg (fun x : BitVec 128 => bits x.toNat 63 32) e

theorem State.modDie_startFrame (s : State) (d : Nat) (f : DieSt → DieSt) : StartFrame s (s.modDie d f) :=
  ⟨⟨rfl, rfl, rfl, rfl, rfl, rfl⟩, rfl⟩

theorem State.sched_startFrame (s : State) (time ph : Nat) (ev : Ev) : StartFrame s (s.sched time ph ev) :=
  ⟨⟨rfl, rfl, rfl, rfl, rfl, rfl⟩, rfl⟩

theorem State.record_startFrame (s : State) (d n event : Nat) (img : Bool) (code : BitVec 16) :
    StartFrame s (s.record d n event img code) := by
  obtain ⟨j, o, h⟩ := s.record_spec d n event img code
  rw [h]
  exact ⟨⟨rfl, rfl, rfl, rfl, rfl, rfl⟩, rfl⟩

theorem State.stepOver_startFrame (s : State) (d : Nat) : StartFrame s (s.stepOver d) := ⟨⟨rfl, rfl, rfl, rfl, rfl, rfl⟩, rfl⟩

theorem State.markDie_startFrame (s : State) (l : List Nat) (d : Nat) : StartFrame s (s.markDie l d) := by
  refine State.foldl_startFrame l s fun t n _ => ?_
  simp only
  split
  · split
    · exact .refl t
    · exact t.setF_startFrame SJ_MARKS.MARKS _ _ (by decide)
  · exact .refl t

theorem State.beginStep_startFrame (s : State) (d k n : Nat) : StartFrame s (s.beginStep d k n) := by
  induction k generalizing s n with
  | zero => exact .refl s
  | succ k ih =>
    unfold State.beginStep
    split
    · exact (s.record_startFrame _ _ _ _ _).trans (ih _ _)
    split
    · exact (s.record_startFrame _ _ _ _ _).trans (ih _ _)
    simp only
    split
    · exact ((s.modDie_startFrame d _).trans (State.record_startFrame _ _ _ _ _ _)).trans (State.sched_startFrame _ _ _ _)
    · exact (s.modDie_startFrame d _).trans (State.record_startFrame _ _ _ _ _ _)

/-! The parts of a start (R94, R97), in order -/

/-- The last record of the previous boot is noted in SJ_LAST_STEP. -/
def State.lastNoted (s : State) : State :=
  match (s.journal.filter fun r => decide (r.boot = s.getF SJ_STAT.BOOT 0)).getLast? with
  | some r => ((s.setF SJ_LAST_STEP.STEP 0 r.step).setF SJ_LAST_STEP.DIE 0 r.die).setF SJ_LAST_STEP.EVENT 0 r.event
  | none => s

/-- The marks are cleared where that was asked for. -/
def State.marksCleared (s : State) : State :=
  if s.sjClear then { (List.range 4).foldl (fun s d => s.setF SJ_MARKS.MARKS d 0) s with sjClear := false } else s

/-- The failed steps of the boot `prev` set their marks. -/
def State.marked (s : State) (prev : Nat) : State :=
  (List.range 4).foldl (fun t d => t.markDie (failedSteps s.journal prev d) d) s

/-- Whether the failed steps of the boot `prev` leave recovery alone. -/
def State.startStuck (s : State) (prev : Nat) : Bool :=
  (List.range 4).any fun d => (failedSteps s.journal prev d).any fun n =>
    n = 10 || (stepImage n && !stepOptional n && s.mark d (2 * n + 1))

/-- A die that has not stopped is held in reset or begins step 0. -/
def State.startDie (img : Bool) (s : State) (d : Nat) : State :=
  if (s.die d).stopped then s
  else if d ≠ 0 && s.mark d 0 then
    (s.modDie d fun x => { x with heldInReset := true, stopped := true }).record d 0 4 false 0
  else (s.modDie d fun x => { x with startImg := img }).beginStep d 11 0

/-- A start with its boot counted: recovery, or the dies' first steps. -/
def State.startRest (s : State) (stuck : Bool) : State :=
  if stuck then (s.setF SJ_STAT.RECOVERY 0 1).record 0 0 6 false 0
  else (List.range 4).foldl (State.startDie (s.getF SJ_CFG.PRIMARY 0 = 1)) s

theorem State.startBoot_eq (s : State) :
    s.startBoot =
      ((s.lastNoted.marksCleared.marked (s.getF SJ_STAT.BOOT 0)).setF SJ_STAT.BOOT 0
        ((s.getF SJ_STAT.BOOT 0 + 1) % 2 ^ 32)).startRest (s.lastNoted.marksCleared.startStuck (s.getF SJ_STAT.BOOT 0)) := rfl

theorem State.lastNoted_startFrame (s : State) : StartFrame s s.lastNoted := by
  unfold State.lastNoted
  split
  · exact ((s.setF_startFrame SJ_LAST_STEP.STEP _ _ (by decide)).trans
      (State.setF_startFrame _ SJ_LAST_STEP.DIE _ _ (by decide))).trans
      (State.setF_startFrame _ SJ_LAST_STEP.EVENT _ _ (by decide))
  · exact .refl s

theorem State.sjCleared_startFrame (s : State) : StartFrame s { s with sjClear := false } :=
  ⟨⟨rfl, rfl, rfl, rfl, rfl, rfl⟩, rfl⟩

theorem State.marksCleared_startFrame (s : State) : StartFrame s s.marksCleared := by
  unfold State.marksCleared
  split
  · have h := State.foldl_startFrame (f := fun s d => s.setF SJ_MARKS.MARKS d 0) (List.range 4) s
      fun t d _ => t.setF_startFrame SJ_MARKS.MARKS d 0 (by decide)
    exact h.trans (State.sjCleared_startFrame _)
  · exact .refl s

theorem State.marked_startFrame (s : State) (prev : Nat) : StartFrame s (s.marked prev) :=
  State.foldl_startFrame _ s fun t d _ => t.markDie_startFrame _ d

theorem State.startDie_startFrame (img : Bool) (s : State) (d : Nat) : StartFrame s (s.startDie img d) := by
  unfold State.startDie
  split
  · exact .refl s
  split
  · exact (s.modDie_startFrame d _).trans (State.record_startFrame _ _ _ _ _ _)
  · exact (s.modDie_startFrame d _).trans (State.beginStep_startFrame _ _ _ _)

theorem State.startRest_startFrame (s : State) (stuck : Bool) : StartFrame s (s.startRest stuck) := by
  unfold State.startRest
  split
  · exact (s.setRecovery_startFrame 1).trans (State.record_startFrame _ _ _ _ _ _)
  · exact State.foldl_startFrame _ s fun t d _ => t.startDie_startFrame _ d

/-- A change that counts a boot. -/
structure Booted (s t : State) : Prop extends Kept s t where
  boot : t.getF SJ_STAT.BOOT 0 = (s.getF SJ_STAT.BOOT 0 + 1) % 2 ^ 32

theorem StartFrame.booted {s t u : State} {v : Nat} (h : StartFrame s t) (k : StartFrame (t.setF SJ_STAT.BOOT 0 v) u)
    (hv : v = (s.getF SJ_STAT.BOOT 0 + 1) % 2 ^ 32) : Booted s u := by
  have boot : (t.setF SJ_STAT.BOOT 0 v).getF SJ_STAT.BOOT 0 = v % 2 ^ 32 := t.getF_setF_same SJ_STAT.BOOT 0 v (by decide)
  refine ⟨h.toKept.trans ((t.setF_kept _ _ _).trans k.toKept), k.boot.trans (boot.trans ?_)⟩
  rw [hv, Nat.mod_mod]

/-- A start counts its boot (R94). -/
theorem State.startBoot_booted (s : State) : Booted s s.startBoot := by
  rw [s.startBoot_eq]
  exact ((s.lastNoted_startFrame.trans (State.marksCleared_startFrame _)).trans (State.marked_startFrame _ _)).booted
    (State.startRest_startFrame _ _) rfl

/-! What is kept over a loss of power and over a restart -/

/-- A change of control registers alone. -/
def CsrOnly (s t : State) : Prop := ∃ m, t = { s with csr := m }

theorem CsrOnly.refl (s : State) : CsrOnly s s := ⟨s.csr, rfl⟩

theorem CsrOnly.trans {s t u : State} (h : CsrOnly s t) (k : CsrOnly t u) : CsrOnly s u := by
  obtain ⟨m, rfl⟩ := h
  obtain ⟨n, rfl⟩ := k
  exact ⟨n, rfl⟩

theorem State.csrPut_csrOnly (s : State) (c : Csr) (i : Nat) (v : BitVec 128) : CsrOnly s (s.csrPut c i v) := ⟨_, rfl⟩

theorem State.setF_csrOnly (s : State) (f : CsrField) (i v : Nat) : CsrOnly s (s.setF f i v) := ⟨_, rfl⟩

theorem CsrOnly.kept {s t : State} (h : CsrOnly s t) : Kept s t := by
  obtain ⟨m, rfl⟩ := h
  exact ⟨rfl, rfl, rfl, rfl, rfl, rfl⟩

theorem CsrOnly.die {s t : State} (h : CsrOnly s t) (d : Nat) : t.die d = s.die d := by
  obtain ⟨m, rfl⟩ := h
  rfl

theorem CsrOnly.journal {s t : State} (h : CsrOnly s t) : t.journal = s.journal := by
  obtain ⟨m, rfl⟩ := h
  rfl

theorem State.getF_lt (s : State) (f : CsrField) (i : Nat) : s.getF f i < 2 ^ (f.hi + 1 - f.lo) :=
  Nat.mod_lt _ (Nat.two_pow_pos _)

/-- A field that takes the value of the same field of another state reads as it does there. -/
theorem State.getF_setF_getF (s t : State) (f : CsrField) (i : Nat) (h : f.hi < 128) :
    (t.setF f i (s.getF f i)).getF f i = s.getF f i := by
  rw [State.getF_setF_same _ _ _ _ h, Nat.mod_eq_of_lt (s.getF_lt f i)]

/-- What a loss of power leaves but for the registers. -/
def State.keptBase (s : State) : State :=
  { seq := s.seq, free := s.free, nextId := s.nextId, out := s.out, flash := s.flash, journal := s.journal
    sjClear := s.sjClear, hostDeny := s.hostDeny, mem := s.mem.filter fun c => decide (2 ^ 39 ≤ c.1) }

theorem State.kept_eq (s : State) :
    s.kept = (List.range 4).foldl (fun t d => t.csrPut .SJ_MARKS d (s.csrVal .SJ_MARKS d))
      (s.keptBase.setF SJ_STAT.BOOT 0 (s.getF SJ_STAT.BOOT 0)) := rfl

theorem State.kept_csrOnly (s : State) : CsrOnly s.keptBase s.kept := by
  rw [s.kept_eq]
  exact (State.setF_csrOnly _ _ _ _).trans
    (foldl_rel CsrOnly.refl CsrOnly.trans _ _ fun t d _ => t.csrPut_csrOnly .SJ_MARKS d (s.csrVal .SJ_MARKS d))

theorem State.kept_kept (s : State) : Kept s.keptBase s.kept := s.kept_csrOnly.kept

@[simp] theorem State.kept_tasks (s : State) : s.kept.tasks = [] := s.kept_kept.tasks

@[simp] theorem State.kept_die (s : State) (d : Nat) : s.kept.die d = default := s.kept_csrOnly.die d

@[simp] theorem State.kept_journal (s : State) : s.kept.journal = s.journal := s.kept_csrOnly.journal

/-- The boot count survives a loss of power. -/
theorem State.kept_boot (s : State) : s.kept.getF SJ_STAT.BOOT 0 = s.getF SJ_STAT.BOOT 0 := by
  have base := s.getF_setF_getF s.keptBase SJ_STAT.BOOT 0 (by decide)
  rw [s.kept_eq]
  exact (State.foldl_startFrame _ _ fun t d _ => t.csrPut_startFrame .SJ_MARKS d _ (by decide)).boot.trans base

theorem State.keepStops_startFrame (s t : State) : StartFrame t (s.keepStops t) := by
  refine State.foldl_startFrame _ t fun u d _ => ?_
  have h := u.setF_startFrame DLS_THERM_STAT.FREEZECNT d (s.getF DLS_THERM_STAT.FREEZECNT d) (by decide)
  simp only
  split
  · exact (h.trans (State.setF_startFrame _ DLS_THERM_STAT.STATE _ _ (by decide))).trans (State.modDie_startFrame _ _ _)
  · exact h

/-- What a restart of the module leaves (R96, R98): the boot is counted, no task runs, memory and the clock go on. -/
structure Restarted (s t : State) : Prop where
  boot : t.getF SJ_STAT.BOOT 0 = (s.getF SJ_STAT.BOOT 0 + 1) % 2 ^ 32
  mem : t.mem = s.mem
  tickBase : t.tickBase = s.tickBase
  now : t.now = s.now
  tasks : t.tasks = []

theorem StartFrame.restarted {s t u : State} (h : StartFrame s t) (k : Restarted t u) : Restarted s u :=
  ⟨h.boot ▸ k.boot, k.mem.trans h.mem, k.tickBase.trans h.tickBase, k.now.trans h.now, k.tasks⟩

/-- What a restart keeps of the registers and of stopped dies. -/
def State.restartKept (s : State) : State :=
  clockRegs.foldl (fun t c => t.csrPut c 0 (s.csrVal c 0)) ((s.keepStops s.kept).csrPut .SJ_CFG 0 (s.csrVal .SJ_CFG 0))

/-- What else of a state goes on through a restart: time, memory, links, and what is due for the clock. -/
def State.goesOn (s t : State) : State :=
  { t with
    now := s.now, tickBase := s.tickBase, ptp := s.ptp, latch := s.latch, mem := s.mem, ethUp := s.ethUp, pairUp := s.pairUp
    crossDown := s.crossDown, pairLost := s.pairLost
    agenda := s.agenda.filter fun d => decide (d.ev = Ev.ptpSecondBoundary ∨ d.ev = Ev.lockwaitExpire ∨ d.ev = Ev.holdmaxExpire) }

theorem State.restart_eq (s : State) : s.restart = (s.goesOn s.restartKept).startBoot := rfl

theorem State.restartKept_startFrame (s : State) : StartFrame s.kept s.restartKept := by
  have clock : ∀ c ∈ clockRegs, c ≠ .SJ_STAT := by decide
  unfold State.restartKept
  have cfg := (s.keepStops s.kept).csrPut_startFrame .SJ_CFG 0 (s.csrVal .SJ_CFG 0) (by decide)
  have regs := State.foldl_startFrame (f := fun t c => t.csrPut c 0 (s.csrVal c 0)) clockRegs
    ((s.keepStops s.kept).csrPut .SJ_CFG 0 (s.csrVal .SJ_CFG 0)) fun t c hc => t.csrPut_startFrame c 0 _ (clock c hc)
  exact ((s.keepStops_startFrame s.kept).trans cfg).trans regs

theorem State.goesOn_boot (s t : State) : (s.goesOn t).getF SJ_STAT.BOOT 0 = t.getF SJ_STAT.BOOT 0 :=
  State.getF_congr rfl _ _

theorem Booted.restarted {s t u : State} (k : Booted (s.goesOn t) u) (boot : t.getF SJ_STAT.BOOT 0 = s.getF SJ_STAT.BOOT 0)
    (tasks : t.tasks = []) : Restarted s u :=
  ⟨boot ▸ s.goesOn_boot t ▸ k.boot, k.mem, k.tickBase, k.now, k.tasks.trans tasks⟩

theorem State.restart_restarted (s : State) : Restarted s s.restart := by
  have h := s.restartKept_startFrame
  rw [s.restart_eq]
  exact (State.startBoot_booted _).restarted (h.boot.trans s.kept_boot) (h.tasks.trans s.kept_tasks)


/-! What is due -/

theorem mem_insertDue (d x : Due) (l : List Due) : x ∈ insertDue d l ↔ x = d ∨ x ∈ l := by
  induction l with
  | nil => simp [insertDue]
  | cons y l ih =>
    unfold insertDue
    split
    · simp
    · simp [ih, or_left_comm]

/-- What is put on the agenda stands on it. -/
theorem State.dueAt_sched (s : State) (time ph : Nat) (ev : Ev) : DueAt (s.sched time ph ev) ev time :=
  ⟨_, (mem_insertDue _ _ _).2 (.inl rfl), rfl, rfl⟩

theorem State.sched_dueAt_of {s : State} {e : Ev} {at_ : Nat} (h : DueAt s e at_) (time ph : Nat) (ev : Ev) :
    DueAt (s.sched time ph ev) e at_ := by
  obtain ⟨d, hd, hev, htime⟩ := h
  exact ⟨d, (mem_insertDue _ _ _).2 (.inr hd), hev, htime⟩

theorem dueAt_congr {s t : State} {e : Ev} {at_ : Nat} (h : DueAt s e at_) (ht : t.agenda = s.agenda) : DueAt t e at_ := by
  unfold DueAt
  rw [ht]
  exact h

/-! A power-on (R10, R94) -/

/-- The clock's first events of a power-on. -/
def State.clockOn (s : State) : State :=
  s.nextSecond.sched (seconds (max 1 (s.nextSecond.getF PTC_CFG.LOCKWAIT 0))) phHost .lockwaitExpire

theorem exec_powerOnReset (s : State) : exec .powerOnReset s = .next s.kept.clockOn.startBoot := rfl

theorem State.clockOn_startFrame (s : State) : StartFrame s s.clockOn :=
  (State.sched_startFrame _ _ _ _).trans (State.sched_startFrame _ _ _ _)

@[simp] theorem State.clockOn_die (s : State) (d : Nat) : s.clockOn.die d = s.die d := rfl
@[simp] theorem State.clockOn_journal (s : State) : s.clockOn.journal = s.journal := rfl
@[simp] theorem State.clockOn_csr (s : State) : s.clockOn.csr = s.csr := rfl

/-- A die enters a step, with its Begin record. -/
def State.enterStep (s : State) (d n : Nat) : State :=
  (s.modDie d fun x => { x with startStep := n, starting := true }).record d n 1 (s.stepSlot d n) 0

/-- A step that applies and is not skipped is entered, and its bound is due. -/
theorem State.beginStep_eq (s : State) (d k n : Nat) (h6 : d = 0 ∨ n ≠ 6)
    (hskip : stepOptional n = false ∨ s.mark d (2 * n) = false) :
    s.beginStep d (k + 1) n =
      if n < 10 then (s.enterStep d n).sched ((s.enterStep d n).now + stepBound n) phHost (.startStepTimeout (Fin.ofNat 4 d))
      else s.enterStep d n := by
  have applies : ¬(decide (n = 6) && decide (d ≠ 0)) = true := by
    rcases h6 with h | h <;> simp [h]
  have notSkipped : ¬(stepOptional n && s.mark d (2 * n)) = true := by
    rcases hskip with h | h <;> simp [h]
  rw [State.beginStep, if_neg applies, if_neg notSkipped]
  rfl

@[simp] theorem State.enterStep_die (s : State) (d n x : Nat) :
    (s.enterStep d n).die x = if x = d then { s.die x with startStep := n, starting := true } else s.die x := by
  unfold State.enterStep
  rw [State.record_die, State.die_modDie]
  split
  · next h => rw [h]
  · rfl

@[simp] theorem State.enterStep_now (s : State) (d n : Nat) : (s.enterStep d n).now = s.now := by simp [State.enterStep]
@[simp] theorem State.enterStep_csr (s : State) (d n : Nat) : (s.enterStep d n).csr = s.csr := by simp [State.enterStep]
@[simp] theorem State.enterStep_meas (s : State) (d n : Nat) : (s.enterStep d n).meas = s.meas := by simp [State.enterStep]
@[simp] theorem State.enterStep_agenda (s : State) (d n : Nat) : (s.enterStep d n).agenda = s.agenda := by simp [State.enterStep]

/-- A step of a die that has begun (R94): the die is in it, and nothing else of the start has changed. -/
structure StepBegun (s t : State) (d n : Nat) : Prop where
  die : ∀ x, t.die x = if x = d then { s.die x with startStep := n, starting := true } else s.die x
  csr : t.csr = s.csr
  now : t.now = s.now
  meas : t.meas = s.meas

theorem StepBegun.sched {s t : State} {d n : Nat} (h : StepBegun s t d n) (time ph : Nat) (ev : Ev) :
    StepBegun s (t.sched time ph ev) d n := ⟨h.die, h.csr, h.now, h.meas⟩

theorem State.beginStep_begun (s : State) (d k n : Nat) (h6 : d = 0 ∨ n ≠ 6)
    (hskip : stepOptional n = false ∨ s.mark d (2 * n) = false) : StepBegun s (s.beginStep d (k + 1) n) d n := by
  have h : StepBegun s (s.enterStep d n) d n :=
    ⟨s.enterStep_die d n, s.enterStep_csr d n, s.enterStep_now d n, s.enterStep_meas d n⟩
  rw [s.beginStep_eq d k n h6 hskip]
  split
  · exact h.sched _ _ _
  · exact h

/-! A start without a journal and without marks -/

/-- No die has stopped, and no mark is set. -/
def Unmarked (s : State) : Prop := ∀ d < 4, (s.die d).stopped = false ∧ s.getF SJ_MARKS.MARKS d = 0

/-- A die has begun step 0, whose bound is due at a time. -/
def AtStepZero (time : Nat) (s : State) (d : Nat) : Prop :=
  (s.die d).startStep = 0 ∧ (s.die d).starting = true ∧ DueAt s (.startStepTimeout (Fin.ofNat 4 d)) time

theorem State.mark_of_zero (s : State) (d n : Nat) (h : s.getF SJ_MARKS.MARKS d = 0) : s.mark d n = false := by
  simp [State.mark, h, bit]

/-- A die that has not stopped and has no mark begins step 0. -/
theorem State.startDie_eq (img : Bool) (s : State) (d : Nat) (h : (s.die d).stopped = false)
    (hm : s.getF SJ_MARKS.MARKS d = 0) :
    s.startDie img d = ((s.modDie d fun x => { x with startImg := img }).enterStep d 0).sched (s.now + stepBound 0) phHost
      (.startStepTimeout (Fin.ofNat 4 d)) := by
  unfold State.startDie
  rw [h, s.mark_of_zero d 0 hm, Bool.and_false, if_neg Bool.false_ne_true, if_neg Bool.false_ne_true,
    State.beginStep_eq _ d 10 0 (.inr (by decide)) (.inl rfl), if_pos (by decide), State.enterStep_now]
  rfl

theorem State.startDie_die (img : Bool) (s : State) (d x : Nat) (h : (s.die d).stopped = false)
    (hm : s.getF SJ_MARKS.MARKS d = 0) : (s.startDie img d).die x =
      if x = d then { s.die x with startImg := img, startStep := 0, starting := true } else s.die x := by
  rw [s.startDie_eq img d h hm]
  rw [State.sched_die_view, State.enterStep_die, State.die_modDie]
  split
  · next hx => rw [hx]
  · rfl

theorem State.startDie_unmarked (img : Bool) (s : State) (d : Nat) (hd : d < 4) (h : Unmarked s) :
    Unmarked (s.startDie img d) ∧ (s.startDie img d).now = s.now := by
  obtain ⟨hs, hm⟩ := h d hd
  have hcsr : (s.startDie img d).csr = s.csr := by
    rw [s.startDie_eq img d hs hm]
    rw [State.sched_csr, State.enterStep_csr, State.modDie_csr]
  refine ⟨fun x hx => ⟨?_, (State.getF_congr hcsr _ _).trans (h x hx).2⟩, (s.startDie_startFrame img d).now⟩
  rw [s.startDie_die img d x hs hm]
  split
  · exact (h x hx).1
  · exact (h x hx).1

/-- A die that begins step 0 stays there while the next ones begin theirs. -/
theorem AtStepZero.startDie {time d x : Nat} {s : State} (img : Bool) (h : AtStepZero time s x) (hs : (s.die d).stopped = false)
    (hm : s.getF SJ_MARKS.MARKS d = 0) : AtStepZero time (s.startDie img d) x := by
  obtain ⟨hstep, hon, hdue⟩ := h
  have hdie := s.startDie_die img d x hs hm
  refine ⟨?_, ?_, ?_⟩
  · rw [hdie]; split
    · rfl
    · exact hstep
  · rw [hdie]; split
    · rfl
    · exact hon
  · rw [s.startDie_eq img d hs hm]
    exact State.sched_dueAt_of (dueAt_congr hdue (by simp)) _ _ _

theorem State.startDie_atStepZero (img : Bool) (s : State) (d : Nat) (hs : (s.die d).stopped = false)
    (hm : s.getF SJ_MARKS.MARKS d = 0) : AtStepZero (s.now + stepBound 0) (s.startDie img d) d := by
  have hdie := s.startDie_die img d d hs hm
  rw [if_pos rfl] at hdie
  refine ⟨by rw [hdie], by rw [hdie], ?_⟩
  rw [s.startDie_eq img d hs hm]
  exact State.dueAt_sched _ _ _ _

/-- Without marks, every die begins step 0 (R94). -/
theorem State.startDies_atStepZero (img : Bool) (s : State) (h : Unmarked s) :
    ∀ d ∈ List.range 4, AtStepZero (s.now + stepBound 0) ((List.range 4).foldl (State.startDie img) s) d := by
  refine foldl_establishes (I := fun t => Unmarked t ∧ t.now = s.now) (List.range 4) ?_ ?_ ?_ s ⟨h, rfl⟩
  · rintro t d hd ⟨ht, hnow⟩
    have k := t.startDie_unmarked img d (List.mem_range.1 hd) ht
    exact ⟨k.1, k.2.trans hnow⟩
  · rintro t d hd ⟨ht, hnow⟩
    obtain ⟨hs, hm⟩ := ht d (List.mem_range.1 hd)
    exact hnow ▸ t.startDie_atStepZero img d hs hm
  · rintro t d hd x ⟨ht, -⟩ hx
    obtain ⟨hs, hm⟩ := ht d (List.mem_range.1 hd)
    exact hx.startDie img hs hm

theorem failedSteps_nil (boot d : Nat) : failedSteps [] boot d = [] := by simp [failedSteps]

theorem State.lastNoted_eq_self (s : State) (h : s.journal = []) : s.lastNoted = s := by simp [State.lastNoted, h]

theorem State.marked_eq_self (s : State) (prev : Nat) (h : s.journal = []) : s.marked prev = s := by
  simp [State.marked, h, failedSteps_nil, State.markDie]

theorem State.startStuck_of_no_journal (s : State) (prev : Nat) (h : s.journal = []) : s.startStuck prev = false := by
  simp [State.startStuck, h, failedSteps_nil]

theorem Unmarked.setMark {s : State} (h : Unmarked s) (d : Nat) : Unmarked (s.setF SJ_MARKS.MARKS d 0) := by
  intro x hx
  refine ⟨(s.setF_die_view _ _ _ _).symm ▸ (h x hx).1, ?_⟩
  by_cases e : x = d
  · subst e
    rw [s.getF_setF_same _ _ _ (by decide), Nat.zero_mod]
  · rw [s.getF_setF_ne _ _ _ _ _ fun k => e k.2]
    exact (h x hx).2

theorem Unmarked.cleared {s : State} (h : Unmarked s) : Unmarked { s with sjClear := false } := h

theorem Unmarked.marksCleared {s : State} (h : Unmarked s) (hj : s.journal = []) :
    Unmarked s.marksCleared ∧ s.marksCleared.journal = [] := by
  unfold State.marksCleared
  split
  · have k := foldl_keeps (P := fun t : State => Unmarked t ∧ t.journal = []) (List.range 4)
      (fun t d _ ht => ⟨ht.1.setMark d, (t.setF_journal _ _ _).trans ht.2⟩) s ⟨h, hj⟩
    exact ⟨k.1.cleared, k.2⟩
  · exact ⟨h, hj⟩

theorem Unmarked.setBoot {s : State} (h : Unmarked s) (v : Nat) : Unmarked (s.setF SJ_STAT.BOOT 0 v) := fun d hd =>
  ⟨(s.setF_die_view _ _ _ _).symm ▸ (h d hd).1,
    (s.getF_setF_ne SJ_STAT.BOOT SJ_MARKS.MARKS 0 d v fun k => absurd k.1 (by decide)).trans (h d hd).2⟩

theorem Unmarked.startRest {s : State} (h : Unmarked s) (v : Nat) :
    ∀ d ∈ List.range 4, AtStepZero (s.now + stepBound 0) ((s.setF SJ_STAT.BOOT 0 v).startRest false) d := by
  rw [State.startRest, if_neg Bool.false_ne_true, ← s.setF_now SJ_STAT.BOOT 0 v]
  exact State.startDies_atStepZero _ _ (h.setBoot v)

/-- A start without a journal, marks and stopped dies begins step 0 on every die (R94). -/
theorem State.startBoot_atStepZero (s : State) (hj : s.journal = []) (h : Unmarked s) :
    ∀ d ∈ List.range 4, AtStepZero (s.now + stepBound 0) s.startBoot d := by
  obtain ⟨hc, hcj⟩ := h.marksCleared hj
  rw [s.startBoot_eq, s.lastNoted_eq_self hj, State.marked_eq_self _ _ hcj, State.startStuck_of_no_journal _ _ hcj,
    ← s.marksCleared_startFrame.now]
  exact hc.startRest _

/-- The marks survive a loss of power. -/
theorem State.kept_marks (s : State) : ∀ d ∈ List.range 4, s.kept.csrVal .SJ_MARKS d = s.csrVal .SJ_MARKS d := by
  rw [s.kept_eq]
  refine foldl_establishes (I := fun _ => True) (P := fun (t : State) d => t.csrVal .SJ_MARKS d = s.csrVal .SJ_MARKS d)
    (List.range 4) (fun _ _ _ h => h) (fun t d _ _ => t.csrVal_csrPut_same _ _ _) ?_ _ trivial
  intro t d _ x _ hx
  by_cases e : x = d
  · subst e; exact t.csrVal_csrPut_same _ _ _
  · exact (t.csrVal_csrPut_ne _ _ _ _ _ fun k => e k.2).trans hx

theorem State.kept_unmarked (s : State) (h : ∀ d < 4, s.getF SJ_MARKS.MARKS d = 0) : Unmarked s.kept := by
  refine fun d hd => ⟨by rw [s.kept_die]; rfl, ?_⟩
  rw [← h d hd]
  exact congrArg (fun x : BitVec 128 => bits x.toNat 21 0) (s.kept_marks d (List.mem_range.2 hd))

theorem Unmarked.clockOn {s : State} (h : Unmarked s) : Unmarked s.clockOn := fun d hd =>
  ⟨(s.clockOn_die d).symm ▸ (h d hd).1, (State.getF_congr s.clockOn_csr _ _).trans (h d hd).2⟩

theorem Fin.ofNat_val (d : Die) : Fin.ofNat 4 d.val = d := Fin.ext (Nat.mod_eq_of_lt d.isLt)

/-- POWER_ON_RESET (R10, R94). -/
theorem powerOnReset_does (s : State) :
    Does .powerOnReset s fun t => t.getF SJ_STAT.BOOT 0 = (s.getF SJ_STAT.BOOT 0 + 1) % 2 ^ 32 ∧ t.tickBase = none ∧
      t.tasks = [] ∧ t.banks = [] ∧ t.cores = [] ∧ t.mem = s.mem.filter (fun c => decide (2 ^ 39 ≤ c.1)) ∧
      (s.journal = [] → (∀ d < 4, s.getF SJ_MARKS.MARKS d = 0) → ∀ d : Die,
        (t.die d.val).startStep = 0 ∧ (t.die d.val).starting = true ∧ DueAt t (.startStepTimeout d) (stepBound 0)) := by
  have h := s.kept.clockOn_startFrame
  have k := s.kept.clockOn.startBoot_booted
  have b := h.boot.trans s.kept_boot
  have kept := s.kept_kept.trans (h.toKept.trans k.toKept)
  refine ⟨_, exec_powerOnReset s, b ▸ k.boot, kept.tickBase, kept.tasks, kept.banks, kept.cores, kept.mem, fun hj hm d => ?_⟩
  have now : s.kept.clockOn.now = 0 := h.now.trans s.kept_kept.now
  have journal : s.kept.clockOn.journal = [] := (State.clockOn_journal _).trans (s.kept_journal.trans hj)
  have z := s.kept.clockOn.startBoot_atStepZero journal (s.kept_unmarked hm).clockOn d.val (List.mem_range.2 d.isLt)
  rw [now, Nat.zero_add, AtStepZero, Fin.ofNat_val] at z
  exact z

/-! A loss of power (R96) -/

/-- Every die stops. -/
def State.allStopped (s : State) : State := (List.range 4).foldl (fun s d => s.modDie d fun x => { x with stopped := true }) s
def State.powerOff (s : State) : State := { s with powered := false }

theorem exec_powerLoss (s : State) : exec .powerLoss s = .next s.kept.allStopped.powerOff := rfl

theorem State.allStopped_startFrame (s : State) : StartFrame s s.allStopped :=
  State.foldl_startFrame _ s fun t d _ => t.modDie_startFrame d _

theorem State.allStopped_stopped (s : State) : ∀ d ∈ List.range 4, (s.allStopped.die d).stopped = true := by
  refine foldl_establishes (I := fun _ => True) (P := fun (t : State) d => (t.die d).stopped = true) (List.range 4)
    (fun _ _ _ h => h) (fun t d _ _ => by rw [State.die_modDie_same]) (fun t d _ x _ hx => ?_) s trivial
  rw [State.die_modDie]
  split
  · rfl
  · exact hx

theorem State.powerOff_kept (s : State) : Kept s s.powerOff := ⟨rfl, rfl, rfl, rfl, rfl, rfl⟩
@[simp] theorem State.powerOff_die (s : State) (d : Nat) : s.powerOff.die d = s.die d := rfl
@[simp] theorem State.powerOff_powered (s : State) : s.powerOff.powered = false := rfl

/-- POWER_LOSS. -/
theorem powerLoss_does (s : State) :
    Does .powerLoss s fun t => t.powered = false ∧ t.tasks = [] ∧ t.banks = [] ∧ t.cores = [] ∧
      (∀ d < 4, (t.die d).stopped = true) ∧ t.mem = s.mem.filter (fun c => decide (2 ^ 39 ≤ c.1)) := by
  have h := s.kept_kept.trans (s.kept.allStopped_startFrame.toKept.trans (State.powerOff_kept _))
  refine ⟨_, exec_powerLoss s, State.powerOff_powered _, h.tasks, h.banks, h.cores, fun d hd => ?_, h.mem⟩
  rw [State.powerOff_die]
  exact s.kept.allStopped_stopped d (List.mem_range.2 hd)

/-! The end of a step (R94 to R98) -/

@[simp] theorem State.stepOver_die (s : State) (d x : Nat) :
    (s.stepOver d).die x = if x = d then { s.die x with starting := false } else s.die x := by
  unfold State.stepOver
  rw [State.die_modDie]
  split
  · next h => rw [h]; rfl
  · rfl

/-- A failing step beyond step 0 restarts the module (R96). -/
theorem State.stepFail_restarted (s : State) (d : Nat) (code : BitVec 16) (hn : (s.die d).startStep ≠ 0) :
    Restarted s (s.stepFail d code) := by
  unfold State.stepFail
  simp only [hn, decide_false, Bool.false_and, Bool.false_eq_true, if_false]
  exact (s.record_startFrame d _ 3 _ code).restarted (State.restart_restarted _)

/-- At step 0 of die 0 the module halts (R96). -/
theorem State.stepFail_halts (s : State) (code : BitVec 16) (hn : (s.die 0).startStep = 0) : (s.stepFail 0 code).halted = true := by
  unfold State.stepFail
  simp [hn]

/-- At step 0 of another die, that die is absent; dies that are further on look for it (R96). -/
theorem State.stepFail_absent (s : State) (d : Nat) (code : BitVec 16) (hd : d ≠ 0) (hn : (s.die d).startStep = 0) :
    s.stepFail d code = ((s.stepOver d).modDie d fun k => { k with absent := true }).seekAbsent := by
  unfold State.stepFail
  simp [hn, hd]

/-- With no die absent, nothing is found. -/
theorem State.seekAbsent_none (s : State) (h : ∀ x < 4, (s.die x).absent = false) : s.seekAbsent = s := by
  have none : (List.range 4).find? (fun d => (s.die d).absent) = none :=
    List.find?_eq_none.2 fun x hx => by simp [h x (List.mem_range.1 hx)]
  unfold State.seekAbsent
  rw [none]

/-- One absent die is found by any other that is at step 1 or beyond. -/
theorem State.seekAbsent_one (s : State) (d : Nat) (hd : d < 4) (ha : (s.die d).absent = true)
    (h : ∀ x < 4, x ≠ d → (s.die x).absent = false) :
    s.seekAbsent =
      if (List.range 4).any fun x => x ≠ d && (s.die x).starting && decide (1 ≤ (s.die x).startStep) then
        (s.record d 0 3 false 0xFFFF).restart else s := by
  unfold State.seekAbsent
  rw [find?_range_unique hd ha h]

theorem exec_startStepFail (s : State) (d : Die) (code : BitVec 16) (h : (s.die d.val).starting = true) :
    exec (.startStepFail d code) s = .next (s.stepFail d.val code) := by
  show Host.Outcome.next (if (s.die d.val).starting then s.stepFail d.val code else s) = _
  rw [if_pos h]

/-- A timeout is a failure with its own code (R94, R96). -/
theorem exec_startStepTimeout (s : State) (d : Die) : exec (.startStepTimeout d) s = exec (.startStepFail d 0xFFFF) s := rfl

/-- A die whose step 0 has failed. -/
def State.goneAbsent (s : State) (d : Nat) : State := (s.stepOver d).modDie d fun k => { k with absent := true }

@[simp] theorem State.goneAbsent_die (s : State) (d x : Nat) : (s.goneAbsent d).die x =
    if x = d then { s.die x with starting := false, absent := true } else s.die x := by
  unfold State.goneAbsent
  rw [State.die_modDie]
  split
  · next h => simp [h]
  · next h => simp [h]

theorem State.goneAbsent_startFrame (s : State) (d : Nat) : StartFrame s (s.goneAbsent d) :=
  (s.stepOver_startFrame d).trans (State.modDie_startFrame _ _ _)

@[simp] theorem State.goneAbsent_csr (s : State) (d : Nat) : (s.goneAbsent d).csr = s.csr := rfl

/-- A failure at step 0 of a die beyond 0, no other die being absent, by whether another die is further on. -/
theorem State.stepFail_zero (s : State) (d : Nat) (code : BitVec 16) (hd : d < 4) (h0 : d ≠ 0) (hn : (s.die d).startStep = 0)
    (alone : ∀ x < 4, x ≠ d → (s.die x).absent = false) :
    s.stepFail d code =
      if (List.range 4).any fun x => x ≠ d && (s.die x).starting && decide (1 ≤ (s.die x).startStep) then
        ((s.goneAbsent d).record d 0 3 false 0xFFFF).restart else s.goneAbsent d := by
  have others : ∀ x < 4, x ≠ d → ((s.goneAbsent d).die x).absent = false := fun x hx hxd => by
    rw [s.goneAbsent_die, if_neg hxd]; exact alone x hx hxd
  have further : ((List.range 4).any fun x => x ≠ d && ((s.goneAbsent d).die x).starting &&
      decide (1 ≤ ((s.goneAbsent d).die x).startStep)) =
      (List.range 4).any fun x => x ≠ d && (s.die x).starting && decide (1 ≤ (s.die x).startStep) := by
    congr 1
    funext x
    by_cases hx : x = d <;> simp [hx]
  rw [s.stepFail_absent d code h0 hn, ← further]
  exact State.seekAbsent_one (s.goneAbsent d) d hd (by rw [s.goneAbsent_die, if_pos rfl]) others

theorem State.stepFail_zero_restarted (s : State) (d : Nat) (code : BitVec 16) (hd : d < 4) (h0 : d ≠ 0)
    (hn : (s.die d).startStep = 0) (alone : ∀ x < 4, x ≠ d → (s.die x).absent = false)
    (further : ∃ x < 4, x ≠ d ∧ (s.die x).starting = true ∧ 1 ≤ (s.die x).startStep) : Restarted s (s.stepFail d code) := by
  obtain ⟨x, hx, hxd, hon, hstep⟩ := further
  rw [s.stepFail_zero d code hd h0 hn alone, if_pos (List.any_eq_true.2 ⟨x, List.mem_range.2 hx, by simp [hxd, hon, hstep]⟩)]
  exact ((s.goneAbsent_startFrame d).trans (State.record_startFrame _ _ _ _ _ _)).restarted (State.restart_restarted _)

theorem State.stepFail_zero_eq (s : State) (d : Nat) (code : BitVec 16) (hd : d < 4) (h0 : d ≠ 0)
    (hn : (s.die d).startStep = 0) (alone : ∀ x < 4, x ≠ d → (s.die x).absent = false)
    (first : ∀ x < 4, x ≠ d → (s.die x).starting = false ∨ (s.die x).startStep = 0) : s.stepFail d code = s.goneAbsent d := by
  rw [s.stepFail_zero d code hd h0 hn alone, if_neg]
  rw [Bool.not_eq_true, List.any_eq_false]
  intro x hx
  by_cases hxd : x = d
  · simp [hxd]
  · rcases first x (List.mem_range.1 hx) hxd with h | h <;> simp [h]

/-! START_STEP_PASS (R94, R95) -/

/-- Whether the step in work of a die has an image whose checks fail (R95). -/
def State.stepBad (s : State) (d : Nat) : Bool :=
  let n := (s.die d).startStep
  let check := s.imageCheck d n (s.stepSlot d n)
  stepImage n && !(check.signatureOk && check.versionOk)

/-- The measurement log with the image of the step in work. -/
def State.measureStep (s : State) (d : Nat) : State :=
  let n := (s.die d).startStep
  let slot := s.stepSlot d n
  if stepImage n then { s with meas := s.meas ++ [⟨d, n, slot, s.imageCheck d n slot⟩] } else s

/-- A die whose step in work has passed. -/
def State.stepPassed (s : State) (d : Nat) : State :=
  let n := (s.die d).startStep
  let t := ((s.measureStep d).stepOver d).record d n 2 (s.stepSlot d n) 0
  if n = 9 then t.deriveKey d else t

/-- A die that has passed its last step is ready, and with the last of them the module (R94). -/
def State.dieReady (s : State) (d : Nat) : State :=
  let t := s.modDie d fun k => { k with ready := true }
  if (List.range 4).all fun k => (t.die k).ready || (t.die k).stopped then t.setF SJ_STAT.READY 0 1 else t

theorem exec_startStepPass (s : State) (d : Die) (k : Fin 11) :
    exec (.startStepPass d k) s =
      if !(s.die d.val).starting || (s.die d.val).startStep ≠ k.val || ((s.die d.val).startStep = 10 && s.tickBase.isNone) then
        .next s
      else if s.stepBad d.val then
        .next ((s.measureStep d.val).freed.stepFail d.val (BitVec.ofNat 16 (Config.freeNat (s.measureStep d.val).free)))
      else if (s.die d.val).startStep < 10 then
        .next (((s.stepPassed d.val).beginStep d.val 11 ((s.die d.val).startStep + 1)).seekAbsent)
      else .next ((s.stepPassed d.val).dieReady d.val) := rfl

theorem Fin.ofNat_eleven {n : Nat} (h : n < 11) : (Fin.ofNat 11 n).val = n := Nat.mod_eq_of_lt h

/-- The event of the step in work of a die that is starting takes effect, but for step 10 while the tick does not run. -/
theorem exec_startStepPass_runs (s : State) (d : Die) (hs : (s.die d.val).starting = true) (hn : (s.die d.val).startStep < 11)
    (ht : (s.die d.val).startStep = 10 → s.tickBase ≠ none) :
    exec (.startStepPass d (Fin.ofNat 11 (s.die d.val).startStep)) s =
      if s.stepBad d.val then
        .next ((s.measureStep d.val).freed.stepFail d.val (BitVec.ofNat 16 (Config.freeNat (s.measureStep d.val).free)))
      else if (s.die d.val).startStep < 10 then
        .next (((s.stepPassed d.val).beginStep d.val 11 ((s.die d.val).startStep + 1)).seekAbsent)
      else .next ((s.stepPassed d.val).dieReady d.val) := by
  rw [exec_startStepPass, if_neg]
  have runs : (decide ((s.die d.val).startStep = 10) && s.tickBase.isNone) = false := by
    by_cases h : (s.die d.val).startStep = 10
    · cases e : s.tickBase with
      | none => exact absurd e (ht h)
      | some b => rw [Option.isNone_some, Bool.and_false]
    · rw [decide_eq_false h, Bool.false_and]
  rw [runs, Fin.ofNat_eleven hn, hs]
  simp

theorem State.measureStep_spec (s : State) (d : Nat) : ∃ m, s.measureStep d = { s with meas := m } := by
  unfold State.measureStep
  simp only
  split
  · exact ⟨_, rfl⟩
  · exact ⟨_, rfl⟩

theorem State.measureStep_meas (s : State) (d : Nat) :
    (s.measureStep d).meas = s.meas ++ (if stepImage (s.die d).startStep then
      [⟨d, (s.die d).startStep, s.stepSlot d (s.die d).startStep,
        s.imageCheck d (s.die d).startStep (s.stepSlot d (s.die d).startStep)⟩] else []) := by
  unfold State.measureStep
  simp only
  split
  · rfl
  · simp

theorem State.measureStep_freed_startFrame (s : State) (d : Nat) : StartFrame s (s.measureStep d).freed := by
  obtain ⟨m, h⟩ := s.measureStep_spec d
  rw [h]
  exact ⟨⟨rfl, rfl, rfl, rfl, rfl, rfl⟩, rfl⟩

@[simp] theorem State.measureStep_die (s : State) (d x : Nat) : (s.measureStep d).die x = s.die x := by
  obtain ⟨m, h⟩ := s.measureStep_spec d
  rw [h]; rfl

@[simp] theorem State.measureStep_csr (s : State) (d : Nat) : (s.measureStep d).csr = s.csr := by
  obtain ⟨m, h⟩ := s.measureStep_spec d
  rw [h]

/-- What of a state a passed step leaves. -/
structure StepPassed (s t : State) (d : Nat) : Prop where
  csr : t.csr = s.csr
  meas : t.meas = (s.measureStep d).meas
  absent : ∀ x, (t.die x).absent = (s.die x).absent
  starting : (t.die d).starting = false

theorem State.stepOver_passed (s : State) (d n : Nat) (slot : Bool) :
    StepPassed s (((s.measureStep d).stepOver d).record d n 2 slot 0) d := by
  refine ⟨?_, ?_, fun x => ?_, ?_⟩
  · rw [State.record_csr]; exact s.measureStep_csr d
  · rw [State.record_meas]; rfl
  · rw [State.record_die, State.stepOver_die, State.measureStep_die]
    split <;> rfl
  · rw [State.record_die, State.stepOver_die, if_pos rfl]

theorem StepPassed.deriveKey {s t : State} {d : Nat} (h : StepPassed s t d) : StepPassed s (t.deriveKey d) d := by
  refine ⟨h.csr, h.meas, fun x => ?_, ?_⟩
  · rw [← h.absent x]
    unfold State.deriveKey
    rw [State.die_modDie]
    split
    · next e => rw [e]
    · rfl
  · rw [← h.starting]
    unfold State.deriveKey
    rw [State.die_modDie_same]

theorem State.stepPassed_passed (s : State) (d : Nat) : StepPassed s (s.stepPassed d) d := by
  have h := s.stepOver_passed d (s.die d).startStep (s.stepSlot d (s.die d).startStep)
  unfold State.stepPassed
  simp only
  split
  · exact h.deriveKey
  · exact h

theorem State.mark_congr {s t : State} (h : t.csr = s.csr) (d n : Nat) : t.mark d n = s.mark d n := by
  unfold State.mark
  rw [State.getF_congr h]

/-- A step that passes brings the next one (R94). -/
theorem State.nextStep_begun (s : State) (d n : Nat) (h5 : d = 0 ∨ n ≠ 5) (absent : ∀ x < 4, (s.die x).absent = false)
    (hskip : stepOptional (n + 1) = false ∨ s.mark d (2 * (n + 1)) = false) :
    let t := ((s.stepPassed d).beginStep d 11 (n + 1)).seekAbsent
    (t.die d).startStep = n + 1 ∧ (t.die d).starting = true ∧ t.meas = (s.measureStep d).meas := by
  have p := s.stepPassed_passed d
  have b := (s.stepPassed d).beginStep_begun d 10 (n + 1) (h5.imp id fun h e => h (by omega))
    (hskip.imp id fun h => (State.mark_congr p.csr _ _).trans h)
  have none : ∀ x < 4, (((s.stepPassed d).beginStep d 11 (n + 1)).die x).absent = false := fun x hx => by
    rw [← absent x hx, ← p.absent x, b.die]
    split <;> rfl
  simp only
  rw [State.seekAbsent_none _ none, b.die, if_pos rfl]
  exact ⟨rfl, rfl, b.meas.trans p.meas⟩

/-- A die that passes its last step is ready (R94). -/
theorem State.dieReady_ready (s : State) (d : Nat) (h : (s.die d).starting = false) :
    ((s.dieReady d).die d).ready = true ∧ ((s.dieReady d).die d).starting = false := by
  unfold State.dieReady
  simp only
  split
  · rw [State.setF_die_view, State.die_modDie_same]; exact ⟨rfl, h⟩
  · rw [State.die_modDie_same]; exact ⟨rfl, h⟩


/-! The clauses of a step (R94 to R97) -/

theorem exec_startStepPass_idle (s : State) (d : Die) (k : Fin 11)
    (h : (s.die d.val).starting = false ∨ k.val ≠ (s.die d.val).startStep) : exec (.startStepPass d k) s = .next s := by
  rw [exec_startStepPass, if_pos]
  rcases h with h | h
  · simp [h]
  · simp [Ne.symm h]

theorem exec_startStepFail_idle (s : State) (d : Die) (code : BitVec 16) (h : (s.die d.val).starting = false) :
    exec (.startStepFail d code) s = .next s := by
  show Host.Outcome.next (if (s.die d.val).starting then s.stepFail d.val code else s) = _
  rw [if_neg (by simp [h])]

/-- What a failing step does with every code, it does with that of a timeout too. -/
theorem stepFails_does {s : State} {d : Die} {P : State → Prop} (hs : (s.die d.val).starting = true)
    (h : ∀ code, P (s.stepFail d.val code)) : (∀ c, Does (.startStepFail d c) s P) ∧ Does (.startStepTimeout d) s P := by
  have fails (c : BitVec 16) : Does (.startStepFail d c) s P := ⟨_, exec_startStepFail s d c hs, h c⟩
  refine ⟨fails, ?_⟩
  unfold Does
  rw [exec_startStepTimeout]
  exact fails 0xFFFF

theorem Restarted.and {s t : State} (h : Restarted s t) : t.getF SJ_STAT.BOOT 0 = (s.getF SJ_STAT.BOOT 0 + 1) % 2 ^ 32 ∧
    t.mem = s.mem ∧ t.tickBase = s.tickBase ∧ t.now = s.now ∧ t.tasks = [] := ⟨h.boot, h.mem, h.tickBase, h.now, h.tasks⟩

/-- A step with an image is not step 0, which has no image to check. -/
theorem State.stepBad_step (s : State) (d : Nat) (h : s.stepBad d = true) : (s.die d).startStep ≠ 0 := by
  intro e
  simp [State.stepBad, e, stepImage] at h

/-- A step whose image fails its checks restarts the module (R95, R96). -/
theorem State.measuredFail_restarted (s : State) (d : Nat) (code : BitVec 16) (h : s.stepBad d = true) :
    Restarted s ((s.measureStep d).freed.stepFail d code) := by
  have hn : ((s.measureStep d).freed.die d).startStep ≠ 0 := (s.measureStep_die d d).symm ▸ s.stepBad_step d h
  exact (s.measureStep_freed_startFrame d).restarted (State.stepFail_restarted _ d code hn)

theorem startStepPass_bad (s : State) (d : Die) (hs : (s.die d.val).starting = true) (hn : (s.die d.val).startStep < 10)
    (hb : s.stepBad d.val = true) :
    Does (.startStepPass d (Fin.ofNat 11 (s.die d.val).startStep)) s (Restarted s) := by
  refine ⟨_, ?_, s.measuredFail_restarted d.val (BitVec.ofNat 16 (Config.freeNat (s.measureStep d.val).free)) hb⟩
  rw [exec_startStepPass_runs s d hs (by omega) (by omega), if_pos hb]

theorem exec_startStepPass_good (s : State) (d : Die) (hs : (s.die d.val).starting = true)
    (hn : (s.die d.val).startStep < 10) (hb : s.stepBad d.val = false) :
    exec (.startStepPass d (Fin.ofNat 11 (s.die d.val).startStep)) s =
      .next (((s.stepPassed d.val).beginStep d.val 11 ((s.die d.val).startStep + 1)).seekAbsent) := by
  rw [exec_startStepPass_runs s d hs (by omega) (by omega), hb, if_neg Bool.false_ne_true, if_pos hn]

theorem State.stepBad_last (s : State) (d : Nat) (h : (s.die d).startStep = 10) : s.stepBad d = false := by
  simp [State.stepBad, h, stepImage]

theorem exec_startStepPass_untimed (s : State) (d : Die) (k : Fin 11) (hn : (s.die d.val).startStep = 10)
    (ht : s.tickBase = none) : exec (.startStepPass d k) s = .next s := by
  rw [exec_startStepPass, if_pos (by simp [hn, ht])]

/-- A die's last step ends in READY (R94). -/
theorem startStepPass_last (s : State) (d : Die) (hs : (s.die d.val).starting = true) (hn : (s.die d.val).startStep = 10)
    (ht : s.tickBase ≠ none) :
    Does (.startStepPass d (Fin.ofNat 11 (s.die d.val).startStep)) s fun t =>
      (t.die d.val).ready = true ∧ (t.die d.val).starting = false := by
  refine ⟨_, ?_, (s.stepPassed d.val).dieReady_ready d.val (s.stepPassed_passed d.val).starting⟩
  rw [exec_startStepPass_runs s d hs (by omega) fun _ => ht, s.stepBad_last d.val hn, if_neg Bool.false_ne_true,
    if_neg (by omega)]

/-! Images, attestation and SPDM (R76, R98, R99) -/

theorem execSjImgDone_idle (s : State) (ok : Bool) (h : s.getF SJ_IMG_CTL.STATE 0 ≠ 1) : exec (.sjImgDone ok) s = .next s := by
  show execSjImgDone ok s = _
  unfold execSjImgDone
  rw [if_pos h]

theorem sjImgDone_fails (s : State) (h : s.getF SJ_IMG_CTL.STATE 0 = 1) :
    Does (.sjImgDone false) s fun t => t.getF SJ_IMG_CTL.STATE 0 = 3 ∧ t.flash = s.flash := by
  refine ⟨s.setF SJ_IMG_CTL.STATE 0 3, ?_, s.getF_setF_same SJ_IMG_CTL.STATE 0 3 (by decide), s.setF_flash _ _ _⟩
  show execSjImgDone false s = _
  unfold execSjImgDone
  rw [if_neg (not_not.2 h), if_pos (by decide)]

/-- The flash slot that a loaded image takes. -/
def State.flashed (s : State) (slot : Nat) (l : List Byte) : State := { s with flash := s.flash.put slot l }

@[simp] theorem State.flashed_getF (s : State) (slot : Nat) (l : List Byte) (f : CsrField) (i : Nat) :
    (s.flashed slot l).getF f i = s.getF f i := rfl
@[simp] theorem State.flashed_flash (s : State) (slot : Nat) (l : List Byte) : (s.flashed slot l).flash = s.flash.put slot l := rfl

theorem State.memBytes_setF (s : State) (f : CsrField) (i v a n : Nat) : (s.setF f i v).memBytes a n = s.memBytes a n := rfl

theorem execSjImgDone_true (s : State) (h : s.getF SJ_IMG_CTL.STATE 0 = 1) :
    exec (.sjImgDone true) s =
      if s.getF SJ_IMG_CTL.LEN 0 * 2 ^ 20 = 0 then .next (s.setF SJ_IMG_CTL.STATE 0 2)
      else .next ((s.setF SJ_IMG_CTL.STATE 0 2).flashed ((s.setF SJ_IMG_CTL.STATE 0 2).getF SJ_IMG_CTL.SLOT 0)
        ((s.setF SJ_IMG_CTL.STATE 0 2).memBytes (2 ^ 39 + 4096 * (s.setF SJ_IMG_CTL.STATE 0 2).getF SJ_IMG_CTL.SRC 0)
          (s.getF SJ_IMG_CTL.LEN 0 * 2 ^ 20))) := by
  show execSjImgDone true s = _
  unfold execSjImgDone
  rw [if_neg (not_not.2 h), if_neg (by decide)]
  rfl

theorem sjImgDone_loads (s : State) (h : s.getF SJ_IMG_CTL.STATE 0 = 1) :
    Does (.sjImgDone true) s fun t => t.getF SJ_IMG_CTL.STATE 0 = 2 ∧
      (s.getF SJ_IMG_CTL.LEN 0 ≠ 0 → t.flash.look (s.getF SJ_IMG_CTL.SLOT 0) =
        s.memBytes (2 ^ 39 + 4096 * s.getF SJ_IMG_CTL.SRC 0) (s.getF SJ_IMG_CTL.LEN 0 * 2 ^ 20)) := by
  have state : (s.setF SJ_IMG_CTL.STATE 0 2).getF SJ_IMG_CTL.STATE 0 = 2 :=
    s.getF_setF_same SJ_IMG_CTL.STATE 0 2 (by decide)
  have slot : (s.setF SJ_IMG_CTL.STATE 0 2).getF SJ_IMG_CTL.SLOT 0 = s.getF SJ_IMG_CTL.SLOT 0 :=
    s.getF_setF_field SJ_IMG_CTL.STATE SJ_IMG_CTL.SLOT 0 2 (by decide) rfl (by decide)
  have src : (s.setF SJ_IMG_CTL.STATE 0 2).getF SJ_IMG_CTL.SRC 0 = s.getF SJ_IMG_CTL.SRC 0 :=
    s.getF_setF_field SJ_IMG_CTL.STATE SJ_IMG_CTL.SRC 0 2 (by decide) rfl (by decide)
  unfold Does
  rw [execSjImgDone_true s h]
  split
  · next len => exact ⟨_, rfl, state, fun ne => by omega⟩
  · refine ⟨_, rfl, by rw [State.flashed_getF]; exact state, fun _ => ?_⟩
    rw [State.flashed_flash, slot, src, SMap.look_put_same, State.memBytes_setF]

@[simp] theorem State.vec_getF (s : State) (p v : Nat) (f : CsrField) (i : Nat) : (s.vec p v).getF f i = s.getF f i := by
  obtain ⟨o, h⟩ := s.vec_spec p v
  rw [h]; rfl

@[simp] theorem State.vec_mem (s : State) (p v : Nat) : (s.vec p v).mem = s.mem := by
  obtain ⟨o, h⟩ := s.vec_spec p v
  rw [h]

theorem attReport_refused (s : State) (p : Part)
    (h : s.vwrite 0 p.val 0 3 (64 * s.getF PRT_ATT_CTL.DEST p.val) (s.signedReport p.val) = none) :
    Does (.attReport p) s fun t => t.getF PRT_ATT_CTL.STATE p.val = 3 ∧ t.mem = s.mem := by
  refine ⟨s.setF PRT_ATT_CTL.STATE p.val 3, ?_, s.getF_setF_same PRT_ATT_CTL.STATE p.val 3 (by decide), s.setF_mem _ _ _⟩
  show execAttReport p s = _
  unfold execAttReport
  simp only
  rw [h]

theorem attReport_written (s u : State) (p : Part)
    (h : s.vwrite 0 p.val 0 3 (64 * s.getF PRT_ATT_CTL.DEST p.val) (s.signedReport p.val) = some u) :
    Does (.attReport p) s fun t => t.getF PRT_ATT_CTL.STATE p.val = 2 ∧ t.mem = u.mem := by
  refine ⟨(u.setF PRT_ATT_CTL.STATE p.val 2).vec p.val 6, ?_, ?_, ?_⟩
  · show execAttReport p s = _
    unfold execAttReport
    simp only
    rw [h]
  · rw [State.vec_getF]; exact u.getF_setF_same PRT_ATT_CTL.STATE p.val 2 (by decide)
  · rw [State.vec_mem, State.setF_mem]

theorem exec_spdmRequest_idle (s : State) (f : Fn) (h : f.val ≠ 0 ∨ s.hostUp = false) :
    exec (.spdmRequest f) s = .next s := by
  show execSpdmRequest f s = _
  unfold execSpdmRequest
  rw [if_pos (by rcases h with h | h <;> simp [h])]

theorem spdmRequest_answered (s : State) (f : Fn) (hf : f.val = 0) (hu : s.hostUp = true) :
    Does (.spdmRequest f) s fun t => ∃ b, t.out = s.out ++ [.spdm b] := by
  refine ⟨(s.send (.spdm (Config.freeBytes s.free (Config.freeNat s.free)))).freed, ?_, _, rfl⟩
  show execSpdmRequest f s = _
  unfold execSpdmRequest
  rw [if_neg (by simp [hf, hu])]

/-! Snapshots (R100 to R102) -/

theorem exec_snapInEdge_idle (s : State) (h : s.getF SNP_CTL.PIN 0 ≠ 1) : exec .snapInEdge s = .next s := by
  show execSnapInEdge s = _
  unfold execSnapInEdge
  rw [if_neg h]

/-- A latch on its way for a cause. -/
def State.latchWaits (s : State) (cause : Nat) : State := { s with snap := { s.snap with pending := some s.now, cause := cause } }

theorem State.latchWaits_snap (s : State) (cause : Nat) :
    (s.latchWaits cause).snap.pending = some s.now ∧ (s.latchWaits cause).snap.cause = cause := ⟨rfl, rfl⟩

/-- An armed trigger starts a latch. -/
theorem State.snapTrigger_armed (s : State) (c : Nat) (armed : s.getF SNP_CTL.ARM 0 = 1) (h : s.getF SNP_STAT.STATE 0 ≠ 2)
    (hp : s.snap.pending = none) : s.snapTrigger c = (s.latchWaits (2 ^ c)).sched (s.now + 64) phEnd .snpLatch := by
  unfold State.snapTrigger
  rw [if_neg h, if_neg (by omega), hp]
  rfl

theorem snapInEdge_triggers (s : State) (pin : s.getF SNP_CTL.PIN 0 = 1) (armed : s.getF SNP_CTL.ARM 0 = 1)
    (h : s.getF SNP_STAT.STATE 0 ≠ 2) (hp : s.snap.pending = none) :
    Does .snapInEdge s fun t => t.snap.pending = some s.now ∧ t.snap.cause = 2 ∧ DueAt t .snpLatch (s.now + 64) := by
  refine ⟨(s.latchWaits (2 ^ 1)).sched (s.now + 64) phEnd .snpLatch, ?_, ?_⟩
  · show execSnapInEdge s = _
    unfold execSnapInEdge
    rw [if_pos pin, s.snapTrigger_armed 1 armed h hp]
  · obtain ⟨pending, cause⟩ := s.latchWaits_snap (2 ^ 1)
    rw [State.sched_snap]
    exact ⟨pending, cause, State.dueAt_sched _ _ _ _⟩

/-- What a latch captures. -/
def State.latched (s : State) : State :=
  let pcs : SMap Nat := (List.range 3072).foldl (fun m b =>
    match s.holder (b / 8) (b % 8) with | some t => m.put b (s.task t).pc.toNat | none => m) []
  { s with snap := { s.snap with pending := none, regs := s.csrAll, banks := s.banks, pcs := pcs, high := true } }

/-- The vectors to the partitions that are up. -/
def State.latchTold (s : State) : State := (List.range 16).foldl (fun s p => if s.vfUp (p + 1) then s.vec p 7 else s) s

/-- The registers of a latch. -/
def State.latchShown (s : State) (cause : Nat) : State :=
  let t := (s.setF SNP_STAT.STATE 0 2).setF SNP_STAT.CAUSE 0 cause
  t.setF SNP_TICK.TICK 0 t.tick

/-- A latch with its messages. -/
def State.latchSent (s : State) : State := ((s.send (.snapOut true)).pfVec 5).latchTold

theorem exec_snpLatch (s : State) (h : s.snap.pending ≠ none) :
    exec .snpLatch s =
      .next ((s.latched.latchShown s.snap.cause).latchSent.sched ((s.latched.latchShown s.snap.cause).latchSent.now + 64) phEnd
        .snapOutEnd) := by
  show execSnpLatch s = _
  unfold execSnpLatch
  rw [if_neg (by simpa using h)]
  rfl

theorem exec_snpLatch_idle (s : State) (h : s.snap.pending = none) : exec .snpLatch s = .next s := by
  show execSnpLatch s = _
  unfold execSnpLatch
  rw [if_pos (by simp [h])]

theorem State.latchTold_spec (s : State) : ∃ o, s.latchTold = { s with out := o } := by
  refine foldl_keeps (P := fun t => ∃ o, t = { s with out := o }) (List.range 16) ?_ s ⟨s.out, rfl⟩
  rintro t p - ⟨o, rfl⟩
  split
  · obtain ⟨o', h⟩ := State.vec_spec { s with out := o } p 7
    exact ⟨o', h⟩
  · exact ⟨o, rfl⟩

theorem State.latchSent_spec (s : State) : ∃ o, s.latchSent = { s with out := o } := by
  obtain ⟨o, h⟩ := (s.send (.snapOut true)).pfVec_spec 5
  obtain ⟨o', h'⟩ := ((s.send (.snapOut true)).pfVec 5).latchTold_spec
  refine ⟨o', ?_⟩
  unfold State.latchSent
  rw [h', h]
  rfl

/-- A latch's messages leave what it captures and the registers alone. -/
theorem State.latchSent_kept (s : State) : s.latchSent.snap = s.snap ∧ s.latchSent.now = s.now ∧ s.latchSent.csr = s.csr := by
  obtain ⟨o, h⟩ := s.latchSent_spec
  rw [h]
  exact ⟨rfl, rfl, rfl⟩

theorem State.latchShown_csrOnly (s : State) (cause : Nat) : CsrOnly s (s.latchShown cause) :=
  ((s.setF_csrOnly _ _ _).trans (State.setF_csrOnly _ _ _ _)).trans (State.setF_csrOnly _ _ _ _)

@[simp] theorem State.latchShown_snap (s : State) (cause : Nat) : (s.latchShown cause).snap = s.snap := by
  obtain ⟨m, h⟩ := s.latchShown_csrOnly cause
  rw [h]

@[simp] theorem State.latchShown_now (s : State) (cause : Nat) : (s.latchShown cause).now = s.now :=
  (s.latchShown_csrOnly cause).kept.now

theorem State.latchShown_state (s : State) (cause : Nat) : (s.latchShown cause).getF SNP_STAT.STATE 0 = 2 := by
  unfold State.latchShown
  simp only
  rw [State.getF_setF_ne _ SNP_TICK.TICK SNP_STAT.STATE 0 0 _ (by decide),
    State.getF_setF_field _ SNP_STAT.CAUSE SNP_STAT.STATE 0 _ (by decide) rfl (by decide)]
  exact s.getF_setF_same SNP_STAT.STATE 0 2 (by decide)

theorem State.latchShown_cause (s : State) (cause : Nat) : (s.latchShown cause).getF SNP_STAT.CAUSE 0 = cause % 2 ^ 10 := by
  unfold State.latchShown
  simp only
  rw [State.getF_setF_ne _ SNP_TICK.TICK SNP_STAT.CAUSE 0 0 _ (by decide)]
  exact State.getF_setF_same _ SNP_STAT.CAUSE 0 cause (by decide)

theorem State.latched_captures (s : State) :
    s.latched.snap.banks = s.banks ∧ s.latched.snap.pending = none ∧ s.latched.snap.high = true ∧ s.latched.now = s.now :=
  ⟨rfl, rfl, rfl, rfl⟩

theorem snpLatch_does (s : State) (h : s.snap.pending ≠ none) :
    Does .snpLatch s fun t => t.getF SNP_STAT.STATE 0 = 2 ∧ t.snap.banks = s.banks ∧
      t.getF SNP_STAT.CAUSE 0 = s.snap.cause % 2 ^ 10 ∧ t.snap.pending = none ∧ t.snap.high = true ∧
      DueAt t .snapOutEnd (s.now + 64) := by
  obtain ⟨snap, now, csr⟩ := (s.latched.latchShown s.snap.cause).latchSent_kept
  obtain ⟨banks, pending, high, latchedNow⟩ := s.latched_captures
  replace now : (s.latched.latchShown s.snap.cause).latchSent.now = s.now :=
    now.trans ((State.latchShown_now _ _).trans latchedNow)
  refine ⟨_, exec_snpLatch s h, ?_⟩
  simp only
  have shown (f : CsrField) : ((s.latched.latchShown s.snap.cause).latchSent.sched (s.now + 64) phEnd .snapOutEnd).getF f 0 =
      (s.latched.latchShown s.snap.cause).getF f 0 := State.getF_congr ((State.sched_csr _ _ _ _ _ _).trans csr) f 0
  rw [now, State.sched_snap, snap, State.latchShown_snap, shown, shown]
  exact ⟨State.latchShown_state _ _, banks, State.latchShown_cause _ _, pending, high, State.dueAt_sched _ _ _ _⟩

/-- Settles O52: each event from the parts of its action; a failing step goes through the restart, which counts the boot. -/
theorem startEvents : Obligations.StartEvents := by
  intro s
  refine ⟨powerOnReset_does s, powerLoss_does s, fun d => ?_,
    ⟨fun h ok => execSjImgDone_idle s ok h, sjImgDone_fails s, sjImgDone_loads s⟩,
    fun p => ⟨attReport_refused s p, fun u => attReport_written s u p⟩,
    fun f => ⟨exec_spdmRequest_idle s f, spdmRequest_answered s f⟩,
    exec_snapInEdge_idle s, snapInEdge_triggers s, exec_snpLatch_idle s, snpLatch_does s, ⟨_, rfl, rfl, rfl⟩⟩
  refine ⟨fun h => ⟨fun k => exec_startStepPass_idle s d k (.inl h), fun c => exec_startStepFail_idle s d c h,
    exec_startStepFail_idle s d 0xFFFF h⟩, fun k h => exec_startStepPass_idle s d k (.inr h), ?_, ?_, ?_, ?_, ?_, ?_, ?_⟩
  · rintro hs rfl hn
    exact stepFails_does hs fun c => s.stepFail_halts c hn
  · intro hs hn
    exact stepFails_does hs fun c => (s.stepFail_restarted d.val c hn).and
  · intro hs hd hn alone
    have hd' : d.val ≠ 0 := fun e => hd (Fin.ext e)
    refine ⟨fun further => stepFails_does hs fun c => (s.stepFail_zero_restarted d.val c d.isLt hd' hn alone further).and,
      fun first => stepFails_does hs fun c => ?_⟩
    rw [s.stepFail_zero_eq d.val c d.isLt hd' hn alone first, State.goneAbsent_die, if_pos rfl]
    exact ⟨rfl, rfl, s.goneAbsent_csr d.val⟩
  · intro hs hn
    cases hb : s.stepBad d.val with
    | true =>
      obtain ⟨t, ht, restarted⟩ := startStepPass_bad s d hs hn hb
      exact ⟨t, ht, fun _ => restarted.and⟩
    | false =>
      refine ⟨_, exec_startStepPass_good s d hs hn hb, fun bad => ?_⟩
      simp only [State.stepBad] at hb
      simp_all
  · intro hs hn h5 absent hskip
    cases hb : s.stepBad d.val with
    | true =>
      obtain ⟨t, ht, -⟩ := startStepPass_bad s d hs hn hb
      refine ⟨t, ht, fun good => ?_⟩
      simp only [State.stepBad] at hb
      simp_all
    | false =>
      refine ⟨_, exec_startStepPass_good s d hs hn hb, fun _ => ?_⟩
      rw [← s.measureStep_meas]
      exact s.nextStep_begun d.val _ (h5.imp_left fun h => congrArg Fin.val h) absent hskip
  · exact fun _ hn ht => exec_startStepPass_untimed s d _ hn ht
  · exact startStepPass_last s d

end Sys2Proof.Machine
end

section
/-! PROOFS. What stores and the forms of slots 1 to 4 leave unchanged (O55). -/

namespace Sys2Proof.Spec

open Sys2Proof.Machine

/-! What an issue leaves alone (R157) -/

theorem OnlyIssues.refl (s : State) : OnlyIssues s s :=
  ⟨fun _ => ⟨rfl, List.prefix_refl _⟩, rfl, rfl, rfl, rfl, rfl, fun _ _ _ _ => rfl, fun _ => rfl⟩

theorem OnlyIssues.trans {s t u : State} (h : OnlyIssues s t) (k : OnlyIssues t u) : OnlyIssues s u := by
  obtain ⟨bank, mem, cores, clusters, dies, agenda, csr, task⟩ := h
  obtain ⟨bank', mem', cores', clusters', dies', agenda', csr', task'⟩ := k
  exact ⟨fun b => ⟨(bank' b).1.trans (bank b).1, (bank b).2.trans (bank' b).2⟩, mem'.trans mem, cores'.trans cores,
    clusters'.trans clusters, dies'.trans dies, agenda'.trans agenda, fun c i h1 h2 => (csr' c i h1 h2).trans (csr c i h1 h2),
    fun id => (task' id).trans (task id)⟩

end Sys2Proof.Spec

namespace Sys2Proof.Machine

open Sys2Proof.Spec

theorem CountsOnly.onlyIssues {s t : State} (h : CountsOnly s t) : OnlyIssues s t := by
  obtain ⟨⟨c, e, rfl⟩, csr⟩ := h
  exact ⟨fun _ => ⟨rfl, List.prefix_refl _⟩, rfl, rfl, rfl, rfl, rfl, csr, fun _ => rfl⟩

theorem State.issued1_onlyIssues (s : State) (cls : Nat) : OnlyIssues s (s.issued1 cls) := (s.issued1_countsOnly cls).onlyIssues

theorem State.count_onlyIssues (s : State) (core ctx code n : Nat) : OnlyIssues s (s.count core ctx code n) :=
  (s.count_countsOnly core ctx code n).onlyIssues

/-- A write that is put on its way stands last in its bank, and no register changes. -/
theorem State.after_onlyIssues (s : State) (off : Nat) (w : Write) : OnlyIssues s (s.after off w) := by
  refine ⟨fun b => ?_, rfl, rfl, rfl, rfl, rfl, fun _ _ _ _ => rfl, fun _ => rfl⟩
  by_cases h : b = s.b
  · subst h
    unfold State.after
    rw [State.bank_modBank_same]
    exact ⟨rfl, List.prefix_append _ _⟩
  · rw [s.bank_after off w b h]
    exact ⟨rfl, List.prefix_refl _⟩

theorem State.writeS_onlyIssues (s : State) (off : Nat) (d : BitVec 6) (v : Word) : OnlyIssues s (s.writeS off d v) := by
  unfold State.writeS
  split
  · exact .refl s
  · exact s.after_onlyIssues _ _

theorem State.writeSbs_onlyIssues (s : State) (off : Nat) (d : BitVec 6) (v : Word) : OnlyIssues s (s.writeSbs off d v) :=
  (s.after_onlyIssues _ _).trans (State.writeS_onlyIssues _ _ _ _)

theorem State.writeP_onlyIssues (s : State) (off pd : Nat) (v : Bool) : OnlyIssues s (s.writeP off pd v) := by
  unfold State.writeP
  split
  · exact .refl s
  · exact s.after_onlyIssues _ _

theorem State.writeV_onlyIssues (s : State) (u off d : Nat) (v : Vec) : OnlyIssues s (s.writeV u off d v) :=
  (s.after_onlyIssues _ _).trans (State.after_onlyIssues _ _ _)

theorem State.writeFlags_onlyIssues (s : State) (off f : Nat) : OnlyIssues s (s.writeFlags off f) := by
  unfold State.writeFlags
  split
  · exact .refl s
  · exact s.after_onlyIssues _ _

/-- A task whose request counts alone change. -/
theorem State.modTask_onlyIssues (s : State) (id : Nat) (f : Task → Task)
    (h : ∀ t : Task, { f t with nt0 := 0, nt1 := 0 } = { t with nt0 := 0, nt1 := 0 }) : OnlyIssues s (s.modTask id f) := by
  refine ⟨fun _ => ⟨rfl, List.prefix_refl _⟩, rfl, rfl, rfl, rfl, rfl, fun _ _ _ _ => rfl, fun n => ?_⟩
  rw [State.task_modTask]
  split
  · next e => rw [h, e]
  · rfl

/-! The shared forms of the slots -/

section
variable {s : State} {i : Instr} (h : i.wf = true)
include h

/-- An operation without checks whose effect only issues. -/
theorem issue_onlyIssues (f : State → State) (hf : OnlyIssues s (f s)) :
    ∃ t, s.issue i .pass f = .next t ∧ OnlyIssues s t := ⟨_, s.issue_pass i f h, hf⟩

theorem scalar2_onlyIssues (o : S3) (off : Nat) (f : Word → Word → Word) :
    ∃ t, s.scalar2 i o off f = .next t ∧ OnlyIssues s t :=
  issue_onlyIssues h _ ((s.issued1_onlyIssues 1).trans (State.writeSbs_onlyIssues _ _ _ _))

theorem scalarDiv_onlyIssues (o : S3) (f : Word → Word → Word) (fl : Word → Word → Nat) :
    ∃ t, s.scalarDiv i o f fl = .next t ∧ OnlyIssues s t :=
  issue_onlyIssues h _ (((s.issued1_onlyIssues 1).trans (State.writeSbs_onlyIssues _ _ _ _)).trans
    (State.writeFlags_onlyIssues _ _ _))

theorem compare_onlyIssues (o : SP) (f : Word → Word → Bool) : ∃ t, s.compare i o f = .next t ∧ OnlyIssues s t := by
  refine issue_onlyIssues h _ ?_
  have first := (s.issued1_onlyIssues 1).trans (State.writeP_onlyIssues _ 1 o.pd.toNat (f (s.sv o.a) (s.bSP o)))
  simp only
  split
  · exact first.trans (State.writeP_onlyIssues _ _ _ _)
  · exact first

theorem scalar1_onlyIssues (d : BitVec 6) (v : Word) : ∃ t, s.scalar1 i d v = .next t ∧ OnlyIssues s t :=
  issue_onlyIssues h _ ((s.issued1_onlyIssues 1).trans (State.writeSbs_onlyIssues _ _ _ _))

theorem address_onlyIssues (d : BitVec 6) (v : Word) : ∃ t, s.address i d v = .next t ∧ OnlyIssues s t :=
  issue_onlyIssues h _ ((s.issued1_onlyIssues 2).trans (State.writeS_onlyIssues _ _ _ _))

theorem address1_onlyIssues (w : Write) : ∃ t, s.address1 i .pass w = .next t ∧ OnlyIssues s t :=
  issue_onlyIssues h _ ((s.issued1_onlyIssues 2).trans (State.after_onlyIssues _ _ _))

/-- A write to a count register, where no level is spatial. -/
theorem levelWrite_onlyIssues (hl : ∀ l < 4, s.cur.loopKind l ≠ 1 ∧ s.cur.loopKind l ≠ 2) (k : Nat) (w : Write) :
    ∃ t, s.address1 i (s.levelCheck k) w = .next t ∧ OnlyIssues s t := by
  have pass : s.levelCheck k = .pass := by
    unfold State.levelCheck
    by_cases hk : k < 4
    · simp [hl k hk, Check.when, Check.pass]
    · simp [hk, Check.when, Check.pass]
  rw [pass]
  exact address1_onlyIssues h w

theorem vector_onlyIssues (u : VUnit) (d : BitVec 5) (off cls : Nat) (r : State → Vec × Nat) :
    ∃ t, s.vector i u d off cls r = .next t ∧ OnlyIssues s t :=
  issue_onlyIssues h _ ((((s.issued1_onlyIssues cls).trans (State.count_onlyIssues _ _ _ _ _)).trans
    (State.writeV_onlyIssues _ _ _ _ _)).trans (State.writeFlags_onlyIssues _ _ _))

theorem vec1_onlyIssues (u : VUnit) (o : V3) (off : Nat) (f : FpEnv → Nat → Elem) (ftz : Bool) :
    ∃ t, s.vec1 i u o off f ftz = .next t ∧ OnlyIssues s t := vector_onlyIssues h u _ _ _ _

theorem vec2_onlyIssues (u : VUnit) (o : V3) (off : Nat) (f : FpEnv → Nat → Nat → Elem) (ftz : Bool) :
    ∃ t, s.vec2 i u o off f ftz = .next t ∧ OnlyIssues s t := vector_onlyIssues h u _ _ _ _

theorem vec3_onlyIssues (u : VUnit) (o : V3) (off : Nat) (f : FpEnv → Nat → Nat → Nat → Elem) (ftz : Bool) :
    ∃ t, s.vec3 i u o off f ftz = .next t ∧ OnlyIssues s t := vector_onlyIssues h u _ _ _ _

theorem reduction_onlyIssues (u : VUnit) (o : V3) (off : Nat) (f : FpEnv → Nat → Nat → Elem) (ftz : Bool) :
    ∃ t, s.reduction i u o off f ftz = .next t ∧ OnlyIssues s t := vector_onlyIssues h u _ _ _ _

end

theorem ntq_onlyIssues (s : State) (o : AN) (h : (Instr.ntq o).wf = true) : Does (.ntq o) s (OnlyIssues s) := by
  show ∃ t, execNtq o s = .next t ∧ _
  refine issue_onlyIssues h _ ?_
  have written (v : Word) (p : Bool) := ((s.issued1_onlyIssues 2).trans (State.writeS_onlyIssues _ 12 48 v)).trans
    (State.writeP_onlyIssues _ 12 8 p)
  simp only
  split
  · refine (written _ _).trans (State.modTask_onlyIssues _ _ _ fun t => ?_)
    split <;> rfl
  · exact written _ _

theorem lcnt_onlyIssues (s : State) (o : AK) (h : (Instr.lcnt o).wf = true) : Does (.lcnt o) s (OnlyIssues s) := by
  show ∃ t, execLcnt o s = .next t ∧ _
  refine issue_onlyIssues h _ ?_
  simp only
  split
  · exact (s.issued1_onlyIssues 2).trans (State.after_onlyIssues _ _ _)
  · exact s.issued1_onlyIssues 2

theorem lrept_onlyIssues (s : State) (o : AK) (h : (Instr.lrept o).wf = true) : Does (.lrept o) s (OnlyIssues s) := by
  show ∃ t, execLrept o s = .next t ∧ _
  refine issue_onlyIssues h _ ?_
  simp only
  split
  · exact (s.issued1_onlyIssues 2).trans (State.after_onlyIssues _ _ _)
  · exact s.issued1_onlyIssues 2

theorem vunpk_onlyIssues (s : State) (o : VC) (h : (Instr.vunpk o).wf = true) : Does (.vunpk o) s (OnlyIssues s) := by
  show ∃ t, execVunpk o s = .next t ∧ _
  refine issue_onlyIssues h _ ?_
  refine OnlyIssues.trans (OnlyIssues.trans ((s.issued1_onlyIssues 4).trans ((State.count_onlyIssues _ _ _ _ _).trans
    (State.after_onlyIssues _ _ _))) (foldl_rel OnlyIssues.refl OnlyIssues.trans _ _ fun t n _ => t.after_onlyIssues _ _))
    (State.writeFlags_onlyIssues _ _ _)

/-- Whether an instruction has a word in one of the slots 1 to 4. -/
def inSlots1To4 (i : Instr) : Bool :=
  match encodeOp i with
  | some (slot, _) => decide (1 ≤ slot ∧ slot ≤ 4)
  | none => false

theorem inSlots1To4_of {i : Instr} {slot : Nat} {opc : BitVec 7} {opd : BitVec 20}
    (h : encodeOp i = some (slot, opc, opd)) (hs : slot = 1 ∨ slot = 2 ∨ slot = 3 ∨ slot = 4) : inSlots1To4 i = true := by
  unfold inSlots1To4
  rw [h]
  simp only [decide_eq_true_eq]
  omega

/-- The scalar, address and vector forms change no register as they issue (R157). -/
theorem slots1To4_onlyIssues (i : Instr) (s : State) (h : i.wf = true) (hi : inSlots1To4 i = true)
    (hl : ∀ l < 4, s.cur.loopKind l ≠ 1 ∧ s.cur.loopKind l ≠ 2) (hqrd : ∀ o, i ≠ .qrd o) (hsfeed : ∀ o, i ≠ .sfeed o)
    (hnop : ∀ k, i ≠ .nop k) : Does i s (OnlyIssues s) := by
  cases i with
  | add o | sub o | mul o | mulh o | mulhn o | and o | or o | xor o | andn o | shl o | shr o | sar o | rotl o | min o | max o
  | minn o | maxn o | clz o | popc o =>
    unfold Does exec
    exact scalar2_onlyIssues h o _ _
  | div o | divn o | rem o | remn o =>
    unfold Does exec
    exact scalarDiv_onlyIssues h o _ _
  | cmpeq o | cmpne o | cmplt o | cmpltn o | cmple o | cmplen o =>
    unfold Does exec
    exact compare_onlyIssues h o _
  | ext o | sel o | addi o | movi o | movhi o | srd o =>
    unfold Does exec
    exact scalar1_onlyIssues h _ _
  | plog o =>
    unfold Does exec
    exact issue_onlyIssues h _ ((s.issued1_onlyIssues 1).trans (State.writeP_onlyIssues _ _ _ _))
  | aadd o | asub o | amov o | aidx o | awrap o | aaddi o | kget o =>
    unfold Does exec
    exact address_onlyIssues h _ _
  | lset o | kset o | kadd o =>
    unfold Does exec
    exact levelWrite_onlyIssues h hl _ _
  | shf o | shcp o | rrbw o | pstg o =>
    unfold Does exec
    exact address1_onlyIssues h _
  | ntq o => exact ntq_onlyIssues s o h
  | lcnt o => exact lcnt_onlyIssues s o h
  | lrept o => exact lrept_onlyIssues s o h
  | vadd u o | vsub u o | vmul u o | vmin u o | vmax u o | vcmpeq u o | vcmplt u o | vcmple u o | vcmpun u o
  | vand u o | vor u o | vxor u o | vshl u o | vshr u o | vsar u o | vadds u o | vsubs u o | vmullo u o =>
    unfold Does exec
    exact vec2_onlyIssues h u o _ _ _
  | vfma u o | vfms u o | vfnma u o | vsel u o | vclamp u o =>
    unfold Does exec
    exact vec3_onlyIssues h u o _ _ _
  | vabs u o | vneg u o | vrcp u o | vrsq u o | vsqrt u o | vexp2 u o | vlog2 u o | vmov u o | vclz u o | vpopc u o
  | vround u o =>
    unfold Does exec
    exact vec1_onlyIssues h u o _ _ _
  | vrsum u o | vrmax u o | vrmin u o =>
    unfold Does exec
    exact reduction_onlyIssues h u o _ _ _
  | vcvt u o | vdot u o | vdota u o | vbcast u o | vmovi u o | vidx u o =>
    unfold Does exec
    exact vector_onlyIssues h u _ _ _ _
  | vperm o | vxgrp o | vshuf o | vpack o =>
    unfold Does exec
    exact vector_onlyIssues h .v1 _ _ _ _
  | vunpk o => exact vunpk_onlyIssues s o h
  | qrd o => exact absurd rfl (hqrd o)
  | sfeed o => exact absurd rfl (hsfeed o)
  | nop k => exact absurd rfl (hnop k)
  | _ => exact absurd hi Bool.false_ne_true

/-- QCLR changes no tile as it issues (R331). -/
theorem qclr_onlyIssues (s : State) (o : MK) (hb : bit (s.cur.hdrNat 24 2) o.bank.toNat = true) (hp : s.env.probe = false) :
    Does (.qclr o) s (OnlyIssues s) := by
  have found : (s.finding (s.bankCheck o.bank.toNat)).1 = 0 := by
    rw [State.bankCheck, s.finding_when _ _ _ (by rw [hb]; rfl)]
  show ∃ t, execQclr o s = .next t ∧ _
  unfold execQclr State.accOp
  refine ⟨_, s.issue_next (.qclr o) _ _ rfl found hp, ?_⟩
  simp only
  split
  · exact s.issued1_onlyIssues 5
  · exact (s.issued1_onlyIssues 5).trans (State.after_onlyIssues _ _ _)

/-! A scratchpad store lands (R132, R157) -/

/-- A store that no measurement captures goes to the scratchpad alone. -/
theorem State.landOne_spad (s : State) (due ord off : Nat) (l : List Byte) (h : s.capturing s.env.task = false) :
    s.landOne ⟨due, ord, .spad off l⟩ = s.spadStore s.env.core s.env.ctx off l := by
  show (s.captureSpad s.env.task s.env.core ((s.bank (ctxOf s.env.core s.env.ctx)).at_ off) l.length).spadStore _ _ _ _ = _
  unfold State.captureSpad
  rw [h, if_pos (by simp)]

theorem State.spadStore_kept (s : State) (core ctx off : Nat) (l : List Byte) :
    (s.spadStore core ctx off l).banks = s.banks ∧ (s.spadStore core ctx off l).mem = s.mem ∧
      (s.spadStore core ctx off l).csr = s.csr := ⟨rfl, rfl, rfl⟩

theorem State.spadStore_spad (s : State) (core ctx off : Nat) (l : List Byte) :
    ((s.spadStore core ctx off l).core core).spad = putBytes (s.core core).spad ((s.bank (ctxOf core ctx)).at_ off) l := by
  unfold State.spadStore
  simp only
  rw [State.core_modCore_same]

theorem State.spadStore_core (s : State) (core ctx off : Nat) (l : List Byte) (c : Nat) (h : c ≠ core) :
    (s.spadStore core ctx off l).core c = s.core c := by
  unfold State.spadStore
  simp only
  rw [State.core_modCore, if_neg h]

@[simp] theorem State.spadStore_bank (s : State) (core ctx off : Nat) (l : List Byte) (b : Nat) :
    (s.spadStore core ctx off l).bank b = s.bank b := rfl

/-- The bytes of a scratchpad store read back. -/
theorem State.spadBytes_spadStore (s : State) (core ctx off : Nat) (l : List Byte) :
    (s.spadStore core ctx off l).spadBytes core ctx off l.length = l := by
  unfold State.spadBytes
  rw [s.spadStore_spad, s.spadStore_bank]
  exact bytesAt_putBytes _ _ _

/-! Maps and folds -/

/-- What holds of the default and of every value of a map holds of what is read. -/
theorem SMap.look_of_forall {α : Type} [Inhabited α] {P : α → Prop} (m : SMap α) (n : Nat) (hd : P default)
    (h : ∀ e ∈ m, P e.2) : P (m.look n) := by
  induction m with
  | nil => exact hd
  | cons e m ih =>
    obtain ⟨k, v⟩ := e
    unfold SMap.look
    split
    · exact h (k, v) List.mem_cons_self
    · exact ih fun e he => h e (List.mem_cons_of_mem _ he)

/-- A fold whose steps leave the state as it is. -/
theorem foldl_id {α β : Type} {f : α → β → α} (l : List β) (s : α) (h : ∀ b ∈ l, f s b = s) : l.foldl f s = s := by
  induction l with
  | nil => rfl
  | cons b l ih =>
    rw [List.foldl_cons, h b List.mem_cons_self]
    exact ih fun c hc => h c (List.mem_cons_of_mem b hc)

/-- Each step of a fold overwrites what is read at its own addresses with one and the same content: so does the fold, at the
addresses of all of them. -/
theorem foldl_overwrites {α β γ : Type} {f : α → β → α} {look : α → Nat → γ} {at_ : β → Nat → Prop} [∀ b x, Decidable (at_ b x)]
    {v : Nat → γ} (l : List β) (h : ∀ s, ∀ b ∈ l, ∀ x, look (f s b) x = if at_ b x then v x else look s x) (s : α) (x : Nat) :
    look (l.foldl f s) x = if ∃ b ∈ l, at_ b x then v x else look s x := by
  induction l generalizing s with
  | nil => simp
  | cons b l ih =>
    rw [List.foldl_cons, ih (fun s c hc => h s c (List.mem_cons_of_mem b hc)), h s b List.mem_cons_self]
    by_cases hb : at_ b x <;> by_cases hl : ∃ c ∈ l, at_ c x <;> simp [hb, hl]

/-! Bytes under a mask -/

/-- A byte of the range stored reads as the byte stored there where the mask is set, and as before elsewhere. -/
theorem putMasked_look_in (m : SMap Byte) (a : Nat) (b : List Byte) (k : List Bool) (i : Nat) (hb : i < b.length)
    (hk : i < k.length) : (putMasked m a b k).look (a + i) = if k[i] then b[i] else m.look (a + i) := by
  induction b generalizing m a k i with
  | nil => simp at hb
  | cons y b ih =>
    cases k with
    | nil => simp at hk
    | cons z k =>
      show (putMasked (if z then m.put a y else m) (a + 1) b k).look (a + i) = _
      cases i with
      | zero =>
        rw [putMasked_look_out _ _ _ _ _ (by omega)]
        cases z <;> simp
      | succ i =>
        have hstep := ih (if z then m.put a y else m) (a + 1) k i (by simpa using hb) (by simpa using hk)
        have old : (if z then m.put a y else m).look (a + (i + 1)) = m.look (a + (i + 1)) := by
          split
          · exact SMap.look_put_ne _ _ _ _ (by omega)
          · rfl
        rw [show a + (i + 1) = a + 1 + i by omega] at old ⊢
        rw [hstep, old]
        rfl

/-- Bytes of a line from a place in it, stored under their mask. -/
theorem putMasked_placed_look (m : SMap Byte) (a o : Nat) (b : List Byte) (h : o + b.length ≤ 128) (x : Nat) :
    (putMasked m a (placed o b) (spanMask o b.length)).look x =
      if a + o ≤ x ∧ x < a + o + b.length then b.getD (x - (a + o)) 0 else m.look x := by
  have lp : (placed o b).length = 128 := by simp [placed]
  have lm : (spanMask o b.length).length = 128 := by simp [spanMask]
  by_cases hx : a ≤ x ∧ x < a + 128
  · obtain ⟨i, rfl⟩ : ∃ i, x = a + i := ⟨x - a, by omega⟩
    rw [putMasked_look_in _ _ _ _ i (by omega) (by omega)]
    have mask : (spanMask o b.length)[i] = decide (o ≤ i ∧ i < o + b.length) := by simp [spanMask]
    have byte : (placed o b)[i]'(by omega) = if o ≤ i then b.getD (i - o) 0 else 0 := by simp [placed]
    rw [mask, byte]
    by_cases hi : o ≤ i ∧ i < o + b.length
    · rw [if_pos (by simpa using hi), if_pos hi.1, if_pos (by omega), show a + i - (a + o) = i - o by omega]
    · rw [if_neg (by simpa using hi), if_neg (by omega)]
  · rw [putMasked_look_out _ _ _ _ _ (by omega), if_neg (by omega)]

/-! Bytes by lines -/

/-- Line i of bytes from a place r in their first line: the place of its bytes in the line, and the bytes. -/
def linePlace (r i : Nat) : Nat := r - 128 * i
def lineBytes (r : Nat) (b : List Byte) (i : Nat) : List Byte := (b.drop (128 * i - r)).take (128 - linePlace r i)

theorem linesOf_eq (pa : Nat) (b : List Byte) : linesOf pa b = (List.range (b.length / 128 + 2)).filterMap fun i =>
    if (lineBytes (pa % 128) b i).isEmpty then none
    else some (lineOf pa + 128 * i, placed (linePlace (pa % 128) i) (lineBytes (pa % 128) b i),
      spanMask (linePlace (pa % 128) i) (lineBytes (pa % 128) b i).length) := by
  have hr : pa % 128 < 128 := Nat.mod_lt _ (by omega)
  have hle : pa % 128 ≤ pa := Nat.mod_le _ _
  unfold linesOf
  simp only
  congr 1
  funext i
  have place : pa - (lineOf pa + 128 * i) = linePlace (pa % 128) i := by unfold lineOf linePlace; omega
  have bytes : (if lineOf pa + 128 * i ≤ pa then b.take (128 - linePlace (pa % 128) i)
      else b.drop (lineOf pa + 128 * i - pa)).take (128 - linePlace (pa % 128) i) = lineBytes (pa % 128) b i := by
    unfold lineBytes
    split
    · next h =>
      have hi : i = 0 := by unfold lineOf at h; omega
      subst hi
      simp
    · next h =>
      rw [show lineOf pa + 128 * i - pa = 128 * i - pa % 128 by unfold lineOf; omega]
  have inLine : (decide (lineOf pa + 128 * i ≤ pa) && decide (128 ≤ linePlace (pa % 128) i)) = false := by
    have : ¬128 ≤ linePlace (pa % 128) i := by unfold linePlace; omega
    simp [this]
  rw [place, bytes, inLine, Bool.false_or]

theorem lineBytes_length (r : Nat) (b : List Byte) (i : Nat) :
    (lineBytes r b i).length = min (128 - linePlace r i) (b.length - (128 * i - r)) := by
  simp [lineBytes]

theorem lineBytes_getD (r : Nat) (b : List Byte) (i j : Nat) (h : j < 128 - linePlace r i) :
    (lineBytes r b i).getD j 0 = b.getD (128 * i - r + j) 0 := by
  simp [lineBytes, List.getD_eq_getElem?_getD, h]

/-- The local offset of a line that bytes below the end of the local map touch. -/
theorem paOff_line (pa i : Nat) (b : List Byte) (h : paOff pa + b.length ≤ 2 ^ 40) (hi : lineBytes (pa % 128) b i ≠ []) :
    paOff (lineOf pa + 128 * i) + pa % 128 = paOff pa + 128 * i := by
  have len : 0 < (lineBytes (pa % 128) b i).length := List.length_pos_iff.2 hi
  rw [lineBytes_length] at len
  have hr : pa % 128 < 128 := Nat.mod_lt _ (by omega)
  unfold paOff lineOf at *
  omega

/-- A line store that puts its masked bytes at the line's local offset. -/
def PutsLines (f : State → Nat → List Byte → List Bool → State) : Prop :=
  ∀ s la d m, (f s la d m).mem = putMasked s.mem (paOff la) d m

/-- Whether an address is one of those that line i of n bytes at a local offset takes. -/
def inLine (a r n i x : Nat) : Bool := decide (a ≤ x ∧ x < a + n ∧ a + 128 * i ≤ x + r ∧ x + r < a + 128 * (i + 1))

/-- The lines take every address of the bytes, and no other. -/
theorem exists_inLine (a r n x : Nat) (hr : r < 128) :
    (∃ i ∈ List.range (n / 128 + 2), inLine a r n i x = true) ↔ a ≤ x ∧ x < a + n := by
  simp only [inLine, decide_eq_true_eq, List.mem_range]
  constructor
  · rintro ⟨i, -, h⟩
    exact ⟨h.1, h.2.1⟩
  · intro h
    refine ⟨(x + r - a) / 128, ?_, ?_⟩ <;> omega

/-- Bytes stored by lines read back at their local offset, and every other byte reads as before. -/
theorem State.byLines_look (s : State) (pa : Nat) (b : List Byte) (f : State → Nat → List Byte → List Bool → State)
    (hf : PutsLines f) (h : paOff pa + b.length ≤ 2 ^ 40) (x : Nat) :
    SMap.look (s.byLines pa b f).mem x =
      if paOff pa ≤ x ∧ x < paOff pa + b.length then b.getD (x - paOff pa) 0 else SMap.look s.mem x := by
  have hr : pa % 128 < 128 := Nat.mod_lt _ (by omega)
  unfold State.byLines
  rw [linesOf_eq, List.foldl_filterMap,
    foldl_overwrites (look := fun t x => SMap.look t.mem x) (at_ := fun i x => inLine (paOff pa) (pa % 128) b.length i x = true)
      (v := fun x => b.getD (x - paOff pa) 0) _ ?_ s x]
  · simp only [exists_inLine _ _ _ _ hr]
  · intro t i _ y
    have len := lineBytes_length (pa % 128) b i
    by_cases he : lineBytes (pa % 128) b i = []
    · rw [he, List.length_nil] at len
      have out : inLine (paOff pa) (pa % 128) b.length i y = false := by
        simp only [inLine, decide_eq_false_iff_not]
        unfold linePlace at len
        omega
      simp [he, out]
    · have off := paOff_line pa i b h he
      have fits : linePlace (pa % 128) i + (lineBytes (pa % 128) b i).length ≤ 128 := by unfold linePlace at *; omega
      simp only [List.isEmpty_iff, he, if_false]
      rw [hf, putMasked_placed_look _ _ _ _ fits]
      by_cases hy : inLine (paOff pa) (pa % 128) b.length i y = true
      · rw [if_pos hy]
        simp only [inLine, decide_eq_true_eq] at hy
        unfold linePlace at len fits ⊢
        rw [if_pos (by omega), lineBytes_getD _ _ _ _ (by unfold linePlace; omega)]
        congr 1
        omega
      · rw [if_neg hy, if_neg]
        simp only [inLine, decide_eq_true_eq] at hy
        unfold linePlace at len fits ⊢
        omega

/-! An uncached store performs (R142, R343) -/

/-- A change that leaves memory and banks alone. -/
structure MemBanks (s t : State) : Prop where
  mem : t.mem = s.mem
  banks : t.banks = s.banks

theorem MemBanks.refl (s : State) : MemBanks s s := ⟨rfl, rfl⟩

theorem MemBanks.trans {s t u : State} (h : MemBanks s t) (k : MemBanks t u) : MemBanks s u :=
  ⟨k.mem.trans h.mem, k.banks.trans h.banks⟩

theorem State.sched_memBanks (s : State) (time ph : Nat) (ev : Ev) : MemBanks s (s.sched time ph ev) := ⟨rfl, rfl⟩

theorem State.schedSome_memBanks (s : State) (ph : Nat) (ev : Ev) : MemBanks s (s.schedSome ph ev) := ⟨rfl, rfl⟩

theorem State.pendStore_memBanks (s : State) (core ctx task n : Nat) (wcb : Bool) :
    MemBanks s (s.pendStore core ctx task n wcb).2 := ⟨rfl, rfl⟩

theorem State.strand_memBanks (s : State) (f : Fabric) : MemBanks s (s.strand f) := ⟨rfl, rfl⟩

theorem State.strandStore_memBanks (s : State) (core ctx task part : Nat) (wcb : Bool) :
    MemBanks s (s.strandStore core ctx task part wcb) :=
  (s.pendStore_memBanks core ctx task 1 wcb).trans (State.strand_memBanks _ _)

theorem State.bwsQ_memBanks (s : State) (q : SMap (List Xfer)) : MemBanks s { s with bwsQ := q } := ⟨rfl, rfl⟩

theorem State.hbm_memBanks (s : State) (j cls part owner bytes : Nat) (ev : Option Ev) (who : Nat) :
    MemBanks s (s.hbm j cls part owner bytes ev who) := by
  unfold State.hbm
  simp only
  split
  · exact s.bwsQ_memBanks _
  · exact (s.bwsQ_memBanks _).trans (State.sched_memBanks _ _ _ _)

theorem State.hbmTask_memBanks (s : State) (j task bytes : Nat) (ev : Option Ev) (who : Nat) :
    MemBanks s (s.hbmTask j task bytes ev who) := by
  unfold State.hbmTask
  simp only
  split
  · exact .refl s
  · exact s.hbm_memBanks _ _ _ _ _ _ _

/-- What a store to the stack and to the copy in its LLC changes beyond that copy. -/
theorem State.stackAndCopy_spec (s : State) (part la : Nat) (d : List Byte) (m : List Bool) :
    (s.stackAndCopy part la d m).mem = putMasked s.mem (paOff la) d m ∧ (s.stackAndCopy part la d m).banks = s.banks := by
  unfold State.stackAndCopy
  split
  · exact ⟨rfl, rfl⟩
  · simp only
    split
    · exact ⟨rfl, rfl⟩
    · exact ⟨rfl, rfl⟩

/-- The bytes of an uncached store, on their stack and in the copy of its LLC. -/
def State.uncached (s : State) (part pa : Nat) (b : List Byte) : State :=
  s.byLines pa b fun s la d m => s.stackAndCopy part la d m

theorem State.uncached_banks (s : State) (part pa : Nat) (b : List Byte) : (s.uncached part pa b).banks = s.banks :=
  foldl_keeps (P := fun t => t.banks = s.banks) _ (fun t _ _ h => (t.stackAndCopy_spec _ _ _ _).2.trans h) s rfl

theorem State.uncached_look (s : State) (part pa : Nat) (b : List Byte) (h : paOff pa + b.length ≤ 2 ^ 40) (x : Nat) :
    SMap.look (s.uncached part pa b).mem x =
      if paOff pa ≤ x ∧ x < paOff pa + b.length then b.getD (x - paOff pa) 0 else SMap.look s.mem x :=
  s.byLines_look pa b _ (fun t la d m => (t.stackAndCopy_spec part la d m).1) h x

/-- No write-combining buffer holds the line. -/
theorem State.wcbBefore_eq (s : State) (core part la : Nat) (m : List Bool) (h : ∀ w ∈ (s.core core).wcb, w.2.line ≠ some la) :
    s.wcbBefore core part la m = s := by
  refine foldl_id _ s fun b _ => ?_
  have line := SMap.look_of_forall (P := fun w : Wcb => w.line ≠ some la) (s.core core).wcb b nofun h
  simp only
  rw [if_neg (by simp [line])]

/-- An uncached store that has been taken to its stack: its slots, and the answer of another die. -/
def State.uncachedSent (s : State) (core ctx task pa n : Nat) : State :=
  let s := s.hbmTask (stackOf pa) task n none
  if ownerDie pa = dieOf core then s
  else
    let (id, s) := s.pendStore core ctx task 1
    s.schedSome phMem (.storeAcknowledged id)

theorem State.uncachedSent_memBanks (s : State) (core ctx task pa n : Nat) :
    MemBanks s (s.uncachedSent core ctx task pa n) := by
  have h := s.hbmTask_memBanks (stackOf pa) task n none 0
  unfold State.uncachedSent
  simp only
  split
  · exact h
  · exact (h.trans (State.pendStore_memBanks _ core ctx task 1 false)).trans (State.schedSome_memBanks _ _ _)

section
variable {s : State} {core ctx task pa : Nat} {b : List Byte} (hc : s.capturing task = false) (hd : paD pa = false)
  (hw : ∀ w ∈ (s.core core).wcb, ∀ x ∈ linesOf pa b, w.2.line ≠ some x.1)
include hc hd hw

/-- An uncached store of a task that no measurement captures, where no write-combining buffer holds one of its lines. -/
theorem State.performStore_eq : s.performStore core ctx task pa 1 b false =
    if isHost pa then s.uncached (s.task task).part pa b
    else if !s.joined (dieOf core) (ownerDie pa) then s.strandStore core ctx task (s.task task).part
    else (s.uncached (s.task task).part pa b).uncachedSent core ctx task pa b.length := by
  have captured : s.captureMem task core pa b.length = s := by
    unfold State.captureMem
    rw [hc, if_pos (by simp)]
  have drained : (s.byLines pa b fun t la _ m => t.wcbBefore core (s.task task).part la m) = s :=
    foldl_id _ s fun x hx => s.wcbBefore_eq core _ x.1 x.2.2 fun w hw' => hw w hw' x hx
  unfold State.performStore
  simp only [captured, drained, hd]
  rfl

/-- A store to a die that cannot be reached changes no memory (R213). -/
theorem State.performStore_unreached (hh : isHost pa = false) (hj : s.joined (dieOf core) (ownerDie pa) = false) :
    MemBanks s (s.performStore core ctx task pa 1 b false) := by
  rw [State.performStore_eq hc hd hw, hh, hj]
  exact s.strandStore_memBanks core ctx task _ false

theorem State.performStore_reached (h : isHost pa = true ∨ s.joined (dieOf core) (ownerDie pa) = true) :
    MemBanks (s.uncached (s.task task).part pa b) (s.performStore core ctx task pa 1 b false) := by
  rw [State.performStore_eq hc hd hw]
  split
  · exact .refl _
  · next hh =>
    rw [h.resolve_left hh, if_neg (by decide)]
    exact State.uncachedSent_memBanks _ core ctx task pa b.length

end

/-- A store has joined its context's held stores and left them to perform. -/
def State.storePassed (s : State) (core ctx : Nat) (h : HeldStore) : State :=
  (s.holdStore core ctx h).modBank (ctxOf core ctx) fun k => { k with heldStores := [], fence := 0 }

/-- A plain store that has nothing to wait for performs (R160, R284). -/
theorem State.storeNow_performs (s : State) (core ctx task pa mt : Nat) (b : List Byte) (stream : Bool)
    (held : (s.bank (ctxOf core ctx)).heldStores = []) (fence : (s.bank (ctxOf core ctx)).fence = 0) :
    s.storeNow core ctx task pa mt b stream 0 =
      (s.storePassed core ctx { pa := pa, mt := mt, bytes := b, stream := stream, scope := 0 }).performStore core ctx task pa mt b
        stream := by
  have waiting (h : HeldStore) : ((s.holdStore core ctx h).bank (ctxOf core ctx)).heldStores = [h] := by
    unfold State.holdStore
    rw [State.bank_modBank_same, held]
    rfl
  have free (h : HeldStore) : ((s.holdStore core ctx h).bank (ctxOf core ctx)).fence = 0 := by
    unfold State.holdStore
    rw [State.bank_modBank_same]
    exact fence
  unfold State.storeNow
  simp only [held, List.isEmpty_nil, if_true]
  unfold State.freeStores
  simp only [waiting, free]
  rfl

/-- A store that passes its context's held stores leaves all but its bank alone, and of that the registers. -/
theorem State.storePassed_kept (s : State) (core ctx : Nat) (h : HeldStore) :
    (s.storePassed core ctx h).mem = s.mem ∧ (∀ c, (s.storePassed core ctx h).core c = s.core c) ∧
      (∀ t, (s.storePassed core ctx h).capturing t = s.capturing t) ∧
      (∀ x y, (s.storePassed core ctx h).joined x y = s.joined x y) := ⟨rfl, fun _ => rfl, fun _ => rfl, fun _ _ => rfl⟩

theorem State.storePassed_regs (s : State) (core ctx : Nat) (h : HeldStore) (b : Nat) :
    ((s.storePassed core ctx h).bank b).s = (s.bank b).s ∧ ((s.storePassed core ctx h).bank b).v = (s.bank b).v ∧
      ((s.storePassed core ctx h).bank b).fmt = (s.bank b).fmt := by
  unfold State.storePassed State.holdStore
  rw [State.bank_modBank]
  split
  · next e => rw [State.bank_modBank_same, e]; exact ⟨rfl, rfl, rfl⟩
  · next e => rw [State.bank_modBank, if_neg e]; exact ⟨rfl, rfl, rfl⟩

theorem State.bank_congr {s t : State} (h : t.banks = s.banks) (b : Nat) : t.bank b = s.bank b := by
  unfold State.bank
  rw [h]

theorem State.memBytes_one (s : State) (a : Nat) : s.memBytes a 1 = [SMap.look s.mem a] := rfl

/-- An uncached store of the module: its bytes on their stack or in the host, and nothing else of memory (R142, R343). -/
theorem uncachedStore_frame (s : State) (due ord pa : Nat) (l : List Byte) (hc : s.capturing s.env.task = false)
    (hd : paD pa = false) (hfit : paOff pa + l.length ≤ 2 ^ 40) (held : (s.bank s.b).heldStores = [])
    (fence : (s.bank s.b).fence = 0) (hw : ∀ w ∈ (s.core s.env.core).wcb, ∀ x ∈ linesOf pa l, w.2.line ≠ some x.1) :
    let t := s.landOne ⟨due, ord, .store pa 1 l false 0⟩
    (isHost pa = false → s.joined (dieOf s.env.core) (ownerDie pa) = false → t.mem = s.mem) ∧
    (isHost pa = true ∨ s.joined (dieOf s.env.core) (ownerDie pa) = true →
      ∀ i x, l[i]? = some x → t.memBytes (paOff pa + i) 1 = [x]) ∧
    (∀ i, i < paOff pa ∨ paOff pa + l.length ≤ i → t.memBytes i 1 = s.memBytes i 1) ∧
    ∀ b, (t.bank b).s = (s.bank b).s ∧ (t.bank b).v = (s.bank b).v ∧ (t.bank b).fmt = (s.bank b).fmt := by
  have performs : s.landOne ⟨due, ord, .store pa 1 l false 0⟩ =
      (s.storePassed s.env.core s.env.ctx ⟨pa, 1, l, false, 0, none, none⟩).performStore s.env.core s.env.ctx s.env.task pa 1 l false :=
    s.storeNow_performs s.env.core s.env.ctx s.env.task pa 1 l false held fence
  obtain ⟨mem, core, capturing, joined⟩ := s.storePassed_kept s.env.core s.env.ctx ⟨pa, 1, l, false, 0, none, none⟩
  have regs := s.storePassed_regs s.env.core s.env.ctx ⟨pa, 1, l, false, 0, none, none⟩
  simp only
  rw [performs]
  generalize s.storePassed s.env.core s.env.ctx ⟨pa, 1, l, false, 0, none, none⟩ = u at *
  have hc' : u.capturing s.env.task = false := (capturing _).trans hc
  have hw' : ∀ w ∈ (u.core s.env.core).wcb, ∀ x ∈ linesOf pa l, w.2.line ≠ some x.1 := (core _).symm ▸ hw
  by_cases reached : isHost pa = true ∨ s.joined (dieOf s.env.core) (ownerDie pa) = true
  · have h := State.performStore_reached (ctx := s.env.ctx) hc' hd hw' (reached.imp_right (joined _ _).trans)
    have look (x : Nat) := (congrArg (SMap.look · x) h.mem).trans (u.uncached_look (u.task s.env.task).part pa l hfit x)
    have banks := h.banks.trans (u.uncached_banks _ _ _)
    refine ⟨fun hh hj => by simp [hh, hj] at reached, fun _ i x hi => ?_, fun i hi => ?_, fun b => ?_⟩
    · obtain ⟨hlen, rfl⟩ := List.getElem?_eq_some_iff.1 hi
      rw [State.memBytes_one, look, if_pos (by omega), Nat.add_sub_cancel_left, List.getD_eq_getElem _ _ hlen]
    · rw [State.memBytes_one, State.memBytes_one, look, if_neg (by omega), mem]
    · rw [State.bank_congr banks]
      exact regs b
  · obtain ⟨hh, hj⟩ := not_or.1 reached
    rw [Bool.not_eq_true] at hh hj
    have h := State.performStore_unreached (ctx := s.env.ctx) hc' hd hw' hh ((joined _ _).trans hj)
    have same := h.mem.trans mem
    refine ⟨fun _ _ => same, fun r => absurd r reached, fun i _ => ?_, fun b => ?_⟩
    · rw [State.memBytes_one, State.memBytes_one, same]
    · rw [State.bank_congr h.banks]
      exact regs b

/-- A scratchpad store: the bytes at its offset, and nothing else (R132, R157). -/
theorem spadStore_frame (s : State) (due ord off : Nat) (l : List Byte) (h : s.capturing s.env.task = false) :
    let t := s.landOne ⟨due, ord, .spad off l⟩
    let a := (s.bank s.b).at_ off
    t.spadBytes s.env.core s.env.ctx off l.length = l ∧ t.banks = s.banks ∧ t.mem = s.mem ∧ t.csr = s.csr ∧
      (∀ i, i < a ∨ a + l.length ≤ i → (t.core s.env.core).spad.look i = (s.core s.env.core).spad.look i) ∧
      ∀ c, c ≠ s.env.core → t.core c = s.core c := by
  simp only
  rw [s.landOne_spad due ord off l h]
  obtain ⟨banks, mem, csr⟩ := s.spadStore_kept s.env.core s.env.ctx off l
  refine ⟨s.spadBytes_spadStore _ _ _ _, banks, mem, csr, fun i hi => ?_, s.spadStore_core _ _ _ _⟩
  rw [s.spadStore_spad]
  exact putBytes_look_out _ _ _ _ hi

/-- Settles O55: a landing scratchpad store is a store of its bytes alone, an uncached store overwrites memory line by line, and
the forms of slots 1 to 4 put writes on their way. -/
theorem frames : Obligations.Frames := by
  intro s due ord
  exact ⟨fun off l hc => spadStore_frame s due ord off l hc,
    fun pa l hc hd hfit held fence hw => uncachedStore_frame s due ord pa l hc hd hfit held fence hw,
    fun i slot opc opd hwf he hs hl hqrd hsfeed hnop =>
      slots1To4_onlyIssues i s hwf (inSlots1To4_of he hs) hl hqrd hsfeed hnop,
    fun o hb hp => qclr_onlyIssues s o hb hp⟩

end Sys2Proof.Machine
end

section
/-! PROOFS. What the memory system, the links and a task boundary leave alone of tasks, streams and reported checks (O47, O51). -/
namespace Sys2Proof.Machine

open Sys2Proof.Spec

/-- What of a task the work around it leaves alone: all but its release times and variant (R127), and what the placement, the
record, the endpoint and the walkers note of it. -/
def Task.standing (t : Task) : Task :=
  { t with r := 0, dord := 0, dabort := 0, var := {}, unplaced := false, recNo := 0, chunkNo := 0, chunkRead := false
           chunkLook := false, walkRes := [] }

/-- What of a stream a change of level leaves alone: all but its deferred release and the latest one (R127). -/
def Stream.lasting (st : Stream) : Stream := { st with deferred := none, prevRel := none }

/-- Work beside the tasks: it keeps what stands of each task and lasts of each stream, the reports of machine checks, the links
of the pairs and the time, and takes nothing off the agenda. -/
structure Calm (s t : State) : Prop where
  task : ∀ id, (t.task id).standing = (s.task id).standing
  stream : ∀ d n, (t.stream d n).lasting = (s.stream d n).lasting
  checks : ∀ i, t.csrVal .DST_MC_STAT i = s.csrVal .DST_MC_STAT i
  now : t.now = s.now
  pairUp : t.pairUp = s.pairUp
  agenda : ∀ x ∈ s.agenda, x ∈ t.agenda

theorem Calm.refl (s : State) : Calm s s := ⟨fun _ => rfl, fun _ _ => rfl, fun _ => rfl, rfl, rfl, fun _ h => h⟩

theorem Calm.trans {s t u : State} (h : Calm s t) (k : Calm t u) : Calm s u :=
  ⟨fun id => (k.task id).trans (h.task id), fun d n => (k.stream d n).trans (h.stream d n),
    fun i => (k.checks i).trans (h.checks i), k.now.trans h.now, k.pairUp.trans h.pairUp, fun x hx => k.agenda x (h.agenda x hx)⟩

theorem State.foldl_calm {β : Type} {f : State → β → State} (l : List β) (s : State) (h : ∀ t, ∀ b ∈ l, Calm t (f t b)) :
    Calm s (l.foldl f s) := foldl_rel Calm.refl Calm.trans l s h

theorem Calm.ite {s t u : State} {c : Prop} [Decidable c] (h : Calm s t) (k : Calm s u) : Calm s (if c then t else u) := by
  split
  · exact h
  · exact k

/-- A change of other parts of the state. -/
theorem Calm.of_eq {s t : State} (tasks : t.tasks = s.tasks) (streams : t.streams = s.streams) (csr : t.csr = s.csr)
    (now : t.now = s.now) (pairUp : t.pairUp = s.pairUp) (agenda : t.agenda = s.agenda) : Calm s t := by
  refine ⟨fun id => ?_, fun d n => ?_, fun i => ?_, now, pairUp, fun x hx => agenda ▸ hx⟩
  · rw [State.task, State.task, tasks]
  · rw [State.stream, State.stream, streams]
  · rw [State.csrVal, State.csrVal, csr]

/-! The accessors -/

theorem State.sched_calm (s : State) (time ph : Nat) (ev : Ev) (env : Env) (ops : List SlotOp) :
    Calm s (s.sched time ph ev env ops) :=
  ⟨fun _ => rfl, fun _ _ => rfl, fun _ => rfl, rfl, rfl, fun _ hx => (mem_insertDue _ _ _).2 (.inr hx)⟩

theorem State.freed_calm (s : State) : Calm s s.freed := .of_eq rfl rfl rfl rfl rfl rfl
theorem State.newId_calm (s : State) : Calm s s.newId.2 := .of_eq rfl rfl rfl rfl rfl rfl
theorem State.modDie_calm (s : State) (d : Nat) (f : DieSt → DieSt) : Calm s (s.modDie d f) := .of_eq rfl rfl rfl rfl rfl rfl
theorem State.modCore_calm (s : State) (c : Nat) (f : CoreSt → CoreSt) : Calm s (s.modCore c f) := .of_eq rfl rfl rfl rfl rfl rfl
theorem State.modBank_calm (s : State) (b : Nat) (f : Bank → Bank) : Calm s (s.modBank b f) := .of_eq rfl rfl rfl rfl rfl rfl
theorem State.modCluster_calm (s : State) (c : Nat) (f : ClusterSt → ClusterSt) : Calm s (s.modCluster c f) :=
  .of_eq rfl rfl rfl rfl rfl rfl
theorem State.modGroup_calm (s : State) (g : Nat) (f : Group → Group) : Calm s (s.modGroup g f) := .of_eq rfl rfl rfl rfl rfl rfl
theorem State.modBarrier_calm (s : State) (k : Nat) (f : Barrier → Barrier) : Calm s (s.modBarrier k f) :=
  .of_eq rfl rfl rfl rfl rfl rfl

theorem State.schedWithin_calm (s : State) (bound ph : Nat) (ev : Ev) : Calm s (s.schedWithin bound ph ev) :=
  (s.sched_calm _ _ _ _ _).trans (State.freed_calm _)

theorem State.schedSome_calm (s : State) (ph : Nat) (ev : Ev) : Calm s (s.schedSome ph ev) :=
  (s.sched_calm _ _ _ _ _).trans (State.freed_calm _)

theorem State.schedTick_calm (s : State) (tick ph : Nat) (ev : Ev) : Calm s (s.schedTick tick ph ev) := s.sched_calm _ _ _ _ _

theorem State.csrPut_calm (s : State) (c : Csr) (i : Nat) (v : BitVec 128) (h : c ≠ .DST_MC_STAT) : Calm s (s.csrPut c i v) :=
  ⟨fun _ => rfl, fun _ _ => rfl, fun _ => s.csrVal_csrPut_ne _ _ _ _ _ fun e => h e.1.symm, rfl, rfl, fun _ hx => hx⟩

theorem State.setF_calm (s : State) (f : CsrField) (i v : Nat) (h : f.reg ≠ .DST_MC_STAT) : Calm s (s.setF f i v) :=
  s.csrPut_calm _ _ _ h

theorem State.bump_calm (s : State) (f : CsrField) (i n : Nat) (h : f.reg ≠ .DST_MC_STAT) : Calm s (s.bump f i n) :=
  s.setF_calm f i _ h

/-- A change of a task in what does not stand. -/
theorem State.modTask_calm (s : State) (id : Nat) (f : Task → Task) (h : ∀ t, (f t).standing = t.standing) :
    Calm s (s.modTask id f) := by
  refine ⟨fun n => ?_, fun _ _ => rfl, fun _ => rfl, rfl, rfl, fun _ hx => hx⟩
  rw [State.task_modTask]
  split
  · next e => rw [h, e]
  · rfl

theorem State.out_calm (s : State) (o : List Msg) : Calm s { s with out := o } := .of_eq rfl rfl rfl rfl rfl rfl

theorem State.send_calm (s : State) (m : Msg) : Calm s (s.send m) := s.out_calm _

theorem State.vec_calm (s : State) (p v : Nat) : Calm s (s.vec p v) := by
  obtain ⟨o, h⟩ := s.vec_spec p v
  exact h ▸ s.out_calm o

theorem State.pfVec_calm (s : State) (v : Nat) : Calm s (s.pfVec v) := by
  obtain ⟨o, h⟩ := s.pfVec_spec v
  exact h ▸ s.out_calm o

theorem CountsOnly.calm {s t : State} (h : CountsOnly s t) : Calm s t := by
  obtain ⟨⟨c, e, rfl⟩, csr⟩ := h
  exact ⟨fun _ => rfl, fun _ _ => rfl, fun i => csr _ i (by decide) (by decide), rfl, rfl, fun _ hx => hx⟩

/-! Links and fabric -/

theorem State.bwsQ_calm (s : State) (q : SMap (List Xfer)) : Calm s { s with bwsQ := q } := .of_eq rfl rfl rfl rfl rfl rfl

theorem State.hbm_calm (s : State) (j cls part owner bytes : Nat) (ev : Option Ev) (who : Nat) :
    Calm s (s.hbm j cls part owner bytes ev who) :=
  (s.bwsQ_calm _).trans (.ite (.refl _) (State.sched_calm _ _ _ _ _ _))

theorem State.hbmTask_calm (s : State) (j task bytes : Nat) (ev : Option Ev) (who : Nat) :
    Calm s (s.hbmTask j task bytes ev who) := .ite (.refl s) (s.hbm_calm _ _ _ _ _ _ _)

theorem State.ports_calm (s : State) (q : SMap PortSt) : Calm s { s with ports := q } := .of_eq rfl rfl rfl rfl rfl rfl

theorem State.enqueue_calm (s : State) (p target cls part : Nat) (m : FlitMsg) (control : Bool) (who : Nat) :
    Calm s (s.enqueue p target cls part m control who) :=
  (s.ports_calm _).trans (.ite (.refl _) (State.sched_calm _ _ _ _ _ _))

theorem State.loopBack_calm (s : State) (a : RemoteAccess) : Calm s (s.loopBack a) :=
  (s.sched_calm _ _ _ _ _).trans (State.freed_calm _)

theorem State.fabric_calm (s : State) (q : SMap Fabric) : Calm s { s with fabric := q } := .of_eq rfl rfl rfl rfl rfl rfl

theorem State.sendAccess_calm (s : State) (f : Fabric) (cls pa : Nat) (kind : AccessKind) (b : List Byte) (mask : List Bool)
    (len : Nat) (key : List Nat) : Calm s (s.sendAccess f cls pa kind b mask len key) :=
  ((s.newId_calm.trans (.ite (.refl _) (State.fabric_calm _ _))).trans (State.fabric_calm _ _)).trans
    (.ite (State.loopBack_calm _ _) (.ite (State.sched_calm _ _ _ _ _ _)
      ((State.enqueue_calm _ _ _ _ _ _ _ _).trans (State.sched_calm _ _ _ _ _ _))))

theorem State.sendWrite_calm (s : State) (f : Fabric) (cls pa : Nat) (b : List Byte) : Calm s (s.sendWrite f cls pa b) :=
  State.foldl_calm _ s fun t _ _ => t.sendAccess_calm _ _ _ _ _ _ _ _

theorem State.strand_calm (s : State) (f : Fabric) : Calm s (s.strand f) :=
  (s.newId_calm.trans (State.fabric_calm _ _)).trans (State.sched_calm _ _ _ _ _ _)

theorem State.pendStore_calm (s : State) (core ctx task n : Nat) (wcb : Bool) : Calm s (s.pendStore core ctx task n wcb).2 :=
  .of_eq rfl rfl rfl rfl rfl rfl

theorem State.strandStore_calm (s : State) (core ctx task part : Nat) (wcb : Bool) :
    Calm s (s.strandStore core ctx task part wcb) := (s.pendStore_calm core ctx task 1 wcb).trans (State.strand_calm _ _)

theorem State.sendStore_calm (s : State) (core ctx task part : Nat) (l : List (Nat × List Byte × List Bool)) (wcb : Bool) :
    Calm s (s.sendStore core ctx task part l wcb) :=
  (s.pendStore_calm core ctx task l.length wcb).trans (State.foldl_calm _ _ fun t _ _ => t.sendAccess_calm _ _ _ _ _ _ _ _)

theorem State.sendControl_calm (s : State) (m part : Nat) (f : FlitMsg) : Calm s (s.sendControl m part f) :=
  .ite (.refl s) (s.enqueue_calm _ _ _ _ _ _ _)

/-! Caches and memory -/

theorem State.memStoreMasked_calm (s : State) (off : Nat) (b : List Byte) (m : List Bool) : Calm s (s.memStoreMasked off b m) :=
  .of_eq rfl rfl rfl rfl rfl rfl

theorem State.stackStore_calm (s : State) (la : Nat) (b : List Byte) (m : List Bool) : Calm s (s.stackStore la b m) :=
  s.memStoreMasked_calm _ b m

theorem State.llcEvict_calm (s : State) (l : Line) : Calm s (s.llcEvict l) :=
  .ite ((s.stackStore_calm _ _ _).trans (State.hbmTask_calm _ _ _ _ _ _)) (.refl s)

theorem State.llcPut_calm (s : State) (die part la : Nat) (fill : List Byte) (fillM : List Bool) (data : List Byte)
    (dirt : List Bool) (v : Nat) (touch : Bool) : Calm s (s.llcPut die part la fill fillM data dirt v touch) := by
  unfold State.llcPut
  extract_lets set ways upd
  split
  · exact s.modDie_calm _ _
  · split
    · exact s.stackStore_calm _ _ _
    · exact ((s.modDie_calm _ _).trans (.ite (.refl _) (State.llcEvict_calm _ _))).trans (State.modDie_calm _ _ _)

theorem State.llcStore_calm (s : State) (die part la : Nat) (data : List Byte) (mask : List Bool) (v : Nat) :
    Calm s (s.llcStore die part la data mask v) := s.llcPut_calm _ _ _ _ _ _ _ _ _

theorem State.llcFill_calm (s : State) (die part la rd : Nat) (want : List Bool) (src : List Byte) :
    Calm s (s.llcFill die part la rd want src) := .ite (.refl s) (s.llcPut_calm _ _ _ _ _ _ _ _ _)

theorem State.mergeRemote_calm (s : State) (die part la : Nat) (data : List Byte) (mask : List Bool) :
    Calm s (s.mergeRemote die part la data mask) := by
  unfold State.mergeRemote
  split
  · exact s.modDie_calm _ _
  · exact .refl s

theorem State.fillSlots_calm (s : State) (die part la : Nat) (mask : List Bool) : Calm s (s.fillSlots die part la mask) :=
  s.hbmTask_calm _ _ _ _ _

theorem State.sideStore_calm (s : State) (die part la : Nat) (data : List Byte) (mask : List Bool) (v : Nat) :
    Calm s (s.sideStore die part la data mask v) :=
  .ite (s.memStoreMasked_calm _ _ _)
    (((Calm.ite (s.fillSlots_calm _ _ _ _) (.refl s)).trans (State.llcStore_calm _ _ _ _ _ _ _)).trans
      (.ite (.refl _) (State.mergeRemote_calm _ _ _ _ _ _)))

theorem State.stackAndCopy_calm (s : State) (part la : Nat) (data : List Byte) (mask : List Bool) :
    Calm s (s.stackAndCopy part la data mask) := by
  unfold State.stackAndCopy
  simp only
  split
  · exact s.memStoreMasked_calm _ _ _
  split
  · exact (s.stackStore_calm _ _ _).trans (State.modDie_calm _ _ _)
  · exact s.stackStore_calm _ _ _

theorem State.countLack_calm (s : State) (part la who : Nat) : Calm s (s.countLack part la who) :=
  .ite (.refl s) (s.count_countsOnly _ _ _ _).calm

theorem State.l1WriteBack_calm (s : State) (core : Nat) (l : Line) (sel : List Bool) : Calm s (s.l1WriteBack core l sel) :=
  .ite ((s.countLack_calm _ _ _).trans (State.sideStore_calm _ _ _ _ _ _ _)) (.refl s)

theorem State.l1Sweep_calm (s : State) (cores : List Nat) (clean : Line → List Bool) (f : Line → Line) :
    Calm s (s.l1Sweep cores clean f) :=
  State.foldl_calm _ s fun t _ _ => State.foldl_calm _ t fun u _ _ => (u.l1WriteBack_calm _ _ _).trans (State.modCore_calm _ _ _)

theorem State.l1CleanAll_calm (s : State) (cores : List Nat) : Calm s (s.l1CleanAll cores) :=
  State.foldl_calm _ s fun t _ _ => (State.foldl_calm _ t fun u _ _ => u.l1WriteBack_calm _ _ _).trans (State.modCore_calm _ _ _)

theorem State.wcbFlush_calm (s : State) (core buf part : Nat) : Calm s (s.wcbFlush core buf part) := by
  unfold State.wcbFlush
  extract_lets w t
  have freed : Calm s t := s.modCore_calm _ _
  split
  · exact freed
  · refine freed.trans (.ite ?_ (.ite ?_ (.ite ?_ ?_)))
    · exact (t.mergeRemote_calm _ _ _ _ _).trans (State.sendStore_calm _ _ _ _ _ _ _)
    · exact t.stackAndCopy_calm _ _ _ _
    · exact t.strandStore_calm _ _ _ _ _
    · exact ((t.stackAndCopy_calm _ _ _ _).trans (.ite (.refl _) (State.mergeRemote_calm _ _ _ _ _ _))).trans
        (.ite (.refl _) (State.hbmTask_calm _ _ _ _ _ _))

theorem State.wcbFlushAll_calm (s : State) (core part : Nat) : Calm s (s.wcbFlushAll core part) :=
  State.foldl_calm _ s fun t b _ => t.wcbFlush_calm core b part

theorem State.cleanOwn_calm (s : State) (core ctx : Nat) : Calm s (s.cleanOwn core ctx) := by
  unfold State.cleanOwn
  exact s.l1Sweep_calm _ _ _

/-- The release actions of a context (R158). -/
theorem State.releaseActs_calm (s : State) (core ctx part scope : Nat) : Calm s (s.releaseActs core ctx part scope) :=
  .ite (.refl s) (.ite (.ite (.refl s) (s.cleanOwn_calm core ctx))
    ((s.cleanOwn_calm core ctx).trans (State.wcbFlushAll_calm _ core part)))

theorem State.sideWrite_calm (s : State) (die part task cls pa : Nat) (b : List Byte) (v : Nat) :
    Calm s (s.sideWrite die part task cls pa b v) :=
  .ite (s.sendWrite_calm _ _ _ _) (State.foldl_calm _ s fun t _ _ => t.sideStore_calm _ _ _ _ _ _)

/-- A range that an agent writes. -/
theorem State.vwrite_calm {s u : State} {die part task cls va : Nat} {b : List Byte}
    (h : s.vwrite die part task cls va b = some u) : Calm s u := by
  unfold State.vwrite at h
  split at h
  · exact absurd h nofun
  · obtain rfl := Option.some.inj h
    exact State.foldl_calm _ s fun t _ _ => t.sideWrite_calm _ _ _ _ _ _ _

theorem State.vwrite_getD_calm (s : State) (die part task cls va : Nat) (b : List Byte) :
    Calm s ((s.vwrite die part task cls va b).getD s) := by
  cases h : s.vwrite die part task cls va b with
  | none => exact .refl s
  | some u => exact State.vwrite_calm h

/-! Translations -/

theorem State.modMiss_calm (s : State) (die id : Nat) (f : Miss → Miss) : Calm s (s.modMiss die id f) := s.modDie_calm _ _

theorem State.walkEnds_calm (s : State) (die id : Nat) (r : Nat × Xlate) : Calm s (s.walkEnds die id r) :=
  (s.modMiss_calm _ _ _).trans (State.schedSome_calm _ _ _)

theorem State.walkAsk_calm (s : State) (die : Nat) (m : Miss) : Calm s (s.walkAsk die m) := by
  unfold State.walkAsk
  simp only
  split
  · exact s.walkEnds_calm _ _ _
  split
  · exact s.walkEnds_calm _ _ _
  split
  · exact s.sendAccess_calm _ _ _ _ _ _ _ _
  split
  · exact s.schedSome_calm _ _
  · exact s.hbm_calm _ _ _ _ _ _ _

theorem State.walkBegin_calm (s : State) (die : Nat) (m : Miss) : Calm s (s.walkBegin die m) := by
  unfold State.walkBegin
  simp only
  split
  · exact (s.modMiss_calm _ _ _).trans (State.walkEnds_calm _ _ _ _)
  · exact (s.modMiss_calm _ _ _).trans (State.walkAsk_calm _ _ _)

theorem State.walkStep_calm (s : State) (die n : Nat) : Calm s (s.walkStep die n) := by
  induction n generalizing s with
  | zero => exact .refl s
  | succ n ih =>
    unfold State.walkStep
    simp only
    split
    · split
      · exact (s.modMiss_calm _ _ _).trans (ih _)
      · exact .refl s
    split
    · split
      · exact (s.walkBegin_calm _ _).trans (ih _)
      · exact .refl s
    · exact .refl s

theorem State.askWalk_calm (s : State) (die part dord req : Nat) (who : Asker) : Calm s (s.askWalk die part dord req who) := by
  unfold State.askWalk
  simp only
  split
  · exact s.modMiss_calm _ _ _
  · exact (s.newId_calm.trans (State.modDie_calm _ _ _)).trans (State.walkStep_calm _ _ _)

theorem State.findXlate_calm (s : State) (die part : Nat) (tlb : List Xlate) (dord : Nat) (who : Asker) :
    Calm s (s.findXlate die part tlb dord who).2 := by
  unfold State.findXlate
  split
  · exact .refl s
  · exact .refl s
  · simp only
    split
    · exact s.modDie_calm _ _
    · exact s.askWalk_calm _ _ _ _ _

/-! Barriers -/

theorem State.domCheck_calm (s : State) (bar : Nat) : Calm s (s.domCheck bar) :=
  .ite (.refl s) ((s.modBarrier_calm _ _).trans (.ite
    (.ite (State.schedWithin_calm _ _ _ _) ((State.sched_calm _ _ _ _ _ _).trans (State.freed_calm _)))
    (State.sendControl_calm _ _ _ _)))

theorem State.childArrives_calm (s : State) (bar child task : Nat) : Calm s (s.childArrives bar child task) :=
  (s.modBarrier_calm _ _).trans (State.domCheck_calm _ _)

theorem State.barActs_calm (s : State) (b : Barrier) : Calm s (s.barActs b) :=
  State.foldl_calm _ s fun t _ _ => t.releaseActs_calm _ _ _ _

theorem State.barrierCheck_calm (s : State) (k : Nat) : Calm s (s.barrierCheck k) :=
  (Calm.ite (.refl s) (s.barActs_calm _)).trans (.ite (.refl _) ((State.modBarrier_calm _ _ _).trans
    (.ite (State.childArrives_calm _ _ _ _) (State.schedWithin_calm _ _ _ _))))

end Sys2Proof.Machine
end

section
/-! PROOFS. The work of the scheduler around a task: levels, power, records, and the end of a task (O47, O51). -/
namespace Sys2Proof.Machine

open Sys2Proof.Spec

/-! Snapshots and registers of the dies -/

theorem State.snap_calm (s : State) (x : Snap) : Calm s { s with snap := x } := .of_eq rfl rfl rfl rfl rfl rfl

theorem State.snapTrigger_calm (s : State) (c : Nat) : Calm s (s.snapTrigger c) := by
  unfold State.snapTrigger
  refine .ite (s.bump_calm _ _ _ (by decide)) (.ite (.refl s) ?_)
  split
  · exact .ite (s.snap_calm _) (.refl s)
  · exact (s.snap_calm _).trans (State.sched_calm _ _ _ _ _ _)

theorem State.faultSnap_calm (s : State) (cause : Nat) : Calm s (s.faultSnap cause) := .ite (s.snapTrigger_calm _) (.refl s)

theorem State.setTherm_calm (s : State) (f : CsrField) (die v : Nat) (h : f.reg ≠ .DST_MC_STAT) : Calm s (s.setTherm f die v) :=
  .ite (.refl s) ((s.setF_calm f die v h).trans (State.pfVec_calm _ _))

/-! Levels of sessions (R127, R128) -/

theorem State.sendPair_calm (s : State) (die : Nat) (m : PairMsg) : Calm s (s.sendPair die m) := by
  unfold State.sendPair
  refine .ite (s.schedWithin_calm _ _ _) ?_
  split
  · exact s.schedWithin_calm _ _ _
  · exact .refl s

theorem State.sizeSpad_calm (s : State) (core ctx base held size : Nat) : Calm s (s.sizeSpad core ctx base held size) :=
  (s.modBank_calm _ _).trans (State.modCore_calm _ _ _)

theorem State.fitSpad_calm (s : State) (die n : Nat) : Calm s (s.fitSpad die n) :=
  .ite (.refl s) (State.foldl_calm _ s fun t _ _ => .ite (.refl t) (t.sizeSpad_calm _ _ _ _ _))

theorem State.dirty_calm (s : State) (die session : Nat) : Calm s (s.dirty die session) := .of_eq rfl rfl rfl rfl rfl rfl

/-- A change of a stream in its deferred release and the latest one. -/
theorem State.updStream_calm (s : State) (k : Nat) (f : Stream → Stream) (h : ∀ st, (f st).lasting = st.lasting) :
    Calm s { s with streams := s.streams.upd k f } := by
  refine ⟨fun _ => rfl, fun d n => ?_, fun _ => rfl, rfl, rfl, fun _ hx => hx⟩
  show ((s.streams.upd k f).look (1024 * d + n)).lasting = (s.streams.look (1024 * d + n)).lasting
  rw [SMap.look_upd]
  split
  · next e => rw [h, e]
  · rfl

theorem State.undefer_calm (s : State) (die session : Nat) : Calm s (s.undefer die session) := by
  refine State.foldl_calm _ s fun t e _ => ?_
  split
  · exact .refl t
  · extract_lets d u v
    have late : Calm t u := t.modTask_calm _ _ fun _ => rfl
    have released : Calm u v := u.updStream_calm _ _ fun _ => rfl
    exact (late.trans released).trans ((v.sched_calm _ _ _ _ _).trans (State.sched_calm _ _ _ _ _ _))

theorem State.applyLevel_calm (s : State) (die session level : Nat) : Calm s (s.applyLevel die session level) := by
  unfold State.applyLevel
  extract_lets k t u
  have told : Calm s t := ((s.setF_calm _ _ _ (by decide)).trans (State.setF_calm _ _ _ _ (by decide))).trans
    (State.vec_calm _ _ _)
  have fitted : Calm t u := State.foldl_calm _ _ fun v _ _ => v.fitSpad_calm _ _
  exact .ite (.refl s) ((told.trans fitted).trans (.ite (u.undefer_calm _ _) (.refl u)))

theorem State.changeLevel_calm (s : State) (die session level : Nat) : Calm s (s.changeLevel die session level) :=
  .ite ((s.sched_calm _ _ _ _ _).trans (State.sendPair_calm _ _ _)) (s.applyLevel_calm _ _ _)

theorem State.raiseLevel_calm (s : State) (die session : Nat) : Calm s (s.raiseLevel die session) := s.changeLevel_calm _ _ _

theorem State.lowering_calm (s : State) (l : List Nat) : Calm s { s with lowering := l } := .of_eq rfl rfl rfl rfl rfl rfl

theorem State.periodEnd_calm (s : State) (t : Task) (committed : Bool) : Calm s (s.periodEnd t committed) :=
  .ite (.refl s) (.ite ((s.setF_calm _ _ _ (by decide)).trans (.ite (State.lowering_calm _ _) (.refl _)))
    (s.setF_calm _ _ _ (by decide)))

/-! Power (R24, R25, R29) -/

theorem State.gate_calm (s : State) (cl : Nat) : Calm s (s.gate cl) :=
  ((s.l1CleanAll_calm _).trans (State.foldl_calm _ _ fun t _ _ => t.modCore_calm _ _)).trans (State.modCluster_calm _ _ _)

theorem State.energyLog_calm (s : State) (l : SMap (List (Nat × Nat))) : Calm s { s with energyLog := l } :=
  .of_eq rfl rfl rfl rfl rfl rfl

theorem State.powerUpdate_calm (s : State) (die : Nat) : Calm s (s.powerUpdate die) :=
  ((s.energyLog_calm _).trans (State.modDie_calm _ _ _)).trans (State.setTherm_calm _ _ _ _ (by decide))

theorem State.capStepOnce_calm (s : State) (die : Nat) : Calm s (s.capStepOnce die) := by
  unfold State.capStepOnce
  extract_lets lv k t
  have stepped : Calm s t := s.modDie_calm _ _
  clear_value t
  clear_value k
  rcases k with _ | _ | n
  · exact stepped
  · exact stepped.trans (State.foldl_calm _ _ fun u _ _ => .ite (.refl u) (u.gate_calm _))
  · cases t.capSession die fun x => decide (lv x < 2) with
    | some x => exact stepped.trans (t.changeLevel_calm _ _ _)
    | none =>
      cases t.capSession die fun x => lv x = 2 && t.hasStream die x 0 with
      | some x => exact stepped.trans (t.changeLevel_calm _ _ _)
      | none => exact stepped

theorem State.capApply_calm (s : State) (die : Nat) : Calm s (s.capApply die) :=
  .ite (s.modDie_calm _ _) (.ite (.refl s) (s.capStepOnce_calm die))

/-- A task boundary (R24, R25). -/
theorem State.taskBoundary_calm (s : State) (die : Nat) : Calm s (s.taskBoundary die) :=
  ((s.powerUpdate_calm die).trans (.ite (State.foldl_calm _ _ fun t _ _ => t.dirty_calm _ _) (.refl _))).trans
    (State.capApply_calm _ die)

/-! Measurements (R189) -/

theorem State.rplRestore_calm (s : State) (t : Task) : Calm s (s.rplRestore t) :=
  State.foldl_calm _ s fun u _ _ =>
    .ite (.refl u) ((State.foldl_calm _ u fun v _ _ => v.csrPut_calm _ _ _ (by decide)).trans (State.modCore_calm _ _ _))

theorem State.rplResults_calm (s : State) (cl : Nat) (t : Task) : Calm s (s.rplResults cl t) := by
  have put (u : State) (va : Nat) (b : List Byte) : Calm u (match u.vwrite t.die t.part 0 3 va b with
      | some v => v
      | none => u.setF CCC_RPL_CTL.STATE cl 2) := by
    split
    · next h => exact State.vwrite_calm h
    · exact u.setF_calm _ _ _ (by decide)
  exact (State.foldl_calm _ s fun u _ _ => put u _ _).trans (State.foldl_calm _ _ fun u _ _ => put u _ _)

theorem State.rplFinish_calm (s : State) (cl : Nat) (t : Task) : Calm s (s.rplFinish cl t) :=
  (((s.rplRestore_calm t).trans (State.rplResults_calm _ cl t)).trans
    (.ite (.refl _) (State.setF_calm _ _ _ _ (by decide)))).trans (State.modCluster_calm _ _ _)

theorem State.rplAbort_calm (s : State) (t : Nat) : Calm s (s.rplAbort t) := .ite (s.rplFinish_calm _ _) (.refl s)

/-! The record and the status of a task (R86, R125) -/

theorem State.appendRecord_calm (s : State) (t outcome reason : Nat) : Calm s (s.appendRecord t outcome reason) := by
  unfold State.appendRecord
  extract_lets k i head va u
  have headed : Calm s u := (s.setF_calm _ _ _ (by decide)).trans (State.modTask_calm _ _ _ fun _ => rfl)
  refine .ite (.refl s) (headed.trans ?_)
  split
  · next h => exact State.vwrite_calm h
  · exact u.setF_calm _ _ _ (by decide)

theorem State.statusPair_calm (s : State) (die part task cls done doneVal tag : Nat) (intr : Bool) (outcome reason : Nat) :
    Calm s (s.statusPair die part task cls done doneVal tag intr outcome reason) :=
  ((s.vwrite_getD_calm _ _ _ _ _ _).trans (State.vwrite_getD_calm _ _ _ _ _ _ _)).trans (.ite (State.vec_calm _ _ _) (.refl _))

theorem State.teamRelease_calm (s : State) (t : Task) (scope : Nat) : Calm s (s.teamRelease t scope) :=
  State.foldl_calm _ s fun u _ _ => u.releaseActs_calm _ _ _ _

theorem State.launches_calm (s : State) (l : SMap Launch) : Calm s { s with launches := l } := .of_eq rfl rfl rfl rfl rfl rfl

theorem State.taskStatus_calm (s : State) (id outcome reason : Nat) : Calm s (s.taskStatus id outcome reason) := by
  unfold State.taskStatus
  extract_lets t reset one u
  have released : Calm s u := .ite (s.teamRelease_calm _ _) (.refl s)
  have told (v : State) (o r : Nat) : Calm v (one v o r) := .ite (v.statusPair_calm _ _ _ _ _ _ _ _ _ _) (.refl v)
  refine released.trans ?_
  split
  · exact told u _ _
  · exact (u.launches_calm _).trans (.ite (.refl _) (.ite (State.statusPair_calm _ _ _ _ _ _ _ _ _ _ _) (.refl _)))

/-! What a task held (R123, R124, R174) -/

theorem State.rx_calm (s : State) (l : SMap RxRing) : Calm s { s with rx := l } := .of_eq rfl rfl rfl rfl rfl rfl
theorem State.tx_calm (s : State) (l : SMap TxRing) : Calm s { s with tx := l } := .of_eq rfl rfl rfl rfl rfl rfl

theorem State.freeRx_calm (s : State) (t : Task) : Calm s (s.freeRx t) := by
  unfold State.freeRx
  split
  · exact .refl s
  · exact (s.rx_calm _).trans (State.setF_calm _ _ _ _ (by decide))

theorem State.freeTx_calm (s : State) (t : Task) : Calm s (s.freeTx t) := by
  unfold State.freeTx
  split
  · exact .refl s
  · exact s.tx_calm _

theorem State.leaveGroup_calm (s : State) (t : Nat) : Calm s (s.leaveGroup t) := s.modGroup_calm _ _

theorem State.kick_calm (s : State) (t core ctx : Nat) : Calm s (s.kick t core ctx) :=
  .ite (.refl s) ((s.sched_calm _ _ _ _ _).trans (State.sched_calm _ _ _ _ _ _))

theorem State.kickAll_calm (s : State) (t : Nat) : Calm s (s.kickAll t) := State.foldl_calm _ s fun u _ _ => u.kick_calm _ _ _

theorem State.discardCore_calm (s : State) (t core ctx : Nat) : Calm s (s.discardCore t core ctx) :=
  (s.modCore_calm _ _).trans (State.modBank_calm _ _ _)

theorem State.modCmd_calm (s : State) (c : Nat) (f : Cmd → Cmd) : Calm s (s.modCmd c f) := .of_eq rfl rfl rfl rfl rfl rfl

theorem State.engineNext_calm (s : State) (e : Nat) : Calm s (s.engineNext e) := by
  unfold State.engineNext
  refine .ite (.refl s) ?_
  split
  · exact .refl s
  · exact (s.modCmd_calm _ _).trans (State.sched_calm _ _ _ _ _ _)

theorem State.enginesNext_calm (s : State) (die : Nat) : Calm s (s.enginesNext die) :=
  State.foldl_calm _ s fun t _ _ => t.engineNext_calm _

theorem State.reconsider_calm (s : State) (part : Nat) : Calm s (s.reconsider part) :=
  State.foldl_calm _ s fun t _ _ => t.modTask_calm _ _ fun _ => rfl

/-! The end of a task -/

/-- A change that leaves alone what lasts of the streams and the reports of machine checks. -/
structure Aside (s t : State) : Prop where
  stream : ∀ d n, (t.stream d n).lasting = (s.stream d n).lasting
  checks : ∀ i, t.csrVal .DST_MC_STAT i = s.csrVal .DST_MC_STAT i

theorem Calm.aside {s t : State} (h : Calm s t) : Aside s t := ⟨h.stream, h.checks⟩

theorem Aside.refl (s : State) : Aside s s := (Calm.refl s).aside

theorem Aside.trans {s t u : State} (h : Aside s t) (k : Aside t u) : Aside s u :=
  ⟨fun d n => (k.stream d n).trans (h.stream d n), fun i => (k.checks i).trans (h.checks i)⟩

theorem State.foldl_aside {β : Type} {f : State → β → State} (l : List β) (s : State) (h : ∀ t, ∀ b ∈ l, Aside t (f t b)) :
    Aside s (l.foldl f s) := foldl_rel Aside.refl Aside.trans l s h

theorem Aside.of_eq {s t : State} (streams : t.streams = s.streams) (csr : t.csr = s.csr) : Aside s t := by
  refine ⟨fun d n => ?_, fun i => ?_⟩
  · rw [State.stream, State.stream, streams]
  · rw [State.csrVal, State.csrVal, csr]

theorem State.modTask_aside (s : State) (id : Nat) (f : Task → Task) : Aside s (s.modTask id f) := .of_eq rfl rfl
theorem State.unsched_aside (s : State) (f : Due → Bool) : Aside s (s.unsched f) := .of_eq rfl rfl
theorem State.stopTask_aside (s : State) (t : Nat) : Aside s (s.stopTask t) := s.unsched_aside _

theorem Aside.ite {s t u : State} {c : Prop} [Decidable c] (h : Aside s t) (k : Aside s u) : Aside s (if c then t else u) := by
  split
  · exact h
  · exact k

/-- What is stopped of a task's commands changes neither tasks, streams, dies nor registers. -/
theorem State.stopCmds_kept (s : State) (t : Nat) :
    (s.stopCmds t).streams = s.streams ∧ (s.stopCmds t).csr = s.csr ∧ (s.stopCmds t).dies = s.dies := by
  unfold State.stopCmds
  extract_lets gone loads waits u v
  have granted : v.streams = u.streams ∧ v.csr = u.csr ∧ v.dies = u.dies :=
    iteInduction (motive := fun w : State => w.streams = u.streams ∧ w.csr = u.csr ∧ w.dies = u.dies)
      (fun _ => foldl_keeps (f := fun w j => w.sched w.now phMem (.subscriptionGrant (Fin.ofNat 8 j)))
        (P := fun w : State => w.streams = u.streams ∧ w.csr = u.csr ∧ w.dies = u.dies) (List.range 8)
        (fun _ _ _ h => h) u ⟨rfl, rfl, rfl⟩) (fun _ => ⟨rfl, rfl, rfl⟩)
  clear_value v
  exact granted

theorem State.stopCmds_aside (s : State) (t : Nat) : Aside s (s.stopCmds t) := by
  obtain ⟨streams, csr, -⟩ := s.stopCmds_kept t
  exact .of_eq streams csr

/-- A task that leaves the machine, but for its task boundary and what follows the change of its state. -/
def State.left (s : State) (t : Nat) (st : TState) : State :=
  (((s.freeRx (s.task t)).periodEnd (s.task t) (st = .committed)).leaveGroup t).modTask t fun x => { x with st := st, occ := false }

theorem State.left_retire_calm (s : State) (t : Nat) (st : TState) : Calm (s.left t st) (s.retire t st) :=
  ((State.reconsider_calm _ _).trans (.ite (State.fitSpad_calm _ _ _) (.refl _))).trans (State.taskBoundary_calm _ _)

theorem State.retire_aside (s : State) (t : Nat) (st : TState) : Aside s (s.retire t st) :=
  ((((s.freeRx_calm _).trans (State.periodEnd_calm _ _ _)).trans (State.leaveGroup_calm _ _)).aside.trans
    (State.modTask_aside _ _ _)).trans (s.left_retire_calm t st).aside

/-- What stands of a task is its state, its run and its launch. -/
theorem Calm.st {s t : State} (h : Calm s t) (id : Nat) : (t.task id).st = (s.task id).st := (congrArg Task.st (h.task id) :)
theorem Calm.run {s t : State} (h : Calm s t) (id : Nat) : (t.task id).run = (s.task id).run := (congrArg Task.run (h.task id) :)
theorem Calm.launch {s t : State} (h : Calm s t) (id : Nat) : (t.task id).launch = (s.task id).launch :=
  (congrArg Task.launch (h.task id) :)

theorem State.retire_st (s : State) (t : Nat) (st : TState) : ((s.retire t st).task t).st = st := by
  rw [(s.left_retire_calm t st).st, State.left, State.task_modTask_same]

/-- A task is aborted, but for its last pulses. -/
def State.retiredAborted (s : State) (t reason : Nat) : State :=
  let k := s.task t
  let s := s.stopTask t
  let s := if k.resident then k.idxs.foldl (fun s i => s.discardCore t (k.coreAt i) k.ctx) s else s
  let s := ((s.stopCmds t).enginesNext k.die).freeTx k
  let s := (s.dirty k.die k.session).rplAbort t
  ((s.appendRecord t 2 reason).taskStatus t 2 reason).retire t .aborted

theorem State.abort_eq (s : State) (t reason : Nat) : s.abort t reason =
    if (s.task t).resident then
      ((s.retiredAborted t reason).modTask t fun x => { x with run := .aborting, awaitSvc := false }).kickAll t
    else (s.retiredAborted t reason).modTask t fun x => { x with run := .aborting, awaitSvc := false } := rfl

/-- An abort leaves its task aborted (R123). -/
theorem State.abort_aborted (s : State) (t reason : Nat) : Aborted (s.abort t reason) t := by
  have marked : Aborted ((s.retiredAborted t reason).modTask t fun x => { x with run := .aborting, awaitSvc := false }) t := by
    unfold Aborted
    rw [State.task_modTask_same]
    exact ⟨State.retire_st _ t .aborted, rfl⟩
  have kicked := State.kickAll_calm ((s.retiredAborted t reason).modTask t fun x => { x with run := .aborting, awaitSvc := false }) t
  rw [s.abort_eq]
  split
  · exact ⟨(kicked.st t).trans marked.1, (kicked.run t).trans marked.2⟩
  · exact marked

theorem State.retiredAborted_aside (s : State) (t reason : Nat) : Aside s (s.retiredAborted t reason) := by
  have discarded := (s.stopTask_aside t).trans (.ite (c := (s.task t).resident) (State.foldl_calm (s.task t).idxs _ fun u i _ =>
    u.discardCore_calm t ((s.task t).coreAt i) (s.task t).ctx).aside (.refl _))
  have stopped := ((discarded.trans (State.stopCmds_aside _ t)).trans (State.enginesNext_calm _ (s.task t).die).aside).trans
    (State.freeTx_calm _ (s.task t)).aside
  have ended := (stopped.trans (State.dirty_calm _ (s.task t).die (s.task t).session).aside).trans (State.rplAbort_calm _ t).aside
  exact ((ended.trans (State.appendRecord_calm _ _ _ _).aside).trans (State.taskStatus_calm _ _ _ _).aside).trans
    (State.retire_aside _ _ _)

theorem State.abort_aside (s : State) (t reason : Nat) : Aside s (s.abort t reason) := by
  have marked := (s.retiredAborted_aside t reason).trans
    (State.modTask_aside _ t fun x => { x with run := .aborting, awaitSvc := false })
  rw [s.abort_eq]
  exact .ite (marked.trans (State.kickAll_calm _ _).aside) marked

/-- A refused launch leaves its task refused (R126, R185). -/
theorem State.refuse_st (s : State) (id code : Nat) : ((s.refuse id code).task id).st = .refused := State.retire_st _ _ _

theorem State.refuse_aside (s : State) (id code : Nat) : Aside s (s.refuse id code) :=
  ((((s.stopTask_aside id).trans (State.modTask_aside _ _ _)).trans (State.appendRecord_calm _ _ _ _).aside).trans
    (State.taskStatus_calm _ _ _ _).aside).trans (State.retire_aside _ _ _)

theorem State.refuseLaunch_aside (s : State) (id code : Nat) : Aside s (s.refuseLaunch id code) := by
  unfold State.refuseLaunch
  split
  · exact s.refuse_aside id code
  · refine .ite (.refl s) ((s.launches_calm _).aside.trans (State.foldl_aside _ _ fun t u _ => ?_))
    split
    · exact .refl t
    · exact .refl t
    · exact .refl t
    · exact t.refuse_aside _ _

theorem State.launchBroken_aside (s : State) (id : Nat) : Aside s (s.launchBroken id) := by
  unfold State.launchBroken
  split
  · exact .ite (s.refuseLaunch_aside _ _) (.refl s)
  · exact .refl s

/-- A fault that is raised aborts its task (R197). -/
theorem State.raise_aborted (s : State) (id cause : Nat) : Aborted (s.raise id cause) id := by
  unfold State.raise
  extract_lets t u v
  have h : Aborted v id := u.abort_aborted id cause
  split
  · have k := v.raiseLevel_calm t.die t.session
    exact ⟨(k.st id).trans h.1, (k.run id).trans h.2⟩
  · exact h

/-- A fault of the issue or a landing aborts its task (R195). -/
theorem State.raiseHere_aborted (s : State) (id : Nat) (r : FaultRec) (h : Raisable s id) : Aborted (s.raiseHere id r) id := by
  obtain ⟨probe, resident, run⟩ := h
  unfold State.raiseHere
  extract_lets t u v
  rw [if_neg (by simp [probe]), if_neg (by simp [t, resident, run])]
  split
  · exact State.raise_aborted _ _ _
  · exact State.raise_aborted _ _ _

end Sys2Proof.Machine
end

section
/-! PROOFS. Die pairs, heat and machine checks (O51). -/
namespace Sys2Proof.Machine

open Sys2Proof.Spec

/-! Reports: registers, messages, what is due -/

/-- A change of registers, messages, the agenda and the books of links and snapshots alone. -/
def Told (s t : State) : Prop := ∃ csr out snap agenda seq free path dirty, t = { s with
  csr := csr, out := out, snap := snap, agenda := agenda, seq := seq, free := free, pathFrom := path, dirtyAt := dirty }

theorem Told.refl (s : State) : Told s s := ⟨_, _, _, _, _, _, _, _, rfl⟩

theorem Told.trans {s t u : State} (h : Told s t) (k : Told t u) : Told s u := by
  obtain ⟨csr, out, snap, agenda, seq, free, path, dirty, rfl⟩ := h
  obtain ⟨csr, out, snap, agenda, seq, free, path, dirty, rfl⟩ := k
  exact ⟨_, _, _, _, _, _, _, _, rfl⟩

theorem Told.ite {s t u : State} {c : Prop} [Decidable c] (h : Told s t) (k : Told s u) : Told s (if c then t else u) := by
  split
  · exact h
  · exact k

theorem State.foldl_told {β : Type} {f : State → β → State} (l : List β) (s : State) (h : ∀ t, ∀ b ∈ l, Told t (f t b)) :
    Told s (l.foldl f s) := foldl_rel Told.refl Told.trans l s h

section
variable {s t : State} (h : Told s t)
include h
theorem Told.dies : t.dies = s.dies := by obtain ⟨csr, out, snap, agenda, seq, free, path, dirty, rfl⟩ := h; rfl
theorem Told.die (d : Nat) : t.die d = s.die d := congrArg (·.look d) h.dies
theorem Told.streams : t.streams = s.streams := by obtain ⟨csr, out, snap, agenda, seq, free, path, dirty, rfl⟩ := h; rfl
theorem Told.tasks : t.tasks = s.tasks := by obtain ⟨csr, out, snap, agenda, seq, free, path, dirty, rfl⟩ := h; rfl
theorem Told.mem : t.mem = s.mem := by obtain ⟨csr, out, snap, agenda, seq, free, path, dirty, rfl⟩ := h; rfl
theorem Told.now : t.now = s.now := by obtain ⟨csr, out, snap, agenda, seq, free, path, dirty, rfl⟩ := h; rfl
theorem Told.pairUp : t.pairUp = s.pairUp := by obtain ⟨csr, out, snap, agenda, seq, free, path, dirty, rfl⟩ := h; rfl
theorem Told.crossDown : t.crossDown = s.crossDown := by obtain ⟨csr, out, snap, agenda, seq, free, path, dirty, rfl⟩ := h; rfl
end

theorem State.sched_told (s : State) (time ph : Nat) (ev : Ev) : Told s (s.sched time ph ev) := ⟨_, _, _, _, _, _, _, _, rfl⟩
theorem State.unsched_told (s : State) (f : Due → Bool) : Told s (s.unsched f) := ⟨_, _, _, _, _, _, _, _, rfl⟩
theorem State.schedWithin_told (s : State) (b ph : Nat) (ev : Ev) : Told s (s.schedWithin b ph ev) := ⟨_, _, _, _, _, _, _, _, rfl⟩
theorem State.setF_told (s : State) (f : CsrField) (i v : Nat) : Told s (s.setF f i v) := ⟨_, _, _, _, _, _, _, _, rfl⟩
theorem State.dirty_told (s : State) (die session : Nat) : Told s (s.dirty die session) := ⟨_, _, _, _, _, _, _, _, rfl⟩

theorem State.pfVec_told (s : State) (v : Nat) : Told s (s.pfVec v) := by
  obtain ⟨o, h⟩ := s.pfVec_spec v
  exact h ▸ ⟨_, _, _, _, _, _, _, _, rfl⟩

theorem State.setTherm_told (s : State) (f : CsrField) (d v : Nat) : Told s (s.setTherm f d v) :=
  .ite (.refl s) ((s.setF_told f d v).trans (State.pfVec_told _ _))

theorem State.mcReport_told (s : State) (d c : Nat) : Told s (s.mcReport d c) :=
  ((s.setF_told _ _ _).trans (State.setF_told _ _ _ _)).trans (State.pfVec_told _ _)

theorem State.snapTrigger_told (s : State) (c : Nat) : Told s (s.snapTrigger c) := by
  unfold State.snapTrigger
  refine .ite (s.setF_told _ _ _) (.ite (.refl s) ?_)
  split
  · exact .ite ⟨_, _, _, _, _, _, _, _, rfl⟩ (.refl s)
  · exact ⟨_, _, _, _, _, _, _, _, rfl⟩

theorem State.faultSnap_told (s : State) (c : Nat) : Told s (s.faultSnap c) := .ite (s.snapTrigger_told _) (.refl s)

theorem State.sendPair_told (s : State) (d : Nat) (m : PairMsg) : Told s (s.sendPair d m) := by
  unfold State.sendPair
  refine .ite (s.schedWithin_told _ _ _) ?_
  split
  · exact s.schedWithin_told _ _ _
  · exact .refl s

/-- A change of links: the change itself, and the links' own books. -/
theorem State.linksChange_told (s : State) (f : State → State) : Told (f s) (s.linksChange f) :=
  (State.foldl_told _ (f s) fun _ _ _ => .ite ⟨_, _, _, _, _, _, _, _, rfl⟩ (.refl _)).trans
    (State.foldl_told _ _ fun u _ _ => u.sched_told _ _ _)

/-! What fields read as after reports -/

theorem State.pfVec_csr (s : State) (v : Nat) : (s.pfVec v).csr = s.csr := by
  obtain ⟨o, h⟩ := s.pfVec_spec v
  rw [h]

theorem State.pfVec_getF (s : State) (v : Nat) (f : CsrField) (i : Nat) : (s.pfVec v).getF f i = s.getF f i :=
  State.getF_congr (s.pfVec_csr v) f i

theorem State.getF_of_csrVal {s t : State} {f : CsrField} {i : Nat} (h : t.csrVal f.reg i = s.csrVal f.reg i) :
    t.getF f i = s.getF f i := congrArg (fun x : BitVec 128 => bits x.toNat f.hi f.lo) h

/-- A field of the thermal register that is shown reads as one that is set. -/
theorem State.setTherm_getF (s : State) (f : CsrField) (d v : Nat) (g : CsrField) (i : Nat) (hf : f.reg = .DLS_THERM_STAT) :
    (s.setTherm f d v).getF g i = (s.setF f d v).getF g i := by
  unfold State.setTherm
  simp only
  split
  · next same =>
    by_cases e : g.reg = f.reg ∧ i = d
    · obtain ⟨hg, rfl⟩ := e
      refine (State.getF_of_csrVal ?_).symm
      rw [hg, hf]
      exact same
    · exact (s.getF_setF_ne f g d i v e).symm
  · exact State.pfVec_getF _ _ _ _

/-- A field of the thermal register that is shown. -/
theorem State.setTherm_same (s : State) (f : CsrField) (d v : Nat) (hf : f.reg = .DLS_THERM_STAT) (h : f.hi < 128) :
    (s.setTherm f d v).getF f d = v % 2 ^ (f.hi + 1 - f.lo) :=
  (s.setTherm_getF f d v f d hf).trans (s.getF_setF_same f d v h)

theorem State.setTherm_field (s : State) (f g : CsrField) (d v : Nat) (hf : f.reg = .DLS_THERM_STAT) (h : f.hi < 128)
    (hr : g.reg = f.reg) (hd : g.hi < f.lo ∨ f.hi < g.lo) : (s.setTherm f d v).getF g d = s.getF g d :=
  (s.setTherm_getF f d v g d hf).trans (s.getF_setF_field f g d v h hr hd)

theorem State.setTherm_ne (s : State) (f g : CsrField) (d v i : Nat) (hf : f.reg = .DLS_THERM_STAT)
    (h : ¬(g.reg = f.reg ∧ i = d)) : (s.setTherm f d v).getF g i = s.getF g i :=
  (s.setTherm_getF f d v g i hf).trans (s.getF_setF_ne f g d i v h)

/-- Of a snapshot's trigger only SNP_STAT shows. -/
theorem State.faultSnap_getF (s : State) (c : Nat) (f : CsrField) (i : Nat) (h : f.reg ≠ .SNP_STAT) :
    (s.faultSnap c).getF f i = s.getF f i := by
  have missed : (s.bump SNP_STAT.MISSED 0 1).getF f i = s.getF f i := s.getF_setF_ne _ _ _ _ _ fun e => h e.1
  unfold State.faultSnap State.snapTrigger
  simp only
  split
  · split
    · exact missed
    split
    · rfl
    · split
      · split <;> rfl
      · rfl
  · rfl

theorem State.mcReport_last (s : State) (d c : Nat) : (s.mcReport d c).getF DST_MC_STAT.LAST d = c % 256 := by
  unfold State.mcReport
  rw [State.pfVec_getF]
  exact State.getF_setF_same _ DST_MC_STAT.LAST d c (by decide)

theorem State.mcReport_ne (s : State) (d c i : Nat) (f : CsrField) (h : f.reg ≠ .DST_MC_STAT ∨ i ≠ d) :
    (s.mcReport d c).getF f i = s.getF f i := by
  have other : ¬(f.reg = .DST_MC_STAT ∧ i = d) := fun e => h.elim (fun n => n e.1) (fun n => n e.2)
  unfold State.mcReport State.bump
  rw [State.pfVec_getF, State.getF_setF_ne _ DST_MC_STAT.LAST f _ _ _ other, State.getF_setF_ne _ DST_MC_STAT.UE f _ _ _ other]

/-- A counting field that is raised. -/
theorem State.bump_getF (s : State) (f : CsrField) (i n : Nat) (h : f.hi < 128) :
    (s.bump f i n).getF f i = min (s.getF f i + n) f.top := by
  unfold State.bump
  rw [s.getF_setF_same f i _ h]
  refine Nat.mod_eq_of_lt (Nat.lt_of_le_of_lt (Nat.min_le_right _ _) ?_)
  exact Nat.sub_lt (Nat.two_pow_pos _) Nat.one_pos

theorem State.mcReport_ue (s : State) (d c : Nat) :
    (s.mcReport d c).getF DST_MC_STAT.UE d = min (s.getF DST_MC_STAT.UE d + 1) DST_MC_STAT.UE.top := by
  unfold State.mcReport
  rw [State.pfVec_getF, State.getF_setF_field _ DST_MC_STAT.LAST DST_MC_STAT.UE d c (by decide) rfl (by decide)]
  exact s.bump_getF DST_MC_STAT.UE d 1 (by decide)

/-! Heartbeats (R22, R23, R66, R129) -/

theorem partnerOf_ne (d : Nat) : partnerOf d ≠ d := by
  unfold partnerOf
  split <;> omega

/-- What is due within a bound is pending. -/
theorem State.schedWithin_pending (s : State) (bound ph : Nat) (ev : Ev) (h : 0 < bound) :
    Pending s (s.schedWithin bound ph ev) ev bound := by
  have free : Config.freeNat s.free % bound < bound := Nat.mod_lt _ h
  refine ⟨_, (mem_insertDue _ _ _).2 (.inl rfl), rfl, ?_⟩
  show s.now < s.now + (1 + Config.freeNat s.free % (bound + 1 - 1)) ∧
    s.now + (1 + Config.freeNat s.free % (bound + 1 - 1)) ≤ s.now + bound
  rw [Nat.add_sub_cancel]
  omega

/-- Over a link that is up, a message of a pair arrives within 120 ns. -/
theorem State.sendPair_live (s : State) (d : Nat) (m : PairMsg) (h : s.pairLive (d / 2) = true) :
    s.sendPair d m = s.schedWithin 480 phHost (pairEvent (partnerOf d) m) := by
  unfold State.sendPair
  simp only
  rw [if_pos h]

/-- Freeing a chunk changes the transmit rings and the tasks alone. -/
theorem State.freeChunk_spec (s : State) (id : Nat) : ∃ tx tasks, s.freeChunk id = { s with tx := tx, tasks := tasks } := by
  unfold State.freeChunk State.freeTx
  split
  · exact ⟨_, _, rfl⟩
  · exact ⟨_, _, rfl⟩

theorem State.freeChunk_txSlot (s : State) (id : Nat) : ((s.freeChunk id).task id).txSlot = none := by
  unfold State.freeChunk
  rw [State.task_modTask_same]

theorem State.freeChunk_streams (s : State) (id : Nat) : (s.freeChunk id).streams = s.streams := by
  obtain ⟨tx, tasks, h⟩ := s.freeChunk_spec id
  rw [h]

/-- A die has kept a heartbeat. -/
def State.heard (s : State) (d : Nat) (h : Heartbeat) : State :=
  s.modDie d fun k => { k with hbs := if k.hbs.contains h then k.hbs else k.hbs ++ [h] }

/-- A heartbeat frees the chunk of a copy that has committed. -/
def State.chunkFreed (s : State) (d : Nat) (h : Heartbeat) : State :=
  match s.copyOf d h.stream h.period with
  | some id => if (s.task id).st = TState.committed then s.freeChunk id else s
  | none => s

theorem exec_commitHeartbeat (s : State) (d : Die) (h : Heartbeat) : exec (.commitHeartbeat d h) s =
    if (s.die d.val).stopped then .next s
    else .next (((s.heard d.val h).chunkFreed d.val h).sendPair d.val (.ack h.stream h.period)) := rfl

theorem State.heard_mem (s : State) (d : Nat) (h : Heartbeat) : h ∈ ((s.heard d h).die d).hbs := by
  unfold State.heard
  rw [State.die_modDie_same]
  simp only
  split
  · next e => exact List.contains_iff_mem.1 e
  · exact List.mem_append_right _ (List.mem_singleton.2 rfl)

theorem State.chunkFreed_kept (s : State) (d : Nat) (h : Heartbeat) : (s.chunkFreed d h).dies = s.dies ∧
    (s.chunkFreed d h).mem = s.mem ∧ (s.chunkFreed d h).now = s.now ∧ (s.chunkFreed d h).pairUp = s.pairUp := by
  unfold State.chunkFreed
  split
  · next id _ =>
    obtain ⟨tx, tasks, freed⟩ := s.freeChunk_spec id
    split
    · rw [freed]; exact ⟨rfl, rfl, rfl, rfl⟩
    · exact ⟨rfl, rfl, rfl, rfl⟩
  · exact ⟨rfl, rfl, rfl, rfl⟩

theorem State.pairLive_congr {s t : State} (h : t.pairUp = s.pairUp) (pr : Nat) : t.pairLive pr = s.pairLive pr := by
  unfold State.pairLive
  rw [h]

theorem commitHeartbeat_does (s : State) (d : Die) (h : Heartbeat) (on : (s.die d.val).stopped = false) :
    Does (.commitHeartbeat d h) s fun t => h ∈ (t.die d.val).hbs ∧ t.mem = s.mem ∧
      (s.pairLive (d.val / 2) = true → Pending s t (pairEvent (partnerOf d.val) (.ack h.stream h.period)) 480) := by
  obtain ⟨dies, mem, now, pairUp⟩ := (s.heard d.val h).chunkFreed_kept d.val h
  have told := ((s.heard d.val h).chunkFreed d.val h).sendPair_told d.val (.ack h.stream h.period)
  refine ⟨_, (exec_commitHeartbeat s d h).trans (if_neg (by simp [on])), ?_, told.mem.trans mem, fun live => ?_⟩
  · rw [told.die, State.die, dies]
    exact s.heard_mem d.val h
  · have pending := State.schedWithin_pending ((s.heard d.val h).chunkFreed d.val h) 480 phHost
      (pairEvent (partnerOf d.val) (.ack h.stream h.period)) (by decide)
    unfold Pending at pending ⊢
    rw [now] at pending
    rw [State.sendPair_live _ _ _ ((State.pairLive_congr pairUp _).trans live)]
    exact pending

theorem heartbeatAck_does (s : State) (d : Die) (st p : Nat) : Does (.heartbeatAck d st p) s fun t =>
    (∀ h ∈ (t.die d.val).unacked, ¬(h.stream = st ∧ h.period = p)) ∧
      ∀ h ∈ (s.die d.val).unacked, ¬(h.stream = st ∧ h.period = p) → h ∈ (t.die d.val).unacked := by
  refine ⟨_, rfl, ?_, ?_⟩ <;> rw [State.die_modDie_same]
  · intro h hh
    simpa [imp_iff_not_or] using (List.mem_filter.1 hh).2
  · intro h hh hn
    exact List.mem_filter.2 ⟨hh, by simpa [imp_iff_not_or] using hn⟩

theorem exec_heartbeatRelay (s : State) (via dst : Die) (m : PairMsg) : exec (.heartbeatRelay via dst m) s =
    if (s.die via.val).stopped || s.crossDown.look (linkKey via.val dst.val) then .next s
    else .next (s.schedWithin 960 phHost (pairEvent dst.val m)) := rfl

theorem heartbeatRelay_does (s : State) (via dst : Die) (m : PairMsg) (on : (s.die via.val).stopped = false)
    (up : s.crossDown.look (linkKey via.val dst.val) = false) :
    Does (.heartbeatRelay via dst m) s fun t => Pending s t (pairEvent dst.val m) 960 := by
  refine ⟨s.schedWithin 960 phHost (pairEvent dst.val m), ?_, s.schedWithin_pending 960 phHost _ (by decide)⟩
  rw [exec_heartbeatRelay, on, up, if_neg (by decide)]

/-! Levels (R128) -/

/-- What a change of level leaves alone: the dies, and every register but DLS_SES. -/
structure Levelled (s t : State) : Prop where
  dies : t.dies = s.dies
  regs : ∀ c i, c ≠ .DLS_SES → t.csrVal c i = s.csrVal c i

theorem Levelled.refl (s : State) : Levelled s s := ⟨rfl, fun _ _ _ => rfl⟩

theorem Levelled.trans {s t u : State} (h : Levelled s t) (k : Levelled t u) : Levelled s u :=
  ⟨k.dies.trans h.dies, fun c i n => (k.regs c i n).trans (h.regs c i n)⟩

theorem Levelled.ite {s t u : State} {c : Prop} [Decidable c] (h : Levelled s t) (k : Levelled s u) :
    Levelled s (if c then t else u) := by
  split
  · exact h
  · exact k

theorem State.foldl_levelled {β : Type} {f : State → β → State} (l : List β) (s : State)
    (h : ∀ t, ∀ b ∈ l, Levelled t (f t b)) : Levelled s (l.foldl f s) := foldl_rel Levelled.refl Levelled.trans l s h

theorem Levelled.of_eq {s t : State} (dies : t.dies = s.dies) (csr : t.csr = s.csr) : Levelled s t :=
  ⟨dies, fun c i _ => by rw [State.csrVal, State.csrVal, csr]⟩

theorem State.setSes_levelled (s : State) (f : CsrField) (i v : Nat) (h : f.reg = .DLS_SES) : Levelled s (s.setF f i v) :=
  ⟨rfl, fun _ _ n => s.csrVal_csrPut_ne _ _ _ _ _ fun e => n (e.1.trans h)⟩

/-- The scratchpads of a stream change neither dies nor registers. -/
theorem State.fitSpad_kept (s : State) (die n : Nat) : (s.fitSpad die n).dies = s.dies ∧ (s.fitSpad die n).csr = s.csr := by
  refine iteInduction (motive := fun u : State => u.dies = s.dies ∧ u.csr = s.csr) (fun _ => ⟨rfl, rfl⟩) fun _ => ?_
  refine foldl_keeps (P := fun u : State => u.dies = s.dies ∧ u.csr = s.csr) _ (fun t i _ h => ?_) s ⟨rfl, rfl⟩
  exact iteInduction (motive := fun u : State => u.dies = s.dies ∧ u.csr = s.csr) (fun _ => h) fun _ => h

/-- A deferred release changes neither dies nor registers. -/
theorem State.undefer_kept (s : State) (die session : Nat) :
    (s.undefer die session).dies = s.dies ∧ (s.undefer die session).csr = s.csr := by
  refine foldl_keeps (P := fun u : State => u.dies = s.dies ∧ u.csr = s.csr) _ (fun t e _ h => ?_) s ⟨rfl, rfl⟩
  simp only
  split
  · exact h
  · exact h

/-- What follows the change of DLS_SES at a change of level. -/
def State.levelShown (s : State) (die session level : Nat) : State :=
  let t := s.vec (s.getF DLS_SES.PRT (256 * die + session)) 4
  let u := (t.streams.filter fun e => e.1 / 1024 = die && e.2.session = session).foldl (fun s e => s.fitSpad die (e.1 % 1024)) t
  if level ≤ 1 then u.undefer die session else u

theorem State.levelShown_kept (s : State) (die session level : Nat) :
    (s.levelShown die session level).dies = s.dies ∧ (s.levelShown die session level).csr = s.csr := by
  unfold State.levelShown
  extract_lets t u
  have told : t.dies = s.dies ∧ t.csr = s.csr := by
    obtain ⟨o, h⟩ := s.vec_spec (s.getF DLS_SES.PRT (256 * die + session)) 4
    show (s.vec _ 4).dies = _ ∧ (s.vec _ 4).csr = _
    rw [h]
    exact ⟨rfl, rfl⟩
  have fitted : u.dies = s.dies ∧ u.csr = s.csr :=
    foldl_keeps (P := fun u : State => u.dies = s.dies ∧ u.csr = s.csr) _ (fun v e _ h =>
      ⟨(v.fitSpad_kept _ _).1.trans h.1, (v.fitSpad_kept _ _).2.trans h.2⟩) t told
  split
  · exact ⟨(u.undefer_kept _ _).1.trans fitted.1, (u.undefer_kept _ _).2.trans fitted.2⟩
  · exact fitted

theorem State.applyLevel_eq (s : State) (die session level : Nat) : s.applyLevel die session level =
    if s.getF DLS_SES.VALID (256 * die + session) = 0 || s.getF DLS_SES.LEVEL (256 * die + session) = level then s
    else ((s.setF DLS_SES.LEVEL (256 * die + session) level).setF DLS_SES.CLEAN (256 * die + session) 0).levelShown
      die session level := by
  have prt : ((s.setF DLS_SES.LEVEL (256 * die + session) level).setF DLS_SES.CLEAN (256 * die + session) 0).getF
      DLS_SES.PRT (256 * die + session) = s.getF DLS_SES.PRT (256 * die + session) :=
    (State.getF_setF_field _ DLS_SES.CLEAN DLS_SES.PRT _ 0 (by decide) rfl (by decide)).trans
      (s.getF_setF_field DLS_SES.LEVEL DLS_SES.PRT _ level (by decide) rfl (by decide))
  unfold State.applyLevel State.levelShown
  rw [prt]

theorem State.applyLevel_levelled (s : State) (die session level : Nat) : Levelled s (s.applyLevel die session level) := by
  rw [s.applyLevel_eq]
  obtain ⟨dies, csr⟩ := State.levelShown_kept
    ((s.setF DLS_SES.LEVEL (256 * die + session) level).setF DLS_SES.CLEAN (256 * die + session) 0) die session level
  exact .ite (.refl s) (((s.setSes_levelled _ _ _ rfl).trans (State.setSes_levelled _ _ _ _ rfl)).trans (.of_eq dies csr))

/-- A session that is valid takes the level (R128). -/
theorem State.applyLevel_level (s : State) (die session level : Nat) (hl : level < 4)
    (hv : s.getF DLS_SES.VALID (256 * die + session) = 1) :
    (s.applyLevel die session level).getF DLS_SES.LEVEL (256 * die + session) = level := by
  rw [s.applyLevel_eq, hv]
  split
  · next h => simpa using h
  · rw [State.getF_congr (State.levelShown_kept _ _ _ _).2,
      State.getF_setF_field _ DLS_SES.CLEAN DLS_SES.LEVEL _ 0 (by decide) rfl (by decide),
      s.getF_setF_same DLS_SES.LEVEL _ level (by decide)]
    exact Nat.mod_eq_of_lt hl

theorem State.sched_levelled (s : State) (time ph : Nat) (ev : Ev) : Levelled s (s.sched time ph ev) := .of_eq rfl rfl

theorem State.sendPair_levelled (s : State) (d : Nat) (m : PairMsg) : Levelled s (s.sendPair d m) := by
  unfold State.sendPair
  refine .ite (.of_eq rfl rfl) ?_
  split
  · exact .of_eq rfl rfl
  · exact .refl s

theorem State.changeLevel_levelled (s : State) (die session level : Nat) : Levelled s (s.changeLevel die session level) :=
  .ite ((s.sched_levelled _ _ _).trans (State.sendPair_levelled _ _ _)) (s.applyLevel_levelled _ _ _)

theorem exec_levelChangeMessage (s : State) (d : Die) (se : Fin 256) (lv : Fin 4) (tk : Nat) :
    exec (.levelChangeMessage d se lv tk) s =
      if s.tick < tk + 8000 then .next (s.schedTick (tk + 8000) phHost (.levelChangeMessage d se lv tk))
      else .next (s.applyLevel d.val se.val lv.val) := rfl

end Sys2Proof.Machine
end

section
/-! PROOFS. Check ticks and the take-over (R23, R129, R130), for O51. -/
namespace Sys2Proof.Machine

open Sys2Proof.Spec

/-! The take-over of a stream -/

theorem State.markRecord_calm (s : State) (id : Nat) : Calm s (s.markRecord id) := .ite (.refl s) (s.vwrite_getD_calm _ _ _ _ _ _)

theorem State.tookSes_calm (s : State) (m : SMap Bool) : Calm s { s with tookSes := m } := .of_eq rfl rfl rfl rfl rfl rfl

theorem Calm.copy {s t : State} (h : Calm s t) (d n : Nat) : (t.stream d n).copy = (s.stream d n).copy :=
  (congrArg Stream.copy (h.stream d n) :)

theorem Aside.copy {s t : State} (h : Aside s t) (d n : Nat) : (t.stream d n).copy = (s.stream d n).copy :=
  (congrArg Stream.copy (h.stream d n) :)

theorem Calm.tookOver {s t : State} (h : Calm s t) (id : Nat) : (t.task id).tookOver = (s.task id).tookOver :=
  (congrArg Task.tookOver (h.task id) :)

theorem State.stream_modStream_same (s : State) (d n : Nat) (f : Stream → Stream) :
    (s.modStream d n f).stream d n = f (s.stream d n) := SMap.look_upd_same _ _ _

theorem State.stream_modStream_ne (s : State) (d e n m : Nat) (f : Stream → Stream) (h : 1024 * e + m ≠ 1024 * d + n) :
    (s.modStream d n f).stream e m = s.stream e m := (SMap.look_upd _ _ _ _).trans (if_neg h)

/-- The partner is home of the stream (R130): the copies have changed places, and the task that stands for it notes it. -/
structure TakenOver (t : State) (die n id : Nat) : Prop where
  home : (t.stream die n).copy = false
  away : (t.stream (partnerOf die) n).copy = true
  task : (t.task id).tookOver = true

theorem TakenOver.calm {t u : State} {die n id : Nat} (h : TakenOver t die n id) (k : Calm t u) : TakenOver u die n id :=
  ⟨(k.copy _ _).trans h.home, (k.copy _ _).trans h.away, (k.tookOver _).trans h.task⟩

theorem State.takeOver_takenOver (s : State) (die n id : Nat) : TakenOver (s.takeOver die n (some id)) die n id := by
  unfold State.takeOver
  extract_lets old st t1 t2 t3 t4 t5 k
  have home : (t1.stream die n).copy = false := by
    have away : 1024 * die + n ≠ 1024 * partnerOf die + n := by have := partnerOf_ne die; omega
    rw [State.stream_modStream_ne _ _ _ _ _ _ away, State.stream_modStream_same]
  have away : (t1.stream (partnerOf die) n).copy = true := by rw [State.stream_modStream_same]
  have homes : Calm t1 t2 := (t1.setF_calm _ _ _ (by decide)).trans (State.setF_calm _ _ _ _ (by decide))
  have aborted : Aside t1 t3 := homes.aside.trans (.ite (.refl _) (State.foldl_aside _ _ fun u e _ => u.abort_aside _ _))
  have noted : TakenOver (t3.modTask id fun x => { x with tookOver := true }) die n id :=
    ⟨(aborted.copy die n).trans home, (aborted.copy (partnerOf die) n).trans away, by rw [State.task_modTask_same]⟩
  have told : Calm t4 t5 := (t4.vec_calm _ _).trans (State.send_calm _ _)
  have done : TakenOver t5 die n id := (noted.calm (State.markRecord_calm _ _)).calm told
  split
  · exact done.calm ((t5.applyLevel_calm _ _ _).trans (State.tookSes_calm _ _))
  · exact done

/-! The chunk of a committed task -/

theorem State.epFind_calm {s : State} {die part va kind dord : Nat} {ev : Ev} {r : Found × State}
    (h : s.epFind die part va kind dord ev = r) : Calm s r.2 := h ▸ s.findXlate_calm _ _ _ _ _

/-- A task's chunk waits for its translation, or no longer. -/
def State.setLook (s : State) (id : Nat) (look : Bool) : State := s.modTask id fun t => { t with chunkLook := look }

theorem State.setLook_calm (s : State) (id : Nat) (look : Bool) : Calm s (s.setLook id look) := s.modTask_calm _ _ fun _ => rfl

theorem State.chunkSlots_calm (s : State) (id : Nat) : Calm s (s.chunkSlots id) := by
  unfold State.chunkSlots
  simp only
  split
  · exact .refl s
  · split
    · next u h => exact (State.epFind_calm h).trans (u.setLook_calm id true)
    · next u h => exact (State.epFind_calm h).trans ((u.setLook_calm id false).trans (State.sched_calm _ _ _ _ _ _))
    · next x u h =>
      have found := (State.epFind_calm h).trans (u.setLook_calm id false)
      refine .ite (found.trans (State.schedWithin_calm _ _ _ _)) (found.trans (State.hbm_calm _ _ _ _ _ _ _ _))

theorem State.nextId_calm (s : State) (n : Nat) : Calm s { s with nextId := n } := .of_eq rfl rfl rfl rfl rfl rfl

/-- A chunk has its place among those handed to the endpoint. -/
def State.chunkNumbered (s : State) (id : Nat) : State := s.modTask id fun t => { t with chunkNo := s.nextId, chunkRead := false }

theorem State.handChunk_calm (s : State) (id : Nat) : Calm s (s.handChunk id) := by
  have numbered : Calm s (s.chunkNumbered id) := s.modTask_calm _ _ fun _ => rfl
  have next : Calm (s.chunkNumbered id) { s.chunkNumbered id with nextId := s.nextId + 1 } := State.nextId_calm _ _
  unfold State.handChunk
  split
  · exact .refl s
  · exact (numbered.trans next).trans (State.chunkSlots_calm _ id)

/-! The check tick -/

/-- The heartbeat of a period has been looked for, and is kept no longer. -/
def State.looked (s : State) (die st p : Nat) : State :=
  s.modDie die fun k => { k with hbs := k.hbs.filter fun h => !(h.stream = st && h.period = p) }

theorem exec_checkTick_idle (s : State) (d : Die) (st : Fin 1024) (p : Nat)
    (h : s.copyOf d.val st.val p = none ∨ (s.die d.val).stopped = true) : exec (.checkTick d st p) s = .next s := by
  show execCheckTick d st p s = _
  unfold execCheckTick
  simp only
  split
  · rfl
  · next id hc => rw [if_pos (h.resolve_left (by simp [hc]))]

/-- Over a pair's own link nothing is relayed. -/
theorem State.relay_of_live (s : State) (pr : Nat) (h : s.pairLive pr = true) : s.relay pr = none := by
  simp [State.relay, h]

section
variable {s : State} {d : Die} {st : Fin 1024} {p id : Nat} (hc : s.copyOf d.val st.val p = some id)
  (on : (s.die d.val).stopped = false) (live : s.pairLive (d.val / 2) = true)
include hc on live

/-- With the heartbeat of the committed period, the chunk's slot is free. -/
theorem exec_checkTick_heard {h : Heartbeat}
    (hh : (s.die d.val).hbs.find? (fun h => h.stream = st.val && h.period = p) = some h)
    (done : (s.task id).st = .committed) (crc : (s.task id).chunkCrc = some h.crc) :
    exec (.checkTick d st p) s = .next ((s.looked d.val st.val p).freeChunk id) := by
  show execCheckTick d st p s = _
  unfold execCheckTick
  simp only
  rw [hc]
  simp only
  rw [if_neg (by simp [on]), if_neg (by simp [s.relay_of_live _ live]), hh]
  simp only
  rw [if_neg (by simp [crc]), if_pos done]
  rfl

/-- Without it, the partner takes over, or drops its chunk where no path has held (R23). -/
theorem exec_checkTick_unheard (hn : (s.die d.val).hbs.find? (fun h => h.stream = st.val && h.period = p) = none) :
    exec (.checkTick d st p) s =
      if s.pathHeld (d.val / 2) then
        .next (if (s.task id).st = .committed then ((s.looked d.val st.val p).takeOver d.val st.val (some id)).handChunk id
          else (s.looked d.val st.val p).takeOver d.val st.val (some id))
      else .next ((s.looked d.val st.val p).freeChunk id) := by
  have held : (s.looked d.val st.val p).pathHeld (d.val / 2) = s.pathHeld (d.val / 2) := by
    have up : (s.looked d.val st.val p).pairLive (d.val / 2) = true := live
    unfold State.pathHeld State.hasPath
    rw [live, up]
    rfl
  show execCheckTick d st p s = _
  unfold execCheckTick
  simp only
  rw [hc]
  simp only
  rw [if_neg (by simp [on]), if_neg (by simp [s.relay_of_live _ live]), hn]
  show (if !(s.looked d.val st.val p).pathHeld (d.val / 2) then _ else _) = _
  rw [held]
  cases s.pathHeld (d.val / 2)
  · rfl
  · simp only [Bool.not_true, Bool.false_eq_true, if_false, if_true]
    rfl

omit hc on live in
theorem State.looked_freed : (((s.looked d.val st.val p).freeChunk id).task id).txSlot = none ∧
    ((s.looked d.val st.val p).freeChunk id).streams = s.streams :=
  ⟨State.freeChunk_txSlot _ _, State.freeChunk_streams _ _⟩

theorem checkTick_unheard_does (hn : (s.die d.val).hbs.find? (fun h => h.stream = st.val && h.period = p) = none) :
    (s.pathHeld (d.val / 2) = false → Does (.checkTick d st p) s fun t => (t.task id).txSlot = none ∧ t.streams = s.streams) ∧
    (s.pathHeld (d.val / 2) = true → Does (.checkTick d st p) s fun t => (t.stream d.val st.val).copy = false ∧
      (t.stream (partnerOf d.val) st.val).copy = true ∧ (t.task id).tookOver = true) := by
  have run := exec_checkTick_unheard hc on live hn
  refine ⟨fun held => ⟨_, run.trans (if_neg (by simp [held])), State.looked_freed⟩,
    fun held => ⟨_, run.trans (if_pos held), ?_⟩⟩
  have taken := (s.looked d.val st.val p).takeOver_takenOver d.val st.val id
  split
  · obtain ⟨home, away, task⟩ := taken.calm (State.handChunk_calm _ id)
    exact ⟨home, away, task⟩
  · obtain ⟨home, away, task⟩ := taken
    exact ⟨home, away, task⟩

end

/-! Lanes and links (R23, R212) -/

theorem State.rxLook_csr (s : State) : s.rxLook.csr = s.csr := by
  refine foldl_keeps (P := fun u : State => u.csr = s.csr) _ ?_ s rfl
  exact fun _ _ _ h => h

theorem State.linksChange_csr (s : State) (f : State → State) : (s.linksChange f).csr = (f s).csr := by
  refine (State.rxLook_csr _).trans (foldl_keeps (P := fun u : State => u.csr = (f s).csr) _ ?_ _ rfl)
  exact fun _ _ _ h => iteInduction (motive := fun v : State => v.csr = (f s).csr) (fun _ => h) fun _ => h

end Sys2Proof.Machine
end

section
/-! PROOFS. Links lost and returned, heat, stops and machine checks, for O51. -/
namespace Sys2Proof.Machine

open Sys2Proof.Spec

/-! Lane groups and links (R23) -/

theorem getLsbD_clear (x : BitVec 4) (k i : Nat) (h : k < 4) :
    (x &&& ~~~(1#4 <<< k)).getLsbD i = (x.getLsbD i && !decide (i = k)) := by
  rw [BitVec.getLsbD_and, BitVec.getLsbD_not, BitVec.getLsbD_shiftLeft, BitVec.getLsbD_one]
  by_cases hi : i < 4
  · by_cases e : i = k
    · simp [e, h]
    · by_cases lt : i < k
      · simp [hi, e, lt]
      · have : i - k ≠ 0 := by omega
        simp [hi, e, lt, this]
  · simp [BitVec.getLsbD_of_ge x i (by omega)]

theorem getLsbD_set (x : BitVec 4) (k i : Nat) (h : k < 4) :
    (x ||| (1#4 <<< k)).getLsbD i = (x.getLsbD i || decide (i = k)) := by
  rw [BitVec.getLsbD_or, BitVec.getLsbD_shiftLeft, BitVec.getLsbD_one]
  by_cases hi : i < 4
  · by_cases e : i = k
    · simp [e, h]
    · by_cases lt : i < k
      · simp [e, lt]
      · have : i - k ≠ 0 := by omega
        simp [e, lt, this]
  · have : i ≠ k := by omega
    simp [BitVec.getLsbD_of_ge x i (by omega), hi, this]

/-- A lane group is down. -/
def State.groupDown (s : State) (k : Nat) : State := { s with pairUp := s.pairUp &&& ~~~(1#4 <<< k) }

theorem State.groupDown_pairUp (s : State) (k i : Nat) (h : k < 4) :
    (s.groupDown k).pairUp.getLsbD i = (s.pairUp.getLsbD i && !decide (i = k)) := getLsbD_clear _ _ _ h

/-- PLDEG on both dies of a pair. -/
def State.degraded (s : State) (pr : Nat) : State :=
  (s.setTherm DLS_THERM_STAT.PLDEG (2 * pr) 1).setTherm DLS_THERM_STAT.PLDEG (2 * pr + 1) 1

theorem exec_laneGroupLoss (s : State) (pr g : Fin 2) : exec (.laneGroupLoss pr g) s =
    .next (State.degraded (if s.pairLive pr.val && !(s.linksChange (·.groupDown (2 * pr.val + g.val))).pairLive pr.val then
        (s.linksChange (·.groupDown (2 * pr.val + g.val))).schedWithin 4000 phHost (.pairLinkLoss pr)
      else s.linksChange (·.groupDown (2 * pr.val + g.val))) pr.val) := rfl

theorem State.degraded_pldeg (s : State) (pr : Nat) : (s.degraded pr).getF DLS_THERM_STAT.PLDEG (2 * pr) = 1 ∧
    (s.degraded pr).getF DLS_THERM_STAT.PLDEG (2 * pr + 1) = 1 := by
  refine ⟨?_, State.setTherm_same _ DLS_THERM_STAT.PLDEG _ 1 rfl (by decide)⟩
  exact (State.setTherm_ne _ DLS_THERM_STAT.PLDEG _ _ _ _ rfl (by omega)).trans
    (s.setTherm_same DLS_THERM_STAT.PLDEG _ 1 rfl (by decide))

theorem laneGroupLoss_does (s : State) (pr g : Fin 2) : Does (.laneGroupLoss pr g) s fun t =>
    t.pairUp.getLsbD (2 * pr.val + g.val) = false ∧
      (∀ i, i ≠ 2 * pr.val + g.val → t.pairUp.getLsbD i = s.pairUp.getLsbD i) ∧
      t.getF DLS_THERM_STAT.PLDEG (2 * pr.val) = 1 ∧ t.getF DLS_THERM_STAT.PLDEG (2 * pr.val + 1) = 1 := by
  have small : 2 * pr.val + g.val < 4 := by omega
  have down : Told (s.groupDown (2 * pr.val + g.val)) (s.linksChange (·.groupDown (2 * pr.val + g.val))) := s.linksChange_told _
  have up (i : Nat) := s.groupDown_pairUp (2 * pr.val + g.val) i small
  obtain ⟨t, ht, told⟩ : ∃ t, exec (.laneGroupLoss pr g) s = .next (t.degraded pr.val) ∧
      Told (s.groupDown (2 * pr.val + g.val)) t :=
    ⟨_, exec_laneGroupLoss s pr g, down.trans (.ite (State.schedWithin_told _ _ _ _) (.refl _))⟩
  have shown : (t.degraded pr.val).pairUp = (s.groupDown (2 * pr.val + g.val)).pairUp :=
    (told.trans ((t.setTherm_told _ _ _).trans (State.setTherm_told _ _ _ _))).pairUp
  refine ⟨_, ht, ?_, fun i hi => ?_, t.degraded_pldeg pr.val⟩
  · rw [shown, up]; simp
  · rw [shown, up]; simp [hi]

/-! The loss of a pair's link (R23, R212) -/

/-- Both lane groups of a pair are down. -/
def State.pairDown (s : State) (pr : Nat) : State :=
  { s with pairUp := s.pairUp &&& ~~~(3#4 <<< (2 * pr)), pairLost := s.pairLost.put pr true }

/-- A die that has not stopped reports the loss of its pair's link. -/
def State.lossReport (s : State) (d : Nat) : State :=
  if (s.die d).stopped then s else (s.setTherm DLS_THERM_STAT.PLLOSS d 1).mcReport d 0x36

/-- The streams of a pair lose their shadows. -/
def State.shadowsDropped (s : State) (pr : Nat) : State :=
  (s.streams.filter fun e => e.1 / 2048 = pr && e.2.valid && e.2.shadow).foldl
    (fun s e => s.unshadow (e.1 / 1024) (e.1 % 1024)) s

/-- The heartbeats of a pair without an answer are sent again. -/
def State.heartbeatsResent (s : State) (pr : Nat) : State :=
  [2 * pr, 2 * pr + 1].foldl (fun s d => (s.die d).unacked.foldl (fun s h => s.sendPair d (.heartbeat h)) s) s

theorem exec_pairLinkLoss (s : State) (pr : Fin 2) : exec (.pairLinkLoss pr) s =
    .next ((((((s.unsched fun e => decide (e.ev = Ev.pairLinkLoss pr)).linksChange (·.pairDown pr.val)).lossReport
      (2 * pr.val)).lossReport (2 * pr.val + 1)).faultSnap 0x36).shadowsDropped pr.val |>.heartbeatsResent pr.val) := rfl

theorem State.endShadow_levelled (s : State) (die session : Nat) : Levelled s (s.endShadow die session) :=
  (s.setSes_levelled _ _ _ rfl).trans (State.setSes_levelled _ _ _ _ rfl)

/-- What ends a shadow changes DLS_SES alone. -/
theorem State.endShadow_kept (s : State) (die session : Nat) :
    (s.endShadow die session).streams = s.streams ∧ (s.endShadow die session).pairUp = s.pairUp := ⟨rfl, rfl⟩

theorem State.unshadow_levelled (s : State) (die n : Nat) : Levelled s (s.unshadow die n) := by
  unfold State.unshadow
  extract_lets x f
  have streams : Levelled s ((s.modStream die n f).modStream (partnerOf die) n f) := .of_eq rfl rfl
  exact (streams.trans (State.endShadow_levelled _ _ _)).trans (State.endShadow_levelled _ _ _)

theorem State.unshadow_pairUp (s : State) (die n : Nat) : (s.unshadow die n).pairUp = s.pairUp := by
  unfold State.unshadow
  rw [(State.endShadow_kept _ _ _).2, (State.endShadow_kept _ _ _).2]
  rfl

/-- The stream of a number shows no shadow. -/
def State.unshadowed (s : State) (k : Nat) : Prop := (s.streams.look k).shadow = false

theorem State.unshadow_unshadowed (s : State) (die n k : Nat) (h : s.unshadowed k ∨ k = 1024 * die + n) :
    (s.unshadow die n).unshadowed k := by
  have off (m : SMap Stream) (j : Nat) (h : (m.look k).shadow = false ∨ k = j) :
      ((m.upd j fun st => { st with shadow := false }).look k).shadow = false := by
    rw [SMap.look_upd]
    split
    · rfl
    · next e => exact h.resolve_right e
  unfold State.unshadowed State.unshadow
  rw [(State.endShadow_kept _ _ _).1, (State.endShadow_kept _ _ _).1]
  exact off _ _ (.inl (off s.streams _ h))

theorem State.shadowsDropped_kept (s : State) (pr : Nat) :
    (s.shadowsDropped pr).pairUp = s.pairUp ∧ Levelled s (s.shadowsDropped pr) := by
  refine foldl_keeps (P := fun u : State => u.pairUp = s.pairUp ∧ Levelled s u) _ ?_ s ⟨rfl, .refl s⟩
  rintro u e - ⟨up, regs⟩
  exact ⟨(u.unshadow_pairUp _ _).trans up, regs.trans (u.unshadow_levelled _ _)⟩

/-- What is read from a map and differs from the default stands in the map. -/
theorem SMap.mem_of_look {α : Type} [Inhabited α] (m : SMap α) (k : Nat) : (k, m.look k) ∈ m ∨ m.look k = default := by
  induction m with
  | nil => exact .inr rfl
  | cons e m ih =>
    obtain ⟨j, v⟩ := e
    unfold SMap.look
    split
    · next h => exact .inl (h ▸ List.mem_cons_self)
    · exact ih.imp_left (List.mem_cons_of_mem _)

theorem State.shadowsDropped_unshadowed (s : State) (d n : Nat) (hn : n < 1024) (hv : (s.stream d n).valid = true) :
    (s.shadowsDropped (d / 2)).unshadowed (1024 * d + n) := by
  by_cases shown : s.unshadowed (1024 * d + n)
  · exact foldl_keeps (P := fun u : State => u.unshadowed (1024 * d + n)) _ (fun u e _ h => u.unshadow_unshadowed _ _ _ (.inl h)) s
      shown
  · have mem : (1024 * d + n, s.stream d n) ∈ s.streams := by
      refine (SMap.mem_of_look s.streams (1024 * d + n)).resolve_right fun e => ?_
      rw [State.stream, e] at hv
      exact absurd hv (by decide)
    have shadow : (s.stream d n).shadow = true := (Bool.not_eq_false _).mp shown
    refine foldl_establishes (I := fun _ => True) (P := fun (u : State) (e : Nat × Stream) => u.unshadowed e.1) _
      (fun _ _ _ _ => trivial) (fun u e _ _ => u.unshadow_unshadowed _ _ _ (.inr (by omega)))
      (fun u e _ c _ h => u.unshadow_unshadowed _ _ _ (.inl h)) s trivial (1024 * d + n, s.stream d n) ?_
    refine List.mem_filter.2 ⟨mem, ?_⟩
    simp [hv, shadow]
    omega

theorem State.sendPair_csr (s : State) (d : Nat) (m : PairMsg) : (s.sendPair d m).csr = s.csr := by
  unfold State.sendPair
  refine iteInduction (motive := fun y : State => y.csr = s.csr) (fun _ => rfl) fun _ => ?_
  split <;> rfl

theorem State.heartbeatsResent_kept (s : State) (pr : Nat) :
    Told s (s.heartbeatsResent pr) ∧ (s.heartbeatsResent pr).csr = s.csr := by
  have one (u : State) (d : Nat) : Told u ((u.die d).unacked.foldl (fun s h => s.sendPair d (.heartbeat h)) u) ∧
      ((u.die d).unacked.foldl (fun s h => s.sendPair d (.heartbeat h)) u).csr = u.csr :=
    ⟨State.foldl_told _ u fun v h _ => v.sendPair_told _ _,
      foldl_keeps (P := fun v : State => v.csr = u.csr) _ (fun v h _ hv => (v.sendPair_csr _ _).trans hv) u rfl⟩
  exact ⟨(one s _).1.trans (one _ _).1, ((one _ _).2).trans (one s _).2⟩

theorem State.lossReport_told (s : State) (d : Nat) : Told s (s.lossReport d) :=
  .ite (.refl s) ((s.setTherm_told _ _ _).trans (State.mcReport_told _ _ _))

theorem State.lossReport_same (s : State) (d : Nat) (on : (s.die d).stopped = false) :
    (s.lossReport d).getF DLS_THERM_STAT.PLLOSS d = 1 ∧ (s.lossReport d).getF DST_MC_STAT.LAST d = 0x36 := by
  unfold State.lossReport
  rw [if_neg (by simp [on])]
  refine ⟨?_, State.mcReport_last _ _ _⟩
  exact (State.mcReport_ne _ _ _ _ _ (.inl (by decide))).trans (s.setTherm_same DLS_THERM_STAT.PLLOSS d 1 rfl (by decide))

theorem State.lossReport_ne (s : State) (d i : Nat) (f : CsrField) (h : i ≠ d) : (s.lossReport d).getF f i = s.getF f i := by
  unfold State.lossReport
  split
  · rfl
  · rw [State.mcReport_ne _ _ _ _ _ (.inr h), State.setTherm_ne _ DLS_THERM_STAT.PLLOSS _ _ _ _ rfl fun e => h e.2]

theorem pairDown_getLsbD : ∀ (x : BitVec 4) (pr : Fin 2),
    ((x &&& ~~~(3#4 <<< (2 * pr.val))).getLsbD (2 * pr.val) || (x &&& ~~~(3#4 <<< (2 * pr.val))).getLsbD (2 * pr.val + 1)) =
      false := by decide

theorem pairLinkLoss_does (s : State) (pr : Fin 2) : Does (.pairLinkLoss pr) s fun t => t.pairLive pr.val = false ∧
    (∀ d, d = 2 * pr.val ∨ d = 2 * pr.val + 1 → (s.die d).stopped = false →
      t.getF DLS_THERM_STAT.PLLOSS d = 1 ∧ t.getF DST_MC_STAT.LAST d = 0x36) ∧
    ∀ d n, d / 2 = pr.val → n < 1024 → (s.stream d n).valid = true → (t.stream d n).shadow = false := by
  refine ⟨_, exec_pairLinkLoss s pr, ?_⟩
  have down : Told (s.pairDown pr.val) ((s.unsched fun e => decide (e.ev = Ev.pairLinkLoss pr)).linksChange (·.pairDown pr.val)) :=
    Told.trans ⟨_, _, _, _, _, _, _, _, rfl⟩ (State.linksChange_told _ _)
  generalize (s.unsched fun e => decide (e.ev = Ev.pairLinkLoss pr)).linksChange (·.pairDown pr.val) = t1 at *
  have reported := (t1.lossReport_told (2 * pr.val)).trans (State.lossReport_told _ (2 * pr.val + 1))
  have read (f : CsrField) (i : Nat) (h : f.reg ≠ .SNP_STAT) :=
    ((t1.lossReport (2 * pr.val)).lossReport (2 * pr.val + 1)).faultSnap_getF 0x36 f i h
  have snapped := reported.trans (State.faultSnap_told _ 0x36)
  have loss : ∀ d, d = 2 * pr.val ∨ d = 2 * pr.val + 1 → (s.die d).stopped = false →
      ((t1.lossReport (2 * pr.val)).lossReport (2 * pr.val + 1)).getF DLS_THERM_STAT.PLLOSS d = 1 ∧
        ((t1.lossReport (2 * pr.val)).lossReport (2 * pr.val + 1)).getF DST_MC_STAT.LAST d = 0x36 := by
    intro d hd on
    have on1 : (t1.die d).stopped = false := (congrArg DieSt.stopped (down.die d)).trans on
    rcases hd with rfl | rfl
    · have other (f : CsrField) := (t1.lossReport (2 * pr.val)).lossReport_ne (2 * pr.val + 1) (2 * pr.val) f (by omega)
      rw [other, other]
      exact t1.lossReport_same _ on1
    · exact State.lossReport_same _ _ ((congrArg DieSt.stopped ((t1.lossReport_told _).die _)).trans on1)
  generalize ((t1.lossReport (2 * pr.val)).lossReport (2 * pr.val + 1)).faultSnap 0x36 = t2 at *
  obtain ⟨up, regs⟩ := t2.shadowsDropped_kept pr.val
  obtain ⟨told, csr⟩ := (t2.shadowsDropped pr.val).heartbeatsResent_kept pr.val
  have shown (f : CsrField) (i : Nat) (h : f.reg ≠ .DLS_SES) :
      ((t2.shadowsDropped pr.val).heartbeatsResent pr.val).getF f i = t2.getF f i :=
    (State.getF_congr csr f i).trans (State.getF_of_csrVal (regs.regs _ _ h))
  refine ⟨?_, fun d hd on => ?_, fun d n hd hn hv => ?_⟩
  · rw [State.pairLive_congr (told.pairUp.trans (up.trans (snapped.pairUp.trans down.pairUp)))]
    exact pairDown_getLsbD s.pairUp pr
  · obtain ⟨plloss, last⟩ := loss d hd on
    exact ⟨(shown _ _ (by decide)).trans ((read _ _ (by decide)).trans plloss),
      (shown _ _ (by decide)).trans ((read _ _ (by decide)).trans last)⟩
  · have streams : t2.streams = s.streams := snapped.streams.trans down.streams
    have dropped := t2.shadowsDropped_unshadowed d n hn (by rw [State.stream, streams]; exact hv)
    rw [State.stream, told.streams, ← hd]
    exact dropped

end Sys2Proof.Machine
end

section
/-! PROOFS. Links that return, heat, stops and machine checks; the die events (O51). -/
namespace Sys2Proof.Machine

open Sys2Proof.Spec

/-! Links that return or cross (R23, R212) -/

/-- Lane groups of a pair are up again. -/
def State.groupsUp (s : State) (pr : Nat) (m : BitVec 4) : State := { s with pairUp := s.pairUp ||| m, pairLost := s.pairLost.put pr false }

/-- The lane groups that a return names. -/
def returned (pr : Nat) (g : Option (Fin 2)) : BitVec 4 :=
  match g with
  | some g => 1#4 <<< (2 * pr + g.val)
  | none => 3#4 <<< (2 * pr)

theorem pairLinkReturn_pairUp (s : State) (pr : Fin 2) (g : Option (Fin 2)) :
    ∃ t, exec (.pairLinkReturn pr g) s = .next t ∧ t.pairUp = s.pairUp ||| returned pr.val g := by
  have up := ((s.unsched fun e => decide (e.ev = Ev.pairLinkLoss pr)).linksChange_told (·.groupsUp pr.val (returned pr.val g))).pairUp
  refine ⟨_, rfl, ?_⟩
  exact (State.foldl_calm _ _ fun u e _ => u.barrierCheck_calm e.1).pairUp.trans up

theorem returned_both : ∀ (x : BitVec 4) (pr : Fin 2), (x ||| returned pr.val none).getLsbD (2 * pr.val) = true ∧
    (x ||| returned pr.val none).getLsbD (2 * pr.val + 1) = true := by decide

theorem pairLinkReturn_one (s : State) (pr g : Fin 2) : Does (.pairLinkReturn pr (some g)) s fun t =>
    t.pairUp.getLsbD (2 * pr.val + g.val) = true ∧
      ∀ i, i ≠ 2 * pr.val + g.val → t.pairUp.getLsbD i = s.pairUp.getLsbD i := by
  obtain ⟨t, ht, up⟩ := pairLinkReturn_pairUp s pr (some g)
  have bit (i : Nat) : t.pairUp.getLsbD i = (s.pairUp.getLsbD i || decide (i = 2 * pr.val + g.val)) := by
    rw [up]
    exact getLsbD_set s.pairUp (2 * pr.val + g.val) i (by omega)
  refine ⟨t, ht, ?_, fun i hi => ?_⟩
  · simp [bit]
  · simp [bit, hi]

theorem pairLinkReturn_both (s : State) (pr : Fin 2) : Does (.pairLinkReturn pr none) s fun t =>
    t.pairUp.getLsbD (2 * pr.val) = true ∧ t.pairUp.getLsbD (2 * pr.val + 1) = true := by
  obtain ⟨t, ht, up⟩ := pairLinkReturn_pairUp s pr none
  refine ⟨t, ht, ?_⟩
  have bits := returned_both s.pairUp pr
  rwa [← up] at bits

/-- A cross link is down. -/
def State.crossLost (s : State) (a b : Nat) : State := { s with crossDown := s.crossDown.put (linkKey a b) true }

theorem exec_crossLinkLoss (s : State) (a b : Die) : exec (.crossLinkLoss a b) s =
    if a.val / 2 = b.val / 2 then .next s
    else .next ((((s.linksChange (·.crossLost a.val b.val)).mcReport a.val 0x39).mcReport b.val 0x39).faultSnap 0x39) := rfl

theorem crossLinkLoss_does (s : State) (a b : Die) (h : a.val / 2 ≠ b.val / 2) : Does (.crossLinkLoss a b) s fun t =>
    t.crossDown.look (linkKey a.val b.val) = true ∧ t.getF DST_MC_STAT.LAST a.val = 0x39 ∧
      t.getF DST_MC_STAT.LAST b.val = 0x39 := by
  have down : Told (s.crossLost a.val b.val) (s.linksChange (·.crossLost a.val b.val)) := s.linksChange_told _
  refine ⟨_, (exec_crossLinkLoss s a b).trans (if_neg h), ?_⟩
  generalize s.linksChange (·.crossLost a.val b.val) = t at *
  have told := (down.trans ((t.mcReport_told a.val 0x39).trans ((t.mcReport a.val 0x39).mcReport_told b.val 0x39))).trans
    (((t.mcReport a.val 0x39).mcReport b.val 0x39).faultSnap_told 0x39)
  refine ⟨?_, ?_, ?_⟩
  · rw [told.crossDown]
    exact s.crossDown.look_put_same (linkKey a.val b.val) true
  · rw [State.faultSnap_getF _ _ _ _ (by decide), State.mcReport_ne _ _ _ _ _ (.inr fun e => h (by rw [e]))]
    exact t.mcReport_last a.val 0x39
  · rw [State.faultSnap_getF _ _ _ _ (by decide)]
    exact State.mcReport_last _ b.val 0x39

/-! A die stops (R28, R213) -/

theorem State.loseTask_kept (s : State) (t : Nat) : (s.loseTask t).dies = s.dies ∧ (s.loseTask t).csr = s.csr := by
  obtain ⟨-, csr, dies⟩ := s.stopCmds_kept t
  exact ⟨dies, csr⟩

/-- The tasks of a die that stops are lost. -/
def State.tasksLost (s : State) (d : Nat) : State :=
  (s.tasks.filter fun e => e.2.die = d && (match e.2.st with
    | .committed | .aborted | .refused => false
    | _ => true)).foldl (fun s e => s.loseTask e.1) s

theorem State.tasksLost_kept (s : State) (d : Nat) : (s.tasksLost d).dies = s.dies ∧ (s.tasksLost d).csr = s.csr := by
  refine foldl_keeps (P := fun u : State => u.dies = s.dies ∧ u.csr = s.csr) _ ?_ s ⟨rfl, rfl⟩
  rintro u e - ⟨dies, csr⟩
  exact ⟨(u.loseTask_kept _).1.trans dies, (u.loseTask_kept _).2.trans csr⟩

/-- A die is marked as stopped. -/
def State.dieDown (s : State) (d cause : Nat) : State := s.modDie d fun k => { k with stopped := true, stopCause := cause, frozen := none }

theorem State.dieStop_eq (s : State) (d cause : Nat) : s.dieStop d cause =
    if (s.die d).stopped then s
    else (((s.linksChange (·.dieDown d cause)).tasksLost d).unsched fun e => e.ev.ofDie d).schedWithin 4000 phHost
      (.dieStopDetect (Fin.ofNat 4 d)) := rfl

theorem State.dieStop_stopped (s : State) (d cause : Nat) : ((s.dieStop d cause).die d).stopped = true := by
  rw [s.dieStop_eq]
  split
  · next h => exact h
  · have dies := (State.tasksLost_kept (s.linksChange (·.dieDown d cause)) d).1.trans (s.linksChange_told (·.dieDown d cause)).dies
    rw [(State.schedWithin_told _ _ _ _).die, State.unsched_die_view, State.die, dies]
    exact congrArg DieSt.stopped (s.die_modDie_same d _)

theorem State.schedWithin_csr (s : State) (n ph : Nat) (ev : Ev) : (s.schedWithin n ph ev).csr = s.csr := rfl

theorem State.dieStop_csr (s : State) (d cause : Nat) : (s.dieStop d cause).csr = s.csr := by
  rw [s.dieStop_eq]
  split
  · rfl
  · rw [State.schedWithin_csr, State.unsched_csr, (State.tasksLost_kept _ _).2]
    exact s.linksChange_csr _

/-- A trip shows state 3 and stops the die (R26, R28). -/
theorem State.trip_shown (s : State) (d : Nat) :
    (s.trip d).getF DLS_THERM_STAT.STATE d = 3 ∧ ((s.trip d).die d).stopped = true :=
  ⟨(State.getF_congr (State.dieStop_csr _ _ _) _ _).trans (s.setTherm_same DLS_THERM_STAT.STATE d 3 rfl (by decide)),
    State.dieStop_stopped _ _ _⟩

/-! Heat (R26, R27) -/

/-- What a temperature does once it is shown. -/
def State.heated (s : State) (d temp : Nat) : State :=
  if s.getF DLS_THERM_STAT.STATE d = 3 || (s.die d).stopped then s
  else if 115 ≤ temp then s.trip d
  else if s.getF DLS_THERM_STAT.STATE d = 2 then (if temp < 100 then s.thaw d (if temp < 90 then 0 else 1) else s)
  else if 105 ≤ temp then s.freeze d
  else if 95 ≤ temp then s.setTherm DLS_THERM_STAT.STATE d 1
  else if s.getF DLS_THERM_STAT.STATE d = 1 && temp < 90 then s.setTherm DLS_THERM_STAT.STATE d 0
  else s

/-- A temperature is shown. -/
def State.sampled (s : State) (d temp : Nat) : State := s.setTherm DLS_THERM_STAT.TEMP d (min 255 temp)

theorem exec_thermalSample (s : State) (d : Die) (c : Nat) :
    exec (.thermalSample d c) s = .next ((s.sampled d.val c).heated d.val c) := rfl

theorem State.sampled_told (s : State) (d temp : Nat) : Told s (s.sampled d temp) := s.setTherm_told _ _ _

theorem State.sampled_state (s : State) (d temp : Nat) :
    (s.sampled d temp).getF DLS_THERM_STAT.STATE d = s.getF DLS_THERM_STAT.STATE d :=
  s.setTherm_field DLS_THERM_STAT.TEMP DLS_THERM_STAT.STATE d _ rfl (by decide) rfl (by decide)

theorem State.sampled_temp (s : State) (d temp : Nat) (h : temp < 115) :
    (s.sampled d temp).getF DLS_THERM_STAT.TEMP d = temp := by
  refine (s.setTherm_same DLS_THERM_STAT.TEMP d _ rfl (by decide)).trans ?_
  show min 255 temp % 256 = temp
  omega

/-- A thermal state that is shown beside a temperature. -/
theorem State.showState (s : State) (d v : Nat) : (s.setTherm DLS_THERM_STAT.STATE d v).getF DLS_THERM_STAT.STATE d = v % 4 ∧
    (s.setTherm DLS_THERM_STAT.STATE d v).getF DLS_THERM_STAT.TEMP d = s.getF DLS_THERM_STAT.TEMP d ∧
    (s.setTherm DLS_THERM_STAT.STATE d v).dies = s.dies :=
  ⟨s.setTherm_same DLS_THERM_STAT.STATE d v rfl (by decide),
    s.setTherm_field DLS_THERM_STAT.STATE DLS_THERM_STAT.TEMP d v rfl (by decide) rfl (by decide), (s.setTherm_told _ _ _).dies⟩

/-- A freeze but for its registers. -/
def State.frozen (s : State) (d : Nat) : State :=
  let t := s.modDie d fun k => { k with frozen := some s.now, frozenSessions := s.sessionsOn d }
  (t.sessionsOf d).foldl (fun s x => s.dirty d x) t

/-- A freeze is counted. -/
def State.freezeCounted (s : State) (d : Nat) : State :=
  s.setTherm DLS_THERM_STAT.FREEZECNT d (min (s.getF DLS_THERM_STAT.FREEZECNT d + 1) DLS_THERM_STAT.FREEZECNT.top)

theorem State.freeze_eq (s : State) (d : Nat) : s.freeze d =
    (((s.frozen d).freezeCounted d).setTherm DLS_THERM_STAT.STATE d 2).sched (((s.frozen d).freezeCounted d).now + 1600000) phHost
      (.freezeTimeout (Fin.ofNat 4 d)) := rfl

theorem State.frozen_told (s : State) (d : Nat) :
    Told (s.modDie d fun k => { k with frozen := some s.now, frozenSessions := s.sessionsOn d }) (s.frozen d) :=
  State.foldl_told _ _ fun u _ _ => u.dirty_told _ _

theorem State.frozen_csr (s : State) (d : Nat) : (s.frozen d).csr = s.csr := by
  refine foldl_keeps (P := fun u : State => u.csr = s.csr) _ ?_ _ rfl
  exact fun _ _ _ h => h

theorem State.freezeCounted_told (s : State) (d : Nat) : Told s (s.freezeCounted d) := s.setTherm_told _ _ _

/-- A freeze (R26, R27). -/
theorem State.freeze_shown (s : State) (d : Die) : (s.freeze d.val).getF DLS_THERM_STAT.STATE d.val = 2 ∧
    (s.freeze d.val).getF DLS_THERM_STAT.TEMP d.val = s.getF DLS_THERM_STAT.TEMP d.val ∧
    ((s.freeze d.val).die d.val).frozen = some s.now ∧ DueAt (s.freeze d.val) (.freezeTimeout d) (s.now + 1600000) := by
  have began := s.frozen_told d.val
  have counted := began.trans ((s.frozen d.val).freezeCounted_told d.val)
  obtain ⟨state, temp, dies⟩ := ((s.frozen d.val).freezeCounted d.val).showState d.val 2
  have now : ((s.frozen d.val).freezeCounted d.val).now = s.now := counted.now
  rw [s.freeze_eq, Fin.ofNat_val, now]
  refine ⟨(State.sched_getF _ _ _ _ _ _ _ _).trans state, (State.sched_getF _ _ _ _ _ _ _ _).trans (temp.trans ?_), ?_,
    State.dueAt_sched _ _ _ _⟩
  · refine ((s.frozen d.val).setTherm_field DLS_THERM_STAT.FREEZECNT DLS_THERM_STAT.TEMP d.val _ rfl (by decide) rfl (by decide)).trans ?_
    exact State.getF_congr (s.frozen_csr d.val) _ _
  · rw [State.sched_die_view, State.die, dies]
    exact congrArg DieSt.frozen ((counted.die d.val).trans (State.die_modDie_same _ _ _))

/-- A thaw but for the levels and signals that follow. -/
def State.thawed (s : State) (d state : Nat) : State :=
  ((s.unsched fun e => decide (e.ev = Ev.freezeTimeout (Fin.ofNat 4 d))).modDie d fun k =>
    { k with frozen := none, frozenSessions := [] }).setTherm DLS_THERM_STAT.STATE d state

theorem State.dirty_levelled (s : State) (die session : Nat) : Levelled s (s.dirty die session) := .of_eq rfl rfl

theorem State.thaw_levelled (s : State) (d state : Nat) : Levelled (s.thawed d state) (s.thaw d state) :=
  ((State.foldl_levelled _ _ fun u _ _ => u.dirty_levelled _ _).trans
    (State.foldl_levelled _ _ fun u _ _ => u.changeLevel_levelled _ _ _)).trans
    (State.foldl_levelled _ _ fun u _ _ => u.sched_levelled _ _ _)

/-- A freeze that ends (R27). -/
theorem State.thaw_shown (s : State) (d state : Nat) (h : state < 4) :
    (s.thaw d state).getF DLS_THERM_STAT.STATE d = state ∧ ((s.thaw d state).die d).frozen = none := by
  obtain ⟨dies, regs⟩ := s.thaw_levelled d state
  constructor
  · rw [State.getF_of_csrVal (regs _ _ (by decide)), State.thawed, State.setTherm_same _ DLS_THERM_STAT.STATE d state rfl (by decide)]
    exact Nat.mod_eq_of_lt h
  · rw [State.die, dies]
    exact congrArg DieSt.frozen (((State.setTherm_told _ _ _ _).die d).trans (State.die_modDie_same _ _ _))

end Sys2Proof.Machine
end

section
/-! PROOFS. Heat, stops and machine checks; the die events (O51). -/
namespace Sys2Proof.Machine

open Sys2Proof.Spec

/-! A temperature is shown (R26) -/

/-- A state that a sample shows leaves its temperature and the dies. -/
theorem State.sampled_showState (s : State) (d : Die) {c : Nat} (h : c < 115) (v : Nat) (hv : v < 4) :
    ((s.sampled d.val c).setTherm DLS_THERM_STAT.STATE d.val v).getF DLS_THERM_STAT.STATE d.val = v ∧
      ((s.sampled d.val c).setTherm DLS_THERM_STAT.STATE d.val v).getF DLS_THERM_STAT.TEMP d.val = c ∧
      ((s.sampled d.val c).setTherm DLS_THERM_STAT.STATE d.val v).dies = s.dies := by
  obtain ⟨state, temp, dies⟩ := (s.sampled d.val c).showState d.val v
  exact ⟨state.trans (Nat.mod_eq_of_lt hv), temp.trans (s.sampled_temp d.val c h), dies.trans (s.sampled_told d.val c).dies⟩

/-- A sample that changes no state. -/
theorem State.sampled_shown (s : State) (d : Die) {c : Nat} (h : c < 115) :
    (s.sampled d.val c).getF DLS_THERM_STAT.STATE d.val = s.getF DLS_THERM_STAT.STATE d.val ∧
      (s.sampled d.val c).getF DLS_THERM_STAT.TEMP d.val = c ∧ (s.sampled d.val c).dies = s.dies :=
  ⟨s.sampled_state d.val c, s.sampled_temp d.val c h, (s.sampled_told d.val c).dies⟩

section
variable {s : State} {d : Die} {c : Nat} (on : (s.die d.val).stopped = false) (st : s.getF DLS_THERM_STAT.STATE d.val ≠ 3)
include on st

/-- Where no trip has happened, a sample is taken by its temperature. -/
theorem exec_thermalSample_on : exec (.thermalSample d c) s = .next (
    if 115 ≤ c then (s.sampled d.val c).trip d.val
    else if s.getF DLS_THERM_STAT.STATE d.val = 2 then
      (if c < 100 then (s.sampled d.val c).thaw d.val (if c < 90 then 0 else 1) else s.sampled d.val c)
    else if 105 ≤ c then (s.sampled d.val c).freeze d.val
    else if 95 ≤ c then (s.sampled d.val c).setTherm DLS_THERM_STAT.STATE d.val 1
    else if s.getF DLS_THERM_STAT.STATE d.val = 1 && c < 90 then (s.sampled d.val c).setTherm DLS_THERM_STAT.STATE d.val 0
    else s.sampled d.val c) := by
  rw [exec_thermalSample, State.heated, if_neg]
  · rw [s.sampled_state]
  · rw [s.sampled_state, (s.sampled_told d.val c).die, on]
    simpa using st

theorem thermalSample_trip (h : 115 ≤ c) : Does (.thermalSample d c) s fun t =>
    t.getF DLS_THERM_STAT.STATE d.val = 3 ∧ (t.die d.val).stopped = true := by
  refine ⟨_, exec_thermalSample_on on st, ?_⟩
  rw [if_pos h]
  exact State.trip_shown _ _

theorem thermalSample_freeze (h : 105 ≤ c) (h' : c < 115) (run : s.getF DLS_THERM_STAT.STATE d.val ≠ 2) :
    Does (.thermalSample d c) s fun t => t.getF DLS_THERM_STAT.STATE d.val = 2 ∧
      t.getF DLS_THERM_STAT.TEMP d.val = c ∧ (t.die d.val).frozen = some s.now ∧
      DueAt t (.freezeTimeout d) (s.now + 1600000) := by
  refine ⟨_, exec_thermalSample_on on st, ?_⟩
  rw [if_neg (by omega), if_neg run, if_pos h]
  obtain ⟨state, temp, frozen, due⟩ := (s.sampled d.val c).freeze_shown d
  rw [(s.sampled_told d.val c).now] at frozen due
  exact ⟨state, temp.trans (s.sampled_temp d.val c h'), frozen, due⟩

theorem thermalSample_cap (h : 95 ≤ c) (h' : c < 105) (run : s.getF DLS_THERM_STAT.STATE d.val ≠ 2) :
    Does (.thermalSample d c) s fun t => t.getF DLS_THERM_STAT.STATE d.val = 1 ∧
      t.getF DLS_THERM_STAT.TEMP d.val = c ∧ t.dies = s.dies := by
  refine ⟨_, exec_thermalSample_on on st, ?_⟩
  rw [if_neg (by omega), if_neg run, if_neg (by omega), if_pos h]
  exact s.sampled_showState d (by omega) 1 (by decide)

theorem thermalSample_cool (h : c < 90) (run : s.getF DLS_THERM_STAT.STATE d.val ≠ 2) :
    Does (.thermalSample d c) s fun t => t.getF DLS_THERM_STAT.STATE d.val = 0 ∧
      t.getF DLS_THERM_STAT.TEMP d.val = c ∧ t.dies = s.dies := by
  refine ⟨_, exec_thermalSample_on on st, ?_⟩
  rw [if_neg (by omega), if_neg run, if_neg (by omega), if_neg (by omega)]
  by_cases cap : s.getF DLS_THERM_STAT.STATE d.val = 1
  · rw [if_pos (by simp [cap, h])]
    exact s.sampled_showState d (by omega) 0 (by decide)
  · have four := s.getF_lt DLS_THERM_STAT.STATE d.val
    have normal : s.getF DLS_THERM_STAT.STATE d.val = 0 := by
      change _ < 4 at four
      omega
    rw [if_neg (by simp [cap])]
    exact normal ▸ s.sampled_shown d (by omega)

theorem thermalSample_keep (h : 90 ≤ c) (h' : c < 95) (run : s.getF DLS_THERM_STAT.STATE d.val ≠ 2) :
    Does (.thermalSample d c) s fun t => t.getF DLS_THERM_STAT.STATE d.val = s.getF DLS_THERM_STAT.STATE d.val ∧
      t.getF DLS_THERM_STAT.TEMP d.val = c ∧ t.dies = s.dies := by
  refine ⟨_, exec_thermalSample_on on st, ?_⟩
  rw [if_neg (by omega), if_neg run, if_neg (by omega), if_neg (by omega), if_neg (by simp; omega)]
  exact s.sampled_shown d (by omega)

theorem thermalSample_thaw (h : c < 100) (held : s.getF DLS_THERM_STAT.STATE d.val = 2) :
    Does (.thermalSample d c) s fun t =>
      t.getF DLS_THERM_STAT.STATE d.val = (if c < 90 then 0 else 1) ∧ (t.die d.val).frozen = none := by
  have run : exec (.thermalSample d c) s = .next ((s.sampled d.val c).thaw d.val (if c < 90 then 0 else 1)) := by
    rw [exec_thermalSample_on on st, if_neg (by omega : ¬115 ≤ c), if_pos held, if_pos h]
  exact ⟨_, run, (s.sampled d.val c).thaw_shown d.val _ (by split <;> decide)⟩

theorem thermalSample_held (h : 100 ≤ c) (h' : c < 115) (held : s.getF DLS_THERM_STAT.STATE d.val = 2) :
    Does (.thermalSample d c) s fun t => t.getF DLS_THERM_STAT.STATE d.val = 2 ∧
      t.getF DLS_THERM_STAT.TEMP d.val = c ∧ t.dies = s.dies := by
  refine ⟨_, exec_thermalSample_on on st, ?_⟩
  rw [if_neg (by omega), if_pos held, if_neg (by omega)]
  exact held ▸ s.sampled_shown d h'

end

/-! Stops that are timed or detected (R26, R213) -/

theorem exec_freezeTimeout (s : State) (d : Die) :
    exec (.freezeTimeout d) s = .next (if (s.die d.val).frozen.isSome then s.trip d.val else s) := rfl

/-- What the lowest die left has reported of a stop. -/
def State.stopReported (s : State) (d x : Nat) : State := (s.mcReport x (s.die d).stopCause).faultSnap (s.die d).stopCause

/-- The launches and the partitions that a stop concerns. -/
def State.stopTold (s : State) (d : Nat) : State :=
  (List.range 16).foldl (fun s p => if s.hasPart p d then s.vec p 3 else s)
    ((s.tasks.filter fun e => e.2.die = d).foldl (fun s e => s.launchBroken e.1) s)

theorem exec_dieStopDetect (s : State) (d : Die) : exec (.dieStopDetect d) s =
    match (List.range 4).find? fun x => !(s.die x).stopped with
    | none => .next s
    | some x => if !(s.die d.val).stopped then .next s else .next ((s.stopReported d.val x).stopTold d.val) := rfl

theorem State.stopTold_aside (s : State) (d : Nat) : Aside s (s.stopTold d) :=
  (State.foldl_aside _ _ fun u _ _ => u.launchBroken_aside _).trans
    (State.foldl_aside _ _ fun u _ _ => .ite (u.vec_calm _ _).aside (.refl u))

theorem dieStopDetect_idle (s : State) (d : Die) (on : (s.die d.val).stopped = false) : exec (.dieStopDetect d) s = .next s := by
  rw [exec_dieStopDetect]
  split
  · rfl
  · exact if_pos (by simp [on])

theorem dieStopDetect_does (s : State) (d : Die) (x : Nat) (off : (s.die d.val).stopped = true)
    (left : (List.range 4).find? (fun x => !(s.die x).stopped) = some x) :
    Does (.dieStopDetect d) s fun t => t.getF DST_MC_STAT.LAST x = (s.die d.val).stopCause % 256 := by
  refine ⟨(s.stopReported d.val x).stopTold d.val, ?_, ?_⟩
  · rw [exec_dieStopDetect, left]
    exact if_neg (by simp [off])
  · refine (State.getF_of_csrVal (f := DST_MC_STAT.LAST) ((State.stopTold_aside _ d.val).checks x)).trans ?_
    rw [State.stopReported, State.faultSnap_getF _ _ _ _ (by decide)]
    exact s.mcReport_last x _

/-! Machine checks (R212) -/

section
variable (s : State) (d : Die) (c : BitVec 8)

theorem exec_machineCheck_stopped (w : McTarget) (off : (s.die d.val).stopped = true) : exec (.machineCheck d c w) s = .next s :=
  if_pos off

variable (on : (s.die d.val).stopped = false)
include on

theorem exec_machineCheck_die : exec (.machineCheck d c .die) s = .next (
    if c.toNat = 0x37 then s.trip d.val else if c.toNat = 0x38 then s.dieStop d.val c.toNat
    else (s.mcReport d.val c.toNat).faultSnap c.toNat) := if_neg (by simp [on])

theorem machineCheck_stops (h : c = 0x37 ∨ c = 0x38) : Does (.machineCheck d c .die) s fun t => (t.die d.val).stopped = true := by
  rcases h with rfl | rfl
  · refine ⟨s.trip d.val, ?_, (s.trip_shown d.val).2⟩
    rw [exec_machineCheck_die s d _ on, if_pos (by decide)]
  · refine ⟨s.dieStop d.val (BitVec.toNat (0x38 : BitVec 8)), ?_, s.dieStop_stopped d.val _⟩
    rw [exec_machineCheck_die s d _ on, if_neg (by decide), if_pos (by decide)]

theorem machineCheck_reports (h7 : c ≠ 0x37) (h8 : c ≠ 0x38) : Does (.machineCheck d c .die) s fun t =>
    t.getF DST_MC_STAT.LAST d.val = c.toNat ∧
      t.getF DST_MC_STAT.UE d.val = min (s.getF DST_MC_STAT.UE d.val + 1) DST_MC_STAT.UE.top := by
  refine ⟨_, exec_machineCheck_die s d c on, ?_⟩
  have trip : ¬c.toNat = 0x37 := fun e => h7 (BitVec.eq_of_toNat_eq e)
  have stop : ¬c.toNat = 0x38 := fun e => h8 (BitVec.eq_of_toNat_eq e)
  rw [if_neg trip, if_neg stop]
  show ((s.mcReport d.val c.toNat).faultSnap c.toNat).getF _ _ = _ ∧ ((s.mcReport d.val c.toNat).faultSnap c.toNat).getF _ _ = _
  rw [State.faultSnap_getF _ _ _ _ (by decide), State.faultSnap_getF _ _ _ _ (by decide)]
  exact ⟨(s.mcReport_last d.val c.toNat).trans (Nat.mod_eq_of_lt c.isLt), s.mcReport_ue d.val c.toNat⟩

theorem machineCheck_register (core : Core) (x : Fin 8) (w : Fin 64) : Does (.machineCheck d c (.register core x w)) s fun t =>
    (t.bank (ctxOf core.val x.val)).s.look w.val = 0 := by
  refine ⟨_, if_neg (by simp [on]), ?_⟩
  simp

theorem exec_machineCheck_spad (core : Core) (x : Fin 8) (off : Nat) : exec (.machineCheck d c (.spad core x off)) s = .next
    ((s.mcTask d.val c.toNat (s.holder core.val x.val)).spadStore core.val x.val (off - off % 8) (natLe 8 0)) := if_neg (by simp [on])

theorem machineCheck_spad (core : Core) (x : Fin 8) (off : Nat) : Does (.machineCheck d c (.spad core x off)) s fun t =>
    t.spadNat core.val x.val (off - off % 8) 8 = 0 := by
  refine ⟨_, exec_machineCheck_spad s d c on core x off, ?_⟩
  have stored := (s.mcTask d.val c.toNat (s.holder core.val x.val)).spadBytes_spadStore core.val x.val (off - off % 8) (natLe 8 0)
  rw [natLe_length] at stored
  exact (congrArg leNat stored).trans ((leNat_natLe 8 0).trans (Nat.zero_mod _))

theorem machineCheck_bank (core : Core) (q n : Fin 16) : Does (.machineCheck d c (.bank core q n)) s fun t =>
    (t.core core.val).tiles.look (16 * q.val + n.val) = 0 := by
  refine ⟨_, if_neg (by simp [on]), ?_⟩
  simp

theorem machineCheck_sector (id pa : Nat) (h : Raisable s id) : Does (.machineCheck d c (.sector id pa)) s fun t => Aborted t id := by
  refine ⟨_, if_neg (by simp [on]), ?_⟩
  have raised := s.raiseHere_aborted id { cause := c.toNat } h
  obtain ⟨-, resident, run⟩ := h
  show Aborted (s.mcTask d.val c.toNat (some id)) id
  rw [State.mcTask, if_pos (by simp [resident, run])]
  exact raised

end

/-! Levels and the check tick -/

theorem levelChangeMessage_waits (s : State) (d : Die) (se : Fin 256) (lv : Fin 4) (tk : Nat) (h : s.tick < tk + 8000) :
    Does (.levelChangeMessage d se lv tk) s fun t =>
      DueAt t (.levelChangeMessage d se lv tk) (max s.now (s.cycleOf (tk + 8000))) ∧ t.csr = s.csr :=
  ⟨_, (exec_levelChangeMessage s d se lv tk).trans (if_pos h), State.dueAt_sched _ _ _ _, rfl⟩

theorem levelChangeMessage_invalid (s : State) (d : Die) (se : Fin 256) (lv : Fin 4) (tk : Nat) (h : tk + 8000 ≤ s.tick)
    (hv : s.getF DLS_SES.VALID (256 * d.val + se.val) = 0) : exec (.levelChangeMessage d se lv tk) s = .next s := by
  rw [exec_levelChangeMessage, if_neg (by omega), State.applyLevel_eq, if_pos (by simp [hv])]

theorem levelChangeMessage_does (s : State) (d : Die) (se : Fin 256) (lv : Fin 4) (tk : Nat) (h : tk + 8000 ≤ s.tick)
    (hv : s.getF DLS_SES.VALID (256 * d.val + se.val) = 1) : Does (.levelChangeMessage d se lv tk) s fun t =>
      t.getF DLS_SES.LEVEL (256 * d.val + se.val) = lv.val :=
  ⟨_, (exec_levelChangeMessage s d se lv tk).trans (if_neg (by omega)), s.applyLevel_level d.val se.val lv.val lv.isLt hv⟩

theorem correctedError_does (s : State) (d : Die) : Does (.correctedError d) s fun t =>
    t.getF DST_MC_STAT.CE d.val = min (s.getF DST_MC_STAT.CE d.val + 1) DST_MC_STAT.CE.top ∧ t.mem = s.mem :=
  ⟨s.bump DST_MC_STAT.CE d.val 1, rfl, s.bump_getF DST_MC_STAT.CE d.val 1 (by decide), (s.setF_told _ _ _).mem⟩

theorem freezeTimeout_idle (s : State) (d : Die) (h : (s.die d.val).frozen = none) : exec (.freezeTimeout d) s = .next s := by
  rw [exec_freezeTimeout, h, if_neg (by decide)]

theorem freezeTimeout_does (s : State) (d : Die) (h : (s.die d.val).frozen ≠ none) : Does (.freezeTimeout d) s fun t =>
    t.getF DLS_THERM_STAT.STATE d.val = 3 ∧ (t.die d.val).stopped = true := by
  have run : exec (.freezeTimeout d) s = .next (s.trip d.val) := by
    rw [exec_freezeTimeout, if_pos (Option.isSome_iff_ne_none.2 h)]
  exact ⟨_, run, s.trip_shown d.val⟩

/-- Settles O51: each event by the lemmas on its links, heat, stop or machine check. -/
theorem dieEvents : Obligations.DieEvents := by
  unfold Obligations.DieEvents
  intro s
  refine ⟨?_, ?_, ?_, ?_, ?_, ?_, ?_, ?_, ?_, ?_⟩
  · exact fun d h => ⟨fun off => (exec_commitHeartbeat s d h).trans (if_pos off), commitHeartbeat_does s d h⟩
  · exact heartbeatAck_does s
  · exact fun via dst m => ⟨fun gone => (exec_heartbeatRelay s via dst m).trans (if_pos (by simpa using gone)),
      heartbeatRelay_does s via dst m⟩
  · exact fun d se lv tk => ⟨levelChangeMessage_waits s d se lv tk, levelChangeMessage_invalid s d se lv tk,
      levelChangeMessage_does s d se lv tk⟩
  · exact fun d st p => ⟨exec_checkTick_idle s d st p, fun id h hc on live hh done crc =>
      ⟨_, exec_checkTick_heard hc on live hh done crc, State.looked_freed⟩, fun id hc on live => checkTick_unheard_does hc on live⟩
  · exact laneGroupLoss_does s
  · exact fun pr => ⟨pairLinkLoss_does s pr, pairLinkReturn_one s pr, pairLinkReturn_both s pr⟩
  · exact fun a b => ⟨fun same => (exec_crossLinkLoss s a b).trans (if_pos same), crossLinkLoss_does s a b⟩
  · intro d c st on trip
    exact ⟨thermalSample_trip on trip, thermalSample_freeze on trip, thermalSample_cap on trip, thermalSample_cool on trip,
      thermalSample_keep on trip, thermalSample_thaw on trip, thermalSample_held on trip⟩
  · exact fun d => ⟨freezeTimeout_idle s d, freezeTimeout_does s d, dieStopDetect_idle s d, dieStopDetect_does s d,
      correctedError_does s d, fun c off w => exec_machineCheck_stopped s d c w off, fun c on =>
      ⟨machineCheck_stops s d c on, machineCheck_reports s d c on, machineCheck_register s d c on, fun core x off _ =>
        machineCheck_spad s d c on core x off, machineCheck_bank s d c on, machineCheck_sector s d c on⟩⟩

end Sys2Proof.Machine
end

section
/-! PROOFS. A task becomes ready, is launched, runs out of time, commits and ends a pass (O47; R123, R124, R126, R127, R181, R189). -/
namespace Sys2Proof.Machine

open Sys2Proof.Spec

/-- What is due stays due while nothing is taken off the agenda. -/
theorem dueAt_mono {s t : State} {e : Ev} {time : Nat} (h : DueAt s e time) (sub : ∀ x ∈ s.agenda, x ∈ t.agenda) :
    DueAt t e time := by
  obtain ⟨d, hd, ev, at_⟩ := h
  exact ⟨d, sub d hd, ev, at_⟩

/-! Readiness (R116, R126, R127) -/

theorem exec_taskReady (s : State) (id : Nat) : exec (.taskReady id) s = .next (s.becomeReady id) := rfl

theorem taskReady_idle (s : State) (id : Nat) (hp : (s.task id).st ≠ .pending) (hd : (s.task id).st ≠ .deferred) :
    exec (.taskReady id) s = .next s := by
  rw [exec_taskReady, State.becomeReady, if_pos (by simp [hp, hd])]

theorem taskReady_does (s : State) (id : Nat) (h : (s.task id).st = .pending ∨ (s.task id).st = .deferred)
    (run : (s.task id).cls ≠ 1 ∨ s.levelOf (s.task id).die (s.task id).session < 2) : Does (.taskReady id) s fun t =>
      (t.task id).st = .ready ∧ (t.task id).level = s.levelOf (s.task id).die (s.task id).session ∧
        (t.task id).eligTick = s.now ∧ t.mem = s.mem := by
  have waits : ¬((s.task id).st ≠ .pending && (s.task id).st ≠ .deferred) = true := by
    rcases h with h | h <;> simp [h]
  have taken : ¬((s.task id).cls = 1 && 2 ≤ s.levelOf (s.task id).die (s.task id).session) = true := by
    rcases run with run | run
    · simp [run]
    · simp [run]
  refine ⟨_, exec_taskReady s id, ?_⟩
  unfold State.becomeReady
  simp only
  rw [if_neg waits, if_neg taken, State.task_modTask_same]
  exact ⟨rfl, rfl, rfl, rfl⟩

/-! What the launch path does beside the task (R123, R141, R181) -/

theorem State.hbmTask_kept (s : State) (j task bytes : Nat) (ev : Option Ev) (who : Nat) :
    (s.hbmTask j task bytes ev who).tasks = s.tasks ∧ (s.hbmTask j task bytes ev who).mem = s.mem := by
  unfold State.hbmTask State.hbm
  extract_lets t x u e
  split
  · exact ⟨rfl, rfl⟩
  · split <;> exact ⟨rfl, rfl⟩

theorem State.llcEvict_tasks (s : State) (l : Line) : (s.llcEvict l).tasks = s.tasks :=
  iteInduction (motive := fun u : State => u.tasks = s.tasks) (fun _ => (State.hbmTask_kept _ _ _ _ _ _).1) fun _ => rfl

theorem State.llcPut_tasks (s : State) (die part la : Nat) (fill : List Byte) (fillM : List Bool) (data : List Byte)
    (dirt : List Bool) (v : Nat) (touch : Bool) : (s.llcPut die part la fill fillM data dirt v touch).tasks = s.tasks := by
  unfold State.llcPut
  extract_lets set ways upd
  split
  · rfl
  · split
    · rfl
    · exact iteInduction (motive := fun u : State => u.tasks = s.tasks) (fun _ => rfl) fun _ => State.llcEvict_tasks _ _

theorem State.llcFill_tasks (s : State) (die part la rd : Nat) (want : List Bool) (src : List Byte) :
    (s.llcFill die part la rd want src).tasks = s.tasks :=
  iteInduction (motive := fun u : State => u.tasks = s.tasks) (fun _ => rfl) fun _ => s.llcPut_tasks _ _ _ _ _ _ _ _ _

/-- The path to a task's first code line changes its program counter alone, and takes nothing off the agenda. -/
theorem State.firstLine_kept (s : State) (id : Nat) : (∃ pc, (s.firstLine id).task id = { s.task id with pc := pc }) ∧
    ∀ x ∈ s.agenda, x ∈ (s.firstLine id).agenda := by
  unfold State.firstLine State.askLine
  extract_lets t u line ev
  have marked : u.task id = { s.task id with pc := BitVec.ofNat 64 (s.task id).codeBase } := s.task_modTask_same id _
  have asked := u.schedWithin_calm 64 phMem ev
  split
  · exact ⟨⟨(s.task id).pc, rfl⟩, fun _ hx => hx⟩
  split
  · exact ⟨⟨_, marked⟩, fun _ hx => hx⟩
  split
  · exact ⟨⟨_, marked⟩, fun _ hx => hx⟩
  · exact ⟨⟨_, marked⟩, asked.agenda⟩

theorem State.firstLine_off (s : State) (id : Nat) (h : (s.task id).st ≠ .placing) : s.firstLine id = s :=
  if_pos (by simp [h])

/-! The launch path (R123, R181) -/

/-- A header is asked for. -/
def State.headerAsked (s : State) (id : Nat) : State :=
  (s.modTask id fun t => { t with hdrWait := true }).hbmTask (stackOf ((s.headerAt (s.task id)).getD 0)) id 128 (some (.taskLaunch id))

/-- A header that the task waited for is filled in. -/
def State.headerFilled (s : State) (id : Nat) : State :=
  match s.headerAt (s.task id) with
  | some pa => if (s.task id).hdrWait then
      s.llcFill (s.task id).die (s.task id).part pa 0 (whole true) (s.fillLine (s.task id).die (s.task id).part pa) else s
  | none => s

/-- A context is offered for issue, some cycles on. -/
def State.offered (s : State) (id n : Nat) : State :=
  (s.modTask id fun t => { t with run := .eligible, eligTick := s.now, cnt := 0 }).sched (s.now + n) phChoice (.contextEligible id)

theorem State.offered_eligible (s : State) (id n : Nat) : ((s.offered id n).task id).run = .eligible ∧
    ((s.offered id n).task id).cnt = 0 ∧ DueAt (s.offered id n) (.contextEligible id) ((s.offered id n).now + n) := by
  have marked := s.task_modTask_same id fun t => { t with run := .eligible, eligTick := s.now, cnt := 0 }
  exact ⟨(congrArg Task.run marked :), (congrArg Task.cnt marked :), State.dueAt_sched _ _ _ _⟩

theorem exec_taskLaunch (s : State) (id : Nat) : exec (.taskLaunch id) s =
    if (s.task id).st ≠ .placing then .next s
    else if !(s.task id).occ then
      if s.headerAway (s.task id) then .next (s.headerAsked id)
      else .next ((if (s.task id).cls < 2 then (s.headerFilled id).loadVariant id
        else ((s.headerFilled id).taskBoundary (s.task id).die).occupy id).firstLine id)
    else .next ((s.taskBoundary (s.task id).die).offered id 0) := rfl

theorem taskLaunch_idle (s : State) (id : Nat) (h : (s.task id).st ≠ .placing) : exec (.taskLaunch id) s = .next s :=
  (exec_taskLaunch s id).trans (if_pos h)

theorem State.headerFilled_kept (s : State) (id : Nat) : Calm s (s.headerFilled id) ∧ (s.headerFilled id).tasks = s.tasks := by
  unfold State.headerFilled
  split
  · exact ⟨.ite (s.llcFill_calm _ _ _ _ _ _) (.refl s), iteInduction (motive := fun u : State => u.tasks = s.tasks)
      (fun _ => s.llcFill_tasks _ _ _ _ _ _) fun _ => rfl⟩
  · exact ⟨.refl s, rfl⟩

/-- A task takes the variant of its stream (R181). -/
theorem State.loadVariant_kept (s : State) (id : Nat) : ((s.loadVariant id).task id).occ = true ∧
    ((s.loadVariant id).task id).team = natAt (s.task id).var.hdr 3 1 ∧
    ((s.loadVariant id).task id).spadBase = (s.stream (s.task id).die (s.task id).stream).spadBase ∧
    DueAt (s.loadVariant id) (.taskLaunch id) (s.now + 101) := by
  unfold State.loadVariant
  extract_lets t st k
  have marked := s.task_modTask_same id fun t =>
    { t with occ := true, hdr := k.hdr, btt := k.btt, dst := k.dst, team := natAt t.var.hdr 3 1
             spadBase := st.spadBase, profile := t.bound k.hdr, hdrVa := t.var.kernel }
  exact ⟨(congrArg Task.occ marked :), (congrArg Task.team marked :), (congrArg Task.spadBase marked :), State.dueAt_sched _ _ _ _⟩

/-- A task takes the occupancies of its kernel (R123). -/
def Task.occupying (x : Kernel) (bases : List Nat) (t : Task) : Task :=
  { t with occ := true, hdr := x.hdr, btt := x.btt, dst := x.dst, team := natAt x.hdr 3 1, spadBase := bases
           profile := t.bound x.hdr, hdrVa := t.var.kernel }

section
variable (id : Nat) (u : State) (x : Kernel) (ok : Bool) (launch : (u.task id).launch = none)
  (read : u.readKernel (u.task id).die (u.task id).part (u.task id).var.kernel = some (x, ok))
include launch read

theorem State.occupy_refuses (h : u.refusal (u.task id) x ok ≠ 0) :
    u.occupy id = u.refuse id (u.refusal (u.task id) x ok) := by
  unfold State.occupy
  simp only
  rw [read]
  simp only
  rw [if_pos h, State.refuseLaunch, launch]

theorem State.occupy_takes (h : u.refusal (u.task id) x ok = 0) : ∃ bases,
    u.occupy id = (u.modTask id (Task.occupying x bases)).sched (u.now + 101) phDls (.taskLaunch id) := by
  refine ⟨(u.spadFits (u.task id).group (natAt x.hdr 3 1) (natAt x.hdr 6 2 * 1024)).getD [], ?_⟩
  unfold State.occupy
  simp only
  rw [read]
  simp only
  rw [if_neg (by simp [h]), launch]
  rfl

end

section
variable (s : State) (id : Nat) (placing : (s.task id).st = .placing)
include placing

theorem taskLaunch_eligible (occ : (s.task id).occ = true) : Does (.taskLaunch id) s fun t =>
    (t.task id).run = .eligible ∧ (t.task id).cnt = 0 ∧ DueAt t (.contextEligible id) t.now := by
  refine ⟨_, ?_, (s.taskBoundary (s.task id).die).offered_eligible id 0⟩
  rw [exec_taskLaunch, if_neg (by simp [placing]), if_neg (by simp [occ])]

variable (occ : (s.task id).occ = false)
include occ

theorem taskLaunch_asks (away : s.headerAway (s.task id) = true) : Does (.taskLaunch id) s fun t =>
    (t.task id).hdrWait = true ∧ (t.task id).occ = false ∧ t.mem = s.mem := by
  refine ⟨s.headerAsked id, ?_, ?_⟩
  · rw [exec_taskLaunch, if_neg (by simp [placing]), if_pos (by simp [occ]), if_pos away]
  · obtain ⟨tasks, mem⟩ : (s.headerAsked id).tasks = (s.modTask id fun t => { t with hdrWait := true }).tasks ∧
        (s.headerAsked id).mem = s.mem := State.hbmTask_kept _ _ _ _ _ _
    rw [State.task, tasks, mem]
    have marked := s.task_modTask_same id fun t => { t with hdrWait := true }
    exact ⟨congrArg Task.hdrWait marked, (congrArg Task.occ marked).trans occ, rfl⟩

/-- With its header at hand, a task of a fast or slow stream takes its variant; another takes a boundary and its occupancies. -/
theorem exec_taskLaunch_here (here : s.headerAway (s.task id) = false) : exec (.taskLaunch id) s =
    .next ((if (s.task id).cls < 2 then (s.headerFilled id).loadVariant id
      else ((s.headerFilled id).taskBoundary (s.task id).die).occupy id).firstLine id) := by
  rw [exec_taskLaunch, if_neg (by simp [placing]), if_pos (by simp [occ]), if_neg (by simp [here])]

theorem taskLaunch_variant (here : s.headerAway (s.task id) = false) (cls : (s.task id).cls < 2) :
    Does (.taskLaunch id) s fun t => (t.task id).occ = true ∧ (t.task id).team = natAt (s.task id).var.hdr 3 1 ∧
      (t.task id).spadBase = (s.stream (s.task id).die (s.task id).stream).spadBase ∧ DueAt t (.taskLaunch id) (s.now + 101) := by
  refine ⟨_, (exec_taskLaunch_here s id placing occ here).trans (by rw [if_pos cls]), ?_⟩
  obtain ⟨calm, tasks⟩ := s.headerFilled_kept id
  have task : (s.headerFilled id).task id = s.task id := by rw [State.task, State.task, tasks]
  have stream : ((s.headerFilled id).stream (s.task id).die (s.task id).stream).spadBase =
      (s.stream (s.task id).die (s.task id).stream).spadBase := (congrArg Stream.spadBase (calm.stream _ _) :)
  obtain ⟨held, team, spad, due⟩ := (s.headerFilled id).loadVariant_kept id
  obtain ⟨⟨pc, line⟩, agenda⟩ := ((s.headerFilled id).loadVariant id).firstLine_kept id
  rw [task] at team spad
  rw [calm.now] at due
  rw [line]
  exact ⟨held, team, spad.trans stream, dueAt_mono due agenda⟩

section
variable {x : Kernel} {ok : Bool} (at_ : s.headerAt (s.task id) = none) (cls : 2 ≤ (s.task id).cls)
  (read : (s.taskBoundary (s.task id).die).readKernel ((s.taskBoundary (s.task id).die).task id).die
    ((s.taskBoundary (s.task id).die).task id).part ((s.taskBoundary (s.task id).die).task id).var.kernel = some (x, ok))
include at_ cls

/-- A launch whose header is no address of a stack takes a boundary and its occupancies. -/
theorem exec_taskLaunch_occupies : exec (.taskLaunch id) s =
    .next (((s.taskBoundary (s.task id).die).occupy id).firstLine id) := by
  have here : s.headerAway (s.task id) = false := by rw [State.headerAway, at_]; simp
  have filled : s.headerFilled id = s := by rw [State.headerFilled, at_]
  rw [exec_taskLaunch_here s id placing occ here, if_neg (by omega), filled]

include read

theorem taskLaunch_refuses (launch : (s.task id).launch = none)
    (h : (s.taskBoundary (s.task id).die).refusal ((s.taskBoundary (s.task id).die).task id) x ok ≠ 0) :
    Does (.taskLaunch id) s fun t => (t.task id).st = .refused := by
  have none := ((s.taskBoundary_calm (s.task id).die).launch id).trans launch
  have refused := (s.taskBoundary (s.task id).die).refuse_st id
    ((s.taskBoundary (s.task id).die).refusal ((s.taskBoundary (s.task id).die).task id) x ok)
  refine ⟨_, exec_taskLaunch_occupies s id placing occ at_ cls, ?_⟩
  rw [State.occupy_refuses id _ x ok none read h, State.firstLine_off _ _ (by simp [refused])]
  exact refused

theorem taskLaunch_occupies (launch : ((s.taskBoundary (s.task id).die).task id).launch = none)
    (h : (s.taskBoundary (s.task id).die).refusal ((s.taskBoundary (s.task id).die).task id) x ok = 0) :
    Does (.taskLaunch id) s fun t => (t.task id).occ = true ∧ (t.task id).team = natAt x.hdr 3 1 ∧
      DueAt t (.taskLaunch id) ((s.taskBoundary (s.task id).die).now + 101) := by
  refine ⟨_, exec_taskLaunch_occupies s id placing occ at_ cls, ?_⟩
  generalize s.taskBoundary (s.task id).die = u at *
  obtain ⟨bases, taken⟩ := State.occupy_takes id u x ok launch read h
  obtain ⟨⟨pc, line⟩, agenda⟩ := (u.occupy id).firstLine_kept id
  have marked : (u.occupy id).task id = (u.task id).occupying x bases := by
    rw [taken, State.sched_task_view, State.task_modTask_same]
  rw [line, marked]
  exact ⟨rfl, rfl, dueAt_mono (taken ▸ State.dueAt_sched _ _ _ _) agenda⟩

end

end

/-! Deadlines, commits and passes (R124, R126, R189) -/

theorem deadlineAbort_idle (s : State) (id : Nat) (h : (s.task id).st = .committed ∨ (s.task id).st = .aborted ∨
    (s.task id).st = .refused ∨ (s.task id).st = .deferred) : exec (.deadlineAbort id) s = .next s := by
  show execDeadlineAbort id s = _
  unfold execDeadlineAbort
  rcases h with h | h | h | h <;> simp only [h]

theorem deadlineAbort_does (s : State) (id : Nat) (h : (s.task id).st = .pending ∨ (s.task id).st = .ready ∨
    (s.task id).st = .placing ∨ (s.task id).st = .running ∨ (s.task id).st = .draining ∨ (s.task id).st = .parked) :
    Does (.deadlineAbort id) s fun t => Aborted t id := by
  refine ⟨(s.bump DLS_SES.MISSES (256 * (s.task id).die + (s.task id).session) 1).abort id 0x0201, ?_, State.abort_aborted _ _ _⟩
  show execDeadlineAbort id s = _
  unfold execDeadlineAbort
  rcases h with h | h | h | h | h | h <;> simp only [h]

/-- A commit but for its record: the chunk is handed over, the partner told, the measurement ended. -/
def State.committing (s : State) (id : Nat) : State :=
  let t := s.task id
  let s := s.modTask id fun t => { t with chunkCrc := some (s.chunkSum t), txHdr := BitVec.ofNat 64 s.deviceTime }
  let s := if t.txSlot.isNone then s
    else if s.getF PRT_STAT.RST t.part = 1 then s.freeChunk id
    else if !t.copy then s.handChunk id
    else if (s.die t.die).hbs.any fun h => h.stream = t.stream && h.period = t.period then s.freeChunk id
    else s
  let s := if t.shadow && !t.copy then s.sendHeartbeat t else s
  let s := s.rplEnd id
  let late := if 2 ≤ t.cls && t.dabort ≤ s.tick then 1 else 0
  (s.appendRecord id 0 late).taskStatus id 0 late

/-- A commit of a task that has no graph and that no task preempts. -/
theorem State.commit_eq (s : State) (id : Nat) (graph : (s.task id).hdrNat 60 2 = 0) (req : (s.task id).preemptReq = false) :
    s.commit id = ((s.committing id).retire id .committed).modTask id fun t => { t with run := .off } := by
  have ends : s.commit id = if (s.task id).preemptReq then _
      else (((s.committing id).retire id .committed).modTask id fun t => { t with run := .off }).startWalk (s.task id) := rfl
  rw [ends, req, if_neg (by decide)]
  exact if_pos graph

theorem exec_taskCommit (s : State) (id : Nat) : exec (.taskCommit id) s =
    if (s.task id).run ≠ .ending then .next s
    else if s.rplMore id then .next ((s.modTask id fun t => { t with run := .off }).sched (s.now + 1) phHost (.rplPassEnd id))
    else if s.chunkLong (s.task id) then .next (s.takeFault id { cause := 0x58, slot := 8, pc := (s.task id).pc })
    else .next (s.commit id) := rfl

theorem taskCommit_idle (s : State) (id : Nat) (h : (s.task id).run ≠ .ending) : exec (.taskCommit id) s = .next s :=
  (exec_taskCommit s id).trans (if_pos h)

theorem taskCommit_pass (s : State) (id : Nat) (h : (s.task id).run = .ending) (more : s.rplMore id = true) :
    Does (.taskCommit id) s fun t => (t.task id).run = .off ∧ DueAt t (.rplPassEnd id) (s.now + 1) := by
  have marked := s.task_modTask_same id fun t => { t with run := .off }
  refine ⟨(s.modTask id fun t => { t with run := .off }).sched (s.now + 1) phHost (.rplPassEnd id), ?_,
    (congrArg Task.run marked :), State.dueAt_sched _ _ _ _⟩
  rw [exec_taskCommit, if_neg (by simp [h]), if_pos more]

theorem taskCommit_commits (s : State) (id : Nat) (h : (s.task id).run = .ending) (more : s.rplMore id = false)
    (long : s.chunkLong (s.task id) = false) (graph : (s.task id).hdrNat 60 2 = 0) (req : (s.task id).preemptReq = false) :
    Does (.taskCommit id) s fun t => (t.task id).st = .committed ∧ (t.task id).run = .off := by
  refine ⟨((s.committing id).retire id .committed).modTask id fun t => { t with run := .off }, ?_, ?_⟩
  · rw [exec_taskCommit, if_neg (by simp [h]), if_neg (by simp [more]), if_neg (by simp [long]), s.commit_eq id graph req]
  · have marked := ((s.committing id).retire id .committed).task_modTask_same id fun t => { t with run := .off }
    exact ⟨(congrArg Task.st marked :).trans (State.retire_st _ id .committed), (congrArg Task.run marked :)⟩

theorem exec_rplPassEnd (s : State) (id : Nat) : exec (.rplPassEnd id) s =
    if (s.cluster ((s.task id).group / 8)).rpl.task = some id then .next ((s.rplNext id).offered id 1) else .next s := rfl

end Sys2Proof.Machine
end

section
/-! PROOFS. Releases, sisters, registrations, gated clusters and walks; the scheduler's own steps (O47; R29, R30, R107, R116,
R187). -/
namespace Sys2Proof.Machine

open Sys2Proof.Spec

/-! A timer stream's release (R106, R116) -/

/-- A timer stream goes on to its next release. -/
def Stream.timerPast (st : Stream) : Stream := { st with timerN := st.timerN + 1 }

section
variable {s : State} {d : Die} {n : Fin 1024}

theorem timerRelease_idle (h : (s.stream d.val n.val).valid = false ∨ (s.stream d.val n.val).timer = false ∨
    (s.stream d.val n.val).leaving = true) : exec (.timerRelease d n) s = .next s :=
  if_pos (by rcases h with h | h | h <;> simp [h])

/-- The release that a timer stream is due. -/
def State.timerReleased (s : State) (die n : Nat) : State :=
  let rel := (s.stream die n).phase + (s.stream die n).timerN * (s.stream die n).period
  (s.release die n rel (rel + (s.stream die n).rdl) false id).2.modStream die n Stream.timerPast

variable (valid : (s.stream d.val n.val).valid = true) (timer : (s.stream d.val n.val).timer = true)
  (stays : (s.stream d.val n.val).leaving = false)
include valid timer stays

theorem exec_timerRelease : exec (.timerRelease d n) s =
    if s.tick < s.timerTick (s.stream d.val n.val) then
      .next (s.schedTick (s.timerTick (s.stream d.val n.val)) phReady (.timerRelease d n))
    else .next ((s.timerReleased d.val n.val).schedTick (max ((s.timerReleased d.val n.val).tick + 1)
      ((s.timerReleased d.val n.val).timerTick ((s.timerReleased d.val n.val).stream d.val n.val))) phReady (.timerRelease d n)) :=
  if_neg (by simp [valid, timer, stays])

theorem timerRelease_early (h : s.tick < s.timerTick (s.stream d.val n.val)) : Does (.timerRelease d n) s fun t =>
    DueAt t (.timerRelease d n) (max s.now (s.cycleOf (s.timerTick (s.stream d.val n.val)))) ∧ t.tasks = s.tasks :=
  ⟨_, (exec_timerRelease valid timer stays).trans (if_pos h), State.dueAt_sched _ _ _ _, rfl⟩

end

/-- The tick from which a release of a stream may run (R116). -/
def State.readyTick (s : State) (die n rel : Nat) : Nat :=
  match (s.stream die n).prevRel with
  | some p => max (s.timeToTick rel true) (p + durTicks (s.stream die n).period)
  | none => s.timeToTick rel true

/-- The task of a release at its own die, before its events are planned. -/
def State.formed (s : State) (die n rel dl : Nat) : State :=
  let st := s.stream die n
  let r := s.readyTick die n rel
  let dab := s.timeToTick dl false
  let dord := max dab (r + durTicks st.rdl)
  let level := s.levelOf die st.session
  let t : Task :=
    { die := die, part := st.part, stream := n, session := st.session, cls := st.cls, period := st.nextPeriod % 2 ^ 64
      r := r, dord := dord, dabort := dab, late := false, level := level, copy := st.copy, shadow := st.shadow, group := st.group
      ctx := st.ctx, var := st.at_ level }
  let next := s.nextId
  let s : State := { s with nextId := next + 1, tasks := s.tasks.put next t }
  (s.modStream die n fun st => { st with
    nextPeriod := st.nextPeriod + 1, lastDord := if st.cls < 2 then dord else st.lastDord, lastTask := next }).modStream
    die n fun st => { st with prevRel := some r }

/-- A release of a fast stream that is neither copy nor shadow, and is in time, forms a Pending task that is due to become
ready and to be aborted (R116, R127). -/
theorem State.release_pends (s : State) (die n rel dl : Nat) (tick : s.tickBase ≠ none) (on : (s.die die).stopped = false)
    (valid : (s.stream die n).valid = true) (stays : (s.stream die n).leaving = false) (cls : (s.stream die n).cls = 0)
    (copy : (s.stream die n).copy = false) (shadow : (s.stream die n).shadow = false)
    (rst : s.getF PRT_STAT.RST (s.stream die n).part ≠ 1) (ready : s.readyTick die n rel < s.timeToTick dl false)
    (time : s.tick < s.timeToTick dl false) :
    (s.release die n rel dl false id).2 = ((s.formed die n rel dl).schedTick (s.readyTick die n rel) phReady
      (.taskReady s.nextId)).schedTick (s.timeToTick dl false) phAbort (.deadlineAbort s.nextId) := by
  have goes : ¬(s.tickBase.isNone || (s.die die).stopped || !(s.stream die n).valid || (s.stream die n).leaving ||
      ((s.stream die n).copy && !(s.stream die n).shadow) || s.getF PRT_STAT.RST (s.stream die n).part = 1) = true := by
    simp [tick, on, valid, stays, copy, rst]
  unfold State.release
  extract_lets st cut
  have whole : cut = 0 := if_neg (by simp [st, shadow])
  rw [if_neg goes, whole]
  have own : ¬(st.copy && st.shadow) = true := by simp [st, copy]
  dsimp only [State.newId]
  rw [if_neg own]
  refine congrArg Prod.snd ((if_neg ?_).trans ((if_neg ?_).trans (congrArg (Prod.mk (some s.nextId)) (if_pos ?_))))
  · show ¬(false || decide (s.timeToTick dl false ≤ s.readyTick die n rel) || decide (s.timeToTick dl false ≤ s.tick)) = true
    simp [ready, time]
  · show ¬(decide (st.cls = 1) && decide (2 ≤ s.levelOf die st.session)) = true
    simp [st, cls]
  · show st.cls < 2
    simp [st, cls]

/-- What the task of a release carries (R116). -/
theorem State.formed_task (s : State) (die n rel dl : Nat) : ((s.formed die n rel dl).task s.nextId).st = .pending ∧
    ((s.formed die n rel dl).task s.nextId).r = s.readyTick die n rel ∧
    ((s.formed die n rel dl).task s.nextId).dabort = s.timeToTick dl false ∧
    ((s.formed die n rel dl).task s.nextId).period = (s.stream die n).nextPeriod % 2 ^ 64 := by
  have put := s.tasks.look_put_same s.nextId
  exact ⟨(congrArg Task.st (put _) :), (congrArg Task.r (put _) :), (congrArg Task.dabort (put _) :), (congrArg Task.period (put _) :)⟩

theorem State.formed_timerN (s : State) (die n rel dl : Nat) :
    ((s.formed die n rel dl).stream die n).timerN = (s.stream die n).timerN := by
  unfold State.formed
  extract_lets st r dab dord level t next u
  refine (congrArg Stream.timerN (State.stream_modStream_same _ die n _)).trans ?_
  exact (congrArg Stream.timerN (u.stream_modStream_same die n _) :)

theorem timerRelease_does (s : State) (d : Die) (n : Fin 1024) (valid : (s.stream d.val n.val).valid = true)
    (timer : (s.stream d.val n.val).timer = true) (stays : (s.stream d.val n.val).leaving = false)
    (cls : (s.stream d.val n.val).cls = 0) (copy : (s.stream d.val n.val).copy = false)
    (shadow : (s.stream d.val n.val).shadow = false) (tick : s.tickBase ≠ none) (on : (s.die d.val).stopped = false)
    (rst : s.getF PRT_STAT.RST (s.stream d.val n.val).part ≠ 1) (due : s.timerTick (s.stream d.val n.val) ≤ s.tick) :
    let rel := (s.stream d.val n.val).phase + (s.stream d.val n.val).timerN * (s.stream d.val n.val).period
    let r := s.readyTick d.val n.val rel
    let dab := s.timeToTick (rel + (s.stream d.val n.val).rdl) false
    r < dab → s.tick < dab → Does (.timerRelease d n) s fun t =>
      (t.stream d.val n.val).timerN = (s.stream d.val n.val).timerN + 1 ∧ (t.task s.nextId).st = .pending ∧
      (t.task s.nextId).r = r ∧ (t.task s.nextId).dabort = dab ∧
      (t.task s.nextId).period = (s.stream d.val n.val).nextPeriod % 2 ^ 64 ∧
      DueAt t (.taskReady s.nextId) (max s.now (s.cycleOf r)) ∧ DueAt t (.deadlineAbort s.nextId) (max s.now (s.cycleOf dab)) := by
  intro rel r dab ready time
  have pends := s.release_pends d.val n.val rel (rel + (s.stream d.val n.val).rdl) tick on valid stays cls copy shadow rst ready time
  have task := s.formed_task d.val n.val rel (rel + (s.stream d.val n.val).rdl)
  have timerN := s.formed_timerN d.val n.val rel (rel + (s.stream d.val n.val).rdl)
  have now : (s.formed d.val n.val rel (rel + (s.stream d.val n.val).rdl)).now = s.now := rfl
  have base : (s.formed d.val n.val rel (rel + (s.stream d.val n.val).rdl)).tickBase = s.tickBase := rfl
  have released : s.timerReleased d.val n.val = ((((s.formed d.val n.val rel (rel + (s.stream d.val n.val).rdl)).schedTick r phReady
      (.taskReady s.nextId)).schedTick dab phAbort (.deadlineAbort s.nextId)).modStream d.val n.val
        Stream.timerPast) := congrArg (State.modStream · d.val n.val Stream.timerPast) pends
  refine ⟨_, (exec_timerRelease valid timer stays).trans (if_neg (by omega)), ?_⟩
  rw [released]
  generalize s.formed d.val n.val rel (rel + (s.stream d.val n.val).rdl) = u at *
  obtain ⟨st, atR, atDab, period⟩ := task
  have first : DueAt ((u.schedTick r phReady (.taskReady s.nextId)).schedTick dab phAbort (.deadlineAbort s.nextId)) (.taskReady s.nextId)
      (max s.now (s.cycleOf r)) := by
    rw [State.cycleOf, ← now, ← base]
    exact State.sched_dueAt_of (State.dueAt_sched _ _ _ _) _ _ _
  have second : DueAt ((u.schedTick r phReady (.taskReady s.nextId)).schedTick dab phAbort (.deadlineAbort s.nextId))
      (.deadlineAbort s.nextId) (max s.now (s.cycleOf dab)) := by
    rw [State.cycleOf, ← now, ← base]
    exact State.dueAt_sched _ _ _ _
  refine ⟨?_, st, atR, atDab, period, State.sched_dueAt_of (dueAt_congr first rfl) _ _ _,
    State.sched_dueAt_of (dueAt_congr second rfl) _ _ _⟩
  have past : _ = (u.stream d.val n.val).timerN + 1 := congrArg Stream.timerN (u.stream_modStream_same d.val n.val Stream.timerPast)
  exact past.trans (congrArg (· + 1) timerN)

end Sys2Proof.Machine
end

section
/-! PROOFS. Sisters, registrations, gated clusters and walks; the scheduler's own steps (O47; R29, R30, R107, R187). -/
namespace Sys2Proof.Machine

open Sys2Proof.Spec

/-! Sisters (R123) -/

section
variable (s : State) (l : Nat) (rank : Fin 4)

theorem sisterReport_refused (ok : Bool) (h : (s.launches.look l).refused = true) : exec (.sisterReport l rank ok) s = .next s :=
  if_pos h

/-- A sister's report is counted. -/
def State.counted (s : State) (l : Nat) : State :=
  let n := (s.launches.look l).reports + 1
  { s with launches := s.launches.upd l fun x => { x with reports := n } }

/-- The last report sets the start. -/
def State.startSet (s : State) (l : Nat) : State :=
  { s with launches := s.launches.upd l fun x => { x with start := some (s.tick + 512) } }

/-- The launch of a task is due when sisters start together. -/
def State.launchSoon (s : State) (t : Nat) : State := s.sched (s.now + 509) phDls (.taskLaunch t)

theorem exec_sisterReport (on : (s.launches.look l).refused = false) : exec (.sisterReport l rank true) s =
    if (s.launches.look l).reports + 1 < (s.launches.look l).tasks.length then .next (s.counted l)
    else .next ((s.launches.look l).tasks.foldl State.launchSoon ((s.counted l).startSet l)) :=
  (if_neg (by simp [on])).trans (if_neg (by decide))

theorem sisterReport_counts (on : (s.launches.look l).refused = false)
    (more : (s.launches.look l).reports + 1 < (s.launches.look l).tasks.length) : Does (.sisterReport l rank true) s fun t =>
      (t.launches.look l).reports = (s.launches.look l).reports + 1 ∧ t.agenda = s.agenda :=
  ⟨s.counted l, (exec_sisterReport s l rank on).trans (if_pos more), by simp [State.counted], rfl⟩

/-- Launches that start together: the time stays, and every task's launch is due. -/
theorem State.launchAll (tasks : List Nat) (u : State) :
    (tasks.foldl State.launchSoon u).launches = u.launches ∧
      ∀ t ∈ tasks, DueAt (tasks.foldl State.launchSoon u) (.taskLaunch t) (u.now + 509) := by
  refine ⟨foldl_keeps (f := State.launchSoon) (P := fun v : State => v.launches = u.launches) tasks (fun _ _ _ h => h) u rfl, ?_⟩
  refine foldl_establishes (f := State.launchSoon) (I := fun v : State => v.now = u.now)
    (P := fun v t => DueAt v (.taskLaunch t) (u.now + 509)) tasks
    (fun _ _ _ h => h) (fun v t _ h => ?_) (fun _ _ _ _ _ h => State.sched_dueAt_of h _ _ _) u rfl
  rw [← h]
  exact State.dueAt_sched _ _ _ _

theorem sisterReport_starts (on : (s.launches.look l).refused = false)
    (last : (s.launches.look l).tasks.length ≤ (s.launches.look l).reports + 1) : Does (.sisterReport l rank true) s fun t =>
      (t.launches.look l).start = some (s.tick + 512) ∧
        ∀ u ∈ (s.launches.look l).tasks, DueAt t (.taskLaunch u) (s.now + 509) := by
  obtain ⟨launches, due⟩ := State.launchAll (s.launches.look l).tasks ((s.counted l).startSet l)
  refine ⟨_, (exec_sisterReport s l rank on).trans (if_neg (by omega)), ?_, due⟩
  rw [launches]
  simp [State.startSet, State.counted, State.tick]

end

/-! Registrations (R107) -/

theorem State.nextTest_kept (s : State) (die : Nat) : (s.nextTest die).csr = s.csr ∧ (s.nextTest die).streams = s.streams := by
  unfold State.nextTest
  simp only
  split <;> exact ⟨rfl, rfl⟩

section
variable (s : State) (d : Die)

theorem admissionComplete_idle (h : (s.die d.val).regTest = none) : exec (.admissionComplete d) s = .next s := by
  show execAdmissionComplete d s = _
  rw [execAdmissionComplete, h]

variable {a : Admission} (test : (s.die d.val).regTest = some a)
include test

/-- A registration is refused. -/
def State.regRefused (s : State) (d : Nat) (a : Admission) : State :=
  ((s.modDie d fun k => { k with regTest := none }).setF DLS_REG_CTL.STATE (16 * d + a.part) 3).setF
    DLS_REG_CTL.REASON (16 * d + a.part) a.code

theorem exec_admissionComplete_refuses (code : a.code ≠ 0) :
    exec (.admissionComplete d) s = .next ((s.regRefused d.val a).nextTest d.val) := by
  show execAdmissionComplete d s = _
  rw [execAdmissionComplete, test]
  exact if_pos code

omit test in
theorem State.regRefused_shown (d : Nat) : (s.regRefused d a).getF DLS_REG_CTL.STATE (16 * d + a.part) = 3 ∧
    (s.regRefused d a).getF DLS_REG_CTL.REASON (16 * d + a.part) = a.code % 65536 := by
  constructor
  · rw [State.regRefused, State.getF_setF_field _ DLS_REG_CTL.REASON DLS_REG_CTL.STATE _ _ (by decide) rfl (by decide)]
    exact State.getF_setF_same _ DLS_REG_CTL.STATE _ 3 (by decide)
  · exact State.getF_setF_same _ DLS_REG_CTL.REASON _ a.code (by decide)

omit test in
theorem State.regRefused_streams (d : Nat) : (s.regRefused d a).streams = s.streams :=
  (State.setF_streams _ _ _ _).trans (State.setF_streams _ _ _ _)

theorem admissionComplete_refuses (code : a.code ≠ 0) : Does (.admissionComplete d) s fun t =>
    t.getF DLS_REG_CTL.STATE (16 * d.val + a.part) = 3 ∧
      t.getF DLS_REG_CTL.REASON (16 * d.val + a.part) = a.code % 65536 ∧ t.streams = s.streams := by
  obtain ⟨csr, streams⟩ := (s.regRefused d.val a).nextTest_kept d.val
  obtain ⟨state, reason⟩ := s.regRefused_shown (a := a) d.val
  exact ⟨_, exec_admissionComplete_refuses s d test code, (State.getF_congr csr _ _).trans state,
    (State.getF_congr csr _ _).trans reason, streams.trans (s.regRefused_streams d.val)⟩

/-- A stream that passed its test is installed with its copy and the level of its session. -/
def State.regInstalled (s : State) (die : Nat) (a : Admission) : State :=
  let s := (s.modDie die fun k => { k with regTest := none }).install die a.stream a.st
  let s := match a.copy with | some c => s.install (partnerOf die) a.stream c | none => s
  let k := 256 * die + a.st.session
  if s.tookSes.look k && a.st.cls = 1 then { s.applyLevel die a.st.session a.level with tookSes := s.tookSes.put k false }
  else if s.levelOf die a.st.session < a.level then s.changeLevel die a.st.session a.level
  else s

/-- A registration is shown as admitted. -/
def State.regAdmitted (s : State) (i : Nat) (a : Admission) : State :=
  (((s.setF DLS_REG_CTL.STATE i 2).setF DLS_REG_CTL.REASON i 0).setF DLS_REG_CTL.STREAM i a.stream).setF DLS_REG_CTL.LEVEL i a.level

theorem exec_admissionComplete_admits (code : a.code = 0) : exec (.admissionComplete d) s =
    .next (((s.regInstalled d.val a).regAdmitted (16 * d.val + a.part) a).nextTest d.val) := by
  show execAdmissionComplete d s = _
  rw [execAdmissionComplete, test]
  exact if_neg (by simp [code])

omit test in
theorem State.regAdmitted_shown (i : Nat) (h : a.stream < 1024) :
    (s.regAdmitted i a).getF DLS_REG_CTL.STATE i = 2 ∧ (s.regAdmitted i a).getF DLS_REG_CTL.REASON i = 0 ∧
      (s.regAdmitted i a).getF DLS_REG_CTL.STREAM i = a.stream := by
  unfold State.regAdmitted
  refine ⟨?_, ?_, ?_⟩
  · rw [State.getF_setF_field _ DLS_REG_CTL.LEVEL DLS_REG_CTL.STATE _ _ (by decide) rfl (by decide),
      State.getF_setF_field _ DLS_REG_CTL.STREAM DLS_REG_CTL.STATE _ _ (by decide) rfl (by decide),
      State.getF_setF_field _ DLS_REG_CTL.REASON DLS_REG_CTL.STATE _ _ (by decide) rfl (by decide)]
    exact State.getF_setF_same _ DLS_REG_CTL.STATE _ 2 (by decide)
  · rw [State.getF_setF_field _ DLS_REG_CTL.LEVEL DLS_REG_CTL.REASON _ _ (by decide) rfl (by decide),
      State.getF_setF_field _ DLS_REG_CTL.STREAM DLS_REG_CTL.REASON _ _ (by decide) rfl (by decide)]
    exact State.getF_setF_same _ DLS_REG_CTL.REASON _ 0 (by decide)
  · rw [State.getF_setF_field _ DLS_REG_CTL.LEVEL DLS_REG_CTL.STREAM _ _ (by decide) rfl (by decide)]
    exact (State.getF_setF_same _ DLS_REG_CTL.STREAM _ a.stream (by decide)).trans (Nat.mod_eq_of_lt h)

theorem admissionComplete_admits (code : a.code = 0) (h : a.stream < 1024) : Does (.admissionComplete d) s fun t =>
    t.getF DLS_REG_CTL.STATE (16 * d.val + a.part) = 2 ∧ t.getF DLS_REG_CTL.REASON (16 * d.val + a.part) = 0 ∧
      t.getF DLS_REG_CTL.STREAM (16 * d.val + a.part) = a.stream := by
  have csr := (((s.regInstalled d.val a).regAdmitted (16 * d.val + a.part) a).nextTest_kept d.val).1
  obtain ⟨state, reason, stream⟩ := (s.regInstalled d.val a).regAdmitted_shown (16 * d.val + a.part) h
  exact ⟨_, exec_admissionComplete_admits s d test code, (State.getF_congr csr _ _).trans state,
    (State.getF_congr csr _ _).trans reason, (State.getF_congr csr _ _).trans stream⟩

end

/-! Gated clusters (R29, R30) -/

theorem exec_clusterGate (s : State) (c : Cluster) : exec (.clusterGate c) s =
    if (s.cluster c.val).gated || s.clusterBusy c.val || s.gateIdle (c.val / 12) = 0 then .next s
    else if s.now < (s.cluster c.val).idleSince + s.gateIdle (c.val / 12) then .next (s.armGate c.val)
    else .next (s.gate c.val) := rfl

theorem clusterGate_idle (s : State) (c : Cluster)
    (h : (s.cluster c.val).gated = true ∨ s.clusterBusy c.val = true ∨ s.gateIdle (c.val / 12) = 0) :
    exec (.clusterGate c) s = .next s := by
  rw [exec_clusterGate, if_pos]
  rcases h with h | h | h <;> simp [h]

/-- What a core of a gated cluster loses is empty. -/
def CoreSt.Lost (k : CoreSt) : Prop := k.spad = [] ∧ k.tiles = []

/-- A core loses what a gated cluster's cores lose. -/
def State.coreLost (s : State) (c : Nat) : State :=
  s.modCore c fun k => { k with spad := [], fresh := [], tiles := [], af := [], tm := [] }

theorem State.gate_eq (s : State) (cl : Nat) : s.gate cl =
    (((List.range 8).map (8 * cl + ·)).foldl State.coreLost (s.l1CleanAll ((List.range 8).map (8 * cl + ·)))).modCluster cl
      fun c => { c with icache := [], gated := true, wakingTo := none } := rfl

theorem State.coreLost_lost (s : State) (c e : Nat) (h : e = c ∨ (s.core e).Lost) : ((s.coreLost c).core e).Lost := by
  unfold State.coreLost
  rw [State.core_modCore]
  split
  · exact ⟨rfl, rfl⟩
  · next other => exact h.resolve_left other

theorem State.coresLost (l : List Nat) (s : State) : ∀ c ∈ l, ((l.foldl State.coreLost s).core c).Lost :=
  foldl_establishes (f := State.coreLost) (I := fun _ => True) (P := fun u c => (u.core c).Lost) l (fun _ _ _ _ => trivial)
    (fun u c _ _ => u.coreLost_lost c c (.inl rfl)) (fun u c _ e _ h => u.coreLost_lost c e (.inr h)) s trivial

/-- A gated cluster is empty (R29). -/
theorem State.gate_emptied (s : State) (cl : Nat) : ((s.gate cl).cluster cl).gated = true ∧ ((s.gate cl).cluster cl).icache = [] ∧
    ∀ i < 8, ((s.gate cl).core (8 * cl + i)).Lost := by
  have lost := State.coresLost ((List.range 8).map (8 * cl + ·)) (s.l1CleanAll ((List.range 8).map (8 * cl + ·)))
  rw [s.gate_eq]
  generalize List.foldl State.coreLost _ _ = u at *
  have emptied := u.cluster_modCluster_same cl fun c => { c with icache := [], gated := true, wakingTo := none }
  exact ⟨(congrArg ClusterSt.gated emptied :), (congrArg ClusterSt.icache emptied :),
    fun i hi => lost (8 * cl + i) (List.mem_map.2 ⟨i, List.mem_range.2 hi, rfl⟩)⟩

theorem clusterGate_does (s : State) (c : Cluster) (on : (s.cluster c.val).gated = false) (idle : s.clusterBusy c.val = false)
    (set : s.gateIdle (c.val / 12) ≠ 0) (due : (s.cluster c.val).idleSince + s.gateIdle (c.val / 12) ≤ s.now) :
    Does (.clusterGate c) s fun t => (t.cluster c.val).gated = true ∧ (t.cluster c.val).icache = [] ∧
      ∀ i < 8, (t.core (8 * c.val + i)).spad = [] ∧ (t.core (8 * c.val + i)).tiles = [] := by
  refine ⟨s.gate c.val, ?_, s.gate_emptied c.val⟩
  rw [exec_clusterGate, if_neg (by simp [on, idle, set]), if_neg (by omega)]

/-- Lines that come to an instruction cache: the gating of the clusters, the cores and memory stay. -/
structure Refilled (s t : State) : Prop where
  gated : ∀ c, (t.cluster c).gated = (s.cluster c).gated
  waking : ∀ c, (t.cluster c).wakingTo = (s.cluster c).wakingTo
  idle : ∀ c, (t.cluster c).idleSince = (s.cluster c).idleSince
  cores : t.cores = s.cores
  mem : t.mem = s.mem

theorem Refilled.refl (s : State) : Refilled s s := ⟨fun _ => rfl, fun _ => rfl, fun _ => rfl, rfl, rfl⟩

theorem Refilled.trans {s t u : State} (h : Refilled s t) (k : Refilled t u) : Refilled s u :=
  ⟨fun c => (k.gated c).trans (h.gated c), fun c => (k.waking c).trans (h.waking c), fun c => (k.idle c).trans (h.idle c),
    k.cores.trans h.cores, k.mem.trans h.mem⟩

theorem State.foldl_refilled {β : Type} {f : State → β → State} (l : List β) (s : State) (h : ∀ t, ∀ b ∈ l, Refilled t (f t b)) :
    Refilled s (l.foldl f s) := foldl_rel Refilled.refl Refilled.trans l s h

theorem State.icache_refilled (s : State) (cl : Nat) (l : List IcLine) :
    Refilled s (s.modCluster cl fun c => { c with icache := l }) := by
  refine ⟨fun c => ?_, fun c => ?_, fun c => ?_, rfl, rfl⟩ <;>
  · rw [State.cluster_modCluster]
    split
    · next e => rw [e]
    · rfl

theorem State.freed_refilled (s : State) : Refilled s s.freed := ⟨fun _ => rfl, fun _ => rfl, fun _ => rfl, rfl, rfl⟩

theorem State.linePut_refilled (s : State) (cl part line : Nat) (data : List Byte) : Refilled s (s.linePut cl part line data) := by
  unfold State.linePut
  extract_lets l new room
  split
  · exact s.icache_refilled cl _
  · clear_value room
    cases room with
    | nil => exact .refl s
    | cons i rest => exact s.freed_refilled.trans (s.freed.icache_refilled cl _)

theorem State.fillPins_refilled (s : State) (cl : Nat) : Refilled s (s.fillPins cl) := by
  refine State.foldl_refilled _ s fun t e _ => State.foldl_refilled _ t fun u v _ => State.foldl_refilled _ u fun w i _ => ?_
  split
  · exact .refl w
  · split
    · exact w.linePut_refilled _ _ _ _
    · exact .refl w

theorem State.reconsider_refilled (s : State) (part : Nat) : Refilled s (s.reconsider part) :=
  State.foldl_refilled _ s fun _ _ _ => ⟨fun _ => rfl, fun _ => rfl, fun _ => rfl, rfl, rfl⟩

/-- A cluster is awake. -/
def State.woken (s : State) (cl : Nat) : State := s.modCluster cl fun k => { k with gated := false, wakingTo := none, idleSince := s.now }

theorem exec_wakeComplete (s : State) (c : Cluster) : exec (.wakeComplete c) s = .next ((List.range 16).foldl
    (fun s p => if s.ownsCluster p c.val then s.reconsider p else s) ((s.woken c.val).fillPins c.val)) := rfl

theorem wakeComplete_does (s : State) (c : Cluster) : Does (.wakeComplete c) s fun t => (t.cluster c.val).gated = false ∧
    (t.cluster c.val).wakingTo = none ∧ (t.cluster c.val).idleSince = s.now ∧ t.cores = s.cores ∧ t.mem = s.mem := by
  refine ⟨_, exec_wakeComplete s c, ?_⟩
  have told : Refilled ((s.woken c.val).fillPins c.val) _ := State.foldl_refilled (List.range 16) _ fun t p _ =>
    (iteInduction (motive := Refilled t) (fun _ => t.reconsider_refilled p) fun _ => .refl t :
      Refilled t (if t.ownsCluster p c.val then t.reconsider p else t))
  obtain ⟨gated, waking, idle, cores, mem⟩ := ((s.woken c.val).fillPins_refilled c.val).trans told
  have woken : (s.woken c.val).cluster c.val = { s.cluster c.val with gated := false, wakingTo := none, idleSince := s.now } :=
    s.cluster_modCluster_same c.val _
  exact ⟨(gated _).trans (congrArg ClusterSt.gated woken :), (waking _).trans (congrArg ClusterSt.wakingTo woken :),
    (idle _).trans (congrArg ClusterSt.idleSince woken :), cores, mem⟩

/-! Walks (R187) -/

/-- Walks of a cluster but for the one of an id. -/
def State.walkGone (s : State) (cl id : Nat) : State := s.modCluster cl fun c => { c with walks := c.walks.filter (·.id ≠ id) }

theorem State.endWalk_eq (s : State) (cl id part err : Nat) : s.endWalk cl id part err =
    (if err = 0 then s.walkGone cl id else ((s.walkGone cl id).setF CCC_TG_STAT.ERR cl err).vec part 3).nextWalk cl := rfl

/-- The next walk that starts changes no register, and none of the walks' ids. -/
theorem State.nextWalk_kept (s : State) (cl : Nat) : (s.nextWalk cl).csr = s.csr ∧
    ∀ x ∈ ((s.nextWalk cl).cluster cl).walks, ∃ y ∈ (s.cluster cl).walks, x.id = y.id := by
  unfold State.nextWalk
  extract_lets l
  split
  · exact ⟨rfl, fun x hx => ⟨x, hx, rfl⟩⟩
  · split
    · next w _ =>
      refine ⟨rfl, fun x hx => ?_⟩
      have walks : _ = (s.cluster cl).walks.map _ := congrArg ClusterSt.walks (s.cluster_modCluster_same cl fun c =>
        { c with walks := c.walks.map fun x => if x.id = w.id then { x with running := true } else x })
      obtain ⟨y, hy, rfl⟩ := List.mem_map.1 (walks ▸ hx)
      refine ⟨y, hy, ?_⟩
      split <;> rfl
    · exact ⟨rfl, fun x hx => ⟨x, hx, rfl⟩⟩

theorem State.walkGone_other (s : State) (cl id : Nat) : ∀ x ∈ ((s.walkGone cl id).cluster cl).walks, x.id ≠ id := by
  intro x hx
  rw [State.walkGone, State.cluster_modCluster_same] at hx
  simpa using (List.mem_filter.1 hx).2

/-- A walk that ends shows its error, and its cluster has it no more. -/
theorem State.endWalk_ended (s : State) (cl id part err : Nat) :
    (s.endWalk cl id part err).getF CCC_TG_STAT.ERR cl = (if err = 0 then s.getF CCC_TG_STAT.ERR cl else err % 4) ∧
      ∀ x ∈ ((s.endWalk cl id part err).cluster cl).walks, x.id ≠ id := by
  rw [s.endWalk_eq]
  split
  · obtain ⟨csr, walks⟩ := (s.walkGone cl id).nextWalk_kept cl
    refine ⟨State.getF_congr csr _ _, fun x hx => ?_⟩
    obtain ⟨y, hy, same⟩ := walks x hx
    exact same ▸ s.walkGone_other cl id y hy
  · obtain ⟨o, sent⟩ := ((s.walkGone cl id).setF CCC_TG_STAT.ERR cl err).vec_spec part 3
    obtain ⟨csr, walks⟩ := (((s.walkGone cl id).setF CCC_TG_STAT.ERR cl err).vec part 3).nextWalk_kept cl
    refine ⟨(State.getF_congr csr _ _).trans ?_, fun x hx => ?_⟩
    · rw [sent]
      exact State.getF_setF_same _ CCC_TG_STAT.ERR cl err (by decide)
    · obtain ⟨y, hy, same⟩ := walks x hx
      rw [sent] at hy
      exact same ▸ s.walkGone_other cl id y hy

section
variable (s : State) (c : Cluster) (walk : Nat)

theorem tgWalkResume_gone (h : (s.cluster c.val).walks.find? (·.id = walk) = none) : exec (.tgWalkResume c walk) s = .next s := by
  show execTgWalkResume c walk s = _
  rw [execTgWalkResume, h]

variable {w : Walk} (hw : (s.cluster c.val).walks.find? (·.id = walk) = some w)
include hw

theorem exec_tgWalkResume_free (free : w.waitFor = none) :
    exec (.tgWalkResume c walk) s = .next (s.walkOn c.val w 258) := by
  show execTgWalkResume c walk s = _
  rw [execTgWalkResume, hw]
  simp only
  rw [free]

theorem exec_tgWalkResume_waits {u : Nat} (waits : w.waitFor = some u) : exec (.tgWalkResume c walk) s =
    if !(s.task u).ended then .next s
    else if (s.task u).st ≠ .committed then .next (s.endWalk c.val walk w.part 2)
    else .next (s.walkOn c.val { w with waitFor := none } 258) := by
  show execTgWalkResume c walk s = _
  rw [execTgWalkResume, hw]
  simp only
  rw [waits]

theorem tgWalkResume_early {u : Nat} (waits : w.waitFor = some u) (h : (s.task u).ended = false) :
    exec (.tgWalkResume c walk) s = .next s := by
  rw [exec_tgWalkResume_waits s c walk hw waits, if_pos (by simp [h])]

theorem tgWalkResume_fails {u : Nat} (waits : w.waitFor = some u) (h : (s.task u).st = .aborted ∨ (s.task u).st = .refused) :
    Does (.tgWalkResume c walk) s fun t =>
      t.getF CCC_TG_STAT.ERR c.val = 2 ∧ ∀ x ∈ (t.cluster c.val).walks, x.id ≠ walk := by
  refine ⟨s.endWalk c.val walk w.part 2, ?_, s.endWalk_ended c.val walk w.part 2⟩
  rw [exec_tgWalkResume_waits s c walk hw waits]
  rcases h with h | h <;> simp [Task.ended, h]

omit hw in
/-- A walk at a node of kind 0 ends without error. -/
theorem State.walkOn_ends {b : List Byte} (cl n : Nat) (steps : w.steps < 256) (node : w.node < w.tgn)
    (read : s.vread w.die w.part (w.graph + 32 * w.node) 32 0 = some b) (good : nodeBad b = false) (kind : natAt b 0 1 = 0) :
    s.walkOn cl w (n + 1) = s.endWalk cl w.id w.part 0 := by
  have inside : ¬(256 < w.steps + 1 || w.tgn ≤ w.node || nodeBad b) = true := by
    simp [good]
    omega
  rw [State.walkOn.eq_2, read]
  simp only [Option.getD_some]
  rw [if_neg inside, kind]
  rfl

theorem tgWalkResume_ends {b : List Byte} (free : w.waitFor = none) (same : w.id = walk) (steps : w.steps < 256) (node : w.node < w.tgn)
    (read : s.vread w.die w.part (w.graph + 32 * w.node) 32 0 = some b) (good : nodeBad b = false) (kind : natAt b 0 1 = 0) :
    Does (.tgWalkResume c walk) s fun t => t.getF CCC_TG_STAT.ERR c.val = s.getF CCC_TG_STAT.ERR c.val ∧
      ∀ x ∈ (t.cluster c.val).walks, x.id ≠ walk := by
  refine ⟨s.endWalk c.val walk w.part 0, ?_, s.endWalk_ended c.val walk w.part 0⟩
  rw [exec_tgWalkResume_free s c walk hw free, State.walkOn_ends s c.val 257 steps node read good kind, same]

end

/-- Settles O47: each step of the scheduler by the lemmas on its tasks, streams, launches, clusters or walks. -/
theorem taskEvents : Obligations.TaskEvents := by
  unfold Obligations.TaskEvents
  intro s
  refine ⟨?_, ?_, ?_, ?_, ?_, ?_⟩
  · intro id
    exact ⟨taskReady_idle s id, taskReady_does s id, taskLaunch_idle s id, taskLaunch_eligible s id, taskLaunch_asks s id,
      taskLaunch_variant s id, fun x ok placing occ at_ cls launch read => ⟨taskLaunch_refuses s id placing occ at_ cls read launch,
        fun none _ => taskLaunch_occupies s id placing occ at_ cls read none⟩,
      deadlineAbort_idle s id, deadlineAbort_does s id, taskCommit_idle s id, taskCommit_pass s id, taskCommit_commits s id,
      fun other => (exec_rplPassEnd s id).trans (if_neg other), fun own => ⟨_, (exec_rplPassEnd s id).trans (if_pos own),
        ((s.rplNext id).offered_eligible id 1).1, ((s.rplNext id).offered_eligible id 1).2.2⟩⟩
  · intro d n
    exact ⟨timerRelease_idle, timerRelease_early, fun valid timer stays cls copy shadow tick on rst due =>
      timerRelease_does s d n valid timer stays cls copy shadow tick on rst due⟩
  · intro l rank
    exact ⟨fun h => ⟨sisterReport_refused s l rank true h, sisterReport_refused s l rank false h⟩, sisterReport_counts s l rank,
      sisterReport_starts s l rank⟩
  · exact fun d => ⟨admissionComplete_idle s d, fun a test => admissionComplete_refuses s d test,
      fun a test => admissionComplete_admits s d test⟩
  · exact fun c => ⟨clusterGate_idle s c, clusterGate_does s c, wakeComplete_does s c⟩
  · exact fun c walk => ⟨tgWalkResume_gone s c walk, fun w u hw => tgWalkResume_early s c walk hw,
      fun w u hw => tgWalkResume_fails s c walk hw, fun w b hw => tgWalkResume_ends s c walk hw⟩

end Sys2Proof.Machine
end

section
/-! PROOFS. Host writes under the access codes (R8, R9), for O42. -/
namespace Sys2Proof.Machine

open Sys2Proof.Spec

/-! Access codes -/

theorem bits_mod_width (v hi lo : Nat) : bits v hi lo % 2 ^ (hi + 1 - lo) = bits v hi lo := Nat.mod_mod _ _

/-- A field that takes its bits of a value reads as those bits. -/
theorem State.getF_setF_bits (s : State) (f : CsrField) (i v : Nat) (h : f.hi < 128) :
    (s.setF f i (bits v f.hi f.lo)).getF f i = bits v f.hi f.lo := by
  rw [s.getF_setF_same f i _ h, bits_mod_width]

/-- A field reads as a value that fits it. -/
theorem State.getF_setF_fit (s : State) (f : CsrField) (i v : Nat) (h : f.hi < 128) (hv : v < 2 ^ (f.hi + 1 - f.lo)) :
    (s.setF f i v).getF f i = v := by
  rw [s.getF_setF_same f i v h, Nat.mod_eq_of_lt hv]

/-- A set field leaves the fields of other registers alone. -/
theorem State.getF_setF_reg (s : State) (f g : CsrField) (i j v : Nat) (h : g.reg ≠ f.reg) :
    (s.setF f i v).getF g j = s.getF g j := s.getF_setF_ne f g i j v fun e => h e.1

theorem takes_nil (t : State) (i v : Nat) : Takes t [] i v := fun _ h => nomatch h

theorem takes_cons (t : State) (f : CsrField) (l : List CsrField) (i v : Nat) :
    Takes t (f :: l) i v ↔ t.getF f i = bits v f.hi f.lo ∧ Takes t l i v := List.forall_mem_cons

/-- Two fields share no bit. -/
def CsrField.apart (f g : CsrField) : Prop := f.hi < g.lo ∨ g.hi < f.lo

theorem CsrField.apart.symm {f g : CsrField} (h : f.apart g) : g.apart f := Or.symm h

/-- The fields of a register lie in it, and no two of them meet. -/
theorem csrFields_apart (c : Csr) : (csrFields c).Pairwise CsrField.apart ∧ ∀ f ∈ csrFields c, f.reg = c ∧ f.hi < 128 := by
  unfold CsrField.apart
  cases c <;> decide

/-- A write under the access code of one field. -/
def State.storeField (i : Nat) (v : BitVec 128) (skip : CsrField → Bool) (s : State) (f : CsrField) : State :=
  if skip f then s
  else
    match f.acc with
    | .rw => s.setF f i (bits v.toNat f.hi f.lo)
    | .w1c => s.setF f i (s.getF f i - Nat.land (s.getF f i) (bits v.toNat f.hi f.lo))
    | .ro | .wo => s

theorem State.storeReg_eq (s : State) (c : Csr) (i : Nat) (v : BitVec 128) (skip : CsrField → Bool) :
    s.storeReg c i v skip = (csrFields c).foldl (State.storeField i v skip) s := rfl

section
variable (s : State) (c : Csr) (i : Nat) (v : BitVec 128) (skip : CsrField → Bool)

/-- A write of a field sets it or changes nothing. -/
theorem State.storeField_cases (f : CsrField) : s.storeField i v skip f = s ∨ ∃ x, s.storeField i v skip f = s.setF f i x := by
  unfold State.storeField
  split
  · exact .inl rfl
  split
  · exact .inr ⟨_, rfl⟩
  · exact .inr ⟨_, rfl⟩
  all_goals exact .inl rfl

theorem State.storeField_csrOnly (f : CsrField) : CsrOnly s (s.storeField i v skip f) := by
  obtain h | ⟨x, h⟩ := s.storeField_cases i v skip f <;> rw [h]
  · exact .refl s
  · exact s.setF_csrOnly f i x

theorem State.storeField_apart {f g : CsrField} (hf : f.hi < 128) (hr : g.reg = f.reg) (h : f.apart g) :
    (s.storeField i v skip f).getF g i = s.getF g i := by
  obtain e | ⟨x, e⟩ := s.storeField_cases i v skip f <;> rw [e]
  exact s.getF_setF_field f g i x hf hr h.symm

theorem State.storeReg_csrOnly : CsrOnly s (s.storeReg c i v skip) :=
  foldl_rel CsrOnly.refl CsrOnly.trans _ _ fun t f _ => t.storeField_csrOnly i v skip f

/-- A write of a register leaves every other register alone. -/
theorem State.storeReg_csrVal (d : Csr) (j : Nat) (h : ¬(d = c ∧ j = i)) :
    (s.storeReg c i v skip).csrVal d j = s.csrVal d j := by
  refine foldl_keeps (f := State.storeField i v skip) (P := fun t : State => t.csrVal d j = s.csrVal d j) _
    (fun t f hf ht => ?_) s rfl
  obtain e | ⟨x, e⟩ := t.storeField_cases i v skip f <;> rw [e]
  · exact ht
  · rw [← ht]
    refine t.csrVal_csrPut_ne _ _ _ _ _ ?_
    rw [((csrFields_apart c).2 f hf).1]
    exact h

/-- Writes of fields apart from `g` leave it alone. -/
theorem State.storeFields_apart (l : List CsrField) (g : CsrField) (h : ∀ f ∈ l, f.hi < 128 ∧ g.reg = f.reg ∧ f.apart g) :
    (l.foldl (State.storeField i v skip) s).getF g i = s.getF g i :=
  foldl_keeps (f := State.storeField i v skip) (P := fun t : State => t.getF g i = s.getF g i) l
    (fun t f hf ht => (t.storeField_apart i v skip (h f hf).1 (h f hf).2.1 (h f hf).2.2).trans ht) s rfl

/-- A field of a written register is what its own write makes of it. -/
theorem State.storeReg_getF (f : CsrField) (hf : f ∈ csrFields c) :
    (s.storeReg c i v skip).getF f i = (s.storeField i v skip f).getF f i := by
  obtain ⟨pairs, inside⟩ := csrFields_apart c
  obtain ⟨l, r, e⟩ := List.append_of_mem hf
  rw [e] at pairs inside
  obtain ⟨_, tail, before⟩ := List.pairwise_append.1 pairs
  have after := (List.pairwise_cons.1 tail).1
  obtain ⟨reg, width⟩ := inside f (by simp)
  have left : (l.foldl (State.storeField i v skip) s).getF f i = s.getF f i := by
    refine s.storeFields_apart i v skip l f fun g hg => ?_
    obtain ⟨greg, gwidth⟩ := inside g (by simp [hg])
    exact ⟨gwidth, reg.trans greg.symm, before g hg f (by simp)⟩
  rw [State.storeReg_eq, e, List.foldl_append, List.foldl_cons, State.storeFields_apart]
  · generalize l.foldl (State.storeField i v skip) s = t at left ⊢
    unfold State.storeField
    split
    · exact left
    split
    · rw [t.getF_setF_same _ _ _ width, s.getF_setF_same _ _ _ width]
    · rw [t.getF_setF_same _ _ _ width, s.getF_setF_same _ _ _ width, left]
    all_goals exact left
  · intro g hg
    obtain ⟨greg, gwidth⟩ := inside g (by simp [hg])
    exact ⟨gwidth, reg.trans greg.symm, (after g hg).symm⟩

/-- A written field with code RW takes its bits. -/
theorem State.storeReg_rw (f : CsrField) (hf : f ∈ csrFields c) (code : f.acc = .rw) (h : skip f = false) :
    (s.storeReg c i v skip).getF f i = bits v.toNat f.hi f.lo := by
  rw [s.storeReg_getF c i v skip f hf, State.storeField, h, code]
  exact s.getF_setF_bits f i _ ((csrFields_apart c).2 f hf).2

/-- A field that a write passes over, or that is not written, stays. -/
theorem State.storeReg_stays (f : CsrField) (hf : f ∈ csrFields c) (h : skip f = true ∨ f.acc = .ro) :
    (s.storeReg c i v skip).getF f i = s.getF f i := by
  rw [s.storeReg_getF c i v skip f hf, State.storeField]
  rcases h with h | h <;> simp [h]

end

/-! A register write of the opcode table, through the physical function -/

theorem does_hostWrite {i : Instr} {s : State} {P : State → Prop} (c : Csr) (n : Nat) (v : BitVec 128) (up : s.hostUp = true)
    (hn : n < csrCount c) (he : exec i s = .next (s.hostWrite 0 c n v)) (hp : P (s.putReg 0 c n v)) : Does i s P := by
  refine ⟨_, he.trans (congrArg Host.Outcome.next ?_), hp⟩
  unfold State.hostWrite
  rw [if_neg (by omega), if_pos rfl, if_pos up]

theorem setWidth_toNat (v : BitVec 64) : (v.setWidth 128).toNat = v.toNat := by
  rw [BitVec.toNat_setWidth]
  exact Nat.mod_eq_of_lt (by have := v.isLt; omega)

theorem bits_of_bit {x n : Nat} (h : bit x n = true) : bits x n n = 1 := by
  rw [bit, beq_iff_eq] at h
  rw [bits, Nat.add_sub_cancel_left]
  exact h

theorem bit_toNat {w : Nat} (v : BitVec w) (n : Nat) : bit v.toNat n = v.getLsbD n := by
  rw [BitVec.getLsbD, Nat.testBit_eq_decide_div_mod_eq, bit]
  rfl

end Sys2Proof.Machine
end

section
/-! PROOFS. Register writes of the link, time, ownership, the start and snapshots (R37, R43, R53, R71, R81, R97 to R102), for O42. -/
namespace Sys2Proof.Machine

open Sys2Proof.Spec

/-! The link's registers (R37, R43, R53) -/

section
variable (s : State)

/-- A written window but for EN (R43). -/
def State.winPut (s : State) (w x : Nat) : State :=
  let s := if bit x 1 then s.setF FAB_WIN.ERR w 0 else s
  (((s.setF FAB_WIN.SIZE w (bits x 107 88)).setF FAB_WIN.BASE w (bits x 87 69)).setF FAB_WIN.TAG w (bits x 63 48)).setF
    FAB_WIN.PRT w (bits x 7 4)

theorem State.wrFabWin_eq (w : Nat) (v : BitVec 128) : s.wrFabWin w v =
    if bits v.toNat 107 88 = 0 then ((s.winPut w v.toNat).setF FAB_WIN.EN w 0).setF FAB_WIN.ERR w 1
    else (s.winPut w v.toNat).setF FAB_WIN.EN w (bits v.toNat 0 0) := rfl

theorem State.winPut_takes (w x : Nat) :
    Takes (s.winPut w x) [FAB_WIN.SIZE, FAB_WIN.BASE, FAB_WIN.TAG, FAB_WIN.PRT] w x := by
  have size := State.getF_setF_bits (if bit x 1 then s.setF FAB_WIN.ERR w 0 else s) FAB_WIN.SIZE w x (by decide)
  have base := fun t : State => t.getF_setF_bits FAB_WIN.BASE w x (by decide)
  have tag := fun t : State => t.getF_setF_bits FAB_WIN.TAG w x (by decide)
  have prt := fun t : State => t.getF_setF_bits FAB_WIN.PRT w x (by decide)
  simp (disch := decide) only [takes_cons, takes_nil, State.winPut, State.getF_setF_field, and_true]
  exact ⟨size, base _, tag _, prt _⟩

/-- A written window takes its fields; one of size 0 stays disabled (R43). -/
theorem State.wrFabWin_takes (w : Nat) (v : BitVec 128) :
    Takes (s.wrFabWin w v) [FAB_WIN.SIZE, FAB_WIN.BASE, FAB_WIN.TAG, FAB_WIN.PRT] w v.toNat ∧
    (s.wrFabWin w v).getF FAB_WIN.EN w = (if bits v.toNat 107 88 = 0 then 0 else bits v.toNat 0 0) ∧
    (bits v.toNat 107 88 = 0 → (s.wrFabWin w v).getF FAB_WIN.ERR w = 1) := by
  have put := s.winPut_takes w v.toNat
  rw [s.wrFabWin_eq]
  generalize s.winPut w v.toNat = t at put
  by_cases size : bits v.toNat 107 88 = 0
  · rw [if_pos size, if_pos size]
    refine ⟨?_, ?_, fun _ => State.getF_setF_fit _ FAB_WIN.ERR w 1 (by decide) (by decide)⟩
    · simpa (disch := decide) only [takes_cons, takes_nil, State.getF_setF_field] using put
    · rw [State.getF_setF_field _ FAB_WIN.ERR FAB_WIN.EN w 1 (by decide) rfl (by decide)]
      exact t.getF_setF_fit FAB_WIN.EN w 0 (by decide) (by decide)
  · rw [if_neg size, if_neg size]
    refine ⟨?_, t.getF_setF_bits FAB_WIN.EN w v.toNat (by decide), fun none => absurd none size⟩
    simpa (disch := decide) only [takes_cons, takes_nil, State.getF_setF_field] using put

theorem fabWinWrite_does (up : s.hostUp = true) (w : Fin 64) (v : BitVec 128) : Does (.fabWinWrite 0 w v) s fun t =>
    Takes t [FAB_WIN.SIZE, FAB_WIN.BASE, FAB_WIN.TAG, FAB_WIN.PRT] w.val v.toNat ∧
    t.getF FAB_WIN.EN w.val = (if bits v.toNat 107 88 = 0 then 0 else bits v.toNat 0 0) ∧
    (bits v.toNat 107 88 = 0 → t.getF FAB_WIN.ERR w.val = 1) :=
  does_hostWrite .FAB_WIN w.val v up w.isLt rfl (s.wrFabWin_takes w.val v)

/-- The registers with both fields of BWS_FAB_IN taken. -/
def State.fabInPut (s : State) (n x : Nat) : State :=
  (s.setF BWS_FAB_IN.FAST n (bits x 9 0)).setF BWS_FAB_IN.SLOW n (bits x 25 16)

theorem State.fabInPut_takes (n x : Nat) : Takes (s.fabInPut n x) [BWS_FAB_IN.FAST, BWS_FAB_IN.SLOW] n x := by
  simp (disch := decide) only [takes_cons, takes_nil, State.fabInPut, State.getF_setF_field, and_true]
  exact ⟨s.getF_setF_bits BWS_FAB_IN.FAST n x (by decide), State.getF_setF_bits _ BWS_FAB_IN.SLOW n x (by decide)⟩

theorem State.fabInPut_other (n x : Nat) (f : CsrField) (j : Nat) (h : f.reg ≠ .BWS_FAB_IN) :
    (s.fabInPut n x).getF f j = s.getF f j := by
  rw [State.fabInPut, State.getF_setF_reg _ _ _ _ _ _ h, State.getF_setF_reg _ _ _ _ _ _ h]

/-- The slots that a fabric may take fit its stack's frame. -/
def State.fabFits (s : State) (n x : Nat) : Prop :=
  (s.fabInPut n x).slotSum (n / 16) 0 [] s.levelOf none ≤ s.getF BWS_FRAME_CFG.FAST (n / 16) ∧
    (s.fabInPut n x).slotSum (n / 16) 1 [] s.levelOf none ≤ s.getF BWS_FRAME_CFG.SLOW (n / 16)

theorem State.fabInPut_levelOf (n x : Nat) : (s.fabInPut n x).levelOf = s.levelOf := by
  funext d i
  exact s.fabInPut_other n x DLS_SES.LEVEL _ (by decide)

theorem State.wrFabIn_eq (n : Nat) (v : BitVec 128) [Decidable (s.fabFits n v.toNat)] : s.wrFabIn n v =
    if s.fabFits n v.toNat then s.fabInPut n v.toNat else s.setF BWS_USE.ERR (n / 16) 1 := by
  have full : s.wrFabIn n v =
    if (s.fabInPut n v.toNat).getF BWS_FRAME_CFG.FAST (n / 16) <
        (s.fabInPut n v.toNat).slotSum (n / 16) 0 [] (s.fabInPut n v.toNat).levelOf none ||
        (s.fabInPut n v.toNat).getF BWS_FRAME_CFG.SLOW (n / 16) <
          (s.fabInPut n v.toNat).slotSum (n / 16) 1 [] (s.fabInPut n v.toNat).levelOf none then s.setF BWS_USE.ERR (n / 16) 1
    else s.fabInPut n v.toNat := rfl
  rw [full, s.fabInPut_levelOf, s.fabInPut_other n _ _ _ (by decide), s.fabInPut_other n _ _ _ (by decide)]
  by_cases fits : s.fabFits n v.toNat
  · rw [if_pos fits, if_neg]
    simpa [State.fabFits, not_lt] using fits
  · rw [if_neg fits, if_pos]
    simpa [State.fabFits, imp_iff_not_or, not_le] using fits

theorem State.wrFabIn_takes {n : Nat} {v : BitVec 128} (fits : s.fabFits n v.toNat) :
    Takes (s.wrFabIn n v) [BWS_FAB_IN.FAST, BWS_FAB_IN.SLOW] n v.toNat := by
  classical
  rw [s.wrFabIn_eq, if_pos fits]
  exact s.fabInPut_takes n v.toNat

theorem State.wrFabIn_refused {n : Nat} {v : BitVec 128} (full : ¬s.fabFits n v.toNat) :
    (s.wrFabIn n v).getF BWS_USE.ERR (n / 16) = 1 ∧ (s.wrFabIn n v).csrVal .BWS_FAB_IN n = s.csrVal .BWS_FAB_IN n := by
  classical
  rw [s.wrFabIn_eq, if_neg full]
  exact ⟨s.getF_setF_fit BWS_USE.ERR _ 1 (by decide) (by decide), s.csrVal_csrPut_ne _ _ _ _ _ fun e => by cases e.1⟩

theorem bwsFabInWrite_takes (up : s.hostUp = true) (n : Fin 128) (v : BitVec 64) (fits : s.fabFits n.val v.toNat) :
    Does (.bwsFabInWrite 0 n v) s fun t => Takes t [BWS_FAB_IN.FAST, BWS_FAB_IN.SLOW] n.val v.toNat := by
  rw [← setWidth_toNat v] at fits ⊢
  exact does_hostWrite .BWS_FAB_IN n.val (v.setWidth 128) up n.isLt rfl (s.wrFabIn_takes fits)

theorem bwsFabInWrite_refused (up : s.hostUp = true) (n : Fin 128) (v : BitVec 64) (full : ¬s.fabFits n.val v.toNat) :
    Does (.bwsFabInWrite 0 n v) s fun t => t.getF BWS_USE.ERR (n.val / 16) = 1 ∧
      t.csrVal .BWS_FAB_IN n.val = s.csrVal .BWS_FAB_IN n.val := by
  rw [← setWidth_toNat v] at full
  exact does_hostWrite .BWS_FAB_IN n.val (v.setWidth 128) up n.isLt rfl (s.wrFabIn_refused full)

@[simp] theorem State.trainEnd_csr (p : Nat) : (s.trainEnd p).csr = s.csr := by
  unfold State.trainEnd
  simp only
  split <;> rfl

@[simp] theorem State.atFrame_csr : s.atFrame.csr = s.csr := by
  unfold State.atFrame
  split <;> rfl

/-- A port that trains shows it (R53). -/
theorem State.startTraining_state (p : Nat) : (s.startTraining p).getF FAB_PORT_STAT.STATE p = 1 := by
  have state := fun t : State => t.getF_setF_fit FAB_PORT_STAT.STATE p 1 (by decide) (by decide)
  unfold State.startTraining State.portDown
  split
  · rw [State.getF_congr (State.atFrame_csr _), State.getF_congr (State.trainEnd_csr _ p)]
    exact state (s.setF FAB_PORT_STAT.REASON p 0)
  · rw [State.getF_congr (State.trainEnd_csr _ p),
      State.getF_setF_field _ FAB_PORT_STAT.REASON FAB_PORT_STAT.STATE _ _ (by decide) rfl (by decide)]
    exact state s

theorem retrain_does (up : s.hostUp = true) (p : Port) :
    Does (.retrain 0 p 1) s fun t => t.getF FAB_PORT_STAT.STATE p.val = 1 :=
  does_hostWrite .FAB_PORT_CTL p.val 1 up p.isLt rfl (s.startTraining_state p.val)

end

/-! Steps of the clock, ownership and restarts (R71, R81, R97, R98) -/

section
variable (s : State) (up : s.hostUp = true)
include up

theorem ptcStep_refused (v : BitVec 64) (go : v.getLsbD 0 = true) (busy : s.anyAdmitted = true) :
    Does (.ptcStep 0 v) s fun t => t.getF PTC_STAT.STEPREF 0 = 1 ∧ t.ptp = s.ptp := by
  refine does_hostWrite .PTC_CTL 0 (v.setWidth 128) up (by decide) rfl ?_
  show (s.wrPtcCtl _).getF _ _ = 1 ∧ (s.wrPtcCtl _).ptp = _
  rw [State.wrPtcCtl, setWidth_toNat, bit_toNat, go, busy]
  exact ⟨s.getF_setF_same PTC_STAT.STEPREF 0 1 (by decide), rfl⟩

theorem ptcStep_pends (v : BitVec 64) (go : v.getLsbD 0 = true) (idle : s.anyAdmitted = false) :
    Does (.ptcStep 0 v) s fun t => t.ptp.stepPending = true := by
  refine does_hostWrite .PTC_CTL 0 (v.setWidth 128) up (by decide) rfl ?_
  show (s.wrPtcCtl _).ptp.stepPending = true
  rw [State.wrPtcCtl, setWidth_toNat, bit_toNat, go, idle]
  rfl

theorem sjClear_does : Does (.sjClear 0 1) s fun t => t.sjClear = true ∧ t.csr = s.csr :=
  does_hostWrite .SJ_CTL 0 1 up (by decide) rfl ⟨rfl, rfl⟩

end

/-- The mask register of what a partition owns. -/
def ownerMask (ways : Bool) : CsrField := if ways then PRT_LLC_WAYS.MASK else PRT_CLUSTERS.MASK

/-- While nothing is scrubbed, a partition that owns nothing takes a mask that meets no other (R81). -/
theorem State.wrOwner_fresh (s : State) (ways : Bool) (p : Nat) (v : BitVec 128) (none : s.getF (ownerMask ways) p = 0)
    (still : s.scrubbing = []) : s.wrOwner ways p v =
      if Nat.land (bits v.toNat (ownerMask ways).hi 0) (s.ownedElse (ownerMask ways) p) ≠ 0 then s.setF PRT_STAT.CFGERR p 1
      else s.setF (ownerMask ways) p (bits v.toNat (ownerMask ways).hi 0) := by
  unfold ownerMask at *
  have zero : ∀ x, Nat.land 0 x = 0 := Nat.zero_and
  have zero' : ∀ x, Nat.land x 0 = 0 := Nat.and_zero
  have nobit : ∀ c, bit 0 c = false := fun c => by simp [bit]
  unfold State.wrOwner
  simp only [none, still, zero, Nat.sub_zero, List.foldl_nil, zero', ne_eq, not_true_eq_false, decide_false, Bool.or_false,
    nobit, Bool.false_and, List.any_eq_false.2 (fun _ _ => Bool.false_ne_true), Bool.and_false, if_true, decide_eq_true_eq]

section
variable (s : State) (up : s.hostUp = true) (ways : Bool) (p : Part) (v : BitVec 128)
include up

theorem prtOwnershipWrite_does {P : State → Prop} (h : P (s.wrOwner ways p.val v)) : Does (.prtOwnershipWrite 0 ways p v) s P := by
  cases ways with
  | false => exact does_hostWrite .PRT_CLUSTERS p.val v up p.isLt rfl h
  | true => exact does_hostWrite .PRT_LLC_WAYS p.val v up p.isLt rfl h

theorem prtOwnershipWrite_refused (none : s.getF (ownerMask ways) p.val = 0) (still : s.scrubbing = [])
    (meet : Nat.land (bits v.toNat (ownerMask ways).hi 0) (s.ownedElse (ownerMask ways) p.val) ≠ 0) :
    Does (.prtOwnershipWrite 0 ways p v) s fun t =>
      t.getF (ownerMask ways) p.val = s.getF (ownerMask ways) p.val ∧ t.getF PRT_STAT.CFGERR p.val = 1 := by
  refine prtOwnershipWrite_does s up ways p v ?_
  rw [s.wrOwner_fresh ways p.val v none still, if_pos meet]
  exact ⟨s.getF_setF_reg _ _ _ _ _ (by cases ways <;> decide), s.getF_setF_same PRT_STAT.CFGERR _ 1 (by decide)⟩

theorem prtOwnershipWrite_takes (none : s.getF (ownerMask ways) p.val = 0) (still : s.scrubbing = [])
    (free : Nat.land (bits v.toNat (ownerMask ways).hi 0) (s.ownedElse (ownerMask ways) p.val) = 0) :
    Does (.prtOwnershipWrite 0 ways p v) s fun t =>
      t.getF (ownerMask ways) p.val = bits v.toNat (ownerMask ways).hi 0 ∧ t.scrubbing = [] := by
  refine prtOwnershipWrite_does s up ways p v ?_
  rw [s.wrOwner_fresh ways p.val v none still, if_neg (not_not.2 free)]
  have lo : (ownerMask ways).lo = 0 := by cases ways <;> rfl
  have taken := s.getF_setF_bits (ownerMask ways) p.val v.toNat (by cases ways <;> decide)
  rw [lo] at taken
  exact ⟨taken, still⟩

end

/-! A restart keeps no stream (R98) -/

/-- A change that leaves the streams alone. -/
structure StreamsKept (s t : State) : Prop where
  streams : t.streams = s.streams

theorem StreamsKept.refl (s : State) : StreamsKept s s := ⟨rfl⟩

theorem StreamsKept.trans {s t u : State} (h : StreamsKept s t) (k : StreamsKept t u) : StreamsKept s u :=
  ⟨k.streams.trans h.streams⟩

theorem State.setF_streamsKept (s : State) (f : CsrField) (i v : Nat) : StreamsKept s (s.setF f i v) := ⟨s.setF_streams f i v⟩

theorem State.csrPut_streamsKept (s : State) (c : Csr) (i : Nat) (v : BitVec 128) : StreamsKept s (s.csrPut c i v) :=
  ⟨s.csrPut_streams c i v⟩

theorem State.modDie_streamsKept (s : State) (d : Nat) (f : DieSt → DieSt) : StreamsKept s (s.modDie d f) := ⟨s.modDie_streams d f⟩

theorem State.sched_streamsKept (s : State) (time ph : Nat) (ev : Ev) : StreamsKept s (s.sched time ph ev) :=
  ⟨s.sched_streams time ph ev {} []⟩

theorem State.record_streamsKept (s : State) (d n event : Nat) (img : Bool) (code : BitVec 16) :
    StreamsKept s (s.record d n event img code) := by
  obtain ⟨j, o, h⟩ := s.record_spec d n event img code
  rw [h]
  exact ⟨rfl⟩

theorem foldl_streamsKept {β : Type} {f : State → β → State} (l : List β) (s : State) (h : ∀ t, ∀ b ∈ l, StreamsKept t (f t b)) :
    StreamsKept s (l.foldl f s) := foldl_rel StreamsKept.refl StreamsKept.trans l s h

theorem State.markDie_streamsKept (s : State) (l : List Nat) (d : Nat) : StreamsKept s (s.markDie l d) := by
  refine foldl_streamsKept l s fun t n _ => ?_
  simp only
  split
  · split
    · exact .refl t
    · exact t.setF_streamsKept _ _ _
  · exact .refl t

theorem State.beginStep_streamsKept (s : State) (d k n : Nat) : StreamsKept s (s.beginStep d k n) := by
  induction k generalizing s n with
  | zero => exact .refl s
  | succ k ih =>
    unfold State.beginStep
    split
    · exact (s.record_streamsKept _ _ _ _ _).trans (ih _ _)
    split
    · exact (s.record_streamsKept _ _ _ _ _).trans (ih _ _)
    simp only
    split
    · exact ((s.modDie_streamsKept d _).trans (State.record_streamsKept _ _ _ _ _ _)).trans (State.sched_streamsKept _ _ _ _)
    · exact (s.modDie_streamsKept d _).trans (State.record_streamsKept _ _ _ _ _ _)

theorem State.startDie_streamsKept (img : Bool) (s : State) (d : Nat) : StreamsKept s (s.startDie img d) := by
  unfold State.startDie
  split
  · exact .refl s
  split
  · exact (s.modDie_streamsKept d _).trans (State.record_streamsKept _ _ _ _ _ _)
  · exact (s.modDie_streamsKept d _).trans (State.beginStep_streamsKept _ _ _ _)

theorem State.startRest_streamsKept (s : State) (stuck : Bool) : StreamsKept s (s.startRest stuck) := by
  unfold State.startRest
  split
  · exact (s.setF_streamsKept SJ_STAT.RECOVERY 0 1).trans (State.record_streamsKept _ _ _ _ _ _)
  · exact foldl_streamsKept _ s fun t d _ => t.startDie_streamsKept _ d

theorem State.lastNoted_streamsKept (s : State) : StreamsKept s s.lastNoted := by
  unfold State.lastNoted
  split
  · exact ((s.setF_streamsKept _ _ _).trans (State.setF_streamsKept _ _ _ _)).trans (State.setF_streamsKept _ _ _ _)
  · exact .refl s

theorem State.marksCleared_streamsKept (s : State) : StreamsKept s s.marksCleared := by
  unfold State.marksCleared
  split
  · exact ⟨(foldl_streamsKept (f := fun s d => s.setF SJ_MARKS.MARKS d 0) (List.range 4) s fun t d _ =>
      t.setF_streamsKept SJ_MARKS.MARKS d 0).streams⟩
  · exact .refl s

theorem State.marked_streamsKept (s : State) (prev : Nat) : StreamsKept s (s.marked prev) :=
  foldl_streamsKept _ s fun t d _ => t.markDie_streamsKept _ d

theorem State.startBoot_streamsKept (s : State) : StreamsKept s s.startBoot := by
  rw [s.startBoot_eq]
  have marks := (s.lastNoted_streamsKept.trans s.lastNoted.marksCleared_streamsKept).trans
    (s.lastNoted.marksCleared.marked_streamsKept (s.getF SJ_STAT.BOOT 0))
  exact (marks.trans (State.setF_streamsKept _ SJ_STAT.BOOT 0 _)).trans (State.startRest_streamsKept _ _)

theorem State.keepStops_streamsKept (s t : State) : StreamsKept t (s.keepStops t) := by
  refine foldl_streamsKept _ t fun u d _ => ?_
  have count := u.setF_streamsKept DLS_THERM_STAT.FREEZECNT d (s.getF DLS_THERM_STAT.FREEZECNT d)
  simp only
  split
  · exact (count.trans (State.setF_streamsKept _ _ _ _)).trans (State.modDie_streamsKept _ _ _)
  · exact count

theorem State.goesOn_streams (s t : State) : (s.goesOn t).streams = t.streams := rfl

theorem State.restart_streams (s : State) : s.restart.streams = [] := by
  have marks : StreamsKept (s.keptBase.setF SJ_STAT.BOOT 0 (s.getF SJ_STAT.BOOT 0)) s.kept :=
    foldl_streamsKept (f := fun t d => t.csrPut .SJ_MARKS d (s.csrVal .SJ_MARKS d)) (List.range 4) _
      fun t d _ => t.csrPut_streamsKept _ d _
  have regs : StreamsKept s.kept s.restartKept := by
    have cfg := (s.keepStops_streamsKept s.kept).trans (State.csrPut_streamsKept _ .SJ_CFG 0 (s.csrVal .SJ_CFG 0))
    have clock := foldl_streamsKept (f := fun t c => t.csrPut c 0 (s.csrVal c 0)) clockRegs
      ((s.keepStops s.kept).csrPut .SJ_CFG 0 (s.csrVal .SJ_CFG 0)) fun t c _ => t.csrPut_streamsKept c 0 (s.csrVal c 0)
    exact cfg.trans clock
  rw [s.restart_eq, (s.goesOn s.restartKept).startBoot_streamsKept.streams, State.goesOn_streams, regs.streams, marks.streams, State.setF_streams]
  rfl

theorem State.wrSjCtl_restart (s : State) (v : BitVec 128) (clear : bit v.toNat 0 = false) (go : bit v.toNat 1 = true) :
    s.wrSjCtl v = s.restart := by
  simp only [State.wrSjCtl, clear, go, if_true, if_neg Bool.false_ne_true]

theorem State.restart_does (s : State) : s.restart.now = s.now ∧ s.restart.tickBase = s.tickBase ∧ s.restart.mem = s.mem ∧
    s.restart.tasks = [] ∧ s.restart.streams = [] ∧
    s.restart.getF SJ_STAT.BOOT 0 = (s.getF SJ_STAT.BOOT 0 + 1) % 2 ^ 32 := by
  obtain ⟨boot, mem, base, now, tasks⟩ := s.restart_restarted
  exact ⟨now, base, mem, tasks, s.restart_streams, boot⟩

theorem sjRestart_does (s : State) (up : s.hostUp = true) (v : BitVec 64) (clear : v.getLsbD 0 = false) (go : v.getLsbD 1 = true) :
    Does (.sjRestart 0 v) s fun t => t.now = s.now ∧ t.tickBase = s.tickBase ∧ t.mem = s.mem ∧ t.tasks = [] ∧ t.streams = [] ∧
      t.getF SJ_STAT.BOOT 0 = (s.getF SJ_STAT.BOOT 0 + 1) % 2 ^ 32 := by
  have put : s.putReg 0 .SJ_CTL 0 (v.setWidth 128) = s.restart :=
    s.wrSjCtl_restart (v.setWidth 128) (by rw [setWidth_toNat, bit_toNat, clear]) (by rw [setWidth_toNat, bit_toNat, go])
  refine does_hostWrite .SJ_CTL 0 (v.setWidth 128) up (by decide) rfl ?_
  rw [put]
  exact s.restart_does

/-! Images, reports and snapshots (R98 to R102) -/

section
variable (s : State)

/-- The fields of SJ_IMG_CTL taken. -/
def State.imgPut (s : State) (x : Nat) : State :=
  ((s.setF SJ_IMG_CTL.SRC 0 (bits x 63 12)).setF SJ_IMG_CTL.LEN 0 (bits x 11 4)).setF SJ_IMG_CTL.SLOT 0 (bits x 3 3)

theorem State.wrImg_go (v : BitVec 128) (idle : s.getF SJ_IMG_CTL.STATE 0 ≠ 1) (go : bit v.toNat 0 = true) :
    s.wrImg v = (s.imgPut v.toNat).setF SJ_IMG_CTL.STATE 0 1 := by
  have state : (s.imgPut v.toNat).getF SJ_IMG_CTL.STATE 0 = s.getF SJ_IMG_CTL.STATE 0 := by
    simp (disch := decide) only [State.imgPut, State.getF_setF_field]
  have all : s.wrImg v = if bit v.toNat 0 && (s.imgPut v.toNat).getF SJ_IMG_CTL.STATE 0 ≠ 1 then
    (s.imgPut v.toNat).setF SJ_IMG_CTL.STATE 0 1 else s.imgPut v.toNat := rfl
  rw [all, state, go, if_pos (by simp [idle])]

theorem sjImgGo_does (up : s.hostUp = true) (v : BitVec 64) (idle : s.getF SJ_IMG_CTL.STATE 0 ≠ 1) (go : v.getLsbD 0 = true) :
    Does (.sjImgGo 0 v) s fun t => t.getF SJ_IMG_CTL.STATE 0 = 1 ∧
      Takes t [SJ_IMG_CTL.SRC, SJ_IMG_CTL.LEN, SJ_IMG_CTL.SLOT] 0 v.toNat := by
  refine does_hostWrite .SJ_IMG_CTL 0 (v.setWidth 128) up (by decide) rfl ?_
  show (s.wrImg _).getF _ _ = 1 ∧ Takes (s.wrImg _) _ _ _
  rw [s.wrImg_go _ idle (by rw [setWidth_toNat, bit_toNat, go]), setWidth_toNat]
  refine ⟨State.getF_setF_same _ SJ_IMG_CTL.STATE 0 1 (by decide), ?_⟩
  simp (disch := decide) only [takes_cons, takes_nil, State.imgPut, State.getF_setF_field, and_true]
  exact ⟨State.getF_setF_bits _ SJ_IMG_CTL.SRC 0 _ (by decide), State.getF_setF_bits _ SJ_IMG_CTL.LEN 0 _ (by decide),
    State.getF_setF_bits _ SJ_IMG_CTL.SLOT 0 _ (by decide)⟩

/-- The report of a partition is started. -/
def State.attPut (s : State) (p x : Nat) : State :=
  (s.setF PRT_ATT_CTL.DEST p (bits x 63 6)).setF PRT_ATT_CTL.STATE p 1

theorem State.wrAtt_go (p : Nat) (v : BitVec 128) (idle : s.getF PRT_ATT_CTL.STATE p ≠ 1) (go : bit v.toNat 0 = true) :
    s.wrAtt p v = (s.attPut p v.toNat).schedWithin 20000000 phHost (.attReport (Fin.ofNat 16 p)) := by
  unfold State.wrAtt
  simp only
  rw [if_neg (by simp [idle, go])]
  rfl

theorem attGo_does (up : s.hostUp = true) (p : Part) (v : BitVec 64) (idle : s.getF PRT_ATT_CTL.STATE p.val ≠ 1)
    (go : v.getLsbD 0 = true) : Does (.attGo 0 p v) s fun t =>
      t.getF PRT_ATT_CTL.STATE p.val = 1 ∧ t.getF PRT_ATT_CTL.DEST p.val = bits v.toNat 63 6 ∧
      Pending s t (.attReport p) 20000000 := by
  refine does_hostWrite .PRT_ATT_CTL p.val (v.setWidth 128) up p.isLt rfl ?_
  show (s.wrAtt _ _).getF _ _ = 1 ∧ (s.wrAtt _ _).getF _ _ = _ ∧ Pending s (s.wrAtt _ _) _ _
  rw [s.wrAtt_go _ _ idle (by rw [setWidth_toNat, bit_toNat, go]), setWidth_toNat, Fin.ofNat_val_eq_self]
  refine ⟨State.getF_setF_same _ PRT_ATT_CTL.STATE _ 1 (by decide), ?_, (s.attPut p.val v.toNat).schedWithin_pending _ _ _ (by decide)⟩
  exact (State.getF_setF_field _ PRT_ATT_CTL.STATE PRT_ATT_CTL.DEST _ _ (by decide) rfl (by decide)).trans
    (State.getF_setF_bits _ PRT_ATT_CTL.DEST _ _ (by decide))

/-- The fields of SNP_CTL taken. -/
def State.snpPut (s : State) (x : Nat) : State :=
  ((s.setF SNP_CTL.FAULTS 0 (bits x 15 8)).setF SNP_CTL.PIN 0 (bits x 2 2)).setF SNP_CTL.ARM 0 (bits x 0 0)

theorem State.snpPut_takes (x : Nat) : Takes (s.snpPut x) [SNP_CTL.FAULTS, SNP_CTL.PIN, SNP_CTL.ARM] 0 x := by
  simp (disch := decide) only [takes_cons, takes_nil, State.snpPut, State.getF_setF_field, and_true]
  exact ⟨State.getF_setF_bits _ SNP_CTL.FAULTS 0 _ (by decide), State.getF_setF_bits _ SNP_CTL.PIN 0 _ (by decide),
    State.getF_setF_bits _ SNP_CTL.ARM 0 _ (by decide)⟩

/-- An armed latch with nothing captured. -/
def State.snpArmed (s : State) : State :=
  { s.setF SNP_STAT.STATE 0 1 with snap := { s.snap with regs := [], banks := [], pcs := [] } }

/-- What a write to SNP_CTL makes of the latch before its trigger. -/
def State.snpSet (s : State) (arm : Bool) : State :=
  if arm then s.snpArmed else if s.getF SNP_STAT.STATE 0 = 1 then s.setF SNP_STAT.STATE 0 0 else s

theorem State.wrSnp_eq (v : BitVec 128) : s.wrSnp v =
    if bit v.toNat 1 then ((s.snpPut v.toNat).snpSet (bit v.toNat 0)).snapTrigger 0
    else (s.snpPut v.toNat).snpSet (bit v.toNat 0) := rfl

theorem State.snpSet_other (arm : Bool) (f : CsrField) (j : Nat) (h : f.reg ≠ .SNP_STAT) :
    (s.snpSet arm).getF f j = s.getF f j := by
  unfold State.snpSet
  split
  · exact s.getF_setF_reg SNP_STAT.STATE f 0 j 1 h
  split
  · exact s.getF_setF_reg SNP_STAT.STATE f 0 j 0 h
  · rfl

theorem snpArm_does (up : s.hostUp = true) (v : BitVec 64) (quiet : v.getLsbD 1 = false) : Does (.snpArm 0 v) s fun t =>
    Takes t [SNP_CTL.FAULTS, SNP_CTL.PIN, SNP_CTL.ARM] 0 v.toNat ∧
    (v.getLsbD 0 = true → t.getF SNP_STAT.STATE 0 = 1 ∧ t.snap.regs = []) := by
  refine does_hostWrite .SNP_CTL 0 (v.setWidth 128) up (by decide) rfl ?_
  show Takes (s.wrSnp _) _ _ _ ∧ (_ → (s.wrSnp _).getF _ _ = 1 ∧ (s.wrSnp _).snap.regs = [])
  rw [s.wrSnp_eq, setWidth_toNat, bit_toNat, bit_toNat, quiet, if_neg Bool.false_ne_true]
  refine ⟨?_, fun arm => ?_⟩
  · have put := s.snpPut_takes v.toNat
    simp only [takes_cons, takes_nil, and_true] at put ⊢
    simpa (disch := decide) only [State.snpSet_other] using put
  · rw [arm]
    exact ⟨State.getF_setF_same _ SNP_STAT.STATE 0 1 (by decide), rfl⟩

theorem State.wrSnp_triggers (v : BitVec 128) (arm : bit v.toNat 0 = true) (trig : bit v.toNat 1 = true)
    (ready : s.snap.pending = none) : (s.wrSnp v).snap.pending = some s.now ∧ (s.wrSnp v).snap.cause = 1 ∧
      DueAt (s.wrSnp v) .snpLatch (s.now + 64) := by
  have armed : (s.snpPut v.toNat).snpArmed.getF SNP_CTL.ARM 0 = 1 := by
    rw [← bits_of_bit arm]
    exact ((s.snpPut v.toNat).snpSet_other true _ _ (by decide)).trans (State.getF_setF_bits _ SNP_CTL.ARM 0 _ (by decide))
  have state : (s.snpPut v.toNat).snpArmed.getF SNP_STAT.STATE 0 = 1 :=
    State.getF_setF_fit _ SNP_STAT.STATE 0 1 (by decide) (by decide)
  have now : (s.snpPut v.toNat).snpArmed.now = s.now := by simp only [State.snpArmed, State.snpPut, State.setF_now]
  have latch : s.wrSnp v = ((s.snpPut v.toNat).snpArmed.latchWaits (2 ^ 0)).sched (s.now + 64) phEnd .snpLatch := by
    rw [s.wrSnp_eq, arm, if_pos trig, State.snpSet, if_pos rfl, State.snapTrigger_armed _ 0 armed (by omega) ready, now]
  obtain ⟨pending, cause⟩ := (s.snpPut v.toNat).snpArmed.latchWaits_snap (2 ^ 0)
  rw [now] at pending
  rw [latch, State.sched_snap]
  exact ⟨pending, cause, State.dueAt_sched _ _ _ _⟩

theorem snpTrig_does (up : s.hostUp = true) (ready : s.snap.pending = none) (v : BitVec 64) (arm : v.getLsbD 0 = true)
    (trig : v.getLsbD 1 = true) : Does (.snpTrig 0 v) s fun t =>
      t.snap.pending = some s.now ∧ t.snap.cause = 1 ∧ ∃ x ∈ t.agenda, x.ev = .snpLatch ∧ x.time = s.now + 64 := by
  have done := s.wrSnp_triggers (v.setWidth 128) (by rw [setWidth_toNat, bit_toNat, arm]) (by rw [setWidth_toNat, bit_toNat, trig]) ready
  exact does_hostWrite .SNP_CTL 0 (v.setWidth 128) up (by decide) rfl done

end

end Sys2Proof.Machine
end

section
/-! PROOFS. Register writes of streams, sessions, groups and frames (R107, R109, R115, R128), for O42. -/
namespace Sys2Proof.Machine

open Sys2Proof.Spec

/-! Groups and frames (R109, R115) -/

section
variable (s : State) (k : Nat) (v : BitVec 128)

/-- A group's error flag as a write leaves it. -/
def State.grpErr : State := s.storeReg .ADM_GRP k v fun f => f ≠ ADM_GRP.ERR
/-- A group as a write asks for it. -/
def State.grpPut : State := (s.grpErr k v).storeReg .ADM_GRP k v fun f => f = ADM_GRP.ERR

/-- Whether a group as it is asked for is enabled against R109. -/
def State.grpBad : Bool :=
  let t := s.grpPut k v
  let n := 2 ^ t.getF ADM_GRP.SIZE k
  t.getF ADM_GRP.EN k = 1 && (k % n ≠ 0 || (List.range 8).any fun i =>
    let h := k / 8 * 8 + i
    h ≠ k && t.getF ADM_GRP.EN h = 1 && meet k n h (2 ^ t.getF ADM_GRP.SIZE h))

theorem State.wrGrp_eq : s.wrGrp k v =
    if (s.grpPut k v).csrVal .ADM_GRP k = (s.grpErr k v).csrVal .ADM_GRP k then s.grpErr k v
    else if ((s.grpErr k v).streams.any fun e => e.2.valid && decide (e.2.cls < 2) && decide (e.2.group = k)) || s.grpBad k v then
      (s.grpErr k v).setF ADM_GRP.ERR k 1
    else s.grpPut k v := rfl

theorem State.grpErr_streams : (s.grpErr k v).streams = s.streams := by
  obtain ⟨m, e⟩ := s.storeReg_csrOnly .ADM_GRP k v fun f => f ≠ ADM_GRP.ERR
  rw [State.grpErr, e]

theorem State.grpErr_stays (f : CsrField) (hf : f ∈ csrFields .ADM_GRP) (h : f ≠ ADM_GRP.ERR) :
    (s.grpErr k v).getF f k = s.getF f k := s.storeReg_stays .ADM_GRP k v _ f hf (.inl (decide_eq_true h))

theorem State.grpPut_rw (f : CsrField) (hf : f ∈ csrFields .ADM_GRP) (code : f.acc = .rw) (h : f ≠ ADM_GRP.ERR) :
    (s.grpPut k v).getF f k = bits v.toNat f.hi f.lo :=
  (s.grpErr k v).storeReg_rw .ADM_GRP k v _ f hf code (decide_eq_false h)

theorem State.grpPut_other (f : CsrField) (j : Nat) (h : j ≠ k) : (s.grpPut k v).getF f j = s.getF f j := by
  have other := fun (t : State) skip => State.getF_of_csrVal (t.storeReg_csrVal .ADM_GRP k v skip f.reg j fun e => h e.2)
  exact (other _ _).trans (other s _)

/-- A group that holds an admitted stream keeps its size (R109). -/
theorem State.wrGrp_held (held : (s.streams.any fun e => e.2.valid && decide (e.2.cls < 2) && decide (e.2.group = k)) = true)
    (size : bits v.toNat ADM_GRP.SIZE.hi ADM_GRP.SIZE.lo ≠ s.getF ADM_GRP.SIZE k) :
    (s.wrGrp k v).getF ADM_GRP.ERR k = 1 ∧ (s.wrGrp k v).getF ADM_GRP.SIZE k = s.getF ADM_GRP.SIZE k ∧
      (s.wrGrp k v).getF ADM_GRP.EN k = s.getF ADM_GRP.EN k := by
  have differ : (s.grpPut k v).csrVal .ADM_GRP k ≠ (s.grpErr k v).csrVal .ADM_GRP k := fun same => size <| by
    rw [← s.grpErr_stays k v ADM_GRP.SIZE (by decide) (by decide), ← s.grpPut_rw k v ADM_GRP.SIZE (by decide) rfl (by decide)]
    exact State.getF_of_csrVal same
  rw [s.wrGrp_eq k v, if_neg differ, if_pos (by rw [s.grpErr_streams, held, Bool.true_or])]
  refine ⟨State.getF_setF_fit _ ADM_GRP.ERR k 1 (by decide) (by decide), ?_, ?_⟩
  · rw [State.getF_setF_field _ ADM_GRP.ERR ADM_GRP.SIZE k 1 (by decide) rfl (by decide)]
    exact s.grpErr_stays k v ADM_GRP.SIZE (by decide) (by decide)
  · rw [State.getF_setF_field _ ADM_GRP.ERR ADM_GRP.EN k 1 (by decide) rfl (by decide)]
    exact s.grpErr_stays k v ADM_GRP.EN (by decide) (by decide)

/-- A group that meets no other is as it is asked for (R109). -/
theorem State.grpBad_false (fits : bits v.toNat ADM_GRP.EN.hi ADM_GRP.EN.lo = 0 ∨
    (k % 2 ^ bits v.toNat ADM_GRP.SIZE.hi ADM_GRP.SIZE.lo = 0 ∧ ∀ h, h / 8 = k / 8 → h ≠ k → s.getF ADM_GRP.EN h = 0)) :
    s.grpBad k v = false := by
  unfold State.grpBad
  simp only
  rw [s.grpPut_rw k v ADM_GRP.EN (by decide) rfl (by decide), s.grpPut_rw k v ADM_GRP.SIZE (by decide) rfl (by decide)]
  rcases fits with off | ⟨aligned, alone⟩
  · simp [off]
  · have none : ∀ i ∈ List.range 8, (k / 8 * 8 + i ≠ k && (s.grpPut k v).getF ADM_GRP.EN (k / 8 * 8 + i) = 1) = false := by
      intro i hi
      have := List.mem_range.1 hi
      by_cases e : k / 8 * 8 + i = k
      · simp [e]
      · rw [s.grpPut_other k v _ _ e, alone _ (by omega) e]
        simp
    have apart : ((List.range 8).any fun i =>
        k / 8 * 8 + i ≠ k && (s.grpPut k v).getF ADM_GRP.EN (k / 8 * 8 + i) = 1 &&
          meet k (2 ^ bits v.toNat ADM_GRP.SIZE.hi ADM_GRP.SIZE.lo) (k / 8 * 8 + i)
            (2 ^ (s.grpPut k v).getF ADM_GRP.SIZE (k / 8 * 8 + i))) = false := by
      rw [List.any_eq_false]
      intro i hi
      rw [none i hi]
      simp
    simp only [aligned, apart, ne_eq, not_true_eq_false, decide_false, Bool.or_false, Bool.and_false]

theorem State.wrGrp_takes (empty : s.streams = []) (good : s.grpBad k v = false) :
    Takes (s.wrGrp k v) [ADM_GRP.EN, ADM_GRP.SIZE] k v.toNat := by
  have put : Takes (s.grpPut k v) [ADM_GRP.EN, ADM_GRP.SIZE] k v.toNat := by
    simp only [takes_cons, takes_nil, and_true]
    exact ⟨s.grpPut_rw k v ADM_GRP.EN (by decide) rfl (by decide), s.grpPut_rw k v ADM_GRP.SIZE (by decide) rfl (by decide)⟩
  rw [s.wrGrp_eq k v]
  split
  · next same =>
    simp only [takes_cons, takes_nil, and_true] at put ⊢
    exact ⟨(State.getF_of_csrVal same).symm.trans put.1, (State.getF_of_csrVal same).symm.trans put.2⟩
  · rw [s.grpErr_streams, empty, good]
    exact put

/-- A stack's frame as a write asks for it. -/
def State.framePut : State := s.storeReg .BWS_FRAME_CFG k v noSkip

theorem State.wrFrame_eq : s.wrFrame k v =
    if 512 < (s.framePut k v).getF BWS_FRAME_CFG.FAST k + (s.framePut k v).getF BWS_FRAME_CFG.SLOW k +
        (s.framePut k v).getF BWS_FRAME_CFG.SYSTEM k ||
        (s.framePut k v).getF BWS_FRAME_CFG.FAST k < s.slotSum k 0 [] s.levelOf none ||
        (s.framePut k v).getF BWS_FRAME_CFG.SLOW k < s.slotSum k 1 [] s.levelOf none then s.setF BWS_USE.ERR k 1
    else s.framePut k v := rfl

theorem State.framePut_rw (f : CsrField) (hf : f ∈ csrFields .BWS_FRAME_CFG) (code : f.acc = .rw) :
    (s.framePut k v).getF f k = bits v.toNat f.hi f.lo := s.storeReg_rw .BWS_FRAME_CFG k v noSkip f hf code rfl

theorem State.framePut_takes : Takes (s.framePut k v) [BWS_FRAME_CFG.FAST, BWS_FRAME_CFG.SLOW, BWS_FRAME_CFG.SYSTEM] k v.toNat := by
  simp only [takes_cons, takes_nil, and_true]
  exact ⟨s.framePut_rw k v _ (by decide) rfl, s.framePut_rw k v _ (by decide) rfl, s.framePut_rw k v _ (by decide) rfl⟩

/-- A frame of more than 512 slots is refused (R115). -/
theorem State.wrFrame_refused (large : 512 < bits v.toNat BWS_FRAME_CFG.FAST.hi BWS_FRAME_CFG.FAST.lo +
      bits v.toNat BWS_FRAME_CFG.SLOW.hi BWS_FRAME_CFG.SLOW.lo + bits v.toNat BWS_FRAME_CFG.SYSTEM.hi BWS_FRAME_CFG.SYSTEM.lo) :
    (s.wrFrame k v).getF BWS_USE.ERR k = 1 ∧ (s.wrFrame k v).csrVal .BWS_FRAME_CFG k = s.csrVal .BWS_FRAME_CFG k := by
  obtain ⟨fast, slow, system⟩ : _ ∧ _ ∧ _ := by simpa only [takes_cons, takes_nil, and_true] using s.framePut_takes k v
  rw [s.wrFrame_eq k v, fast, slow, system, if_pos (by rw [decide_eq_true large]; rfl)]
  exact ⟨s.getF_setF_fit BWS_USE.ERR k 1 (by decide) (by decide), s.csrVal_csrPut_ne _ _ _ _ _ fun e => by cases e.1⟩

theorem State.wrFrame_takes (fast : s.slotSum k 0 [] s.levelOf none = 0) (slow : s.slotSum k 1 [] s.levelOf none = 0)
    (fits : bits v.toNat BWS_FRAME_CFG.FAST.hi BWS_FRAME_CFG.FAST.lo + bits v.toNat BWS_FRAME_CFG.SLOW.hi BWS_FRAME_CFG.SLOW.lo +
      bits v.toNat BWS_FRAME_CFG.SYSTEM.hi BWS_FRAME_CFG.SYSTEM.lo ≤ 512) :
    Takes (s.wrFrame k v) [BWS_FRAME_CFG.FAST, BWS_FRAME_CFG.SLOW, BWS_FRAME_CFG.SYSTEM] k v.toNat := by
  have put := s.framePut_takes k v
  obtain ⟨f, w, y⟩ : _ ∧ _ ∧ _ := by simpa only [takes_cons, takes_nil, and_true] using put
  rw [s.wrFrame_eq k v, f, w, y, fast, slow, if_neg (by simpa using fits)]
  exact put

end

section
variable (s : State) (up : s.hostUp = true)
include up

theorem admGrpWrite_held (d : Die) (g : Fin 96) (v : BitVec 64)
    (held : (s.streams.any fun e => e.2.valid && decide (e.2.cls < 2) && decide (e.2.group = 96 * d.val + g.val)) = true)
    (size : bits v.toNat ADM_GRP.SIZE.hi ADM_GRP.SIZE.lo ≠ s.getF ADM_GRP.SIZE (96 * d.val + g.val)) :
    Does (.admGrpWrite 0 d g v) s fun t => t.getF ADM_GRP.ERR (96 * d.val + g.val) = 1 ∧
      t.getF ADM_GRP.SIZE (96 * d.val + g.val) = s.getF ADM_GRP.SIZE (96 * d.val + g.val) ∧
      t.getF ADM_GRP.EN (96 * d.val + g.val) = s.getF ADM_GRP.EN (96 * d.val + g.val) := by
  rw [← setWidth_toNat v] at size
  exact does_hostWrite .ADM_GRP (96 * d.val + g.val) (v.setWidth 128) up (by simp only [csrCount]; omega) rfl
    (s.wrGrp_held _ _ held size)

theorem admGrpWrite_takes (d : Die) (g : Fin 96) (v : BitVec 64) (empty : s.streams = [])
    (fits : bits v.toNat ADM_GRP.EN.hi ADM_GRP.EN.lo = 0 ∨
      ((96 * d.val + g.val) % 2 ^ bits v.toNat ADM_GRP.SIZE.hi ADM_GRP.SIZE.lo = 0 ∧
        ∀ h, h / 8 = (96 * d.val + g.val) / 8 → h ≠ 96 * d.val + g.val → s.getF ADM_GRP.EN h = 0)) :
    Does (.admGrpWrite 0 d g v) s fun t => Takes t [ADM_GRP.EN, ADM_GRP.SIZE] (96 * d.val + g.val) v.toNat := by
  rw [← setWidth_toNat v] at fits ⊢
  exact does_hostWrite .ADM_GRP (96 * d.val + g.val) (v.setWidth 128) up (by simp only [csrCount]; omega) rfl
    (s.wrGrp_takes _ _ empty (s.grpBad_false _ _ fits))

theorem bwsFrameCfgWrite_refused (j : Stack) (v : BitVec 64)
    (large : 512 < bits v.toNat BWS_FRAME_CFG.FAST.hi BWS_FRAME_CFG.FAST.lo + bits v.toNat BWS_FRAME_CFG.SLOW.hi BWS_FRAME_CFG.SLOW.lo +
      bits v.toNat BWS_FRAME_CFG.SYSTEM.hi BWS_FRAME_CFG.SYSTEM.lo) :
    Does (.bwsFrameCfgWrite 0 j v) s fun t => t.getF BWS_USE.ERR j.val = 1 ∧
      t.csrVal .BWS_FRAME_CFG j.val = s.csrVal .BWS_FRAME_CFG j.val := by
  rw [← setWidth_toNat v] at large
  exact does_hostWrite .BWS_FRAME_CFG j.val (v.setWidth 128) up j.isLt rfl (s.wrFrame_refused _ _ large)

theorem bwsFrameCfgWrite_takes (j : Stack) (v : BitVec 64) (fast : s.slotSum j.val 0 [] s.levelOf none = 0)
    (slow : s.slotSum j.val 1 [] s.levelOf none = 0)
    (fits : bits v.toNat BWS_FRAME_CFG.FAST.hi BWS_FRAME_CFG.FAST.lo + bits v.toNat BWS_FRAME_CFG.SLOW.hi BWS_FRAME_CFG.SLOW.lo +
      bits v.toNat BWS_FRAME_CFG.SYSTEM.hi BWS_FRAME_CFG.SYSTEM.lo ≤ 512) :
    Does (.bwsFrameCfgWrite 0 j v) s fun t =>
      Takes t [BWS_FRAME_CFG.FAST, BWS_FRAME_CFG.SLOW, BWS_FRAME_CFG.SYSTEM] j.val v.toNat := by
  rw [← setWidth_toNat v] at fits ⊢
  exact does_hostWrite .BWS_FRAME_CFG j.val (v.setWidth 128) up j.isLt rfl (s.wrFrame_takes _ _ fast slow fits)

end

/-! Sessions (R128) -/

section
variable (s : State) (d n : Nat)

/-- A change of level leaves the other fields of the session that hold no level alone. -/
theorem State.changeLevel_floor (level : Nat) :
    (s.changeLevel d n level).getF DLS_SES.FLOOR (256 * d + n) = s.getF DLS_SES.FLOOR (256 * d + n) := by
  unfold State.changeLevel
  extract_lets lv m
  split
  · exact State.getF_congr (sendPair_csr _ _ _) _ _
  · rw [s.applyLevel_eq]
    split
    · rfl
    · rw [State.getF_congr (State.levelShown_kept _ _ _ _).2,
        State.getF_setF_field _ DLS_SES.CLEAN DLS_SES.FLOOR _ 0 (by decide) rfl (by decide),
        s.getF_setF_field DLS_SES.LEVEL DLS_SES.FLOOR _ _ (by decide) rfl (by decide)]

/-- A session whose level is its own takes a level at once, where it holds a fast stream (R128). -/
theorem State.changeLevel_here (level : Nat) (alone : s.shadowed d n = false) (fast : s.hasStream d n 0 = true) :
    s.changeLevel d n level = s.applyLevel d n level := by
  unfold State.changeLevel
  rw [fast, alone]
  rfl

variable (v : BitVec 128)

/-- A session with its floor written. -/
def State.sesPut (k : Nat) : State := s.storeReg .DLS_SES k v noSkip

theorem State.wrSes_eq (h : n < 256) : s.wrSes (256 * d + n) v =
    if (s.sesPut v (256 * d + n)).getF DLS_SES.VALID (256 * d + n) = 1 &&
        (s.sesPut v (256 * d + n)).getF DLS_SES.LEVEL (256 * d + n) < (s.sesPut v (256 * d + n)).getF DLS_SES.FLOOR (256 * d + n) then
      (s.sesPut v (256 * d + n)).changeLevel d n ((s.sesPut v (256 * d + n)).getF DLS_SES.FLOOR (256 * d + n))
    else s.sesPut v (256 * d + n) := by
  have die : (256 * d + n) / 256 = d := by omega
  have ses : (256 * d + n) % 256 = n := by omega
  unfold State.wrSes State.sesPut
  rw [die, ses]

theorem State.sesPut_floor (k : Nat) : (s.sesPut v k).getF DLS_SES.FLOOR k = bits v.toNat DLS_SES.FLOOR.hi DLS_SES.FLOOR.lo :=
  s.storeReg_rw .DLS_SES k v noSkip DLS_SES.FLOOR (by decide) rfl rfl

theorem State.sesPut_stays (k : Nat) (f : CsrField) (hf : f ∈ csrFields .DLS_SES) (h : f.acc = .ro) :
    (s.sesPut v k).getF f k = s.getF f k := s.storeReg_stays .DLS_SES k v noSkip f hf (.inr h)

theorem State.sesPut_shadowed : (s.sesPut v (256 * d + n)).shadowed d n = s.shadowed d n := by
  rw [State.shadowed, State.shadowed, s.sesPut_stays v _ DLS_SES.SHADOW (by decide) rfl]

theorem State.sesPut_hasStream (k cls : Nat) : (s.sesPut v k).hasStream d n cls = s.hasStream d n cls := by
  obtain ⟨m, e⟩ := s.storeReg_csrOnly .DLS_SES k v noSkip
  rw [State.sesPut, e]
  rfl

/-- A written floor, and the level it raises (R128). -/
theorem State.wrSes_floor (h : n < 256) :
    let k := 256 * d + n
    let floor := bits v.toNat DLS_SES.FLOOR.hi DLS_SES.FLOOR.lo
    (s.wrSes k v).getF DLS_SES.FLOOR k = floor ∧
      (s.getF DLS_SES.VALID k = 1 → s.getF DLS_SES.LEVEL k < floor → s.shadowed d n = false → s.hasStream d n 0 = true →
        (s.wrSes k v).getF DLS_SES.LEVEL k = floor) ∧
      (floor ≤ s.getF DLS_SES.LEVEL k → (s.wrSes k v).getF DLS_SES.LEVEL k = s.getF DLS_SES.LEVEL k) := by
  intro k floor
  have valid := s.sesPut_stays v k DLS_SES.VALID (by decide) rfl
  have level := s.sesPut_stays v k DLS_SES.LEVEL (by decide) rfl
  have narrow : floor < 4 := Nat.mod_lt _ (by decide)
  rw [s.wrSes_eq d n v h, s.sesPut_floor, valid, level]
  refine ⟨?_, fun on low alone fast => ?_, fun high => ?_⟩
  · split
    · exact (State.changeLevel_floor _ d n _).trans (s.sesPut_floor v k)
    · exact s.sesPut_floor v k
  · rw [if_pos (by rw [on, decide_eq_true low]; rfl),
      State.changeLevel_here _ d n _ ((s.sesPut_shadowed d n v).trans alone) ((s.sesPut_hasStream d n v k 0).trans fast)]
    exact State.applyLevel_level _ d n floor narrow (valid.trans on)
  · rw [if_neg (by rw [decide_eq_false (not_lt.2 high), Bool.and_false]; exact Bool.false_ne_true)]
    exact level

end

theorem dlsSesFloorWrite_does (s : State) (up : s.hostUp = true) (d : Die) (ss : Fin 256) (v : BitVec 64) :
    let k := 256 * d.val + ss.val
    let floor := bits v.toNat DLS_SES.FLOOR.hi DLS_SES.FLOOR.lo
    Does (.dlsSesFloorWrite 0 d ss v) s fun t => t.getF DLS_SES.FLOOR k = floor ∧
      (s.getF DLS_SES.VALID k = 1 → s.getF DLS_SES.LEVEL k < floor → s.shadowed d.val ss.val = false →
        s.hasStream d.val ss.val 0 = true → t.getF DLS_SES.LEVEL k = floor) ∧
      (floor ≤ s.getF DLS_SES.LEVEL k → t.getF DLS_SES.LEVEL k = s.getF DLS_SES.LEVEL k) := by
  rw [← setWidth_toNat v]
  exact does_hostWrite .DLS_SES (256 * d.val + ss.val) (v.setWidth 128) up (by simp only [csrCount]; omega) rfl
    (s.wrSes_floor d.val ss.val (v.setWidth 128) ss.isLt)

/-! Registrations (R107) -/

theorem Pending.mono {s t : State} {e : Ev} {b c : Nat} (h : Pending s t e b) (le : b ≤ c) : Pending s t e c := by
  obtain ⟨x, mem, ev, late, soon⟩ := h
  exact ⟨x, mem, ev, late, by omega⟩

theorem Pending.of_now {s t u : State} {e : Ev} {b : Nat} (h : Pending t u e b) (now : t.now = s.now) : Pending s u e b := by
  unfold Pending at *
  rwa [← now]

section
variable (s : State) (v : BitVec 128) (k : Nat)

/-- A registration's fields as a write leaves them. -/
def State.regPut : State := s.storeReg .DLS_REG_CTL k v noSkip

theorem State.regPut_csrOnly : CsrOnly s (s.regPut v k) := s.storeReg_csrOnly .DLS_REG_CTL k v noSkip

theorem State.regPut_rw (f : CsrField) (hf : f ∈ csrFields .DLS_REG_CTL) (code : f.acc = .rw) :
    (s.regPut v k).getF f k = bits v.toNat f.hi f.lo := s.storeReg_rw .DLS_REG_CTL k v noSkip f hf code rfl

theorem State.regPut_stream (d n : Nat) : (s.regPut v k).stream d n = s.stream d n := by
  obtain ⟨m, e⟩ := s.regPut_csrOnly v k
  rw [e]
  rfl

theorem State.regPut_streams : (s.regPut v k).streams = s.streams := by
  obtain ⟨m, e⟩ := s.regPut_csrOnly v k
  rw [e]

variable (idle : s.getF DLS_REG_CTL.STATE k ≠ 1) (on : s.tickBase ≠ none) (go : bit v.toNat 0 = true)
include idle on go

/-- A GO while nothing is busy starts a registration (R107). -/
theorem State.wrReg_register (op : bits v.toNat DLS_REG_CTL.OP.hi DLS_REG_CTL.OP.lo = 1) :
    s.wrReg k v = (s.regPut v k).register (k / 16) (k % 16) := by
  have state : (s.regPut v k).getF DLS_REG_CTL.STATE k = s.getF DLS_REG_CTL.STATE k :=
    s.storeReg_stays .DLS_REG_CTL k v noSkip DLS_REG_CTL.STATE (by decide) (.inr rfl)
  have base : (s.regPut v k).tickBase = s.tickBase := (s.regPut_csrOnly v k).kept.tickBase
  have named : (s.regPut v k).getF DLS_REG_CTL.OP k = 1 := (s.regPut_rw v k DLS_REG_CTL.OP (by decide) rfl).trans op
  unfold State.regPut at *
  unfold State.wrReg
  simp only [state, base, go, named]
  rw [if_neg (by simp [idle, on])]

/-- A GO while nothing is busy starts a deregistration (R107). -/
theorem State.wrReg_deregister (op : bits v.toNat DLS_REG_CTL.OP.hi DLS_REG_CTL.OP.lo = 2) :
    s.wrReg k v = (s.regPut v k).deregister (k / 16) (k % 16) := by
  have state : (s.regPut v k).getF DLS_REG_CTL.STATE k = s.getF DLS_REG_CTL.STATE k :=
    s.storeReg_stays .DLS_REG_CTL k v noSkip DLS_REG_CTL.STATE (by decide) (.inr rfl)
  have base : (s.regPut v k).tickBase = s.tickBase := (s.regPut_csrOnly v k).kept.tickBase
  have named : (s.regPut v k).getF DLS_REG_CTL.OP k = 2 := (s.regPut_rw v k DLS_REG_CTL.OP (by decide) rfl).trans op
  unfold State.regPut at *
  unfold State.wrReg
  simp only [state, base, go, named]
  rw [if_neg (by simp [idle, on])]

end

section
variable (s : State) (d p : Nat)

/-- A registration waits for its test. -/
def State.regQueued (va : Nat) : State :=
  (s.setF DLS_REG_CTL.STATE (16 * d + p) 1).modDie d fun k => { k with regQ := k.regQ ++ [(p, va, s.now)] }

theorem State.register_eq : s.register d p = (s.regQueued d p (s.getF DLS_REG_CTL.DESC (16 * d + p) * 256)).nextTest d := rfl

theorem State.register_state : (s.register d p).getF DLS_REG_CTL.STATE (16 * d + p) = 1 := by
  rw [s.register_eq, State.getF_congr (State.nextTest_kept _ _).1]
  exact s.getF_setF_fit DLS_REG_CTL.STATE (16 * d + p) 1 (by decide) (by decide)

/-- The first of a queue in test. -/
def State.regTested (s : State) (d : Nat) (r : Nat × Nat × Nat) (rest : List (Nat × Nat × Nat)) : State :=
  s.modDie d fun k => { k with regQ := rest, regTest := some (s.admissionOf d r.1 r.2.1) }

theorem State.schedWithin_die (s : State) (bound ph : Nat) (ev : Ev) (d : Nat) : (s.schedWithin bound ph ev).die d = s.die d := rfl

/-- The first of a queue is tested, within 50 us of its GO (R107). -/
theorem State.nextTest_pending (s : State) (d : Die) (test : (s.die d.val).regTest = none) {r : Nat × Nat × Nat}
    {rest : List (Nat × Nat × Nat)} (queue : (s.die d.val).regQ = r :: rest) (due : r.2.2 ≤ s.now) :
    ((s.nextTest d.val).die d.val).regTest ≠ none ∧ Pending s (s.nextTest d.val) (.admissionComplete d) 200000 := by
  have next : s.nextTest d.val = (s.regTested d.val r rest).schedWithin (max 1 (r.2.2 + 200000 - s.now - rest.length)) phDls
      (.admissionComplete d) := by
    unfold State.nextTest
    simp only [test, queue, Fin.ofNat_val_eq_self]
    rfl
  rw [next]
  refine ⟨?_, Pending.mono (State.schedWithin_pending (s.regTested d.val r rest) _ phDls _ (by omega)) ?_⟩
  · have die : (s.regTested d.val r rest).die d.val =
        { s.die d.val with regQ := rest, regTest := some (s.admissionOf d.val r.1 r.2.1) } :=
      (State.die_modDie _ _ _ _).trans (if_pos rfl)
    rw [State.schedWithin_die, die]
    exact Option.some_ne_none _
  · omega

theorem State.register_pending (s : State) (d : Die) (p : Nat) (test : (s.die d.val).regTest = none)
    (due : ∀ r ∈ (s.die d.val).regQ, r.2.2 ≤ s.now) :
    ((s.register d.val p).die d.val).regTest ≠ none ∧ Pending s (s.register d.val p) (.admissionComplete d) 200000 := by
  rw [s.register_eq]
  generalize s.getF DLS_REG_CTL.DESC (16 * d.val + p) * 256 = va
  have die : (s.regQueued d.val p va).die d.val =
      { s.die d.val with regQ := (s.die d.val).regQ ++ [(p, va, s.now)] } := by
    refine (State.die_modDie _ _ _ _).trans (if_pos rfl)
  have late : ∀ r ∈ (s.die d.val).regQ ++ [(p, va, s.now)], r.2.2 ≤ s.now := by
    intro r hr
    rcases List.mem_append.1 hr with old | new
    · exact due r old
    · rw [List.mem_singleton.1 new]
  cases queue : (s.die d.val).regQ ++ [(p, va, s.now)] with
  | nil => simp at queue
  | cons r rest =>
    exact State.nextTest_pending (s.regQueued d.val p va) d (by rw [die]; exact test) (by rw [die]; exact queue)
      (late r (by rw [queue]; exact List.mem_cons_self))

/-- A stream that is not the partition's is not taken away (R107). -/
theorem State.deregister_refused (n : Nat) (hn : s.getF DLS_REG_CTL.STREAM (16 * d + p) = n)
    (other : (s.stream d n).valid = false ∨ (s.stream d n).part ≠ p) :
    (s.deregister d p).getF DLS_REG_CTL.STATE (16 * d + p) = 3 ∧
      (s.deregister d p).getF DLS_REG_CTL.REASON (16 * d + p) = 0x010A ∧ (s.deregister d p).streams = s.streams := by
  have refused : s.deregister d p =
      (s.setF DLS_REG_CTL.STATE (16 * d + p) 3).setF DLS_REG_CTL.REASON (16 * d + p) 0x010A := by
    unfold State.deregister
    simp only [hn]
    exact if_pos (by simpa using other)
  rw [refused, State.getF_setF_field _ DLS_REG_CTL.REASON DLS_REG_CTL.STATE _ _ (by decide) rfl (by decide)]
  exact ⟨s.getF_setF_fit DLS_REG_CTL.STATE _ 3 (by decide) (by decide),
    State.getF_setF_fit _ DLS_REG_CTL.REASON _ 0x010A (by decide) (by decide), by rw [State.setF_streams, State.setF_streams]⟩

/-- A stream of the partition is taken away (R107). -/
theorem State.deregister_done (n : Nat) (hn : s.getF DLS_REG_CTL.STREAM (16 * d + p) = n)
    (valid : (s.stream d n).valid = true) (part : (s.stream d n).part = p) :
    (s.deregister d p).getF DLS_REG_CTL.STATE (16 * d + p) = 2 ∧ (s.deregister d p).getF DLS_REG_CTL.REASON (16 * d + p) = 0 := by
  obtain ⟨u, done⟩ : ∃ u : State, s.deregister d p =
      (u.setF DLS_REG_CTL.STATE (16 * d + p) 2).setF DLS_REG_CTL.REASON (16 * d + p) 0 := by
    unfold State.deregister
    simp only [hn]
    exact ⟨_, if_neg (by simp [valid, part])⟩
  rw [done, State.getF_setF_field _ DLS_REG_CTL.REASON DLS_REG_CTL.STATE _ _ (by decide) rfl (by decide)]
  exact ⟨u.getF_setF_fit DLS_REG_CTL.STATE _ 2 (by decide) (by decide),
    State.getF_setF_fit _ DLS_REG_CTL.REASON _ 0 (by decide) (by decide)⟩

end

section
variable (s : State) (up : s.hostUp = true) (d : Die) (p : Part) (v : BitVec 128)
  (idle : s.getF DLS_REG_CTL.STATE (16 * d.val + p.val) ≠ 1) (on : s.tickBase ≠ none) (go : bit v.toNat 0 = true)
include up idle on go

theorem streamRegister_does (op : bits v.toNat DLS_REG_CTL.OP.hi DLS_REG_CTL.OP.lo = 1) :
    Does (.streamRegister 0 d p v) s fun t => t.getF DLS_REG_CTL.STATE (16 * d.val + p.val) = 1 ∧
      ((s.die d.val).regTest = none → (∀ r ∈ (s.die d.val).regQ, r.2.2 ≤ s.now) →
        (t.die d.val).regTest ≠ none ∧ Pending s t (.admissionComplete d) 200000) := by
  have write : s.wrReg (16 * d.val + p.val) v = (s.regPut v (16 * d.val + p.val)).register d.val p.val := by
    have hd : (16 * d.val + p.val) / 16 = d.val := by omega
    have hp : (16 * d.val + p.val) % 16 = p.val := by omega
    rw [s.wrReg_register v _ idle on go op, hd, hp]
  have here := s.regPut_csrOnly v (16 * d.val + p.val)
  have die := here.die d.val
  have now := here.kept.now
  have goal : (s.wrReg (16 * d.val + p.val) v).getF DLS_REG_CTL.STATE (16 * d.val + p.val) = 1 ∧
      ((s.die d.val).regTest = none → (∀ r ∈ (s.die d.val).regQ, r.2.2 ≤ s.now) →
        ((s.wrReg (16 * d.val + p.val) v).die d.val).regTest ≠ none ∧
          Pending s (s.wrReg (16 * d.val + p.val) v) (.admissionComplete d) 200000) := by
    rw [write]
    refine ⟨State.register_state _ _ _, fun test queue => ?_⟩
    rw [← die, ← now] at queue
    rw [← die] at test
    obtain ⟨tested, pending⟩ := State.register_pending _ d p.val test queue
    exact ⟨tested, Pending.of_now pending now⟩
  exact does_hostWrite .DLS_REG_CTL (16 * d.val + p.val) v up (by simp only [csrCount]; omega) rfl goal

/-- What a deregistration does to a partition's stream does its write. -/
theorem streamDeregister_does {P : State → Prop} (op : bits v.toNat DLS_REG_CTL.OP.hi DLS_REG_CTL.OP.lo = 2)
    (h : P ((s.regPut v (16 * d.val + p.val)).deregister d.val p.val)) : Does (.streamDeregister 0 d p v) s P := by
  have write : s.wrReg (16 * d.val + p.val) v = (s.regPut v (16 * d.val + p.val)).deregister d.val p.val := by
    have hd : (16 * d.val + p.val) / 16 = d.val := by omega
    have hp : (16 * d.val + p.val) % 16 = p.val := by omega
    rw [s.wrReg_deregister v _ idle on go op, hd, hp]
  rw [← write] at h
  exact does_hostWrite .DLS_REG_CTL (16 * d.val + p.val) v up (by simp only [csrCount]; omega) rfl h

theorem streamDeregister_refused (op : bits v.toNat DLS_REG_CTL.OP.hi DLS_REG_CTL.OP.lo = 2)
    (other : (s.stream d.val (bits v.toNat DLS_REG_CTL.STREAM.hi DLS_REG_CTL.STREAM.lo)).valid = false ∨
      (s.stream d.val (bits v.toNat DLS_REG_CTL.STREAM.hi DLS_REG_CTL.STREAM.lo)).part ≠ p.val) :
    Does (.streamDeregister 0 d p v) s fun t => t.getF DLS_REG_CTL.STATE (16 * d.val + p.val) = 3 ∧
      t.getF DLS_REG_CTL.REASON (16 * d.val + p.val) = 0x010A ∧ t.streams = s.streams := by
  refine streamDeregister_does s up d p v idle on go op ?_
  rw [← s.regPut_stream v (16 * d.val + p.val)] at other
  rw [← s.regPut_streams v (16 * d.val + p.val)]
  exact State.deregister_refused _ d.val p.val _ (s.regPut_rw v _ DLS_REG_CTL.STREAM (by decide) rfl) other

theorem streamDeregister_done (op : bits v.toNat DLS_REG_CTL.OP.hi DLS_REG_CTL.OP.lo = 2)
    (valid : (s.stream d.val (bits v.toNat DLS_REG_CTL.STREAM.hi DLS_REG_CTL.STREAM.lo)).valid = true)
    (part : (s.stream d.val (bits v.toNat DLS_REG_CTL.STREAM.hi DLS_REG_CTL.STREAM.lo)).part = p.val) :
    Does (.streamDeregister 0 d p v) s fun t => t.getF DLS_REG_CTL.STATE (16 * d.val + p.val) = 2 ∧
      t.getF DLS_REG_CTL.REASON (16 * d.val + p.val) = 0 := by
  refine streamDeregister_does s up d p v idle on go op ?_
  rw [← s.regPut_stream v (16 * d.val + p.val)] at valid part
  exact State.deregister_done _ d.val p.val _ (s.regPut_rw v _ DLS_REG_CTL.STREAM (by decide) rfl) valid part

end

end Sys2Proof.Machine
end

section
/-! PROOFS. What traffic between the units leaves alone: slots, links and table walkers (for O42, O44, O49). -/
namespace Sys2Proof.Machine

open Sys2Proof.Spec

/-- What the work of slots, links and walkers may change: what is due, the dies' caches and queues, the ports and the entries of
the fabric. Nothing is taken off the agenda. -/
structure Traffic (s t : State) : Prop where
  same : t = { s with
    agenda := t.agenda, seq := t.seq, free := t.free, nextId := t.nextId, dies := t.dies, ports := t.ports
    fabric := t.fabric, bwsQ := t.bwsQ }
  agenda : ∀ x ∈ s.agenda, x ∈ t.agenda

namespace Traffic

theorem refl (s : State) : Traffic s s := ⟨rfl, fun _ h => h⟩

theorem trans {s t u : State} (h : Traffic s t) (k : Traffic t u) : Traffic s u := by
  refine ⟨?_, fun x hx => k.agenda x (h.agenda x hx)⟩
  exact k.same.trans (congrArg (fun x : State => { x with
    agenda := u.agenda, seq := u.seq, free := u.free, nextId := u.nextId, dies := u.dies, ports := u.ports
    fabric := u.fabric, bwsQ := u.bwsQ }) h.same)

theorem ite {s t u : State} {c : Prop} [Decidable c] (h : Traffic s t) (k : Traffic s u) : Traffic s (if c then t else u) := by
  split
  · exact h
  · exact k

theorem fold {β : Type} {f : State → β → State} (l : List β) (s : State) (h : ∀ t, ∀ b ∈ l, Traffic t (f t b)) :
    Traffic s (l.foldl f s) := foldl_rel refl trans l s h

section
variable {s t : State} (h : Traffic s t)
include h

theorem csr : t.csr = s.csr := by rw [h.same]
theorem now : t.now = s.now := by rw [h.same]
theorem mem : t.mem = s.mem := by rw [h.same]
theorem banks : t.banks = s.banks := by rw [h.same]
theorem cores : t.cores = s.cores := by rw [h.same]
theorem loads : t.loads = s.loads := by rw [h.same]
theorem barriers : t.barriers = s.barriers := by rw [h.same]
theorem subs : t.subs = s.subs := by rw [h.same]
theorem fabIn : t.fabIn = s.fabIn := by rw [h.same]

theorem dueAt {e : Ev} {n : Nat} (due : DueAt s e n) : DueAt t e n := by
  obtain ⟨x, mem, ev, time⟩ := due
  exact ⟨x, h.agenda x mem, ev, time⟩

theorem getF (f : CsrField) (i : Nat) : t.getF f i = s.getF f i := State.getF_congr h.csr f i

end

end Traffic

/-! The accessors -/

section
variable (s : State)

theorem State.sched_traffic (time ph : Nat) (ev : Ev) (env : Env) (ops : List SlotOp) : Traffic s (s.sched time ph ev env ops) :=
  ⟨rfl, fun _ hx => (mem_insertDue _ _ _).2 (.inr hx)⟩

theorem State.freed_traffic : Traffic s s.freed := ⟨rfl, fun _ h => h⟩
theorem State.newId_traffic : Traffic s s.newId.2 := ⟨rfl, fun _ h => h⟩
theorem State.modDie_traffic (d : Nat) (f : DieSt → DieSt) : Traffic s (s.modDie d f) := ⟨rfl, fun _ h => h⟩
theorem State.fabric_traffic (q : SMap Fabric) : Traffic s { s with fabric := q } := ⟨rfl, fun _ h => h⟩
theorem State.ports_traffic (q : SMap PortSt) : Traffic s { s with ports := q } := ⟨rfl, fun _ h => h⟩
theorem State.bwsQ_traffic (q : SMap (List Xfer)) : Traffic s { s with bwsQ := q } := ⟨rfl, fun _ h => h⟩

theorem State.schedWithin_traffic (bound ph : Nat) (ev : Ev) : Traffic s (s.schedWithin bound ph ev) :=
  (s.sched_traffic _ _ _ _ _).trans (State.freed_traffic _)

theorem State.schedSome_traffic (ph : Nat) (ev : Ev) : Traffic s (s.schedSome ph ev) :=
  (s.sched_traffic _ _ _ _ _).trans (State.freed_traffic _)

/-! Slots and links -/

theorem State.hbm_traffic (j cls part owner bytes : Nat) (ev : Option Ev) (who : Nat) :
    Traffic s (s.hbm j cls part owner bytes ev who) :=
  .ite (s.bwsQ_traffic _) ((s.bwsQ_traffic _).trans (State.sched_traffic _ _ _ _ _ _))

theorem State.hbmTask_traffic (j task bytes : Nat) (ev : Option Ev) (who : Nat) : Traffic s (s.hbmTask j task bytes ev who) :=
  .ite (.refl s) (s.hbm_traffic _ _ _ _ _ _ _)

theorem State.enqueue_traffic (p target cls part : Nat) (m : FlitMsg) (control : Bool) (who : Nat) :
    Traffic s (s.enqueue p target cls part m control who) :=
  .ite (s.ports_traffic _) ((s.ports_traffic _).trans (State.sched_traffic _ _ _ _ _ _))

theorem State.loopBack_traffic (a : RemoteAccess) : Traffic s (s.loopBack a) :=
  (s.sched_traffic _ _ _ _ _).trans (State.freed_traffic _)

theorem State.sendAccess_traffic (f : Fabric) (cls pa : Nat) (kind : AccessKind) (b : List Byte) (mask : List Bool) (len : Nat)
    (key : List Nat) : Traffic s (s.sendAccess f cls pa kind b mask len key) :=
  ((s.newId_traffic.trans (.ite (.refl _) (State.fabric_traffic _ _))).trans (State.fabric_traffic _ _)).trans
    (.ite (State.loopBack_traffic _ _) (.ite (State.sched_traffic _ _ _ _ _ _)
      ((State.enqueue_traffic _ _ _ _ _ _ _ _).trans (State.sched_traffic _ _ _ _ _ _))))

theorem State.sendWrite_traffic (f : Fabric) (cls pa : Nat) (b : List Byte) : Traffic s (s.sendWrite f cls pa b) :=
  .fold _ s fun t _ _ => t.sendAccess_traffic _ _ _ _ _ _ _ _

theorem State.strand_traffic (f : Fabric) : Traffic s (s.strand f) :=
  (s.newId_traffic.trans (State.fabric_traffic _ _)).trans (State.sched_traffic _ _ _ _ _ _)

theorem State.sendControl_traffic (m part : Nat) (f : FlitMsg) : Traffic s (s.sendControl m part f) :=
  .ite (.refl s) (s.enqueue_traffic _ _ _ _ _ _ _)

/-! Table walkers -/

theorem State.modMiss_traffic (die id : Nat) (f : Miss → Miss) : Traffic s (s.modMiss die id f) := s.modDie_traffic _ _

theorem State.walkEnds_traffic (die id : Nat) (r : Nat × Xlate) : Traffic s (s.walkEnds die id r) :=
  (s.modMiss_traffic _ _ _).trans (State.schedSome_traffic _ _ _)

theorem State.walkAsk_traffic (die : Nat) (m : Miss) : Traffic s (s.walkAsk die m) := by
  unfold State.walkAsk
  simp only
  split
  · exact s.walkEnds_traffic _ _ _
  · exact .ite (s.walkEnds_traffic _ _ _) (.ite (s.sendAccess_traffic _ _ _ _ _ _ _ _)
      (.ite (s.schedSome_traffic _ _) (s.hbm_traffic _ _ _ _ _ _ _)))

theorem State.walkBegin_traffic (die : Nat) (m : Miss) : Traffic s (s.walkBegin die m) := by
  unfold State.walkBegin
  simp only
  split
  · exact (s.modMiss_traffic _ _ _).trans (State.walkEnds_traffic _ _ _ _)
  · exact (s.modMiss_traffic _ _ _).trans (State.walkAsk_traffic _ _ _)

theorem State.walkStep_traffic (die n : Nat) : Traffic s (s.walkStep die n) := by
  induction n generalizing s with
  | zero => exact .refl s
  | succ n ih =>
    unfold State.walkStep
    simp only
    split
    · split
      · exact (s.modMiss_traffic _ _ _).trans (ih _)
      · exact .refl s
    split
    · split
      · exact (s.walkBegin_traffic _ _).trans (ih _)
      · exact .refl s
    · exact .refl s

theorem State.askWalk_traffic (die part dord req : Nat) (who : Asker) : Traffic s (s.askWalk die part dord req who) := by
  unfold State.askWalk
  simp only
  split
  · exact s.modMiss_traffic _ _ _
  · exact (s.newId_traffic.trans (State.modDie_traffic _ _ _)).trans (State.walkStep_traffic _ _ _)

theorem State.findXlate_traffic (die part : Nat) (tlb : List Xlate) (dord : Nat) (who : Asker) :
    Traffic s (s.findXlate die part tlb dord who).2 := by
  unfold State.findXlate
  split
  · exact .refl s
  · exact .refl s
  · simp only
    split
    · exact s.modDie_traffic _ _
    · exact s.askWalk_traffic _ _ _ _ _

variable {s} in
theorem State.epFind_traffic {die part va kind dord : Nat} {ev : Ev} {r : Found × State}
    (h : s.epFind die part va kind dord ev = r) : Traffic s r.2 := h ▸ s.findXlate_traffic _ _ _ _ _

end

end Sys2Proof.Machine
end

section
/-! PROOFS. What an agent reads of memory (R146, R147, R152) depends on no register but those of its translation. -/
namespace Sys2Proof.Machine

open Sys2Proof.Spec

/-- Two states that memory looks alike in: the same memory, LLCs and refusals, and the same registers but for the checkpoint
engine's. -/
structure SameSight (s t : State) : Prop where
  mem : t.mem = s.mem
  dies : t.dies = s.dies
  hostDeny : t.hostDeny = s.hostDeny
  regs : ∀ c i, c ≠ .UEE_CKPT_CTL → t.csrVal c i = s.csrVal c i

namespace SameSight

variable {s t : State} (h : SameSight s t)
include h

theorem getF (f : CsrField) (i : Nat) (hf : f.reg ≠ .UEE_CKPT_CTL) : t.getF f i = s.getF f i :=
  State.getF_of_csrVal (h.regs _ _ hf)

theorem die (d : Nat) : t.die d = s.die d := by rw [State.die, State.die, h.dies]

theorem loops (pa : Nat) : t.loops pa = s.loops pa := by
  rw [State.loops, State.loops, h.getF _ _ (by decide)]

theorem domSize : t.domSize = s.domSize := by
  rw [State.domSize, State.domSize, h.getF _ _ (by decide)]

theorem abroad (pa : Nat) : t.abroad pa = s.abroad pa := by rw [State.abroad, State.abroad, h.loops]

theorem window (off n : Nat) : t.window off n = s.window off n := by
  unfold State.window
  congr 1
  funext w
  rw [h.getF _ _ (by decide), h.getF _ _ (by decide), h.getF _ _ (by decide)]

theorem hostRefuses (part pa : Nat) : t.hostRefuses part pa = s.hostRefuses part pa := by
  rw [State.hostRefuses, State.hostRefuses, h.hostDeny]

theorem loopRefuses (part pa n : Nat) : t.loopRefuses part pa n = s.loopRefuses part pa n := by
  unfold State.loopRefuses
  rw [h.loops, h.window, h.getF _ _ (by decide)]
  cases s.window (paOff pa) n with
  | none => rfl
  | some w => simp only [h.getF FAB_WIN.TAG w (by decide)]

theorem memBytes (off n : Nat) : t.memBytes off n = s.memBytes off n := by rw [State.memBytes, State.memBytes, h.mem]

theorem llcWays (d part : Nat) : t.llcWays d part = s.llcWays d part := by
  rw [State.llcWays, State.llcWays, h.regs _ _ (by decide)]

theorem sideLine (part la : Nat) : t.sideLine part la = s.sideLine part la := by
  unfold State.sideLine State.stackLine
  simp only [h.die, h.llcWays, h.memBytes]

theorem sideBytes (part pa n : Nat) : t.sideBytes part pa n = s.sideBytes part pa n := by
  unfold State.sideBytes
  simp only [h.memBytes, h.sideLine]

theorem readEntry (part pa : Nat) : t.readEntry part pa = s.readEntry part pa := by
  rw [State.readEntry, State.readEntry, h.abroad, h.sideBytes]

theorem checkTarget (part pa : Nat) : t.checkTarget part pa = s.checkTarget part pa := by
  unfold State.checkTarget
  simp only [h.getF FAB_DOM_CFG.EN 0 (by decide), h.domSize, h.getF PRT_MEM_OWN.EN _ (by decide), h.getF PRT_MEM_OWN.PRT _ (by decide)]

theorem tableCause (part : Nat) (lv : WalkLevel) (table : Nat) : t.tableCause part lv table = s.tableCause part lv table := by
  unfold State.tableCause
  simp only [h.checkTarget, h.hostRefuses]

theorem leafCause (x : Xlate) (va kind : Nat) : t.leafCause x va kind = s.leafCause x va kind := by
  rw [State.leafCause, State.leafCause, h.checkTarget]

theorem walkFrom (part va kind : Nat) (l : List WalkLevel) (table : Nat) :
    t.walkFrom part va kind l table = s.walkFrom part va kind l table := by
  induction l generalizing table with
  | nil => rfl
  | cons lv rest ih =>
    unfold State.walkFrom
    simp only [h.tableCause, h.readEntry, h.leafCause, ih]

theorem walk (part va kind : Nat) : t.walk part va kind = s.walk part va kind := by
  rw [State.walk, State.walk, h.walkFrom, h.getF _ _ (by decide)]

theorem translate (die part va kind : Nat) (tlb : List Xlate) :
    t.translate die part va kind tlb = s.translate die part va kind tlb := by
  unfold State.translate
  simp only [h.die, h.getF FAB_DOM_CFG.EN 0 (by decide), h.domSize]

theorem agentXlate (die part va kind : Nat) : t.agentXlate die part va kind = s.agentXlate die part va kind := by
  unfold State.agentXlate State.translateNow
  simp only [h.die, h.translate, h.walk]

theorem rangeFault (die part va n kind : Nat) : t.rangeFault die part va n kind = s.rangeFault die part va n kind := by
  unfold State.rangeFault
  simp only [h.agentXlate, h.hostRefuses, h.loopRefuses]

theorem vread (die part va n kind : Nat) : t.vread die part va n kind = s.vread die part va n kind := by
  unfold State.vread
  simp only [h.rangeFault, h.agentXlate, h.abroad, h.sideBytes]

end SameSight

end Sys2Proof.Machine
end

section
/-! PROOFS. Partition resets and checkpoints (R67, R89); the other register writes (O42). -/
namespace Sys2Proof.Machine

open Sys2Proof.Spec

/-! The fence of a reset (R89) -/

/-- A change that leaves the time and the partitions' status alone. -/
structure StatKept (s t : State) : Prop where
  now : t.now = s.now
  stat : ∀ p, t.csrVal .PRT_STAT p = s.csrVal .PRT_STAT p

namespace StatKept

theorem refl (s : State) : StatKept s s := ⟨rfl, fun _ => rfl⟩

theorem trans {s t u : State} (h : StatKept s t) (k : StatKept t u) : StatKept s u :=
  ⟨k.now.trans h.now, fun p => (k.stat p).trans (h.stat p)⟩

theorem of_eq {s t : State} (now : t.now = s.now) (csr : t.csr = s.csr) : StatKept s t :=
  ⟨now, fun p => by rw [State.csrVal, State.csrVal, csr]⟩

theorem fold {β : Type} {f : State → β → State} (l : List β) (s : State) (h : ∀ t, ∀ b ∈ l, StatKept t (f t b)) :
    StatKept s (l.foldl f s) := foldl_rel refl trans l s h

end StatKept

section
variable (s : State)

theorem State.unsched_statKept (f : Due → Bool) : StatKept s (s.unsched f) := .of_eq rfl rfl
theorem State.modDie_statKept (d : Nat) (f : DieSt → DieSt) : StatKept s (s.modDie d f) := .of_eq rfl rfl
theorem State.modTask_statKept (t : Nat) (f : Task → Task) : StatKept s (s.modTask t f) := .of_eq rfl rfl
theorem State.modGroup_statKept (g : Nat) (f : Group → Group) : StatKept s (s.modGroup g f) := .of_eq rfl rfl
theorem State.rx_statKept (rx : SMap RxRing) : StatKept s { s with rx := rx } := .of_eq rfl rfl

theorem State.setF_statKept (f : CsrField) (i v : Nat) (h : f.reg ≠ .PRT_STAT) : StatKept s (s.setF f i v) :=
  ⟨rfl, fun _ => s.csrVal_csrPut_ne _ _ _ _ _ fun e => h e.1.symm⟩

theorem State.freeRx_statKept (t : Task) : StatKept s (s.freeRx t) := by
  unfold State.freeRx
  split
  · exact .refl s
  · exact (s.rx_statKept _).trans (State.setF_statKept _ UEE_RXQ_STAT.OCC _ _ (by decide))

theorem State.freeTx_statKept (t : Task) : StatKept s (s.freeTx t) := by
  unfold State.freeTx
  split
  · exact .refl s
  · exact .of_eq rfl rfl

theorem State.dropTask_statKept (t : Nat) : StatKept s (s.dropTask t) :=
  (((s.freeRx_statKept (s.task t)).trans (State.freeTx_statKept _ (s.task t))).trans (State.unsched_statKept _ _)).trans
    (State.modTask_statKept _ _ _)

theorem State.withdraw_statKept (t : Nat) : StatKept s (s.withdraw t) :=
  ((s.unsched_statKept _).trans (State.modGroup_statKept _ _ _)).trans (State.modTask_statKept _ _ _)

theorem State.nextTest_statKept (d : Nat) : StatKept s (s.nextTest d) := by
  unfold State.nextTest
  simp only
  split
  · exact .of_eq rfl rfl
  · exact .refl s

/-- A task that waits is dropped. -/
def State.fenceTask (s : State) (t : Nat) : State := (if (s.task t).st = .placing then s.withdraw t else s).dropTask t

theorem State.fenceTask_statKept (t : Nat) : StatKept s (s.fenceTask t) := by
  unfold State.fenceTask
  split
  · exact (s.withdraw_statKept t).trans (State.dropTask_statKept _ t)
  · exact s.dropTask_statKept t

/-- A die's registrations of a partition are dropped. -/
def State.fenceDie (p : Nat) (s : State) (d : Nat) : State :=
  let test : Bool := match (s.die d).regTest with | some a => decide (a.part = p) | none => false
  let s := s.modDie d fun k => { k with regQ := k.regQ.filter fun r => decide (r.1 ≠ p) }
  if test then
    ((s.modDie d fun k => { k with regTest := none }).unsched fun e =>
      decide (e.ev = Ev.admissionComplete (Fin.ofNat 4 d))).nextTest d
  else s

theorem State.fenceDie_statKept (p d : Nat) : StatKept s (s.fenceDie p d) := by
  unfold State.fenceDie
  extract_lets test u
  have queued : StatKept s u := s.modDie_statKept _ _
  split
  · exact ((queued.trans (State.modDie_statKept _ _ _)).trans (State.unsched_statKept _ _)).trans (State.nextTest_statKept _ d)
  · exact queued

/-- What a reset drops at once, once its partition shows it. -/
def State.fenced (s : State) (p : Nat) : State :=
  let waiting := s.partTasks p fun t => match t.st with | .pending | .deferred | .ready | .placing => true | _ => false
  let s := waiting.foldl State.fenceTask s
  let mine (d n : Nat) : Bool := (s.stream d n).valid && (s.stream d n).part = p
  let s := s.unsched fun e => match e.ev with
    | .timerRelease d n => mine d.val n.val
    | .checkTick d n _ => mine d.val n
    | .attReport q => decide (q.val = p)
    | _ => false
  let s := { s with
    sigDef := s.sigDef.filter fun e => decide (e.2.2.2.2 ≠ p)
    lq := s.lq.drop fun k => k % 16 = p }
  (List.range 4).foldl (State.fenceDie p) s

theorem State.lists_statKept (sig : List (Nat × Nat × Nat × Word × Nat)) (lq : SMap (List Nat)) :
    StatKept s { s with sigDef := sig, lq := lq } := .of_eq rfl rfl

theorem State.fenced_statKept (p : Nat) : StatKept s (s.fenced p) := by
  unfold State.fenced
  extract_lets waiting t mine u w
  have dropped : StatKept s t := .fold waiting s fun t id _ => t.fenceTask_statKept id
  have silent : StatKept t u := t.unsched_statKept _
  have emptied : StatKept u w := u.lists_statKept _ _
  exact ((dropped.trans silent).trans emptied).trans (.fold _ w fun t d _ => t.fenceDie_statKept p d)

theorem State.resetFence_eq (p : Nat) : s.resetFence p = if s.getF PRT_STAT.RST p = 1 then s
    else ((s.setF PRT_STAT.RST p 1).fenced p).schedWithin 8000 phHost (.resetStop (Fin.ofNat 16 p)) := rfl

theorem State.resetFence_does (p : Part) (idle : s.getF PRT_STAT.RST p.val = 0) :
    (s.resetFence p.val).getF PRT_STAT.RST p.val = 1 ∧ Pending s (s.resetFence p.val) (.resetStop p) 8000 := by
  have fenced := (s.setF PRT_STAT.RST p.val 1).fenced_statKept p.val
  have now : ((s.setF PRT_STAT.RST p.val 1).fenced p.val).now = s.now := by rw [fenced.now, State.setF_now]
  have shown : ((s.setF PRT_STAT.RST p.val 1).fenced p.val).getF PRT_STAT.RST p.val = 1 := by
    rw [State.getF_of_csrVal (f := PRT_STAT.RST) (fenced.stat p.val)]
    exact s.getF_setF_fit PRT_STAT.RST _ 1 (by decide) (by decide)
  rw [s.resetFence_eq, if_neg (by omega), Fin.ofNat_val_eq_self]
  generalize (s.setF PRT_STAT.RST p.val 1).fenced p.val = u at now shown
  exact ⟨shown, Pending.of_now (u.schedWithin_pending _ _ _ (by decide)) now⟩

theorem prtResetGo_does (up : s.hostUp = true) (p : Part) (idle : s.getF PRT_STAT.RST p.val = 0) :
    Does (.prtResetGo 0 p 1) s fun t => t.getF PRT_STAT.RST p.val = 1 ∧ Pending s t (.resetStop p) 8000 := by
  have write : s.putReg 0 .PRT_RESET p.val ((1 : BitVec 64).setWidth 128) = s.resetFence p.val := by
    show (if bit ((1 : BitVec 64).setWidth 128).toNat 0 then s.resetFence p.val else s) = _
    exact if_pos (by decide)
  refine does_hostWrite .PRT_RESET p.val ((1 : BitVec 64).setWidth 128) up p.isLt rfl ?_
  rw [write]
  exact s.resetFence_does p idle

end

/-! Checkpoints (R67) -/

section
variable (s : State) (d : Nat)

theorem State.ckptAsk_traffic : Traffic s (s.ckptAsk d) := by
  unfold State.ckptAsk
  extract_lets k va ev t
  have cleared : Traffic s t := s.modDie_traffic _ _
  split
  · exact cleared
  split
  · next u h => exact (cleared.trans (State.epFind_traffic h)).trans (u.modDie_traffic _ _)
  · next u h => exact (cleared.trans (State.epFind_traffic h)).trans (u.schedSome_traffic _ _)
  · next x u h =>
    exact (cleared.trans (State.epFind_traffic h)).trans (.ite (u.schedSome_traffic _ _) (u.hbm_traffic _ _ _ _ _ _ _))

theorem State.ckptRun_shows : (s.ckptRun d).getF UEE_CKPT_CTL.STATE d = 1 ∧
    (s.ckptRun d).getF UEE_CKPT_CTL.DESC d = s.getF UEE_CKPT_CTL.DESC d := by
  have asked := (s.setF UEE_CKPT_CTL.STATE d 1).ckptAsk_traffic d
  exact ⟨(asked.getF _ _).trans (s.getF_setF_fit UEE_CKPT_CTL.STATE d 1 (by decide) (by decide)),
    (asked.getF _ _).trans (s.getF_setF_field UEE_CKPT_CTL.STATE UEE_CKPT_CTL.DESC d 1 (by decide) rfl (by decide))⟩

/-- The engine's fields with a descriptor's address written. -/
def State.ckptPut (x : Nat) : State := s.setF UEE_CKPT_CTL.DESC d (bits x 63 6)

theorem State.ckptPut_desc (x : Nat) : (s.ckptPut d x).getF UEE_CKPT_CTL.DESC d = bits x 63 6 :=
  s.getF_setF_bits UEE_CKPT_CTL.DESC d x (by decide)

theorem State.ckptPut_state (x : Nat) : (s.ckptPut d x).getF UEE_CKPT_CTL.STATE d = s.getF UEE_CKPT_CTL.STATE d :=
  s.getF_setF_field UEE_CKPT_CTL.DESC UEE_CKPT_CTL.STATE d _ (by decide) rfl (by decide)

theorem State.ckptPut_sight (x : Nat) : SameSight s (s.ckptPut d x) :=
  ⟨rfl, rfl, rfl, fun _ _ h => s.csrVal_csrPut_ne _ _ _ _ _ fun e => h e.1⟩

variable (v : BitVec 128) (go : bit v.toNat 0 = true)
include go

theorem State.wrCkpt_busy (busy : s.getF UEE_CKPT_CTL.STATE d = 1) : s.wrCkpt d v = s.ckptPut d v.toNat := by
  have state := (s.ckptPut_state d v.toNat).trans busy
  unfold State.ckptPut at *
  unfold State.wrCkpt
  simp only [go, state]
  rfl

theorem State.wrCkpt_start (idle : s.getF UEE_CKPT_CTL.STATE d = 0) :
    s.wrCkpt d v = (s.ckptPut d v.toNat).ckptStart d (64 * bits v.toNat 63 6) := by
  have state := (s.ckptPut_state d v.toNat).trans idle
  unfold State.ckptPut at *
  unfold State.wrCkpt
  simp only [go, state]
  rfl

omit go in
/-- A descriptor that cannot be read is refused (R67). -/
theorem State.ckptStart_unread (va : Nat) (h : s.vread d (ckPart d) va 64 0 = none) :
    s.ckptStart d va = s.setF UEE_CKPT_CTL.STATE d 3 := by
  unfold State.ckptStart
  rw [h]

omit go in
/-- A good descriptor starts the engine (R67). -/
theorem State.ckptStart_runs (va : Nat) {b : List Byte} (h : s.vread d (ckPart d) va 64 0 = some b) (ok : ckOk b = true) :
    s.ckptStart d va = (s.modDie d fun k => { k with ckptDesc := b, ckptPos := 0 }).ckptRun d := by
  unfold State.ckptStart
  rw [h]
  simp only [ok]
  rfl

end

section
variable (s : State) (up : s.hostUp = true) (d : Die) (v : BitVec 64) (go : v.getLsbD 0 = true)

/-- What a GO of the checkpoint engine shows. -/
def ckptShows (s : State) (d : Die) (v : BitVec 64) (n : Nat) : Prop := Does (.ckptGo 0 d v) s fun t =>
  t.getF UEE_CKPT_CTL.DESC d.val = bits v.toNat 63 6 ∧ t.getF UEE_CKPT_CTL.STATE d.val = n

theorem bit_setWidth : bit (v.setWidth 128).toNat 0 = v.getLsbD 0 := by rw [setWidth_toNat, bit_toNat]

include up in
theorem ckptShows_of {n : Nat} (h : (s.wrCkpt d.val (v.setWidth 128)).getF UEE_CKPT_CTL.DESC d.val = bits v.toNat 63 6 ∧
    (s.wrCkpt d.val (v.setWidth 128)).getF UEE_CKPT_CTL.STATE d.val = n) : ckptShows s d v n :=
  does_hostWrite .UEE_CKPT_CTL d.val (v.setWidth 128) up d.isLt rfl h

include up go

theorem ckptGo_busy (busy : s.getF UEE_CKPT_CTL.STATE d.val = 1) : ckptShows s d v 1 := by
  refine ckptShows_of s up d v ?_
  rw [s.wrCkpt_busy d.val _ ((bit_setWidth v).trans go) busy, setWidth_toNat]
  exact ⟨s.ckptPut_desc _ _, (s.ckptPut_state _ _).trans busy⟩

theorem ckptGo_unread (idle : s.getF UEE_CKPT_CTL.STATE d.val = 0)
    (none : s.vread d.val (ckPart d.val) (64 * bits v.toNat 63 6) 64 0 = none) : ckptShows s d v 3 := by
  refine ckptShows_of s up d v ?_
  rw [← (s.ckptPut_sight d.val v.toNat).vread] at none
  rw [s.wrCkpt_start d.val _ ((bit_setWidth v).trans go) idle, setWidth_toNat, State.ckptStart_unread _ _ _ none]
  refine ⟨?_, State.getF_setF_fit _ UEE_CKPT_CTL.STATE _ 3 (by decide) (by decide)⟩
  rw [State.getF_setF_field _ UEE_CKPT_CTL.STATE UEE_CKPT_CTL.DESC _ _ (by decide) rfl (by decide)]
  exact s.ckptPut_desc _ _

theorem ckptGo_runs (idle : s.getF UEE_CKPT_CTL.STATE d.val = 0) {b : List Byte}
    (some : s.vread d.val (ckPart d.val) (64 * bits v.toNat 63 6) 64 0 = some b) (ok : ckOk b = true) : ckptShows s d v 1 := by
  refine ckptShows_of s up d v ?_
  rw [← (s.ckptPut_sight d.val v.toNat).vread] at some
  rw [s.wrCkpt_start d.val _ ((bit_setWidth v).trans go) idle, setWidth_toNat, State.ckptStart_runs _ _ _ some ok]
  obtain ⟨state, desc⟩ := State.ckptRun_shows ((s.ckptPut d.val v.toNat).modDie d.val fun k => { k with ckptDesc := b, ckptPos := 0 }) d.val
  exact ⟨desc.trans (s.ckptPut_desc d.val v.toNat), state⟩

end

/-! The register writes of chapters 02 to 05 -/

/-- Settles O42: each write by the lemma on its register's rule, from the access codes of its fields (R8). -/
theorem registerCommands : Obligations.RegisterCommands := by
  unfold Obligations.RegisterCommands
  intro s up
  refine ⟨fabWinWrite_does s up, fun n v => ⟨bwsFabInWrite_takes s up n v, bwsFabInWrite_refused s up n v⟩, retrain_does s up,
    fun v go => ⟨ptcStep_refused s up v go, ptcStep_pends s up v go⟩,
    fun ways p v => ⟨prtOwnershipWrite_refused s up ways p v, prtOwnershipWrite_takes s up ways p v⟩, prtResetGo_does s up,
    sjClear_does s up, sjRestart_does s up 2 (by decide) (by decide), sjImgGo_does s up, attGo_does s up, snpArm_does s up,
    fun ready => snpTrig_does s up ready 3 (by decide) (by decide), fun d p v idle on go => ⟨streamRegister_does s up d p v idle on go,
      fun op => ⟨streamDeregister_refused s up d p v idle on go op, streamDeregister_done s up d p v idle on go op⟩⟩,
    dlsSesFloorWrite_does s up, fun d g v => ⟨admGrpWrite_held s up d g v, admGrpWrite_takes s up d g v⟩,
    fun j v => ⟨bwsFrameCfgWrite_refused s up j v, bwsFrameCfgWrite_takes s up j v⟩, fun d v go => ?_⟩
  exact ⟨ckptGo_busy s up d v go, ckptGo_unread s up d v go, fun idle ⟨_, read, ok⟩ => ckptGo_runs s up d v go idle read ok⟩

end Sys2Proof.Machine
end

section
/-! PROOFS. What the memory system leaves alone of contexts, loads, atomics and commands (for O44, O49). -/
namespace Sys2Proof.Machine

open Sys2Proof.Spec

/-- Registers that the memory system's work may count in, or stop a measurement in. -/
def besideRegs : List Csr := [.CCC_EVT, .CCC_ECNT, .CCC_RPL_CTL]

/-- What the memory system's work may change: beside traffic, memory and the caches, the stores on their way, barriers, and what
is counted and measured. Scratchpads stay, and nothing is taken off the agenda. -/
structure Beside (s t : State) : Prop where
  same : t = { s with
    agenda := t.agenda, seq := t.seq, free := t.free, nextId := t.nextId, dies := t.dies, ports := t.ports
    fabric := t.fabric, bwsQ := t.bwsQ, mem := t.mem, csr := t.csr, energyLog := t.energyLog, cores := t.cores
    clusters := t.clusters, stores := t.stores, barriers := t.barriers, env := t.env }
  agenda : ∀ x ∈ s.agenda, x ∈ t.agenda
  regs : ∀ c i, c ∉ besideRegs → t.csrVal c i = s.csrVal c i
  spad : ∀ n, (t.core n).spad = (s.core n).spad

namespace Beside

theorem refl (s : State) : Beside s s := ⟨rfl, fun _ h => h, fun _ _ _ => rfl, fun _ => rfl⟩

theorem trans {s t u : State} (h : Beside s t) (k : Beside t u) : Beside s u := by
  refine ⟨?_, fun x hx => k.agenda x (h.agenda x hx), fun c i n => (k.regs c i n).trans (h.regs c i n),
    fun n => (k.spad n).trans (h.spad n)⟩
  exact k.same.trans (congrArg (fun x : State => { x with
    agenda := u.agenda, seq := u.seq, free := u.free, nextId := u.nextId, dies := u.dies, ports := u.ports
    fabric := u.fabric, bwsQ := u.bwsQ, mem := u.mem, csr := u.csr, energyLog := u.energyLog, cores := u.cores
    clusters := u.clusters, stores := u.stores, barriers := u.barriers, env := u.env }) h.same)

theorem ite {s t u : State} {c : Prop} [Decidable c] (h : Beside s t) (k : Beside s u) : Beside s (if c then t else u) := by
  split
  · exact h
  · exact k

theorem fold {β : Type} {f : State → β → State} (l : List β) (s : State) (h : ∀ t, ∀ b ∈ l, Beside t (f t b)) :
    Beside s (l.foldl f s) := foldl_rel refl trans l s h

section
variable {s t : State} (h : Beside s t)
include h

theorem now : t.now = s.now := by rw [h.same]

theorem banks : t.banks = s.banks := by rw [h.same]
theorem tasks : t.tasks = s.tasks := by rw [h.same]
theorem cmds : t.cmds = s.cmds := by rw [h.same]
theorem loads : t.loads = s.loads := by rw [h.same]
theorem atoms : t.atoms = s.atoms := by rw [h.same]
theorem allred : t.allred = s.allred := by rw [h.same]

theorem bank (n : Nat) : t.bank n = s.bank n := by rw [State.bank, State.bank, h.banks]

theorem getF (f : CsrField) (i : Nat) (hf : f.reg ∉ besideRegs) : t.getF f i = s.getF f i := State.getF_of_csrVal (h.regs _ _ hf)

theorem spadBytes (core ctx off n : Nat) : t.spadBytes core ctx off n = s.spadBytes core ctx off n := by
  rw [State.spadBytes, State.spadBytes, h.spad, h.bank]

end

end Beside

theorem Traffic.beside {s t : State} (h : Traffic s t) : Beside s t := by
  refine ⟨?_, h.agenda, fun c i _ => ?_, fun n => ?_⟩
  · rw [h.same]
  · rw [State.csrVal, State.csrVal, h.csr]
  · rw [State.core, State.core, h.cores]

section
variable (s : State)

/-! The accessors -/

theorem State.mem_beside (m : SMap Byte) : Beside s { s with mem := m } :=
  ⟨rfl, fun _ h => h, fun _ _ _ => rfl, fun _ => rfl⟩

theorem State.stores_beside (m : SMap PendStore) : Beside s { s with stores := m } :=
  ⟨rfl, fun _ h => h, fun _ _ _ => rfl, fun _ => rfl⟩

theorem State.modCluster_beside (c : Nat) (f : ClusterSt → ClusterSt) : Beside s (s.modCluster c f) :=
  ⟨rfl, fun _ h => h, fun _ _ _ => rfl, fun _ => rfl⟩

theorem State.modBarrier_beside (k : Nat) (f : Barrier → Barrier) : Beside s (s.modBarrier k f) :=
  ⟨rfl, fun _ h => h, fun _ _ _ => rfl, fun _ => rfl⟩

/-- A change of a core that leaves its scratchpad alone. -/
theorem State.modCore_beside (c : Nat) (f : CoreSt → CoreSt) (h : ∀ k, (f k).spad = k.spad) : Beside s (s.modCore c f) := by
  refine ⟨rfl, fun _ h => h, fun _ _ _ => rfl, fun n => ?_⟩
  rw [State.core_modCore]
  split
  · next e => rw [h, e]
  · rfl

theorem State.setRpl_beside (f : CsrField) (i v : Nat) (h : f.reg ∈ besideRegs) : Beside s (s.setF f i v) := by
  refine ⟨rfl, fun _ h => h, fun c j n => s.csrVal_csrPut_ne _ _ _ _ _ fun e => n ?_, fun _ => rfl⟩
  rw [e.1]
  exact h

theorem CountsOnly.beside {s t : State} (h : CountsOnly s t) : Beside s t := by
  obtain ⟨⟨c, e, rfl⟩, regs⟩ := h
  exact ⟨rfl, fun _ h => h, fun d i n => regs d i (fun e => n (by simp [besideRegs, e])) fun e => n (by simp [besideRegs, e]),
    fun _ => rfl⟩

theorem State.count_beside (core ctx code n : Nat) : Beside s (s.count core ctx code n) := (s.count_countsOnly core ctx code n).beside

/-- Work for a task is the work. -/
theorem State.asTask_beside (task : Nat) (f : State → State) (h : ∀ t, Beside t (f t)) : Beside s (s.asTask task f) := by
  have work := h { s with env := { s.env with task := task } }
  refine ⟨?_, work.agenda, work.regs, work.spad⟩
  exact congrArg (fun x : State => { x with env := s.env }) work.same

/-! Caches and memory -/

theorem State.hbmTask_beside (j task bytes : Nat) (ev : Option Ev) (who : Nat) : Beside s (s.hbmTask j task bytes ev who) :=
  (s.hbmTask_traffic j task bytes ev who).beside

theorem State.memStoreMasked_beside (off : Nat) (b : List Byte) (m : List Bool) : Beside s (s.memStoreMasked off b m) :=
  s.mem_beside _

theorem State.stackStore_beside (la : Nat) (b : List Byte) (m : List Bool) : Beside s (s.stackStore la b m) := s.mem_beside _

theorem State.llcEvict_beside (l : Line) : Beside s (s.llcEvict l) :=
  .ite ((s.stackStore_beside _ _ _).trans (State.hbmTask_beside _ _ _ _ _ _)) (.refl s)

theorem State.modDie_beside (d : Nat) (f : DieSt → DieSt) : Beside s (s.modDie d f) := (s.modDie_traffic d f).beside

theorem State.llcPut_beside (die part la : Nat) (fill : List Byte) (fillM : List Bool) (data : List Byte) (dirt : List Bool)
    (v : Nat) (touch : Bool) : Beside s (s.llcPut die part la fill fillM data dirt v touch) := by
  unfold State.llcPut
  extract_lets set ways upd
  split
  · exact s.modDie_beside _ _
  · split
    · exact s.stackStore_beside _ _ _
    · exact ((s.modDie_beside _ _).trans (.ite (.refl _) (State.llcEvict_beside _ _))).trans (State.modDie_beside _ _ _)

theorem State.llcFill_beside (die part la rd : Nat) (want : List Bool) (src : List Byte) :
    Beside s (s.llcFill die part la rd want src) := .ite (.refl s) (s.llcPut_beside _ _ _ _ _ _ _ _ _)

theorem State.mergeRemote_beside (die part la : Nat) (data : List Byte) (mask : List Bool) :
    Beside s (s.mergeRemote die part la data mask) := by
  unfold State.mergeRemote
  split
  · exact s.modDie_beside _ _
  · exact .refl s

theorem State.sideStore_beside (die part la : Nat) (data : List Byte) (mask : List Bool) (v : Nat) :
    Beside s (s.sideStore die part la data mask v) :=
  .ite (s.memStoreMasked_beside _ _ _)
    (((Beside.ite (s.hbmTask_beside _ _ _ _ _) (.refl s)).trans (State.llcPut_beside _ _ _ _ _ _ _ _ _ _)).trans
      (.ite (.refl _) (State.mergeRemote_beside _ _ _ _ _ _)))

theorem State.stackAndCopy_beside (part la : Nat) (data : List Byte) (mask : List Bool) :
    Beside s (s.stackAndCopy part la data mask) := by
  unfold State.stackAndCopy
  simp only
  split
  · exact s.memStoreMasked_beside _ _ _
  split
  · exact (s.stackStore_beside _ _ _).trans (State.modDie_beside _ _ _)
  · exact s.stackStore_beside _ _ _

theorem State.countLack_beside (part la who : Nat) : Beside s (s.countLack part la who) :=
  .ite (.refl s) (s.count_beside _ _ _ _)

theorem State.byLines_beside (pa : Nat) (b : List Byte) (f : State → Nat → List Byte → List Bool → State)
    (h : ∀ t la d m, Beside t (f t la d m)) : Beside s (s.byLines pa b f) := .fold _ s fun t _ _ => h t _ _ _

theorem State.sideTouch_beside (part pa n : Nat) : Beside s (s.sideTouch part pa n) := by
  refine .ite (.refl s) (s.byLines_beside _ _ _ fun t la d m => ?_)
  simp only
  split
  · exact .ite (t.modDie_beside _ _) (.refl t)
  · exact .refl t

/-! First-level caches and write-combining buffers -/

theorem State.l1WriteBack_beside (core : Nat) (l : Line) (sel : List Bool) : Beside s (s.l1WriteBack core l sel) :=
  .ite ((s.countLack_beside _ _ _).trans (State.sideStore_beside _ _ _ _ _ _ _)) (.refl s)

theorem State.l1Upd_beside (core part la v : Nat) (f : Line → Line) : Beside s (s.l1Upd core part la v f) := by
  unfold State.l1Upd
  extract_lets h set
  split
  · exact s.modCore_beside _ _ fun _ => rfl
  · split
    · exact .refl s
    · extract_lets old t u
      have chosen : Beside s t := s.modCore_beside _ _ fun _ => rfl
      have evicted : Beside t u := .ite (.refl t) (t.l1WriteBack_beside _ _ _)
      exact (chosen.trans evicted).trans (u.modCore_beside _ _ fun _ => rfl)

theorem State.l1FillFrom_beside (core part la rd : Nat) (want : List Bool) (src : List Byte) :
    Beside s (s.l1FillFrom core part la rd want src) := by
  unfold State.l1FillFrom
  extract_lets t data hit
  have filled : Beside s t := s.llcFill_beside (dieOf core) part la rd want src
  exact .ite filled (filled.trans (t.l1Upd_beside _ _ _ _ _))

theorem State.l1Drop_beside (core la : Nat) (mask : List Bool) : Beside s (s.l1Drop core la mask) := by
  unfold State.l1Drop
  split
  · exact s.modCore_beside _ _ fun _ => rfl
  · exact .refl s

theorem State.l1Flush_beside (core pa n : Nat) : Beside s (s.l1Flush core pa n) :=
  .fold _ s fun t _ _ => (t.l1WriteBack_beside _ _ _).trans (State.l1Drop_beside _ _ _ _)

theorem State.l1Sweep_beside (cores : List Nat) (clean : Line → List Bool) (f : Line → Line) : Beside s (s.l1Sweep cores clean f) :=
  .fold _ s fun t _ _ => .fold _ t fun u _ _ => (u.l1WriteBack_beside _ _ _).trans (State.modCore_beside _ _ _ fun _ => rfl)

theorem State.pendStore_beside (core ctx task n : Nat) (wcb : Bool) : Beside s (s.pendStore core ctx task n wcb).2 :=
  s.newId_traffic.beside.trans (State.stores_beside _ _)

theorem State.strandStore_beside (core ctx task part : Nat) (wcb : Bool) : Beside s (s.strandStore core ctx task part wcb) :=
  (s.pendStore_beside core ctx task 1 wcb).trans (State.strand_traffic _ _).beside

theorem State.sendStore_beside (core ctx task part : Nat) (l : List (Nat × List Byte × List Bool)) (wcb : Bool) :
    Beside s (s.sendStore core ctx task part l wcb) :=
  (s.pendStore_beside core ctx task l.length wcb).trans (.fold _ _ fun t _ _ => (t.sendAccess_traffic _ _ _ _ _ _ _ _).beside)

theorem State.wcbFlush_beside (core buf part : Nat) : Beside s (s.wcbFlush core buf part) := by
  unfold State.wcbFlush
  extract_lets w t
  have freed : Beside s t := s.modCore_beside _ _ fun _ => rfl
  split
  · exact freed
  · refine freed.trans (.ite ?_ (.ite ?_ (.ite ?_ ?_)))
    · exact (t.mergeRemote_beside _ _ _ _ _).trans (State.sendStore_beside _ _ _ _ _ _ _)
    · exact t.stackAndCopy_beside _ _ _ _
    · exact t.strandStore_beside _ _ _ _ _
    · exact ((t.stackAndCopy_beside _ _ _ _).trans (.ite (.refl _) (State.mergeRemote_beside _ _ _ _ _ _))).trans
        (.ite (.refl _) (State.hbmTask_beside _ _ _ _ _ _))

theorem State.wcbFlushAll_beside (core part : Nat) : Beside s (s.wcbFlushAll core part) :=
  .fold _ s fun t b _ => t.wcbFlush_beside core b part

theorem State.cleanOwn_beside (core ctx : Nat) : Beside s (s.cleanOwn core ctx) := by
  unfold State.cleanOwn
  exact s.l1Sweep_beside _ _ _

theorem State.dropClean_beside (cores : List Nat) : Beside s (s.dropClean cores) := by
  unfold State.dropClean
  exact s.l1Sweep_beside _ _ _

/-- The release actions of a scope (R158). -/
theorem State.releaseActs_beside (core ctx part scope : Nat) : Beside s (s.releaseActs core ctx part scope) :=
  .ite (.refl s) (.ite (.ite (.refl s) (s.cleanOwn_beside core ctx))
    ((s.cleanOwn_beside core ctx).trans (State.wcbFlushAll_beside _ core part)))

/-- The acquire actions of a scope (R158). -/
theorem State.acquireActs_beside (core part scope : Nat) : Beside s (s.acquireActs core part scope) :=
  have dropped := s.dropClean_beside (s.l1Cores core)
  .ite (.refl s) (.ite (.ite (.refl s) (s.dropClean_beside _)) (.ite dropped (dropped.trans (State.modDie_beside _ _ _))))

/-! Agents' writes and the capture of a measured task -/

theorem State.sideWrite_beside (die part task cls pa : Nat) (b : List Byte) (v : Nat) :
    Beside s (s.sideWrite die part task cls pa b v) :=
  .ite (s.sendWrite_traffic _ _ _ _).beside (s.byLines_beside _ _ _ fun t _ _ _ => t.sideStore_beside _ _ _ _ _ _)

variable {s} in
theorem State.vwrite_beside {u : State} {die part task cls va : Nat} {b : List Byte}
    (h : s.vwrite die part task cls va b = some u) : Beside s u := by
  unfold State.vwrite at h
  split at h
  · exact absurd h nofun
  · obtain rfl := Option.some.inj h
    exact .fold _ s fun t _ _ => t.sideWrite_beside _ _ _ _ _ _ _

theorem State.capture1_beside (t space a addr : Nat) (old : List Byte) : Beside s (s.capture1 t space a addr old) := by
  unfold State.capture1
  extract_lets k cl r stop va
  have stopped : Beside s (stop s) := (s.setRpl_beside _ _ _ (by decide)).trans (State.modCluster_beside _ _ _)
  refine .ite (.refl s) (.ite stopped ?_)
  split
  · exact stopped
  · next u h => exact (State.vwrite_beside h).trans (u.modCluster_beside _ _)

theorem State.captureMem_beside (t core pa n : Nat) : Beside s (s.captureMem t core pa n) :=
  .ite (.refl s) (.fold _ s fun u _ _ => u.capture1_beside _ _ _ _ _)

/-! Barriers -/

theorem State.domCheck_beside (bar : Nat) : Beside s (s.domCheck bar) :=
  .ite (.refl s) ((s.modBarrier_beside _ _).trans (.ite
    (.ite (State.schedWithin_traffic _ _ _ _).beside ((State.sched_traffic _ _ _ _ _ _).trans (State.freed_traffic _)).beside)
    (State.sendControl_traffic _ _ _ _).beside))

theorem State.childArrives_beside (bar child task : Nat) : Beside s (s.childArrives bar child task) :=
  (s.modBarrier_beside _ _).trans (State.domCheck_beside _ _)

theorem State.barActs_beside (b : Barrier) : Beside s (s.barActs b) := .fold _ s fun t _ _ => t.releaseActs_beside _ _ _ _

theorem State.barrierCheck_beside (k : Nat) : Beside s (s.barrierCheck k) :=
  (Beside.ite (.refl s) (s.barActs_beside _)).trans (.ite (.refl _) ((State.modBarrier_beside _ _ _).trans
    (.ite (State.childArrives_beside _ _ _ _) (State.schedWithin_traffic _ _ _ _).beside)))

theorem State.barRecheck_beside (core ctx : Nat) : Beside s (s.barRecheck core ctx) :=
  .fold _ s fun t _ _ => t.barrierCheck_beside _

theorem State.kick_traffic (t core ctx : Nat) : Traffic s (s.kick t core ctx) :=
  .ite (.refl s) ((s.sched_traffic _ _ _ _ _).trans (State.sched_traffic _ _ _ _ _ _))

end

/-! What waits for a context's stores (R284) -/

/-- A context but for its fence. -/
def Bank.unfenced (b : Bank) : Bank := { b with fence := 0 }

section
variable (s : State) (core ctx task : Nat)

/-- A context's fence is over. -/
def State.unfence (b : Nat) : State := s.modBank b fun k => { k with fence := 0 }

theorem State.unfence_bank (b n : Nat) : ((s.unfence b).bank n).unfenced = (s.bank n).unfenced := by
  rw [State.unfence, State.bank_modBank]
  split
  · next e => rw [e]; rfl
  · rfl

/-- With no store that waits, a context's stores are tried for its fence alone. -/
theorem State.tryStores_idle (none : (s.bank (ctxOf core ctx)).heldStores = []) :
    s.tryStores core ctx task = s ∨ s.tryStores core ctx task = s.unfence (ctxOf core ctx) := by
  unfold State.tryStores State.freeStores
  simp only
  split
  · split
    · exact .inr rfl
    · exact .inl rfl
  · next waits => rw [none] at waits; cases waits

/-- With no store that waits, what follows the order of a context's stores is a fence that ends and barriers that are checked. -/
theorem State.orderFree_idle (none : (s.bank (ctxOf core ctx)).heldStores = []) :
    ∃ u, (u = s ∨ u = s.unfence (ctxOf core ctx)) ∧ Beside u (s.orderFree core ctx task) := by
  unfold State.orderFree
  exact ⟨s.tryStores core ctx task, s.tryStores_idle core ctx task none, State.barRecheck_beside _ core ctx⟩

/-- Without barriers it is the fence alone. -/
theorem State.orderFree_alone (none : (s.bank (ctxOf core ctx)).heldStores = []) (bars : s.barriers = []) :
    s.orderFree core ctx task = s ∨ s.orderFree core ctx task = s.unfence (ctxOf core ctx) := by
  have still : s.orderFree core ctx task = s.tryStores core ctx task := by
    have kept : (s.tryStores core ctx task).barriers = [] := by
      rcases s.tryStores_idle core ctx task none with h | h <;> rw [h]
      · exact bars
      · exact bars
    rw [State.orderFree, State.barRecheck, kept]
    rfl
  rw [still]
  exact s.tryStores_idle core ctx task none

end

end Sys2Proof.Machine
end

section
/-! PROOFS. Data of loads, drains of buffers and acknowledgements (R142, R343, R344), for O44. -/
namespace Sys2Proof.Machine

open Sys2Proof.Spec

theorem SMap.look_drop_same {α : Type} [Inhabited α] (m : SMap α) (n : Nat) : (m.drop fun k => decide (k = n)).look n = default := by
  have key : (m.drop fun k => decide (k = n)) = m.filter fun p => p.1 ≠ n := by
    unfold SMap.drop
    congr 1
    funext p
    exact (decide_not (p := p.1 = n)).symm
  rw [key, SMap.look_without, if_pos rfl]

/-! Loads (R343) -/

/-- Work that fetches the data of a load: contexts stay, and it is no later than it was. -/
structure Fetching (id : Nat) (s t : State) : Prop where
  banks : t.banks = s.banks
  late : (t.loads.look id).late = (s.loads.look id).late

namespace Fetching

theorem refl (id : Nat) (s : State) : Fetching id s s := ⟨rfl, rfl⟩

theorem trans {id : Nat} {s t u : State} (h : Fetching id s t) (k : Fetching id t u) : Fetching id s u :=
  ⟨k.banks.trans h.banks, k.late.trans h.late⟩

theorem ite {id : Nat} {s t u : State} {c : Prop} [Decidable c] (h : Fetching id s t) (k : Fetching id s u) :
    Fetching id s (if c then t else u) := by
  split
  · exact h
  · exact k

theorem fold {β : Type} {f : State → β → State} (id : Nat) (l : List β) (s : State) (h : ∀ t, ∀ b ∈ l, Fetching id t (f t b)) :
    Fetching id s (l.foldl f s) := foldl_rel (refl id) trans l s h

end Fetching

theorem Beside.fetching {s t : State} (h : Beside s t) (id : Nat) : Fetching id s t := ⟨h.banks, by rw [h.loads]⟩

theorem Traffic.fetching {s t : State} (h : Traffic s t) (id : Nat) : Fetching id s t := h.beside.fetching id

section
variable (s : State)

/-- A load changed. -/
def State.updLoad (s : State) (id : Nat) (f : Load → Load) : State := { s with loads := s.loads.upd id f }

theorem State.updLoad_look (id : Nat) (f : Load → Load) : (s.updLoad id f).loads.look id = f (s.loads.look id) :=
  SMap.look_upd_same _ _ _

/-- A change of a load that is no later after it. -/
theorem State.updLoad_fetching (id : Nat) (f : Load → Load) (h : ∀ l, (f l).late = l.late) : Fetching id s (s.updLoad id f) :=
  ⟨rfl, by rw [s.updLoad_look, h]⟩

theorem State.missOut_fetching (id core part scope off : Nat) (p : Nat × Nat × Nat) :
    Fetching id s (s.missOut id core part scope off p) := by
  have more := fun (u : State) (n : Nat) => u.updLoad_fetching id (fun l => { l with need := l.need + n }) fun _ => rfl
  have fill := fun (u : State) (b : List Byte) => u.updLoad_fetching id (fun l => l.fill off b) fun _ => rfl
  have counted := fun (u : State) ctx => Fetching.ite (c := p.2.2 = 0) ((u.count_beside core ctx 0x0D 1).fetching id) (.refl id u)
  unfold State.missOut
  extract_lets l t more' ev cached u v w x
  refine .ite ?_ (.ite ?_ ?_)
  · exact (counted s l.ctx).trans (.fold id _ _ fun t e _ => (more t 1).trans ((State.sendAccess_traffic _ _ _ _ _ _ _ _ _).fetching id))
  · exact (more s 1).trans ((State.strand_traffic _ _).fetching id)
  · have filled : Fetching id s v := fill s _
    have waits : Fetching id v w := (Fetching.ite (.refl id v) ((v.sideTouch_beside _ _ _).fetching id)).trans (more _ 1)
    refine (filled.trans waits).trans (.ite ((w.schedSome_traffic _ _).fetching id) ?_)
    exact (counted w l.ctx).trans ((State.hbmTask_traffic _ _ _ _ _ _).fetching id)

theorem State.loadGo_does (id : Nat) : ((s.loadGo id).loads.look id).late = false ∧ (s.loadGo id).banks = s.banks := by
  obtain ⟨banks, late⟩ := Fetching.fold (f := fun u p => u.missOut id (s.loads.look id).core (u.task (s.loads.look id).task).part 0 p.1 p.2)
    id (pieceOffsets 0 (s.loads.look id).pieces)
    (s.updLoad id fun l => { l with late := false, behind := none, need := 0 })
    fun t p _ => t.missOut_fetching id _ _ 0 p.1 p.2
  exact ⟨late.trans (by rw [State.updLoad_look]), banks⟩

theorem State.loadFill_beside (l : Load) (part : Nat) (p : Nat × Nat × Nat) : Beside s (s.loadFill l part p) :=
  .ite (.refl s) (s.asTask_beside _ _ fun t => .fold _ t fun u _ _ => u.l1FillFrom_beside _ _ _ _ _ _)

/-- A load is gone. -/
def State.dropLoad (s : State) (id : Nat) : State := { s with loads := s.loads.drop (· = id) }

theorem State.dropLoad_loads (id : Nat) : (s.dropLoad id).loads = s.loads.drop (· = id) := rfl

/-- The data of a load in the caches, and the load gone. -/
def State.loadFilled (s : State) (l : Load) : State :=
  (l.pieces.foldl (fun u p => u.loadFill l (s.task l.task).part p) s).dropLoad l.id

/-- The value of a load is on its way to its register. -/
def State.loadLands (s : State) (l : Load) (data : List Byte) : State :=
  (s.push (ctxOf l.core l.ctx) (max l.land ((s.bank (ctxOf l.core l.ctx)).lastCyc + 1)) l.ord
    (destWrite l.dst l.width l.sx data)).kick l.task l.core l.ctx

theorem State.loadFilled_kept (l : Load) :
    (s.loadFilled l).banks = s.banks ∧ (s.loadFilled l).loads = s.loads.drop (· = l.id) := by
  have filled : Beside s (l.pieces.foldl (fun u p => u.loadFill l (s.task l.task).part p) s) :=
    .fold _ s fun t p _ => t.loadFill_beside l _ p
  refine ⟨filled.banks, ?_⟩
  rw [State.loadFilled, State.dropLoad_loads, filled.loads]

/-- The bytes that a load gives its register. -/
def Load.result (l : Load) : List Byte := if l.atomic then bytesAt l.data 0 l.width else l.bytes

/-- A load of a register that is no acquire: it leaves, what waited for it goes on, and its value lands (R343). -/
theorem State.loadWhole_eq (l : Load) (plain : l.acq = 0) (wide : l.width ≠ 0) (reg : l.dst ≠ .s 0) :
    s.loadWhole l = ((s.loadFilled l).orderFree l.core l.ctx l.task).loadLands l l.result := by
  unfold State.loadWhole
  extract_lets part bytes t u v w b
  have free : v = u := if_pos plain
  rw [if_neg (by simp [wide, reg])]
  show (w.push _ _ _ _).kick _ _ _ = _
  have order : w = u.orderFree l.core l.ctx l.task := congrArg (fun x : State => x.orderFree l.core l.ctx l.task) free
  rw [order]
  rfl

theorem Bank.unfenced_pend {b c : Bank} (h : b.unfenced = c.unfenced) : b.pend = c.pend := by
  have pend := congrArg Bank.pend h
  exact pend

theorem Bank.unfenced_lastCyc {b c : Bank} (h : b.unfenced = c.unfenced) : b.lastCyc = c.lastCyc := by
  have cyc := congrArg Bank.lastCyc h
  exact cyc

theorem Bank.unfenced_heldStores {b c : Bank} (h : b.unfenced = c.unfenced) : b.heldStores = c.heldStores := by
  have held := congrArg Bank.heldStores h
  exact held

/-- What the order of a context's stores lets go on leaves contexts, but for the fence, and loads alone. -/
theorem State.orderFree_kept (core ctx task : Nat) (none : (s.bank (ctxOf core ctx)).heldStores = []) :
    (∀ n, ((s.orderFree core ctx task).bank n).unfenced = (s.bank n).unfenced) ∧
      (s.orderFree core ctx task).loads = s.loads ∧ (s.orderFree core ctx task).atoms = s.atoms := by
  obtain ⟨u, hu, beside⟩ := s.orderFree_idle core ctx task none
  have bank : ∀ n, (u.bank n).unfenced = (s.bank n).unfenced := by
    rcases hu with rfl | rfl
    · exact fun _ => rfl
    · exact s.unfence_bank _
  have loads : u.loads = s.loads := by rcases hu with rfl | rfl <;> rfl
  have atoms : u.atoms = s.atoms := by rcases hu with rfl | rfl <;> rfl
  exact ⟨fun n => by rw [beside.bank, bank], beside.loads.trans loads, beside.atoms.trans atoms⟩

theorem State.loadLands_pend (l : Load) (data : List Byte) :
    ((s.loadLands l data).bank (ctxOf l.core l.ctx)).pend = (s.bank (ctxOf l.core l.ctx)).pend ++
      [⟨max l.land ((s.bank (ctxOf l.core l.ctx)).lastCyc + 1), l.ord, destWrite l.dst l.width l.sx data⟩] := by
  have kicked := fun u : State => (u.kick_traffic l.task l.core l.ctx).beside.bank (ctxOf l.core l.ctx)
  rw [State.loadLands, kicked, State.push, State.bank_modBank_same]

theorem State.loadLands_loads (l : Load) (data : List Byte) : (s.loadLands l data).loads = s.loads :=
  (State.kick_traffic (s.push _ _ _ _) _ _ _).loads

/-- A load that lands is gone, and its value is due at its context (R343). -/
theorem State.loadWhole_lands (id : Nat) (own : (s.loads.look id).id = id) (plain : (s.loads.look id).acq = 0)
    (wide : (s.loads.look id).width ≠ 0) (reg : (s.loads.look id).dst ≠ .s 0)
    (none : (s.bank (ctxOf (s.loads.look id).core (s.loads.look id).ctx)).heldStores = []) :
    let l := s.loads.look id
    let b := ctxOf l.core l.ctx
    (s.loadWhole l).loads.look id = {} ∧ ((s.loadWhole l).bank b).pend = (s.bank b).pend ++
      [⟨max l.land ((s.bank b).lastCyc + 1), l.ord, destWrite l.dst l.width l.sx l.result⟩] := by
  intro l b
  obtain ⟨banks, loads⟩ := s.loadFilled_kept l
  have bank : ∀ n, (s.loadFilled l).bank n = s.bank n := fun n => by rw [State.bank, State.bank, banks]
  obtain ⟨unfenced, left, _⟩ := (s.loadFilled l).orderFree_kept l.core l.ctx l.task (by rw [bank]; exact none)
  rw [s.loadWhole_eq l plain wide reg]
  constructor
  · rw [State.loadLands_loads, left, loads]
    have key : l.id = id := own
    rw [key]
    exact SMap.look_drop_same _ _
  · rw [State.loadLands_pend, Bank.unfenced_pend (unfenced _), Bank.unfenced_lastCyc (unfenced _), bank]

end

section
variable (s : State) (id : Nat)

theorem exec_loadDataLand : exec (.loadDataLand id) s = .next (s.loadArrive id) := rfl

theorem loadDataLand_gone (h : (s.loads.look id).id ≠ id) : exec (.loadDataLand id) s = .next s := by
  rw [exec_loadDataLand, State.loadArrive, if_pos h]

variable (own : (s.loads.look id).id = id)
include own

theorem loadDataLand_late (late : (s.loads.look id).late = true) :
    Does (.loadDataLand id) s fun t => (t.loads.look id).late = false ∧ t.banks = s.banks := by
  refine ⟨s.loadGo id, ?_, s.loadGo_does id⟩
  rw [exec_loadDataLand, State.loadArrive, if_neg (not_not.2 own), if_pos late]

variable (now : (s.loads.look id).late = false)
include now

theorem loadDataLand_part (more : 1 < (s.loads.look id).need) :
    Does (.loadDataLand id) s fun t => (t.loads.look id).need = (s.loads.look id).need - 1 ∧ t.banks = s.banks := by
  refine ⟨s.updLoad id fun l => { l with need := l.need - 1 }, ?_, by rw [State.updLoad_look], rfl⟩
  rw [exec_loadDataLand, State.loadArrive, if_neg (not_not.2 own), if_neg (by rw [now]; exact Bool.false_ne_true), if_pos more]
  rfl

variable (last : (s.loads.look id).need ≤ 1)
include last

theorem loadDataLand_early (early : s.now < (s.loads.look id).notBefore) :
    Does (.loadDataLand id) s fun t => ∃ x ∈ t.agenda, x.ev = .loadDataLand id ∧ x.time = (s.loads.look id).notBefore := by
  refine ⟨s.sched (s.loads.look id).notBefore phMem (.loadDataLand id), ?_, State.dueAt_sched _ _ _ _⟩
  rw [exec_loadDataLand, State.loadArrive, if_neg (not_not.2 own), if_neg (by rw [now]; exact Bool.false_ne_true),
    if_neg (by omega), if_pos early]

theorem loadDataLand_lands (due : (s.loads.look id).notBefore ≤ s.now) (wide : (s.loads.look id).width ≠ 0)
    (reg : (s.loads.look id).dst ≠ .s 0) (plain : (s.loads.look id).acq = 0)
    (none : (s.bank (ctxOf (s.loads.look id).core (s.loads.look id).ctx)).heldStores = []) :
    let l := s.loads.look id
    let b := ctxOf l.core l.ctx
    Does (.loadDataLand id) s fun t => t.loads.look id = {} ∧ (t.bank b).pend = (s.bank b).pend ++
      [⟨max l.land ((s.bank b).lastCyc + 1), l.ord, destWrite l.dst l.width l.sx l.result⟩] := by
  refine ⟨s.loadWhole (s.loads.look id), ?_, s.loadWhole_lands id own plain wide reg none⟩
  rw [exec_loadDataLand, State.loadArrive, if_neg (not_not.2 own), if_neg (by rw [now]; exact Bool.false_ne_true),
    if_neg (by omega), if_neg (by omega)]

end

/-! Drains (R344) -/

section
variable (s : State) (core : Core) (buf : Fin 16)

theorem exec_wcbDrain : exec (.wcbDrain core buf) s =
    .next (if ((s.core core.val).wcb.look buf.val).draining then
      s.wcbFlush core.val buf.val (s.task ((s.core core.val).wcb.look buf.val).task).part else s) := rfl

theorem wcbDrain_idle (h : ((s.core core.val).wcb.look buf.val).draining = false) : exec (.wcbDrain core buf) s = .next s := by
  rw [exec_wcbDrain, if_neg (by rw [h]; exact Bool.false_ne_true)]

/-- A core with a write-combining buffer empty. -/
def State.wcbFree (s : State) (core buf : Nat) : State := s.modCore core fun c => { c with wcb := c.wcb.put buf {} }

theorem State.stackAndCopy_cores (part la : Nat) (d : List Byte) (m : List Bool) : (s.stackAndCopy part la d m).cores = s.cores := by
  unfold State.stackAndCopy
  simp only
  split
  · rfl
  split <;> rfl

theorem State.mergeRemote_keeps (die part la : Nat) (d : List Byte) (m : List Bool) :
    (s.mergeRemote die part la d m).cores = s.cores ∧ (s.mergeRemote die part la d m).mem = s.mem := by
  unfold State.mergeRemote
  split <;> exact ⟨rfl, rfl⟩

/-- A draining buffer of a line that can be reached empties, and its bytes are in memory (R344). -/
theorem State.wcbFlush_drains (core buf part la : Nat) (draining : ((s.core core).wcb.look buf).draining = true)
    (line : ((s.core core).wcb.look buf).line = some la) (near : paD la = false)
    (there : isHost la = true ∨ s.joined (dieOf core) (ownerDie la) = true) :
    (s.wcbFlush core buf part).cores = (s.wcbFree core buf).cores ∧
      (s.wcbFlush core buf part).mem =
        putMasked s.mem (paOff la) ((s.core core).wcb.look buf).data ((s.core core).wcb.look buf).mask := by
  have stored := fun (t : State) d m => (t.stackAndCopy_spec part la d m).1
  have cores := fun (t : State) d m => t.stackAndCopy_cores part la d m
  unfold State.wcbFlush
  extract_lets w t
  have free : t = s.wcbFree core buf := rfl
  rw [line]
  simp only [near, Bool.false_eq_true, if_false]
  by_cases host : isHost la = true
  · rw [if_pos host]
    exact ⟨cores t _ _, stored t _ _⟩
  · have joined : t.joined (dieOf core) (ownerDie la) = true := there.resolve_left host
    have drains : w.draining = true := draining
    rw [if_neg host, joined, if_neg (by decide), if_pos drains]
    split
    · exact ⟨cores t _ _, stored t _ _⟩
    · obtain ⟨mc, mm⟩ := (t.stackAndCopy part la w.data w.mask).mergeRemote_keeps (dieOf core) part la w.data w.mask
      exact ⟨mc.trans (cores t _ _), mm.trans (stored t _ _)⟩

theorem wcbDrain_does (la : Nat) (draining : ((s.core core.val).wcb.look buf.val).draining = true)
    (line : ((s.core core.val).wcb.look buf.val).line = some la) (near : paD la = false)
    (there : isHost la = true ∨ s.joined (dieOf core.val) (ownerDie la) = true) :
    Does (.wcbDrain core buf) s fun t => (t.core core.val).wcb.look buf.val = {} ∧
      ∀ (i : Nat) (b : Byte), ((s.core core.val).wcb.look buf.val).mask[i]? = some true →
        ((s.core core.val).wcb.look buf.val).data[i]? = some b → t.memBytes (paOff la + i) 1 = [b] := by
  obtain ⟨cores, mem⟩ := s.wcbFlush_drains core.val buf.val
    (s.task ((s.core core.val).wcb.look buf.val).task).part la draining line near there
  refine ⟨_, (exec_wcbDrain s core buf).trans (congrArg _ (if_pos draining)), ?_, fun i b hm hd => ?_⟩
  · rw [State.core, cores]
    show ((s.wcbFree core.val buf.val).core core.val).wcb.look buf.val = {}
    rw [State.wcbFree, State.core_modCore_same]
    exact SMap.look_put_same (s.core core.val).wcb buf.val {}
  · obtain ⟨im, hm⟩ := List.getElem?_eq_some_iff.1 hm
    obtain ⟨id, hd⟩ := List.getElem?_eq_some_iff.1 hd
    rw [State.memBytes_one, mem, putMasked_look_in _ _ _ _ i id im, hm, if_pos rfl, hd]

end

/-! Acknowledgements (R142) -/

section
variable (s : State) (id : Nat)

/-- A store on its way changed. -/
def State.updStore (s : State) (id : Nat) (f : PendStore → PendStore) : State := { s with stores := s.stores.upd id f }

theorem State.updStore_look (f : PendStore → PendStore) : (s.updStore id f).stores.look id = f (s.stores.look id) :=
  SMap.look_upd_same _ _ _

/-- A store is on its way no longer. -/
def State.dropStore (s : State) (id : Nat) : State := { s with stores := s.stores.drop (· = id) }

theorem exec_storeAcknowledged : exec (.storeAcknowledged id) s = .next (s.storeAck id) := rfl

theorem storeAcknowledged_gone (h : (s.stores.look id).id ≠ id) : exec (.storeAcknowledged id) s = .next s := by
  rw [exec_storeAcknowledged, State.storeAck, if_pos h]

variable (own : (s.stores.look id).id = id)
include own

theorem storeAcknowledged_part (more : 1 < (s.stores.look id).n) : Does (.storeAcknowledged id) s fun t =>
    (t.stores.look id).n = (s.stores.look id).n - 1 ∧ t.banks = s.banks := by
  refine ⟨s.updStore id fun p => { p with n := p.n - 1 }, ?_, by rw [State.updStore_look], rfl⟩
  rw [exec_storeAcknowledged, State.storeAck, if_neg (not_not.2 own), if_pos more]
  rfl

omit own

/-- A state with the stores on their way and the memory of another, in which no store of a context waits and no barrier is
under way. -/
structure Settled (s t : State) : Prop where
  stores : t.stores = s.stores
  mem : t.mem = s.mem
  held : ∀ k, (t.bank k).heldStores = []
  barriers : t.barriers = []

theorem Settled.orderFree {s t : State} (h : Settled s t) (core ctx task : Nat) : Settled s (t.orderFree core ctx task) := by
  obtain ⟨stores, mem, held, barriers⟩ := h
  rcases t.orderFree_alone core ctx task (held _) barriers with e | e <;> rw [e]
  · exact ⟨stores, mem, held, barriers⟩
  · exact ⟨stores, mem, fun k => (Bank.unfenced_heldStores (t.unfence_bank _ k)).trans (held k), barriers⟩

/-- What waits for a store of a write-combining buffer is let go on in every context of its core. -/
def State.orderFreeCore (s : State) (core : Nat) : State :=
  (List.range 8).foldl (fun s q => match s.holder core q with | some t => s.orderFree core q t | none => s) s

theorem State.storeAck_last (own : (s.stores.look id).id = id) (last : (s.stores.look id).n ≤ 1) : s.storeAck id =
    if (s.stores.look id).wcb then (s.dropStore id).orderFreeCore (s.stores.look id).core
    else (s.dropStore id).orderFree (s.stores.look id).core (s.stores.look id).ctx (s.stores.look id).task := by
  unfold State.storeAck
  extract_lets p t
  rw [if_neg (not_not.2 own), if_neg (not_lt.2 last)]
  rfl

theorem storeAcknowledged_last (own : (s.stores.look id).id = id) (last : (s.stores.look id).n ≤ 1)
    (none : ∀ k, (s.bank k).heldStores = []) (bars : s.barriers = []) :
    Does (.storeAcknowledged id) s fun t => t.stores.look id = {} ∧ t.mem = s.mem := by
  have dropped : Settled (s.dropStore id) (s.dropStore id) := ⟨rfl, rfl, none, bars⟩
  have done : Settled (s.dropStore id) (s.storeAck id) := by
    rw [s.storeAck_last id own last]
    split
    · refine foldl_keeps (P := Settled (s.dropStore id)) _ (fun t q _ h => ?_) _ dropped
      split
      · exact h.orderFree _ _ _
      · exact h
    · exact dropped.orderFree _ _ _
  refine ⟨s.storeAck id, rfl, ?_, done.mem⟩
  rw [done.stores]
  exact SMap.look_drop_same _ _

end

end Sys2Proof.Machine
end

section
/-! PROOFS. Groups of atomics: their order, and what they leave alone (R164), for O44. -/
namespace Sys2Proof.Machine

open Sys2Proof.Spec

/-! The logical order -/

theorem lexLt_asymm (a b : List Nat) (h : lexLt a b = true) : lexLt b a = false := by
  induction a generalizing b with
  | nil => cases b <;> simp [lexLt] at h
  | cons x a ih =>
    cases b with
    | nil => rfl
    | cons y b =>
      unfold lexLt at h ⊢
      by_cases less : x < y
      · rw [if_neg (by omega), if_pos less]
      · rw [if_neg less] at h
        by_cases more : y < x
        · simp [more] at h
        · rw [if_neg more] at h
          rw [if_neg more, if_neg less]
          exact ih b h

theorem lexLt_trans (a b c : List Nat) (h : lexLt a b = true) (k : lexLt b c = true) : lexLt a c = true := by
  induction a generalizing b c with
  | nil => cases b <;> simp [lexLt] at h
  | cons x a ih =>
    cases b with
    | nil => simp [lexLt] at h
    | cons y b =>
      cases c with
      | nil => simp [lexLt] at k
      | cons z c =>
        unfold lexLt at h k ⊢
        by_cases xy : x < y
        · by_cases yz : y < z
          · rw [if_pos (by omega)]
          · rw [if_neg yz] at k
            by_cases zy : z < y
            · simp [zy] at k
            · rw [if_pos (by omega)]
        · rw [if_neg xy] at h
          by_cases yx : y < x
          · simp [yx] at h
          · rw [if_neg yx] at h
            obtain rfl : x = y := by omega
            by_cases xz : x < z
            · rw [if_pos xz]
            · rw [if_neg xz] at k ⊢
              by_cases zx : z < x
              · simp [zx] at k
              · rw [if_neg zx] at k ⊢
                exact ih b c h k

/-- Atomics in logical order: none comes before an earlier one of the list. -/
def keyOrder (l : List Atom) : Prop := l.Pairwise fun a b => lexLt b.key a.key = false

theorem mem_insertAtom (a x : Atom) (l : List Atom) : x ∈ insertAtom a l ↔ x = a ∨ x ∈ l := by
  induction l with
  | nil => simp [insertAtom]
  | cons y l ih =>
    unfold insertAtom
    split
    · exact List.mem_cons
    · rw [List.mem_cons, ih, List.mem_cons]
      exact or_left_comm

/-- An atomic goes where the order has it. -/
theorem insertAtom_keyOrder (a : Atom) (l : List Atom) (h : keyOrder l) : keyOrder (insertAtom a l) := by
  induction l with
  | nil => exact List.pairwise_singleton _ a
  | cons x l ih =>
    obtain ⟨first, rest⟩ := List.pairwise_cons.1 h
    unfold insertAtom
    split
    · next less =>
      refine List.pairwise_cons.2 ⟨fun y hy => ?_, h⟩
      rcases List.mem_cons.1 hy with rfl | hy
      · exact lexLt_asymm _ _ less
      · rw [← Bool.not_eq_true]
        intro before
        have := lexLt_trans _ _ _ before less
        simp [first y hy] at this
    · next notLess =>
      refine List.pairwise_cons.2 ⟨fun y hy => ?_, ih rest⟩
      rcases (mem_insertAtom a y l).1 hy with rfl | hy
      · exact Bool.not_eq_true _ ▸ notLess
      · exact first y hy

theorem foldl_insertAtom (l g : List Atom) (h : keyOrder g) :
    keyOrder (l.foldl (fun g a => insertAtom a g) g) ∧ ∀ a, a ∈ l.foldl (fun g a => insertAtom a g) g ↔ a ∈ l ∨ a ∈ g := by
  induction l generalizing g with
  | nil => exact ⟨h, fun a => by simp⟩
  | cons x l ih =>
    obtain ⟨order, mem⟩ := ih (insertAtom x g) (insertAtom_keyOrder x g h)
    refine ⟨order, fun a => (mem a).trans ?_⟩
    rw [mem_insertAtom, List.mem_cons, or_left_comm, or_assoc]

section
variable (s : State) (word interval : Nat)

theorem State.groupOf_keyOrder : keyOrder (s.groupOf word interval) := (foldl_insertAtom _ [] List.Pairwise.nil).1

theorem State.mem_groupOf (a : Atom) :
    a ∈ s.groupOf word interval ↔ a ∈ s.atoms ∧ a.pa = word ∧ a.interval = interval := by
  refine ((foldl_insertAtom _ [] List.Pairwise.nil).2 a).trans ?_
  simp

/-! A group that waits, and one that performs -/

theorem exec_atomicGroup : exec (.atomicGroup word interval) s = .next (s.groupPerform word interval) := rfl

/-- A group has left the queue of atomics. -/
def State.atomsLeft (s : State) (word interval : Nat) : State :=
  { s with atoms := s.atoms.filter fun a => !(a.pa = word && a.interval = interval) }

theorem State.groupPerform_eq : s.groupPerform word interval =
    if s.groupWaits word interval (s.groupOf word interval) then s.sched (s.now + 1) phMem (.atomicGroup word interval)
    else (s.groupOf word interval).foldl (fun s a => s.atomOne a) (s.atomsLeft word interval) := rfl

theorem atomicGroup_waits (h : s.groupWaits word interval (s.groupOf word interval) = true) :
    Does (.atomicGroup word interval) s fun t => t.atoms = s.atoms ∧ t.mem = s.mem ∧ t.banks = s.banks ∧
      DueAt t (.atomicGroup word interval) (s.now + 1) := by
  refine ⟨s.sched (s.now + 1) phMem (.atomicGroup word interval), ?_, rfl, rfl, rfl, State.dueAt_sched _ _ _ _⟩
  rw [exec_atomicGroup, s.groupPerform_eq, if_pos h]

/-- What atomics leave alone: those that wait, and contexts but for their fences. -/
structure Atomic (s t : State) : Prop where
  atoms : t.atoms = s.atoms
  bank : ∀ k, (t.bank k).unfenced = (s.bank k).unfenced

theorem Atomic.refl : Atomic s s := ⟨rfl, fun _ => rfl⟩

variable {s} in
theorem Atomic.trans {t u : State} (h : Atomic s t) (k : Atomic t u) : Atomic s u :=
  ⟨k.atoms.trans h.atoms, fun n => (k.bank n).trans (h.bank n)⟩

variable {s} in
theorem Beside.atomic {t : State} (h : Beside s t) : Atomic s t := ⟨h.atoms, fun k => by rw [h.bank]⟩

theorem State.atomStore_beside (a : Atom) (b : List Byte) : Beside s (s.atomStore a b) := by
  unfold State.atomStore
  refine s.asTask_beside _ _ fun t => t.byLines_beside _ _ _ fun u la d m => ?_
  split
  · exact (Beside.ite (u.countLack_beside _ _ _) (.refl u)).trans (State.sideStore_beside _ _ _ _ _ _ _)
  · exact u.stackAndCopy_beside _ _ _ _

/-- An access that arrived has its answer. -/
def State.answered (s : State) (x : RemoteAccess) (b : List Byte) : State := { s with fabIn := s.fabIn ++ [(x, b)] }

theorem State.answered_atomic (x : RemoteAccess) (b : List Byte) : Atomic s (s.answered x b) := ⟨rfl, fun _ => rfl⟩

/-- The word that an operation finds as memory stands. -/
def State.atomWord (s : State) (a : Atom) : Nat := leNat (s.sideBytes a.part a.pa (if a.w then 8 else 4))

/-- The memory after an operation that came from elsewhere, and its answer. -/
def State.atomServed (s : State) (a : Atom) (x : RemoteAccess) : State :=
  (s.atomStore a (natLe (if a.w then 8 else 4) (a.apply (s.atomWord a)))).answered x (natLe (if a.w then 8 else 4) (s.atomWord a))

theorem State.atomOne_from (a : Atom) {x : RemoteAccess} (h : a.arrived = some x) : s.atomOne a =
    if isHost a.pa then (s.atomServed a x).sched ((s.atomServed a x).now + 1) phMem (.fabAccessArrive x)
    else (s.atomServed a x).hbm (stackOf a.pa) x.cls a.part (1024 + a.part) (if a.w then 8 else 4) (some (.fabAccessArrive x)) := by
  unfold State.atomOne
  rw [h]
  rfl

theorem State.atomOne_arrived (a : Atom) {x : RemoteAccess} (h : a.arrived = some x) : Atomic s (s.atomOne a) := by
  have served : Atomic s (s.atomServed a x) := (s.atomStore_beside a _).atomic.trans (State.answered_atomic _ x _)
  rw [s.atomOne_from a h]
  split
  · exact served.trans (State.sched_traffic _ _ _ _ _ _).beside.atomic
  · exact served.trans (State.hbm_traffic _ _ _ _ _ _ _ _).beside.atomic

/-- The memory that an operation of a core of the module reads. -/
def State.atomReady (s : State) (a : Atom) : State :=
  (s.captureMem a.task a.core a.pa (if a.w then 8 else 4)).l1Flush a.core a.pa (if a.w then 8 else 4)

/-- The word that an operation of the module finds. -/
def State.atomOld (s : State) (a : Atom) : Nat := (s.atomReady a).atomWord a

/-- The memory after an operation of the module. -/
def State.atomWrote (s : State) (a : Atom) : State :=
  (s.atomReady a).atomStore a (natLe (if a.w then 8 else 4) (a.apply (s.atomOld a)))

/-- The load of an atomic has its old value. -/
def State.atomLoaded (s : State) (id : Nat) (b : List Byte) : State :=
  (s.updLoad id fun l => if l.id = id then l.fill 0 b else l).sched
    (max s.now (((s.updLoad id fun l => if l.id = id then l.fill 0 b else l).loads.look id).notBefore)) phMem (.loadDataLand id)

theorem State.atomOne_own (a : Atom) (h : a.arrived = none) : s.atomOne a = match a.load with
    | none => (s.atomWrote a).orderFree a.core a.ctx a.task
    | some id => (s.atomWrote a).atomLoaded id (natLe (if a.w then 8 else 4) (s.atomOld a)) := by
  unfold State.atomOne
  rw [h]
  cases a.load <;> rfl

theorem State.atomWrote_atomic (a : Atom) : Atomic s (s.atomWrote a) :=
  (((s.captureMem_beside _ _ _ _).trans (State.l1Flush_beside _ _ _ _)).trans (State.atomStore_beside _ a _)).atomic

theorem State.atomLoaded_atomic (id : Nat) (b : List Byte) : Atomic s (s.atomLoaded id b) := by
  have filled : Atomic s (s.updLoad id fun l => if l.id = id then l.fill 0 b else l) := ⟨rfl, fun _ => rfl⟩
  exact filled.trans (State.sched_traffic _ _ _ _ _ _).beside.atomic

/-- An operation leaves alone what atomics do, while no store of a context waits. -/
theorem State.atomOne_atomic (a : Atom) (none : ∀ k, (s.bank k).heldStores = []) : Atomic s (s.atomOne a) := by
  cases h : a.arrived with
  | some x => exact s.atomOne_arrived a h
  | none =>
    have wrote := s.atomWrote_atomic a
    rw [s.atomOne_own a h]
    cases a.load with
    | some id => exact wrote.trans (State.atomLoaded_atomic _ id _)
    | none =>
      have held := (Bank.unfenced_heldStores (wrote.bank (ctxOf a.core a.ctx))).trans (none _)
      obtain ⟨bank, _, atoms⟩ := (s.atomWrote a).orderFree_kept a.core a.ctx a.task held
      exact wrote.trans ⟨atoms, bank⟩

theorem State.atoms_atomic (g : List Atom) (none : ∀ k, (s.bank k).heldStores = []) :
    Atomic s (g.foldl (fun s a => s.atomOne a) s) := by
  refine foldl_keeps (P := Atomic s) g (fun t a _ h => ?_) s (.refl s)
  exact h.trans (t.atomOne_atomic a fun k => (Bank.unfenced_heldStores (h.bank k)).trans (none k))

theorem Bank.unfenced_registers {b c : Bank} (h : b.unfenced = c.unfenced) : b.s = c.s ∧ b.v = c.v ∧ b.p = c.p := by
  have scalars := congrArg Bank.s h
  have vectors := congrArg Bank.v h
  have predicates := congrArg Bank.p h
  exact ⟨scalars, vectors, predicates⟩

theorem atomicGroup_performs (h : s.groupWaits word interval (s.groupOf word interval) = false)
    (none : ∀ k, (s.bank k).heldStores = []) : Does (.atomicGroup word interval) s fun t =>
      t.atoms = s.atoms.filter (fun a => !(a.pa = word && a.interval = interval)) ∧
      ∀ k, (t.bank k).s = (s.bank k).s ∧ (t.bank k).v = (s.bank k).v ∧ (t.bank k).p = (s.bank k).p := by
  have atomic := (s.atomsLeft word interval).atoms_atomic (s.groupOf word interval) none
  refine ⟨_, exec_atomicGroup s word interval, ?_⟩
  rw [s.groupPerform_eq, if_neg (by rw [h]; exact Bool.false_ne_true)]
  exact ⟨atomic.atoms, fun k => Bank.unfenced_registers (atomic.bank k)⟩

end

end Sys2Proof.Machine
end

section
/-! PROOFS. A single atomic at the memory side of an empty module (R152, R164), for O44. -/
namespace Sys2Proof.Machine

open Sys2Proof.Spec

/-! Lines -/

theorem mergeBytes_length (a b : List Byte) (m : List Bool) : (mergeBytes a b m).length = 128 := by simp [mergeBytes]

theorem mergeBytes_getD (a b : List Byte) (m : List Bool) {i : Nat} (h : i < 128) :
    (mergeBytes a b m).getD i 0 = if m.getD i false then b.getD i 0 else a.getD i 0 := by
  simp [mergeBytes, List.getD_eq_getElem?_getD, h]

theorem orMask_getD (a b : List Bool) {i : Nat} (h : i < 128) :
    (orMask a b).getD i false = (a.getD i false || b.getD i false) := by
  simp [orMask, List.getD_eq_getElem?_getD, h]

theorem spanMask_getD (o n : Nat) {i : Nat} (h : i < 128) : (spanMask o n).getD i false = decide (o ≤ i ∧ i < o + n) := by
  simp [spanMask, List.getD_eq_getElem?_getD, h]

theorem placed_getD (o : Nat) (b : List Byte) {i : Nat} (h : i < 128) :
    (placed o b).getD i 0 = if o ≤ i then b.getD (i - o) 0 else 0 := by
  simp [placed, List.getD_eq_getElem?_getD, h]

theorem bytesAt_getD (m : SMap Byte) (a n i : Nat) (h : i < n) : (bytesAt m a n).getD i 0 = m.look (a + i) := by
  induction n generalizing a i with
  | zero => omega
  | succ n ih =>
    cases i with
    | zero => rfl
    | succ i =>
      show (bytesAt m (a + 1) n).getD i 0 = _
      rw [ih (a + 1) i (by omega)]
      congr 1
      omega

/-- A line that holds bytes at a place gives them back. -/
theorem drop_take_of_getD (l b : List Byte) (o : Nat) (fits : o + b.length ≤ l.length)
    (h : ∀ i < b.length, l.getD (o + i) 0 = b.getD i 0) : (l.drop o).take b.length = b := by
  refine List.ext_getElem (by simp; omega) fun i h1 h2 => ?_
  have hb := h i h2
  rw [List.getD_eq_getElem _ _ (by omega), List.getD_eq_getElem _ _ h2] at hb
  rw [List.getElem_take, List.getElem_drop, hb]

/-- An access within a line is one piece of it. -/
theorem linesOf_within (pa : Nat) (b : List Byte) (some : b ≠ []) (fits : pa % 128 + b.length ≤ 128) :
    linesOf pa b = [(lineOf pa, placed (pa % 128) b, spanMask (pa % 128) b.length)] := by
  have len : 0 < b.length := List.length_pos_iff.2 some
  have first : lineBytes (pa % 128) b 0 = b := by
    unfold lineBytes linePlace
    simp only [Nat.mul_zero, Nat.zero_sub, List.drop_zero, Nat.sub_zero]
    exact List.take_of_length_le (by omega)
  have rest : ∀ i, lineBytes (pa % 128) b (i + 1) = [] := by
    intro i
    rw [← List.length_eq_zero_iff, lineBytes_length]
    omega
  have ne : b.isEmpty = false := by simpa using some
  rw [linesOf_eq, show b.length / 128 + 2 = b.length / 128 + 1 + 1 by omega, List.range_succ_eq_map, List.filterMap_cons]
  simp only [first, ne, Bool.false_eq_true, if_false, List.filterMap_map]
  have none : ((List.range (b.length / 128 + 1)).filterMap ((fun i =>
      if (lineBytes (pa % 128) b i).isEmpty then Option.none
      else Option.some (lineOf pa + 128 * i, placed (linePlace (pa % 128) i) (lineBytes (pa % 128) b i),
        spanMask (linePlace (pa % 128) i) (lineBytes (pa % 128) b i).length)) ∘ Nat.succ)) = [] := by
    rw [List.filterMap_eq_nil_iff]
    intro i _
    simp [rest]
  rw [none]
  simp [linePlace]

section
variable (s : State)

theorem State.byLines_within (pa : Nat) (b : List Byte) (f : State → Nat → List Byte → List Bool → State) (some : b ≠ [])
    (fits : pa % 128 + b.length ≤ 128) :
    s.byLines pa b f = f s (lineOf pa) (placed (pa % 128) b) (spanMask (pa % 128) b.length) := by
  rw [State.byLines, linesOf_within pa b some fits]
  rfl

theorem State.memBytes_length (off n : Nat) : (s.memBytes off n).length = n := bytesAt_length _ _ _

theorem State.sideLine_length (part la : Nat) : (s.sideLine part la).length = 128 := by
  unfold State.sideLine
  simp only
  split
  · exact mergeBytes_length _ _ _
  · exact bytesAt_length _ _ _

/-- The bytes of an access within a line of a stack. -/
theorem State.sideBytes_within (part pa n : Nat) (near : paOff pa < 2 ^ 39) (fits : paOff pa % 128 + n ≤ 128) :
    s.sideBytes part pa n = ((s.sideLine part (lineOf (paOff pa))).drop (paOff pa % 128)).take n := by
  have place : paOff pa - lineOf (paOff pa) = paOff pa % 128 := by unfold lineOf; omega
  have len := s.sideLine_length part (lineOf (paOff pa))
  unfold State.sideBytes
  rw [if_neg (by omega)]
  simp only
  rw [place, show n / 128 + 2 = n / 128 + 1 + 1 by omega, List.range_succ_eq_map, List.map_cons, List.flatten_cons, Nat.mul_zero,
    Nat.add_zero, List.drop_append_of_le_length (by omega), List.take_append_of_le_length (by rw [List.length_drop]; omega)]

/-! A module whose caches are empty -/

theorem findLine_nil (set : Nat) (ways : List Nat) (la : Nat) : findLine [] set ways la = none := by
  unfold findLine
  rw [List.find?_eq_none]
  intro k _
  have empty : (default : Line).data.isEmpty = true := rfl
  simp only [SMap.look_nil, empty, Bool.not_true, Bool.false_and, Bool.false_eq_true, not_false_eq_true]

theorem chooseVictim_free (set w : Nat) (ways : List Nat) : chooseVictim [] set (w :: ways) = some (lineKey set w, []) := by
  unfold chooseVictim
  rfl

theorem findLine_first (m : SMap Line) (set w : Nat) (ways : List Nat) (la : Nat) (data : (m.look (lineKey set w)).data ≠ [])
    (pa : (m.look (lineKey set w)).pa = la) : findLine m set (w :: ways) la = some (lineKey set w) := by
  unfold findLine
  rw [List.map_cons, List.find?_cons_of_pos]
  simp [data, pa]

theorem State.die_of_none (dies : s.dies = []) (d : Nat) : s.die d = {} := by
  rw [State.die, dies]
  rfl

/-- A line that an empty cache takes for a store of some of its bytes. -/
def freshLine (part la : Nat) (fill : List Byte) (data : List Byte) (mask : List Bool) : Line :=
  { pa := la, v := 2, part := part
    data := mergeBytes (mergeBytes (whole 0) fill (andNot (sectorMask mask) (whole false))) data mask
    held := orMask (orMask (whole false) (sectorMask mask)) mask, dirty := orMask (whole false) mask }

/-- A die's cache holds one line. -/
def State.oneLine (s : State) (d k : Nat) (l : Line) : State :=
  (s.modDie d fun x => { x with llc := [] }).modDie d fun x => { x with llc := x.llc.put k l }

theorem State.oneLine_die (d k : Nat) (l : Line) : ((s.oneLine d k l).die d).llc = SMap.put [] k l := by
  rw [State.oneLine, State.die_modDie, if_pos rfl, State.die_modDie, if_pos rfl]

theorem State.oneLine_other (dies : s.dies = []) (d e k : Nat) (l : Line) (h : e ≠ d) : (s.oneLine d k l).die e = {} := by
  rw [State.oneLine, State.die_modDie, if_neg h, State.die_modDie, if_neg h, s.die_of_none dies]

/-- A store to a line of an empty cache goes to its stack where the partition has no way, and otherwise takes the first. -/
theorem State.llcStore_empty (dies : s.dies = []) (d part la : Nat) (data : List Byte) (mask : List Bool) :
    s.llcStore d part la data mask 2 = match s.llcWays d part with
      | [] => s.stackStore la data mask
      | w :: _ => s.oneLine d (lineKey (llcSet la) w) (freshLine part la (s.stackLine la) data mask) := by
  have llc : (s.die d).llc = [] := by rw [s.die_of_none dies]
  unfold State.llcStore State.llcPut
  extract_lets set ways upd
  rw [llc, findLine_nil]
  have hw : ways = s.llcWays d part := rfl
  rw [hw]
  cases s.llcWays d part with
  | nil => rfl
  | cons w rest =>
    rw [chooseVictim_free]
    rfl

variable {s}

/-- A line of an empty module after a store of some of its bytes reads as those bytes. -/
theorem State.llcStore_reads (dies : s.dies = []) (part la o : Nat) (b : List Byte) (fits : o + b.length ≤ 128) (t : State)
    (ht : t = s.llcStore (ownerDie la) part la (placed o b) (spanMask o b.length) 2) {i : Nat} (hi : i < b.length) :
    (t.sideLine part la).getD (o + i) 0 = b.getD i 0 := by
  have inside : o + i < 128 := by omega
  have byte : (placed o b).getD (o + i) 0 = b.getD i 0 := by
    rw [placed_getD _ _ inside, if_pos (by omega), Nat.add_sub_cancel_left]
  have mask : (spanMask o b.length).getD (o + i) false = true := by
    rw [spanMask_getD _ _ inside]
    exact decide_eq_true ⟨by omega, by omega⟩
  rw [s.llcStore_empty dies] at ht
  cases ways : s.llcWays (ownerDie la) part with
  | nil =>
    rw [ways] at ht
    have look : SMap.look t.mem (paOff la + (o + i)) = b.getD i 0 := by
      rw [ht]
      show SMap.look (putMasked s.mem (paOff la) (placed o b) (spanMask o b.length)) (paOff la + (o + i)) = _
      rw [putMasked_placed_look _ _ _ _ fits, if_pos (by omega)]
      congr 1
      omega
    have none : findLine (t.die (ownerDie la)).llc (llcSet la) (t.llcWays (ownerDie la) part) la = Option.none := by
      rw [t.die_of_none (by rw [ht]; exact dies)]
      exact findLine_nil _ _ _
    unfold State.sideLine
    simp only [none]
    rw [State.stackLine, State.memBytes, bytesAt_getD _ _ _ _ inside, look]
  | cons w rest =>
    rw [ways] at ht
    have held : ((t.die (ownerDie la)).llc.look (lineKey (llcSet la) w)) =
        freshLine part la (s.stackLine la) (placed o b) (spanMask o b.length) := by
      rw [ht, State.oneLine_die]
      exact SMap.look_put_same _ _ _
    have full : (freshLine part la (s.stackLine la) (placed o b) (spanMask o b.length)).data ≠ [] := by
      rw [← List.length_pos_iff]
      have len := mergeBytes_length (mergeBytes (whole 0) (s.stackLine la)
        (andNot (sectorMask (spanMask o b.length)) (whole false))) (placed o b) (spanMask o b.length)
      show 0 < (mergeBytes _ _ _).length
      omega
    have same : t.llcWays (ownerDie la) part = w :: rest := by
      rw [← ways, ht]
      rfl
    have found := findLine_first (t.die (ownerDie la)).llc (llcSet la) w rest la (by rw [held]; exact full) (by rw [held]; rfl)
    unfold State.sideLine
    simp only [same, found, held]
    rw [mergeBytes_getD _ _ _ inside]
    show (if (orMask _ _).getD (o + i) false then (mergeBytes _ _ _).getD (o + i) 0 else _) = _
    rw [orMask_getD _ _ inside, mask, Bool.or_true, if_pos rfl, mergeBytes_getD _ _ _ inside, mask, if_pos rfl, byte]

theorem State.hbmTask_dies (s : State) (j task bytes : Nat) (ev : Option Ev) (who : Nat) :
    (s.hbmTask j task bytes ev who).dies = s.dies := by
  refine iteInduction (motive := fun u : State => u.dies = s.dies) (fun _ => rfl) fun _ => ?_
  exact iteInduction (motive := fun u : State => u.dies = s.dies) (fun _ => rfl) fun _ => rfl

/-- A merge into a die that holds no line changes nothing. -/
theorem State.mergeRemote_none (s : State) (die part la : Nat) (d : List Byte) (m : List Bool) (none : (s.die die).llc = []) :
    s.mergeRemote die part la d m = s := by
  unfold State.mergeRemote
  rw [none, findLine_nil]

theorem State.llcStore_other (dies : s.dies = []) (d e part la : Nat) (data : List Byte) (mask : List Bool) (h : e ≠ d) :
    ((s.llcStore d part la data mask 2).die e).llc = [] := by
  rw [s.llcStore_empty dies]
  split
  · rw [State.die_of_none (s := s.stackStore la data mask) dies]
  · rw [s.oneLine_other dies d e _ _ h]

/-- A store at the memory side of an empty module, but for the copies in other dies. -/
theorem State.sideStore_empty (dies : s.dies = []) (die part la : Nat) (data : List Byte) (mask : List Bool) (low : paOff la < 2 ^ 39) :
    s.sideStore die part la data mask 2 = (s.fillSlots (ownerDie la) part la mask).llcStore (ownerDie la) part la data mask 2 := by
  have filled : (s.fillSlots (ownerDie la) part la mask).dies = [] := (s.hbmTask_dies _ _ _ _ _).trans dies
  unfold State.sideStore
  rw [if_neg (not_le.2 low), if_pos rfl]
  simp only
  split
  · rfl
  · next other => exact State.mergeRemote_none _ _ _ _ _ _ (State.llcStore_other filled _ _ _ _ _ _ fun e => other e.symm)

theorem bytesAt_of_look (m : SMap Byte) (a : Nat) (b : List Byte) (h : ∀ i < b.length, m.look (a + i) = b.getD i 0) :
    bytesAt m a b.length = b := by
  refine List.ext_getElem (bytesAt_length _ _ _) fun i h1 h2 => ?_
  have hb := (bytesAt_getD m a b.length i h2).trans (h i h2)
  rw [List.getD_eq_getElem _ _ h1, List.getD_eq_getElem _ _ h2] at hb
  exact hb

/-- A store at the memory side of an empty module reads back (R152). -/
theorem State.sideStore_reads (dies : s.dies = []) (die part la o : Nat) (b : List Byte) (line : la % 128 = 0) (low : la < 2 ^ 40)
    (place : o < 128) (fits : o + b.length ≤ 128) :
    (s.sideStore die part la (placed o b) (spanMask o b.length) 2).sideBytes part (la + o) b.length = b := by
  have off : paOff la = la := Nat.mod_eq_of_lt low
  have off' : paOff (la + o) = la + o := Nat.mod_eq_of_lt (by omega)
  by_cases host : 2 ^ 39 ≤ la
  · have stored : s.sideStore die part la (placed o b) (spanMask o b.length) 2 =
        s.memStoreMasked la (placed o b) (spanMask o b.length) := by
      unfold State.sideStore
      rw [off, if_pos host]
    rw [stored, State.sideBytes, off', if_pos (by omega)]
    refine bytesAt_of_look _ _ _ fun i hi => ?_
    show SMap.look (putMasked s.mem la (placed o b) (spanMask o b.length)) (la + o + i) = _
    rw [putMasked_placed_look _ _ _ _ fits, if_pos (by omega), Nat.add_sub_cancel_left]
  · have filled : (s.fillSlots (ownerDie la) part la (spanMask o b.length)).dies = [] := (s.hbmTask_dies _ _ _ _ _).trans dies
    have start : lineOf (la + o) = la := by unfold lineOf; omega
    rw [s.sideStore_empty dies die part la _ _ (by omega), State.sideBytes_within _ _ _ _ (by omega) (by omega), off', start,
      show (la + o) % 128 = o by omega]
    refine drop_take_of_getD _ _ _ (by rw [State.sideLine_length]; exact fits) fun i hi => ?_
    exact State.llcStore_reads filled part la o b fits _ rfl hi

end

end Sys2Proof.Machine
end

section
/-! PROOFS. A single atomic of an empty module performs (R164), for O44. -/
namespace Sys2Proof.Machine

open Sys2Proof.Spec

/-- A change that leaves memory, caches and registers alone. -/
structure Still (s t : State) : Prop where
  mem : t.mem = s.mem
  dies : t.dies = s.dies
  csr : t.csr = s.csr
  cores : t.cores = s.cores
  hostDeny : t.hostDeny = s.hostDeny

namespace Still

theorem refl (s : State) : Still s s := ⟨rfl, rfl, rfl, rfl, rfl⟩

theorem trans {s t u : State} (h : Still s t) (k : Still t u) : Still s u :=
  ⟨k.mem.trans h.mem, k.dies.trans h.dies, k.csr.trans h.csr, k.cores.trans h.cores, k.hostDeny.trans h.hostDeny⟩

theorem ite {s t u : State} {c : Prop} [Decidable c] (h : Still s t) (k : Still s u) : Still s (if c then t else u) := by
  split
  · exact h
  · exact k

theorem sight {s t : State} (h : Still s t) : SameSight s t :=
  ⟨h.mem, h.dies, h.hostDeny, fun c i _ => by rw [State.csrVal, State.csrVal, h.csr]⟩

end Still

section
variable (s : State)

theorem State.sched_still (time ph : Nat) (ev : Ev) : Still s (s.sched time ph ev) := ⟨rfl, rfl, rfl, rfl, rfl⟩
theorem State.freed_still : Still s s.freed := ⟨rfl, rfl, rfl, rfl, rfl⟩
theorem State.modBarrier_still (k : Nat) (f : Barrier → Barrier) : Still s (s.modBarrier k f) := ⟨rfl, rfl, rfl, rfl, rfl⟩
theorem State.ports_still (q : SMap PortSt) : Still s { s with ports := q } := ⟨rfl, rfl, rfl, rfl, rfl⟩
theorem State.modBank_still (b : Nat) (f : Bank → Bank) : Still s (s.modBank b f) := ⟨rfl, rfl, rfl, rfl, rfl⟩

theorem State.schedWithin_still (bound ph : Nat) (ev : Ev) : Still s (s.schedWithin bound ph ev) :=
  (s.sched_still _ _ _).trans (State.freed_still _)

theorem State.enqueue_still (p target cls part : Nat) (m : FlitMsg) (control : Bool) (who : Nat) :
    Still s (s.enqueue p target cls part m control who) :=
  .ite (s.ports_still _) ((s.ports_still _).trans (State.sched_still _ _ _ _))

theorem State.sendControl_still (m part : Nat) (f : FlitMsg) : Still s (s.sendControl m part f) :=
  .ite (.refl s) (s.enqueue_still _ _ _ _ _ _ _)

theorem State.domCheck_still (bar : Nat) : Still s (s.domCheck bar) :=
  .ite (.refl s) ((s.modBarrier_still _ _).trans (.ite
    (.ite (State.schedWithin_still _ _ _ _) ((State.sched_still _ _ _ _).trans (State.freed_still _)))
    (State.sendControl_still _ _ _ _)))

theorem State.childArrives_still (bar child task : Nat) : Still s (s.childArrives bar child task) :=
  (s.modBarrier_still _ _).trans (State.domCheck_still _ _)

/-! Cores that hold nothing -/

variable {s}

theorem State.core_of_none (cores : s.cores = []) (c : Nat) : s.core c = {} := by
  rw [State.core, cores]
  rfl

theorem State.l1Sweep_none (cores : s.cores = []) (l : List Nat) (clean : Line → List Bool) (f : Line → Line) :
    s.l1Sweep l clean f = s := by
  refine foldl_keeps (P := fun t => t = s) l (fun t c _ h => ?_) s rfl
  rw [h, s.core_of_none cores]
  rfl

theorem State.wcbFlush_none (cores : s.cores = []) (core buf part : Nat) : s.wcbFlush core buf part = s := by
  have same : (s.modCore core fun c => { c with wcb := c.wcb.put buf {} }) = s := by
    have put : (s.core core).wcb.put buf {} = [] := by rw [s.core_of_none cores]; rfl
    have nothing : s.cores.upd core (fun c => { c with wcb := c.wcb.put buf {} }) = s.cores := by
      rw [cores]
      rfl
    rw [State.modCore, nothing]
  have line : ((s.core core).wcb.look buf).line = none := by rw [s.core_of_none cores]; rfl
  unfold State.wcbFlush
  simp only [line, same]

theorem State.releaseActs_none (cores : s.cores = []) (core ctx part scope : Nat) : s.releaseActs core ctx part scope = s := by
  have clean : s.cleanOwn core ctx = s := by
    unfold State.cleanOwn
    exact State.l1Sweep_none cores _ _ _
  have flush : s.wcbFlushAll core part = s :=
    foldl_keeps (P := fun t => t = s) _ (fun t b _ h => by rw [h]; exact State.wcbFlush_none cores core b part) s rfl
  unfold State.releaseActs
  rw [clean, flush]
  simp only [ite_self]

theorem State.l1Flush_none (cores : s.cores = []) (core pa n : Nat) : s.l1Flush core pa n = s := by
  refine foldl_keeps (P := fun t => t = s) _ (fun t l _ h => ?_) s rfl
  have find : ∀ la, s.l1Find core la = none := fun la => by
    rw [State.l1Find, s.core_of_none cores]
    exact findLine_nil _ _ _
  have line : s.l1Line core l.1 = {} := by rw [State.l1Line, find]
  have back : ∀ sel, s.l1WriteBack core {} sel = s := fun sel => by
    have none : (andNot [] (andNot [] sel)).any id = false := by simp [andNot]
    unfold State.l1WriteBack
    simp only [none]
    rfl
  rw [h, line, back, State.l1Drop, find]

theorem State.barrierCheck_still (cores : s.cores = []) (k : Nat) : Still s (s.barrierCheck k) := by
  have acts : s.barActs (s.barriers.look k) = s :=
    foldl_keeps (P := fun t => t = s) _ (fun t p _ h => by rw [h]; exact State.releaseActs_none cores _ _ _ _) s rfl
  unfold State.barrierCheck
  simp only [acts, ite_self]
  exact .ite (.refl s) ((s.modBarrier_still _ _).trans (.ite (State.childArrives_still _ _ _ _) (State.schedWithin_still _ _ _ _)))

/-- What the order of stores lets go on in a module whose cores hold nothing. -/
theorem State.orderFree_still (cores : s.cores = []) (core ctx task : Nat) (none : (s.bank (ctxOf core ctx)).heldStores = []) :
    Still s (s.orderFree core ctx task) := by
  have tried : Still s (s.tryStores core ctx task) := by
    rcases s.tryStores_idle core ctx task none with h | h <;> rw [h]
    · exact .refl s
    · exact s.modBank_still _ _
  unfold State.orderFree State.barRecheck
  refine foldl_keeps (P := Still s) _ (fun t e _ h => ?_) _ tried
  exact h.trans (State.barrierCheck_still (h.cores.trans cores) _)

end

/-! The operation -/

theorem leNat_lt (b : List Byte) : leNat b < 256 ^ b.length := by
  induction b with
  | nil => simp [leNat]
  | cons x b ih =>
    have hx := x.isLt
    simp only [leNat, List.length_cons, Nat.pow_succ]
    omega

theorem State.sideBytes_length_le (s : State) (part pa n : Nat) : (s.sideBytes part pa n).length ≤ n := by
  unfold State.sideBytes
  split
  · rw [s.memBytes_length]
  · exact List.length_take_le _ _

section
variable {s : State} {a : Atom} (cores : s.cores = []) (dies : s.dies = []) (aligned : a.pa % 8 = 0) (low : a.pa < 2 ^ 40)
  (cached : a.mt = 0) (own : a.arrived = none) (free : s.capturing a.task = false)

/-- Bytes of an atomic's word. -/
def Atom.width (a : Atom) : Nat := if a.w then 8 else 4

theorem Atom.width_cases (a : Atom) : a.width = 8 ∨ a.width = 4 := by
  unfold Atom.width
  split
  · exact .inl rfl
  · exact .inr rfl

include cores free in
theorem State.atomReady_none : s.atomReady a = s := by
  have capture : s.captureMem a.task a.core a.pa (if a.w then 8 else 4) = s := by
    unfold State.captureMem
    rw [free]
    rfl
  rw [State.atomReady, capture, State.l1Flush_none cores]

/-- The word of an atomic as its task stores it. -/
def State.atomLine (s : State) (a : Atom) (b : List Byte) : State :=
  (({ s with env := { s.env with task := a.task } } : State).countLack a.part (lineOf a.pa) (ctxOf a.core a.ctx)).sideStore (dieOf a.core)
    a.part (lineOf a.pa) (placed (a.pa % 128) b) (spanMask (a.pa % 128) b.length) 2

include aligned cached own in
theorem State.atomStore_eq (b : List Byte) (len : b.length = a.width) :
    s.atomStore a b = { s.atomLine a b with env := s.env } := by
  have size := a.width_cases
  have some : b ≠ [] := fun e => by rw [e, List.length_nil] at len; omega
  unfold State.atomStore State.asTask
  simp only [own, cached]
  rw [State.byLines_within _ _ _ _ some (by omega)]
  rfl


theorem State.fillSlots_cores (die part la : Nat) (m : List Bool) : (s.fillSlots die part la m).cores = s.cores :=
  (s.hbmTask_traffic _ _ _ _ _).cores

include dies in
/-- A store at the memory side of an empty module leaves cores alone. -/
theorem State.sideStore_cores (die part la : Nat) (d : List Byte) (m : List Bool) :
    (s.sideStore die part la d m 2).cores = s.cores := by
  by_cases host : 2 ^ 39 ≤ paOff la
  · unfold State.sideStore
    rw [if_pos host]
    rfl
  · have filled : (s.fillSlots (ownerDie la) part la m).dies = [] := (s.hbmTask_dies _ _ _ _ _).trans dies
    have cores := s.fillSlots_cores (ownerDie la) part la m
    rw [s.sideStore_empty dies _ _ _ _ _ (not_le.1 host), State.llcStore_empty _ filled]
    split
    · exact cores
    · exact cores

theorem State.countLack_rest (part la who : Nat) : (s.countLack part la who).dies = s.dies ∧ (s.countLack part la who).cores = s.cores := by
  unfold State.countLack
  simp only
  split
  · exact ⟨rfl, rfl⟩
  · obtain ⟨⟨c, e, h⟩, _⟩ := s.count_countsOnly (who / 8) (who % 8) 0x0D 1
    rw [h]
    exact ⟨rfl, rfl⟩

include dies in
theorem State.atomLine_cores (b : List Byte) : (s.atomLine a b).cores = s.cores := by
  obtain ⟨noDies, cores⟩ := State.countLack_rest (s := { s with env := { s.env with task := a.task } }) a.part (lineOf a.pa)
    (ctxOf a.core a.ctx)
  exact (State.sideStore_cores (noDies.trans dies) _ _ _ _ _).trans cores

include dies aligned low in
/-- The word of an atomic reads back (R164). -/
theorem State.atomLine_reads (b : List Byte) (len : b.length = a.width) : (s.atomLine a b).sideBytes a.part a.pa b.length = b := by
  have size := a.width_cases
  obtain ⟨noDies, _⟩ := State.countLack_rest (s := { s with env := { s.env with task := a.task } }) a.part (lineOf a.pa)
    (ctxOf a.core a.ctx)
  have split : lineOf a.pa + a.pa % 128 = a.pa := by unfold lineOf; omega
  have reads := State.sideStore_reads (noDies.trans dies) (dieOf a.core) a.part (lineOf a.pa) (a.pa % 128) b
    (by unfold lineOf; omega) (by unfold lineOf; omega) (Nat.mod_lt _ (by decide)) (by omega)
  rw [split] at reads
  exact reads

include cores free in
theorem State.atomOld_none : s.atomOld a = leNat (s.sideBytes a.part a.pa a.width) := by
  rw [State.atomOld, State.atomReady_none cores free]
  rfl

include cores dies aligned low cached own free in
/-- After an atomic of an empty module its word holds what it computed, and no core holds anything. -/
theorem State.atomWrote_none : (s.atomWrote a).cores = [] ∧
    (s.atomWrote a).sideBytes a.part a.pa a.width = natLe a.width (a.apply (s.atomOld a)) := by
  have len : (natLe a.width (a.apply (s.atomOld a))).length = a.width := natLe_length _ _
  have eq : s.atomWrote a = { s.atomLine a (natLe a.width (a.apply (s.atomOld a))) with env := s.env } := by
    rw [State.atomWrote, State.atomReady_none cores free]
    exact s.atomStore_eq aligned cached own _ len
  have reads := State.atomLine_reads dies aligned low _ len
  rw [len] at reads
  rw [eq]
  exact ⟨(State.atomLine_cores dies _).trans cores, reads⟩

theorem State.atomLoaded_still (id : Nat) (b : List Byte) : Still s (s.atomLoaded id b) := ⟨rfl, rfl, rfl, rfl, rfl⟩

theorem State.atomLoaded_look (id : Nat) (b : List Byte) (h : (s.loads.look id).id = id) :
    (s.atomLoaded id b).loads.look id = (s.loads.look id).fill 0 b := by
  show (s.updLoad id fun l => if l.id = id then l.fill 0 b else l).loads.look id = _
  rw [State.updLoad_look, if_pos h]

end

end Sys2Proof.Machine
end

section
/-! PROOFS. A group of one atomic in an empty module: its word and its answer (R164), for O44. -/
namespace Sys2Proof.Machine

open Sys2Proof.Spec

section
variable {s : State} {a : Atom} (cores : s.cores = []) (dies : s.dies = []) (aligned : a.pa % 8 = 0) (low : a.pa < 2 ^ 40)
  (cached : a.mt = 0) (own : a.arrived = none) (free : s.capturing a.task = false) (none : ∀ k, (s.bank k).heldStores = [])

/-- The old value of an atomic fits its word. -/
theorem State.atomWord_lt (s : State) (a : Atom) (n : Nat) : leNat (s.sideBytes a.part a.pa n) < 256 ^ n :=
  (leNat_lt _).trans_le (Nat.pow_le_pow_right (by decide) (s.sideBytes_length_le _ _ _))

/-- What an atomic of an empty module leaves for its load. -/
theorem State.atomLoaded_fill (id old n : Nat) (h : (s.loads.look id).id = id) (fits : old < 256 ^ n) :
    leNat (bytesAt ((s.atomLoaded id (natLe n old)).loads.look id).data 0 n) = old := by
  have bytes : bytesAt (((s.loads.look id).fill 0 (natLe n old))).data 0 n = natLe n old := by
    have put := bytesAt_putBytes (s.loads.look id).data 0 (natLe n old)
    rw [natLe_length] at put
    exact put
  rw [State.atomLoaded_look id _ h, bytes, leNat_natLe, Nat.mod_eq_of_lt fits]

include cores dies aligned low cached own free none in
/-- An atomic of an empty module leaves what it computed in its word, and the old value to its load. -/
theorem State.atomOne_none :
    (s.atomOne a).sideBytes a.part a.pa a.width = natLe a.width (a.apply (leNat (s.sideBytes a.part a.pa a.width))) ∧
      ∀ id, a.load = some id → (s.loads.look id).id = id →
        leNat (bytesAt ((s.atomOne a).loads.look id).data 0 a.width) = leNat (s.sideBytes a.part a.pa a.width) := by
  obtain ⟨noCores, word⟩ := State.atomWrote_none cores dies aligned low cached own free
  have old := State.atomOld_none (a := a) cores free
  have held : ∀ k, ((s.atomWrote a).bank k).heldStores = [] := fun k =>
    (Bank.unfenced_heldStores ((s.atomWrote_atomic a).bank k)).trans (none k)
  rw [s.atomOne_own a own, ← old]
  cases a.load with
  | none =>
    have still := State.orderFree_still noCores a.core a.ctx a.task (held _)
    exact ⟨(still.sight.sideBytes _ _ _).trans word, nofun⟩
  | some id =>
    have still := State.atomLoaded_still (s := s.atomWrote a) id (natLe a.width (s.atomOld a))
    refine ⟨(still.sight.sideBytes _ _ _).trans word, fun k e own => ?_⟩
    obtain rfl := Option.some.inj e
    have loads : (s.atomWrote a).loads = s.loads := by
      have ready := (s.captureMem_beside a.task a.core a.pa a.width).trans (State.l1Flush_beside _ a.core a.pa a.width)
      exact (ready.trans (State.atomStore_beside _ a _)).loads
    exact State.atomLoaded_fill id (s.atomOld a) a.width (by rw [loads]; exact own) (by rw [old]; exact s.atomWord_lt a _)

end

theorem atomicGroup_one (s : State) (word interval : Nat) (a : Atom) (alone : s.groupOf word interval = [a]) (low : word < 2 ^ 40)
    (aligned : word % 8 = 0) (cores : s.cores = []) (dies : s.dies = []) (free : s.capturing a.task = false)
    (goes : s.groupWaits word interval (s.groupOf word interval) = false) (cached : a.mt = 0) (own : a.arrived = none)
    (none : ∀ k, (s.bank k).heldStores = []) :
    Does (.atomicGroup word interval) s fun t =>
      t.sideBytes a.part word a.width = natLe a.width (a.apply (leNat (s.sideBytes a.part word a.width))) ∧
      ∀ id, a.load = some id → (s.loads.look id).id = id →
        leNat (bytesAt (t.loads.look id).data 0 a.width) = leNat (s.sideBytes a.part word a.width) := by
  obtain ⟨_, rfl, _⟩ := (s.mem_groupOf word interval a).1 (by rw [alone]; exact List.mem_singleton_self a)
  have one : s.groupPerform a.pa interval = (s.atomsLeft a.pa interval).atomOne a := by
    rw [s.groupPerform_eq, if_neg (by rw [goes]; exact Bool.false_ne_true), alone]
    rfl
  refine ⟨s.groupPerform a.pa interval, exec_atomicGroup s _ _, ?_⟩
  rw [one]
  exact State.atomOne_none (s := s.atomsLeft a.pa interval) cores dies aligned low cached own free none

end Sys2Proof.Machine
end

section
/-! PROOFS. A tile of a push is published in its ring (R154), for O44. -/
namespace Sys2Proof.Machine

open Sys2Proof.Spec

/-! What is written within a range of a partition -/

/-- Only bytes of a range of a partition have changed in scratchpads; memory and contexts stand, and so does what is measured. -/
structure WrittenIn (core ctx lo n : Nat) (s t : State) : Prop where
  mem : t.mem = s.mem
  banks : t.banks = s.banks
  capturing : ∀ k, t.capturing k = s.capturing k
  spad : ∀ off m, off + m ≤ lo ∨ lo + n ≤ off → t.spadBytes core ctx off m = s.spadBytes core ctx off m

namespace WrittenIn

variable {core ctx lo n : Nat}

theorem refl (s : State) : WrittenIn core ctx lo n s s := ⟨rfl, rfl, fun _ => rfl, fun _ _ _ => rfl⟩

theorem trans {s t u : State} (h : WrittenIn core ctx lo n s t) (k : WrittenIn core ctx lo n t u) : WrittenIn core ctx lo n s u :=
  ⟨k.mem.trans h.mem, k.banks.trans h.banks, fun j => (k.capturing j).trans (h.capturing j),
    fun off m a => (k.spad off m a).trans (h.spad off m a)⟩

theorem spadNat {s t : State} (h : WrittenIn core ctx lo n s t) (off m : Nat) (apart : off + m ≤ lo ∨ lo + n ≤ off) :
    t.spadNat core ctx off m = s.spadNat core ctx off m := by
  rw [State.spadNat, State.spadNat, h.spad off m apart]

end WrittenIn

theorem bytesAt_congr {m m' : SMap Byte} {a n : Nat} (h : ∀ i < n, m'.look (a + i) = m.look (a + i)) :
    bytesAt m' a n = bytesAt m a n := by
  refine List.ext_getElem (by simp) fun i h1 h2 => ?_
  have inside : i < n := by simpa using h1
  have hb := (bytesAt_getD m' a n i inside).trans ((h i inside).trans (bytesAt_getD m a n i inside).symm)
  rw [List.getD_eq_getElem _ _ h1, List.getD_eq_getElem _ _ h2] at hb
  exact hb

theorem Traffic.writtenIn {s t : State} (h : Traffic s t) (core ctx lo n : Nat) : WrittenIn core ctx lo n s t := by
  refine ⟨h.mem, h.banks, fun k => ?_, fun off m _ => h.beside.spadBytes core ctx off m⟩
  rw [h.same]
  rfl

theorem bytesAt_append (m : SMap Byte) (a k n : Nat) : bytesAt m a (k + n) = bytesAt m a k ++ bytesAt m (a + k) n := by
  induction k generalizing a with
  | zero => rw [Nat.zero_add, Nat.add_zero, bytesAt, List.nil_append]
  | succ k ih => rw [Nat.succ_add, bytesAt, ih, bytesAt, List.cons_append, Nat.add_assoc, Nat.add_comm 1 k]

section
variable (s : State) (core ctx : Nat)

theorem State.spadStore_writtenIn (lo n off : Nat) (b : List Byte) (low : lo ≤ off) (high : off + b.length ≤ lo + n) :
    WrittenIn core ctx lo n s (s.spadStore core ctx off b) := by
  refine ⟨rfl, rfl, fun _ => rfl, fun o m apart => ?_⟩
  unfold State.spadBytes
  rw [s.spadStore_spad, s.spadStore_bank]
  refine bytesAt_congr fun i hi => putBytes_look_out _ _ _ _ ?_
  unfold Bank.at_
  omega

/-- A store that is not measured goes to the scratchpad alone (R132). -/
theorem State.taskSpad_free (task off : Nat) (b : List Byte) (free : s.capturing task = false) :
    s.taskSpad task core ctx off b = s.spadStore core ctx off b := by
  unfold State.taskSpad State.captureSpad
  rw [free, if_pos (by rfl)]

theorem State.spadBytes_append (off m n : Nat) :
    s.spadBytes core ctx off (m + n) = s.spadBytes core ctx off m ++ s.spadBytes core ctx (off + m) n := by
  unfold State.spadBytes Bank.at_
  rw [bytesAt_append, Nat.add_assoc]

/-- Two words stored one after the other read back. -/
theorem State.spadStore_words (off a b : Nat) :
    (s.spadStore core ctx off (natLe 4 a ++ natLe 4 b)).spadNat core ctx off 4 = a % 2 ^ 32 ∧
      (s.spadStore core ctx off (natLe 4 a ++ natLe 4 b)).spadNat core ctx (off + 4) 4 = b % 2 ^ 32 := by
  have both := s.spadBytes_spadStore core ctx off (natLe 4 a ++ natLe 4 b)
  rw [List.length_append, natLe_length, natLe_length, State.spadBytes_append] at both
  obtain ⟨first, second⟩ := List.append_inj both (by rw [State.spadBytes, bytesAt_length, natLe_length])
  exact ⟨(congrArg leNat first).trans (leNat_natLe 4 a), (congrArg leNat second).trans (leNat_natLe 4 b)⟩

end

/-! The parts of a tile -/

/-- A page of a range lies in it, with some of its bytes. -/
theorem pagesOf_inside {va n : Nat} {p : Nat × Nat} (h : p ∈ pagesOf va n) : va ≤ p.1 ∧ p.1 + p.2 ≤ va + n ∧ 0 < p.2 := by
  unfold pagesOf at h
  obtain ⟨i, _, some⟩ := List.mem_filterMap.1 h
  simp only at some
  split at some
  · next less =>
    obtain rfl := Option.some.inj some
    have low := le_max_left va ((va / 65536 + i) * 65536)
    have high := min_le_left (va + n) ((va / 65536 + i + 1) * 65536)
    simp only
    omega
  · exact absurd some nofun

/-- Parts of a tile lie within its bytes, and hold some. -/
def PartsWithin (n : Nat) (ps : List (Nat × Nat × Nat × Nat)) : Prop := ∀ p ∈ ps, 0 < p.2.2.1 ∧ p.2.2.2 + p.2.2.1 ≤ n

/-- The parts of a tile found so far lie within it, and only translation has gone on. -/
structure PartsFound (s : State) (n : Nat) (r : Option ((Nat × Nat) × List (Nat × Nat × Nat × Nat)) × State) : Prop where
  traffic : Traffic s r.2
  within : ∀ f ps, r.1 = some (f, ps) → PartsWithin n ps

theorem State.mslXlate_traffic (s : State) (x : Sub) (va kind : Nat) : Traffic s (s.mslXlate x va kind).2 :=
  s.findXlate_traffic _ _ _ _ _

theorem State.tilePieces_found (s : State) (x : Sub) :
    PartsFound s (subRows x.desc * subRowBytes x.desc) (s.tilePieces x) := by
  unfold State.tilePieces
  refine foldl_keeps (P := PartsFound s (subRows x.desc * subRowBytes x.desc)) _ (fun r row hrow found => ?_) _
    ⟨.refl s, fun f ps e => ?_⟩
  · refine foldl_keeps (P := PartsFound s (subRows x.desc * subRowBytes x.desc)) _ (fun r p hp found => ?_) _ found
    obtain ⟨traffic, within⟩ := found
    split
    · next fa ps eq =>
      have xlate := r.2.mslXlate_traffic x p.1 (if subPull x.desc then 1 else 0)
      split
      · next s' e => exact ⟨by rw [e] at xlate; exact traffic.trans xlate, nofun⟩
      · next c s' e =>
        refine ⟨by rw [e] at xlate; exact traffic.trans xlate, fun f qs h => ?_⟩
        obtain ⟨rfl, rfl⟩ := Prod.mk.inj (Option.some.inj h)
        exact within _ _ eq
      · next y s' e =>
        rw [e] at xlate
        simp only
        split
        · refine ⟨traffic.trans xlate, fun f qs h => ?_⟩
          obtain ⟨rfl, rfl⟩ := Prod.mk.inj (Option.some.inj h)
          exact within _ _ eq
        · refine ⟨traffic.trans xlate, fun f qs h => ?_⟩
          obtain ⟨rfl, rfl⟩ := Prod.mk.inj (Option.some.inj h)
          intro q hq
          rcases List.mem_append.1 hq with hq | hq
          · exact within _ _ eq q hq
          · obtain rfl := List.mem_singleton.1 hq
            obtain ⟨low, high, some⟩ := pagesOf_inside hp
            have row' : row + 1 ≤ subRows x.desc := List.mem_range.1 hrow
            have rows := Nat.mul_le_mul_right (subRowBytes x.desc) row'
            rw [Nat.add_mul, Nat.one_mul] at rows
            simp only
            omega
    · exact ⟨traffic, within⟩
  · obtain ⟨rfl, rfl⟩ := Prod.mk.inj (Option.some.inj e)
    exact nofun

/-- Parts that lie below an offset are all of them below it. -/
theorem piecesBelow_all {n room : Nat} {ps : List (Nat × Nat × Nat × Nat)} (h : PartsWithin n ps) (fits : n ≤ room) :
    piecesBelow room ps = ps := by
  induction ps with
  | nil => rfl
  | cons p ps ih =>
    obtain ⟨some, inside⟩ := h p List.mem_cons_self
    have whole : (if p.2.2.2 < room then Option.some (p.1, p.2.1, min p.2.2.1 (room - p.2.2.2), p.2.2.2) else none) = Option.some p := by
      rw [if_pos (by omega), Nat.min_eq_left (by omega)]
    unfold piecesBelow at ih ⊢
    rw [List.filterMap_cons]
    simp only [whole]
    rw [ih fun q hq => h q (List.mem_cons_of_mem _ hq)]

/-! The bytes move, and the tile is published -/

section
variable (s : State) (x : Sub)

/-- A push from a stack of the module writes in its ring's slot alone (R154). -/
theorem State.pushStore_writtenIn (slot n : Nat) (ps : List (Nat × Nat × Nat × Nat)) (within : PartsWithin n ps)
    (own : x.remote = false) (free : s.capturing x.task = false) : WrittenIn x.core x.ctx slot n s (s.pushStore x slot ps) := by
  unfold State.pushStore
  refine foldl_keeps (P := WrittenIn x.core x.ctx slot n s) ps (fun t p hp h => ?_) s (.refl s)
  obtain ⟨some, inside⟩ := within p hp
  simp only [own, Bool.false_eq_true, if_false]
  rw [State.taskSpad_free _ _ _ _ _ _ ((h.capturing _).trans free)]
  refine h.trans (t.spadStore_writtenIn _ _ _ _ _ _ (by omega) ?_)
  rw [State.memBytes_length]
  omega

theorem State.subEnd_kept (id : Nat) :
    (s.subEnd id).cores = s.cores ∧ (s.subEnd id).mem = s.mem ∧ (s.subEnd id).banks = s.banks := by
  unfold State.subEnd
  simp only
  split <;> exact ⟨rfl, rfl, rfl⟩

theorem State.subEnd_gone (id : Nat) : (s.subEnd id).subs.look id = {} := by
  have dropped : (s.subEnd id).subs = s.subs.drop (· = id) := by
    unfold State.subEnd
    simp only
    split <;> rfl
  rw [dropped]
  exact SMap.look_drop_same _ _

/-- The publish word of a push, one tile on. -/
def State.published (s : State) (x : Sub) (tail : Nat) : State :=
  let r := s.ringEnt x.core x.ctx x.ring
  s.spadStore x.core x.ctx r.pub (natLe 4 ((tail + 1) % 2 ^ 32) ++ natLe 4 ((s.ringSeq x.core x.ctx r + 1) % 2 ^ 32))

theorem State.tileDone_kept (head tail : Nat) (push : subPull x.desc = false) (free : s.capturing x.task = false)
    (room : (s.ringEnt x.core x.ctx x.ring).pub + 8 ≤ (s.bank (ctxOf x.core x.ctx)).spadSize) :
    (s.tileDone x head tail).cores = (s.published x tail).cores ∧ (s.tileDone x head tail).mem = s.mem ∧
      (s.tileDone x head tail).banks = s.banks := by
  have pub : s.subPublish x head tail = s.published x tail := by
    unfold State.subPublish
    simp only [push, Bool.false_eq_true, if_false]
    rw [State.taskSpad_free _ _ _ _ _ _ free]
    rfl
  have holds : (s.bank (ctxOf x.core x.ctx)).holds (s.ringEnt x.core x.ctx x.ring).pub 8 = true := decide_eq_true room
  unfold State.tileDone
  simp only [holds, Bool.not_true, Bool.false_eq_true, if_false, pub]
  split
  · exact State.subEnd_kept _ _
  · exact ⟨rfl, rfl, rfl⟩

/-- A ring's entry stands while what is written lies elsewhere. -/
theorem WrittenIn.ringEnt {s t : State} {core ctx lo n : Nat} (h : WrittenIn core ctx lo n s t) (ring : Nat)
    (apart : 16 * ring + 16 ≤ lo ∨ lo + n ≤ 16 * ring) : t.ringEnt core ctx ring = s.ringEnt core ctx ring := by
  have word : ∀ o m, o + m ≤ 16 → t.spadNat core ctx (16 * ring + o) m = s.spadNat core ctx (16 * ring + o) m :=
    fun o m fits => h.spadNat _ _ (by omega)
  unfold State.ringEnt
  simp only
  rw [word 0 4 (by decide), word 4 2 (by decide), word 6 2 (by decide), word 8 4 (by decide), word 12 4 (by decide)]

theorem State.spadNat_congr {s t : State} (cores : t.cores = s.cores) (banks : t.banks = s.banks) (core ctx off n : Nat) :
    t.spadNat core ctx off n = s.spadNat core ctx off n := by
  rw [State.spadNat, State.spadNat, State.spadBytes, State.spadBytes, State.core, State.core, State.bank, State.bank, cores, banks]

/-- What a push's tile leaves in its ring (R154). -/
structure TilePublished (s : State) (x : Sub) (t : State) : Prop where
  tail : t.spadNat x.core x.ctx (s.ringEnt x.core x.ctx x.ring).pub 4 =
    (s.ringTail x.core x.ctx (s.ringEnt x.core x.ctx x.ring) + 1) % 2 ^ 32
  seq : t.spadNat x.core x.ctx ((s.ringEnt x.core x.ctx x.ring).pub + 4) 4 =
    (s.ringSeq x.core x.ctx (s.ringEnt x.core x.ctx x.ring) + 1) % 2 ^ 32
  mem : t.mem = s.mem

/-- The bytes of a push's tile go to its slot, and the tile is published. -/
theorem State.tileMove_publishes (head n : Nat) (ps : List (Nat × Nat × Nat × Nat)) (within : PartsWithin n ps)
    (push : subPull x.desc = false) (own : x.remote = false) (free : s.capturing x.task = false)
    (fits : (s.ringEnt x.core x.ctx x.ring).slotAt (s.ringTail x.core x.ctx (s.ringEnt x.core x.ctx x.ring)) + n ≤
      (s.bank (ctxOf x.core x.ctx)).spadSize / 64 * 64)
    (room : (s.ringEnt x.core x.ctx x.ring).pub + 8 ≤ (s.bank (ctxOf x.core x.ctx)).spadSize)
    (entry : 16 * x.ring + 16 ≤ (s.ringEnt x.core x.ctx x.ring).slotAt (s.ringTail x.core x.ctx (s.ringEnt x.core x.ctx x.ring)) ∨
      (s.ringEnt x.core x.ctx x.ring).slotAt (s.ringTail x.core x.ctx (s.ringEnt x.core x.ctx x.ring)) + n ≤ 16 * x.ring)
    (apart : (s.ringEnt x.core x.ctx x.ring).pub + 8 ≤
        (s.ringEnt x.core x.ctx x.ring).slotAt (s.ringTail x.core x.ctx (s.ringEnt x.core x.ctx x.ring)) ∨
      (s.ringEnt x.core x.ctx x.ring).slotAt (s.ringTail x.core x.ctx (s.ringEnt x.core x.ctx x.ring)) + n ≤
        (s.ringEnt x.core x.ctx x.ring).pub) :
    TilePublished s x (s.tileMove x ps (0, 0) head (s.ringTail x.core x.ctx (s.ringEnt x.core x.ctx x.ring))) := by
  generalize htail : s.ringTail x.core x.ctx (s.ringEnt x.core x.ctx x.ring) = tail at fits entry apart ⊢
  generalize hslot : (s.ringEnt x.core x.ctx x.ring).slotAt tail = slot at fits entry apart
  have all : piecesBelow (s.slotRoom x slot) ps = ps := piecesBelow_all within (by unfold State.slotRoom; omega)
  have stored := s.pushStore_writtenIn x slot n ps within own free
  have moved : s.tileMove x ps (0, 0) head tail = (s.pushStore x slot ps).tileDone x head tail := by
    unfold State.tileMove
    simp only [push, Bool.false_eq_true, if_false, hslot, all, ne_eq, not_true]
  have ent := stored.ringEnt x.ring entry
  have seq : (s.pushStore x slot ps).ringSeq x.core x.ctx (s.ringEnt x.core x.ctx x.ring) =
      s.ringSeq x.core x.ctx (s.ringEnt x.core x.ctx x.ring) := stored.spadNat _ _ (by omega)
  have bank : (s.pushStore x slot ps).bank (ctxOf x.core x.ctx) = s.bank (ctxOf x.core x.ctx) := by
    rw [State.bank, State.bank, stored.banks]
  obtain ⟨cores, mem, banks⟩ := (s.pushStore x slot ps).tileDone_kept x head tail push ((stored.capturing _).trans free)
    (by rw [ent, bank]; exact room)
  have word := State.spadNat_congr cores (banks : _ = ((s.pushStore x slot ps).published x tail).banks) x.core x.ctx
  obtain ⟨first, second⟩ := (s.pushStore x slot ps).spadStore_words x.core x.ctx (s.ringEnt x.core x.ctx x.ring).pub
    ((tail + 1) % 2 ^ 32) ((s.ringSeq x.core x.ctx (s.ringEnt x.core x.ctx x.ring) + 1) % 2 ^ 32)
  have published : (s.pushStore x slot ps).published x tail = (s.pushStore x slot ps).spadStore x.core x.ctx
      (s.ringEnt x.core x.ctx x.ring).pub (natLe 4 ((tail + 1) % 2 ^ 32) ++
        natLe 4 ((s.ringSeq x.core x.ctx (s.ringEnt x.core x.ctx x.ring) + 1) % 2 ^ 32)) := by
    unfold State.published
    simp only [ent, seq]
  rw [moved]
  refine ⟨?_, ?_, mem.trans stored.mem⟩
  · rw [word, published, first, htail, Nat.mod_mod]
  · rw [word, published, second, Nat.mod_mod]

end

/-! The event -/

section
variable (s : State) (j : Stack) (sub : Nat)

theorem exec_rhizoidTile : exec (.rhizoidTile j sub) s = .next (s.rhizoidStep sub) := rfl

theorem rhizoidTile_idle (h : (s.subs.look sub).desc = [] ∨ (s.subs.look sub).stopped = true) :
    exec (.rhizoidTile j sub) s = .next s := by
  have idle : ((s.subs.look sub).desc.isEmpty || (s.subs.look sub).stopped) = true := by
    rcases h with h | h
    · rw [h]
      rfl
    · rw [h, Bool.or_true]
  rw [exec_rhizoidTile, State.rhizoidStep, if_pos idle]

variable (work : (s.subs.look sub).desc ≠ []) (goes : (s.subs.look sub).stopped = false)
include work goes

/-- A subscription at work on a stack that can be reached goes on: it ends, or its tile does. -/
theorem State.rhizoidStep_goes (there : (s.subs.look sub).remote = true ∨
      s.joined (s.subs.look sub).die ((s.subs.look sub).stack / 2) = true) : s.rhizoidStep sub =
    if subTiles (s.subs.look sub).desc ≤ (s.subs.look sub).tile then s.subEnd sub
    else
      let x := s.subs.look sub
      let e := s.subEnds x
      let r := e.2.2.ringEnt x.core x.ctx x.ring
      if !x.moving && (if subPull x.desc then (e.2.1 + 2 ^ 32 - e.1) % 2 ^ 32 = 0 else (e.2.1 + 2 ^ 32 - e.1) % 2 ^ 32 = r.count) then
        e.2.2.sched (e.2.2.now + bwsWait e.2.2.tick) (phRhizoid x.stack) (.rhizoidTile (Fin.ofNat 8 x.stack) sub)
      else e.2.2.tileStep x e.1 e.2.1 := by
  have idle : ((s.subs.look sub).desc.isEmpty || (s.subs.look sub).stopped) = false := by
    rw [goes, Bool.or_false, List.isEmpty_eq_false_iff]
    exact work
  have reached : (!(s.subs.look sub).remote && !s.joined (s.subs.look sub).die ((s.subs.look sub).stack / 2)) = false := by
    rcases there with h | h <;> simp [h]
  unfold State.rhizoidStep
  simp only [idle, reached, Bool.false_eq_true, if_false]

theorem rhizoidTile_ends (there : (s.subs.look sub).remote = true ∨
      s.joined (s.subs.look sub).die ((s.subs.look sub).stack / 2) = true)
    (done : subTiles (s.subs.look sub).desc ≤ (s.subs.look sub).tile) :
    Does (.rhizoidTile j sub) s fun t => t.subs.look sub = {} := by
  refine ⟨s.subEnd sub, ?_, s.subEnd_gone sub⟩
  rw [exec_rhizoidTile, s.rhizoidStep_goes sub work goes there, if_pos done]

/-- A push's tile whose slots have all gone moves. -/
theorem State.rhizoidStep_moves (own : (s.subs.look sub).id = sub) (more : (s.subs.look sub).tile < subTiles (s.subs.look sub).desc)
    (push : subPull (s.subs.look sub).desc = false)
    (moving : (s.subs.look sub).moving = true)
    (there : s.joined (s.subs.look sub).die ((s.subs.look sub).stack / 2) = true) (all : (s.subs.look sub).need = 0)
    (ps : List (Nat × Nat × Nat × Nat)) (found : (s.tilePieces (s.subs.look sub)).1 = some ((0, 0), ps)) :
    let x := s.subs.look sub
    let r := s.ringEnt x.core x.ctx x.ring
    s.rhizoidStep sub = (s.tilePieces x).2.tileMove x ps (0, 0) r.head (s.ringTail x.core x.ctx r) := by
  intro x r
  have subs : (s.tilePieces x).2.subs = s.subs := (s.tilePieces_found x).traffic.subs
  have pieces : s.tilePieces x = (Option.some ((0, 0), ps), (s.tilePieces x).2) := Prod.ext found rfl
  have ends : s.subEnds x = (r.head, s.ringTail x.core x.ctx r, s) := by
    unfold State.subEnds
    simp only [show subPull x.desc = false from push]
    rfl
  rw [s.rhizoidStep_goes sub work goes (.inr there), if_neg (not_le.2 more)]
  simp only [moving, Bool.not_true, Bool.false_and, Bool.false_eq_true, if_false]
  rw [show s.subs.look sub = x from rfl, ends]
  unfold State.tileStep
  simp only
  rw [pieces]
  simp only [show subPull x.desc = false from push, show x.moving = true from moving, show x.need = 0 from all, Bool.false_and,
    Bool.false_eq_true, if_false, if_true, ne_eq, not_true, subs, show x.id = sub from own]
  rfl

theorem rhizoidTile_publishes (own : (s.subs.look sub).id = sub) (more : (s.subs.look sub).tile < subTiles (s.subs.look sub).desc)
    (push : subPull (s.subs.look sub).desc = false) (near : (s.subs.look sub).remote = false)
    (moving : (s.subs.look sub).moving = true)
    (there : s.joined (s.subs.look sub).die ((s.subs.look sub).stack / 2) = true) (all : (s.subs.look sub).need = 0)
    (found : ∃ ps, (s.tilePieces (s.subs.look sub)).1 = some ((0, 0), ps)) (free : s.capturing (s.subs.look sub).task = false) :
    let x := s.subs.look sub
    let r := s.ringEnt x.core x.ctx x.ring
    let slot := r.slotAt (s.ringTail x.core x.ctx r)
    let n := subRows x.desc * subRowBytes x.desc
    let size := (s.bank (ctxOf x.core x.ctx)).spadSize
    slot + n ≤ size / 64 * 64 → r.pub + 8 ≤ size → (16 * x.ring + 16 ≤ slot ∨ slot + n ≤ 16 * x.ring) →
    (r.pub + 8 ≤ slot ∨ slot + n ≤ r.pub) → Does (.rhizoidTile j sub) s (TilePublished s x) := by
  intro x r slot n size fits room entry apart
  obtain ⟨ps, found⟩ := found
  obtain ⟨traffic, within⟩ := s.tilePieces_found x
  generalize hu : (s.tilePieces x).2 = u at traffic
  have kept := traffic.writtenIn x.core x.ctx 0 0
  have word : ∀ off m, u.spadNat x.core x.ctx off m = s.spadNat x.core x.ctx off m := fun off m => kept.spadNat off m (by omega)
  have ent : u.ringEnt x.core x.ctx x.ring = r := kept.ringEnt _ (by omega)
  have tail : u.ringTail x.core x.ctx r = s.ringTail x.core x.ctx r := word _ _
  have seq : u.ringSeq x.core x.ctx r = s.ringSeq x.core x.ctx r := word _ _
  have bank : u.bank (ctxOf x.core x.ctx) = s.bank (ctxOf x.core x.ctx) := by rw [State.bank, State.bank, kept.banks]
  have moves := u.tileMove_publishes x r.head n ps (within _ _ found) push near ((kept.capturing _).trans free)
  rw [ent, tail, bank] at moves
  obtain ⟨t1, t2, t3⟩ := moves fits room entry apart
  rw [ent, tail] at t1
  rw [ent, seq] at t2
  refine ⟨_, (exec_rhizoidTile s j sub).trans (congrArg _ (s.rhizoidStep_moves sub work goes own more push moving there all ps found)), ?_⟩
  rw [show (s.tilePieces (s.subs.look sub)).2 = u from hu]
  exact ⟨t1, t2, t3.trans kept.mem⟩

end

/-! Entries granted (R155) -/

section
variable (s : State) (j : Stack)

theorem exec_subscriptionGrant : exec (.subscriptionGrant j) s = .next (s.subGrant j.val) := rfl

theorem subscriptionGrant_idle (none : ∀ e ∈ s.cmds, e.2.waiting = false) : exec (.subscriptionGrant j) s = .next s := by
  have nobody : (s.cmds.filter fun e => e.2.kind = .subs && e.2.waiting && s.subStack e.2 = (j.val, false)) = [] := by
    rw [List.filter_eq_nil_iff]
    intro e he
    simp [none e he]
  rw [exec_subscriptionGrant, State.subGrant, nobody]
  simp only [List.map_nil, leastBy, ite_self]

theorem subscriptionGrant_grants (c : Cmd) (alone : s.cmds = [(c.id, c)]) (kind : c.kind = .subs) (waits : c.waiting = true)
    (stack : s.subStack c = (j.val, false)) (room : s.subs = []) (others : ∀ e ∈ s.tasks, e.2.subWait ≠ some j.val) :
    Does (.subscriptionGrant j) s fun t => (t.cmds.look c.id).granted = true ∧ (t.cmds.look c.id).waiting = false := by
  have one : (s.cmds.filter fun e => e.2.kind = .subs && e.2.waiting && s.subStack e.2 = (j.val, false)) = [(c.id, c)] := by
    rw [alone, List.filter_singleton]
    simp [kind, waits, stack]
  have free : ¬ 8192 ≤ s.subCount j.val := by
    unfold State.subCount
    rw [room]
    simp
  have first : (s.tasks.any fun e => e.2.subWait = some j.val && e.2.resident && decide (e.2.dord < (s.task c.task).dord)) = false := by
    rw [List.any_eq_false]
    intro e he
    simp [others e he]
  have grants : s.subGrant j.val = s.modCmd c.id fun c => { c with waiting := false, granted := true } := by
    unfold State.subGrant
    simp only [one, List.map_cons, List.map_nil, leastBy, first, if_neg free, Bool.false_eq_true, if_false]
  refine ⟨_, (exec_subscriptionGrant s j).trans (congrArg _ grants), ?_, ?_⟩
  all_goals rw [State.modCmd, SMap.look_upd_same]

end

end Sys2Proof.Machine
end

section
/-! PROOFS. Data that arrives or leaves: obligation O44. -/
namespace Sys2Proof.Machine

open Sys2Proof.Spec

/-- Settles O44, a lemma per clause. -/
theorem dataEvents : Obligations.DataEvents := by
  intro s
  refine ⟨fun id => ?loads, fun j sub => ?tiles, fun j => ?grants, fun word interval => ?atomics, fun core buf => ?drains,
    fun id => ?stores⟩
  case loads =>
    exact ⟨loadDataLand_gone s id, fun own late => loadDataLand_late s id own late,
      fun own now more => loadDataLand_part s id own now more,
      fun own now last early => loadDataLand_early s id own now last early,
      fun own last due now wide reg plain none => loadDataLand_lands s id own now last due wide reg plain none⟩
  case tiles =>
    refine ⟨rhizoidTile_idle s j sub, fun work goes there done _ => rhizoidTile_ends s j sub work goes there done, ?_⟩
    intro work own goes more push near moving there all found free _ fits room entry apart
    obtain ⟨t, step, tail, seq, mem⟩ := rhizoidTile_publishes s j sub work goes own more push near moving there all found free fits
      room entry apart
    exact ⟨t, step, tail, seq, mem⟩
  case grants =>
    exact ⟨subscriptionGrant_idle s j, fun c alone kind waits stack room others =>
      subscriptionGrant_grants s j c alone kind waits stack room others⟩
  case atomics =>
    refine ⟨s.groupOf_keyOrder word interval, s.mem_groupOf word interval, atomicGroup_waits s word interval,
      atomicGroup_performs s word interval, ?_⟩
    intro a alone low aligned cores dies free goes cached own none
    exact atomicGroup_one s word interval a alone low aligned cores dies free goes cached own none
  case drains =>
    exact ⟨wcbDrain_idle s core buf, fun la draining line near there => wcbDrain_does s core buf la draining line near there⟩
  case stores =>
    exact ⟨storeAcknowledged_gone s id, storeAcknowledged_part s id, storeAcknowledged_last s id⟩

end Sys2Proof.Machine
end

section
/-! PROOFS. Frame boundaries of the link (R34, R53), for O49. -/
namespace Sys2Proof.Machine

open Sys2Proof.Spec

theorem bit_eq_testBit (v n : Nat) : bit v n = v.testBit n := by
  rw [Nat.testBit_eq_decide_div_mod_eq, bit]
  rfl

/-- A value with one bit written. -/
theorem bit_setBits_one (v p : Nat) (on : Bool) (j : Nat) :
    bit (setBits v p p (if on then 1 else 0)) j = if j = p then on else bit v j := by
  rw [bit_eq_testBit, bit_eq_testBit, testBit_setBits]
  by_cases same : j = p
  · rw [if_pos (by omega), if_pos same, same, Nat.sub_self]
    cases on <;> decide
  · rw [if_neg (by omega), if_neg same]

section
variable (s : State)

/-- A port's bit of a module's route mask written. -/
def State.routeBit (s : State) (p m : Nat) (on : Bool) : State :=
  s.setF FAB_ROUTE.PORTS m (setBits (s.getF FAB_ROUTE.PORTS m) p p (if on then 1 else 0))

theorem State.routeBit_bit (p m n q : Nat) (on : Bool) (hp : p < 36) :
    bit ((s.routeBit p m on).routeMask n) q = if n = m ∧ q = p then on else bit (s.routeMask n) q := by
  unfold State.routeMask State.routeBit
  by_cases same : n = m
  · subst same
    rw [s.getF_setF_same _ _ _ (by decide), Nat.mod_eq_of_lt (setBits_lt _ _ _ _ _ (s.getF_lt _ _) hp), bit_setBits_one]
    simp
  · rw [s.getF_setF_ne _ _ _ _ _ fun e => same e.2, if_neg fun e => same e.1]

/-- A port's bit written in the masks of modules. -/
def State.routeBits (s : State) (p : Nat) (on : Bool) (l : List Nat) : State := l.foldl (fun s m => s.routeBit p m on) s

theorem State.routeBits_bit (p : Nat) (on : Bool) (l : List Nat) (n q : Nat) (hp : p < 36) :
    bit ((s.routeBits p on l).routeMask n) q = if n ∈ l ∧ q = p then on else bit (s.routeMask n) q := by
  induction l generalizing s with
  | nil => simp [State.routeBits]
  | cons m l ih =>
    show bit (((s.routeBit p m on).routeBits p on l).routeMask n) q = _
    rw [ih, s.routeBit_bit p m n q on hp]
    by_cases later : n ∈ l ∧ q = p
    · rw [if_pos later, if_pos ⟨List.mem_cons_of_mem _ later.1, later.2⟩]
    · rw [if_neg later]
      refine if_congr ?_ rfl rfl
      rw [List.mem_cons]
      tauto

/-- A port changed. -/
def State.updPort (s : State) (p : Nat) (f : PortSt → PortSt) : State := { s with ports := s.ports.upd p f }

theorem State.updPort_same (p : Nat) (f : PortSt → PortSt) : (s.updPort p f).ports.look p = f (s.ports.look p) :=
  SMap.look_upd_same _ _ _

theorem State.updPort_ne (p q : Nat) (f : PortSt → PortSt) (h : q ≠ p) : (s.updPort p f).ports.look q = s.ports.look q := by
  rw [State.updPort, SMap.look_upd, if_neg h]

/-- Bits of a port written in the masks of some modules, and the port changed: memory, the other registers and the other ports
stand. -/
structure PortPut (p : Nat) (on : Bool) (l : List Nat) (g : PortSt → PortSt) (s t : State) : Prop where
  mem : t.mem = s.mem
  regs : ∀ c i, c ≠ .FAB_ROUTE → t.csrVal c i = s.csrVal c i
  others : ∀ q, q ≠ p → t.ports.look q = s.ports.look q
  port : t.ports.look p = g (s.ports.look p)
  bits : ∀ m q, bit (t.routeMask m) q = if m ∈ l ∧ q = p then on else bit (s.routeMask m) q

theorem State.updPort_put (p : Nat) (g : PortSt → PortSt) (on : Bool) : PortPut p on [] g s (s.updPort p g) :=
  ⟨rfl, fun _ _ _ => rfl, fun q n => s.updPort_ne p q g n, s.updPort_same p g, fun m q => by simp; rfl⟩

/-- A port's bits written after its replays are cleared. -/
def State.portPut (s : State) (p : Nat) (on : Bool) (l : List Nat) (g : PortSt → PortSt) : State :=
  { s.routeBits p on l with ports := s.ports.upd p g }

theorem State.portPut_put (p : Nat) (on : Bool) (l : List Nat) (g : PortSt → PortSt) (hp : p < 36) :
    PortPut p on l g s (s.portPut p on l g) := by
  refine ⟨?_, fun c i n => ?_, fun q n => s.updPort_ne p q g n, s.updPort_same p g, fun m q => s.routeBits_bit p on l m q hp⟩
  · exact foldl_keeps (f := fun s m => State.routeBit s p m on) (P := fun t : State => t.mem = s.mem) l (fun t m _ h => h) s rfl
  · exact foldl_keeps (f := fun s m => State.routeBit s p m on) (P := fun t : State => t.csrVal c i = s.csrVal c i) l
      (fun t m _ h => (t.csrVal_csrPut_ne _ _ _ _ _ fun e => n e.1).trans h) s rfl

/-- One change of a port after another. -/
theorem PortPut.after {p : Nat} {on : Bool} {l : List Nat} {f g : PortSt → PortSt} {s t u : State} (h : PortPut p on [] f s t)
    (k : PortPut p on l g t u) : PortPut p on l (fun o => g (f o)) s u := by
  refine ⟨k.mem.trans h.mem, fun c i n => (k.regs c i n).trans (h.regs c i n), fun q n => (k.others q n).trans (h.others q n), ?_,
    fun m q => ?_⟩
  · rw [k.port, h.port]
  · rw [k.bits, h.bits]
    simp

/-! A boundary at a port -/

/-- A port's replays of a new frame. -/
def PortSt.newFrame (o : PortSt) : PortSt := { o with replays := 0 }
/-- A port that has joined the masks again. -/
def PortSt.joins (o : PortSt) : PortSt := { o with rejoin := false, fell := false, routes := [] }
/-- A port that has left masks. -/
def PortSt.leaves (had : List Nat) (o : PortSt) : PortSt := { o with routes := o.routes ++ had.filter fun m => !o.routes.contains m }

/-- The modules whose masks hold a port. -/
def State.routed (s : State) (p : Nat) : List Nat := (List.range 64).filter fun m => bit (s.routeMask m) p

theorem State.portFrame_eq (p : Nat) : s.portFrame p =
    if s.getF FAB_PORT_STAT.STATE p = 2 then
      if (s.ports.look p).rejoin then (s.updPort p PortSt.newFrame).portPut p true (s.ports.look p).routes PortSt.joins
      else s.updPort p PortSt.newFrame
    else if !(s.ports.look p).fell then s.updPort p PortSt.newFrame
    else (s.updPort p PortSt.newFrame).portPut p false (s.routed p) (PortSt.leaves (s.routed p)) := by
  unfold State.portFrame
  rfl

/-- What a boundary does at a port (R34, R53). -/
structure PortFramed (p : Nat) (s t : State) : Prop where
  replays : (t.ports.look p).replays = 0
  leaves : s.getF FAB_PORT_STAT.STATE p ≠ 2 → (s.ports.look p).fell = true → ∀ m < 64,
    bit (t.routeMask m) p = false ∧ (bit (s.routeMask m) p = true → m ∈ (t.ports.look p).routes)
  joins : s.getF FAB_PORT_STAT.STATE p = 2 → (s.ports.look p).rejoin = true → ∀ m < 64,
    bit (t.routeMask m) p = (bit (s.routeMask m) p || (s.ports.look p).routes.contains m)

/-- What a boundary at a port leaves alone: memory, the ports' states, the other ports and their bits. -/
structure PortAside (p : Nat) (s t : State) : Prop where
  mem : t.mem = s.mem
  state : ∀ q, t.getF FAB_PORT_STAT.STATE q = s.getF FAB_PORT_STAT.STATE q
  others : ∀ q, q ≠ p → t.ports.look q = s.ports.look q
  bits : ∀ q, q ≠ p → ∀ m, bit (t.routeMask m) q = bit (s.routeMask m) q

theorem PortPut.aside {p : Nat} {on : Bool} {l : List Nat} {g : PortSt → PortSt} {s t : State} (h : PortPut p on l g s t) :
    PortAside p s t := by
  refine ⟨h.mem, fun q => State.getF_of_csrVal (h.regs _ _ (by decide)), h.others, fun q n m => ?_⟩
  rw [h.bits, if_neg fun e => n e.2]

theorem State.portFrame_does (p : Nat) (hp : p < 36) : PortAside p s (s.portFrame p) ∧ PortFramed p s (s.portFrame p) := by
  have fresh := fun on => s.updPort_put p PortSt.newFrame on
  have put := fun on l g => (fresh on).after ((s.updPort p PortSt.newFrame).portPut_put p on l g hp)
  rw [s.portFrame_eq p]
  by_cases up : s.getF FAB_PORT_STAT.STATE p = 2
  · rw [if_pos up]
    by_cases rejoin : (s.ports.look p).rejoin = true
    · rw [if_pos rejoin]
      have h := put true (s.ports.look p).routes PortSt.joins
      refine ⟨h.aside, ?_, fun n => absurd up n, fun _ _ m _ => ?_⟩
      · rw [h.port]
        rfl
      · rw [h.bits]
        by_cases mem : m ∈ (s.ports.look p).routes <;> simp [mem]
    · rw [if_neg rejoin]
      refine ⟨(fresh true).aside, ?_, fun n => absurd up n, fun _ r => absurd r rejoin⟩
      rw [(fresh true).port]
      rfl
  · rw [if_neg up]
    by_cases fell : (s.ports.look p).fell = true
    · rw [if_neg (by simp [fell])]
      have h := put false (s.routed p) (PortSt.leaves (s.routed p))
      refine ⟨h.aside, ?_, fun _ _ m hm => ⟨?_, fun had => ?_⟩, fun e => absurd e up⟩
      · rw [h.port]
        rfl
      · rw [h.bits]
        split
        · rfl
        · next out =>
          rw [← Bool.not_eq_true]
          intro on
          exact out ⟨List.mem_filter.2 ⟨List.mem_range.2 hm, on⟩, rfl⟩
      · have routed : m ∈ s.routed p := List.mem_filter.2 ⟨List.mem_range.2 hm, had⟩
        rw [h.port]
        show m ∈ (s.ports.look p).routes ++ (s.routed p).filter fun m => !(s.ports.look p).routes.contains m
        by_cases before : m ∈ (s.ports.look p).routes <;> simp [before, routed]
    · rw [if_pos (by simp [fell])]
      refine ⟨(fresh true).aside, ?_, fun _ f => absurd f fell, fun e => absurd e up⟩
      rw [(fresh true).port]
      rfl

/-! The boundary -/

/-- The ports below a number have had the boundary, and the others are as they were. -/
structure FramedBelow (n : Nat) (s t : State) : Prop where
  mem : t.mem = s.mem
  state : ∀ q, t.getF FAB_PORT_STAT.STATE q = s.getF FAB_PORT_STAT.STATE q
  done : ∀ q < n, PortFramed q s t
  ports : ∀ q, n ≤ q → t.ports.look q = s.ports.look q
  bits : ∀ q, n ≤ q → ∀ m, bit (t.routeMask m) q = bit (s.routeMask m) q

/-- A boundary at another port keeps what a port's has done. -/
theorem PortFramed.keep {p q : Nat} {s t u : State} (h : PortFramed q s t) (k : PortAside p t u) (ne : q ≠ p) : PortFramed q s u := by
  refine ⟨by rw [k.others q ne, h.replays], fun up fell m hm => ?_, fun up rejoin m hm => by rw [k.bits q ne, h.joins up rejoin m hm]⟩
  rw [k.bits q ne, k.others q ne]
  exact h.leaves up fell m hm

theorem State.frames_below (n : Nat) (hn : n ≤ 36) :
    FramedBelow n s ((List.range n).foldl (fun s p => s.portFrame p) s) := by
  induction n with
  | zero => exact ⟨rfl, fun _ => rfl, fun q h => absurd h (by omega), fun _ _ => rfl, fun _ _ _ => rfl⟩
  | succ n ih =>
    rw [List.range_succ, List.foldl_append, List.foldl_cons, List.foldl_nil]
    have h := ih (by omega)
    generalize (List.range n).foldl (fun s p => State.portFrame s p) s = t at h
    obtain ⟨aside, framed⟩ := t.portFrame_does n (by omega)
    refine ⟨aside.mem.trans h.mem, fun q => (aside.state q).trans (h.state q), fun q hq => ?_, fun q hq => ?_, fun q hq m => ?_⟩
    · by_cases last : q = n
      · subst last
        have mask := h.bits q le_rfl
        have port := h.ports q le_rfl
        refine ⟨framed.replays, fun up fell m hm => ?_, fun up rejoin m hm => ?_⟩
        · rw [← mask]
          exact framed.leaves (by rw [h.state]; exact up) (by rw [port]; exact fell) m hm
        · rw [← mask, ← port]
          exact framed.joins (by rw [h.state]; exact up) (by rw [port]; exact rejoin) m hm
      · exact (h.done q (by omega)).keep aside last
    · rw [aside.others q (by omega), h.ports q (by omega)]
    · rw [aside.bits q (by omega), h.bits q (by omega)]

theorem fabFrameBoundary_does : Does .fabFrameBoundary s fun t => t.mem = s.mem ∧ ∀ p < 36, PortFramed p s t := by
  have h := s.frames_below 36 le_rfl
  exact ⟨_, rfl, h.mem, h.done⟩

end
end Sys2Proof.Machine
end

section
/-! PROOFS. Slots, flits and replays of a port (R33 to R35, R52), for O49. -/
namespace Sys2Proof.Machine

open Sys2Proof.Spec

section
variable (s : State) (p : Port)

theorem exec_fabSlot : exec (.fabSlot p) s = .next (s.slotServe p.val) := rfl

theorem fabSlot_untimed (h : s.tickBase = none) : exec (.fabSlot p) s = .next s := by
  rw [exec_fabSlot, State.slotServe, if_pos (by simp [h])]

/-! A port that is not up -/

theorem fabSlot_down (down : s.getF FAB_PORT_STAT.STATE p.val ≠ 2) : exec (.fabSlot p) s = .next s := by
  rw [exec_fabSlot, State.slotServe, if_pos (by simp [down])]

theorem laneLockLoss_down (down : s.getF FAB_PORT_STAT.STATE p.val ≠ 2) : exec (.laneLockLoss p) s = .next s := by
  show Host.Outcome.next (if _ then _ else _) = _
  rw [if_neg down]

theorem replayRequest_down (down : s.getF FAB_PORT_STAT.STATE p.val ≠ 2) (n : Nat) : exec (.replayRequest p n) s = .next s := by
  show Host.Outcome.next (s.replay p.val n) = _
  rw [State.replay, if_pos (by simp [down])]

theorem flitReceive_down (down : s.getF FAB_PORT_STAT.STATE p.val ≠ 2) (ok : Bool) (fl : Flit) :
    exec (.flitReceive p ok fl) s = .next s := by
  show execFlitReceive p ok fl s = _
  rw [execFlitReceive, if_pos down]

/-! A slot that sends one flit -/

/-- The sequence number that a flit leaves with. -/
def PortSt.seqOf (o : PortSt) (f : OutFlit) : Nat := if f.fl.seq = 0 then o.seqTx + 1 else f.fl.seq

/-- A port's queues with what a slot takes gone. -/
def PortSt.taken (o : PortSt) (take : List (List Nat)) : PortSt :=
  { o with
    q := ((List.range o.q.length).filter fun i => !take.flatten.contains i).map fun i => o.q.getD i {}
    control := o.control.drop 1 }

/-- A slot that sends leaves its port's queues without the flits that it took. -/
structure SlotSent (p : Nat) (f : OutFlit) (s t : State) : Prop where
  out : t.out = s.out ++ [.flit p { f.fl with seq := (s.ports.look p).seqOf f }]
  control : (t.ports.look p).control = []
  queue : (t.ports.look p).q = []

/-- The state of a slot with its flits taken off. -/
def State.slotTaken (s : State) (p : Nat) (take : List (List Nat)) : State :=
  { s with ports := s.ports.put p ((s.ports.look p).taken take) }

theorem State.slotTaken_look (p : Nat) (take : List (List Nat)) :
    (s.slotTaken p take).ports.look p = (s.ports.look p).taken take := SMap.look_put_same _ _ _

/-- A port that has sent a flit. -/
def PortSt.flew (o : PortSt) (f : OutFlit) : PortSt :=
  let g : OutFlit := { f with fl := { f.fl with seq := o.seqOf f } }
  let sent := (o.sent.filter fun g => g.fl.seq ≠ o.seqOf f) ++ [g]
  { o with seqTx := max o.seqTx (o.seqOf f), sent := sent.drop (sent.length - 64), lastPart := if 2 ≤ f.cls then f.part else o.lastPart }

theorem State.sendFlit_look (p : Nat) (f : OutFlit) : (s.sendFlit p f).ports.look p = (s.ports.look p).flew f := by
  have put : (s.sendFlit p f).ports = s.ports.put p ((s.ports.look p).flew f) := rfl
  rw [put, SMap.look_put_same]

theorem State.sendFlit_out (p : Nat) (f : OutFlit) :
    (s.sendFlit p f).out = s.out ++ [.flit p { f.fl with seq := (s.ports.look p).seqOf f }] := rfl

/-- A slot of a port that is up and takes one flit sends it. -/
theorem State.slotServe_sends (p : Nat) (f : OutFlit) (up : s.getF FAB_PORT_STAT.STATE p = 2) (timed : s.tickBase ≠ none)
    (die : (s.die (p / 9)).stopped = false) (take : List (List Nat))
    (takes : slotFlits (s.ports.look p) (s.tick % 8000 / 32) = take)
    (one : (take.map fun g => packed (s.ports.look p).q g) ++ (s.ports.look p).control.take 1 = [f])
    (left : (s.ports.look p).taken take = { (s.ports.look p) with q := [], control := [] }) : SlotSent p f s (s.slotServe p) := by
  have goes : (s.getF FAB_PORT_STAT.STATE p ≠ 2 || (s.die (p / 9)).stopped || s.tickBase.isNone) = false := by
    simp [up, die, Option.isSome_iff_ne_none.2 timed]
  have look := (s.slotTaken p take).sendFlit_look p f
  rw [s.slotTaken_look, left] at look
  have sent : s.slotServe p = (s.slotTaken p take).sendFlit p f := by
    have queue : (((s.slotTaken p take).sendFlit p f).ports.look p).q = [] := by rw [look]; rfl
    have control : (((s.slotTaken p take).sendFlit p f).ports.look p).control = [] := by rw [look]; rfl
    have folded : ([f].foldl (fun s f => State.sendFlit s p f) (s.slotTaken p take)) = (s.slotTaken p take).sendFlit p f := rfl
    unfold State.slotServe
    simp only [goes, Bool.false_eq_true, if_false, takes, one]
    show (if ((([f].foldl (fun s f => State.sendFlit s p f) (s.slotTaken p take)).ports.look p).q.isEmpty && _) = true then
      [f].foldl (fun s f => State.sendFlit s p f) (s.slotTaken p take) else _) = _
    rw [if_pos]
    · exact folded
    · show ((((s.slotTaken p take).sendFlit p f).ports.look p).q.isEmpty &&
        (((s.slotTaken p take).sendFlit p f).ports.look p).control.isEmpty) = true
      rw [queue, control]
      rfl
  rw [sent]
  refine ⟨?_, by rw [look]; rfl, by rw [look]; rfl⟩
  rw [State.sendFlit_out, s.slotTaken_look, left]
  rfl

/-! What a slot takes of a queue of one (R35) -/

theorem ready_nil (f : OutFlit → Bool) : ready [] f = [] := rfl

theorem roundRobin_nil (cls n last : Nat) : roundRobin [] cls n last [] = [] := by
  cases n <;> rfl

theorem slotFlits_nil (o : PortSt) (n : Nat) (h : o.q = []) : slotFlits o n = [] := by
  unfold slotFlits
  simp only [h, ready_nil, roundRobin_nil, ite_self, List.isEmpty_nil, Bool.not_true, Bool.false_eq_true, List.append_nil]
  rfl

theorem ready_one (f : OutFlit) (test : OutFlit → Bool) : ready [f] test = if test f then [0] else [] := by
  have free : f.behind [] = false := by unfold OutFlit.behind; simp
  unfold ready
  rw [List.length_singleton, List.range_one, List.filter_singleton]
  simp [free]

theorem roundRobin_one (f : OutFlit) (cls n last : Nat) (h : f.cls = cls) : roundRobin [f] cls (n + 2) last [] = [0] := by
  unfold roundRobin
  simp only [ready_one, h, decide_true, if_true]
  show roundRobin [f] cls (n + 1) _ [0] = [0]
  unfold roundRobin
  simp only [ready_one, h, decide_true, if_true]
  rfl

theorem roundRobin_none (f : OutFlit) (cls n last : Nat) (h : f.cls ≠ cls) : roundRobin [f] cls n last [] = [] := by
  cases n with
  | zero => rfl
  | succ n =>
    unfold roundRobin
    simp only [ready_one, h, decide_false, Bool.false_eq_true, if_false]
    rfl

/-- A flit of the system class that waits alone goes in any slot. -/
theorem slotFlits_one (o : PortSt) (n : Nat) (f : OutFlit) (h : o.q = [f]) (system : f.cls = 3) : slotFlits o n = [[0]] := by
  have alone : roundRobin [f] 3 21 o.lastPart [] = [0] := roundRobin_one f 3 19 o.lastPart system
  have none : ∀ cls, cls ≠ 3 → roundRobin [f] cls 21 o.lastPart [] = [] := fun cls e =>
    roundRobin_none f cls 21 o.lastPart (by omega)
  unfold slotFlits
  simp only [h]
  by_cases fast : (slotClass o.slotMap n).1 ≤ 1
  · have other : f.cls ≠ (slotClass o.slotMap n).1 := by omega
    simp only [if_pos fast, ready_one, other, decide_false, Bool.false_and, Bool.false_eq_true, if_false, alone, none 2 (by decide)]
    rfl
  · rw [if_neg fast]
    by_cases own : (slotClass o.slotMap n).1 = 3
    · rw [own, alone]
      rfl
    · rw [none _ own, alone, none 2 (by decide)]
      rfl

theorem fabSlot_control (f : OutFlit) (up : s.getF FAB_PORT_STAT.STATE p.val = 2) (timed : s.tickBase ≠ none)
    (die : (s.die (p.val / 9)).stopped = false) (queue : (s.ports.look p.val).q = []) (control : (s.ports.look p.val).control = [f]) :
    Does (.fabSlot p) s (SlotSent p.val f s) := by
  refine ⟨s.slotServe p.val, exec_fabSlot s p, s.slotServe_sends p.val f up timed die [] (slotFlits_nil _ _ queue) ?_ ?_⟩
  · rw [control]
    rfl
  · rw [PortSt.taken, queue, control]
    rfl

theorem fabSlot_data (f : OutFlit) (up : s.getF FAB_PORT_STAT.STATE p.val = 2) (timed : s.tickBase ≠ none)
    (die : (s.die (p.val / 9)).stopped = false) (queue : (s.ports.look p.val).q = [f]) (system : f.cls = 3)
    (control : (s.ports.look p.val).control = []) : Does (.fabSlot p) s (SlotSent p.val f s) := by
  refine ⟨s.slotServe p.val, exec_fabSlot s p, s.slotServe_sends p.val f up timed die [[0]] (slotFlits_one _ _ f queue system) ?_ ?_⟩
  · rw [control, queue]
    rfl
  · rw [PortSt.taken, queue, control]
    rfl

/-! Flits that arrive (R33, R52) -/

/-- A flit that a module sends. -/
def State.newFlit (s : State) (target cls part : Nat) (m : FlitMsg) (who : Nat) : OutFlit :=
  { cls := cls, part := part, who := who,
    fl := { seq := 0, cls := cls, part := part, msg := m, source := s.getF FAB_DOM_CFG.MODID 0, target := target } }

/-- A port where a flit waits. -/
def PortSt.queued (o : PortSt) (f : OutFlit) (control : Bool) : PortSt :=
  if control then { o with control := o.control ++ [f] } else { o with q := o.q ++ [f] }

theorem State.enqueue_ports (q target cls part : Nat) (m : FlitMsg) (control : Bool) (who : Nat) :
    (s.enqueue q target cls part m control who).ports =
      (s.updPort q fun o => o.queued (s.newFlit target cls part m who) control).ports := by
  generalize hu : (s.updPort q fun o => o.queued (s.newFlit target cls part m who) control) = u
  have eq : s.enqueue q target cls part m control who = if u.due (.fabSlot (Fin.ofNat 36 q)) || u.tickBase.isNone then u
      else u.sched (u.now + (32 - u.tick % 32)) phHost (.fabSlot (Fin.ofNat 36 q)) := by
    rw [← hu]
    rfl
  rw [eq]
  split <;> rfl

theorem State.enqueue_look (q target cls part : Nat) (m : FlitMsg) (control : Bool) (who : Nat) :
    (s.enqueue q target cls part m control who).ports.look q =
      (s.ports.look q).queued (s.newFlit target cls part m who) control := by
  rw [State.enqueue_ports, State.updPort_same]

/-- A port with the last control flit first. -/
def PortSt.turned (o : PortSt) : PortSt :=
  { o with control := o.control.drop (o.control.length - 1) ++ o.control.take (o.control.length - 1) }

theorem State.askReplay_eq (q n : Nat) :
    s.askReplay q n = (s.enqueue q 0 0 0 (.replay n) true).updPort q PortSt.turned := rfl

theorem State.askReplay_look (q n : Nat) : (s.askReplay q n).ports.look q =
    { s.ports.look q with control := s.newFlit 0 0 0 (.replay n) 0 :: (s.ports.look q).control } := by
  rw [s.askReplay_eq, State.updPort_same, s.enqueue_look]
  simp [PortSt.turned, PortSt.queued]

section
variable (fl : Flit) (up : s.getF FAB_PORT_STAT.STATE p.val = 2)
include up

/-- A port that asks for a flit again. -/
def PortSt.asking (o : PortSt) (n : Nat) : PortSt := { o with want := some n }

theorem flitReceive_lost : Does (.flitReceive p false fl) s fun t =>
    (t.ports.look p.val).want = some ((s.ports.look p.val).want.getD fl.seq) ∧
    ∃ g, (t.ports.look p.val).control.head? = some g ∧ g.fl.msg = .replay ((s.ports.look p.val).want.getD fl.seq) := by
  generalize hn : (s.ports.look p.val).want.getD fl.seq = n
  have asks : exec (.flitReceive p false fl) s =
      .next (({ s with ports := s.ports.put p.val ((s.ports.look p.val).asking n) } : State).askReplay p.val n) := by
    show execFlitReceive p false fl s = _
    unfold execFlitReceive
    rw [if_neg (not_not.2 up), ← hn]
    rfl
  generalize hu : ({ s with ports := s.ports.put p.val ((s.ports.look p.val).asking n) } : State) = u at asks
  have look : u.ports.look p.val = (s.ports.look p.val).asking n := by rw [← hu]; exact SMap.look_put_same _ _ _
  have last := u.askReplay_look p.val n
  rw [look] at last
  exact ⟨_, asks, by rw [last]; rfl, u.newFlit 0 0 0 (.replay n) 0, by rw [last]; rfl, rfl⟩

theorem flitReceive_passed (h : (s.ports.look p.val).takes fl = false) : exec (.flitReceive p true fl) s = .next s := by
  show execFlitReceive p true fl s = _
  unfold execFlitReceive
  simp only [up, h]
  rfl

theorem flitReceive_behind (n : Nat) (want : (s.ports.look p.val).want = some n) (other : fl.seq ≠ n) (first : fl.again = false) :
    exec (.flitReceive p true fl) s = .next s :=
  flitReceive_passed s p fl up (by simp [PortSt.takes, want, other, first])

theorem flitReceive_seen (seen : fl.seq ∈ (s.ports.look p.val).got) : exec (.flitReceive p true fl) s = .next s :=
  flitReceive_passed s p fl up (by simp [PortSt.takes, seen])

end

/-- A part of a data flit takes its way. -/
def State.itemGo (s : State) (x : FlitItem) : State :=
  match x with
  | .access a => s.sched s.now phMem (.fabAccessArrive a)
  | .response id st b => s.sched s.now phMem (.fabResponse id st b)

theorem State.itemGo_traffic (x : FlitItem) : Traffic s (s.itemGo x) := by
  cases x <;> exact s.sched_traffic _ _ _ _ _

theorem State.flitGo_data (l : List FlitItem) : s.flitGo p.val (.data l) = l.foldl State.itemGo s := by
  unfold State.flitGo
  refine congrFun (congrArg (fun f => List.foldl f s) ?_) l
  funext t x
  cases x <;> rfl

/-- The accesses of a data flit arrive at once. -/
theorem State.itemsGo_due (l : List FlitItem) (a : RemoteAccess) (h : .access a ∈ l) :
    DueAt (l.foldl State.itemGo s) (.fabAccessArrive a) s.now := by
  induction l generalizing s with
  | nil => nomatch h
  | cons x l ih =>
    rcases List.mem_cons.1 h with rfl | h
    · have due : DueAt (s.itemGo (.access a)) (.fabAccessArrive a) s.now := State.dueAt_sched _ _ _ _
      exact (Traffic.fold l (s.itemGo (.access a)) fun t y _ => t.itemGo_traffic y).dueAt due
    · rw [List.foldl_cons, ← (s.itemGo_traffic x).now]
      exact ih (s.itemGo x) h

theorem flitReceive_data (fl : Flit) (l : List FlitItem) (up : s.getF FAB_PORT_STAT.STATE p.val = 2)
    (takes : (s.ports.look p.val).takes fl = true) (data : fl.msg = .data l) : Does (.flitReceive p true fl) s fun t =>
      ∀ a, .access a ∈ l → DueAt t (.fabAccessArrive a) s.now := by
  have goes : exec (.flitReceive p true fl) s = .next ((s.updPort p.val fun o => { o with
      want := if o.want = some fl.seq then none else o.want, got := (fl.seq :: o.got).take 128 }).flitGo p.val fl.msg) := by
    show execFlitReceive p true fl s = _
    unfold execFlitReceive
    simp only [up, takes]
    rfl
  refine ⟨_, goes, fun a h => ?_⟩
  rw [data, State.flitGo_data]
  exact State.itemsGo_due _ l a h

/-! Replays (R52) -/

/-- The flits that go again from a number on. -/
def PortSt.again (o : PortSt) (n : Nat) : List OutFlit :=
  (o.sent.filter fun g => decide (n ≤ g.fl.seq)).map fun g => { g with fl := { g.fl with again := true } }

/-- A port that sends flits again. -/
def PortSt.replaying (o : PortSt) (n : Nat) : PortSt :=
  { o with
    q := ((o.again n).filter fun (g : OutFlit) => !inControl g.fl.msg) ++
      o.q.filter fun (g : OutFlit) => !((o.again n).any fun h => h.fl.seq = g.fl.seq)
    control := ((o.again n).filter fun (g : OutFlit) => inControl g.fl.msg) ++
      o.control.filter fun (g : OutFlit) => !((o.again n).any fun h => h.fl.seq = g.fl.seq)
    replays := o.replays + 1 }

/-- A replay of a port counted. -/
def State.replayed (s : State) (p n : Nat) : State :=
  (({ s with ports := s.ports.put p ((s.ports.look p).replaying n) } : State).bump FAB_PORT_STAT.REPLAYS p 1).atFrame

theorem State.atFrame_ports : s.atFrame.ports = s.ports := by
  unfold State.atFrame
  split <;> rfl

theorem State.wakePort_ports (q : Nat) : (s.wakePort q).ports = s.ports := by
  unfold State.wakePort
  simp only
  split <;> rfl

theorem State.replay_eq (q n : Nat) (g : OutFlit) (up : s.getF FAB_PORT_STAT.STATE q = 2) (sent : g ∈ (s.ports.look q).sent)
    (seq : g.fl.seq = n) : s.replay q n =
      if 16 < (s.ports.look q).replays + 1 then (s.replayed q n).portDown q 2 else (s.replayed q n).wakePort q := by
  have known : ((s.ports.look q).sent.any fun g => g.fl.seq = n) = true := List.any_eq_true.2 ⟨g, sent, by simp [seq]⟩
  unfold State.replay
  simp only [up, known]
  rfl

theorem State.replayed_look (q n : Nat) : (s.replayed q n).ports.look q = (s.ports.look q).replaying n := by
  unfold State.replayed
  rw [State.atFrame_ports]
  exact SMap.look_put_same _ _ _

/-- A flit sent from the number on goes again, in its queue or a control position. -/
theorem PortSt.replaying_again (o : PortSt) (n : Nat) (h : OutFlit) (sent : h ∈ o.sent) (from_ : n ≤ h.fl.seq) :
    ({ h with fl := { h.fl with again := true } } : OutFlit) ∈ (o.replaying n).q ∨
      ({ h with fl := { h.fl with again := true } } : OutFlit) ∈ (o.replaying n).control := by
  have again : ({ h with fl := { h.fl with again := true } } : OutFlit) ∈ o.again n :=
    List.mem_map.2 ⟨h, List.mem_filter.2 ⟨sent, decide_eq_true from_⟩, rfl⟩
  by_cases control : inControl h.fl.msg = true
  · exact .inr (List.mem_append_left _ (List.mem_filter.2 ⟨again, control⟩))
  · exact .inl (List.mem_append_left _ (List.mem_filter.2 ⟨again, by simp [control]⟩))

section
variable (n : Nat) (g : OutFlit) (up : s.getF FAB_PORT_STAT.STATE p.val = 2) (sent : g ∈ (s.ports.look p.val).sent)
  (seq : g.fl.seq = n)
include up sent seq

theorem replayRequest_resends (few : (s.ports.look p.val).replays < 16) : Does (.replayRequest p n) s fun t =>
    (t.ports.look p.val).replays = (s.ports.look p.val).replays + 1 ∧ ∀ h ∈ (s.ports.look p.val).sent, n ≤ h.fl.seq →
      ({ h with fl := { h.fl with again := true } } : OutFlit) ∈ (t.ports.look p.val).q ∨
        ({ h with fl := { h.fl with again := true } } : OutFlit) ∈ (t.ports.look p.val).control := by
  refine ⟨s.replay p.val n, rfl, ?_⟩
  have look : (s.replay p.val n).ports.look p.val = (s.ports.look p.val).replaying n := by
    rw [s.replay_eq p.val n g up sent seq, if_neg (by omega), State.wakePort_ports, State.replayed_look]
  simp only [look]
  exact ⟨rfl, fun h hs hn => PortSt.replaying_again _ n h hs hn⟩

end

/-! A port that goes down (R53) -/

/-- A port that has gone down. -/
def PortSt.fallen (o : PortSt) : PortSt := { o with fell := true, rejoin := false }

/-- The registers of a port that goes down. -/
def State.downRegs (s : State) (q reason : Nat) : State :=
  if reason = 0 then s.setF FAB_PORT_STAT.STATE q 1 else (s.setF FAB_PORT_STAT.STATE q 1).setF FAB_PORT_STAT.REASON q reason

theorem State.portDown_eq (q reason : Nat) :
    s.portDown q reason = (((s.downRegs q reason).updPort q PortSt.fallen).trainEnd q).atFrame := rfl

theorem State.trainEnd_ports (q : Nat) : (s.trainEnd q).ports = s.ports := by
  unfold State.trainEnd
  simp only
  split <;> rfl

/-- A port that goes down for a reason shows both. -/
theorem State.portDown_shows (q reason : Nat) (some : reason ≠ 0) (fits : reason < 16) :
    (s.portDown q reason).getF FAB_PORT_STAT.STATE q = 1 ∧ (s.portDown q reason).getF FAB_PORT_STAT.REASON q = reason := by
  have csr : (s.portDown q reason).csr = ((s.setF FAB_PORT_STAT.STATE q 1).setF FAB_PORT_STAT.REASON q reason).csr := by
    rw [s.portDown_eq, State.atFrame_csr, State.trainEnd_csr, State.downRegs, if_neg some]
    rfl
  rw [State.getF_congr csr, State.getF_congr csr]
  constructor
  · rw [State.getF_setF_field _ FAB_PORT_STAT.REASON FAB_PORT_STAT.STATE _ _ (by decide) rfl (by decide)]
    exact s.getF_setF_fit FAB_PORT_STAT.STATE q 1 (by decide) (by decide)
  · exact State.getF_setF_fit _ FAB_PORT_STAT.REASON q reason (by decide) fits

theorem State.portDown_fell (q reason : Nat) : ((s.portDown q reason).ports.look q).fell = true := by
  rw [s.portDown_eq, State.atFrame_ports, State.trainEnd_ports, State.updPort_same]
  rfl

/-- A port that goes down has its training end, unless that is due already. -/
theorem State.portDown_due (q : Port) (reason : Nat) (free : s.due (.retrainComplete q none) = false) :
    DueAt (s.portDown q.val reason) (.retrainComplete q none) (s.now + 200000) := by
  have same : Fin.ofNat 36 q.val = q := Fin.ofNat_val_eq_self q
  generalize hu : (s.downRegs q.val reason).updPort q.val PortSt.fallen = u
  have now : u.now = s.now := by
    rw [← hu]
    unfold State.downRegs
    split <;> rfl
  have due : u.due (.retrainComplete q none) = false := by
    rw [← free, ← hu]
    unfold State.downRegs
    split <;> rfl
  have trains : DueAt (u.trainEnd q.val) (.retrainComplete q none) (s.now + 200000) := by
    unfold State.trainEnd
    simp only
    rw [same, due, ← now]
    exact State.dueAt_sched _ _ _ _
  rw [s.portDown_eq, hu]
  unfold State.atFrame
  split
  · exact trains
  · exact (State.sched_traffic _ _ _ _ _ _).dueAt trains

theorem replayRequest_tooMany (n : Nat) (g : OutFlit) (up : s.getF FAB_PORT_STAT.STATE p.val = 2)
    (sent : g ∈ (s.ports.look p.val).sent) (seq : g.fl.seq = n) (many : 16 ≤ (s.ports.look p.val).replays) :
    Does (.replayRequest p n) s fun t => t.getF FAB_PORT_STAT.STATE p.val = 1 ∧ t.getF FAB_PORT_STAT.REASON p.val = 2 := by
  refine ⟨s.replay p.val n, rfl, ?_⟩
  rw [s.replay_eq p.val n g up sent seq, if_pos (by omega)]
  exact (s.replayed p.val n).portDown_shows p.val 2 (by decide) (by decide)

theorem laneLockLoss_falls (up : s.getF FAB_PORT_STAT.STATE p.val = 2) : Does (.laneLockLoss p) s fun t =>
    t.getF FAB_PORT_STAT.STATE p.val = 1 ∧ t.getF FAB_PORT_STAT.REASON p.val = 1 ∧ (t.ports.look p.val).fell = true ∧
    (s.due (.retrainComplete p none) = false → DueAt t (.retrainComplete p none) (s.now + 200000)) := by
  obtain ⟨state, reason⟩ := s.portDown_shows p.val 1 (by decide) (by decide)
  exact ⟨s.portDown p.val 1, congrArg Host.Outcome.next (if_pos up), state, reason, s.portDown_fell p.val 1, s.portDown_due p 1⟩

end
end Sys2Proof.Machine
end

section
/-! PROOFS. Training of a port (R36, R53), for O49. -/
namespace Sys2Proof.Machine

open Sys2Proof.Spec

/-- Registers stand, and so do the ports' maps and whether they rejoin. -/
structure MapsKept (s t : State) : Prop where
  csr : t.csr = s.csr
  maps : ∀ q, (t.ports.look q).slotMap = (s.ports.look q).slotMap ∧ (t.ports.look q).rejoin = (s.ports.look q).rejoin

namespace MapsKept

theorem refl (s : State) : MapsKept s s := ⟨rfl, fun _ => ⟨rfl, rfl⟩⟩

theorem trans {s t u : State} (h : MapsKept s t) (k : MapsKept t u) : MapsKept s u :=
  ⟨k.csr.trans h.csr, fun q => ⟨(k.maps q).1.trans (h.maps q).1, (k.maps q).2.trans (h.maps q).2⟩⟩

theorem of_ports {s t : State} (csr : t.csr = s.csr) (ports : t.ports = s.ports) : MapsKept s t :=
  ⟨csr, fun q => by rw [ports]; exact ⟨rfl, rfl⟩⟩

end MapsKept

section
variable (s : State)

theorem State.updPort_mapsKept (p : Nat) (f : PortSt → PortSt) (h : ∀ o, (f o).slotMap = o.slotMap ∧ (f o).rejoin = o.rejoin) :
    MapsKept s (s.updPort p f) := by
  refine ⟨rfl, fun q => ?_⟩
  by_cases same : q = p
  · rw [same, s.updPort_same]
    exact h _
  · rw [s.updPort_ne _ _ _ same]
    exact ⟨rfl, rfl⟩

theorem State.enqueue_mapsKept (q target cls part : Nat) (m : FlitMsg) (control : Bool) (who : Nat) :
    MapsKept s (s.enqueue q target cls part m control who) := by
  refine (s.updPort_mapsKept q (fun o => o.queued (s.newFlit target cls part m who) control) fun o => ?_).trans
    (.of_ports ?_ (s.enqueue_ports q target cls part m control who))
  · cases control <;> exact ⟨rfl, rfl⟩
  · exact (s.enqueue_traffic q target cls part m control who).csr

/-- Another queue at a port leaves maps alone. -/
theorem State.requeue_mapsKept (p : Nat) (l : List OutFlit) :
    MapsKept s { s with ports := s.ports.put p { s.ports.look p with q := l } } := by
  refine ⟨rfl, fun q => ?_⟩
  by_cases same : q = p
  · subst same
    rw [SMap.look_put_same]
    exact ⟨rfl, rfl⟩
  · rw [SMap.look_put_ne _ _ _ _ same]
    exact ⟨rfl, rfl⟩

theorem State.fabric_mapsKept (q : SMap Fabric) : MapsKept s { s with fabric := q } := .of_ports rfl rfl

theorem State.sched_mapsKept (time ph : Nat) (ev : Ev) : MapsKept s (s.sched time ph ev) := .of_ports rfl rfl

/-- Accesses that take another way leave registers and maps alone. -/
theorem State.moveAccesses_mapsKept (p : Nat) : MapsKept s (s.moveAccesses p) := by
  unfold State.moveAccesses
  refine (s.requeue_mapsKept p _).trans (foldl_rel MapsKept.refl MapsKept.trans _ _ fun t e _ => ?_)
  simp only
  split
  · exact (t.fabric_mapsKept _).trans (State.enqueue_mapsKept _ _ _ _ _ _ _ _)
  · exact t.sched_mapsKept _ _ _

/-- The agenda without the end of a port's training. -/
def State.trainOver (s : State) (p : Nat) : State := s.unsched fun d => decide (d.ev = Ev.retrainComplete (Fin.ofNat 36 p) none)

/-- A port that stays down, with its reason. -/
def State.staysDown (s : State) (p r : Nat) : State := ((s.setF FAB_PORT_STAT.STATE p 0).setF FAB_PORT_STAT.REASON p r).atFrame

theorem State.trained_eq (p : Nat) (partner : Bool) (map : List (BitVec 8)) : s.trained p partner map =
    State.moveAccesses (if !partner then (s.trainOver p).staysDown p
        (if s.getF FAB_PORT_STAT.REASON p = 0 then 4 else s.getF FAB_PORT_STAT.REASON p)
      else if sameMap map (s.localMap p) && s.ingressOk p map then (s.trainOver p).portUp p map
      else (s.trainOver p).staysDown p 3) p := rfl

theorem State.staysDown_shows (p r : Nat) (fits : r < 16) :
    (s.staysDown p r).getF FAB_PORT_STAT.STATE p = 0 ∧ (s.staysDown p r).getF FAB_PORT_STAT.REASON p = r := by
  unfold State.staysDown
  rw [State.getF_congr (State.atFrame_csr _), State.getF_congr (State.atFrame_csr _)]
  constructor
  · rw [State.getF_setF_field _ FAB_PORT_STAT.REASON FAB_PORT_STAT.STATE _ _ (by decide) rfl (by decide)]
    exact s.getF_setF_fit FAB_PORT_STAT.STATE p 0 (by decide) (by decide)
  · exact State.getF_setF_fit _ FAB_PORT_STAT.REASON p r (by decide) fits

/-- What a port that comes up shows. -/
structure PortRaised (p : Nat) (m : List (BitVec 8)) (t : State) : Prop where
  state : t.getF FAB_PORT_STAT.STATE p = 2
  reason : t.getF FAB_PORT_STAT.REASON p = 0
  slotMap : (t.ports.look p).slotMap = m
  rejoin : (t.ports.look p).rejoin = true

/-- A port with a map, that joins the masks again. -/
def PortSt.raised (m : List (BitVec 8)) (o : PortSt) : PortSt := { o with slotMap := m, rejoin := true, want := none, got := [] }

theorem State.wakePort_csr (q : Nat) : (s.wakePort q).csr = s.csr := by
  unfold State.wakePort
  simp only
  split <;> rfl

theorem State.portUp_raised (p : Nat) (m : List (BitVec 8)) : PortRaised p m (s.portUp p m) := by
  have eq : s.portUp p m = State.wakePort
      (((s.setF FAB_PORT_STAT.STATE p 2).setF FAB_PORT_STAT.REASON p 0).updPort p (PortSt.raised m)).atFrame p := rfl
  have csr : (s.portUp p m).csr = ((s.setF FAB_PORT_STAT.STATE p 2).setF FAB_PORT_STAT.REASON p 0).csr := by
    rw [eq, State.wakePort_csr, State.atFrame_csr]
    rfl
  have look : (s.portUp p m).ports.look p =
      PortSt.raised m (((s.setF FAB_PORT_STAT.STATE p 2).setF FAB_PORT_STAT.REASON p 0).ports.look p) := by
    rw [eq, State.wakePort_ports, State.atFrame_ports, State.updPort_same]
  refine ⟨?_, ?_, by rw [look]; rfl, by rw [look]; rfl⟩
  · rw [State.getF_congr csr, State.getF_setF_field _ FAB_PORT_STAT.REASON FAB_PORT_STAT.STATE _ _ (by decide) rfl (by decide)]
    exact s.getF_setF_fit FAB_PORT_STAT.STATE p 2 (by decide) (by decide)
  · rw [State.getF_congr csr]
    exact State.getF_setF_fit _ FAB_PORT_STAT.REASON p 0 (by decide) (by decide)

/-! How training ends -/

theorem MapsKept.shows {s t : State} (h : MapsKept s t) {p a b : Nat} (k : s.getF FAB_PORT_STAT.STATE p = a ∧ s.getF FAB_PORT_STAT.REASON p = b) :
    t.getF FAB_PORT_STAT.STATE p = a ∧ t.getF FAB_PORT_STAT.REASON p = b := by
  rw [State.getF_congr h.csr, State.getF_congr h.csr]
  exact k

theorem State.trained_alone (p : Nat) (map : List (BitVec 8)) : (s.trained p false map).getF FAB_PORT_STAT.STATE p = 0 ∧
    (s.trained p false map).getF FAB_PORT_STAT.REASON p =
      if s.getF FAB_PORT_STAT.REASON p = 0 then 4 else s.getF FAB_PORT_STAT.REASON p := by
  have fits : s.getF FAB_PORT_STAT.REASON p < 16 := s.getF_lt FAB_PORT_STAT.REASON p
  rw [s.trained_eq, if_pos (by rfl)]
  exact (State.moveAccesses_mapsKept _ p).shows ((s.trainOver p).staysDown_shows p _ (by split <;> omega))

theorem State.trained_unlike (p : Nat) (map : List (BitVec 8)) (h : sameMap map (s.localMap p) = false) :
    (s.trained p true map).getF FAB_PORT_STAT.STATE p = 0 ∧ (s.trained p true map).getF FAB_PORT_STAT.REASON p = 3 := by
  rw [s.trained_eq, if_neg (by decide), if_neg (by rw [h, Bool.false_and]; decide)]
  exact (State.moveAccesses_mapsKept _ p).shows ((s.trainOver p).staysDown_shows p 3 (by decide))

theorem State.trained_raises (p : Nat) (map : List (BitVec 8)) (same : sameMap map (s.localMap p) = true)
    (ingress : s.ingressOk p map = true) : PortRaised p map (s.trained p true map) := by
  obtain ⟨state, reason, slotMap, rejoin⟩ := (s.trainOver p).portUp_raised p map
  rw [s.trained_eq, if_neg (by decide), if_pos (by rw [same, ingress]; rfl)]
  have kept := ((s.trainOver p).portUp p map).moveAccesses_mapsKept p
  obtain ⟨state, reason⟩ := kept.shows ⟨state, reason⟩
  exact ⟨state, reason, (kept.maps p).1.trans slotMap, (kept.maps p).2.trans rejoin⟩

end

section
variable (s : State) (p : Port)

theorem retrainComplete_idle (h : s.getF FAB_PORT_STAT.STATE p.val ≠ 1) (m : Option (List (BitVec 8))) :
    exec (.retrainComplete p m) s = .next s := congrArg Host.Outcome.next (if_neg h)

theorem exec_retrainComplete (h : s.getF FAB_PORT_STAT.STATE p.val = 1) (m : Option (List (BitVec 8))) :
    exec (.retrainComplete p m) s = .next (s.trained p.val m.isSome (m.getD [])) := congrArg Host.Outcome.next (if_pos h)

theorem retrainComplete_fails (h : s.getF FAB_PORT_STAT.STATE p.val = 1) : Does (.retrainComplete p none) s fun t =>
    t.getF FAB_PORT_STAT.STATE p.val = 0 ∧ t.getF FAB_PORT_STAT.REASON p.val ≠ 0 := by
  obtain ⟨state, reason⟩ := s.trained_alone p.val []
  refine ⟨_, exec_retrainComplete s p h none, state, ?_⟩
  rw [show (none : Option (List (BitVec 8))).isSome = false from rfl, Option.getD_none, reason]
  split
  · decide
  · assumption

theorem linkTrainingDone_idle (h : s.getF FAB_PORT_STAT.STATE p.val = 2 ∨
      (s.getF FAB_PORT_STAT.STATE p.val = 0 ∧ s.getF FAB_PORT_STAT.REASON p.val ≠ 0)) (b : Bool) (m : List (BitVec 8)) :
    exec (.linkTrainingDone p b m) s = .next s := by
  refine congrArg Host.Outcome.next (if_pos ?_)
  rcases h with h | ⟨h, k⟩ <;> simp_all

theorem exec_linkTrainingDone (h : s.getF FAB_PORT_STAT.STATE p.val = 1 ∨
      (s.getF FAB_PORT_STAT.STATE p.val = 0 ∧ s.getF FAB_PORT_STAT.REASON p.val = 0)) (b : Bool) (m : List (BitVec 8)) :
    exec (.linkTrainingDone p b m) s = .next (s.trained p.val b m) := by
  refine congrArg Host.Outcome.next (if_neg ?_)
  rcases h with h | ⟨h, k⟩ <;> simp_all

variable (h : s.getF FAB_PORT_STAT.STATE p.val = 1 ∨
  (s.getF FAB_PORT_STAT.STATE p.val = 0 ∧ s.getF FAB_PORT_STAT.REASON p.val = 0))
include h

theorem linkTrainingDone_alone (m : List (BitVec 8)) (first : s.getF FAB_PORT_STAT.REASON p.val = 0) :
    Does (.linkTrainingDone p false m) s fun t =>
      t.getF FAB_PORT_STAT.STATE p.val = 0 ∧ t.getF FAB_PORT_STAT.REASON p.val = 4 := by
  obtain ⟨state, reason⟩ := s.trained_alone p.val m
  exact ⟨_, exec_linkTrainingDone s p h false m, state, reason.trans (if_pos first)⟩

/-- A training or retraining that ends with the partner's map. -/
theorem exec_trained (m : List (BitVec 8)) (i : Instr)
    (hi : i = .linkTrainingDone p true m ∨ (s.getF FAB_PORT_STAT.STATE p.val = 1 ∧ i = .retrainComplete p (some m))) :
    exec i s = .next (s.trained p.val true m) := by
  rcases hi with rfl | ⟨trains, rfl⟩
  · exact exec_linkTrainingDone s p h true m
  · exact exec_retrainComplete s p trains (some m)

theorem trained_does (m : List (BitVec 8)) (i : Instr)
    (hi : i = .linkTrainingDone p true m ∨ (s.getF FAB_PORT_STAT.STATE p.val = 1 ∧ i = .retrainComplete p (some m))) :
    (sameMap m (s.localMap p.val) = false → Does i s fun t =>
      t.getF FAB_PORT_STAT.STATE p.val = 0 ∧ t.getF FAB_PORT_STAT.REASON p.val = 3) ∧
    (sameMap m (s.localMap p.val) = true → s.ingressOk p.val m = true → Does i s (PortRaised p.val m)) :=
  ⟨fun unlike => ⟨_, exec_trained s p h m i hi, s.trained_unlike p.val m unlike⟩,
    fun same ingress => ⟨_, exec_trained s p h m i hi, s.trained_raises p.val m same ingress⟩⟩

end
end Sys2Proof.Machine
end

section
/-! PROOFS. Accesses at the window check (R41, R42, R46), for O49. -/
namespace Sys2Proof.Machine

open Sys2Proof.Spec

/-- An event stands on the agenda, due after now. -/
def DueLater (s t : State) (e : Ev) : Prop := ∃ x ∈ t.agenda, x.ev = e ∧ s.now < x.time

section
variable (s : State) (a : RemoteAccess)

theorem State.schedSome_later (ph : Nat) (ev : Ev) : DueLater s (s.schedSome ph ev) ev := by
  obtain ⟨x, mem, ev, time⟩ := State.dueAt_sched s (s.now + 1 + Config.freeNat s.free) ph ev
  exact ⟨x, mem, ev, by omega⟩

/-- An access of the module itself is answered inside it, later (R41). -/
theorem State.answer_later (part : Nat) (st : RespStatus) (b : List Byte) (home : a.module = s.getF FAB_DOM_CFG.MODID 0) :
    DueLater s (s.answer a part st b) (.fabResponse a.id st b) := by
  rw [State.answer, if_pos home]
  exact s.schedSome_later phMem _

theorem State.answer_traffic (part : Nat) (st : RespStatus) (b : List Byte) : Traffic s (s.answer a part st b) := by
  unfold State.answer
  simp only
  split
  · exact s.schedSome_traffic _ _
  · split
    · exact .refl s
    · exact s.enqueue_traffic _ _ _ _ _ _ _

/-- An answer after work beside it. -/
theorem Beside.answer {s t : State} (h : Beside s t) (a : RemoteAccess) (part : Nat) (st : RespStatus) (b : List Byte)
    (home : a.module = s.getF FAB_DOM_CFG.MODID 0) : DueLater s (t.answer a part st b) (.fabResponse a.id st b) := by
  have later := t.answer_later a part st b (home.trans (h.getF _ _ (by decide)).symm)
  rw [DueLater, h.now] at later
  exact later

theorem exec_fabAccessArrive : exec (.fabAccessArrive a) s = .next (s.accessArrive a) := rfl

/-! Accesses that the window check refuses -/

variable (home : a.module = s.getF FAB_DOM_CFG.MODID 0)
include home

theorem fabAccessArrive_outside (h : s.window a.offset a.len = none) : Does (.fabAccessArrive a) s fun t =>
    DueLater s t (.fabResponse a.id .windowRefused []) ∧ t.mem = s.mem := by
  refine ⟨s.answer a 0 .windowRefused [], ?_, s.answer_later a _ _ _ home, (s.answer_traffic a _ _ _).mem⟩
  rw [exec_fabAccessArrive, State.accessArrive, h]

theorem fabAccessArrive_mistagged (w : Nat) (h : s.window a.offset a.len = some w) (tag : s.getF FAB_WIN.TAG w ≠ a.tag.toNat) :
    Does (.fabAccessArrive a) s fun t => DueLater s t (.fabResponse a.id .windowRefused []) ∧ t.mem = s.mem := by
  refine ⟨s.answer a (s.getF FAB_WIN.PRT w) .windowRefused [], ?_, s.answer_later a _ _ _ home, (s.answer_traffic a _ _ _).mem⟩
  rw [exec_fabAccessArrive, State.accessArrive, h]
  simp only
  rw [if_pos (by simp [tag])]

/-! Accesses that perform -/

omit home

/-- What an access that passes does, for the partition of its window. -/
def State.accessPerform (s : State) (a : RemoteAccess) (part : Nat) : State :=
  if 2 ^ 39 ≤ a.offset then (s.hostPerform a part).2.answer a part .done (s.hostPerform a part).1
  else
    match a.kind with
    | .read => (s.sideTouch part a.offset a.len).answer a part .done (s.sideBytes part a.offset a.len)
    | .write =>
      { s.remoteStore a part a.bytes a.mask with fabIn := (s.remoteStore a part a.bytes a.mask).fabIn ++ [(a, [])] }.hbm
        (stackOf a.offset) a.cls part (1024 + part) a.bytes.length (some (.fabAccessArrive a))
    | .atomic op w v => s.joinGroup a part op w v

section
variable (w : Nat) (h : s.window a.offset a.len = some w) (tag : s.getF FAB_WIN.TAG w = a.tag.toNat)
  (there : backed a.offset = true)
include h tag there

theorem State.accessArrive_passes (fresh : ∀ e ∈ s.fabIn, e.1 ≠ a) :
    s.accessArrive a = s.accessPerform a (s.getF FAB_WIN.PRT w) := by
  have none : (s.fabIn.find? fun e => e.1 = a) = Option.none := List.find?_eq_none.2 fun e he => by simp [fresh e he]
  unfold State.accessArrive
  rw [h]
  simp only
  rw [if_neg (by simp [tag, there]), none]
  rfl

theorem State.accessArrive_served (b : List Byte) (held : s.fabIn = [(a, b)]) :
    s.accessArrive a = ({ s with fabIn := [] } : State).answer a (s.getF FAB_WIN.PRT w) .done b := by
  have found : (s.fabIn.find? fun e => e.1 = a) = some (a, b) := by rw [held]; simp
  have gone : s.fabIn.erase (a, b) = [] := by rw [held]; simp
  unfold State.accessArrive
  rw [h]
  simp only
  rw [if_neg (by simp [tag, there]), found]
  simp only
  rw [gone]

include home in
theorem fabAccessArrive_served (b : List Byte) (held : s.fabIn = [(a, b)]) : Does (.fabAccessArrive a) s fun t =>
    t.fabIn = [] ∧ t.mem = s.mem ∧ DueLater s t (.fabResponse a.id .done b) := by
  have traffic := ({ s with fabIn := [] } : State).answer_traffic a (s.getF FAB_WIN.PRT w) .done b
  refine ⟨_, (exec_fabAccessArrive s a).trans (congrArg _ (s.accessArrive_served a w h tag there b held)), traffic.fabIn, traffic.mem, ?_⟩
  exact State.answer_later ({ s with fabIn := [] } : State) a _ _ _ home

variable (fresh : ∀ e ∈ s.fabIn, e.1 ≠ a)
include fresh

theorem does_accessPerform {P : State → Prop} (hP : P (s.accessPerform a (s.getF FAB_WIN.PRT w))) : Does (.fabAccessArrive a) s P :=
  ⟨_, (exec_fabAccessArrive s a).trans (congrArg _ (s.accessArrive_passes a w h tag there fresh)), hP⟩

omit h tag there fresh in
theorem State.sideTouch_mem (part pa n : Nat) : (s.sideTouch part pa n).mem = s.mem := by
  unfold State.sideTouch
  split
  · rfl
  · refine foldl_keeps (P := fun t : State => t.mem = s.mem) _ (fun t l _ h => ?_) s rfl
    simp only
    split
    · split
      · exact h
      · exact h
    · exact h

include home in
theorem fabAccessArrive_reads (kind : a.kind = .read) : Does (.fabAccessArrive a) s fun t => t.mem = s.mem ∧
    DueLater s t (.fabResponse a.id .done (s.sideBytes (s.getF FAB_WIN.PRT w) a.offset a.len)) := by
  refine does_accessPerform s a w h tag there fresh ?_
  unfold State.accessPerform State.hostPerform
  rw [kind]
  simp only
  split
  · exact ⟨(s.answer_traffic a _ _ _).mem, s.answer_later a _ _ _ home⟩
  · exact ⟨(State.answer_traffic _ a _ _ _).mem.trans (s.sideTouch_mem _ _ _), (s.sideTouch_beside _ _ _).answer a _ _ _ home⟩

theorem fabAccessArrive_writes (kind : a.kind = .write) (near : a.offset < 2 ^ 39) : Does (.fabAccessArrive a) s fun t =>
    (a, []) ∈ t.fabIn ∧ t.mem = (s.remoteStore a (s.getF FAB_WIN.PRT w) a.bytes a.mask).mem := by
  refine does_accessPerform s a w h tag there fresh ?_
  unfold State.accessPerform
  rw [if_neg (not_le.2 near), kind]
  simp only
  generalize s.remoteStore a (s.getF FAB_WIN.PRT w) a.bytes a.mask = t
  have traffic := ({ t with fabIn := t.fabIn ++ [(a, [])] } : State).hbm_traffic (stackOf a.offset) a.cls (s.getF FAB_WIN.PRT w)
    (1024 + s.getF FAB_WIN.PRT w) a.bytes.length (some (.fabAccessArrive a)) 0
  exact ⟨by rw [traffic.fabIn]; simp, traffic.mem⟩

include home in
theorem fabAccessArrive_hostAtomic (op : BitVec 4) (wide : Bool) (v : Word) (kind : a.kind = .atomic op wide v)
    (host : 2 ^ 39 ≤ a.offset) : Does (.fabAccessArrive a) s fun t => DueLater s t (.fabResponse a.id .done
      (natLe (if wide then 8 else 4) (leNat (s.sideBytes (s.getF FAB_WIN.PRT w) a.offset (if wide then 8 else 4))))) := by
  refine does_accessPerform s a w h tag there fresh ?_
  unfold State.accessPerform State.hostPerform
  rw [if_pos host, kind]
  exact (State.sideStore_beside _ _ _ _ _ _ _).answer a _ _ _ home

omit h tag there fresh in
/-- An atomic of elsewhere joins its group, which is due (R164). -/
theorem State.joinGroup_joins (part : Nat) (op : BitVec 4) (wide : Bool) (v : Word) :
    (s.joinGroup a part op wide v).mem = s.mem ∧
    (∃ x ∈ (s.joinGroup a part op wide v).atoms, x.arrived = some a ∧ x.pa = a.offset ∧ x.interval = a.tick / 256 ∧ x.key = a.key) ∧
    ∃ x ∈ (s.joinGroup a part op wide v).agenda, x.ev = .atomicGroup a.offset (a.tick / 256) := by
  unfold State.joinGroup
  extract_lets iv x t ev
  have joined : ∃ y ∈ t.atoms, y.arrived = some a ∧ y.pa = a.offset ∧ y.interval = a.tick / 256 ∧ y.key = a.key :=
    ⟨x, List.mem_append_right _ (List.mem_singleton_self x), rfl, rfl, rfl, rfl⟩
  by_cases due : t.due ev = true
  · rw [if_pos due]
    obtain ⟨y, mem, hy⟩ := List.any_eq_true.1 due
    exact ⟨rfl, joined, y, mem, of_decide_eq_true hy⟩
  · rw [if_neg due]
    obtain ⟨y, mem, hy, _⟩ := State.dueAt_sched t (max (t.groupTime iv) (t.now + 1)) phMem ev
    exact ⟨rfl, joined, y, mem, hy⟩

theorem fabAccessArrive_atomic (op : BitVec 4) (wide : Bool) (v : Word) (kind : a.kind = .atomic op wide v)
    (near : a.offset < 2 ^ 39) : Does (.fabAccessArrive a) s fun t => t.mem = s.mem ∧
      (∃ x ∈ t.atoms, x.arrived = some a ∧ x.pa = a.offset ∧ x.interval = a.tick / 256 ∧ x.key = a.key) ∧
      ∃ x ∈ t.agenda, x.ev = .atomicGroup a.offset (a.tick / 256) := by
  refine does_accessPerform s a w h tag there fresh ?_
  unfold State.accessPerform
  rw [if_neg (not_le.2 near), kind]
  exact s.joinGroup_joins a _ op wide v

end

end
end Sys2Proof.Machine
end

section
/-! PROOFS. Stores that perform leave tasks alone (R343, R344), for O49. -/
namespace Sys2Proof.Machine

open Sys2Proof.Spec

section
variable (s : State)

theorem State.seq_beside (n : Nat) : Beside s { s with seq := n } := ⟨rfl, fun _ h => h, fun _ _ _ => rfl, fun _ => rfl⟩

theorem State.l1Through_beside (core la : Nat) (d : List Byte) (m : List Bool) : Beside s (s.l1Through core la d m) := by
  unfold State.l1Through
  split
  · exact s.modCore_beside _ _ fun _ => rfl
  · exact .refl s

theorem State.l1Store_beside (core ctx part la : Nat) (d : List Byte) (m : List Bool) :
    Beside s (s.l1Store core ctx part la d m) := s.l1Upd_beside _ _ _ _ _

theorem State.wcbTake_beside (core part la : Nat) : Beside s (s.wcbTake core part la).2 := by
  unfold State.wcbTake
  simp only
  split
  · split
    · exact s.wcbFlush_beside _ _ _
    · exact .refl s
  · split
    · exact .refl s
    · exact s.wcbFlush_beside _ _ _

theorem State.wcbMerge_beside (core ctx task part la : Nat) (d : List Byte) (m : List Bool) :
    Beside s (s.wcbMerge core ctx task part la d m) := by
  unfold State.wcbMerge
  have taken := s.wcbTake_beside core part la
  generalize s.wcbTake core part la = r at taken
  obtain ⟨b, t⟩ := r
  have merged : ∀ f : CoreSt → CoreSt, (∀ k, (f k).spad = k.spad) → Beside s (({ t with seq := t.seq + 1 } : State).modCore core f) :=
    fun f h => (taken.trans (t.seq_beside _)).trans (State.modCore_beside _ core f h)
  refine .ite (merged _ fun _ => rfl) (.ite ?_ ?_)
  · refine Beside.trans ?_ (State.schedSome_traffic _ _ _).beside
    exact merged _ fun _ => rfl
  · refine Beside.trans ?_ (State.hbmTask_beside _ _ _ _ _ _)
    exact merged _ fun _ => rfl

theorem State.wcbBefore_beside (core part la : Nat) (m : List Bool) : Beside s (s.wcbBefore core part la m) :=
  .fold _ s fun t _ _ => .ite (t.wcbFlush_beside _ _ _) (.refl t)

variable {s} in
/-- A store of which one acknowledgement is awaited. -/
theorem Beside.acked {t : State} (h : Beside s t) (core ctx task : Nat) : Beside s
    (match t.pendStore core ctx task 1 with
      | (id, u) => u.schedSome phMem (.storeAcknowledged id)) :=
  (h.trans (t.pendStore_beside core ctx task 1 false)).trans (State.schedSome_traffic _ _ _).beside

/-- A store performs beside the tasks (R343). -/
theorem State.performStore_beside (core ctx task pa mt : Nat) (b : List Byte) (stream : Bool) :
    Beside s (s.performStore core ctx task pa mt b stream) := by
  unfold State.performStore
  extract_lets part die t u v w x
  have captured : Beside s t := s.captureMem_beside _ _ _ _
  have drained : Beside s u := captured.trans (t.byLines_beside _ _ _ fun y la d m => y.wcbBefore_beside _ _ _ _)
  have through : Beside s v := drained.trans (u.byLines_beside _ _ _ fun y la d m =>
    (y.l1Through_beside _ _ _ _).trans (State.mergeRemote_beside _ _ _ _ _ _))
  have stacked := drained.trans (u.byLines_beside pa b _ fun y la d m => y.stackAndCopy_beside part la d m)
  have uncached : Beside s w := stacked.trans (State.hbmTask_beside _ _ _ _ _ _)
  have sided : Beside s x := drained.trans (u.asTask_beside _ _ fun y => y.byLines_beside _ _ _ fun z la d m =>
    ((z.countLack_beside _ _ _).trans (State.sideStore_beside _ _ _ _ _ _ _)).trans (State.l1Through_beside _ _ _ _ _))
  refine .ite ?merged (.ite ?away (.ite stacked (.ite ?stranded (.ite (.ite uncached ?_) (.ite ?own ?_)))))
  case merged =>
    exact captured.trans (t.byLines_beside _ _ _ fun y la d m =>
      (Beside.ite (y.l1Drop_beside _ _ _) (.refl y)).trans (State.wcbMerge_beside _ _ _ _ _ _ _ _))
  case away => exact through.trans (v.sendStore_beside _ _ _ _ _ _)
  case stranded => exact drained.trans (u.strandStore_beside _ _ _ _ _)
  case own => exact drained.trans (u.asTask_beside _ _ fun y => y.byLines_beside _ _ _ fun z la d m => z.l1Store_beside _ _ _ _ _ _)
  · exact uncached.acked core ctx task
  · exact sided.acked core ctx task

theorem State.performRelease_beside (core ctx task pa mt : Nat) (b : List Byte) (scope : Nat) :
    Beside s (s.performRelease core ctx task pa mt b scope) := by
  unfold State.performRelease
  extract_lets part
  refine s.asTask_beside _ _ fun t => ?_
  have stored := (t.releaseActs_beside core ctx part scope).trans (State.performStore_beside _ core ctx task pa mt b false)
  exact .ite (stored.trans (State.releaseActs_beside _ _ _ _ _)) stored

variable {s} in
/-- An atomic goes on its way. -/
theorem Beside.atomSent {t : State} (h : Beside s t) (task core pa n : Nat) (f : Fabric) (cls : Nat) (k : AccessKind) (key : List Nat) :
    Beside s ((t.captureMem task core pa n).sendAccess f cls pa k [] [] n key) :=
  (h.trans (t.captureMem_beside task core pa n)).trans (State.sendAccess_traffic _ f cls pa k [] [] n key).beside

theorem State.performHeld_beside (core ctx task : Nat) (h : HeldStore) : Beside s (s.performHeld core ctx task h) := by
  unfold State.performHeld
  cases h.atom with
  | none => exact .ite (s.performStore_beside _ _ _ _ _ _ _) (s.performRelease_beside _ _ _ _ _ _ _)
  | some a =>
    cases h.load with
    | some l => exact (Beside.refl s).atomSent _ _ _ _ _ _ _ _
    | none => exact (s.pendStore_beside core ctx task 1 false).atomSent _ _ _ _ _ _ _ _

/-! What the order of stores lets go on -/

theorem State.freeStores_tasks (core ctx task n : Nat) : (s.freeStores core ctx task n).tasks = s.tasks := by
  induction n generalizing s with
  | zero => rfl
  | succ n ih =>
    unfold State.freeStores
    simp only
    split
    · split <;> rfl
    · next h rest _ =>
      generalize drain : (if 0 < h.scope then s.releaseDrain core task (h.scope - 1) else s) = t
      have drained : t.tasks = s.tasks := by
        rw [← drain]
        split
        · exact (Beside.ite (s.wcbFlushAll_beside _ _) (.refl s)).tasks
        · rfl
      split
      · exact drained
      · rw [ih, (State.performHeld_beside _ _ _ _ _).tasks]
        exact drained

theorem State.orderFree_tasks (core ctx task : Nat) : (s.orderFree core ctx task).tasks = s.tasks :=
  (State.barRecheck_beside _ _ _).tasks.trans (s.freeStores_tasks _ _ _ _)

end
end Sys2Proof.Machine
end

section
/-! PROOFS. Answers of the fabric (R46, R48), for O49. -/
namespace Sys2Proof.Machine

open Sys2Proof.Spec

/-! Caches leave the fabric's entries and the barriers alone -/

/-- The fabric's entries and the barriers stand. -/
structure Entries (s t : State) : Prop where
  fabric : t.fabric = s.fabric
  barriers : t.barriers = s.barriers

namespace Entries

theorem refl (s : State) : Entries s s := ⟨rfl, rfl⟩

theorem trans {s t u : State} (h : Entries s t) (k : Entries t u) : Entries s u :=
  ⟨k.fabric.trans h.fabric, k.barriers.trans h.barriers⟩

theorem ite {s t u : State} {c : Prop} [Decidable c] (h : Entries s t) (k : Entries s u) : Entries s (if c then t else u) := by
  split
  · exact h
  · exact k

end Entries

section
variable (s : State)

theorem State.modDie_entries (d : Nat) (f : DieSt → DieSt) : Entries s (s.modDie d f) := ⟨rfl, rfl⟩
theorem State.modCore_entries (c : Nat) (f : CoreSt → CoreSt) : Entries s (s.modCore c f) := ⟨rfl, rfl⟩
theorem State.memStoreMasked_entries (off : Nat) (b : List Byte) (m : List Bool) : Entries s (s.memStoreMasked off b m) := ⟨rfl, rfl⟩
theorem State.stackStore_entries (la : Nat) (b : List Byte) (m : List Bool) : Entries s (s.stackStore la b m) := ⟨rfl, rfl⟩
theorem State.bwsQ_entries (q : SMap (List Xfer)) : Entries s { s with bwsQ := q } := ⟨rfl, rfl⟩
theorem State.sched_entries (time ph : Nat) (ev : Ev) : Entries s (s.sched time ph ev) := ⟨rfl, rfl⟩

theorem State.hbmTask_entries (j task bytes : Nat) (ev : Option Ev) (who : Nat) : Entries s (s.hbmTask j task bytes ev who) :=
  .ite (.refl s) (.ite (s.bwsQ_entries _) ((s.bwsQ_entries _).trans (State.sched_entries _ _ _ _)))

theorem State.llcEvict_entries (l : Line) : Entries s (s.llcEvict l) :=
  .ite ((s.stackStore_entries _ _ _).trans (State.hbmTask_entries _ _ _ _ _ _)) (.refl s)

theorem State.llcPut_entries (die part la : Nat) (fill : List Byte) (fillM : List Bool) (data : List Byte) (dirt : List Bool)
    (v : Nat) (touch : Bool) : Entries s (s.llcPut die part la fill fillM data dirt v touch) := by
  unfold State.llcPut
  extract_lets set ways upd
  split
  · exact s.modDie_entries _ _
  · split
    · exact s.stackStore_entries _ _ _
    · exact ((s.modDie_entries _ _).trans (.ite (.refl _) (State.llcEvict_entries _ _))).trans (State.modDie_entries _ _ _)

theorem State.llcFill_entries (die part la rd : Nat) (want : List Bool) (src : List Byte) :
    Entries s (s.llcFill die part la rd want src) := .ite (.refl s) (s.llcPut_entries _ _ _ _ _ _ _ _ _)

theorem State.mergeRemote_entries (die part la : Nat) (d : List Byte) (m : List Bool) : Entries s (s.mergeRemote die part la d m) := by
  unfold State.mergeRemote
  split
  · exact s.modDie_entries _ _
  · exact .refl s

theorem State.sideStore_entries (die part la : Nat) (d : List Byte) (m : List Bool) (v : Nat) :
    Entries s (s.sideStore die part la d m v) :=
  .ite (s.memStoreMasked_entries _ _ _)
    (((Entries.ite (s.hbmTask_entries _ _ _ _ _) (.refl s)).trans (State.llcPut_entries _ _ _ _ _ _ _ _ _ _)).trans
      (.ite (.refl _) (State.mergeRemote_entries _ _ _ _ _ _)))

theorem CountsOnly.entries {s t : State} (h : CountsOnly s t) : Entries s t := by
  obtain ⟨⟨c, e, rfl⟩, _⟩ := h
  exact ⟨rfl, rfl⟩

theorem State.countLack_entries (part la who : Nat) : Entries s (s.countLack part la who) :=
  .ite (.refl s) (s.count_countsOnly _ _ _ _).entries

theorem State.l1WriteBack_entries (core : Nat) (l : Line) (sel : List Bool) : Entries s (s.l1WriteBack core l sel) :=
  .ite ((s.countLack_entries _ _ _).trans (State.sideStore_entries _ _ _ _ _ _ _)) (.refl s)

theorem State.l1Upd_entries (core part la v : Nat) (f : Line → Line) : Entries s (s.l1Upd core part la v f) := by
  unfold State.l1Upd
  extract_lets h set
  split
  · exact s.modCore_entries _ _
  · split
    · exact .refl s
    · extract_lets old t u
      have evicted : Entries t u := .ite (.refl t) (t.l1WriteBack_entries _ _ _)
      exact ((s.modCore_entries _ _).trans evicted).trans (u.modCore_entries _ _)

theorem State.l1FillFrom_entries (core part la rd : Nat) (want : List Bool) (src : List Byte) :
    Entries s (s.l1FillFrom core part la rd want src) := by
  unfold State.l1FillFrom
  extract_lets t data hit
  have filled : Entries s t := s.llcFill_entries (dieOf core) part la rd want src
  exact .ite filled (filled.trans (t.l1Upd_entries _ _ _ _ _))

theorem State.asTask_entries (task : Nat) (f : State → State) (h : ∀ t, Entries t (f t)) : Entries s (s.asTask task f) := by
  obtain ⟨fabric, barriers⟩ := h { s with env := { s.env with task := task } }
  exact ⟨fabric, barriers⟩

end

/-! A sector that comes for a load (R46, R142) -/

/-- The data of an answer change a load's data alone. -/
theorem Load.take_rest (l : Load) (pa : Nat) (b : List Byte) : l.take pa b = { l with data := (l.take pa b).data } := by
  unfold Load.take
  refine foldl_keeps (P := fun x : Load => x = { l with data := x.data }) _ (fun x p _ h => ?_) l rfl
  simp only
  split
  · rw [h]
    rfl
  · exact h

section
variable (s : State)

/-- A load with what an answer brings it. -/
def Load.answered (l : Load) (f : Fabric) (b : List Byte) : Load := if l.atomic then l.fill f.at_ b else l.take f.pa b

theorem Load.answered_rest (l : Load) (f : Fabric) (b : List Byte) : l.answered f b = { l with data := (l.answered f b).data } := by
  unfold Load.answered
  split
  · rfl
  · exact l.take_rest _ _

theorem State.loadSector_kept (f : Fabric) (id : Nat) (b : List Byte) (own : (s.loads.look id).id = id) :
    (s.loadSector f id b).loads = s.loads.put id ((s.loads.look id).answered f b) ∧ (s.loadSector f id b).banks = s.banks ∧
      Entries s (s.loadSector f id b) := by
  unfold State.loadSector
  extract_lets l t la
  rw [if_neg (not_not.2 own)]
  have put : t.loads = s.loads.put id (l.answered f b) := rfl
  split
  · exact ⟨put, rfl, rfl, rfl⟩
  · have work : Beside t (t.asTask l.task fun u => u.l1FillFrom l.core (u.task l.task).part la l.rd (spanMask (f.pa - la) 64)
        (placed (f.pa - la) b)) := t.asTask_beside _ _ fun u => u.l1FillFrom_beside _ _ _ _ _ _
    obtain ⟨fabric, barriers⟩ := t.asTask_entries l.task (fun u => u.l1FillFrom l.core (u.task l.task).part la l.rd
      (spanMask (f.pa - la) 64) (placed (f.pa - la) b)) fun u => u.l1FillFrom_entries _ _ _ _ _ _
    exact ⟨work.loads.trans put, work.banks, fabric, barriers⟩

/-- An answer that is not a load's last leaves it one less to wait for, and with the answer's data. -/
theorem State.loadSector_arrives (f : Fabric) (id : Nat) (b : List Byte) (own : (s.loads.look id).id = id)
    (more : 1 < (s.loads.look id).need) (now : (s.loads.look id).late = false) :
    ((s.loadSector f id b).loadArrive id).loads.look id =
      { (s.loads.look id).answered f b with need := (s.loads.look id).need - 1 } ∧
    ((s.loadSector f id b).loadArrive id).banks = s.banks ∧ Entries s ((s.loadSector f id b).loadArrive id) := by
  obtain ⟨loads, banks, entries⟩ := s.loadSector_kept f id b own
  have look : (s.loadSector f id b).loads.look id = (s.loads.look id).answered f b := by rw [loads, SMap.look_put_same]
  have rest := (s.loads.look id).answered_rest f b
  have eq : (s.loadSector f id b).loadArrive id = (s.loadSector f id b).updLoad id fun l => { l with need := l.need - 1 } := by
    unfold State.loadArrive
    simp only [look]
    rw [rest, if_neg (not_not.2 own), if_neg (by rw [now]; exact Bool.false_ne_true), if_pos more]
    rfl
  rw [eq, State.updLoad_look, look]
  refine ⟨?_, banks, entries.fabric, entries.barriers⟩
  rw [rest]

end

/-! The answer of an access -/

theorem aborted_of_tasks {s t : State} {n : Nat} (h : Aborted s n) (tasks : t.tasks = s.tasks) : Aborted t n := by
  have task : t.task n = s.task n := by rw [State.task, State.task, tasks]
  rw [Aborted, task]
  exact h

section
variable (s : State) (id : Nat)

theorem exec_fabResponse (st : RespStatus) (b : List Byte) : exec (.fabResponse id st b) s = .next (s.fabAnswer id st b) := rfl

theorem fabResponse_gone (h : (s.fabric.look id).id ≠ id) (st : RespStatus) (b : List Byte) :
    exec (.fabResponse id st b) s = .next s := by
  rw [exec_fabResponse, State.fabAnswer, if_pos h]

/-- The fabric without an entry. -/
def State.dropFabric (s : State) (id : Nat) : State := { s with fabric := s.fabric.drop (· = id) }

theorem exec_fabTimeout : exec (.fabTimeout id) s =
    .next (if (s.fabric.look id).id ≠ id then s else (s.dropFabric id).accessLost (s.fabric.look id) 0x32) := rfl

theorem fabTimeout_gone (h : (s.fabric.look id).id ≠ id) : exec (.fabTimeout id) s = .next s := by
  rw [exec_fabTimeout, if_pos h]

/-- The fabric without an entry and its time-out. -/
def State.entryBack (s : State) (id : Nat) : State := (s.dropFabric id).unsched fun d => decide (d.ev = Ev.fabTimeout id)

theorem State.entryBack_gone : (s.entryBack id).fabric.look id = {} := SMap.look_drop_same s.fabric id

/-- What an answered access's context lets go on. -/
def State.entryFrees (s : State) (f : Fabric) : State :=
  match s.fabCtx f with
  | some c => s.orderFree c.1 c.2 f.task
  | none => s

variable (own : (s.fabric.look id).id = id)
include own

theorem State.fabAnswer_done (b : List Byte) : s.fabAnswer id .done b =
    ((s.entryBack id).accessDone (s.fabric.look id) b).entryFrees (s.fabric.look id) := by
  unfold State.fabAnswer
  rw [if_neg (not_not.2 own)]
  rfl

theorem State.fabAnswer_lost (st : RespStatus) (b : List Byte) (cause : Nat)
    (h : (st = .windowRefused ∧ cause = 0x23) ∨ (st = .unreachable ∧ cause = 0x31)) : s.fabAnswer id st b =
      ((s.entryBack id).accessLost (s.fabric.look id) cause).entryFrees (s.fabric.look id) := by
  unfold State.fabAnswer
  rw [if_neg (not_not.2 own)]
  rcases h with ⟨rfl, rfl⟩ | ⟨rfl, rfl⟩ <;> rfl

omit own

/-- An access that a load waits for. -/
structure ForLoad (f : Fabric) (l : Nat) : Prop where
  walk : f.walk = none
  line : f.line = none
  poll : f.poll = none
  cmd : f.cmd = none
  load : f.load = some l

variable {f : Fabric} {l : Nat} (waits : ForLoad f l)
include waits

theorem State.accessDone_load (b : List Byte) : s.accessDone f b = (s.loadSector f l b).loadArrive l := by
  obtain ⟨walk, line, poll, cmd, load⟩ := waits
  unfold State.accessDone
  rw [walk, line, poll, cmd, load]
  rfl

theorem State.accessLost_load (cause : Nat) : s.accessLost f cause =
    ({ s with fabric := s.fabric.filter fun e => e.2.load ≠ some (s.loads.look l).id } : State).loadLost (s.loads.look l) cause := by
  obtain ⟨walk, line, poll, cmd, load⟩ := waits
  unfold State.accessLost
  rw [walk, line, poll, cmd, load]
  rfl

omit waits

theorem State.entryFrees_tasks : (s.entryFrees f).tasks = s.tasks := by
  unfold State.entryFrees
  split
  · exact s.orderFree_tasks _ _ _
  · rfl

/-- Where no store waits and no barrier is under way, loads and entries stand. -/
theorem State.entryFrees_alone (none : ∀ k, (s.bank k).heldStores = []) (bars : s.barriers = []) :
    (s.entryFrees f).loads = s.loads ∧ (s.entryFrees f).fabric = s.fabric := by
  unfold State.entryFrees
  split
  · next c _ =>
    rcases s.orderFree_alone c.1 c.2 f.task (none _) bars with h | h <;> rw [h] <;> exact ⟨rfl, rfl⟩
  · exact ⟨rfl, rfl⟩

end

section
variable (s : State) (id : Nat) {l : Nat} (own : (s.fabric.look id).id = id) (waits : ForLoad (s.fabric.look id) l)
include own waits

theorem fabResponse_done (b : List Byte) (bars : s.barriers = []) (ownLoad : (s.loads.look l).id = l)
    (more : 1 < (s.loads.look l).need) (now : (s.loads.look l).late = false) (none : ∀ k, (s.bank k).heldStores = []) :
    Does (.fabResponse id .done b) s fun t => t.fabric.look id = {} ∧ (t.loads.look l).need = (s.loads.look l).need - 1 ∧
      ((s.loads.look l).atomic = false → (t.loads.look l).data = ((s.loads.look l).take (s.fabric.look id).pa b).data) := by
  obtain ⟨look, banks, fabric, barriers⟩ := (s.entryBack id).loadSector_arrives (s.fabric.look id) l b ownLoad more now
  have held : ∀ k, ((((s.entryBack id).loadSector (s.fabric.look id) l b).loadArrive l).bank k).heldStores = [] := fun k => by
    rw [State.bank, banks]
    exact none k
  obtain ⟨loads, entries⟩ := State.entryFrees_alone (f := s.fabric.look id) _ held (barriers.trans bars)
  refine ⟨s.fabAnswer id .done b, exec_fabResponse s id _ _, ?_⟩
  rw [s.fabAnswer_done id own b, State.accessDone_load _ waits]
  beta_reduce
  rw [loads, entries, fabric, look]
  refine ⟨s.entryBack_gone id, rfl, fun plain => ?_⟩
  show (Load.answered _ _ _).data = _
  rw [Load.answered]
  exact congrArg Load.data (if_neg (by rw [show ((s.entryBack id).loads.look l).atomic = false from plain]; exact Bool.false_ne_true))

omit own

/-- A load whose access is lost aborts its task (R48). -/
theorem State.accessLost_aborts (cause : Nat) (raisable : Raisable s (s.loads.look l).task) (u : State)
    (env : u.env = s.env) (tasks : u.tasks = s.tasks) (loads : u.loads = s.loads) :
    Aborted (u.accessLost (s.fabric.look id) cause) (s.loads.look l).task := by
  rw [u.accessLost_load waits, loads]
  refine State.raiseHere_aborted _ _ _ ?_
  obtain ⟨probe, resident, run⟩ := raisable
  have task : ∀ n, u.task n = s.task n := fun n => by rw [State.task, State.task, tasks]
  refine ⟨?_, ?_, ?_⟩
  · show u.env.probe = false
    rw [env]
    exact probe
  · show (u.task _).resident = true
    rw [task]
    exact resident
  · show (u.task _).run ≠ _
    rw [task]
    exact run

include own

theorem fabResponse_lost (b : List Byte) (raisable : Raisable s (s.loads.look l).task) (st : RespStatus) (cause : Nat)
    (h : (st = .windowRefused ∧ cause = 0x23) ∨ (st = .unreachable ∧ cause = 0x31)) :
    Does (.fabResponse id st b) s fun t => Aborted t (s.loads.look l).task := by
  have aborted := s.accessLost_aborts id waits cause raisable (s.entryBack id) rfl rfl rfl
  refine ⟨s.fabAnswer id st b, exec_fabResponse s id _ _, ?_⟩
  rw [s.fabAnswer_lost id own st b cause h]
  exact aborted_of_tasks aborted (State.entryFrees_tasks _)

theorem fabTimeout_aborts (raisable : Raisable s (s.loads.look l).task) :
    Does (.fabTimeout id) s fun t => Aborted t (s.loads.look l).task := by
  refine ⟨_, (exec_fabTimeout s id).trans (congrArg _ (if_neg (not_not.2 own))), ?_⟩
  exact s.accessLost_aborts id waits 0x32 raisable (s.dropFabric id) rfl rfl rfl

end
end Sys2Proof.Machine
end

section
/-! PROOFS. Barriers and all-reduce across modules (R47, R50), for O49. -/
namespace Sys2Proof.Machine

open Sys2Proof.Spec

/-! Arrivals -/

section
variable (s : State) (bar : Nat)

theorem State.modBarrier_look (k : Nat) (f : Barrier → Barrier) : (s.modBarrier k f).barriers.look k = f (s.barriers.look k) :=
  SMap.look_upd_same _ _ _

/-- A node that looks whether all have arrived keeps its children. -/
theorem State.domCheck_children :
    ((s.domCheck bar).barriers.look (domKey bar)).children = (s.barriers.look (domKey bar)).children := by
  have releasing : ((s.modBarrier (domKey bar) fun b => { b with releasing := true }).barriers.look (domKey bar)).children =
      (s.barriers.look (domKey bar)).children := by rw [s.modBarrier_look]
  have gone : ∀ t, Traffic (s.modBarrier (domKey bar) fun b => { b with releasing := true }) t →
      (t.barriers.look (domKey bar)).children = (s.barriers.look (domKey bar)).children := fun t h => by
    rw [h.barriers]
    exact releasing
  unfold State.domCheck
  simp only
  split
  · rfl
  split
  · split
    · exact gone _ (State.schedWithin_traffic _ _ _ _)
    · exact gone _ ((State.sched_traffic _ _ _ _ _ _).trans (State.freed_traffic _))
  · exact gone _ (State.sendControl_traffic _ _ _ _)

/-- A child that arrives is among its node's children, behind those before it (R47). -/
theorem State.childArrives_children (child task : Nat) :
    child ∈ ((s.childArrives bar child task).barriers.look (domKey bar)).children ∧
      ∀ x ∈ (s.barriers.look (domKey bar)).children, x ∈ ((s.childArrives bar child task).barriers.look (domKey bar)).children := by
  unfold State.childArrives
  rw [State.domCheck_children, s.modBarrier_look]
  simp only
  split
  · next here => exact ⟨List.contains_iff_mem.1 here, fun x h => h⟩
  · exact ⟨by simp, fun x h => List.mem_append_left _ h⟩

end

theorem fabBarrierArrival_does (s : State) (bar : Fin 256) (c : Fin 64) : Does (.fabBarrierArrival bar c) s fun t =>
    c.val ∈ (t.barriers.look (domKey bar.val)).children ∧
    (∀ x ∈ (s.barriers.look (domKey bar.val)).children, x ∈ (t.barriers.look (domKey bar.val)).children) ∧ t.banks = s.banks := by
  obtain ⟨here, before⟩ := s.childArrives_children bar.val c.val 0
  exact ⟨s.childArrives bar.val c.val, rfl, here, before, (s.childArrives_beside _ _ _).banks⟩

/-! Contributions -/

section
variable (s : State) (bar : Fin 256) (die : Die) (src : Nat) (data : List Byte)

/-- An all-reduce with a contribution more. -/
def State.updAllred (s : State) (bar : Nat) (f : AllRed → AllRed) : State := { s with allred := s.allred.upd bar f }

theorem State.updAllred_look (n : Nat) (f : AllRed → AllRed) : (s.updAllred n f).allred.look n = f (s.allred.look n) :=
  SMap.look_upd_same _ _ _

theorem allreduceContribution_core : Does (.allreduceContribution bar 0 die src data) s fun t =>
    (t.allred.look bar.val).own = (s.allred.look bar.val).own ++ [(src, data)] := by
  refine ⟨(s.updAllred bar.val fun a => { a with own := a.own ++ [(src, data)] }).domCheck bar.val, rfl, ?_⟩
  beta_reduce
  rw [(State.domCheck_beside _ _).allred, State.updAllred_look]

theorem allreduceContribution_die : Does (.allreduceContribution bar 1 die src data) s fun t =>
    (t.allred.look bar.val).dies = (s.allred.look bar.val).dies ++ [(die.val, data)] := by
  refine ⟨(s.updAllred bar.val fun a => { a with dies := a.dies ++ [(die.val, data)] }).domCheck bar.val, rfl, ?_⟩
  beta_reduce
  rw [(State.domCheck_beside _ _).allred, State.updAllred_look]

theorem allreduceContribution_module : Does (.allreduceContribution bar 2 die src data) s fun t =>
    (t.allred.look bar.val).mods = (s.allred.look bar.val).mods ++ [(src, data)] ∧
      src ∈ (t.barriers.look (domKey bar.val)).children := by
  refine ⟨(s.updAllred bar.val fun a => { a with mods := a.mods ++ [(src, data)] }).childArrives bar.val src, rfl, ?_,
    (State.childArrives_children _ _ _ _).1⟩
  rw [(State.childArrives_beside _ _ _ _).allred, State.updAllred_look]

end

/-! Releases -/

/-- A context passes a barrier. -/
def Bank.passes (n now : Nat) (c : Bank) : Bank :=
  { c with barR := c.barR.upd n (· + 1)
           barRecent := c.barRecent.filter (fun e => decide (now < e.2 + 2)) ++ [(n, now)] }

section
variable (s : State)

/-- The partition for which a participant of a barrier acts. -/
def State.partyPart (s : State) (task : Nat) (p : Nat × Nat) : Nat :=
  match s.holder p.1 p.2 with
  | some t => (s.task t).part
  | none => (s.task task).part

/-- A participant is released (R158, R357). -/
def State.partyFree (s : State) (n scope task : Nat) (p : Nat × Nat) : State :=
  (s.modBank (ctxOf p.1 p.2) (Bank.passes n s.now)).acquireActs p.1 (s.partyPart task p) scope

theorem State.barRelease_eq (k : Nat) : s.barRelease k =
    let b := s.barriers.look k
    let t := b.arrived.foldl (fun s p => s.partyFree (barCount b.level b.bar) (barScope b.level) b.task p) s
    { t with barriers := t.barriers.put k (if b.pending = 0 then {} else { level := b.level, bar := b.bar, pending := b.pending }) } := rfl

/-- What a release leaves alone: commands, all-reduces and the scratchpads. -/
structure Released (s t : State) : Prop where
  cmds : t.cmds = s.cmds
  allred : t.allred = s.allred
  spad : ∀ core ctx off n, t.spadBytes core ctx off n = s.spadBytes core ctx off n

namespace Released

theorem refl (s : State) : Released s s := ⟨rfl, rfl, fun _ _ _ _ => rfl⟩

theorem trans {s t u : State} (h : Released s t) (k : Released t u) : Released s u :=
  ⟨k.cmds.trans h.cmds, k.allred.trans h.allred, fun a b c d => (k.spad a b c d).trans (h.spad a b c d)⟩

end Released

theorem Beside.released {s t : State} (h : Beside s t) : Released s t := ⟨h.cmds, h.allred, h.spadBytes⟩

theorem State.passes_released (k n now : Nat) : Released s (s.modBank k (Bank.passes n now)) := by
  refine ⟨rfl, rfl, fun core ctx off m => ?_⟩
  have base : ((s.modBank k (Bank.passes n now)).bank (ctxOf core ctx)).spadBase = (s.bank (ctxOf core ctx)).spadBase := by
    rw [State.bank_modBank]
    split
    · next e => rw [e]; rfl
    · rfl
  show bytesAt (s.core core).spad (((s.modBank k (Bank.passes n now)).bank (ctxOf core ctx)).spadBase + off) m = _
  rw [base]
  rfl

theorem State.partyFree_released (n scope task : Nat) (p : Nat × Nat) : Released s (s.partyFree n scope task p) :=
  (s.passes_released _ n s.now).trans (State.acquireActs_beside _ _ _ _).released

theorem State.barriers_released (m : SMap Barrier) : Released s { s with barriers := m } := ⟨rfl, rfl, fun _ _ _ _ => rfl⟩

theorem State.barRelease_released (k : Nat) : Released s (s.barRelease k) := by
  rw [s.barRelease_eq]
  exact (foldl_rel Released.refl Released.trans _ s fun t p _ => t.partyFree_released _ _ _ p).trans (State.barriers_released _ _)

/-- A message to the children is traffic. -/
theorem State.toChildren_traffic (bar : Nat) (m : FlitMsg) : Traffic s (s.toChildren bar m) :=
  .fold _ s fun t _ _ => t.sendControl_traffic _ _ _

theorem State.domRelease_released (bar : Nat) (m : FlitMsg) : Released s (s.domRelease bar m) := by
  unfold State.domRelease
  exact ((s.toChildren_traffic bar m).beside.released.trans
    (foldl_rel Released.refl Released.trans _ _ fun t d _ => t.barRelease_released _)).trans (State.barriers_released _ _)

/-! A die's barrier at the node -/

/-- Passes of a barrier that a context counts. -/
def State.barPasses (s : State) (k n : Nat) : Nat := (s.bank k).barR.look n

theorem State.partyFree_barPasses (n scope task : Nat) (p : Nat × Nat) (k : Nat) :
    (s.partyFree n scope task p).barPasses k n = s.barPasses k n + if k = ctxOf p.1 p.2 then 1 else 0 := by
  unfold State.barPasses State.partyFree
  rw [(State.acquireActs_beside _ _ _ _).bank, State.bank_modBank]
  split
  · next e =>
    rw [e]
    exact SMap.look_upd_same (s.bank (ctxOf p.1 p.2)).barR n (· + 1)
  · rfl

/-- Every participant of a release passes once. -/
theorem State.partiesFree_barPasses (n scope task : Nat) (l : List (Nat × Nat)) (k : Nat) (once : (l.map fun p => ctxOf p.1 p.2).Nodup) :
    (l.foldl (fun s p => s.partyFree n scope task p) s).barPasses k n =
      s.barPasses k n + if k ∈ l.map (fun p => ctxOf p.1 p.2) then 1 else 0 := by
  induction l generalizing s with
  | nil => rfl
  | cons p l ih =>
    obtain ⟨fresh, rest⟩ := List.nodup_cons.1 once
    rw [List.foldl_cons, ih _ rest, s.partyFree_barPasses]
    by_cases same : k = ctxOf p.1 p.2
    · subst same
      rw [if_pos rfl, if_neg fresh, if_pos (by simp)]
    · simp only [List.map_cons, List.mem_cons, same, false_or, if_false, Nat.add_zero]

/-- A barrier that is released, as its participants and its place show it. -/
structure BarrierFreed (k : Nat) (s t : State) : Prop where
  gone : t.barriers.look k = {}
  passes : ∀ p ∈ (s.barriers.look k).arrived,
    t.barPasses (ctxOf p.1 p.2) (barCount (s.barriers.look k).level (s.barriers.look k).bar) =
      s.barPasses (ctxOf p.1 p.2) (barCount (s.barriers.look k).level (s.barriers.look k).bar) + 1

theorem State.barRelease_frees (k : Nat) (once : ((s.barriers.look k).arrived.map fun p => ctxOf p.1 p.2).Nodup)
    (last : (s.barriers.look k).pending = 0) : BarrierFreed k s (s.barRelease k) := by
  rw [s.barRelease_eq]
  constructor
  · show SMap.look (SMap.put _ k _) k = _
    rw [SMap.look_put_same, if_pos last]
  · intro p hp
    have passes := s.partiesFree_barPasses (barCount (s.barriers.look k).level (s.barriers.look k).bar)
      (barScope (s.barriers.look k).level) (s.barriers.look k).task _ (ctxOf p.1 p.2) once
    rw [if_pos (List.mem_map.2 ⟨p, hp, rfl⟩)] at passes
    exact passes

/-- A barrier's place written. -/
def State.putBarrier (s : State) (k : Nat) (b : Barrier) : State := { s with barriers := s.barriers.put k b }

theorem State.putBarrier_look (k : Nat) (b : Barrier) (n : Nat) :
    (s.putBarrier k b).barriers.look n = if n = k then b else s.barriers.look n := SMap.look_put _ _ _ _

/-- A node whose one child is a die of the module releases that die's barrier (R47). -/
theorem State.domRelease_die (bar d : Nat) (m : FlitMsg) (alone : (s.barriers.look (domKey bar)).children = [64 + d])
    (once : ((s.barriers.look (dieKey bar d)).arrived.map fun p => ctxOf p.1 p.2).Nodup)
    (last : (s.barriers.look (dieKey bar d)).pending = 0) :
    (s.domRelease bar m).barriers.look (domKey bar) = {} ∧ BarrierFreed (dieKey bar d) s (s.domRelease bar m) := by
  have eq : s.domRelease bar m = (s.barRelease (dieKey bar d)).putBarrier (domKey bar) {} := by
    unfold State.domRelease State.toChildren
    rw [alone]
    simp [State.putBarrier]
  obtain ⟨gone, passes⟩ := s.barRelease_frees (dieKey bar d) once last
  rw [eq]
  have other : dieKey bar d ≠ domKey bar := by unfold domKey dieKey; omega
  refine ⟨?_, ?_, passes⟩
  · rw [State.putBarrier_look, if_pos rfl]
  · rw [State.putBarrier_look, if_neg other, gone]

end

/-! The events -/

section
variable (s : State) (bar : Fin 256)

theorem fabBarrierRelease_does (d : Nat) (alone : (s.barriers.look (domKey bar.val)).children = [64 + d])
    (once : ((s.barriers.look (dieKey bar.val d)).arrived.map fun p => ctxOf p.1 p.2).Nodup)
    (last : (s.barriers.look (dieKey bar.val d)).pending = 0) : Does (.fabBarrierRelease bar) s fun t =>
      t.barriers.look (domKey bar.val) = {} ∧ BarrierFreed (dieKey bar.val d) s t :=
  ⟨s.domRelease bar.val (.release bar.val), rfl, s.domRelease_die bar.val d _ alone once last⟩

/-- An all-reduce that is over, and the commands that waited for it. -/
def State.reduceOver (s : State) (bar : Nat) : State :=
  { s with allred := s.allred.put bar {}, cmds := s.cmds.filter fun e => !(e.2.kind = CmdKind.fred && e.2.ring = bar) }

/-- A result lands at its destinations. -/
def State.resultLands (s : State) (l : List (Nat × Nat × Nat)) (data : List Byte) : State :=
  l.foldl (fun s d => s.taskSpad ((s.holder d.1 d.2.1).getD 0) d.1 d.2.1 d.2.2 data) s

theorem exec_allreduceResult (data : List Byte) : exec (.allreduceResult bar data) s =
    .next (((s.resultLands (s.allred.look bar.val).dsts data).reduceOver bar.val).domRelease bar.val (.result bar.val data)) := rfl

theorem allreduceResult_does (d : Nat) (data : List Byte) (nowhere : (s.allred.look bar.val).dsts = [])
    (alone : (s.barriers.look (domKey bar.val)).children = [64 + d])
    (once : ((s.barriers.look (dieKey bar.val d)).arrived.map fun p => ctxOf p.1 p.2).Nodup)
    (last : (s.barriers.look (dieKey bar.val d)).pending = 0) : Does (.allreduceResult bar data) s fun t =>
      t.barriers.look (domKey bar.val) = {} ∧ t.allred.look bar.val = {} ∧
      (∀ e ∈ t.cmds, e.2.kind = .fred → e.2.ring ≠ bar.val) ∧ BarrierFreed (dieKey bar.val d) s t := by
  have ended : (s.resultLands [] data).reduceOver bar.val = s.reduceOver bar.val := rfl
  obtain ⟨node, gone, passes⟩ := (s.reduceOver bar.val).domRelease_die bar.val d (.result bar.val data) alone once last
  have released := (s.reduceOver bar.val).domRelease_released bar.val (.result bar.val data)
  refine ⟨_, exec_allreduceResult s bar data, ?_⟩
  rw [nowhere, ended]
  refine ⟨node, ?_, fun e he fred => ?_, gone, passes⟩
  · rw [released.allred]
    exact SMap.look_put_same s.allred bar.val {}
  · rw [released.cmds] at he
    have kept := (List.mem_filter.1 he).2
    simpa [fred] using kept

theorem allreduceResult_lands (data : List Byte) (core ctx off : Nat) (one : (s.allred.look bar.val).dsts = [(core, ctx, off)])
    (free : s.capturing ((s.holder core ctx).getD 0) = false) : Does (.allreduceResult bar data) s fun t =>
      t.spadBytes core ctx off data.length = data := by
  have lands : s.resultLands [(core, ctx, off)] data = s.spadStore core ctx off data := s.taskSpad_free core ctx _ off data free
  refine ⟨_, exec_allreduceResult s bar data, ?_⟩
  rw [one, lands]
  beta_reduce
  rw [(State.domRelease_released _ _ _).spad]
  exact s.spadBytes_spadStore core ctx off data

end
end Sys2Proof.Machine
end

section
/-! PROOFS. The Wovor link: obligation O49. -/
namespace Sys2Proof.Machine

open Sys2Proof.Spec

/-- Settles O49, a lemma per clause. -/
theorem fabricEvents : Obligations.FabricEvents := by
  intro s
  refine ⟨?frame, fun p => ?ports, fun a home => ?accesses, fun id => ?entries, fun bar => ?barriers⟩
  case frame =>
    obtain ⟨t, step, mem, framed⟩ := fabFrameBoundary_does s
    exact ⟨t, step, mem, fun p hp => ⟨(framed p hp).replays, (framed p hp).leaves, (framed p hp).joins⟩⟩
  case ports =>
    refine ⟨fabSlot_untimed s p, fun down => ⟨fabSlot_down s p down, laneLockLoss_down s p down, replayRequest_down s p down,
      flitReceive_down s p down⟩, ?control, ?data, fun fl up => flitReceive_lost s p fl up,
      fun fl l up takes data => flitReceive_data s p fl l up takes data,
      fun fl n up want other first => flitReceive_behind s p fl up n want other first,
      fun fl up seen => flitReceive_seen s p fl up seen,
      fun n g up sent seq few => replayRequest_resends s p n g up sent seq few,
      fun n g up sent seq many => replayRequest_tooMany s p n g up sent seq many, laneLockLoss_falls s p,
      retrainComplete_idle s p, retrainComplete_fails s p, fun m idle b => linkTrainingDone_idle s p idle b m,
      fun m trains => ⟨linkTrainingDone_alone s p trains m, fun i hi => ?trained⟩⟩
    case control =>
      intro f up timed die queue control
      obtain ⟨t, step, out, control, queue⟩ := fabSlot_control s p f up timed die queue control
      exact ⟨t, step, out, control, queue⟩
    case data =>
      intro f up timed die queue system control
      obtain ⟨t, step, out, _, queue⟩ := fabSlot_data s p f up timed die queue system control
      exact ⟨t, step, out, queue⟩
    case trained =>
      obtain ⟨unlike, raises⟩ := trained_does s p trains m i hi
      refine ⟨unlike, fun same ingress => ?_⟩
      obtain ⟨t, step, state, reason, slotMap, rejoin⟩ := raises same ingress
      exact ⟨t, step, state, reason, slotMap, rejoin⟩
  case accesses =>
    refine ⟨fabAccessArrive_outside s a home, fabAccessArrive_mistagged s a home, fun w h tag there fresh => ⟨?reads,
      fabAccessArrive_writes s a w h tag there fresh, ?atomics, fabAccessArrive_atomic s a w h tag there fresh⟩,
      fun w b h tag there held => fabAccessArrive_served s a home w h tag there b held⟩
    case reads => exact fabAccessArrive_reads s a home w h tag there fresh
    case atomics =>
      intro op wide v kind host
      obtain ⟨t, step, x, mem, ev, later⟩ := fabAccessArrive_hostAtomic s a home w h tag there fresh op wide v kind host
      exact ⟨t, step, x, mem, later, ev⟩
  case entries =>
    refine ⟨fun gone => ⟨fabTimeout_gone s id gone, fabResponse_gone s id gone⟩, ?_, ?_⟩
    · intro l b own walk line poll cmd load _ bars ownLoad more now none
      exact fabResponse_done s id own ⟨walk, line, poll, cmd, load⟩ b bars ownLoad more now none
    · intro l b own walk line poll cmd load raisable
      have waits : ForLoad (s.fabric.look id) l := ⟨walk, line, poll, cmd, load⟩
      exact ⟨fabResponse_lost s id own waits b raisable _ 0x23 (.inl ⟨rfl, rfl⟩),
        fabResponse_lost s id own waits b raisable _ 0x31 (.inr ⟨rfl, rfl⟩), fabTimeout_aborts s id own waits raisable⟩
  case barriers =>
    refine ⟨fabBarrierArrival_does s bar, fun d _ alone once last => ⟨?release, ?result⟩,
      fun data core ctx off one free _ => allreduceResult_lands s bar data core ctx off one free,
      fun die src data => ⟨allreduceContribution_core s bar die src data, allreduceContribution_die s bar die src data,
        allreduceContribution_module s bar die src data⟩⟩
    case release =>
      obtain ⟨t, step, node, gone, passes⟩ := fabBarrierRelease_does s bar d alone once last
      exact ⟨t, step, node, gone, passes⟩
    case result =>
      intro data nowhere
      obtain ⟨t, step, node, allred, cmds, _, passes⟩ := allreduceResult_does s bar d data nowhere alone once last
      exact ⟨t, step, node, allred, cmds, passes⟩

end Sys2Proof.Machine
end

section
/-! PROOFS. The clock, the reads of its time and the Ethernet links (R69 to R74), for O50. -/
namespace Sys2Proof.Machine

open Sys2Proof.Spec

/-! Ethernet links and reads of the time (R70, R74) -/

theorem ethUp_clear (x : BitVec 8) (p : EthPort) (q : Nat) :
    (x &&& ~~~(1#8 <<< p.val)).getLsbD q = (x.getLsbD q && !decide (q = p.val)) := by
  rw [BitVec.getLsbD_and, BitVec.getLsbD_not, ← BitVec.twoPow_eq, BitVec.getLsbD_twoPow]
  by_cases hq : q < 8
  · simp [hq, p.isLt, eq_comm]
  · simp [BitVec.getLsbD_of_ge x q (by omega)]

theorem ethUp_set (x : BitVec 8) (p : EthPort) (q : Nat) :
    (x ||| (1#8 <<< p.val)).getLsbD q = (x.getLsbD q || decide (q = p.val)) := by
  rw [BitVec.getLsbD_or, ← BitVec.twoPow_eq, BitVec.getLsbD_twoPow]
  simp [p.isLt, eq_comm]

theorem ethLinkDown_does (s : State) (p : EthPort) : Does (.ethLinkDown p) s fun t =>
    t.ethUp.getLsbD p.val = false ∧ ∀ q, q ≠ p.val → t.ethUp.getLsbD q = s.ethUp.getLsbD q := by
  refine ⟨{ s with ethUp := s.ethUp &&& ~~~(1#8 <<< p.val) }, rfl, ?_, fun q other => ?_⟩
  · rw [ethUp_clear]; simp
  · rw [ethUp_clear]; simp [other]

theorem ethLinkUp_does (s : State) (p : EthPort) : Does (.ethLinkUp p) s fun t =>
    t.ethUp.getLsbD p.val = true ∧ ∀ q, q ≠ p.val → t.ethUp.getLsbD q = s.ethUp.getLsbD q := by
  refine ⟨{ s with ethUp := s.ethUp ||| (1#8 <<< p.val) }, rfl, ?_, fun q other => ?_⟩
  · rw [ethUp_set]; simp
  · rw [ethUp_set]; simp [other]

theorem ptcTimeLoRead_does (s : State) (f : Fn) : Does (.ptcTimeLoRead f) s fun t =>
    t.latch.look f.val = (s.deviceTime, s.tick) ∧ t.csr = s.csr ∧ t.mem = s.mem :=
  ⟨{ s with latch := s.latch.put f.val (s.deviceTime, s.tick) }, rfl, SMap.look_put_same _ _ _, rfl, rfl⟩

/-! Registers of the clock -/

/-- A set field leaves alone every field that shares no bit with it. -/
theorem State.getF_setF_apart (s : State) (f g : CsrField) (i j v : Nat) (h : f.hi < 128)
    (apart : g.reg = f.reg → g.hi < f.lo ∨ f.hi < g.lo) : (s.setF f i v).getF g j = s.getF g j := by
  by_cases e : g.reg = f.reg ∧ j = i
  · obtain ⟨same, rfl⟩ := e
    exact s.getF_setF_field f g j v h same (apart same)
  · exact s.getF_setF_ne f g i j v e

theorem Told.ptp {s t : State} (h : Told s t) : t.ptp = s.ptp := by
  obtain ⟨csr, out, snap, agenda, seq, free, path, dirty, rfl⟩ := h; rfl

theorem State.vec_told (s : State) (p v : Nat) : Told s (s.vec p v) := by
  obtain ⟨o, h⟩ := s.vec_spec p v
  exact h ▸ ⟨_, _, _, _, _, _, _, _, rfl⟩

/-- The vectors of an alarm. -/
def State.alarmVecs (s : State) : State :=
  (List.range 16).foldl (fun s p => if s.hasFast p then s.vec p 5 else s) (s.pfVec 3)

theorem State.ptpAlarm_eq (s : State) :
    s.ptpAlarm = if s.getF PTC_STAT.ALARM 0 = 1 then s else (s.setF PTC_STAT.ALARM 0 1).alarmVecs := rfl

theorem State.alarmVecs_told (s : State) : Told s s.alarmVecs :=
  (s.pfVec_told 3).trans (State.foldl_told _ _ fun u _ _ => .ite (u.vec_told _ _) (.refl u))

theorem State.alarmVecs_getF (s : State) (f : CsrField) (i : Nat) : s.alarmVecs.getF f i = s.getF f i := by
  refine foldl_keeps (P := fun t : State => t.getF f i = s.getF f i) _ (fun t p _ h => ?_) _ (s.pfVec_getF 3 f i)
  split
  · exact (t.vec_getF p 5 f i).trans h
  · exact h

theorem State.ptpAlarm_ptp (s : State) : s.ptpAlarm.ptp = s.ptp := by
  rw [s.ptpAlarm_eq]
  split
  · rfl
  · exact (State.alarmVecs_told _).ptp

/-- An alarm shows in ALARM alone. -/
theorem State.ptpAlarm_getF (s : State) (f : CsrField) (i : Nat) (apart : f.reg = .PTC_STAT → f.hi < 2 ∨ 2 < f.lo) :
    s.ptpAlarm.getF f i = s.getF f i := by
  rw [s.ptpAlarm_eq]
  split
  · rfl
  · rw [State.alarmVecs_getF]
    exact s.getF_setF_apart PTC_STAT.ALARM f 0 i 1 (by decide) apart

theorem State.ptpAlarm_alarm (s : State) : s.ptpAlarm.getF PTC_STAT.ALARM 0 = 1 := by
  rw [s.ptpAlarm_eq]
  split
  · next up => exact up
  · rw [State.alarmVecs_getF]
    exact s.getF_setF_same PTC_STAT.ALARM 0 1 (by decide)

/-! Messages of the timing protocol (R70, R71) -/

section
variable (s : State) (m : PtpMsg)

theorem ptpMessage_passed (h : s.takesPtp m = false) : exec (.ptpMessage m) s = .next s := by
  show execPtpMessage m s = _
  unfold execPtpMessage
  rw [if_pos (by simp [h])]

/-- The masters heard once a message has announced its sender. -/
def State.heardMasters : List (List Nat) := (s.ptp.masters.filter fun x => x.getLast? ≠ m.master.getLast?) ++ [m.master]

/-- The best of them. -/
def State.heardBest : Option (List Nat) := leastBy (fun a b => lexLt a b) (s.heardMasters m)

/-- The masters heard are noted, and the best of them is selected. -/
def State.mastersNoted : State := { s with ptp := { s.ptp with masters := s.heardMasters m, master := s.heardBest m } }

/-- A master newly selected brings Locking. -/
def State.masterChanged : State :=
  { (s.unsched fun d => decide (d.ev = Ev.lockwaitExpire ∨ d.ev = Ev.holdmaxExpire)).setF PTC_STAT.STATE 0 1 with
    ptp := { s.ptp with good := 0, heard := false, within := false } }

theorem State.announce_eq : s.announce m =
    if (s.heardBest m).bind (·.getLast?) = s.ptp.master.bind (·.getLast?) then s.mastersNoted m
    else (s.mastersNoted m).masterChanged := rfl

theorem State.announce_selects : (s.announce m).ptp.masters = s.heardMasters m ∧ (s.announce m).ptp.master = s.heardBest m ∧
    (s.announce m).getF PTC_STAT.STATE 0 =
      if (s.heardBest m).bind (·.getLast?) = s.ptp.master.bind (·.getLast?) then s.getF PTC_STAT.STATE 0 else 1 := by
  rw [s.announce_eq]
  split
  · exact ⟨rfl, rfl, rfl⟩
  · exact ⟨rfl, rfl, State.getF_setF_same _ PTC_STAT.STATE 0 1 (by decide)⟩

theorem ptpMessage_announces (takes : s.takesPtp m = true) (plain : m.offset = none) :
    exec (.ptpMessage m) s = .next (s.announce m) := by
  show execPtpMessage m s = _
  unfold execPtpMessage
  rw [if_neg (by simp [takes]), plain]

theorem exec_ptpMessage_offset {o : Int} (takes : s.takesPtp m = true) (timing : m.offset = some o) : exec (.ptpMessage m) s =
    .next (if s.ptp.master.isSome && (s.ptp.master.bind (·.getLast?)) = m.master.getLast? then s.measureOffset o else s) := by
  show execPtpMessage m s = _
  unfold execPtpMessage
  rw [if_neg (by simp [takes]), timing]

theorem ptpMessage_other {o : Int} (takes : s.takesPtp m = true) (timing : m.offset = some o)
    (other : s.ptp.master = none ∨ s.ptp.master.bind (·.getLast?) ≠ m.master.getLast?) : exec (.ptpMessage m) s = .next s := by
  rw [exec_ptpMessage_offset s m takes timing, if_neg]
  rcases other with none | other
  · simp [none]
  · simp [other]

/-- The offset is noted in the state and in PTC_OFFSET. -/
def State.offsetNoted (o : Int) : State :=
  ({ s with ptp := { s.ptp with offset := o, heard := true } } : State).setF PTC_OFFSET.OFS 0 (o % (2 ^ 64 : Int)).toNat

/-- An offset beyond OFFMAX ends the run of good seconds. -/
def State.offsetJudged : State := if s.inOffmax then s else { s with ptp := { s.ptp with good := 0, within := false } }

theorem State.measureOffset_eq (o : Int) : s.measureOffset o =
    if (s.offsetNoted o).offsetJudged.getF PTC_STAT.STATE 0 = 1 && !(s.offsetNoted o).offsetJudged.inOffmax
      then (s.offsetNoted o).offsetJudged.ptpAlarm else (s.offsetNoted o).offsetJudged := rfl

theorem State.offsetJudged_kept : s.offsetJudged.csr = s.csr ∧ s.offsetJudged.ptp.offset = s.ptp.offset := by
  unfold State.offsetJudged
  split
  · exact ⟨rfl, rfl⟩
  · exact ⟨rfl, rfl⟩

theorem State.measureOffset_shows (o : Int) : (s.measureOffset o).ptp.offset = o ∧
    (s.measureOffset o).getF PTC_OFFSET.OFS 0 = (o % (2 ^ 64 : Int)).toNat ∧
    (s.measureOffset o).getF PTC_STAT.STATE 0 = s.getF PTC_STAT.STATE 0 := by
  obtain ⟨csr, offset⟩ := (s.offsetNoted o).offsetJudged_kept
  have fits : (o % (2 ^ 64 : Int)).toNat < 2 ^ 64 := by omega
  have noted : (s.offsetNoted o).offsetJudged.getF PTC_OFFSET.OFS 0 = (o % (2 ^ 64 : Int)).toNat :=
    (State.getF_congr csr _ _).trans (State.getF_setF_fit _ PTC_OFFSET.OFS 0 _ (by decide) fits)
  have stays : (s.offsetNoted o).offsetJudged.getF PTC_STAT.STATE 0 = s.getF PTC_STAT.STATE 0 :=
    (State.getF_congr csr _ _).trans (State.getF_setF_reg _ PTC_OFFSET.OFS PTC_STAT.STATE 0 0 _ (by decide))
  rw [s.measureOffset_eq]
  split
  · rw [State.ptpAlarm_ptp, State.ptpAlarm_getF _ _ _ (by decide), State.ptpAlarm_getF _ _ _ (by decide)]
    exact ⟨offset, noted, stays⟩
  · exact ⟨offset, noted, stays⟩

theorem ptpMessage_measures {o : Int} (takes : s.takesPtp m = true) (timing : m.offset = some o) (some : s.ptp.master ≠ none)
    (own : s.ptp.master.bind (·.getLast?) = m.master.getLast?) : exec (.ptpMessage m) s = .next (s.measureOffset o) := by
  rw [exec_ptpMessage_offset s m takes timing, if_pos]
  simp [own, Option.isSome_iff_ne_none.2 some]

end

/-! The states of the clock (R71) -/

section
variable (s : State)

theorem lockwaitExpire_idle (h : s.getF PTC_STAT.STATE 0 ≠ 0) : exec .lockwaitExpire s = .next s := by
  show execLockwaitExpire s = _
  unfold execLockwaitExpire
  exact if_pos h

/-- The cycle at which LOCKWAIT ends. -/
def State.lockwaitDue : Nat := s.ptp.from_ + seconds (max 1 (s.getF PTC_CFG.LOCKWAIT 0))

theorem lockwaitExpire_early (h : s.getF PTC_STAT.STATE 0 = 0) (early : s.now < s.lockwaitDue) : Does .lockwaitExpire s fun t =>
    DueAt t .lockwaitExpire s.lockwaitDue ∧ t.ptp = s.ptp := by
  refine ⟨s.sched s.lockwaitDue phHost .lockwaitExpire, ?_, s.dueAt_sched _ _ _, rfl⟩
  show execLockwaitExpire s = _
  unfold execLockwaitExpire
  exact (if_neg (not_not.2 h)).trans (if_pos early)

theorem lockwaitExpire_waited (h : s.getF PTC_STAT.STATE 0 = 0) (past : s.lockwaitDue ≤ s.now) : Does .lockwaitExpire s fun t =>
    t.ptp.waited = true := by
  refine ⟨{ s with ptp := { s.ptp with waited := true } }, ?_, rfl⟩
  show execLockwaitExpire s = _
  unfold execLockwaitExpire
  exact (if_neg (not_not.2 h)).trans (if_neg (Nat.not_lt.2 past))

theorem masterLost_idle (h1 : s.getF PTC_STAT.STATE 0 ≠ 1) (h2 : s.getF PTC_STAT.STATE 0 ≠ 2) : exec .masterLost s = .next s := by
  show execMasterLost s = _
  unfold execMasterLost
  rw [if_pos (by simp [h1, h2])]

theorem masterLost_holds (h : s.getF PTC_STAT.STATE 0 = 1 ∨ s.getF PTC_STAT.STATE 0 = 2) : Does .masterLost s fun t =>
    t.getF PTC_STAT.STATE 0 = 3 ∧ DueAt t .holdmaxExpire (s.now + seconds (s.getF PTC_CFG.HOLDMAX 0)) ∧ t.incr = s.incr ∧
    t.ptp.master = none := by
  refine ⟨({ s.setF PTC_STAT.STATE 0 3 with ptp := { s.ptp with master := none, masters := [] } } : State).sched
    (s.now + seconds (s.getF PTC_CFG.HOLDMAX 0)) phHost .holdmaxExpire, ?_, s.getF_setF_same PTC_STAT.STATE 0 3 (by decide),
    State.dueAt_sched _ _ _ _, s.getF_setF_reg PTC_STAT.STATE PTC_INCR.INCR 0 0 3 (by decide), rfl⟩
  show execMasterLost s = _
  unfold execMasterLost
  rw [if_neg (by rcases h with h | h <;> simp [h])]

theorem holdmaxExpire_idle (h : s.getF PTC_STAT.STATE 0 ≠ 3) : exec .holdmaxExpire s = .next s := by
  show execHoldmaxExpire s = _
  unfold execHoldmaxExpire
  rw [if_neg h]

theorem holdmaxExpire_alarms (h : s.getF PTC_STAT.STATE 0 = 3) : Does .holdmaxExpire s fun t =>
    t.getF PTC_STAT.ALARM 0 = 1 ∧ t.incr = s.incr := by
  refine ⟨s.ptpAlarm, ?_, s.ptpAlarm_alarm, s.ptpAlarm_getF PTC_INCR.INCR 0 (by decide)⟩
  show execHoldmaxExpire s = _
  unfold execHoldmaxExpire
  rw [if_pos h]

end

end Sys2Proof.Machine
end


section
/-! PROOFS. The second boundary of the clock (R69, R71 to R73), for O50. -/
namespace Sys2Proof.Machine

open Sys2Proof.Spec

/-- What the work of a boundary that follows its latch leaves alone: the time, the tick, what has been latched of the clock and
the fields of PTC_STAT that show it. -/
structure ClockHeld (s t : State) : Prop where
  now : t.now = s.now
  tickBase : t.tickBase = s.tickBase
  second : t.ptp.s = s.ptp.s
  cycle : t.ptp.t = s.ptp.t
  pending : t.ptp.stepPending = s.ptp.stepPending
  regs : ∀ f ∈ [PTC_STAT.PRIMARY, PTC_STAT.STEPREF, PTC_STAT.TICKRUN], t.getF f 0 = s.getF f 0

theorem ClockHeld.refl (s : State) : ClockHeld s s := ⟨rfl, rfl, rfl, rfl, rfl, fun _ _ => rfl⟩

theorem ClockHeld.trans {s t u : State} (h : ClockHeld s t) (k : ClockHeld t u) : ClockHeld s u :=
  ⟨k.now.trans h.now, k.tickBase.trans h.tickBase, k.second.trans h.second, k.cycle.trans h.cycle, k.pending.trans h.pending,
    fun f hf => (k.regs f hf).trans (h.regs f hf)⟩

theorem Traffic.ptp {s t : State} (h : Traffic s t) : t.ptp = s.ptp := by rw [h.same]
theorem Traffic.tickBase {s t : State} (h : Traffic s t) : t.tickBase = s.tickBase := by rw [h.same]

theorem Traffic.clockHeld {s t : State} (h : Traffic s t) : ClockHeld s t :=
  ⟨h.now, h.tickBase, congrArg Ptp.s h.ptp, congrArg Ptp.t h.ptp, congrArg Ptp.stepPending h.ptp, fun f _ => h.getF f 0⟩

section
variable (s : State)

/-! The start of the tick (R72) -/

theorem State.atFrame_traffic : Traffic s s.atFrame := .ite (.refl s) (s.sched_traffic _ _ _ _ _)

theorem State.startFrames_traffic : Traffic s s.startFrames :=
  (Traffic.fold s.ports s fun t _ _ => .ite (.refl t) (t.sched_traffic _ _ _ _ _)).trans (.ite (State.atFrame_traffic _) (.refl _))

/-- Whether a boundary finds the tick to be started: the clock has been Locked, or LOCKWAIT has passed in Free-run. -/
def State.tickStarts : Bool := s.ptp.reached || (decide (s.getF PTC_STAT.STATE 0 = 0) && s.ptp.waited)

/-- The tick runs from now. -/
def State.ticking : State :=
  (({ s with tickBase := some s.now } : State).setF PTC_STAT.TICKRUN 0 1).setF PTC_EPOCH.SEC 0
    (if s.ptp.reached then s.ptp.s / 1000000000 else 0)

theorem State.startTicks_off (h : s.tickBase ≠ none ∨ s.tickStarts = false) : s.startTicks = s := by
  unfold State.startTicks
  refine if_pos ?_
  rcases h with runs | waits
  · simp [Option.isSome_iff_ne_none.2 runs]
  · unfold State.tickStarts at waits
    simp [waits]

theorem State.startTicks_on (stands : s.tickBase = none) (starts : s.tickStarts = true) : Traffic s.ticking s.startTicks := by
  unfold State.startTicks
  extract_lets st t
  unfold State.tickStarts at starts
  rw [if_neg (by simp [stands, st, starts])]
  exact (Traffic.fold _ t fun u _ _ => .ite (.refl u) (u.sched_traffic _ _ _ _ _)).trans (State.startFrames_traffic _)

theorem State.ticking_getF (f : CsrField) (other : f.reg ≠ .PTC_EPOCH) (apart : f.reg = .PTC_STAT → f.hi < 6 ∨ 6 < f.lo) :
    s.ticking.getF f 0 = s.getF f 0 :=
  (State.getF_setF_reg _ PTC_EPOCH.SEC f 0 0 _ other).trans (State.getF_setF_apart _ PTC_STAT.TICKRUN f 0 0 1 (by decide) apart)

theorem State.ticking_tickrun : s.ticking.getF PTC_STAT.TICKRUN 0 = 1 :=
  (State.getF_setF_reg _ PTC_EPOCH.SEC PTC_STAT.TICKRUN 0 0 _ (by decide)).trans
    (State.getF_setF_same _ PTC_STAT.TICKRUN 0 1 (by decide))

/-- Whether the tick starts or not, the clock and the time stay, and of the registers all but TICKRUN and PTC_EPOCH. -/
theorem State.startTicks_kept : s.startTicks.now = s.now ∧ s.startTicks.ptp = s.ptp ∧
    ∀ f : CsrField, f.reg ≠ .PTC_EPOCH → (f.reg = .PTC_STAT → f.hi < 6 ∨ 6 < f.lo) → s.startTicks.getF f 0 = s.getF f 0 := by
  by_cases h : s.tickBase = none ∧ s.tickStarts = true
  · have started := s.startTicks_on h.1 h.2
    exact ⟨started.now, started.ptp, fun f other apart => (started.getF f 0).trans (s.ticking_getF f other apart)⟩
  · rw [s.startTicks_off (by simpa [or_iff_not_imp_left] using h)]
    exact ⟨rfl, rfl, fun _ _ _ => rfl⟩

/-! The count of good seconds (R71) -/

/-- A good second is counted, or the sixteenth locks the clock, or it was not Locking. -/
theorem State.countLock_cases : s.countLock = s ∨ s.getF PTC_STAT.STATE 0 = 1 ∧ ∃ good within,
    s.countLock = { s with ptp := { s.ptp with good := good, within := within } } ∨
    s.countLock = { s.setF PTC_STAT.STATE 0 2 with ptp := { s.ptp with good := good, within := within, reached := true } } := by
  by_cases h : s.getF PTC_STAT.STATE 0 = 1
  · refine .inr ⟨h, ?_⟩
    unfold State.countLock
    rw [if_neg (not_not.2 h)]
    extract_lets n t
    by_cases lock : 16 ≤ n
    · rw [if_pos lock]
      exact ⟨_, _, .inr rfl⟩
    · rw [if_neg lock]
      exact ⟨_, _, .inl rfl⟩
  · exact .inl (if_pos h)

theorem State.countLock_held : ClockHeld s s.countLock := by
  rcases s.countLock_cases with e | ⟨-, good, within, e | e⟩
  · rw [e]
    exact .refl s
  · rw [e]
    exact ⟨rfl, rfl, rfl, rfl, rfl, fun _ _ => rfl⟩
  · rw [e]
    refine ⟨rfl, rfl, rfl, rfl, rfl, fun f hf => s.getF_setF_apart PTC_STAT.STATE f 0 0 2 (by decide) fun _ => .inr ?_⟩
    fin_cases hf <;> decide

theorem State.countLock_incr : s.countLock.incr = s.incr := by
  rcases s.countLock_cases with e | ⟨-, good, within, e | e⟩
  · rw [e]
  · rw [e]; rfl
  · rw [e]
    exact s.getF_setF_reg PTC_STAT.STATE PTC_INCR.INCR 0 0 2 (by decide)

theorem State.countLock_stays (h : s.getF PTC_STAT.STATE 0 ≠ 1) : s.countLock = s := if_pos h

theorem State.countLock_follows (h : s.getF PTC_STAT.STATE 0 = 1) :
    s.countLock.getF PTC_STAT.STATE 0 = 1 ∨ s.countLock.getF PTC_STAT.STATE 0 = 2 := by
  rcases s.countLock_cases with e | ⟨-, good, within, e | e⟩
  · rw [e]
    exact .inl h
  · rw [e]
    exact .inl h
  · rw [e]
    exact .inr (s.getF_setF_same PTC_STAT.STATE 0 2 (by decide))

/-! The servo (R71) -/

theorem State.freeIn_mem {lo hi : Nat} (h : lo ≤ hi) : lo ≤ s.freeIn lo hi ∧ s.freeIn lo hi ≤ hi := by
  have below : Config.freeNat s.free % (hi + 1 - lo) < hi + 1 - lo := Nat.mod_lt _ (by omega)
  unfold State.freeIn
  omega

theorem State.servo_freeRun (h : s.getF PTC_STAT.STATE 0 = 0) : s.servo = s.setF PTC_INCR.INCR 0 (2 ^ 46) := by
  simp only [State.servo, h]

theorem State.servo_holdover (h : s.getF PTC_STAT.STATE 0 = 3) : s.servo = s := by
  simp only [State.servo, h]

theorem State.servo_follows (h : s.getF PTC_STAT.STATE 0 = 1 ∨ s.getF PTC_STAT.STATE 0 = 2) :
    s.servo = (s.setF PTC_INCR.INCR 0 (s.freeIn incrMin incrMax)).freed := by
  rcases h with h | h
  · simp only [State.servo, h]
  · simp only [State.servo, h]

theorem State.state_cases : s.getF PTC_STAT.STATE 0 = 0 ∨ (s.getF PTC_STAT.STATE 0 = 1 ∨ s.getF PTC_STAT.STATE 0 = 2) ∨
    s.getF PTC_STAT.STATE 0 = 3 := by
  have below : s.getF PTC_STAT.STATE 0 < 4 := s.getF_lt PTC_STAT.STATE 0
  omega

theorem State.setIncr_held (v : Nat) : ClockHeld s (s.setF PTC_INCR.INCR 0 v) := by
  refine ⟨rfl, rfl, rfl, rfl, rfl, fun f hf => s.getF_setF_reg PTC_INCR.INCR f 0 0 v ?_⟩
  fin_cases hf <;> decide

theorem State.servo_held : ClockHeld s s.servo := by
  rcases s.state_cases with h | h | h
  · rw [s.servo_freeRun h]
    exact s.setIncr_held _
  · rw [s.servo_follows h]
    exact (s.setIncr_held _).trans (State.freed_traffic _).clockHeld
  · rw [s.servo_holdover h]
    exact .refl s

theorem State.servo_freeRun_incr (h : s.getF PTC_STAT.STATE 0 = 0) : s.servo.incr = 2 ^ 46 := by
  rw [s.servo_freeRun h]
  exact s.getF_setF_same PTC_INCR.INCR 0 (2 ^ 46) (by decide)

theorem State.servo_follows_incr (h : s.getF PTC_STAT.STATE 0 = 1 ∨ s.getF PTC_STAT.STATE 0 = 2) :
    incrMin ≤ s.servo.incr ∧ s.servo.incr ≤ incrMax := by
  obtain ⟨low, high⟩ := s.freeIn_mem (show incrMin ≤ incrMax by decide)
  have shown : s.servo.incr = s.freeIn incrMin incrMax := by
    rw [s.servo_follows h]
    exact s.getF_setF_fit PTC_INCR.INCR 0 _ (by decide) (Nat.lt_of_le_of_lt high (by decide))
  rw [shown]
  exact ⟨low, high⟩

/-! What follows the conversion in force (R73) -/

/-- Timer releases are due anew, and so is the next boundary. -/
def State.clockDue : State := (if s.tickBase.isSome then s.retime else s).nextSecond

theorem State.retime_traffic : ∃ f, Traffic (s.unsched f) s.retime :=
  ⟨_, .fold _ _ fun u _ _ => .ite (u.sched_traffic _ _ _ _ _) (.refl u)⟩

theorem State.retime_held : ClockHeld s s.retime ∧ s.retime.csr = s.csr := by
  obtain ⟨f, h⟩ := s.retime_traffic
  have unscheduled : ClockHeld s (s.unsched f) := ⟨rfl, rfl, rfl, rfl, rfl, fun _ _ => rfl⟩
  exact ⟨unscheduled.trans h.clockHeld, h.csr⟩

theorem State.clockDue_held : ClockHeld s s.clockDue ∧ s.clockDue.csr = s.csr := by
  have next (t : State) : Traffic t t.nextSecond := t.sched_traffic _ _ _ _ _
  unfold State.clockDue
  split
  · obtain ⟨held, csr⟩ := s.retime_held
    exact ⟨held.trans (next _).clockHeld, (next _).csr.trans csr⟩
  · exact ⟨(next s).clockHeld, (next s).csr⟩

theorem State.clockDue_next : ∃ x ∈ s.clockDue.agenda, x.ev = .ptpSecondBoundary ∧ s.now < x.time := by
  have now : (if s.tickBase.isSome then s.retime else s).now = s.now := by
    split
    · exact s.retime_held.1.now
    · rfl
  refine ⟨_, (mem_insertDue _ _ _).2 (.inl rfl), rfl, ?_⟩
  rw [← now]
  exact Nat.le_max_left _ _

/-! What is latched (R69, R73) -/

/-- Device time to the whole second nearest to it. -/
def State.boundarySecond : Nat := (s.deviceTime + 500000000) / 1000000000 * 1000000000

/-- The die that holds the clock. -/
def State.clockDie : Nat := if (s.die 0).stopped || (s.die 0).heldInReset then 2 else 0

def State.clockMoves : Bool := decide (s.clockDie ≠ s.getF PTC_STAT.PRIMARY 0)

/-- A step is refused once a fast or slow stream is admitted. -/
def State.stepRefused : State := if s.ptp.stepPending && s.anyAdmitted then s.setF PTC_STAT.STEPREF 0 1 else s

/-- Device time at the boundary: a step that is taken moves it by the offset. -/
def State.boundaryTime (offset : Int) : Nat :=
  if s.ptp.stepPending && !s.clockMoves && !s.anyAdmitted then ((s.boundarySecond : Int) - offset).toNat else s.boundarySecond

def State.clockLatched : State :=
  let u := s.stepRefused
  ({ u with ptp := { u.ptp with s := s.boundaryTime u.ptp.offset, t := u.now
                                stepPending := u.ptp.stepPending && s.clockMoves && !u.anyAdmitted } } : State).setF
    PTC_STAT.PRIMARY 0 s.clockDie

/-- The boundary after its latch: the tick may start, seconds are counted, and the servo sets INCR unless the clock moves. -/
def State.clockRuns (moves : Bool) : State :=
  (if moves then s.startTicks.countLock else s.startTicks.countLock.servo).clockDue

theorem exec_ptpSecondBoundary : exec .ptpSecondBoundary s = .next (s.clockLatched.clockRuns s.clockMoves) := rfl

/-- What a boundary has latched. -/
structure BoundaryLatched (s t : State) : Prop where
  now : t.now = s.now
  tickBase : t.tickBase = s.tickBase
  second : t.ptp.s = s.boundaryTime s.ptp.offset
  cycle : t.ptp.t = s.now
  pending : t.ptp.stepPending = (s.ptp.stepPending && s.clockMoves && !s.anyAdmitted)
  primary : t.getF PTC_STAT.PRIMARY 0 = s.clockDie
  stepref : s.ptp.stepPending = true → s.anyAdmitted = true → t.getF PTC_STAT.STEPREF 0 = 1
  incr : t.incr = s.incr
  state : t.getF PTC_STAT.STATE 0 = s.getF PTC_STAT.STATE 0
  starts : t.tickStarts = s.tickStarts

theorem State.stepRefused_csrOnly : CsrOnly s s.stepRefused := by
  unfold State.stepRefused
  split
  · exact s.setF_csrOnly _ _ _
  · exact .refl s

theorem State.stepRefused_getF (f : CsrField) (apart : f.reg = .PTC_STAT → f.hi < 3 ∨ 3 < f.lo) :
    s.stepRefused.getF f 0 = s.getF f 0 := by
  unfold State.stepRefused
  split
  · exact s.getF_setF_apart PTC_STAT.STEPREF f 0 0 1 (by decide) apart
  · rfl

theorem State.stepRefused_stepref (pending : s.ptp.stepPending = true) (busy : s.anyAdmitted = true) :
    s.stepRefused.getF PTC_STAT.STEPREF 0 = 1 := by
  unfold State.stepRefused
  rw [if_pos (by simp [pending, busy])]
  exact s.getF_setF_same PTC_STAT.STEPREF 0 1 (by decide)

theorem State.clockLatched_getF (f : CsrField) (apart : f.reg = .PTC_STAT → f.hi < 4 ∨ 5 < f.lo) :
    s.clockLatched.getF f 0 = s.stepRefused.getF f 0 := State.getF_setF_apart _ PTC_STAT.PRIMARY f 0 0 s.clockDie (by decide) apart

theorem State.boundaryLatched : BoundaryLatched s s.clockLatched := by
  obtain ⟨csr, same⟩ := s.stepRefused_csrOnly
  have die : s.clockDie < 4 := by
    unfold State.clockDie
    split <;> decide
  have state : s.clockLatched.getF PTC_STAT.STATE 0 = s.getF PTC_STAT.STATE 0 :=
    (s.clockLatched_getF _ (by decide)).trans (s.stepRefused_getF _ (by decide))
  have now : s.stepRefused.now = s.now := by rw [same]
  have tickBase : s.stepRefused.tickBase = s.tickBase := by rw [same]
  have ptp : s.stepRefused.ptp = s.ptp := by rw [same]
  refine ⟨now, tickBase, congrArg (fun p : Ptp => s.boundaryTime p.offset) ptp, now, ?_,
    State.getF_setF_fit _ PTC_STAT.PRIMARY 0 _ (by decide) die,
    fun pending busy => (s.clockLatched_getF _ (by decide)).trans (s.stepRefused_stepref pending busy),
    (s.clockLatched_getF PTC_INCR.INCR (by decide)).trans (s.stepRefused_getF _ (by decide)), state, ?_⟩
  · show (s.stepRefused.ptp.stepPending && s.clockMoves && !s.stepRefused.anyAdmitted) = _
    rw [same]
    rfl
  · show (s.stepRefused.ptp.reached || (decide (s.clockLatched.getF PTC_STAT.STATE 0 = 0) && s.stepRefused.ptp.waited)) = _
    rw [state, same]
    rfl

/-! The boundary -/

/-- What the boundary does after its latch. -/
structure ClockRun (s : State) (moves : Bool) (t : State) : Prop where
  second : t.ptp.s = s.ptp.s
  cycle : t.ptp.t = s.ptp.t
  pending : t.ptp.stepPending = s.ptp.stepPending
  primary : t.getF PTC_STAT.PRIMARY 0 = s.getF PTC_STAT.PRIMARY 0
  stepref : t.getF PTC_STAT.STEPREF 0 = s.getF PTC_STAT.STEPREF 0
  stays : moves = true ∨ s.getF PTC_STAT.STATE 0 = 3 → t.incr = s.incr
  freeRun : moves = false → s.getF PTC_STAT.STATE 0 = 0 → t.incr = 2 ^ 46
  follows : moves = false → s.getF PTC_STAT.STATE 0 = 1 ∨ s.getF PTC_STAT.STATE 0 = 2 → incrMin ≤ t.incr ∧ t.incr ≤ incrMax
  starts : s.tickBase = none → s.tickStarts = true → t.tickBase = some s.now ∧ t.getF PTC_STAT.TICKRUN 0 = 1
  stands : s.tickBase ≠ none ∨ s.tickStarts = false → t.tickBase = s.tickBase
  next : ∃ x ∈ t.agenda, x.ev = .ptpSecondBoundary ∧ s.now < x.time

/-- The clock as the servo finds it has the state that it was counted in, Locking or Locked where it was either. -/
theorem State.counted_state : let c := s.startTicks.countLock
    (s.getF PTC_STAT.STATE 0 = 0 → c.getF PTC_STAT.STATE 0 = 0) ∧ (s.getF PTC_STAT.STATE 0 = 3 → c.getF PTC_STAT.STATE 0 = 3) ∧
    (s.getF PTC_STAT.STATE 0 = 1 ∨ s.getF PTC_STAT.STATE 0 = 2 → c.getF PTC_STAT.STATE 0 = 1 ∨ c.getF PTC_STAT.STATE 0 = 2) := by
  obtain ⟨-, -, regs⟩ := s.startTicks_kept
  have state := regs PTC_STAT.STATE (by decide) (by decide)
  intro c
  have stays (n : Nat) (h : s.getF PTC_STAT.STATE 0 = n) (other : n ≠ 1) : c.getF PTC_STAT.STATE 0 = n := by
    show s.startTicks.countLock.getF _ _ = _
    rw [State.countLock_stays _ (by rw [state, h]; exact other), state, h]
  refine ⟨fun h => stays 0 h (by decide), fun h => stays 3 h (by decide), fun h => ?_⟩
  rcases h with h | h
  · exact State.countLock_follows _ (state.trans h)
  · exact .inr (stays 2 h (by decide))

theorem State.clockRuns_run (moves : Bool) : ClockRun s moves (s.clockRuns moves) := by
  obtain ⟨now, ptp, regs⟩ := s.startTicks_kept
  obtain ⟨zero, three, follows⟩ := s.counted_state
  have counted := s.startTicks.countLock_held
  have incr : s.startTicks.countLock.incr = s.incr :=
    (State.countLock_incr _).trans (regs PTC_INCR.INCR (by decide) (by decide))
  let c : State := if moves then s.startTicks.countLock else s.startTicks.countLock.servo
  have served : ClockHeld s.startTicks c := counted.trans (by
    show ClockHeld _ (if moves then _ else _)
    split
    · exact .refl _
    · exact State.servo_held _)
  obtain ⟨due, csr⟩ := c.clockDue_held
  have held : ClockHeld s.startTicks (s.clockRuns moves) := served.trans due
  have shown : (s.clockRuns moves).incr = c.incr := State.getF_congr csr _ _
  have servo (h : moves = false) : (s.clockRuns moves).incr = s.startTicks.countLock.servo.incr :=
    shown.trans (by show State.incr (if moves then _ else _) = _; rw [h]; rfl)
  refine ⟨held.second.trans (congrArg Ptp.s ptp), held.cycle.trans (congrArg Ptp.t ptp),
    held.pending.trans (congrArg Ptp.stepPending ptp), (held.regs _ (by simp)).trans (regs _ (by decide) (by decide)),
    (held.regs _ (by simp)).trans (regs _ (by decide) (by decide)), fun h => ?_, fun h st => ?_, fun h st => ?_, fun none starts => ?_,
    fun h => ?_, ?_⟩
  · rw [shown, ← incr]
    show State.incr (if moves then _ else _) = _
    rcases h with h | h
    · rw [if_pos h]
    · rw [State.servo_holdover _ (three h), ite_self]
  · exact (servo h).trans (State.servo_freeRun_incr _ (zero st))
  · rw [servo h]
    exact State.servo_follows_incr _ (follows st)
  · have started := s.startTicks_on none starts
    exact ⟨held.tickBase.trans started.tickBase, ((held.regs _ (by simp)).trans (started.getF _ 0)).trans s.ticking_tickrun⟩
  · rw [held.tickBase, s.startTicks_off h]
  · obtain ⟨x, due, ev, later⟩ := c.clockDue_next
    exact ⟨x, due, ev, by rwa [served.now, now] at later⟩

end

end Sys2Proof.Machine
end


section
/-! PROOFS. What the release and the end of a task leave alone of the receive rings (R61, R116, R123), for O50. -/
namespace Sys2Proof.Machine

open Sys2Proof.Spec

/-- A receive ring but for its occupied slots. -/
def RxRing.unoccupied (r : RxRing) : RxRing := { r with occ := [] }

theorem RxRing.of_unoccupied {a b : RxRing} (h : a.unoccupied = b) : a.tail = b.tail ∧ a.lastSrc = b.lastSrc ∧ a.pubQ = b.pubQ := by
  subst h
  exact ⟨rfl, rfl, rfl⟩

/-- A change that leaves alone the receive rings but for their occupied slots. -/
structure RingsHeld (s t : State) : Prop where
  ring : ∀ k, (t.rx.look k).unoccupied = (s.rx.look k).unoccupied

namespace RingsHeld

theorem refl (s : State) : RingsHeld s s := ⟨fun _ => rfl⟩

theorem trans {s t u : State} (h : RingsHeld s t) (k : RingsHeld t u) : RingsHeld s u :=
  ⟨fun n => (k.ring n).trans (h.ring n)⟩

theorem ite {s t u : State} {c : Prop} [Decidable c] (h : RingsHeld s t) (k : RingsHeld s u) : RingsHeld s (if c then t else u) := by
  split
  · exact h
  · exact k

theorem fold {β : Type} {f : State → β → State} (l : List β) (s : State) (h : ∀ t, ∀ b ∈ l, RingsHeld t (f t b)) :
    RingsHeld s (l.foldl f s) := foldl_rel refl trans l s h

theorem of_rx {s t : State} (h : t.rx = s.rx) : RingsHeld s t := ⟨fun _ => by rw [h]⟩

end RingsHeld

theorem Told.rx {s t : State} (h : Told s t) : t.rx = s.rx := by
  obtain ⟨csr, out, snap, agenda, seq, free, path, dirty, rfl⟩ := h; rfl
theorem Beside.rx {s t : State} (h : Beside s t) : t.rx = s.rx := by rw [h.same]

theorem Told.ringsHeld {s t : State} (h : Told s t) : RingsHeld s t := .of_rx h.rx
theorem Beside.ringsHeld {s t : State} (h : Beside s t) : RingsHeld s t := .of_rx h.rx
theorem Traffic.ringsHeld {s t : State} (h : Traffic s t) : RingsHeld s t := h.beside.ringsHeld

section
variable (s : State)

theorem State.setF_ringsHeld (f : CsrField) (i v : Nat) : RingsHeld s (s.setF f i v) := .of_rx rfl
theorem State.csrPut_ringsHeld (c : Csr) (i : Nat) (v : BitVec 128) : RingsHeld s (s.csrPut c i v) := .of_rx rfl
theorem State.modTask_ringsHeld (t : Nat) (f : Task → Task) : RingsHeld s (s.modTask t f) := .of_rx rfl
theorem State.modStream_ringsHeld (d n : Nat) (f : Stream → Stream) : RingsHeld s (s.modStream d n f) := .of_rx rfl
theorem State.modCore_ringsHeld (c : Nat) (f : CoreSt → CoreSt) : RingsHeld s (s.modCore c f) := .of_rx rfl
theorem State.modBank_ringsHeld (b : Nat) (f : Bank → Bank) : RingsHeld s (s.modBank b f) := .of_rx rfl
theorem State.modCluster_ringsHeld (c : Nat) (f : ClusterSt → ClusterSt) : RingsHeld s (s.modCluster c f) := .of_rx rfl
theorem State.modGroup_ringsHeld (g : Nat) (f : Group → Group) : RingsHeld s (s.modGroup g f) := .of_rx rfl
theorem State.launches_ringsHeld (l : SMap Launch) : RingsHeld s { s with launches := l } := .of_rx rfl
theorem State.tasks_ringsHeld (m : SMap Task) : RingsHeld s { s with tasks := m } := .of_rx rfl
theorem State.modDie_ringsHeld (d : Nat) (f : DieSt → DieSt) : RingsHeld s (s.modDie d f) := .of_rx rfl
theorem State.unsched_ringsHeld (f : Due → Bool) : RingsHeld s (s.unsched f) := .of_rx rfl
theorem State.sched_ringsHeld (time ph : Nat) (ev : Ev) : RingsHeld s (s.sched time ph ev) := .of_rx rfl

/-! Slots that are freed (R61) -/

theorem State.freeRx_ringsHeld (t : Task) : RingsHeld s (s.freeRx t) := by
  unfold State.freeRx
  split
  · exact .refl s
  · next ring slot _ =>
    refine ⟨fun k => ?_⟩
    show ((s.rx.upd (512 * t.die + ring) fun r => { r with occ := r.occ.filter (· ≠ slot) }).look k).unoccupied = _
    rw [SMap.look_upd]
    split
    · next e => rw [e]; rfl
    · rfl

theorem State.freeTx_ringsHeld (t : Task) : RingsHeld s (s.freeTx t) := by
  unfold State.freeTx
  split
  · exact .refl s
  · exact .of_rx rfl

/-! Levels of sessions and power (R24, R25, R127, R128) -/

theorem State.fitSpad_ringsHeld (die n : Nat) : RingsHeld s (s.fitSpad die n) :=
  .ite (.refl s) (.fold _ s fun t _ _ => .ite (.refl t) (.of_rx rfl))

theorem State.undefer_ringsHeld (die session : Nat) : RingsHeld s (s.undefer die session) := by
  refine .fold _ s fun t e _ => ?_
  split
  · exact .refl t
  · exact .of_rx rfl

theorem State.levelShown_ringsHeld (die session level : Nat) : RingsHeld s (s.levelShown die session level) :=
  ((s.vec_told _ 4).ringsHeld.trans (.fold _ _ fun t _ _ => t.fitSpad_ringsHeld _ _)).trans
    (.ite (State.undefer_ringsHeld _ _ _) (.refl _))

theorem State.applyLevel_ringsHeld (die session level : Nat) : RingsHeld s (s.applyLevel die session level) := by
  rw [s.applyLevel_eq]
  exact .ite (.refl s) (((s.setF_ringsHeld _ _ _).trans (State.setF_ringsHeld _ _ _ _)).trans (State.levelShown_ringsHeld _ _ _ _))

theorem State.changeLevel_ringsHeld (die session level : Nat) : RingsHeld s (s.changeLevel die session level) :=
  .ite ((s.sched_ringsHeld _ _ _).trans (State.sendPair_told _ _ _).ringsHeld) (s.applyLevel_ringsHeld _ _ _)

theorem State.periodEnd_ringsHeld (t : Task) (committed : Bool) : RingsHeld s (s.periodEnd t committed) :=
  .ite (.refl s) (.ite ((s.setF_ringsHeld _ _ _).trans (.ite (.of_rx rfl) (.refl _))) (s.setF_ringsHeld _ _ _))

theorem State.l1CleanAll_ringsHeld (cores : List Nat) : RingsHeld s (s.l1CleanAll cores) :=
  .fold _ s fun t _ _ => (RingsHeld.fold _ t fun u _ _ => (u.l1WriteBack_beside _ _ _).ringsHeld).trans (State.modCore_ringsHeld _ _ _)

theorem State.gate_ringsHeld (cl : Nat) : RingsHeld s (s.gate cl) :=
  ((s.l1CleanAll_ringsHeld _).trans (.fold _ _ fun t _ _ => t.modCore_ringsHeld _ _)).trans (State.modCluster_ringsHeld _ _ _)

theorem State.capStepOnce_ringsHeld (die : Nat) : RingsHeld s (s.capStepOnce die) := by
  unfold State.capStepOnce
  extract_lets lv k t
  have stepped : RingsHeld s t := s.modDie_ringsHeld _ _
  clear_value t
  clear_value k
  rcases k with _ | _ | n
  · exact stepped
  · exact stepped.trans (.fold _ _ fun u _ _ => .ite (.refl u) (u.gate_ringsHeld _))
  · cases t.capSession die fun x => decide (lv x < 2) with
    | some x => exact stepped.trans (t.changeLevel_ringsHeld _ _ _)
    | none =>
      cases t.capSession die fun x => lv x = 2 && t.hasStream die x 0 with
      | some x => exact stepped.trans (t.changeLevel_ringsHeld _ _ _)
      | none => exact stepped

theorem State.powerUpdate_ringsHeld (die : Nat) : RingsHeld s (s.powerUpdate die) := by
  unfold State.powerUpdate
  extract_lets l awake w t
  have noted : RingsHeld s t := .of_rx rfl
  exact noted.trans (t.setTherm_told _ _ _).ringsHeld

theorem State.taskBoundary_ringsHeld (die : Nat) : RingsHeld s (s.taskBoundary die) :=
  ((s.powerUpdate_ringsHeld die).trans (.ite (.fold _ _ fun t _ _ => (t.dirty_told _ _).ringsHeld) (.refl _))).trans
    (.ite (State.modDie_ringsHeld _ _ _) (.ite (.refl _) (State.capStepOnce_ringsHeld _ die)))

/-! Measurements, records and status (R86, R125, R189) -/

theorem State.vwriteOr_ringsHeld (die part task cls va : Nat) (b : List Byte) {u : State} (h : RingsHeld s u) :
    RingsHeld s ((s.vwrite die part task cls va b).getD u) := by
  cases e : s.vwrite die part task cls va b with
  | none => exact h
  | some t => exact (State.vwrite_beside e).ringsHeld

theorem State.rplRestore_ringsHeld (t : Task) : RingsHeld s (s.rplRestore t) :=
  .fold _ s fun u _ _ => .ite (.refl u) ((RingsHeld.fold _ u fun v _ _ => v.csrPut_ringsHeld _ _ _).trans (State.modCore_ringsHeld _ _ _))

theorem State.rplResults_ringsHeld (cl : Nat) (t : Task) : RingsHeld s (s.rplResults cl t) := by
  have put (u : State) (va : Nat) (b : List Byte) : RingsHeld u (match u.vwrite t.die t.part 0 3 va b with
      | some v => v
      | none => u.setF CCC_RPL_CTL.STATE cl 2) := by
    split
    · next h => exact (State.vwrite_beside h).ringsHeld
    · exact u.setF_ringsHeld _ _ _
  exact (RingsHeld.fold _ s fun u _ _ => put u _ _).trans (.fold _ _ fun u _ _ => put u _ _)

theorem State.rplAbort_ringsHeld (t : Nat) : RingsHeld s (s.rplAbort t) :=
  .ite ((((s.rplRestore_ringsHeld _).trans (State.rplResults_ringsHeld _ _ _)).trans
    (.ite (.refl _) (State.setF_ringsHeld _ _ _ _))).trans (State.modCluster_ringsHeld _ _ _)) (.refl s)

theorem State.appendRecord_ringsHeld (t outcome reason : Nat) : RingsHeld s (s.appendRecord t outcome reason) := by
  unfold State.appendRecord
  extract_lets k i head va u
  have headed : RingsHeld s u := (s.setF_ringsHeld _ _ _).trans (State.modTask_ringsHeld _ _ _)
  refine .ite (.refl s) (headed.trans ?_)
  split
  · next h => exact (State.vwrite_beside h).ringsHeld
  · exact u.setF_ringsHeld _ _ _

theorem State.statusPair_ringsHeld (die part task cls done doneVal tag : Nat) (intr : Bool) (outcome reason : Nat) :
    RingsHeld s (s.statusPair die part task cls done doneVal tag intr outcome reason) :=
  ((s.vwriteOr_ringsHeld _ _ _ _ _ _ (.refl s)).trans (State.vwriteOr_ringsHeld _ _ _ _ _ _ _ (.refl _))).trans
    (.ite (State.vec_told _ _ _).ringsHeld (.refl _))

theorem State.teamRelease_ringsHeld (t : Task) (scope : Nat) : RingsHeld s (s.teamRelease t scope) :=
  .fold _ s fun u _ _ => (u.releaseActs_beside _ _ _ _).ringsHeld

theorem State.taskStatus_ringsHeld (id outcome reason : Nat) : RingsHeld s (s.taskStatus id outcome reason) := by
  unfold State.taskStatus
  extract_lets t reset one u
  have released : RingsHeld s u := .ite (s.teamRelease_ringsHeld _ _) (.refl s)
  have told (v : State) (o r : Nat) : RingsHeld v (one v o r) := .ite (v.statusPair_ringsHeld _ _ _ _ _ _ _ _ _ _) (.refl v)
  refine released.trans ?_
  split
  · exact told u _ _
  · exact (u.launches_ringsHeld _).trans (.ite (.refl _) (.ite (State.statusPair_ringsHeld _ _ _ _ _ _ _ _ _ _ _) (.refl _)))

/-! The end of a task by an abort (R123) -/

theorem State.stopCmds_ringsHeld (t : Nat) : RingsHeld s (s.stopCmds t) := by
  unfold State.stopCmds
  extract_lets gone loads waits u v
  have granted : v.rx = u.rx := iteInduction (motive := fun w : State => w.rx = u.rx)
    (fun _ => foldl_keeps (f := fun w j => w.sched w.now phMem (.subscriptionGrant (Fin.ofNat 8 j))) (P := fun w : State => w.rx = u.rx)
      (List.range 8) (fun _ _ _ h => h) u rfl) (fun _ => rfl)
  clear_value v
  exact .of_rx granted

theorem State.enginesNext_ringsHeld (die : Nat) : RingsHeld s (s.enginesNext die) := by
  refine .fold _ s fun t e _ => ?_
  unfold State.engineNext
  refine .ite (.refl t) ?_
  split
  · exact .refl t
  · exact .of_rx rfl

theorem State.retire_ringsHeld (t : Nat) (st : TState) : RingsHeld s (s.retire t st) := by
  unfold State.retire
  extract_lets k u v w
  have freed : RingsHeld s u := (s.freeRx_ringsHeld _).trans (State.periodEnd_ringsHeld _ _ _)
  have left : RingsHeld u v := u.modGroup_ringsHeld _ _
  have marked : RingsHeld v w := (v.modTask_ringsHeld _ _).trans (.fold _ _ fun x _ _ => x.modTask_ringsHeld _ _)
  exact (((freed.trans left).trans marked).trans (.ite (w.fitSpad_ringsHeld _ _) (.refl w))).trans (State.taskBoundary_ringsHeld _ _)

theorem State.discardCore_ringsHeld (t core ctx : Nat) : RingsHeld s (s.discardCore t core ctx) :=
  (s.modCore_ringsHeld _ _).trans (State.modBank_ringsHeld _ _ _)

theorem State.retiredAborted_ringsHeld (t reason : Nat) : RingsHeld s (s.retiredAborted t reason) := by
  have discarded : RingsHeld s (if (s.task t).resident
      then (s.task t).idxs.foldl (fun u i => u.discardCore t ((s.task t).coreAt i) (s.task t).ctx) (s.stopTask t) else s.stopTask t) :=
    (s.unsched_ringsHeld _).trans (.ite (.fold _ _ fun u _ _ => u.discardCore_ringsHeld _ _ _) (.refl _))
  have stopped := ((discarded.trans (State.stopCmds_ringsHeld _ t)).trans (State.enginesNext_ringsHeld _ (s.task t).die)).trans
    (State.freeTx_ringsHeld _ (s.task t))
  have ended := (stopped.trans (State.dirty_told _ (s.task t).die (s.task t).session).ringsHeld).trans (State.rplAbort_ringsHeld _ t)
  exact ((ended.trans (State.appendRecord_ringsHeld _ _ _ _)).trans (State.taskStatus_ringsHeld _ _ _ _)).trans
    (State.retire_ringsHeld _ _ _)

theorem State.abort_ringsHeld (t reason : Nat) : RingsHeld s (s.abort t reason) := by
  have marked : RingsHeld s ((s.retiredAborted t reason).modTask t fun x => { x with run := .aborting, awaitSvc := false }) :=
    (s.retiredAborted_ringsHeld t reason).trans (State.modTask_ringsHeld _ _ _)
  rw [s.abort_eq]
  exact .ite (marked.trans (.fold _ _ fun u _ _ => (u.kick_traffic _ _ _).ringsHeld)) marked

/-! The release of a task (R116, R127) -/

theorem State.dropTask_ringsHeld (t : Nat) : RingsHeld s (s.dropTask t) :=
  (((s.freeRx_ringsHeld _).trans (State.freeTx_ringsHeld _ _)).trans (State.unsched_ringsHeld _ _)).trans (State.modTask_ringsHeld _ _ _)

theorem State.defer_ringsHeld (t : Nat) : RingsHeld s (s.defer t) := by
  unfold State.defer
  extract_lets k st u v
  have dropped : RingsHeld s u := by
    show RingsHeld s (match st.deferred with | some u => s.dropTask u | none => s)
    split
    · exact s.dropTask_ringsHeld _
    · exact .refl s
  exact dropped.trans (.of_rx rfl)

theorem State.release_ringsHeld (die n relNs dlNs : Nat) (late : Bool) (f : Task → Task) :
    RingsHeld s (s.release die n relNs dlNs late f).2 := by
  unfold State.release
  extract_lets st
  split
  · exact .refl s
  · split
    next id u e =>
    extract_lets r0 r dab0 dord0 dab dord level t v w x y z
    have named : RingsHeld s u := (congrArg (fun p : Nat × State => RingsHeld s p.2) e).mp s.newId_traffic.ringsHeld
    have noted : RingsHeld u w := (u.tasks_ringsHeld _).trans (v.modStream_ringsHeld _ _ _)
    have checked : RingsHeld w x := .ite (w.sched_ringsHeld _ _ _) (.refl w)
    have formed : RingsHeld s x := (named.trans noted).trans checked
    have planned : RingsHeld x z := (x.modStream_ringsHeld _ _ _).trans (y.sched_ringsHeld _ _ _)
    split
    · exact formed.trans (x.abort_ringsHeld _ _)
    split
    · exact formed.trans (x.defer_ringsHeld _)
    · exact (formed.trans planned).trans (.ite (z.sched_ringsHeld _ _ _) (.refl z))

end

end Sys2Proof.Machine
end


section
/-! PROOFS. Messages of the endpoint: taken, counted and published (R56 to R61, R63), for O50. -/
namespace Sys2Proof.Machine

open Sys2Proof.Spec

/-! What the endpoint writes (R152) -/

section
variable (s : State)

theorem State.stackDrop_beside (part la : Nat) (data : List Byte) (mask : List Bool) : Beside s (s.stackDrop part la data mask) := by
  unfold State.stackDrop
  simp only
  split
  · exact s.memStoreMasked_beside _ _ _
  split
  · exact (s.stackStore_beside _ _ _).trans (State.modDie_beside _ _ _)
  · exact s.stackStore_beside _ _ _

theorem State.epWrite_beside (die part va : Nat) (b : List Byte) : Beside s (s.epWrite die part va b) :=
  .fold _ s fun t _ _ => .ite (.refl t) (t.byLines_beside _ _ _ fun u _ _ _ => u.stackDrop_beside _ _ _ _)

end

/-! A message that is taken (R59, R60) -/

/-- A receive ring but for the translations that its messages wait for. -/
def RxRing.unlooked (r : RxRing) : RxRing := { r with pubQ := r.pubQ.map fun x => { x with look := [] } }

/-- A change that leaves memory alone, and a ring but for the translations that its messages wait for. -/
structure SlotsAsked (k : Nat) (s t : State) : Prop where
  mem : t.mem = s.mem
  ring : (t.rx.look k).unlooked = (s.rx.look k).unlooked

theorem SlotsAsked.refl (k : Nat) (s : State) : SlotsAsked k s s := ⟨rfl, rfl⟩

theorem SlotsAsked.trans {k : Nat} {s t u : State} (h : SlotsAsked k s t) (g : SlotsAsked k t u) : SlotsAsked k s u :=
  ⟨g.mem.trans h.mem, g.ring.trans h.ring⟩

theorem Traffic.slotsAsked {s t : State} (h : Traffic s t) (k : Nat) : SlotsAsked k s t := ⟨h.mem, by rw [h.beside.rx]⟩

section
variable (s : State)

theorem State.rxTransfer_traffic (die ring va n : Nat) (ev : Ev) : Traffic s (s.rxTransfer die ring va n ev).2 := by
  unfold State.rxTransfer
  extract_lets k part st
  split
  · next h => exact (State.epFind_traffic h).trans (.ite (State.schedWithin_traffic _ _ _ _) (State.hbm_traffic _ _ _ _ _ _ _ _))
  · next h => exact State.epFind_traffic h
  · next h => exact (State.epFind_traffic h).trans (State.sched_traffic _ _ _ _ _ _)

/-- The translations that a message of a ring waits for change. -/
def State.updLook (die ring id : Nat) (f : List Nat → List Nat) : State :=
  { s with rx := s.rx.upd (512 * die + ring) fun r =>
    { r with pubQ := r.pubQ.map fun y => if y.id = id then { y with look := f y.look } else y } }

theorem State.updLook_asked (die ring id : Nat) (f : List Nat → List Nat) :
    SlotsAsked (512 * die + ring) s (s.updLook die ring id f) := by
  refine ⟨rfl, ?_⟩
  unfold State.updLook RxRing.unlooked
  rw [SMap.look_upd_same]
  simp only [List.map_map]
  congr 1
  refine List.map_congr_left fun y _ => ?_
  simp only [Function.comp_apply]
  split <;> rfl

theorem State.rxPut_asked (home ring : Nat) (x : PubMsg) (put : Nat) : SlotsAsked (512 * home + ring) s (s.rxPut home ring x put) := by
  unfold State.rxPut
  extract_lets d k ev
  split
  next f t e =>
  have moved : Traffic s t := by
    have both : Traffic s (if put % 2 = 1 then s.rxTransfer d ring (8 * s.getF UEE_RXQ_CFG.PUB k) 8 ev
        else s.rxTransfer d ring (s.rxSlotVa k x.slot) (x.b.length + (if x.wait.contains (put + 1) then 0 else 8)) ev).2 := by
      split
      · exact s.rxTransfer_traffic _ _ _ _ _
      · exact s.rxTransfer_traffic _ _ _ _ _
    rwa [e] at both
  extract_lets mark
  exact (moved.slotsAsked _).trans (t.updLook_asked home ring x.id mark)

/-- The message that a ring takes: the ring's next slot, and its bytes with the time of its arrival. -/
def State.rxMessage (die ring : Nat) (m : SensorMsg) : PubMsg :=
  let k := 512 * die + ring
  let slot := ((s.rx.look k).tail + (s.rx.look k).pubQ.length) % s.rxSlots k
  let b := m.bytes.take 24 ++ natLe 8 s.deviceTime ++ m.bytes.drop 32
  let both := s.rxCopies die ring
  { id := s.nextId, slot := slot, release := leNat (b.take 8), deadline := leNat ((b.drop 8).take 8)
    seq := leNat ((b.drop 16).take 4), source := m.source, b := b, both := both
    wait := s.rxPuts die ring slot ++ (if both then s.rxPuts (partnerOf die) ring slot else []) }

/-- A ring with a message queued and its slot occupied. -/
def RxRing.queued (x : PubMsg) (r : RxRing) : RxRing := { r with pubQ := r.pubQ ++ [x], occ := r.occ ++ [x.slot] }

def State.rxQueued (die ring : Nat) (x : PubMsg) : State :=
  let k := 512 * die + ring
  let s : State := { s with nextId := s.nextId + 1, rx := s.rx.upd k (RxRing.queued x) }
  s.setF UEE_RXQ_STAT.OCC k (s.rx.look k).occ.length

theorem State.rxQueued_look (die ring : Nat) (x : PubMsg) :
    (s.rxQueued die ring x).rx.look (512 * die + ring) = (s.rx.look (512 * die + ring)).queued x :=
  s.rx.look_upd_same (512 * die + ring) (RxRing.queued x)

theorem State.rxAccept_eq (die ring : Nat) (m : SensorMsg) : s.rxAccept die ring m =
    (s.rxMessage die ring m).wait.foldl (fun t p => t.rxPut die ring (s.rxMessage die ring m) p)
      (s.rxQueued die ring (s.rxMessage die ring m)) := rfl

/-- The ring's next slot. -/
def State.rxNext (k : Nat) : Nat := ((s.rx.look k).tail + (s.rx.look k).pubQ.length) % s.rxSlots k

theorem State.rxAccept_takes (die ring : Nat) (m : SensorMsg) :
    let k := 512 * die + ring
    let o := s.rx.look k
    let t := s.rxAccept die ring m
    (t.rx.look k).occ = o.occ ++ [s.rxNext k] ∧ (t.rx.look k).tail = o.tail ∧
    (t.rx.look k).pubQ.length = o.pubQ.length + 1 ∧ t.mem = s.mem ∧
    ∃ x ∈ (t.rx.look k).pubQ, x.slot = s.rxNext k ∧ x.source = m.source ∧
      x.b = m.bytes.take 24 ++ natLe 8 s.deviceTime ++ m.bytes.drop 32 := by
  intro k o t
  let x := s.rxMessage die ring m
  have queued : (s.rxQueued die ring x).rx.look k = o.queued x := s.rxQueued_look die ring x
  have asked : SlotsAsked k (s.rxQueued die ring x) t := by
    show SlotsAsked k _ (s.rxAccept die ring m)
    rw [s.rxAccept_eq]
    exact foldl_rel (SlotsAsked.refl k) SlotsAsked.trans _ _ fun u p _ => u.rxPut_asked die ring x p
  have same := asked.ring
  rw [queued] at same
  have messages : (t.rx.look k).pubQ.map (fun y => { y with look := [] }) = (o.pubQ ++ [x]).map (fun y => { y with look := [] }) :=
    (congrArg RxRing.pubQ same :)
  have last : { x with look := [] } ∈ (t.rx.look k).pubQ.map (fun y => { y with look := [] }) := by
    rw [messages]
    exact List.mem_map_of_mem (List.mem_append_right _ (List.mem_singleton_self x))
  obtain ⟨y, mem, e⟩ := List.mem_map.1 last
  refine ⟨(congrArg RxRing.occ same :), (congrArg RxRing.tail same :), ?_, asked.mem, y, mem, (congrArg PubMsg.slot e :),
    (congrArg PubMsg.source e :), (congrArg PubMsg.b e :)⟩
  have length := congrArg List.length messages
  simpa using length

end

/-! SENSOR_TOKEN, UNSUPPORTED_REQUEST and UUD_TIMEOUT (R56, R58 to R60) -/

/-- A message is discarded in one of the three counters of its ring. -/
theorem State.rxRefuse_counter {s : State} {k : Nat} {m : SensorMsg} {f : CsrField} (h : s.rxRefuse k m = some f) : f.hi < 128 := by
  unfold State.rxRefuse at h
  simp only at h
  split at h
  · obtain rfl := Option.some.inj h; decide
  split at h
  · obtain rfl := Option.some.inj h; decide
  split at h
  · obtain rfl := Option.some.inj h; decide
  · exact absurd h nofun

section
variable (s : State) (d : Die)

theorem sensorToken_stopped (m : SensorMsg) (off : (s.die d.val).stopped = true) : exec (.sensorToken d m) s = .next s := by
  show execSensorToken d m s = _
  unfold execSensorToken
  exact if_pos off

/-- The enabled ring that a message matches (R58). -/
def State.rxTarget (die : Nat) (m : SensorMsg) : Option Nat := (s.rxMatch die m).filter fun r => s.rxEnabled (512 * die + r)

section
variable (m : SensorMsg) (on : (s.die d.val).stopped = false)
include on

theorem sensorToken_unmatched (none : s.rxTarget d.val m = none) : Does (.sensorToken d m) s fun t =>
    t.getF UEE_DROP_NOMATCH.COUNT d.val = min (s.getF UEE_DROP_NOMATCH.COUNT d.val + 1) UEE_DROP_NOMATCH.COUNT.top ∧
    t.out = s.out ++ [.ethError d.val m.source true] ∧ t.rx = s.rx := by
  refine ⟨(s.bump UEE_DROP_NOMATCH.COUNT d.val 1).send (.ethError d.val m.source true), ?_,
    s.bump_getF UEE_DROP_NOMATCH.COUNT d.val 1 (by decide), rfl, rfl⟩
  show execSensorToken d m s = _
  unfold execSensorToken
  unfold State.rxTarget at none
  rw [if_neg (by simp [on]), none]

variable {r : Nat} (target : s.rxTarget d.val m = some r)
include target

theorem sensorToken_refused {f : CsrField} (refused : s.rxRefuse (512 * d.val + r) m = some f) : Does (.sensorToken d m) s fun t =>
    t.getF f (512 * d.val + r) = min (s.getF f (512 * d.val + r) + 1) f.top ∧ t.rx = s.rx ∧ t.mem = s.mem := by
  refine ⟨s.bump f (512 * d.val + r) 1, ?_, s.bump_getF f _ 1 (State.rxRefuse_counter refused), rfl, rfl⟩
  show execSensorToken d m s = _
  unfold execSensorToken
  unfold State.rxTarget at target
  rw [if_neg (by simp [on]), target]
  simp only [refused]

theorem exec_sensorToken_taken (taken : s.rxRefuse (512 * d.val + r) m = none) :
    exec (.sensorToken d m) s = .next (s.rxAccept d.val r m) := by
  show execSensorToken d m s = _
  unfold execSensorToken
  unfold State.rxTarget at target
  rw [if_neg (by simp [on]), target]
  simp only [taken]

end

theorem unsupportedRequest_does (src : Nat) (on : (s.die d.val).stopped = false) : Does (.unsupportedRequest d src) s fun t =>
    t.out = s.out ++ [.ethError d.val src false] ∧ t.csr = s.csr := by
  refine ⟨s.send (.ethError d.val src false), ?_, rfl, rfl⟩
  show execUnsupportedRequest d src s = _
  unfold execUnsupportedRequest
  rw [if_neg (by simp [on])]

theorem uudTimeout_counts (ring : Fin 512) (enabled : s.rxEnabled (512 * d.val + ring.val) = true)
    (mode : s.getF UEE_RXQ_CFG.MODE (512 * d.val + ring.val) = 2) : Does (.uudTimeout d ring) s fun t =>
    t.getF UEE_RXQ_STAT.BADHDR (512 * d.val + ring.val) =
      min (s.getF UEE_RXQ_STAT.BADHDR (512 * d.val + ring.val) + 1) UEE_RXQ_STAT.BADHDR.top := by
  refine ⟨s.bump UEE_RXQ_STAT.BADHDR (512 * d.val + ring.val) 1, ?_, s.bump_getF UEE_RXQ_STAT.BADHDR _ 1 (by decide)⟩
  show execUudTimeout d ring s = _
  unfold execUudTimeout
  simp only
  rw [if_pos (by simp [enabled, mode])]

theorem uudTimeout_otherMode (ring : Fin 512) (mode : s.getF UEE_RXQ_CFG.MODE (512 * d.val + ring.val) ≠ 2) :
    exec (.uudTimeout d ring) s = .next s := by
  show execUudTimeout d ring s = _
  unfold execUudTimeout
  simp only
  rw [if_neg (by simp [mode])]

end

/-! RING_PUBLISH (R60, R61, R63) -/

section
variable (s : State)

/-- A ring whose count stands after a message that has been published. -/
def RxRing.counted (x : PubMsg) (tail : Nat) (r : RxRing) : RxRing := { r with tail := (tail + 1) % 2 ^ 32, lastSrc := x.source }

/-- The ring's count and slots as a message is published. -/
def State.tailMoved (die ring : Nat) (x : PubMsg) (own : Bool) : State :=
  let k := 512 * die + ring
  let tail := ((s.rx.look k).tail + 1) % 2 ^ 32
  { s with rx := s.rx.upd k fun r => { r with tail := tail, lastSrc := x.source, occ := if own then r.occ else r.occ ++ [x.slot] } }

theorem State.tailMoved_look (die ring : Nat) (x : PubMsg) (own : Bool) (j : Nat) :
    ((s.tailMoved die ring x own).rx.look j).unoccupied =
      if j = 512 * die + ring then (s.rx.look j).unoccupied.counted x (s.rx.look j).tail else (s.rx.look j).unoccupied := by
  unfold State.tailMoved
  simp only [SMap.look_upd]
  split
  · next e => rw [e]; rfl
  · rfl

theorem State.publishOn_held (die ring : Nat) (x : PubMsg) (own : Bool) :
    RingsHeld (s.tailMoved die ring x own) (s.publishOn die ring x own) := by
  unfold State.publishOn
  extract_lets k n tail u v w va late r
  have shown : RingsHeld u v := u.setF_ringsHeld _ _ _
  have written : RingsHeld v w := (v.epWrite_beside _ _ _ _).ringsHeld
  have released : RingsHeld w r.2 := w.release_ringsHeld _ _ _ _ _ _
  have all : RingsHeld u r.2 := (shown.trans written).trans released
  have moved : s.tailMoved die ring x own = u := rfl
  rw [moved]
  clear_value r u
  split
  · exact all
  · exact all.trans (r.2.freeRx_ringsHeld _)

/-- What a ring shows of a message that it publishes. -/
structure RingPublished (k : Nat) (x : PubMsg) (s t : State) : Prop where
  pubQ : (t.rx.look k).pubQ = (s.rx.look k).pubQ
  tail : (t.rx.look k).tail = ((s.rx.look k).tail + 1) % 2 ^ 32
  lastSrc : (t.rx.look k).lastSrc = x.source

theorem RingPublished.of_ring {k : Nat} {x : PubMsg} {s t : State}
    (h : (t.rx.look k).unoccupied = (s.rx.look k).unoccupied.counted x (s.rx.look k).tail) : RingPublished k x s t := by
  obtain ⟨tail, lastSrc, pubQ⟩ := RxRing.of_unoccupied h
  exact ⟨pubQ, tail, lastSrc⟩

theorem State.publishOn_ring (die ring : Nat) (x : PubMsg) (own : Bool) :
    ((s.publishOn die ring x own).rx.look (512 * die + ring)).unoccupied =
      (s.rx.look (512 * die + ring)).unoccupied.counted x (s.rx.look (512 * die + ring)).tail :=
  ((s.publishOn_held die ring x own).ring _).trans ((s.tailMoved_look die ring x own _).trans (if_pos rfl))

/-- The partner's ring publishes its copy beside the ring of the home die. -/
theorem State.publishOn_partner (die ring : Nat) (x : PubMsg) (own : Bool) :
    ((s.publishOn (partnerOf die) ring x own).rx.look (512 * die + ring)).unoccupied =
      (s.rx.look (512 * die + ring)).unoccupied := by
  have other := partnerOf_ne die
  have same := ((s.publishOn_held (partnerOf die) ring x own).ring (512 * die + ring)).trans
    (s.tailMoved_look (partnerOf die) ring x own _)
  rwa [if_neg (by omega)] at same

/-- The messages of a ring that wait to be published. -/
def State.putQ (k : Nat) (q : List PubMsg) : State := { s with rx := s.rx.upd k fun r => { r with pubQ := q } }

theorem State.putQ_look (k : Nat) (q : List PubMsg) : (s.putQ k q).rx.look k = { s.rx.look k with pubQ := q } :=
  s.rx.look_upd_same k fun r => { r with pubQ := q }

section
variable {s} {die ring : Nat} {x : PubMsg} (one : (s.rx.look (512 * die + ring)).pubQ = [x])
include one

theorem State.publishReady_waits (waits : s.rxDone die ring x = false) : s.publishReady die ring 1 = s := by
  simp only [State.publishReady, one, waits, Bool.not_false, if_true]

theorem State.publishReady_publishes (done : s.rxDone die ring x = true) :
    (((s.publishReady die ring 1).rx.look (512 * die + ring)).pubQ = []) ∧
    ((s.publishReady die ring 1).rx.look (512 * die + ring)).tail = ((s.rx.look (512 * die + ring)).tail + 1) % 2 ^ 32 ∧
    ((s.publishReady die ring 1).rx.look (512 * die + ring)).lastSrc = x.source := by
  let u := s.putQ (512 * die + ring) []
  have left : u.rx.look (512 * die + ring) = { s.rx.look (512 * die + ring) with pubQ := [] } := s.putQ_look _ _
  have published : RingPublished (512 * die + ring) x u (s.publishReady die ring 1) := by
    have own := u.publishOn_ring die ring x true
    have e : s.publishReady die ring 1 =
        if x.both && u.rxCopies die ring then (u.publishOn die ring x true).publishOn (partnerOf die) ring x false
        else u.publishOn die ring x true := by
      simp only [State.publishReady, one, done, Bool.not_true, Bool.false_eq_true, if_false, u, State.putQ]
    rw [e]
    split
    · exact .of_ring ((State.publishOn_partner _ die ring x false).trans own)
    · exact .of_ring own
  obtain ⟨pubQ, tail, lastSrc⟩ := published
  rw [left] at pubQ tail
  exact ⟨pubQ, tail, lastSrc⟩

end

/-- A message of which a write is done. -/
def PubMsg.written (put : Nat) (x : PubMsg) : PubMsg := { x with wait := x.wait.filter (· ≠ put) }

/-- A ring whose message of a name has a write done. -/
def RxRing.written (id put : Nat) (r : RxRing) : RxRing :=
  { r with pubQ := r.pubQ.map fun y => if y.id = id then y.written put else y }

theorem State.rxWritten_look (die ring : Nat) (x : PubMsg) (put : Nat) :
    (s.rxWritten die ring x put).rx.look (512 * die + ring) = (s.rx.look (512 * die + ring)).written x.id put := by
  unfold State.rxWritten
  extract_lets d k u
  have marked : u.rx.look (512 * die + ring) = (s.rx.look (512 * die + ring)).written x.id put :=
    s.rx.look_upd_same (512 * die + ring) (RxRing.written x.id put)
  split
  · exact marked
  · rw [(u.epWrite_beside _ _ _ _).rx]
    exact marked

theorem RxRing.written_one (r : RxRing) (x : PubMsg) (put : Nat) (one : r.pubQ = [x]) :
    (r.written x.id put).pubQ = [x.written put] := by
  simp [RxRing.written, one]

theorem State.rxWritten_one {die ring : Nat} {x : PubMsg} (put : Nat) (one : (s.rx.look (512 * die + ring)).pubQ = [x]) :
    ((s.rxWritten die ring x put).rx.look (512 * die + ring)).pubQ = [x.written put] := by
  rw [s.rxWritten_look]
  exact RxRing.written_one _ x put one

section
variable (d : Die) (ring : Fin 512)

theorem ringPublish_stopped (off : (s.die d.val).stopped = true) (msg : Nat) (put : Fin 8) :
    exec (.ringPublish d ⟨ring, msg, put⟩) s = .next s := by
  show execRingPublish d ⟨ring, msg, put⟩ s = _
  unfold execRingPublish
  simp only
  rw [if_pos off]

variable (on : (s.die d.val).stopped = false) (x : PubMsg) (one : (s.rx.look (512 * d.val + ring.val)).pubQ = [x])
variable (put : Fin 8) (found : put.val ∉ x.look) (waits : put.val ∈ x.wait)
include on one found waits

/-- A write of the one message of a ring is done. -/
theorem exec_ringPublish : exec (.ringPublish d ⟨ring, x.id, put⟩) s =
    .next ((s.rxWritten d.val ring.val x put.val).publishReady d.val ring.val 1) := by
  show execRingPublish d ⟨ring, x.id, put⟩ s = _
  unfold execRingPublish
  have named : [x].find? (fun y => y.id = x.id && y.wait.contains put.val) = some x := by simp [waits]
  have left : ((s.rxWritten d.val ring.val x put.val).rx.look (512 * d.val + ring.val)).pubQ.length = 1 :=
    congrArg List.length (s.rxWritten_one put.val one)
  simp only [on, Bool.false_eq_true, if_false, one, named, List.contains_iff_mem, found, left]

end

theorem ringPublish_last (d : Die) (ring : Fin 512) (x : PubMsg) (put : Fin 8) (on : (s.die d.val).stopped = false)
    (one : (s.rx.look (512 * d.val + ring.val)).pubQ = [x]) (found : put.val ∉ x.look) (last : x.wait = [put.val]) :
    Does (.ringPublish d ⟨ring, x.id, put⟩) s fun t =>
      (t.rx.look (512 * d.val + ring.val)).pubQ = [] ∧
      (t.rx.look (512 * d.val + ring.val)).tail = ((s.rx.look (512 * d.val + ring.val)).tail + 1) % 2 ^ 32 ∧
      (t.rx.look (512 * d.val + ring.val)).lastSrc = x.source := by
  have waits : put.val ∈ x.wait := by simp [last]
  have whole : (x.written put.val).wait = [] := by simp [PubMsg.written, last]
  have done : (s.rxWritten d.val ring.val x put.val).rxDone d.val ring.val (x.written put.val) = true := by
    unfold State.rxDone
    rw [whole]
    rfl
  obtain ⟨pubQ, tail, lastSrc⟩ := State.publishReady_publishes (s.rxWritten_one put.val one) done
  rw [s.rxWritten_look] at tail
  exact ⟨_, exec_ringPublish s d ring on x one put found waits, pubQ, tail, lastSrc⟩

theorem ringPublish_more (d : Die) (ring : Fin 512) (x : PubMsg) (put : Fin 8) (on : (s.die d.val).stopped = false)
    (one : (s.rx.look (512 * d.val + ring.val)).pubQ = [x]) (found : put.val ∉ x.look) (q : Nat) (two : x.wait = [put.val, q])
    (other : q ≠ put.val) (home : q / 2 = d.val) : Does (.ringPublish d ⟨ring, x.id, put⟩) s fun t =>
      (t.rx.look (512 * d.val + ring.val)).pubQ = [{ x with wait := [q] }] ∧
      (t.rx.look (512 * d.val + ring.val)).tail = (s.rx.look (512 * d.val + ring.val)).tail := by
  have waits : put.val ∈ x.wait := by simp [two]
  have left : (x.written put.val).wait = [q] := by simp [PubMsg.written, two, other]
  have queue := s.rxWritten_one put.val one
  have open_ : (s.rxWritten d.val ring.val x put.val).rxDone d.val ring.val (x.written put.val) = false := by
    unfold State.rxDone
    rw [left]
    simp [home]
  refine ⟨_, exec_ringPublish s d ring on x one put found waits, ?_, ?_⟩
  · rw [State.publishReady_waits queue open_, queue, ← left]
    rfl
  · rw [State.publishReady_waits queue open_, s.rxWritten_look]
    rfl

end

end Sys2Proof.Machine
end

section
/-! PROOFS. Action chunks (R65, R66), for O50. -/
namespace Sys2Proof.Machine

open Sys2Proof.Spec

/-! Sorted lists and filtered maps -/

theorem sortKeys_one {α : Type} (key : α → List Nat) (a : α) : sortKeys key [a] = [a] := by simp [sortKeys]

theorem sortKeys_two {α : Type} (key : α → List Nat) (a b : α) (kept : lexLt (key b) (key a) = false) : sortKeys key [a, b] = [a, b] := by
  simp [sortKeys, kept]

/-- Where one pair alone passes a test, putting a passing value at its key leaves that value first; the old pair may stay
behind it, in a map that is not in the canonical form. -/
theorem SMap.filter_ins {α : Type} {p : Nat × α → Bool} {n : Nat} {v w : α} (passes : p (n, v) = true) :
    ∀ m : SMap α, m.filter p = [(n, w)] → (m.ins n v).filter p = [(n, v)] ∨ (m.ins n v).filter p = [(n, v), (n, w)]
  | [], one => by cases one
  | (k, x) :: m, one => by
    unfold SMap.ins
    split
    · by_cases hx : p (k, x) = true
      · rw [List.filter_cons_of_pos hx] at one
        left
        rw [List.filter_cons_of_pos passes, (List.cons.inj one).2]
      · rw [List.filter_cons_of_neg hx] at one
        right
        rw [List.filter_cons_of_pos passes, one]
    next apart =>
      split
      · right
        rw [List.filter_cons_of_pos passes, one]
      · have hx : ¬ p (k, x) = true := fun hx => by
          rw [List.filter_cons_of_pos hx] at one
          exact apart (congrArg Prod.fst (List.cons.inj one).1).symm
        rw [List.filter_cons_of_neg hx] at one ⊢
        exact SMap.filter_ins passes m one

section
variable (s : State) (d : Die) (id : Nat)

/-! One send -/

theorem State.freeChunk_out : (s.freeChunk id).out = s.out := by
  obtain ⟨tx, tasks, freed⟩ := s.freeChunk_spec id
  rw [freed]

/-- The message of a chunk: with the delivery mode, the target and the index of its transmit ring. -/
def State.chunkMsg (k : Task) (ring : Nat) (b : List Byte) : Msg :=
  .ethSend k.die k.cls (s.getF UEE_TXQ_CFG.MODE (512 * k.die + ring))
    (s.rx.look (512 * k.die + s.getF UEE_TXQ_CFG.RXQ (512 * k.die + ring))).lastSrc (s.getF UEE_TXQ_CFG.RIDX (512 * k.die + ring)) b

theorem State.chunkMsg_beside {t : State} (h : Beside s t) (k : Task) (ring : Nat) (b : List Byte) :
    t.chunkMsg k ring b = s.chunkMsg k ring b := by
  unfold State.chunkMsg
  rw [h.getF UEE_TXQ_CFG.MODE _ (by decide), h.getF UEE_TXQ_CFG.RXQ _ (by decide), h.getF UEE_TXQ_CFG.RIDX _ (by decide), h.rx]

/-- A chunk's header is written, its message sent and its slot freed. -/
theorem State.sendChunk_held {r slot : Nat} (held : (s.task id).txSlot = some (r, slot)) :
    ∃ t b, Beside s t ∧ s.sendChunk id = (t.send (t.chunkMsg (s.task id) r b)).freeChunk id := by
  unfold State.sendChunk
  simp only [held]
  exact ⟨_, _, s.epWrite_beside _ _ _ _, rfl⟩

theorem State.sendChunk_sends {r slot : Nat} (held : (s.task id).txSlot = some (r, slot)) :
    ((s.sendChunk id).task id).txSlot = none ∧ ∃ b, (s.sendChunk id).out = s.out ++ [s.chunkMsg (s.task id) r b] := by
  obtain ⟨t, b, written, eq⟩ := s.sendChunk_held id held
  rw [eq, State.freeChunk_out, s.chunkMsg_beside written]
  exact ⟨State.freeChunk_txSlot _ _, b, congrArg (· ++ _) (by rw [written.same])⟩

theorem State.sendChunk_free (free : (s.task id).txSlot = none) : s.sendChunk id = s := by
  unfold State.sendChunk
  simp only [free]

theorem State.sendChunk_txSlot : ((s.sendChunk id).task id).txSlot = none := by
  cases held : (s.task id).txSlot with
  | none => rw [s.sendChunk_free id held, held]
  | some x => exact (s.sendChunk_sends id held).1

/-! The chunks of a stream (R66) -/

/-- The chunks of a stream on a die, with their tasks. -/
def chunkOf (die stream : Nat) (e : Nat × Task) : Bool :=
  e.2.die = die && e.2.stream = stream && e.2.txSlot.isSome && decide (e.2.chunkNo ≠ 0)

/-- A task whose chunk has been read. -/
def Task.chunkIn (t : Task) : Task := { t with chunkRead := true }
def State.chunkIn : State := s.modTask id Task.chunkIn

theorem State.chunkIn_task : (s.chunkIn id).task id = (s.task id).chunkIn := s.task_modTask_same id _

theorem State.chunkIn_chunks {die stream : Nat} (alone : s.tasks.filter (chunkOf die stream) = [(id, s.task id)]) :
    (s.chunkIn id).tasks.filter (chunkOf die stream) = [(id, (s.task id).chunkIn)] ∨
    (s.chunkIn id).tasks.filter (chunkOf die stream) = [(id, (s.task id).chunkIn), (id, s.task id)] := by
  have member : chunkOf die stream (id, s.task id) = true := (List.mem_filter.mp (alone ▸ List.mem_singleton.mpr rfl)).2
  have put : (s.chunkIn id).tasks = s.tasks.ins id (s.task id).chunkIn :=
    if_neg fun h : (s.task id).chunkIn = default => Bool.noConfusion (congrArg Task.chunkRead h : true = false)
  rw [put]
  exact SMap.filter_ins (v := (s.task id).chunkIn) member _ alone

theorem State.sendChunks_alone {die stream : Nat} (alone : s.tasks.filter (chunkOf die stream) = [(id, s.task id)]) :
    (s.chunkIn id).sendChunks die stream = (s.chunkIn id).sendChunk id := by
  show ((sortKeys _ ((s.chunkIn id).tasks.filter (chunkOf die stream))).takeWhile _).foldl _ _ = _
  rcases s.chunkIn_chunks id alone with one | two
  · rw [one, sortKeys_one]
    rfl
  · have read : (s.task id).chunkIn.chunkRead = true := rfl
    rw [two, sortKeys_two _ _ _ (by simp [lexLt, Task.chunkIn])]
    by_cases again : (s.task id).chunkRead = true
    · simp [read, again, State.sendChunk_free _ _ (State.sendChunk_txSlot _ id)]
    · simp [read, again]

/-! ACTION_CHUNK -/

theorem actionChunk_idle (idle : (s.task id).txSlot = none ∨ (s.die d.val).stopped = true) : exec (.actionChunk d id) s = .next s := by
  show execActionChunk d id s = _
  unfold execActionChunk
  rw [if_pos (by rcases idle with none | off <;> simp [*])]

theorem actionChunk_sends {r slot : Nat} (held : (s.task id).txSlot = some (r, slot)) (on : (s.die d.val).stopped = false)
    (asked : (s.task id).chunkLook = false)
    (alone : s.tasks.filter (chunkOf d.val (s.task id).stream) = [(id, s.task id)]) : Does (.actionChunk d id) s fun t =>
      (t.task id).txSlot = none ∧ ∃ b, t.out = s.out ++ [.ethSend d.val (s.task id).cls (s.getF UEE_TXQ_CFG.MODE (512 * d.val + r))
        (s.rx.look (512 * d.val + s.getF UEE_TXQ_CFG.RXQ (512 * d.val + r))).lastSrc (s.getF UEE_TXQ_CFG.RIDX (512 * d.val + r)) b] := by
  have home : (s.task id).die = d.val := by
    have member := (List.mem_filter.mp (alone ▸ List.mem_singleton.mpr rfl : (id, s.task id) ∈ _)).2
    simp only [chunkOf, Bool.and_eq_true, decide_eq_true_eq] at member
    exact member.1.1.1
  have sent := (s.chunkIn id).sendChunk_sends id (r := r) (slot := slot) (by rw [s.chunkIn_task]; exact held)
  rw [s.chunkIn_task] at sent
  refine ⟨(s.chunkIn id).sendChunk id, ?_, home ▸ sent⟩
  rw [← s.sendChunks_alone id alone]
  show execActionChunk d id s = _
  unfold execActionChunk
  rw [if_neg (by simp [on, held]), if_neg (by simp [asked])]
  rfl

end

end Sys2Proof.Machine
end

section
/-! PROOFS. The checkpoint engine (R67, R68), for O50. -/
namespace Sys2Proof.Machine

open Sys2Proof.Spec

/-! The engines' positions, which no write of an agent moves -/

/-- A change that leaves every checkpoint engine at its sector. -/
structure SectorsHeld (s t : State) : Prop where
  pos : ∀ d, (t.die d).ckptPos = (s.die d).ckptPos

namespace SectorsHeld

theorem refl (s : State) : SectorsHeld s s := ⟨fun _ => rfl⟩

theorem trans {s t u : State} (h : SectorsHeld s t) (k : SectorsHeld t u) : SectorsHeld s u :=
  ⟨fun d => (k.pos d).trans (h.pos d)⟩

theorem ite {s t u : State} {c : Prop} [Decidable c] (h : SectorsHeld s t) (k : SectorsHeld s u) :
    SectorsHeld s (if c then t else u) := by
  split
  · exact h
  · exact k

theorem fold {β : Type} {f : State → β → State} (l : List β) (s : State) (h : ∀ t, ∀ b ∈ l, SectorsHeld t (f t b)) :
    SectorsHeld s (l.foldl f s) := foldl_rel refl trans l s h

theorem of_dies {s t : State} (h : t.dies = s.dies) : SectorsHeld s t := ⟨fun d => by rw [State.die, State.die, h]⟩

end SectorsHeld

section
variable (s : State)

theorem State.modDie_sectors (d : Nat) (f : DieSt → DieSt) (h : ∀ k, (f k).ckptPos = k.ckptPos) : SectorsHeld s (s.modDie d f) :=
  ⟨fun e => by
    rw [State.die_modDie]
    split
    next same => rw [h, same]
    · rfl⟩

theorem State.hbmTask_sectors (j task bytes : Nat) (ev : Option Ev) (who : Nat) : SectorsHeld s (s.hbmTask j task bytes ev who) :=
  .of_dies (s.hbmTask_dies j task bytes ev who)

theorem State.stackStore_sectors (la : Nat) (b : List Byte) (m : List Bool) : SectorsHeld s (s.stackStore la b m) :=
  .of_dies (s.memStoreMasked_dies _ b m)

theorem State.llcEvict_sectors (l : Line) : SectorsHeld s (s.llcEvict l) :=
  .ite ((s.stackStore_sectors _ _ _).trans (State.hbmTask_sectors _ _ _ _ _ _)) (.refl s)

theorem State.llcPut_sectors (die part la : Nat) (fill : List Byte) (fillM : List Bool) (data : List Byte) (dirt : List Bool)
    (v : Nat) (touch : Bool) : SectorsHeld s (s.llcPut die part la fill fillM data dirt v touch) := by
  unfold State.llcPut
  extract_lets set ways upd
  split
  · exact s.modDie_sectors _ _ fun _ => rfl
  split
  · exact s.stackStore_sectors _ _ _
  next k m _ =>
    extract_lets old t u
    have taken : SectorsHeld s t := s.modDie_sectors _ _ fun _ => rfl
    have evicted : SectorsHeld t u := .ite (.refl t) (t.llcEvict_sectors old)
    exact (taken.trans evicted).trans (u.modDie_sectors _ _ fun _ => rfl)

theorem State.mergeRemote_sectors (die part la : Nat) (data : List Byte) (mask : List Bool) :
    SectorsHeld s (s.mergeRemote die part la data mask) := by
  unfold State.mergeRemote
  split
  · exact s.modDie_sectors _ _ fun _ => rfl
  · exact .refl s

theorem State.sideStore_sectors (die part la : Nat) (data : List Byte) (mask : List Bool) (v : Nat) :
    SectorsHeld s (s.sideStore die part la data mask v) :=
  .ite (.of_dies (s.memStoreMasked_dies _ _ _))
    (((SectorsHeld.ite (s.hbmTask_sectors _ _ _ _ _) (.refl s)).trans (State.llcPut_sectors _ _ _ _ _ _ _ _ _ _)).trans
      (.ite (.refl _) (State.mergeRemote_sectors _ _ _ _ _ _)))

theorem State.sched_sectors (time ph : Nat) (ev : Ev) (env : Env) (ops : List SlotOp) :
    SectorsHeld s (s.sched time ph ev env ops) := .of_dies (s.sched_dies _ _ _ _ _)
theorem State.newId_sectors : SectorsHeld s s.newId.2 := ⟨fun _ => rfl⟩
theorem State.fabric_sectors (q : SMap Fabric) : SectorsHeld s { s with fabric := q } := ⟨fun _ => rfl⟩
theorem State.ports_sectors (q : SMap PortSt) : SectorsHeld s { s with ports := q } := ⟨fun _ => rfl⟩
theorem State.freed_sectors : SectorsHeld s s.freed := .of_dies s.freed_dies

theorem State.enqueue_sectors (p target cls part : Nat) (m : FlitMsg) (control : Bool) (who : Nat) :
    SectorsHeld s (s.enqueue p target cls part m control who) :=
  .ite (s.ports_sectors _) ((s.ports_sectors _).trans (State.sched_sectors _ _ _ _ _ _))

theorem State.loopBack_sectors (a : RemoteAccess) : SectorsHeld s (s.loopBack a) :=
  (s.sched_sectors _ _ _ _ _).trans (State.freed_sectors _)

theorem State.sendAccess_sectors (f : Fabric) (cls pa : Nat) (kind : AccessKind) (b : List Byte) (mask : List Bool) (len : Nat)
    (key : List Nat) : SectorsHeld s (s.sendAccess f cls pa kind b mask len key) :=
  ((s.newId_sectors.trans (.ite (.refl _) (State.fabric_sectors _ _))).trans (State.fabric_sectors _ _)).trans
    (.ite (State.loopBack_sectors _ _) (.ite (State.sched_sectors _ _ _ _ _ _)
      ((State.enqueue_sectors _ _ _ _ _ _ _ _).trans (State.sched_sectors _ _ _ _ _ _))))

theorem State.sendWrite_sectors (f : Fabric) (cls pa : Nat) (b : List Byte) : SectorsHeld s (s.sendWrite f cls pa b) :=
  .fold _ s fun t _ _ => t.sendAccess_sectors _ _ _ _ _ _ _ _

theorem State.sideWrite_sectors (die part task cls pa : Nat) (b : List Byte) (v : Nat) :
    SectorsHeld s (s.sideWrite die part task cls pa b v) :=
  .ite (s.sendWrite_sectors _ _ _ _) (.fold _ s fun t _ _ => t.sideStore_sectors _ _ _ _ _ _)

variable {s} in
theorem State.vwrite_sectors {u : State} {die part task cls va : Nat} {b : List Byte}
    (h : s.vwrite die part task cls va b = some u) : SectorsHeld s u := by
  unfold State.vwrite at h
  split at h
  · exact absurd h nofun
  · obtain rfl := Option.some.inj h
    exact .fold _ s fun t _ _ => t.sideWrite_sectors _ _ _ _ _ _ _

end

/-! A stop (R68, R211) -/

/-- The engine of a die is stopped at a sector. -/
structure CkptStopped (d n : Nat) (s : State) : Prop where
  state : s.getF UEE_CKPT_CTL.STATE d = 2
  pos : (s.die d).ckptPos = n

theorem CkptStopped.kept {d n : Nat} {s t : State} (h : CkptStopped d n s)
    (state : t.getF UEE_CKPT_CTL.STATE d = s.getF UEE_CKPT_CTL.STATE d) (held : SectorsHeld s t) : CkptStopped d n t :=
  ⟨state.trans h.state, (held.pos d).trans h.pos⟩

section
variable {s : State} {d n : Nat} (h : CkptStopped d n s)
include h

theorem CkptStopped.mcReport (die cause : Nat) : CkptStopped d n (s.mcReport die cause) :=
  h.kept (s.mcReport_ne die cause d UEE_CKPT_CTL.STATE (.inl (by decide))) (.of_dies (s.mcReport_told die cause).dies)

theorem CkptStopped.vec (p v : Nat) : CkptStopped d n (s.vec p v) :=
  h.kept (s.vec_getF p v UEE_CKPT_CTL.STATE d) (.of_dies (s.vec_told p v).dies)

theorem CkptStopped.faultSnap (cause : Nat) : CkptStopped d n (s.faultSnap cause) :=
  h.kept (s.faultSnap_getF cause UEE_CKPT_CTL.STATE d (by decide)) (.of_dies (s.faultSnap_told cause).dies)

theorem CkptStopped.vwrite {u : State} {die part task cls va : Nat} {b : List Byte}
    (written : s.vwrite die part task cls va b = some u) : CkptStopped d n u :=
  h.kept ((State.vwrite_beside written).getF UEE_CKPT_CTL.STATE d (by decide)) (State.vwrite_sectors written)

theorem CkptStopped.setF {f : CsrField} (i v : Nat) (other : f.reg ≠ .UEE_CKPT_CTL) : CkptStopped d n (s.setF f i v) :=
  h.kept (s.getF_setF_ne f UEE_CKPT_CTL.STATE i d v fun e => other e.1.symm) (.of_dies (s.setF_dies f i v))

theorem CkptStopped.svcAwait (l : List (Nat × Nat × Nat × Nat × Nat)) : CkptStopped d n { s with svcAwait := l } :=
  ⟨h.state, h.pos⟩

theorem CkptStopped.queueRecordOf {u : State} {t : Task} {id : Nat} {r : FaultRec} {wait : Option (Nat × Nat)}
    (queued : s.queueRecordOf t id r wait = some u) : CkptStopped d n u := by
  unfold State.queueRecordOf at queued
  extract_lets i seq m at queued
  split at queued
  · cases queued
  · obtain ⟨w, written, rfl⟩ := Option.map_eq_some_iff.mp queued
    exact ((h.vwrite written).setF (f := DST_SVC_CFG.HEAD) i _ (by decide)).svcAwait _

theorem CkptStopped.recorded (t : Task) (id : Nat) (r : FaultRec) (wait : Option (Nat × Nat)) :
    CkptStopped d n ((s.queueRecordOf t id r wait).getD s) := by
  cases queued : s.queueRecordOf t id r wait with
  | none => exact h
  | some u => exact h.queueRecordOf queued

end

section
variable (s : State)

/-- The engine halted at a sector, before the stop is reported. -/
def State.ckptHalt (d n : Nat) : State :=
  (((s.ckptDrop d).setF UEE_CKPT_CTL.STATE d 2).setF UEE_CKPT_RESUME.RESUME d (ckSrc (s.die d).ckptDesc + 64 * n)).modDie d
    fun k => { k with ckptPos := n }

theorem State.ckptHalt_stopped (d n : Nat) : CkptStopped d n (s.ckptHalt d n) := by
  constructor
  · unfold State.ckptHalt
    rw [State.modDie_getF, State.getF_setF_ne _ UEE_CKPT_RESUME.RESUME UEE_CKPT_CTL.STATE _ _ _ fun e => nomatch e.1]
    exact State.getF_setF_fit _ UEE_CKPT_CTL.STATE d 2 (by decide) (by decide)
  · exact congrArg DieSt.ckptPos (State.die_modDie_same _ d _)

theorem State.ckptStop_stopped (d n cause : Nat) : CkptStopped d n (s.ckptStop d n cause) := by
  have halted := s.ckptHalt_stopped d n
  refine CkptStopped.faultSnap (.vec ?_ _ _) cause
  show CkptStopped d n (if _ then (s.ckptHalt d n).mcReport d cause else ((s.ckptHalt d n).queueRecordOf _ 0 _ _).getD (s.ckptHalt d n))
  split
  · exact halted.mcReport d cause
  · exact halted.recorded _ _ _ _

/-! CKPT_DONE and CKPT_FAULT -/

variable (d : Die)

theorem ckptDone_idle (idle : s.getF UEE_CKPT_CTL.STATE d.val ≠ 1 ∨ 64 * (s.die d.val).ckptPos < ckLen (s.die d.val).ckptDesc) :
    exec (.ckptDone d) s = .next s := by
  show execCkptDone d s = _
  unfold execCkptDone
  rw [if_pos (by rcases idle with off | early <;> simp [*])]

theorem ckptFault_idle (idle : s.getF UEE_CKPT_CTL.STATE d.val ≠ 1) (n : Nat) : exec (.ckptFault d n) s = .next s := by
  show execCkptFault d n s = _
  unfold execCkptFault
  exact if_pos idle

variable (runs : s.getF UEE_CKPT_CTL.STATE d.val = 1)
include runs

theorem ckptDone_ends {u : State} (whole : ckLen (s.die d.val).ckptDesc ≤ 64 * (s.die d.val).ckptPos)
    (written : s.vwrite d.val (ckPart d.val) 0 3 (ckDone (s.die d.val).ckptDesc) (((s.die d.val).ckptDesc.drop 40).take 8) = some u) :
    Does (.ckptDone d) s fun t => t.getF UEE_CKPT_CTL.STATE d.val = 0 ∧ t.mem = u.mem := by
  refine ⟨u.setF UEE_CKPT_CTL.STATE d.val 0, ?_, u.getF_setF_fit UEE_CKPT_CTL.STATE d.val 0 (by decide) (by decide), rfl⟩
  show execCkptDone d s = _
  unfold execCkptDone
  simp only
  rw [if_neg (by simp [runs, whole]), written]

theorem ckptFault_stops (n : Nat) : Does (.ckptFault d n) s fun t =>
    t.getF UEE_CKPT_CTL.STATE d.val = 2 ∧ (t.die d.val).ckptPos = n := by
  obtain ⟨state, pos⟩ := s.ckptStop_stopped d.val n
    (if (s.agentXlate d.val (ckPart d.val) (ckSrc (s.die d.val).ckptDesc + 64 * n) 0).1 = 0 then 0x31
      else (s.agentXlate d.val (ckPart d.val) (ckSrc (s.die d.val).ckptDesc + 64 * n) 0).1)
  refine ⟨_, ?_, state, pos⟩
  show execCkptFault d n s = _
  unfold execCkptFault
  exact if_neg (by simp [runs])

end

end Sys2Proof.Machine
end

section
/-! PROOFS. The Ethernet endpoint, checkpoints and the clock (R56 to R74): O50. -/
namespace Sys2Proof.Machine

open Sys2Proof.Spec

/-- The second boundary: what it latches, and then what it does with the latched state (R69, R71 to R73). -/
theorem ptpSecondBoundary_does (s : State) : Does .ptpSecondBoundary s fun t =>
    t.ptp.t = s.now ∧ t.getF PTC_STAT.PRIMARY 0 = s.clockDie ∧ t.ptp.s = s.boundaryTime s.ptp.offset ∧
    t.ptp.stepPending = (s.ptp.stepPending && s.clockMoves && !s.anyAdmitted) ∧
    (s.ptp.stepPending = true → s.anyAdmitted = true → t.getF PTC_STAT.STEPREF 0 = 1) ∧
    (s.clockMoves = true ∨ s.getF PTC_STAT.STATE 0 = 3 → t.incr = s.incr) ∧
    (s.clockMoves = false → s.getF PTC_STAT.STATE 0 = 0 → t.incr = 2 ^ 46) ∧
    (s.clockMoves = false → s.getF PTC_STAT.STATE 0 = 1 ∨ s.getF PTC_STAT.STATE 0 = 2 → incrMin ≤ t.incr ∧ t.incr ≤ incrMax) ∧
    (s.tickBase = none → s.tickStarts = true → t.tickBase = some s.now ∧ t.getF PTC_STAT.TICKRUN 0 = 1) ∧
    (s.tickBase ≠ none ∨ s.tickStarts = false → t.tickBase = s.tickBase) ∧
    ∃ x ∈ t.agenda, x.ev = .ptpSecondBoundary ∧ s.now < x.time := by
  have latch := s.boundaryLatched
  have run := s.clockLatched.clockRuns_run s.clockMoves
  rw [← latch.now, ← latch.tickBase, ← latch.incr, ← latch.state, ← latch.starts]
  exact ⟨_, exec_ptpSecondBoundary s, run.cycle.trans (latch.cycle.trans latch.now.symm), run.primary.trans latch.primary,
    run.second.trans latch.second, run.pending.trans latch.pending,
    fun pending busy => run.stepref.trans (latch.stepref pending busy),
    run.stays, run.freeRun, run.follows, run.starts, run.stands, run.next⟩

/-- Settles O50: each event by the lemmas on its cases, the boundary by what it latches and what follows. -/
theorem endpointEvents : Obligations.EndpointEvents := by
  intro s
  refine ⟨fun d m => ?token, fun d src on => unsupportedRequest_does s d src on, fun d ring => ?publish, fun d id => ?chunk,
    fun d => ?checkpoint, fun m => ?message, ptpSecondBoundary_does s, ?states,
    fun p => ⟨ethLinkDown_does s p, ethLinkUp_does s p⟩, ptcTimeLoRead_does s⟩
  case token =>
    exact ⟨sensorToken_stopped s d m, fun on none => sensorToken_unmatched s d m on none, fun r on target =>
      ⟨fun f refused => sensorToken_refused s d m on target refused,
        fun taken => ⟨_, exec_sensorToken_taken s d m on target taken, s.rxAccept_takes d.val r m⟩⟩⟩
  case publish =>
    exact ⟨uudTimeout_counts s d ring, uudTimeout_otherMode s d ring, ringPublish_stopped s d ring, fun x put on one found =>
      ⟨ringPublish_last s d ring x put on one found, ringPublish_more s d ring x put on one found⟩⟩
  case chunk =>
    exact ⟨actionChunk_idle s d id, fun r slot held on asked alone => actionChunk_sends s d id held on asked alone⟩
  case checkpoint =>
    exact ⟨fun off => ⟨ckptDone_idle s d (.inl off), ckptFault_idle s d off⟩, fun early => ckptDone_idle s d (.inr early),
      fun u runs whole written => ckptDone_ends s d runs whole written, fun n runs => ckptFault_stops s d runs n⟩
  case message =>
    exact ⟨ptpMessage_passed s m, fun takes plain => ⟨_, ptpMessage_announces s m takes plain, s.announce_selects m⟩,
      fun o takes timing => ⟨ptpMessage_other s m takes timing, fun some own =>
        ⟨_, ptpMessage_measures s m takes timing some own, s.measureOffset_shows o⟩⟩⟩
  case states =>
    exact ⟨lockwaitExpire_idle s, lockwaitExpire_early s, lockwaitExpire_waited s, masterLost_idle s, masterLost_holds s,
      holdmaxExpire_alarms s, holdmaxExpire_idle s⟩

end Sys2Proof.Machine
end

section
/-! PROOFS. Launches of the host (R84, R85), for O53. -/
namespace Sys2Proof.Machine

open Sys2Proof.Spec

section
variable (s : State)

/-! Pushes that are counted and dropped (R84) -/

/-- A push that is dropped is counted, and no task comes of it. -/
theorem State.lqDrop_counts (f : CsrField) (k : Nat) (h : f.hi < 128) :
    (s.lqDrop f k).getF f k = min (s.getF f k + 1) f.top ∧ (s.lqDrop f k).tasks = s.tasks :=
  ⟨(State.vec_getF _ _ _ f k).trans (s.bump_getF f k 1 h), (State.vec_told _ _ _).tasks⟩

/-- A push of a partition to a die's queue is dropped before its block is looked at. -/
def State.pushShut (d p : Nat) : Prop :=
  s.getF HIF_LQ_CFG.EN (16 * d + p) = 0 ∨ s.getF PRT_STAT.RST p = 1 ∨ s.getF SJ_STAT.READY 0 = 0 ∨ s.tickBase = none ∨
    (s.die d).stopped = true ∨ 2 ^ min 8 (s.getF HIF_LQ_CFG.DEPTH (16 * d + p)) ≤ s.lqOcc (16 * d + p)

theorem State.pushShut_iff (d p : Nat) : s.pushShut d p ↔
    (s.getF HIF_LQ_CFG.EN (16 * d + p) = 0 || s.getF PRT_STAT.RST p = 1 || s.getF SJ_STAT.READY 0 = 0 || s.tickBase.isNone ||
      (s.die d).stopped || 2 ^ min 8 (s.getF HIF_LQ_CFG.DEPTH (16 * d + p)) ≤ s.lqOcc (16 * d + p)) = true := by
  simp [State.pushShut, or_assoc]

variable (f : Fn) (d : Die)

theorem launchPush_idle (down : s.vfUp f.val = false) (b : Option (BitVec 512)) : exec (.launchPush f d b) s = .next s :=
  if_pos (by simp [down])

section
variable (up : s.vfUp f.val = true)
include up

theorem exec_launchPush_none :
    exec (.launchPush f d none) s = .next (s.lqDrop HIF_LQ_STAT.BADPUSH (16 * d.val + (f.val - 1))) :=
  if_neg (by simp [up])

theorem exec_launchPush_shut (shut : s.pushShut d.val (f.val - 1)) (b : BitVec 512) :
    exec (.launchPush f d (some b)) s = .next (s.lqDrop HIF_LQ_STAT.OVF (16 * d.val + (f.val - 1))) :=
  (if_neg (by simp [up])).trans (if_pos ((s.pushShut_iff _ _).1 shut))

theorem exec_launchPush_open (shut : ¬s.pushShut d.val (f.val - 1)) (b : BitVec 512) :
    exec (.launchPush f d (some b)) s = .next (s.launchBlock d.val (f.val - 1) (natLe 64 b.toNat)) :=
  (if_neg (by simp [up])).trans (if_neg (mt (s.pushShut_iff _ _).2 shut))

end

/-! Blocks that are rejected (R85) -/

/-- A block enters a launch queue. -/
def State.pushed (k : Nat) : State :=
  { s with lq := s.lq.upd k fun l => l.filter (fun a => decide (s.now < a + 16)) ++ [s.now] }

/-- A queue's entries have no part in what a block's check sees. -/
theorem State.pushed_blockCause (k die part : Nat) (b : List Byte) :
    (s.pushed k).blockCause die part b = s.blockCause die part b := by
  have sight : SameSight s (s.pushed k) := ⟨rfl, rfl, rfl, fun _ _ _ => rfl⟩
  unfold State.blockCause
  simp only [sight.rangeFault]
  rfl

theorem State.vwriteOr_beside (die part task cls va : Nat) (b : List Byte) : Beside s ((s.vwrite die part task cls va b).getD s) := by
  cases e : s.vwrite die part task cls va b with
  | none => exact .refl s
  | some t => exact State.vwrite_beside e

/-- A status pair changes no task, and no register but the counters of the memory system's work. -/
theorem State.statusPair_kept (die part task cls done doneVal tag : Nat) (intr : Bool) (outcome reason : Nat) :
    (s.statusPair die part task cls done doneVal tag intr outcome reason).tasks = s.tasks ∧
      ∀ f i, f.reg ∉ besideRegs →
        (s.statusPair die part task cls done doneVal tag intr outcome reason).getF f i = s.getF f i := by
  unfold State.statusPair
  extract_lets w put t
  have written : Beside s t := (s.vwriteOr_beside _ _ _ _ _ _).trans (State.vwriteOr_beside _ _ _ _ _ _ _)
  split
  · exact ⟨(t.vec_told part 2).tasks.trans written.tasks, fun f i h => (t.vec_getF part 2 f i).trans (written.getF f i h)⟩
  · exact ⟨written.tasks, written.getF⟩

/-- A block that is rejected is counted, and no task comes of it. -/
theorem State.launchBlock_rejected (die part : Nat) (b : List Byte) (bad : s.blockCause die part b ≠ 0) :
    (s.launchBlock die part b).getF HIF_LQ_STAT.REJECT (16 * die + part) =
        min (s.getF HIF_LQ_STAT.REJECT (16 * die + part) + 1) HIF_LQ_STAT.REJECT.top ∧
      (s.launchBlock die part b).tasks = s.tasks := by
  unfold State.launchBlock
  extract_lets k now t c done doneVal tag intr u rel
  have cause : c ≠ 0 := fun e => bad ((s.pushed_blockCause k die part b).symm.trans e)
  rw [if_pos cause]
  have told : u.tasks = s.tasks ∧ u.getF HIF_LQ_STAT.REJECT k = s.getF HIF_LQ_STAT.REJECT k := by
    unfold u
    split
    · exact ⟨rfl, rfl⟩
    · obtain ⟨tasks, regs⟩ := t.statusPair_kept die part 0 (natAt b 50 1 % 4) done doneVal tag intr 3 c
      exact ⟨tasks, regs _ k (by decide)⟩
  obtain ⟨counted, tasks⟩ := u.lqDrop_counts HIF_LQ_STAT.REJECT k (by decide)
  exact ⟨counted.trans (by rw [told.2]), tasks.trans told.1⟩

/-! Blocks that are accepted (R85, R116) -/

/-- The task that a release forms at its own die, neither of a shadowed stream nor of its copy. -/
def State.releaseTask (die n rel dl : Nat) : Task :=
  let st := s.stream die n
  let r := s.readyTick die n rel
  let dab := s.timeToTick dl false
  { die := die, part := st.part, stream := n, session := st.session, cls := st.cls, period := st.nextPeriod % 2 ^ 64
    r := r, dord := max dab (r + durTicks st.rdl), dabort := dab, late := false, level := s.levelOf die st.session
    copy := st.copy, shadow := st.shadow, group := st.group, ctx := st.ctx, var := st.at_ (s.levelOf die st.session) }

/-- A release of a system or bulk stream that is in time forms a task, with what its way of release carries, that is due to
become ready (R116). -/
theorem State.release_placed (die n rel dl : Nat) (f : Task → Task) (tick : s.tickBase ≠ none) (on : (s.die die).stopped = false)
    (valid : (s.stream die n).valid = true) (stays : (s.stream die n).leaving = false) (cls : 2 ≤ (s.stream die n).cls)
    (copy : (s.stream die n).copy = false) (shadow : (s.stream die n).shadow = false)
    (rst : s.getF PRT_STAT.RST (s.stream die n).part ≠ 1) (ready : s.readyTick die n rel < s.timeToTick dl false)
    (time : s.tick < s.timeToTick dl false) (keeps : ∀ t, (f t).cls = t.cls) :
    (s.release die n rel dl false f).2.task s.nextId = f (s.releaseTask die n rel dl) ∧
      DueAt (s.release die n rel dl false f).2 (.taskReady s.nextId) (max s.now (s.cycleOf (s.readyTick die n rel))) := by
  have goes : ¬(s.tickBase.isNone || (s.die die).stopped || !(s.stream die n).valid || (s.stream die n).leaving ||
      ((s.stream die n).copy && !(s.stream die n).shadow) || s.getF PRT_STAT.RST (s.stream die n).part = 1) = true := by
    simp [tick, on, valid, stays, copy, rst]
  unfold State.release
  extract_lets st cut
  have whole : cut = 0 := if_neg (by simp [st, shadow])
  have own : ¬(st.copy && st.shadow) = true := by simp [st, copy]
  rw [if_neg goes, whole]
  dsimp only [State.newId]
  rw [if_neg own, if_neg, if_neg, if_neg]
  · exact ⟨s.tasks.look_put_same s.nextId _, State.dueAt_sched _ _ _ _⟩
  · rw [keeps]; exact Nat.not_lt.2 cls
  · rw [keeps]
    have far : st.cls ≠ 1 := by simp only [st]; omega
    simp [far]
  · show ¬(false || decide (s.timeToTick dl false ≤ s.readyTick die n rel) || decide (s.timeToTick dl false ≤ s.tick)) = true
    simp [ready, time]

/-- A block without a cause of R85 names a stream of its partition that is neither a copy nor leaving. -/
theorem State.stream_of_blockCause {die part : Nat} {b : List Byte} (good : s.blockCause die part b = 0) :
    (s.stream die (natAt b 48 2 % 1024)).valid = true ∧ (s.stream die (natAt b 48 2 % 1024)).part = part ∧
      (s.stream die (natAt b 48 2 % 1024)).copy = false ∧ (s.stream die (natAt b 48 2 % 1024)).leaving = false := by
  unfold State.blockCause at good
  extract_lets word st at good
  have own : ¬(!st.valid || st.part ≠ part || st.copy || st.leaving) = true := fun bad =>
    absurd ((if_pos bad).symm.trans good) Nat.one_ne_zero
  simpa [and_assoc] using own

/-- What a launch block gives its task. -/
def blockTask (b : List Byte) (t : Task) : Task :=
  { t with
    doneVa := natAt b 32 8, doneVal := BitVec.ofNat 64 (natAt b 40 8), tag := natAt b 56 8, intr := natAt b 51 1 % 2 = 1
    hasDone := true, profile := natAt b 52 2, args := BitVec.ofNat 64 (natAt b 8 8)
    var := if 2 ≤ t.cls then { t.var with kernel := natAt b 0 8 } else t.var }

/-- The release time that a launch block asks for: 0 stands for now. -/
def State.blockRel (b : List Byte) : Nat := if natAt b 16 8 = 0 then s.deviceTime else natAt b 16 8

theorem State.launchBlock_accepted (die part : Nat) (b : List Byte) (good : s.blockCause die part b = 0) :
    s.launchBlock die part b = ((s.pushed (16 * die + part)).release die (natAt b 48 2 % 1024) (s.blockRel b) (natAt b 24 8) false
      (blockTask b)).2 :=
  if_neg (not_not.2 ((s.pushed_blockCause _ die part b).trans good))

/-- A push that is taken, with a block that is accepted for a system or bulk stream, is a release: its task carries what the
block says (R84, R85, R116). -/
theorem launchPush_releases (f : Fn) (d : Die) (b : BitVec 512) {w : List Byte} (block : w = natLe 64 b.toNat)
    (up : s.vfUp f.val = true) (free : ¬s.pushShut d.val (f.val - 1)) (good : s.blockCause d.val (f.val - 1) w = 0)
    (cls : 2 ≤ (s.stream d.val (natAt w 48 2 % 1024)).cls) (shadow : (s.stream d.val (natAt w 48 2 % 1024)).shadow = false)
    (ready : s.readyTick d.val (natAt w 48 2 % 1024) (s.blockRel w) < s.timeToTick (natAt w 24 8) false)
    (time : s.tick < s.timeToTick (natAt w 24 8) false) : Does (.launchPush f d (some b)) s fun t =>
      t.task s.nextId = blockTask w (s.releaseTask d.val (natAt w 48 2 % 1024) (s.blockRel w) (natAt w 24 8)) ∧
      DueAt t (.taskReady s.nextId) (max s.now (s.cycleOf (s.readyTick d.val (natAt w 48 2 % 1024) (s.blockRel w)))) := by
  obtain ⟨valid, own, copy, stays⟩ := s.stream_of_blockCause good
  obtain ⟨-, rst, -, tick, on, -⟩ := (by simpa only [State.pushShut, not_or] using free)
  have placed := (s.pushed (16 * d.val + (f.val - 1))).release_placed d.val (natAt w 48 2 % 1024) (s.blockRel w) (natAt w 24 8)
    (blockTask w) tick (eq_false_of_ne_true on) valid stays cls copy shadow (fun busy => rst (own ▸ busy)) ready time fun _ => rfl
  rw [← s.launchBlock_accepted d.val (f.val - 1) w good] at placed
  subst block
  exact ⟨_, exec_launchPush_open s f d up free b, placed⟩

/-- The kernel of a task of a system or bulk stream is the one its block names (R84). -/
theorem blockTask_kernel (b : List Byte) (t : Task) (cls : 2 ≤ t.cls) : (blockTask b t).var.kernel = natAt b 0 8 := by
  unfold blockTask
  simp only [if_pos cls]

end

end Sys2Proof.Machine
end

section
/-! PROOFS. Signals of the host (R88), for O53. -/
namespace Sys2Proof.Machine

open Sys2Proof.Spec

section
variable (s : State)

/-! A signal that arrives -/

section
variable (f : Fn) (i : Fin 64) (v : Word)

theorem hostSignal_idle (h : s.vfUp f.val = false ∨ s.getF PRT_STAT.RST (f.val - 1) = 1) :
    exec (.hostSignal f i v) s = .next s := if_pos (by rcases h with h | h <;> simp [h])

variable (up : s.vfUp f.val = true) (rst : s.getF PRT_STAT.RST (f.val - 1) ≠ 1)
include up rst

theorem hostSignal_dropped (off : s.getF HIF_SIG_CFG.EN (64 * (f.val - 1) + i.val) = 0) : Does (.hostSignal f i v) s fun t =>
    t.getF PRT_STAT.SIGDROP (f.val - 1) = 1 ∧ t.sigDef = s.sigDef :=
  ⟨_, (if_neg (by simp [up, rst])).trans (if_pos off), s.getF_setF_fit PRT_STAT.SIGDROP _ 1 (by decide) (by decide), rfl⟩

/-- A signal's target as its window names it: core, context, offset, value and partition. -/
def State.signalOf (p i : Nat) (v : Word) : Nat × Nat × Nat × Word × Nat :=
  let k := 64 * p + i
  (96 * s.getF HIF_SIG_CFG.DIE k + 8 * s.getF HIF_SIG_CFG.CLUSTER k + s.getF HIF_SIG_CFG.CORE k, s.getF HIF_SIG_CFG.CTX k,
    8 * s.getF HIF_SIG_CFG.OFFSET k, v, p)

theorem hostSignal_waits (on : s.getF HIF_SIG_CFG.EN (64 * (f.val - 1) + i.val) = 1) : Does (.hostSignal f i v) s fun t =>
    t.sigDef = s.sigDef ++ [s.signalOf (f.val - 1) i.val v] ∧
      ∃ y ∈ t.agenda, y.time = s.now ∧ ∃ c x, y.ev = .signalDeferredStore c x := by
  obtain ⟨y, mem, ev, time⟩ := State.dueAt_sched { s with sigDef := s.sigDef ++ [s.signalOf (f.val - 1) i.val v] } s.now phSignal
    (.signalDeferredStore (Fin.ofNat 384 (s.signalOf (f.val - 1) i.val v).1) (Fin.ofNat 8 (s.signalOf (f.val - 1) i.val v).2.1))
  exact ⟨_, (if_neg (by simp [up, rst])).trans (if_neg (by rw [on]; decide)), rfl, y, mem, time, _, _, ev⟩

end

/-! Signals that perform -/

/-- The state with no signal waiting. -/
def State.unsignalled : State := { s with sigDef := [] }

theorem State.sigDef_self {l : List (Nat × Nat × Nat × Word × Nat)} (h : s.sigDef = l) : { s with sigDef := l } = s := by rw [← h]

variable (c : Core) (x : Fin 8)

theorem signalDeferredStore_idle (none : s.sigDef = []) : exec (.signalDeferredStore c x) s = .next s := by
  show Host.Outcome.next (s.unsignalled.drainList [] s.sigDef) = _
  rw [none]
  exact congrArg Host.Outcome.next (s.sigDef_self none)

variable {s} {core ctx off p : Nat} {v : Word} (one : s.sigDef = [(core, ctx, off, v, p)])
include one

theorem exec_signalDeferredStore_one : exec (.signalDeferredStore c x) s =
    .next (if s.sigHeld core ctx then s else s.unsignalled.sigPerform core ctx off v p) := by
  show Host.Outcome.next (s.unsignalled.drainList [] s.sigDef) = _
  rw [one]
  show Host.Outcome.next (if s.sigHeld core ctx then { s with sigDef := [(core, ctx, off, v, p)] }
    else s.unsignalled.sigPerform core ctx off v p) = _
  rw [s.sigDef_self one]

theorem signalDeferredStore_held (held : s.sigHeld core ctx = true) :
    Does (.signalDeferredStore c x) s fun t => t.sigDef = s.sigDef ∧ t.cores = s.cores :=
  ⟨_, (exec_signalDeferredStore_one c x one).trans (by rw [if_pos held]), rfl, rfl⟩

section
variable (free : s.sigHeld core ctx = false) (on : (s.die (core / 96)).stopped = false)
include free on

theorem signalDeferredStore_performs (fits : (s.bank (ctxOf core ctx)).holds off 8 = true) (owned : s.ownsCluster p (core / 8) = true)
    (plain : s.capturing ((s.holder core ctx).getD 0) = false) : Does (.signalDeferredStore c x) s fun t =>
      t.sigDef = [] ∧ t.spadNat core ctx off 8 = v.toNat := by
  have performed : s.unsignalled.sigPerform core ctx off v p = s.unsignalled.spadStore core ctx off (natLe 8 v.toNat) := by
    refine (if_neg (ne_true_of_eq_false on)).trans ((if_pos (by rw [Bool.and_eq_true]; exact ⟨fits, owned⟩)).trans ?_)
    refine congrArg (fun u : State => u.spadStore core ctx off (natLe 8 v.toNat)) (if_pos ?_)
    show (!s.capturing ((s.holder core ctx).getD 0) || _) = true
    rw [plain]
    rfl
  refine ⟨_, (exec_signalDeferredStore_one c x one).trans (by rw [if_neg (ne_true_of_eq_false free), performed]), rfl, ?_⟩
  have stored := s.unsignalled.spadBytes_spadStore core ctx off (natLe 8 v.toNat)
  rw [natLe_length] at stored
  rw [State.spadNat, stored, leNat_natLe]
  exact Nat.mod_eq_of_lt v.isLt

theorem signalDeferredStore_lost (bad : (s.bank (ctxOf core ctx)).holds off 8 = false ∨ s.ownsCluster p (core / 8) = false) :
    Does (.signalDeferredStore c x) s fun t => t.sigDef = [] ∧ t.getF PRT_STAT.SIGDROP p = 1 ∧ t.cores = s.cores := by
  have lost : s.unsignalled.sigPerform core ctx off v p = s.unsignalled.setF PRT_STAT.SIGDROP p 1 := by
    refine (if_neg (ne_true_of_eq_false on)).trans (if_neg fun both => ?_)
    obtain ⟨fits, owned⟩ := (Bool.and_eq_true _ _).mp both
    exact bad.elim (ne_false_of_eq_true fits) (ne_false_of_eq_true owned)
  exact ⟨s.unsignalled.setF PRT_STAT.SIGDROP p 1,
    (exec_signalDeferredStore_one c x one).trans (by rw [if_neg (ne_true_of_eq_false free), lost]), rfl,
    State.getF_setF_fit _ PRT_STAT.SIGDROP p 1 (by decide) (by decide), rfl⟩

end

end

end Sys2Proof.Machine
end

section
/-! PROOFS. Resets of partitions: their fence and the stop of their tasks (R89, R90), for O53. -/
namespace Sys2Proof.Machine

open Sys2Proof.Spec

section
variable (s : State)

/-! The fence leaves a reset of the physical function noted -/

theorem State.freeRx_flr (t : Task) : (s.freeRx t).flr = s.flr := by
  unfold State.freeRx
  split <;> rfl

theorem State.freeTx_flr (t : Task) : (s.freeTx t).flr = s.flr := by
  unfold State.freeTx
  split <;> rfl

theorem State.dropTask_flr (t : Nat) : (s.dropTask t).flr = s.flr :=
  (State.freeTx_flr (s.freeRx (s.task t)) (s.task t)).trans (s.freeRx_flr (s.task t))

theorem State.fenceTask_flr (t : Nat) : (s.fenceTask t).flr = s.flr := by
  unfold State.fenceTask
  split <;> exact State.dropTask_flr _ t

theorem State.nextTest_flr (d : Nat) : (s.nextTest d).flr = s.flr := by
  unfold State.nextTest
  simp only
  split <;> rfl

theorem State.fenceDie_flr (p d : Nat) : (s.fenceDie p d).flr = s.flr := by
  unfold State.fenceDie
  extract_lets test t
  split
  · exact State.nextTest_flr _ d
  · rfl

theorem State.fenced_flr (p : Nat) : (s.fenced p).flr = s.flr := by
  unfold State.fenced
  extract_lets waiting t mine u w
  have dropped : t.flr = s.flr :=
    foldl_keeps (P := fun t : State => t.flr = s.flr) waiting (fun t id _ h => (t.fenceTask_flr id).trans h) s rfl
  exact foldl_keeps (P := fun t : State => t.flr = s.flr) (List.range 4) (fun t d _ h => (t.fenceDie_flr p d).trans h) w dropped

theorem State.schedWithin_flr (bound ph : Nat) (ev : Ev) : (s.schedWithin bound ph ev).flr = s.flr := rfl

theorem State.resetFence_flr (p : Nat) : (s.resetFence p).flr = s.flr := by
  rw [s.resetFence_eq]
  split
  · rfl
  · rw [State.schedWithin_flr, State.fenced_flr, State.setF_flr]

/-! What the fences show (R89) -/

/-- A reset is asked for: a fenced partition shows it already, another one does from then on. -/
theorem State.resetFence_shown (p : Part) : (s.resetFence p.val).getF PRT_STAT.RST p.val = 1 := by
  by_cases h : s.getF PRT_STAT.RST p.val = 1
  · rw [s.resetFence_eq, if_pos h]
    exact h
  · have narrow : s.getF PRT_STAT.RST p.val < 2 := s.getF_lt PRT_STAT.RST p.val
    exact (s.resetFence_does p (by omega)).1

/-- The fence of one partition lifts that of no other. -/
theorem State.resetFence_others (p q : Nat) (h : s.getF PRT_STAT.RST q = 1) : (s.resetFence p).getF PRT_STAT.RST q = 1 := by
  rw [s.resetFence_eq]
  split
  · exact h
  · next idle =>
    have other : q ≠ p := fun e => idle (e ▸ h)
    have shown := State.getF_of_csrVal (f := PRT_STAT.RST) (((s.setF PRT_STAT.RST p 1).fenced_statKept p).stat q)
    rw [State.getF_congr (State.schedWithin_csr _ _ _ _), shown, s.getF_setF_ne PRT_STAT.RST PRT_STAT.RST p q 1 fun e => other e.2]
    exact h

theorem vfFlr_idle (p : Part) (h : s.hostUp = false ∨ s.getF PRT_STAT.RST p.val = 1) : exec (.vfFlr p) s = .next s := by
  refine congrArg Host.Outcome.next ?_
  rcases h with down | fenced
  · exact if_neg (ne_true_of_eq_false down)
  · rw [s.resetFence_eq, if_pos fenced, ite_self]

theorem vfFlr_does (p : Part) (up : s.hostUp = true) (idle : s.getF PRT_STAT.RST p.val ≠ 1) : Does (.vfFlr p) s fun t =>
    t.getF PRT_STAT.RST p.val = 1 ∧ Pending s t (.resetStop p) 8000 := by
  have narrow : s.getF PRT_STAT.RST p.val < 2 := s.getF_lt PRT_STAT.RST p.val
  exact ⟨_, congrArg Host.Outcome.next (if_pos up), s.resetFence_does p (by omega)⟩

theorem pfFlr_idle (down : s.hostUp = false) : exec .pfFlr s = .next s :=
  congrArg Host.Outcome.next (if_neg (ne_true_of_eq_false down))

/-- A reset of the physical function fences every partition. -/
theorem pfFlr_does (up : s.hostUp = true) : Does .pfFlr s fun t => t.flr = true ∧ ∀ p < 16, t.getF PRT_STAT.RST p = 1 := by
  refine ⟨_, congrArg Host.Outcome.next (if_pos up), ?_, fun p hp => ?_⟩
  · exact foldl_keeps (P := fun t : State => t.flr = true) (List.range 16) (fun t p _ h => (t.resetFence_flr p).trans h) _ rfl
  · exact foldl_establishes (I := fun _ => True) (P := fun (t : State) p => t.getF PRT_STAT.RST p = 1) (List.range 16)
      (fun _ _ _ _ => trivial) (fun t p hp _ => t.resetFence_shown ⟨p, List.mem_range.1 hp⟩)
      (fun t p _ q _ h => t.resetFence_others p q h) _ trivial p (List.mem_range.2 hp)

/-! A task that a reset stops (R90) -/

/-- What is stopped of a task's commands leaves the tasks and the time alone. -/
theorem State.stopCmds_tasks (t : Nat) : (s.stopCmds t).tasks = s.tasks ∧ (s.stopCmds t).now = s.now := by
  unfold State.stopCmds
  extract_lets gone loads waits u v
  have granted : v.tasks = u.tasks ∧ v.now = u.now :=
    iteInduction (motive := fun w : State => w.tasks = u.tasks ∧ w.now = u.now)
      (fun _ => foldl_keeps (f := fun w j => w.sched w.now phMem (.subscriptionGrant (Fin.ofNat 8 j)))
        (P := fun w : State => w.tasks = u.tasks ∧ w.now = u.now) (List.range 8) (fun _ _ _ h => h) u ⟨rfl, rfl⟩)
      (fun _ => ⟨rfl, rfl⟩)
  clear_value v
  exact granted

/-- A task that a reset has stopped. -/
def State.stoppedTask (id : Nat) : Prop := (s.task id).st = .aborted ∧ (s.task id).run = .off

theorem State.leaveGroup_task (t id : Nat) : (s.leaveGroup t).task id = s.task id := rfl

theorem State.stopCmds_task (t id : Nat) : (s.stopCmds t).task id = s.task id := congrArg (·.look id) (s.stopCmds_tasks t).1

theorem State.loseTask_task (t id : Nat) : (s.loseTask t).task id =
    if id = t then { s.task t with st := .aborted, run := .off, occ := false } else s.task id := by
  unfold State.loseTask
  rw [State.task_modTask, State.leaveGroup_task, State.leaveGroup_task, State.unsched_task_view, State.unsched_task_view,
    s.stopCmds_task, s.stopCmds_task]

/-- A task that a reset stops: beyond its loss, what its cores do for it is discarded. -/
theorem State.resetTask_kept (t : Nat) : (s.resetTask t).tasks = (s.loseTask t).tasks ∧ (s.resetTask t).now = s.now ∧
    (s.resetTask t).csr = s.csr := by
  have lost : (s.loseTask t).tasks = (s.loseTask t).tasks ∧ (s.loseTask t).now = s.now ∧ (s.loseTask t).csr = s.csr :=
    ⟨rfl, (s.stopCmds_tasks t).2, (s.loseTask_kept t).2⟩
  exact iteInduction (motive := fun u : State => u.tasks = (s.loseTask t).tasks ∧ u.now = s.now ∧ u.csr = s.csr)
    (fun _ => foldl_keeps (f := fun u i => u.discardCore t ((s.task t).coreAt i) (s.task t).ctx)
      (P := fun u : State => u.tasks = (s.loseTask t).tasks ∧ u.now = s.now ∧ u.csr = s.csr) (s.task t).idxs
      (fun _ _ _ h => h) (s.loseTask t) lost) (fun _ => lost)

theorem State.resetTask_task (t id : Nat) : (s.resetTask t).task id =
    if id = t then { s.task t with st := .aborted, run := .off, occ := false } else s.task id := by
  rw [← s.loseTask_task, State.task, (s.resetTask_kept t).1]
  rfl

theorem State.resetTask_stops (t : Nat) : (s.resetTask t).stoppedTask t := by
  unfold State.stoppedTask
  rw [s.resetTask_task, if_pos rfl]
  exact ⟨rfl, rfl⟩

theorem State.resetTask_stopped (t id : Nat) (h : s.stoppedTask id) : (s.resetTask t).stoppedTask id := by
  unfold State.stoppedTask
  rw [s.resetTask_task]
  split
  · exact ⟨rfl, rfl⟩
  · exact h

/-- The tasks of a list are stopped, and neither the time nor a register changes. -/
theorem State.resetTasks_stop (l : List Nat) : (∀ id ∈ l, (l.foldl State.resetTask s).stoppedTask id) ∧
    (l.foldl State.resetTask s).now = s.now ∧ (l.foldl State.resetTask s).csr = s.csr := by
  refine ⟨?_, foldl_keeps (P := fun u : State => u.now = s.now ∧ u.csr = s.csr) l ?_ s ⟨rfl, rfl⟩⟩
  · exact foldl_establishes (I := fun _ => True) (P := State.stoppedTask) l (fun _ _ _ _ => trivial)
      (fun u t _ _ => u.resetTask_stops t) (fun u t _ id _ h => u.resetTask_stopped t id h) s trivial
  · rintro u t - ⟨now, csr⟩
    obtain ⟨-, sameNow, sameCsr⟩ := u.resetTask_kept t
    exact ⟨sameNow.trans now, sameCsr.trans csr⟩

/-! RESET_STOP (R90, R92) -/

/-- A resident task stands in the map of tasks, and a test picks it there. -/
theorem State.mem_partTasks {id p : Nat} {f : Task → Bool} (own : (s.task id).part = p) (resident : (s.task id).resident = true)
    (picked : f (s.task id) = true) : id ∈ s.partTasks p f := by
  have stands : (id, s.task id) ∈ s.tasks := by
    refine (SMap.mem_of_look s.tasks id).resolve_right fun e => ?_
    rw [State.task, e] at resident
    exact absurd resident (by decide)
  exact List.mem_map.2 ⟨_, List.mem_filter.2 ⟨stands, by simp [own, picked]⟩, rfl⟩

/-- The commands, subscriptions and fabric accesses of a partition stop. -/
def State.trafficStopped (p : Nat) : State :=
  { s with
    cmds := s.cmds.drop fun i => (s.cmds.look i).part = p
    subs := s.subs.drop fun i => (s.subs.look i).part = p
    fabric := s.fabric.drop fun i => (s.fabric.look i).part = p }

theorem resetStop_does (p : Part) : Does (.resetStop p) s fun t => Pending s t (.resetScrub p) 80000 ∧
    ∀ id, (s.task id).part = p.val → (s.task id).resident = true → (s.task id).run ≠ .draining →
      (t.task id).st = .aborted ∧ (t.task id).run = .off := by
  let l := s.partTasks p.val fun t => t.resident && t.run ≠ .draining
  let u := (l.foldl State.resetTask s).trafficStopped p.val
  let w := (List.range 4).foldl State.enginesNext u
  obtain ⟨stopped, now, -⟩ := s.resetTasks_stop l
  have calm : Calm u w := State.foldl_calm _ u fun t d _ => t.enginesNext_calm d
  refine ⟨w.schedWithin 80000 phHost (.resetScrub p), rfl, ?_, fun id own resident run => ?_⟩
  · exact Pending.of_now (w.schedWithin_pending 80000 phHost (.resetScrub p) (by decide)) (calm.now.trans now)
  · obtain ⟨st, off⟩ := stopped id (s.mem_partTasks own resident (by simp [resident, run]))
    have told := w.schedWithin_calm 80000 phHost (.resetScrub p)
    exact ⟨(told.st id).trans ((calm.st id).trans st), (told.run id).trans ((calm.run id).trans off)⟩

end

end Sys2Proof.Machine
end

section
/-! PROOFS. What the host's resets and ownership changes scrub (R81, R90, R91), for O53. -/
namespace Sys2Proof.Machine

open Sys2Proof.Spec

/-! Folds over maps -/

/-- A property of one value is kept by a change of every value that keeps it. -/
theorem SMap.foldl_upd_look {α β : Type} [Inhabited α] [DecidableEq α] {view : α → β} {g : α → α}
    (keeps : ∀ x, view (g x) = view x) (l m : SMap α) (n : Nat) :
    view ((l.foldl (fun m e => m.upd e.1 g) m).look n) = view (m.look n) := by
  refine foldl_keeps (P := fun u : SMap α => view (u.look n) = view (m.look n)) l (fun u e _ h => ?_) m rfl
  rw [SMap.look_upd]
  split
  · next same => rw [keeps, ← same, h]
  · exact h

/-! What registers that start afresh leave alone -/

/-- A change that leaves the time and the scratchpads alone, and pins no range. -/
structure Fresh (s t : State) : Prop where
  now : t.now = s.now
  spad : ∀ n, (t.core n).spad = (s.core n).spad
  pins : ∀ d, ∀ x ∈ (t.die d).lockArr, x ∈ (s.die d).lockArr

namespace Fresh

theorem refl (s : State) : Fresh s s := ⟨rfl, fun _ => rfl, fun _ _ h => h⟩

theorem trans {s t u : State} (h : Fresh s t) (k : Fresh t u) : Fresh s u :=
  ⟨k.now.trans h.now, fun n => (k.spad n).trans (h.spad n), fun d x hx => h.pins d x (k.pins d x hx)⟩

theorem ite {s t u : State} {c : Prop} [Decidable c] (h : Fresh s t) (k : Fresh s u) : Fresh s (if c then t else u) := by
  split
  · exact h
  · exact k

theorem fold {β : Type} {f : State → β → State} (l : List β) (s : State) (h : ∀ t, ∀ b ∈ l, Fresh t (f t b)) :
    Fresh s (l.foldl f s) := foldl_rel refl trans l s h

theorem of_eq {s t : State} (now : t.now = s.now) (cores : t.cores = s.cores) (dies : t.dies = s.dies) : Fresh s t :=
  ⟨now, fun n => by rw [State.core, State.core, cores], fun d x hx => by rwa [State.die, dies] at hx⟩

end Fresh

section
variable (s : State)

theorem State.csrPut_fresh (c : Csr) (i : Nat) (v : BitVec 128) : Fresh s (s.csrPut c i v) := .of_eq rfl rfl rfl
theorem State.unsched_fresh (f : Due → Bool) : Fresh s (s.unsched f) := .of_eq rfl rfl rfl

theorem State.csrFresh_fresh (c : Csr) (i : Nat) (keep : CsrField → Bool) : Fresh s (s.csrFresh c i keep) :=
  .fold _ s fun t _ _ => .ite (.of_eq rfl rfl rfl) (.refl t)

/-- The translations that are dropped stand in translators, not in the lock arrays. -/
theorem State.dropXlates_fresh (f : Xlate → Bool) : Fresh s (s.dropXlates f) := by
  refine ⟨rfl, fun n => SMap.foldl_upd_look (view := CoreSt.spad)
    (g := fun c : CoreSt => { c with tlb := c.tlb.filter fun x => !f x }) (fun _ => rfl) s.cores s.cores n, fun d x hx => ?_⟩
  have same := SMap.foldl_upd_look (view := DieSt.lockArr) (g := fun d : DieSt =>
    { d with walkTlb := d.walkTlb.filter fun x => !f x, epTlb := d.epTlb.filter fun x => !f x }) (fun _ => rfl) s.dies s.dies d
  exact same ▸ hx

/-- The registers of a launch queue, of records, services, subscriptions, registrations and edits are fresh. -/
def State.freshUnits (k : Nat) : State :=
  let none_ : CsrField → Bool := fun _ => false
  let s := ((s.csrFresh .HIF_LQ_CFG k none_).csrFresh .HIF_LQ_STAT k none_).csrFresh .DLS_TREC_CFG k none_
  let s := (s.csrFresh .DST_SVC_CFG k none_).csrFresh .DST_SVC_CTL k none_
  let s := ((s.csrFresh .DST_SAVE_BASE k none_).csrFresh .MSL_SUB_BASE k none_).csrPut .DLS_REG_CTL k 0
  (s.csrFresh .BBT_EDIT_CTL k none_).csrFresh .BBT_STAT k none_

/-- A batching table is empty, and what was due for it and for the partition's translations is not due any more. -/
def State.freshTable (p d : Nat) : State :=
  { s with bbt := s.bbt.put (16 * d + p) {} }.unsched fun e => match e.ev with
    | .bflipPerform x q | .bflipReplayDone x q => decide (x.val = d ∧ q.val = p)
    | .prtLockDone x q _ => decide (x.val = d ∧ q.val = p)
    | .tlbiDone q => decide (q.val = p)
    | _ => false

/-- The edit words and locks of a partition are fresh, and so are its entries of the endpoint's match table. -/
def State.freshRows (p d : Nat) : State :=
  let s := (List.range 4).foldl (fun s i => s.csrFresh .BBT_EDIT_DATA (4 * (16 * d + p) + i) fun _ => false) s
  let s := (List.range 16).foldl (fun s i => s.csrPut .PRT_LOCK (16 * (16 * d + p) + i) 0) s
  (List.range 4096).foldl (fun s e =>
    let n := 4096 * d + e
    if s.getF UEE_MATCH.PRT n = p then s.csrFresh .UEE_MATCH n (· = UEE_MATCH.PRT) else s) s

/-- A ring of a partition that receives is fresh. -/
def State.freshRx (p n : Nat) : State :=
  if s.getF UEE_RXQ_CFG.PRT n = p then
    { (s.csrFresh .UEE_RXQ_CFG n (· = UEE_RXQ_CFG.PRT)).csrFresh .UEE_RXQ_STAT n fun _ => false with rx := s.rx.put n {} } else s

/-- A ring of a partition that transmits is fresh. -/
def State.freshTx (p n : Nat) : State :=
  if s.getF UEE_TXQ_CFG.PRT n = p then
    { s.csrFresh .UEE_TXQ_CFG n (· = UEE_TXQ_CFG.PRT) with tx := s.tx.put n {} } else s

theorem State.freshDie_eq (p d : Nat) : s.freshDie p d = (List.range 512).foldl
    (fun s r => (s.freshRx p (512 * d + r)).freshTx p (512 * d + r)) (((s.freshUnits (16 * d + p)).freshTable p d).freshRows p d) :=
  rfl

theorem State.freshUnits_fresh (k : Nat) : Fresh s (s.freshUnits k) :=
  (((((((((s.csrFresh_fresh _ _ _).trans (State.csrFresh_fresh _ _ _ _)).trans (State.csrFresh_fresh _ _ _ _)).trans
    (State.csrFresh_fresh _ _ _ _)).trans (State.csrFresh_fresh _ _ _ _)).trans (State.csrFresh_fresh _ _ _ _)).trans
    (State.csrFresh_fresh _ _ _ _)).trans (State.csrPut_fresh _ _ _ _)).trans (State.csrFresh_fresh _ _ _ _)).trans
    (State.csrFresh_fresh _ _ _ _)

theorem State.freshTable_fresh (p d : Nat) : Fresh s (s.freshTable p d) := .of_eq rfl rfl rfl

theorem State.freshRows_fresh (p d : Nat) : Fresh s (s.freshRows p d) :=
  ((Fresh.fold _ s fun t _ _ => t.csrFresh_fresh _ _ _).trans (.fold _ _ fun t _ _ => t.csrPut_fresh _ _ _)).trans
    (.fold _ _ fun t _ _ => .ite (t.csrFresh_fresh _ _ _) (.refl t))

theorem State.rings_fresh (rx : SMap RxRing) (tx : SMap TxRing) : Fresh s { s with rx := rx, tx := tx } := .of_eq rfl rfl rfl

theorem State.freshRx_fresh (p n : Nat) : Fresh s (s.freshRx p n) :=
  .ite (((s.csrFresh_fresh _ _ _).trans (State.csrFresh_fresh _ _ _ _)).trans (State.rings_fresh _ _ _)) (.refl s)

theorem State.freshTx_fresh (p n : Nat) : Fresh s (s.freshTx p n) :=
  .ite ((s.csrFresh_fresh _ _ _).trans (State.rings_fresh _ _ _)) (.refl s)

theorem State.freshDie_fresh (p d : Nat) : Fresh s (s.freshDie p d) := by
  rw [s.freshDie_eq]
  exact (((s.freshUnits_fresh _).trans (State.freshTable_fresh _ _ _)).trans (State.freshRows_fresh _ _ _)).trans
    (.fold _ _ fun t _ _ => (t.freshRx_fresh _ _).trans (State.freshTx_fresh _ _ _))

/-- A mode that is being changed is forgotten. -/
theorem State.l1New_fresh (m : SMap (Option Bool)) : Fresh s { s with l1New := m } := .of_eq rfl rfl rfl

theorem State.freshCluster_fresh (cl : Nat) : Fresh s (s.freshCluster cl) :=
  (((((((s.csrPut_fresh _ _ _).trans (State.csrPut_fresh _ _ _ _)).trans (State.csrPut_fresh _ _ _ _)).trans
    (State.csrPut_fresh _ _ _ _)).trans (State.unsched_fresh _ _)).trans (State.l1New_fresh _ _)).trans
    (.fold _ _ fun t _ _ => t.csrPut_fresh _ _ _)).trans (.fold _ _ fun t _ _ => t.csrPut_fresh _ _ _) |>.trans
    (.fold _ _ fun t _ _ => t.csrFresh_fresh _ _ _)

/-! What a scrub zeroes (R81, R90) -/

/-- A core is scrubbed: its contexts' registers, scratchpads and energy counters read zero. -/
def State.scrubCore (now cl : Nat) (s : State) (i : Nat) : State :=
  let s := (s.modCore (8 * cl + i) fun _ => { idleTo := now }).csrPut .CCC_EIDLE (8 * cl + i) 0
  (List.range 8).foldl (fun s x =>
    (s.modBank (ctxOf (8 * cl + i) x) fun _ => { fmt := 0 }).csrPut .CCC_ECNT (ctxOf (8 * cl + i) x) 0) s

theorem State.scrubCluster_eq (cl : Nat) : s.scrubCluster cl = ((List.range 8).foldl (State.scrubCore s.now cl) s).modCluster cl
    fun c => { gated := c.gated, wakingTo := c.wakingTo, busy := c.busy, idleSince := c.idleSince } := rfl

theorem State.scrubCore_kept (now cl i : Nat) : (s.scrubCore now cl i).now = s.now ∧
    (s.scrubCore now cl i).cores = (s.modCore (8 * cl + i) fun _ => { idleTo := now }).cores := by
  unfold State.scrubCore
  extract_lets u
  have start : u.now = s.now ∧ u.cores = (s.modCore (8 * cl + i) fun _ => { idleTo := now }).cores := ⟨rfl, rfl⟩
  clear_value u
  generalize (s.modCore (8 * cl + i) fun _ => { idleTo := now }).cores = cores at *
  refine foldl_keeps (P := fun v : State => v.now = s.now ∧ v.cores = cores) (List.range 8) (fun v x _ h => ?_) u start
  rwa [State.csrPut_now, State.modBank_now, State.csrPut_cores, State.modBank_cores]

theorem State.scrubCore_spad (now cl i n : Nat) :
    ((s.scrubCore now cl i).core n).spad = if n = 8 * cl + i then [] else (s.core n).spad := by
  have core : (s.scrubCore now cl i).core n = (s.modCore (8 * cl + i) fun _ => { idleTo := now }).core n :=
    congrArg (·.look n) (s.scrubCore_kept now cl i).2
  rw [core, State.core_modCore]
  split <;> rfl

/-- A cluster's scrub empties the scratchpads of its eight cores, and no other. -/
theorem State.scrubCluster_spad (cl n : Nat) :
    ((s.scrubCluster cl).core n).spad = if ∃ i ∈ List.range 8, n = 8 * cl + i then [] else (s.core n).spad := by
  rw [s.scrubCluster_eq, State.modCluster_core_view]
  exact foldl_overwrites (look := fun (t : State) n => (t.core n).spad) (at_ := fun i n => n = 8 * cl + i) (v := fun _ => [])
    (List.range 8) (fun t i _ n => t.scrubCore_spad s.now cl i n) s n

theorem State.scrubCluster_now (cl : Nat) : (s.scrubCluster cl).now = s.now := by
  rw [s.scrubCluster_eq, State.modCluster_now]
  exact foldl_keeps (P := fun t : State => t.now = s.now) (List.range 8) (fun t i _ h => (t.scrubCore_kept s.now cl i).1.trans h) s rfl

/-- The cores of a cluster hold empty scratchpads. -/
def State.blank (cl : Nat) : Prop := ∀ i < 8, (s.core (8 * cl + i)).spad = []

theorem State.scrubCluster_blank (cl : Nat) : (s.scrubCluster cl).blank cl := fun i hi => by
  rw [s.scrubCluster_spad, if_pos ⟨i, List.mem_range.2 hi, rfl⟩]

theorem State.scrubCluster_stays (cl c : Nat) (h : s.blank c) : (s.scrubCluster cl).blank c := fun i hi => by
  rw [s.scrubCluster_spad]
  split
  · rfl
  · exact h i hi

theorem Fresh.blank {s t : State} (h : Fresh s t) {cl : Nat} (k : s.blank cl) : t.blank cl := fun i hi => (h.spad _).trans (k i hi)

theorem State.scrubWay_fresh (die way : Nat) : Fresh s (s.scrubWay die way) := by
  refine ⟨rfl, fun _ => rfl, fun d x hx => ?_⟩
  rw [State.scrubWay, State.die_modDie] at hx
  split at hx
  · next e => exact e ▸ hx
  · exact hx

/-- The clusters of a mask are scrubbed, and time stands. -/
theorem State.scrubMasks_does (clusters ways : Nat) : (s.scrubMasks clusters ways).now = s.now ∧
    ∀ c < 48, bit clusters c = true → (s.scrubMasks clusters ways).blank c := by
  let scrub (t : State) (c : Nat) : State := if bit clusters c then t.scrubCluster c else t
  let t := (List.range 48).foldl scrub s
  have ways : Fresh t (s.scrubMasks clusters ways) := .fold _ t fun t w _ => .ite (t.scrubWay_fresh _ _) (.refl t)
  have now : t.now = s.now := foldl_keeps (P := fun t : State => t.now = s.now) (List.range 48)
    (fun t c _ h => iteInduction (motive := fun u : State => u.now = s.now) (fun _ => (t.scrubCluster_now c).trans h) fun _ => h) s rfl
  refine ⟨ways.now.trans now, fun c hc on => ways.blank ?_⟩
  refine foldl_establishes (f := scrub) (I := fun _ => True) (P := fun (t : State) c => bit clusters c = true → t.blank c)
    (List.range 48) (fun _ _ _ _ => trivial) (fun u c _ _ on => ?_) (fun u c _ x _ h on => ?_) s trivial c (List.mem_range.2 hc) on
  · show (if bit clusters c then u.scrubCluster c else u).blank c
    rw [if_pos on]
    exact u.scrubCluster_blank c
  · exact iteInduction (motive := fun w : State => w.blank x) (fun _ => u.scrubCluster_stays c x (h on)) fun _ => h on

/-! PRT_SCRUB_DONE (R81) -/

/-- The clusters of an ownership change stand in its lower 48 bits. -/
theorem bit_bits_clusters (m c : Nat) (h : c < 48) : bit (bits m 47 0) c = bit m c := by
  rw [bit_eq_testBit, bit_eq_testBit, testBit_bits]
  simp [h]

theorem prtScrubDone_does (p : Part) (m : BitVec 176) (rest : List (BitVec 176)) (under : s.scrubbing.look p.val = m :: rest) :
    Does (.prtScrubDone p) s fun t => t.getF PRT_STAT.BUSY p.val = (if rest = [] then 0 else 1) ∧
      t.scrubbing.look p.val = rest ∧ ∀ c < 48, bit m.toNat c = true → ∀ i < 8, (t.core (8 * c + i)).spad = [] := by
  let u := s.scrubMasks (bits m.toNat 47 0) (bits m.toNat 175 48)
  let noted : State := { u with scrubbing := u.scrubbing.put p.val rest }
  have done : exec (.prtScrubDone p) s = .next (noted.setF PRT_STAT.BUSY p.val (if rest = [] then 0 else 1)) := by
    show execPrtScrubDone p s = _
    unfold execPrtScrubDone
    simp only [under, List.headD_cons, List.tail_cons, List.isEmpty_iff]
    rfl
  obtain ⟨-, scrubbed⟩ := s.scrubMasks_does (bits m.toNat 47 0) (bits m.toNat 175 48)
  refine ⟨_, done, noted.getF_setF_fit PRT_STAT.BUSY p.val _ (by decide) ?_, u.scrubbing.look_put_same p.val rest,
    fun c hc on => scrubbed c hc ((bit_bits_clusters _ c hc).trans on)⟩
  show (if rest = [] then 0 else 1) < 2
  split <;> decide

/-! RESET_SCRUB (R90, R91) -/

/-- A die locks no range for a partition. -/
def State.unpinned (p d : Nat) : Prop := ∀ x ∈ (s.die d).lockArr, x.part ≠ p

/-- The locked ranges of a partition leave a die's lock array. -/
def State.unpin (p d : Nat) : State := s.modDie d fun k => { k with lockArr := k.lockArr.filter fun x => decide (x.part ≠ p) }

theorem State.unpin_fresh (p d : Nat) : Fresh s (s.unpin p d) := by
  refine ⟨rfl, fun _ => rfl, fun n x hx => ?_⟩
  rw [State.unpin, State.die_modDie] at hx
  split at hx
  · next e => exact e ▸ (List.mem_filter.1 hx).1
  · exact hx

theorem State.unpin_unpinned (p d : Nat) : (s.unpin p d).unpinned p d := fun x hx => by
  rw [State.unpin, State.die_modDie_same] at hx
  exact of_decide_eq_true (List.mem_filter.1 hx).2

/-- The registers of a partition on a die are fresh, and none of its locked ranges stands there. -/
def State.scrubDie (p : Nat) (s : State) (d : Nat) : State := (s.freshDie p d).unpin p d

theorem State.scrubDie_fresh (p d : Nat) : Fresh s (s.scrubDie p d) := (s.freshDie_fresh p d).trans (State.unpin_fresh _ p d)

theorem Fresh.unpinned {s t : State} (h : Fresh s t) {p d : Nat} (k : s.unpinned p d) : t.unpinned p d := fun x hx =>
  k x (h.pins d x hx)

/-- What is left of a reset's scrub once the dies' registers are fresh. -/
def State.scrubRest (p clusters : Nat) : State :=
  let s := (List.range 48).foldl (fun s c => if bit clusters c then s.freshCluster c else s) s
  let s := (List.range 64).foldl (fun s i => s.csrFresh .HIF_SIG_CFG (64 * p + i) fun _ => false) s
  let s := (List.range 4).foldl (fun s i => s.csrPut .PRT_ATT_NONCE (4 * p + i) 0) s
  let s := (s.csrPut .PRT_ATT_CTL p 0).csrFresh .PRT_TLBI p fun _ => false
  { s with svcAwait := s.svcAwait.filter fun a => decide (a.1 % 16 ≠ p) }

theorem State.svcAwait_fresh (l : List (Nat × Nat × Nat × Nat × Nat)) : Fresh s { s with svcAwait := l } := .of_eq rfl rfl rfl

theorem State.scrubRest_fresh (p clusters : Nat) : Fresh s (s.scrubRest p clusters) :=
  (((((Fresh.fold _ s fun t _ _ => .ite (t.freshCluster_fresh _) (.refl t)).trans (.fold _ _ fun t _ _ => t.csrFresh_fresh _ _ _)).trans
    (.fold _ _ fun t _ _ => t.csrPut_fresh _ _ _)).trans (State.csrPut_fresh _ _ _ _)).trans (State.csrFresh_fresh _ _ _ _)).trans
    (State.svcAwait_fresh _ _)

/-- The tasks that a reset's scrub still finds. -/
def State.scrubTasks (p : Nat) : List Nat :=
  s.partTasks p fun t => t.resident || (match t.st with | .parked | .evicted => true | _ => false)

theorem State.schedWithin_fresh (bound ph : Nat) (ev : Ev) : Fresh s (s.schedWithin bound ph ev) := .of_eq rfl rfl rfl

theorem State.exec_resetScrub (p : Part) : exec (.resetScrub p) s = .next
    (let t := (s.scrubTasks p.val).foldl State.resetTask s
     let clusters := t.getF PRT_CLUSTERS.MASK p.val
     let u := t.scrubMasks clusters (t.getF PRT_LLC_WAYS.MASK p.val)
     let v := (List.range 4).foldl (State.scrubDie p.val) (u.dropXlates fun x => x.part = p.val)
     (v.scrubRest p.val clusters).schedWithin 712000 phHost (.resetRelease (Fin.ofNat 16 p.val))) := rfl

theorem resetScrub_does (p : Part) : Does (.resetScrub p) s fun t => Pending s t (.resetRelease p) 712000 ∧
    (∀ c < 48, bit (s.getF PRT_CLUSTERS.MASK p.val) c = true → ∀ i < 8, (t.core (8 * c + i)).spad = []) ∧
    ∀ d < 4, ∀ x ∈ (t.die d).lockArr, x.part ≠ p.val := by
  refine ⟨_, s.exec_resetScrub p, ?_⟩
  rw [Fin.ofNat_val_eq_self]
  extract_lets t clusters u v
  obtain ⟨-, now, csr⟩ := s.resetTasks_stop (s.scrubTasks p.val)
  obtain ⟨scrubTime, scrubbed⟩ := t.scrubMasks_does clusters (t.getF PRT_LLC_WAYS.MASK p.val)
  have owned : clusters = s.getF PRT_CLUSTERS.MASK p.val := State.getF_congr csr _ _
  have dies : Fresh u v := (u.dropXlates_fresh _).trans (.fold _ _ fun w d _ => w.scrubDie_fresh p.val d)
  have unpinned : ∀ d ∈ List.range 4, v.unpinned p.val d :=
    foldl_establishes (I := fun _ => True) (P := fun w : State => w.unpinned p.val) (List.range 4) (fun _ _ _ _ => trivial)
      (fun w d _ _ => (w.freshDie p.val d).unpin_unpinned p.val d) (fun w d _ x _ h => (w.scrubDie_fresh p.val d).unpinned h)
      (u.dropXlates fun x => x.part = p.val) trivial
  have rest : Fresh v (v.scrubRest p.val clusters) := v.scrubRest_fresh p.val clusters
  clear_value v
  generalize v.scrubRest p.val clusters = w at rest
  have due : Fresh w (w.schedWithin 712000 phHost (.resetRelease p)) := w.schedWithin_fresh _ _ _
  refine ⟨Pending.of_now (w.schedWithin_pending 712000 phHost (.resetRelease p) (by decide)) ?_, fun c hc on => ?_, fun d hd => ?_⟩
  · exact (dies.trans rest).now.trans (scrubTime.trans now)
  · exact ((dies.trans rest).trans due).blank (scrubbed c hc (owned ▸ on))
  · exact (rest.trans due).unpinned (unpinned d (List.mem_range.2 hd))

end

end Sys2Proof.Machine
end

section
/-! PROOFS. The end of a reset (R89, R90), for O53. -/
namespace Sys2Proof.Machine

open Sys2Proof.Spec

section
variable (s : State)

theorem State.closeSession_hostUp (die session : Nat) : (s.closeSession die session).hostUp = s.hostUp := by
  unfold State.closeSession
  split <;> rfl

theorem State.freeStream_hostUp (die n : Nat) : (s.freeStream die n).hostUp = s.hostUp := by
  unfold State.freeStream
  extract_lets st ev t u
  have ended : u.hostUp = t.hostUp := iteInduction (motive := fun v : State => v.hostUp = t.hostUp) (fun _ => rfl) fun _ => rfl
  exact (u.closeSession_hostUp _ _).trans ended

/-- A change of registers that are no status of a partition, with no message taken back. -/
structure StatTold (s t : State) : Prop where
  out : t.out = s.out
  stat : ∀ p, t.csrVal .PRT_STAT p = s.csrVal .PRT_STAT p

theorem StatTold.refl : StatTold s s := ⟨rfl, fun _ => rfl⟩

theorem StatTold.trans {s t u : State} (h : StatTold s t) (k : StatTold t u) : StatTold s u :=
  ⟨k.out.trans h.out, fun p => (k.stat p).trans (h.stat p)⟩

theorem State.csrPut_statTold (c : Csr) (i : Nat) (v : BitVec 128) (h : c ≠ .PRT_STAT) : StatTold s (s.csrPut c i v) :=
  ⟨rfl, fun _ => s.csrVal_csrPut_ne _ _ _ _ _ fun e => h e.1.symm⟩

/-- The registers of the interface that start afresh are no status of a partition. -/
theorem State.freshInterface_statTold : StatTold s s.freshInterface := by
  have fold (l : List Nat) (t : State) {f : State → Nat → State} (h : ∀ u, ∀ k ∈ l, StatTold u (f u k)) :
      StatTold t (l.foldl f t) :=
    foldl_rel StatTold.refl StatTold.trans l t h
  unfold State.freshInterface
  split
  · exact .refl s
  · extract_lets t u w
    have noted : StatTold s t := ⟨rfl, fun _ => rfl⟩
    have queues : StatTold t u := fold _ t fun x k _ => (x.csrPut_statTold _ _ _ (by decide)).trans
      (State.csrPut_statTold _ _ _ _ (by decide))
    have classes : StatTold u w := fold _ u fun x k _ => x.csrPut_statTold _ _ _ (by decide)
    exact ((noted.trans queues).trans classes).trans (fold _ w fun x k _ => x.csrPut_statTold _ _ _ (by decide))

/-- The streams of a partition are free. -/
def State.streamsFreed (p : Nat) : State :=
  ((s.streams.filter fun e => e.2.valid && e.2.part = p).map (·.1)).foldl (fun s n => s.freeStream (n / 1024) (n % 1024)) s

theorem State.streamsFreed_hostUp (p : Nat) : (s.streamsFreed p).hostUp = s.hostUp :=
  foldl_keeps (P := fun t : State => t.hostUp = s.hostUp) _ (fun t _ _ h => (t.freeStream_hostUp _ _).trans h) s rfl

/-- Vector 0 tells the end of a reset while the host reaches the module (R93). -/
theorem State.vec_zero (p : Nat) (up : s.hostUp = true) : s.vec p 0 = s.send (.msix (p + 1) 0) := if_neg (by simp [up])

theorem resetRelease_does (p : Part) : Does (.resetRelease p) s fun t =>
    t.getF PRT_STAT.RST p.val = 0 ∧ (s.hostUp = true → Msg.msix (p.val + 1) 0 ∈ t.out) := by
  let u := (s.streamsFreed p.val).setF PRT_STAT.RST p.val 0
  obtain ⟨out, stat⟩ := (u.vec p.val 0).freshInterface_statTold
  refine ⟨(u.vec p.val 0).freshInterface, rfl, ?_, fun up => ?_⟩
  · rw [State.getF_of_csrVal (f := PRT_STAT.RST) (stat p.val), State.vec_getF]
    exact State.getF_setF_fit _ PRT_STAT.RST p.val 0 (by decide) (by decide)
  · have reached : u.hostUp = true := (s.streamsFreed_hostUp p.val).trans up
    rw [out, u.vec_zero p.val reached]
    exact List.mem_append_right _ (List.mem_singleton_self _)

end

end Sys2Proof.Machine
end

section
/-! PROOFS. Launches, signals, ownership and the reset of a partition (R81, R84 to R93): O53. -/
namespace Sys2Proof.Machine

open Sys2Proof.Spec

/-- Settles O53: each event by the lemmas on its cases. -/
theorem hostEvents : Obligations.HostEvents := by
  intro s
  refine ⟨fun f d => ?launch, fun f i v => ?signal, fun c x => ?store, fun p => ?reset, pfFlr_idle s, pfFlr_does s⟩
  case launch =>
    refine ⟨launchPush_idle s f d, fun up => ?_, fun b up shut => ?_, fun b up free bad => ?_, ?_⟩
    · exact ⟨_, exec_launchPush_none s f d up, s.lqDrop_counts HIF_LQ_STAT.BADPUSH _ (by decide)⟩
    · exact ⟨_, exec_launchPush_shut s f d up shut b, s.lqDrop_counts HIF_LQ_STAT.OVF _ (by decide)⟩
    · exact ⟨_, exec_launchPush_open s f d up free b, s.launchBlock_rejected _ _ _ bad⟩
    · intro b w st rel r0 r dab up free good cls shadow ready time
      obtain ⟨t, ran, task, due⟩ := launchPush_releases s f d b (w := w) rfl up free good cls shadow ready time
      refine ⟨t, ran, ?_⟩
      beta_reduce
      rw [task]
      exact ⟨rfl, rfl, rfl, rfl, rfl, blockTask_kernel w _ cls, due⟩
  case signal =>
    exact ⟨hostSignal_idle s f i v, hostSignal_dropped s f i v, hostSignal_waits s f i v⟩
  case store =>
    exact ⟨signalDeferredStore_idle s c x, fun core ctx off v p one => ⟨signalDeferredStore_held c x one,
      signalDeferredStore_performs c x one, signalDeferredStore_lost c x one⟩⟩
  case reset =>
    exact ⟨prtScrubDone_does s p, fun down => vfFlr_idle s p (.inl down), fun _ fenced => vfFlr_idle s p (.inr fenced),
      vfFlr_does s p, resetStop_does s p, resetScrub_does s p, resetRelease_does s p⟩

end Sys2Proof.Machine
end

section
/-! PROOFS. A page that is locked twice: a counterexample to O43 (R150, R151). -/
namespace Sys2Proof.Machine

open Sys2Proof.Spec

/-- The page at address 0 of partition 0 as it was locked: read-only. -/
def formerPage : Xlate := { size := 30, entry := 0x05 }

/-- The same page as its table names it now: with W and X. -/
def changedPage : Xlate := { size := 30, entry := 0x1D }

/-- A range of partition 0 is Locked, the table entry of its page has changed since, and the walk of a second range over the
page is at its end. The root table lies at 0x100000, the table that names the page at 0x110000, in a block of the partition. -/
def relockState : State :=
  { (((((({ dies := [(0, { lockArr := [formerPage] })] } : State).setF PRT_MEM_OWN.EN 0 1).setF PRT_TT_ROOT.ROOT 0 0x10).setF
      PRT_LOCK.SIZE 0 1).setF PRT_LOCK.STATE 0 2).setF PRT_LOCK.SIZE 1 1).setF PRT_LOCK.STATE 1 1 with
    mem := putBytes (putBytes [] 0x100000 (natLe 8 0x110003)) 0x110000 (natLe 8 0x1D) }

theorem relockState_walks : relockState.lockWalk 0 1 0 [] = (0, [changedPage]) := by decide +kernel

theorem relockState_keeps : ((relockState.lockEnd 0 0 1).die 0).lockArr = [formerPage] := by decide +kernel

/-- Refutes O43: a page in two Locked ranges takes one entry of the lock array, and changes of its table entry do not affect
it until it is unlocked (R151). So what the walk of the second range finds, with the changed entry, does not enter the array. -/
theorem not_memoryRegisterEvents : ¬ Obligations.MemoryRegisterEvents := by
  intro h
  obtain ⟨-, -, -, -, hlock, -⟩ := h relockState
  obtain ⟨-, hlocked, -⟩ := hlock 0 0 1
  have walked : relockState.lockWalk 0 (relockState.getF PRT_LOCK.SIZE 1) (relockState.getF PRT_LOCK.BASE 1) [] = (0, [changedPage]) :=
    relockState_walks
  obtain ⟨t, ht, -, held, -⟩ := hlocked (by decide +kernel) (congrArg Prod.fst walked) (by decide +kernel)
  have e : relockState.lockEnd 0 0 1 = t := Host.Outcome.next.inj ht
  have entered : changedPage ∈ (t.die 0).lockArr := held changedPage <|
    (congrArg (changedPage ∈ ·.2) walked).mpr (List.mem_singleton_self _)
  rw [← e, relockState_keeps] at entered
  exact absurd entered (by decide)

end Sys2Proof.Machine
end

section
/-! PROOFS. What is told of a fault while the host link is down (R28, R83), and a counterexample to O56. -/
namespace Sys2Proof.Machine

open Sys2Proof.Spec

section
variable {s : State}

theorem State.pfVec_down (down : s.hostUp = false) (v : Nat) : s.pfVec v = s := if_neg (by simp [down])

/-- What a die holds beside its stop does not move the host link. -/
theorem State.modDie_hostUp (s : State) (d : Nat) (f : DieSt → DieSt) (h : ∀ k, (f k).stopped = k.stopped) :
    (s.modDie d f).hostUp = s.hostUp := by
  have stopped : ((s.modDie d f).die 0).stopped = (s.die 0).stopped := by
    rw [State.die_modDie]
    split
    next e => rw [h, e]
    · rfl
  exact congrArg (fun b => s.powered && !s.halted && !b) stopped

theorem State.setTherm_out_down (down : s.hostUp = false) (f : CsrField) (die v : Nat) : (s.setTherm f die v).out = s.out := by
  unfold State.setTherm
  simp only
  split
  · rfl
  · rw [State.pfVec_down (s := s.setF f die v) down]
    rfl

theorem State.powerUpdate_out_down (down : s.hostUp = false) (die : Nat) : (s.powerUpdate die).out = s.out := by
  unfold State.powerUpdate
  extract_lets l awake w t
  have still : t.hostUp = false :=
    (State.modDie_hostUp { s with energyLog := s.energyLog.put die l } die (fun d => { d with watts := w }) fun _ => rfl).trans down
  exact State.setTherm_out_down still _ _ _

theorem State.powerUpdate_capStep (s : State) (die : Nat) : ((s.powerUpdate die).die die).capStep = (s.die die).capStep := by
  unfold State.powerUpdate
  extract_lets l awake w t
  rw [(t.setTherm_told _ _ _).die, State.die_modDie, if_pos rfl]
  rfl

/-- The first step of the capping sequence tells nothing (R25). -/
theorem State.capApply_out_first (die : Nat) (first : (s.die die).capStep = 0) : (s.capApply die).out = s.out := by
  have once : (s.capStepOnce die).out = s.out := by
    unfold State.capStepOnce
    simp only [first]
    rfl
  unfold State.capApply
  simp only
  split
  · rfl
  split
  · rfl
  · exact once

/-- A task boundary before any capping tells nothing while the host link is down. -/
theorem State.taskBoundary_out_down (down : s.hostUp = false) (die : Nat) (first : (s.die die).capStep = 0) :
    (s.taskBoundary die).out = s.out := by
  unfold State.taskBoundary
  extract_lets t u
  have marked : u.out = t.out ∧ u.dies = t.dies := by
    refine iteInduction (motive := fun x : State => x.out = t.out ∧ x.dies = t.dies) (fun _ => ?_) fun _ => ⟨rfl, rfl⟩
    exact foldl_keeps (f := fun x n => x.dirty die n) (P := fun x : State => x.out = t.out ∧ x.dies = t.dies) _
      (fun _ _ _ h => h) t ⟨rfl, rfl⟩
  obtain ⟨out, dies⟩ := marked
  have step : (u.die die).capStep = 0 := by
    rw [State.die, dies]
    exact (s.powerUpdate_capStep die).trans first
  rw [u.capApply_out_first die step, out]
  exact State.powerUpdate_out_down down die

theorem State.kickAll_out (s : State) (t : Nat) : (s.kickAll t).out = s.out :=
  foldl_keeps (P := fun u : State => u.out = s.out) _ (fun u _ _ h => by rw [(u.kick_traffic _ _ _).same]; exact h) s rfl

end

/-- A task that leaves the machine, up to its task boundary. -/
def State.vacated (s : State) (t : Nat) (st : TState) : State :=
  let k := s.task t
  let s := (s.left t st).reconsider k.part
  if k.cls < 2 then s.fitSpad k.die k.stream else s

theorem State.retire_eq (s : State) (t : Nat) (st : TState) : s.retire t st = (s.vacated t st).taskBoundary (s.task t).die := rfl

/-- Die 0 has stopped, and a task runs on die 1. -/
def unlinkedState : State :=
  { dies := [(0, { stopped := true })]
    tasks := [(1, { die := 1, group := 96, team := 1, cls := 3, st := .running, run := .sending, started := true })] }

/-- The same as its task is about to leave the machine with a translation fault. -/
def unlinkedEnd : State :=
  let s := (unlinkedState.dirty 1 0).stopTask 1
  let s := ((s.discardCore 1 96 0).stopCmds 1).enginesNext 1
  ((((s.dirty 1 0).rplAbort 1).appendRecord 1 2 0x12).taskStatus 1 2 0x12).vacated 1 .aborted

theorem unlinkedState_raiseHere : unlinkedState.raiseHere 1 { cause := 0x12 } =
    ((unlinkedEnd.taskBoundary 1).modTask 1 fun x => { x with run := .aborting, awaitSvc := false }).kickAll 1 := rfl

/-- Refutes O56: with die 0 the host link goes down (R28), and then no function sends a vector. A fault on a task of die 1
aborts the task and tells the host nothing. -/
theorem not_exceptions : ¬ Obligations.Exceptions := by
  intro h
  obtain ⟨-, hfaults⟩ := h
  obtain ⟨hraised, -⟩ := hfaults unlinkedState 1 { cause := 0x12 }
  obtain ⟨-, told⟩ := hraised ⟨rfl, rfl, by decide⟩
  have sent := told (by decide +kernel)
  have silent : (unlinkedState.raiseHere 1 { cause := 0x12 }).out = [] := by
    rw [unlinkedState_raiseHere, State.kickAll_out, State.modTask_out,
      State.taskBoundary_out_down (by decide +kernel) 1 (by decide +kernel)]
    decide +kernel
  rw [silent] at sent
  exact absurd sent List.not_mem_nil

end Sys2Proof.Machine
end

section
/-! PROOFS. Cycles and holds of a team: what they leave alone, and what a bundle and an empty bundle send (R167, R176, R177, R244), for O48. -/
namespace Sys2Proof.Machine

open Sys2Proof.Spec

/-- What the tick of a team may change beside its task: what is due, and what is counted and charged. Nothing is taken off the
agenda. -/
structure Ticked (s t : State) : Prop where
  same : t = { s with agenda := t.agenda, seq := t.seq, csr := t.csr, cores := t.cores, energyLog := t.energyLog }
  agenda : ∀ x ∈ s.agenda, x ∈ t.agenda

namespace Ticked

theorem refl (s : State) : Ticked s s := ⟨rfl, fun _ h => h⟩

theorem trans {s t u : State} (h : Ticked s t) (k : Ticked t u) : Ticked s u := by
  refine ⟨?_, fun x hx => k.agenda x (h.agenda x hx)⟩
  exact k.same.trans (congrArg (fun x : State => { x with
    agenda := u.agenda, seq := u.seq, csr := u.csr, cores := u.cores, energyLog := u.energyLog }) h.same)

theorem ite {s t u : State} {c : Prop} [Decidable c] (h : Ticked s t) (k : Ticked s u) : Ticked s (if c then t else u) := by
  split
  · exact h
  · exact k

theorem fold {β : Type} {f : State → β → State} (l : List β) (s : State) (h : ∀ t, ∀ b ∈ l, Ticked t (f t b)) :
    Ticked s (l.foldl f s) := foldl_rel refl trans l s h

section
variable {s t : State} (h : Ticked s t)
include h

theorem now : t.now = s.now := by rw [h.same]
theorem tasks : t.tasks = s.tasks := by rw [h.same]
theorem dies : t.dies = s.dies := by rw [h.same]

theorem task (id : Nat) : t.task id = s.task id := by rw [State.task, State.task, h.tasks]

theorem iced (k : Task) : t.iced k = s.iced k := by rw [State.iced, State.iced, State.die, State.die, h.dies]

end

end Ticked

theorem CountsOnly.ticked {s t : State} (h : CountsOnly s t) : Ticked s t := by
  obtain ⟨⟨c, e, rfl⟩, -⟩ := h
  exact ⟨rfl, fun _ h => h⟩

section
variable (s : State)

theorem State.sched_ticked (time ph : Nat) (ev : Ev) (env : Env) (ops : List SlotOp) : Ticked s (s.sched time ph ev env ops) :=
  ⟨rfl, fun _ hx => (mem_insertDue _ _ _).2 (.inr hx)⟩

theorem State.setF_ticked (f : CsrField) (i v : Nat) : Ticked s (s.setF f i v) := ⟨rfl, fun _ h => h⟩
theorem State.modCore_ticked (c : Nat) (f : CoreSt → CoreSt) : Ticked s (s.modCore c f) := ⟨rfl, fun _ h => h⟩
theorem State.count_ticked (core ctx code n : Nat) : Ticked s (s.count core ctx code n) := (s.count_countsOnly core ctx code n).ticked
theorem State.charge_ticked (core ctx n : Nat) : Ticked s (s.charge core ctx n) := (s.charge_countsOnly core ctx n).ticked

theorem State.addSat_ticked (f g : CsrField) (i n : Nat) : Ticked s (s.addSat f g i n) :=
  .ite (s.setF_ticked _ _ _) ((s.setF_ticked _ _ _).trans (State.setF_ticked _ _ _ _))

theorem State.accountIdle_ticked (core upTo : Nat) : Ticked s (s.accountIdle core upTo) :=
  (s.addSat_ticked _ _ _ _).trans (State.modCore_ticked _ _ _)

theorem State.chargeStaticAt_ticked (core ctx at_ : Nat) : Ticked s (s.chargeStaticAt core ctx at_) :=
  (((s.accountIdle_ticked _ _).trans (State.modCore_ticked _ _ _)).trans (State.setF_ticked _ _ _ _)).trans
    (State.charge_ticked _ _ _ _)

variable (id : Nat)

theorem State.countTeam_ticked (code : Nat) : Ticked s (s.countTeam id code) := .fold _ s fun t _ _ => t.count_ticked _ _ _ _

theorem State.tickCharge_ticked : Ticked s (s.tickCharge id) :=
  .fold _ s fun t _ _ => (t.chargeStaticAt_ticked _ _ _).trans (State.count_ticked _ _ _ _ _)

/-- The tick of a hold in which no sampler runs on. -/
theorem State.holdCharge_ticked : Ticked s (s.holdCharge id []) :=
  (s.tickCharge_ticked id).trans (.ite (.refl _) (State.countTeam_ticked _ id _))

theorem State.freeSignals_ticked : Ticked s (s.freeSignals id) := .fold _ s fun t _ _ => .ite (t.sched_ticked _ _ _ _ _) (.refl t)

theorem State.sendCycle_ticked (env : Env → Env) (ops : List SlotOp) : Ticked s (s.sendCycle id env ops) :=
  .fold _ s fun t _ _ => (t.sched_ticked _ _ _ _ _).trans (State.sched_ticked _ _ _ _ _ _)

/-- A cycle with its operations is on its way to the core of an index of a team (R167). -/
def CycleSent (k : Task) (now : Nat) (ops : List SlotOp) (t : State) (i : Nat) : Prop :=
  ∃ x ∈ t.agenda, x.ops = ops ∧ x.time = now + skew i ∧
    x.ev = .writeLanding (Fin.ofNat 384 (k.coreAt i)) (Fin.ofNat 8 k.ctx) k.cyc .registers

theorem CycleSent.mono {k : Task} {now : Nat} {ops : List SlotOp} {t u : State} {i : Nat} (sent : CycleSent k now ops t i)
    (h : ∀ x ∈ t.agenda, x ∈ u.agenda) : CycleSent k now ops u i := by
  obtain ⟨x, due, facts⟩ := sent
  exact ⟨x, h x due, facts⟩

/-- A cycle reaches every core of the team with its skew (R167). -/
theorem State.sendCycle_reaches (env : Env → Env) (ops : List SlotOp) :
    ∀ i ∈ (s.task id).idxs, CycleSent (s.task id) s.now ops (s.sendCycle id env ops) i := by
  unfold State.sendCycle
  refine foldl_establishes (I := fun t : State => t.now = s.now) (P := CycleSent (s.task id) s.now ops) _ ?_ ?_ ?_ s rfl
  · exact fun _ _ _ now => now
  · intro t i _ now
    exact ⟨_, (mem_insertDue _ _ _).2 (.inr ((mem_insertDue _ _ _).2 (.inl rfl))), rfl, congrArg (· + skew i) now, rfl⟩
  · intro t _ _ i _ sent
    exact sent.mono fun x due => (mem_insertDue _ _ _).2 (.inr ((mem_insertDue _ _ _).2 (.inr due)))

theorem State.sendNext_task (n : Nat) : (s.sendNext id).task n = s.task n := rfl

/-! Bundles (R167, R176) -/

theorem exec_bundleSend : exec (.bundleSend id) s = if (s.task id).sends then .next (s.attempt id) else .next s := rfl

/-- The events that look at a cycle of a task again. -/
theorem exec_goOn {e : Instr} (h : e ∈ [Instr.emptyBundle id, .holdEnd id, .twaitTickReached id]) : exec e s = .next (s.goOn id) := by
  simp only [List.mem_cons, List.not_mem_nil, or_false] at h
  rcases h with rfl | rfl | rfl <;> rfl

theorem sends_idle (idle : (s.task id).sends = false) {e : Instr}
    (h : e ∈ [Instr.bundleSend id, .emptyBundle id, .holdEnd id, .twaitTickReached id]) : exec e s = .next s := by
  rcases List.mem_cons.1 h with rfl | h
  · rw [exec_bundleSend, if_neg (by simp [idle])]
  · rw [exec_goOn s id h, State.goOn, if_pos (by simp [idle])]

theorem goOn_bundle (last : (s.task id).empties = 0) {e : Instr}
    (h : e ∈ [Instr.emptyBundle id, .holdEnd id, .twaitTickReached id]) : exec e s = exec (.bundleSend id) s := by
  rw [exec_goOn s id h, exec_bundleSend, State.goOn]
  cases (s.task id).sends with
  | false => rfl
  | true => simp [last]

/-- The control core sends the bundle of a running task that nothing holds, and that raises no fault. -/
theorem State.attempt_sends (runs : (s.task id).run = .sending ∨ (s.task id).run = .holding) (started : (s.task id).started = true)
    (once : (s.task id).rblock = none) (stays : (s.task id).preemptReq = false) (fill : (s.judge id).fill = false)
    (hold : (s.judge id).hold = false) (fault : (s.judge id).fault = none) :
    s.attempt id = (s.judge id).s.sendBundle id (s.judge id) := by
  have drains : (s.task id).run ≠ .draining := by rcases runs with h | h <;> rw [h] <;> decide
  have restores : (s.task id).run ≠ .restoring := by rcases runs with h | h <;> rw [h] <;> decide
  have blocked : (s.task id).run ≠ .blocked := by rcases runs with h | h <;> rw [h] <;> decide
  have stub : (s.task id).inSeq = false := by simp [Task.inSeq, drains, restores]
  have pass : s.replayPass id = s := by simp [State.replayPass, once]
  have goes : (s.task id).stopsAt = none := if_pos (by simp [stays])
  simp [State.attempt, drains, restores, blocked, started, stub, pass, goes, fill, hold, fault]

/-- What a bundle that is sent leaves (R167, R175). -/
theorem State.sendBundle_sent (j : Judged) : let t := s.sendBundle id j
    (t.task id).pc = j.bundle.next ∧ (t.task id).empties = j.bundle.empty ∧ (t.task id).yieldAfter = j.bundle.yields ∧
    (∀ i ∈ (s.task id).idxs, CycleSent (s.task id) s.now j.ops t i) ∧
    DueAt t (if j.bundle.empty = 0 then .bundleSend id else .emptyBundle id) (s.now + 1) := by
  unfold State.sendBundle
  extract_lets t b u prof v w m x y
  have freed : Ticked s u := .ite (s.freeSignals_ticked id) (.refl s)
  have counted : Ticked v w := .ite (v.countTeam_ticked id _) (.refl v)
  have now : x.now = s.now := ((freed.trans (u.sendCycle_ticked id _ _)).trans counted).now
  have reached := u.sendCycle_reaches id (fun e => { e with next := b.next, prof := prof, stub := t.inSeq, bundle := true }) j.ops
  rw [freed.task, freed.now] at reached
  have moved : (x.task id).pc = b.next ∧ (x.task id).empties = b.empty ∧ (x.task id).yieldAfter = b.yields := by
    rw [State.task_modTask_same]
    exact ⟨rfl, rfl, rfl⟩
  have next : DueAt (x.sendNext id) (if (x.task id).empties = 0 then .bundleSend id else .emptyBundle id) (x.now + 1) :=
    x.dueAt_sched _ _ _
  obtain ⟨pc, empties, yields⟩ := moved
  rw [empties, now] at next
  exact ⟨pc, empties, yields, fun i hi => (reached i hi).mono fun z hz => (mem_insertDue _ _ _).2 (.inr (counted.agenda z hz)), next⟩

theorem bundleSend_does (sends : (s.task id).sends = true) (runs : (s.task id).run = .sending ∨ (s.task id).run = .holding)
    (started : (s.task id).started = true) (once : (s.task id).rblock = none) (stays : (s.task id).preemptReq = false)
    (fill : (s.judge id).fill = false) (hold : (s.judge id).hold = false) (fault : (s.judge id).fault = none) :
    exec (.bundleSend id) s = .next ((s.judge id).s.sendBundle id (s.judge id)) := by
  rw [exec_bundleSend, if_pos sends, s.attempt_sends id runs started once stays fill hold fault]

/-! Empty bundles (R176 to R178, R244) -/

theorem State.goOn_empty (sends : (s.task id).sends = true) (more : (s.task id).empties ≠ 0) (runs : (s.task id).run ≠ .blocked) :
    s.goOn id = s.emptyCycle id := by
  simp [State.goOn, sends, more, runs]

/-- An empty bundle that nothing holds is a cycle of nothing (R244). -/
theorem State.emptyCycle_passes (goes : s.cycleHolds id (s.ahead id) = false) (room : (s.ahead id).fullQueues (s.task id) = [])
    (taken : (s.acceptDue id).2 = true) :
    ((s.emptyCycle id).task id).empties = ((s.acceptDue id).1.task id).empties - 1 := by
  have freed (u : State) : Ticked u (if ((s.task id).run = .holding || (s.task id).held) = true then u.freeSignals id else u) :=
    .ite (u.freeSignals_ticked id) (.refl u)
  have cycle := (freed (s.acceptDue id).1).trans (State.sendCycle_ticked _ id
    (fun e => { e with bundle := true, stub := (s.task id).inSeq }) [])
  unfold State.emptyCycle
  simp only [goes, room, taken, List.isEmpty_nil, Bool.not_true, Bool.or_false, Bool.false_eq_true, ↓reduceIte]
  rw [State.sendNext_task, State.task_modTask_same]
  exact congrArg (fun k : Task => k.empties - 1) (cycle.task id)

/-! Holds (R176, R177) -/

/-- An empty bundle that must hold. -/
theorem State.emptyCycle_holds (holds : s.cycleHolds id (s.ahead id) = true) : s.emptyCycle id = s.hold id [] := by
  simp [State.emptyCycle, holds]

/-- A task after a tick of a hold (R177, R204). -/
def Task.waited (t : Task) : Task :=
  { t with
    holdUsed := if t.dynamic then t.holdUsed else t.holdUsed + 1
    drainHold := if t.inSeq then t.drainHold + 1 else t.drainHold
    held := true
    run := if t.inSeq then t.run else .holding }

section
variable (fixed : (s.task id).dynamic = false)
include fixed

theorem State.hold_fixed (smp : List Nat) : s.hold id smp = s.holdTick id smp := by
  simp [State.hold, fixed]

variable (plain : (s.task id).inSeq = false)
include plain

/-- A hold within the budget uses a tick of it, and the bundle is looked at again (R177). -/
theorem State.holdTick_counts (room : (s.task id).holdUsed < (s.task id).budget) :
    ((s.holdTick id []).task id).holdUsed = (s.task id).holdUsed + 1 ∧ ((s.holdTick id []).task id).run = .holding ∧
    DueAt (s.holdTick id []) (.holdEnd id) (s.now + 1) := by
  have charged : Ticked s (s.holdCharge id []) := s.holdCharge_ticked id
  have held : s.holdTick id [] = ((s.holdCharge id []).modTask id Task.waited).sched ((s.holdCharge id []).now + 1)
      (phSend (s.task id).group) (.holdEnd id) := by
    have within : ¬(s.task id).budget < (s.task id).holdUsed + 1 := by omega
    simp [State.holdTick, fixed, plain, within]
    rfl
  have task : ((s.holdTick id []).task id) = (s.task id).waited := by
    rw [held, State.sched_task_view, State.task_modTask_same, charged.task]
  refine ⟨?_, ?_, ?_⟩
  · simp [task, Task.waited, fixed]
  · simp [task, Task.waited, plain]
  · rw [held, charged.now]
    exact State.dueAt_sched _ _ _ _

/-- A hold beyond the budget exhausts it (R177). -/
theorem State.holdTick_exhausts (spent : (s.task id).budget ≤ (s.task id).holdUsed) :
    DueAt (s.holdTick id []) (.holdBudgetExhausted id) s.now := by
  have beyond : (s.task id).budget < (s.task id).holdUsed + 1 := by omega
  have due := s.dueAt_sched s.now (phSend (s.task id).group) (.holdBudgetExhausted id)
  simpa [State.holdTick, fixed, plain, beyond] using due

end

/-- The cycles of nothing that follow a bundle (R176, R177, R244). -/
theorem emptyBundle_does {e : Instr} (h : e ∈ [Instr.emptyBundle id, .holdEnd id, .twaitTickReached id])
    (sends : (s.task id).sends = true) (more : (s.task id).empties ≠ 0) (runs : (s.task id).run ≠ .blocked) :
    (s.cycleHolds id (s.ahead id) = false → (s.ahead id).fullQueues (s.task id) = [] → (s.acceptDue id).2 = true →
      Does e s fun t => (t.task id).empties = ((s.acceptDue id).1.task id).empties - 1) ∧
    (s.cycleHolds id (s.ahead id) = true → (s.task id).dynamic = false → (s.task id).inSeq = false →
      (s.task id).holdUsed < (s.task id).budget → Does e s fun t =>
        (t.task id).holdUsed = (s.task id).holdUsed + 1 ∧ (t.task id).run = .holding ∧ DueAt t (.holdEnd id) (s.now + 1)) ∧
    (s.cycleHolds id (s.ahead id) = true → (s.task id).dynamic = false → (s.task id).inSeq = false →
      (s.task id).budget ≤ (s.task id).holdUsed → Does e s fun t => DueAt t (.holdBudgetExhausted id) s.now) := by
  have goes : exec e s = .next (s.emptyCycle id) := by rw [exec_goOn s id h, s.goOn_empty id sends more runs]
  have held (holds : s.cycleHolds id (s.ahead id) = true) (fixed : (s.task id).dynamic = false) : s.emptyCycle id = s.holdTick id [] := by
    rw [s.emptyCycle_holds id holds, s.hold_fixed id fixed]
  refine ⟨fun free room taken => ⟨_, goes, s.emptyCycle_passes id free room taken⟩, fun holds fixed plain room => ⟨_, goes, ?_⟩,
    fun holds fixed plain spent => ⟨_, goes, ?_⟩⟩
  · rw [held holds fixed]
    exact s.holdTick_counts id fixed plain room
  · rw [held holds fixed]
    exact s.holdTick_exhausts id fixed plain spent

end

end Sys2Proof.Machine
end

section
/-! PROOFS. The choice of a context, drains, evictions and restores (R172 to R174, R202 to R208), for O48. -/
namespace Sys2Proof.Machine

open Sys2Proof.Spec

section
variable (s : State) (id : Nat)

/-! The choice of a context (R172 to R174, R178) -/

theorem State.becomeEligible_task :
    (s.becomeEligible id).task id = { s.task id with run := .eligible, eligTick := s.now, cnt := 0 } := s.task_modTask_same id _

/-- A group in work chooses nothing. -/
theorem State.startRun_busy (g : Nat) (busy : (s.group g).running ≠ none) : s.startRun g = s := by
  have works : (s.group g).running.isSome = true := Option.isSome_iff_ne_none.mpr busy
  simp [State.startRun, works]

theorem contextEligible_waits (h : (s.task id).run = .blocked ∨ ((s.task id).run = .yielded ∧ (s.task id).preemptReq = false))
    (busy : (s.group (s.task id).group).running ≠ none) : Does (.contextEligible id) s fun t =>
      (t.task id).run = .eligible ∧ (t.task id).eligTick = s.now ∧ (t.task id).cnt = 0 := by
  have still := (s.becomeEligible id).startRun_busy (s.task id).group busy
  have ran : exec (.contextEligible id) s = .next (s.becomeEligible id) := by
    show execContextEligible id s = _
    unfold execContextEligible
    rcases h with run | ⟨run, stays⟩
    · simp only [run, still]
    · simp only [run, stays, Bool.false_eq_true, ↓reduceIte, still]
  refine ⟨_, ran, ?_⟩
  beta_reduce
  rw [s.becomeEligible_task]
  exact ⟨rfl, rfl, rfl⟩

/-- A context that alone is eligible is chosen (R173). -/
theorem chooseRun_single (e : Nat × Task) : chooseRun [e] = some e := by
  unfold chooseRun
  extract_lets top age
  have one : age = [e] := rfl
  split
  · rw [one]; rfl
  · rfl

/-- A task whose run begins, after the last cycle of its contexts (R174). -/
def Task.chosen (last : Nat) (t : Task) : Task :=
  { t with run := .sending, runFirst := true, fresh := true, cyc := if t.started then max t.cyc (last + 1) else t.cyc }

section
variable (run : (s.task id).run = .eligible)
  (alone : (s.tasks.filter fun e => e.2.group = (s.task id).group && e.2.resident) = [(id, s.task id)])
  (idle : (s.group (s.task id).group).running = none) (thawed : (s.die ((s.task id).group / 96)).frozen = none)
  (own : s.smpOther (s.task id) = false)
include run alone idle thawed own

/-- The context that alone is eligible begins its run (R173, R174). -/
theorem State.startRun_chooses : ∃ last, s.startRun (s.task id).group =
    (((s.modTask id fun x => { x with cnt := x.cnt + 1 }).modTask id (Task.chosen last)).modGroup (s.task id).group
      fun x => { x with running := some id }).sched (max (s.now + 3) (s.group (s.task id).group).freeAt) (phSend (s.task id).group)
        (if (s.task id).resume then .restore id else if (s.task id).empties = 0 then .bundleSend id else .emptyBundle id) := by
  refine ⟨((s.task id).idxs.map fun i => (s.bank (ctxOf ((s.task id).coreAt i) (s.task id).ctx)).lastCyc).foldl max 0, ?_⟩
  simp [State.startRun, alone, idle, thawed, run, own, chooseRun_single]
  rfl

theorem contextEligible_starts : Does (.contextEligible id) s fun t =>
      (t.group (s.task id).group).running = some id ∧ (t.task id).run = .sending ∧
      DueAt t (if (s.task id).resume then .restore id else if (s.task id).empties = 0 then .bundleSend id else .emptyBundle id)
        (max (s.now + 3) (s.group (s.task id).group).freeAt) := by
  have ran : exec (.contextEligible id) s = .next (s.startRun (s.task id).group) := by
    show execContextEligible id s = _
    unfold execContextEligible
    simp only [run]
  obtain ⟨last, starts⟩ := s.startRun_chooses id run alone idle thawed own
  rw [starts] at ran
  refine ⟨_, ran, ?_, ?_, State.dueAt_sched _ _ _ _⟩
  · rw [State.sched_group_view, State.group_modGroup_same]
  · rw [State.sched_task_view, State.modGroup_task_view, State.task_modTask_same]
    rfl

end

/-! Drains (R204, R207) -/

theorem exec_drainEnd : exec (.drainEnd id) s = if (s.task id).run = .draining then .next (s.drainStep id) else .next s := rfl

theorem drainEnd_idle (run : (s.task id).run ≠ .draining) : exec (.drainEnd id) s = .next s := by
  rw [exec_drainEnd, if_neg run]

theorem drainEnd_steps (run : (s.task id).run = .draining) : exec (.drainEnd id) s = .next (s.drainStep id) := by
  rw [exec_drainEnd, if_pos run]

/-- A task that has left its group, drained (R174, R204). -/
theorem State.drained_task (st : TState) : ((s.drained id st).task id).st = st ∧ ((s.drained id st).task id).run = .off ∧
    ((s.drained id st).task id).saving = false := by
  unfold State.drained
  extract_lets t u v
  rw [State.task_modTask_same]
  exact ⟨rfl, rfl, rfl⟩

theorem State.drained_mem (st : TState) : (s.drained id st).mem = s.mem := by
  unfold State.drained
  extract_lets t u v
  refine iteInduction (motive := fun w : State => w.mem = s.mem) (fun _ => ?_) fun _ => rfl
  exact foldl_keeps (f := fun w (e : Nat × Task) => w.modTask e.1 fun t => { t with unplaced := false })
    (P := fun w : State => w.mem = s.mem) _ (fun _ _ _ h => h) u rfl

/-- A task that has another context number (R208). -/
def Task.movedTo (x : Nat) (t : Task) : Task := { t with ctx := x }

/-- A task that goes to another context number keeps the rest, and memory stays (R208, R209). -/
theorem State.rehome_kept (x : Nat) : (s.rehome id x).task id = (s.task id).movedTo x ∧ (s.rehome id x).mem = s.mem := by
  unfold State.rehome
  extract_lets t u mine
  have moved : u.tasks = s.tasks ∧ u.mem = s.mem := by
    refine foldl_keeps (P := fun v : State => v.tasks = s.tasks ∧ v.mem = s.mem) _ (fun v i _ kept => ?_) s ⟨rfl, rfl⟩
    simpa only [State.modBank_tasks, State.modBank_mem] using kept
  rw [State.task_modTask_same]
  exact ⟨congrArg (fun m : SMap Task => (m.look id).movedTo x) moved.1, moved.2⟩

theorem drainEnd_parks (run : (s.task id).run = .draining) (saving : (s.task id).saving = false)
    (goes : s.cycleHolds id (s.ahead id) = false) (room : (s.ahead id).fullQueues (s.task id) = [])
    (quiet : (((s.ahead id).aheadCycle id (s.task id).cyc).aheadStore id (s.task id).cyc).quiet id = true)
    (calm : (s.task id).lateFault = none) (stays : (s.task id).evicting = false) :
    Does (.drainEnd id) s fun t => (t.task id).st = .parked ∧ (t.task id).run = .off := by
  have parks : s.drainStep id = ((s.lastLanding id).drained id .parked).kickAll id := by
    simp [State.drainStep, State.drainDone, saving, goes, room, quiet, calm, stays]
  have kicked := ((s.lastLanding id).drained id .parked).kickAll_calm id
  obtain ⟨st, off, -⟩ := (s.lastLanding id).drained_task id .parked
  refine ⟨_, (drainEnd_steps s id run).trans (congrArg _ parks), (kicked.st id).trans st, (kicked.run id).trans off⟩

/-- A task after a tick of the 68 in which its records are saved or loaded: the tick of a frozen die is a hold (R27, R207, R208). -/
def Task.recorded (s : State) (t : Task) : Task :=
  { t with
    drainHold := t.drainHold + 1
    holdUsed := if s.iced t then t.holdUsed + 1 else t.holdUsed
    left := if s.iced t then t.left else t.left - 1 }

/-- One of the 68 ticks in which records are saved or loaded (R207, R208). -/
theorem State.recordTick_ticks (ev : Ev) (thawed : s.iced (s.task id) = false) (room : (s.task id).seqCycles < (s.task id).seqBound) :
    ((s.recordTick id ev).task id).left = (s.task id).left - 1 ∧
    ((s.recordTick id ev).task id).drainHold = (s.task id).drainHold + 1 ∧ DueAt (s.recordTick id ev) ev (s.now + 1) := by
  have charged : Ticked s (s.tickCharge id) := s.tickCharge_ticked id
  have ticks : s.recordTick id ev = ((s.tickCharge id).modTask id (Task.recorded (s.tickCharge id))).sched ((s.tickCharge id).now + 1)
      (phSend (s.task id).group) ev := by
    have within : ¬(s.task id).seqBound ≤ (s.task id).seqCycles := by omega
    simp [State.recordTick, thawed, within]
    rfl
  have task : (s.recordTick id ev).task id = (s.task id).recorded (s.tickCharge id) := by
    rw [ticks, State.sched_task_view, State.task_modTask_same, charged.task]
  refine ⟨?_, ?_, ?_⟩
  · simp [task, Task.recorded, charged.iced, thawed]
  · simp [task, Task.recorded]
  · rw [ticks, charged.now]
    exact State.dueAt_sched _ _ _ _

theorem drainEnd_saves (run : (s.task id).run = .draining) (saving : (s.task id).saving = true) (left : (s.task id).left ≠ 0)
    (thawed : s.iced (s.task id) = false) (room : (s.task id).seqCycles < (s.task id).seqBound) :
    Does (.drainEnd id) s fun t => (t.task id).left = (s.task id).left - 1 ∧
      (t.task id).drainHold = (s.task id).drainHold + 1 ∧ DueAt t (.drainEnd id) (s.now + 1) := by
  have saves : s.drainStep id = s.recordTick id (.drainEnd id) := by simp [State.drainStep, saving, left]
  exact ⟨_, (drainEnd_steps s id run).trans (congrArg _ saves), s.recordTick_ticks id _ thawed room⟩

/-- The save area is written last, and the task is evicted (R207, R209). -/
theorem drainEnd_evicts (run : (s.task id).run = .draining) (saving : (s.task id).saving = true) (left : (s.task id).left = 0)
    (copied : s.copiesTo id 2 = false) : Does (.drainEnd id) s fun t =>
      (t.task id).st = .evicted ∧ (t.task id).run = .off ∧ (t.task id).saving = false ∧ t.mem = (s.saveRecords id).mem := by
  have evicts : s.drainStep id = ((s.saveRecords id).drained id .evicted).rehome id (awayCtx id) := by
    simp [State.drainStep, saving, left, copied]
  obtain ⟨task, mem⟩ := ((s.saveRecords id).drained id .evicted).rehome_kept id (awayCtx id)
  refine ⟨_, (drainEnd_steps s id run).trans (congrArg _ evicts), ?_⟩
  beta_reduce
  rw [task, mem, State.drained_mem]
  obtain ⟨st, off, done⟩ := (s.saveRecords id).drained_task id .evicted
  exact ⟨st, off, done, rfl⟩

/-! Restores (R205, R208) -/

/-- A task whose load into its new contexts begins (R208). -/
def Task.reloading (t : Task) : Task :=
  { t with
    st := .running, run := .restoring, saving := true, left := 68, drainFrom := t.lc, drainHold := 0, stubEnd := t.lc + t.rlen }

/-- A task that goes on at its re-entry, or where it was stopped (R205). -/
def Task.resumed (t : Task) : Task :=
  { t with
    st := .running, resume := false, saving := false, run := if t.rlen = 0 then .sending else .restoring
    pc := if t.rlen = 0 then t.resumePc else t.entryPc, drainFrom := t.lc
    drainHold := if t.saving then t.drainHold else 0, stubEnd := t.lc + t.rlen
    waits := t.keptWaits.map fun w => { w with cyc := t.prevCyc }, keptWaits := [], lateFault := none }

/-- A bank whose record is loaded, with its energy count (R207, R208). -/
def State.loadBank (s : State) (k : Nat) (lo hi : List Byte) : State :=
  let e := natAt lo 0x220 8
  (((s.modBank k fun b => b.ofRecord lo hi).setF CCC_ECNT.COUNT k (bits e 47 0)).setF CCC_ECNT.F k (bits e 55 48)).setF
    CCC_ECNT.SAT k (bits e 63 63)

theorem State.loadBank_tasks (k : Nat) (lo hi : List Byte) : (s.loadBank k lo hi).tasks = s.tasks := by
  rw [State.loadBank, State.setF_tasks, State.setF_tasks, State.setF_tasks, State.modBank_tasks]

theorem State.loadBank_now (k : Nat) (lo hi : List Byte) : (s.loadBank k lo hi).now = s.now := by
  rw [State.loadBank, State.setF_now, State.setF_now, State.setF_now, State.modBank_now]

/-- The record of one core of a team, where its save area can be read. -/
def State.loadIndex (t : Task) (s : State) (i : Nat) : State :=
  match s.vread t.die t.part (s.saveVa t i) 960 0, s.vread t.die t.part (s.saveVa t i + 0x4000) 16384 0 with
  | some lo, some hi => s.loadBank (ctxOf (t.coreAt i) t.ctx) lo hi
  | _, _ => s

theorem State.loadIndex_kept (t : Task) (i : Nat) : (s.loadIndex t i).tasks = s.tasks ∧ (s.loadIndex t i).now = s.now := by
  unfold State.loadIndex
  split
  · exact ⟨s.loadBank_tasks _ _ _, s.loadBank_now _ _ _⟩
  · exact ⟨rfl, rfl⟩

theorem State.loadRecords_eq : s.loadRecords id = (s.task id).idxs.foldl (State.loadIndex (s.task id)) s := rfl

/-- Records that are loaded change neither tasks nor the tick. -/
theorem State.loadRecords_kept : (s.loadRecords id).tasks = s.tasks ∧ (s.loadRecords id).now = s.now := by
  rw [State.loadRecords_eq]
  refine foldl_keeps (P := fun v : State => v.tasks = s.tasks ∧ v.now = s.now) _ (fun v i _ kept => ?_) s ⟨rfl, rfl⟩
  obtain ⟨tasks, now⟩ := v.loadIndex_kept (s.task id) i
  exact ⟨tasks.trans kept.1, now.trans kept.2⟩

theorem restore_idle (resume : (s.task id).resume = false) : exec (.restore id) s = .next s := if_pos (by simp [resume])

section
variable (resume : (s.task id).resume = true)
include resume

theorem restore_places (st : (s.task id).st = .placing) : Does (.restore id) s fun t =>
    (t.task id).st = .running ∧ (t.task id).saving = true ∧ (t.task id).left = 68 ∧ DueAt t (.restore id) s.now := by
  have ran : exec (.restore id) s = .next ((s.modTask id Task.reloading).sched s.now (phSend (s.task id).group) (.restore id)) := by
    show execRestore id s = _
    unfold execRestore
    simp only [resume, st, Bool.not_true, Bool.false_eq_true, ↓reduceIte]
    rfl
  refine ⟨_, ran, ?_, ?_, ?_, State.dueAt_sched _ _ _ _⟩ <;> rw [State.sched_task_view, State.task_modTask_same] <;> rfl

theorem restore_loads (st : (s.task id).st ≠ .placing) (saving : (s.task id).saving = true) (left : (s.task id).left ≠ 0)
    (thawed : s.iced (s.task id) = false) (room : (s.task id).seqCycles < (s.task id).seqBound) :
    Does (.restore id) s fun t => (t.task id).left = (s.task id).left - 1 ∧ DueAt t (.restore id) (s.now + 1) := by
  have ran : exec (.restore id) s = .next (s.recordTick id (.restore id)) := by
    show execRestore id s = _
    simp [execRestore, resume, st, saving, left]
  obtain ⟨less, -, due⟩ := s.recordTick_ticks id (.restore id) thawed room
  exact ⟨_, ran, less, due⟩

/-- A restore goes on at the re-entry, or where the task was stopped (R205). -/
theorem restore_goesOn (st : (s.task id).st ≠ .placing) (loaded : (s.task id).saving = false ∨ (s.task id).left = 0) :
    Does (.restore id) s fun t => (t.task id).st = .running ∧ (t.task id).resume = false ∧
      (t.task id).run = (if (s.task id).rlen = 0 then .sending else .restoring) ∧
      (t.task id).pc = (if (s.task id).rlen = 0 then (s.task id).resumePc else (s.task id).entryPc) ∧
      DueAt t (.bundleSend id) s.now ∧ ∀ b, t.bank b = (if (s.task id).saving then s.loadRecords id else s).bank b := by
  let u := if (s.task id).saving then s.loadRecords id else s
  have kept : u.tasks = s.tasks ∧ u.now = s.now :=
    iteInduction (motive := fun v : State => v.tasks = s.tasks ∧ v.now = s.now) (fun _ => s.loadRecords_kept id) fun _ => ⟨rfl, rfl⟩
  have task : u.task id = s.task id := by rw [State.task, State.task, kept.1]
  have ran : exec (.restore id) s = .next ((u.modTask id Task.resumed).sched u.now (phSend (s.task id).group) (.bundleSend id)) := by
    have finished : ((s.task id).saving && decide ((s.task id).left ≠ 0)) = false := by
      rcases loaded with h | h <;> simp [h]
    show execRestore id s = _
    unfold execRestore
    simp only [resume, st, finished, Bool.not_true, Bool.false_eq_true, ↓reduceIte]
    rfl
  rw [kept.2] at ran
  refine ⟨_, ran, ?_, ?_, ?_, ?_, State.dueAt_sched _ _ _ _, fun _ => rfl⟩ <;>
    rw [State.sched_task_view, State.task_modTask_same, task] <;> rfl

end

end
end Sys2Proof.Machine
end

section
/-! PROOFS. Bounds that are exceeded, and the fills of the instruction caches (R166, R174, R177, R204, R210), for O48. -/
namespace Sys2Proof.Machine

open Sys2Proof.Spec

section
variable (s : State) (id : Nat)

/-! Bounds and budgets (R177, R204) -/

/-- A fault that is not offered for service aborts its task (R197). -/
theorem State.takeFault_aborted (r : FaultRec) (raisable : Raisable s id) (refused : ∀ t : State, t.offers id r = none) :
    Aborted (s.takeFault id r) id := by
  obtain ⟨-, resident, run⟩ := raisable
  unfold State.takeFault
  extract_lets t u
  rw [if_neg (by simp [t, resident, run])]
  simp only [refused]
  split
  · exact State.raise_aborted _ _ _
  · exact State.raise_aborted _ _ _

theorem drainBoundExceeded_does (raisable : Raisable s id) : Does (.drainBoundExceeded id) s fun t => Aborted t id :=
  ⟨_, rfl, s.raiseHere_aborted id _ raisable⟩

theorem holdBudgetExhausted_does (raisable : Raisable s id) : Does (.holdBudgetExhausted id) s fun t => Aborted t id := by
  have unoffered (t : State) : t.offers id { cause := 0x41, pc := (s.task id).pc } = none := by simp [State.offers]
  by_cases stub : (s.task id).inSeq = true
  · exact ⟨_, if_pos stub, s.raiseHere_aborted id _ raisable⟩
  · exact ⟨_, if_neg stub, s.takeFault_aborted id _ raisable unoffered⟩

end

/-! What a fill through the LLC leaves of the clusters (R139) -/

theorem Traffic.clusters {s t : State} (h : Traffic s t) : t.clusters = s.clusters := by rw [h.same]

section
variable (s : State)

theorem State.llcEvict_clusters (l : Line) : (s.llcEvict l).clusters = s.clusters :=
  iteInduction (motive := fun u : State => u.clusters = s.clusters) (fun _ => (State.hbmTask_traffic _ _ _ _ _ _).clusters) fun _ => rfl

theorem State.llcPut_clusters (die part la : Nat) (fill : List Byte) (fillM : List Bool) (data : List Byte)
    (dirt : List Bool) (v : Nat) (touch : Bool) : (s.llcPut die part la fill fillM data dirt v touch).clusters = s.clusters := by
  unfold State.llcPut
  extract_lets set ways upd
  split
  · rfl
  · split
    · rfl
    · exact iteInduction (motive := fun u : State => u.clusters = s.clusters) (fun _ => rfl) fun _ => State.llcEvict_clusters _ _

theorem State.llcFill_clusters (die part la rd : Nat) (want : List Bool) (src : List Byte) :
    (s.llcFill die part la rd want src).clusters = s.clusters :=
  iteInduction (motive := fun u : State => u.clusters = s.clusters) (fun _ => rfl) fun _ => s.llcPut_clusters _ _ _ _ _ _ _ _ _

/-! Lines (R166, R174, R210) -/

variable (cl part line : Nat)

/-- A line that enters an instruction cache with room is there with its bytes. -/
theorem State.linePut_room (data : List Byte) (room : (s.cluster cl).icache.length < 2048) :
    (s.linePut cl part line data).lineData cl part line = some data ∧
    ((s.linePut cl part line data).cluster cl).icWait = (s.cluster cl).icWait := by
  have fits := (List.length_filter_le (fun x : IcLine => !(x.part = part && x.line = line)) (s.cluster cl).icache).trans_lt room
  unfold State.linePut
  extract_lets l new free
  rw [if_pos fits, State.lineData, State.cluster_modCluster_same]
  exact ⟨by simp [new], rfl⟩

/-- A line whose bytes have been read is there, and nothing waits for it (R174). -/
theorem State.lineHave_room (data : List Byte) (room : (s.cluster cl).icache.length < 2048) :
    (s.lineHave cl part line data).lineData cl part line = some data ∧
    (part, line) ∉ ((s.lineHave cl part line data).cluster cl).icWait := by
  unfold State.lineHave
  obtain ⟨bytes, wait⟩ := (s.modCluster cl fun c => { c with icWait := c.icWait.filter (· ≠ (part, line)) }).linePut_room cl part line data
    (by rw [State.cluster_modCluster_same]; exact room)
  rw [wait, State.cluster_modCluster_same]
  exact ⟨bytes, by simp⟩

/-- What a failed fill tells the tasks that need a line (R210). -/
def lineCause (line cause : Nat) : WalkRes := { core := 400, page := line / 512, kind := 3, cause := cause }

/-- A fill that failed changes tasks alone. -/
theorem State.lineLost_kept (cause : Nat) :
    (s.lineLost cl part line cause).clusters = s.clusters ∧ (s.lineLost cl part line cause).mem = s.mem := by
  unfold State.lineLost
  extract_lets page
  refine foldl_keeps (P := fun t : State => t.clusters = s.clusters ∧ t.mem = s.mem) _ (fun _ _ _ kept => ?_) s ⟨rfl, rfl⟩
  exact kept

/-- A fill that failed keeps its page's cause for each task that needs the line (R210). -/
theorem State.lineLost_causes (cause : Nat) : ∀ id ∈ s.lineTasks cl part (line / 512),
    lineCause line cause ∈ ((s.lineLost cl part line cause).task id).walkRes := by
  unfold State.lineLost
  refine foldl_establishes (I := fun _ => True) (P := fun (t : State) id => lineCause line cause ∈ (t.task id).walkRes) _
    (fun _ _ _ _ => trivial) ?_ ?_ s trivial
  · intro t id _ _
    rw [State.task_modTask_same]
    exact List.mem_append_right _ (List.mem_singleton.2 rfl)
  · intro t other _ id _ kept
    rw [State.task_modTask]
    split
    next same => exact List.mem_append_left _ (same ▸ kept)
    next => exact kept

/-- An agent's translation that hits leaves the state (R148). -/
theorem State.findXlate_hit {die : Nat} {tlb : List Xlate} {dord : Nat} {who : Asker} {x : Xlate}
    (hit : (s.findXlate die part tlb dord who).1 = .hit x) : (s.findXlate die part tlb dord who).2 = s := by
  revert hit
  unfold State.findXlate
  split
  · exact fun _ => rfl
  · exact fun _ => rfl
  · simp only
    split
    · exact fun hit => nomatch hit
    · exact fun hit => nomatch hit

/-- The translation that a fill needs (R149). -/
def State.lineXlate (c : Cluster) (p : Part) : Found × State :=
  s.findXlate (c.val / 12) p.val (s.die (c.val / 12)).walkTlb
    ((s.lineTasks c.val p.val (line / 512)).foldl (fun d id => min d (s.task id).dord) (2 ^ 64 - 1))
    { task := (s.lineTasks c.val p.val (line / 512)).headD 0, tr := 4000, kind := 3, va := 128 * line
      wake := some (.icacheFill c p line), ph := phMem }

section
variable (c : Cluster) (p : Part)

theorem exec_icacheFill : exec (.icacheFill c p line) s = match s.lineXlate line c p with
    | (.wait, t) => .next t
    | (.fault k, t) => .next (t.lineLost c.val p.val line k)
    | (.hit x, t) => .next (t.lineRead c.val p.val line x) := rfl

theorem State.lineXlate_traffic : Traffic s (s.lineXlate line c p).2 := s.findXlate_traffic _ _ _ _ _

theorem icacheFill_waits (wait : (s.lineXlate line c p).1 = .wait) :
    Does (.icacheFill c p line) s fun t => t.clusters = s.clusters ∧ t.mem = s.mem := by
  have traffic := s.lineXlate_traffic line c p
  rw [Does, exec_icacheFill]
  generalize s.lineXlate line c p = found at wait traffic ⊢
  obtain ⟨f, t⟩ := found
  obtain rfl : f = .wait := wait
  exact ⟨t, rfl, traffic.clusters, traffic.mem⟩

theorem icacheFill_faults (k : Nat) (fault : (s.lineXlate line c p).1 = .fault k) :
    Does (.icacheFill c p line) s fun t => t.clusters = s.clusters ∧ t.mem = s.mem ∧
      ∀ id ∈ s.lineTasks c.val p.val (line / 512), lineCause line k ∈ (t.task id).walkRes := by
  have traffic := s.lineXlate_traffic line c p
  rw [Does, exec_icacheFill]
  generalize s.lineXlate line c p = found at fault traffic ⊢
  obtain ⟨f, t⟩ := found
  obtain rfl : f = .fault k := fault
  obtain ⟨clusters, mem⟩ := t.lineLost_kept c.val p.val line k
  have same : t.lineTasks c.val p.val (line / 512) = s.lineTasks c.val p.val (line / 512) := by
    rw [State.lineTasks, State.lineTasks, traffic.beside.tasks]
  exact ⟨_, rfl, clusters.trans traffic.clusters, mem.trans traffic.mem, same ▸ t.lineLost_causes c.val p.val line k⟩

theorem icacheFill_reads (x : Xlate) (hit : (s.lineXlate line c p).1 = .hit x) :
    exec (.icacheFill c p line) s = .next (s.lineRead c.val p.val line x) := by
  have same : (s.lineXlate line c p).2 = s := s.findXlate_hit _ hit
  rw [exec_icacheFill]
  generalize s.lineXlate line c p = found at hit same ⊢
  obtain ⟨f, t⟩ := found
  obtain rfl : f = .hit x := hit
  obtain rfl : t = s := same
  rfl

end

/-! The reads of a line of the module (R174) -/

variable {x : Xlate} (inside : paD (x.pa (128 * line)) = false)
include inside

/-- A line that is there to be read enters the instruction cache. -/
theorem State.lineRead_here (here : (isHost (x.pa (128 * line)) || s.llcHas (cl / 12) part (x.pa (128 * line)) 128 ||
    (s.cluster cl).icWait.contains (part, line)) = true) (room : (s.cluster cl).icache.length < 2048) :
    (s.lineRead cl part line x).lineData cl part line ≠ none ∧ (part, line) ∉ ((s.lineRead cl part line x).cluster cl).icWait ∧
    (isHost (x.pa (128 * line)) = true →
      (s.lineRead cl part line x).lineData cl part line = some (s.sideBytes part (x.pa (128 * line)) 128)) := by
  unfold State.lineRead
  extract_lets die pa task filled
  rw [if_neg (by simp [pa, inside])]
  by_cases host : isHost pa = true
  · rw [if_pos host]
    obtain ⟨data, wait⟩ := s.lineHave_room cl part line (s.sideBytes part pa 128) room
    exact ⟨by simp [data], wait, fun _ => data⟩
  · have clusters : filled.clusters = s.clusters :=
      iteInduction (motive := fun u : State => u.clusters = s.clusters) (fun _ => s.llcFill_clusters _ _ _ _ _ _) fun _ => rfl
    have room' : (filled.cluster cl).icache.length < 2048 := by rwa [State.cluster, clusters]
    have there : (s.llcHas die part pa 128 || (s.cluster cl).icWait.contains (part, line)) = true :=
      ((Bool.or_eq_true _ _).mp ((Bool.or_assoc _ _ _).symm.trans here)).resolve_left host
    rw [if_neg host, if_pos there]
    obtain ⟨data, wait⟩ := filled.lineHave_room cl part line (filled.sideBytes part pa 128) room'
    exact ⟨by simp [data], wait, fun h => absurd h host⟩

/-- A line that the LLC lacks is asked for (R143). -/
theorem State.lineRead_asks (away : (isHost (x.pa (128 * line)) || s.llcHas (cl / 12) part (x.pa (128 * line)) 128 ||
    (s.cluster cl).icWait.contains (part, line)) = false) :
    (part, line) ∈ ((s.lineRead cl part line x).cluster cl).icWait ∧
    ((s.lineRead cl part line x).cluster cl).icache = (s.cluster cl).icache ∧ (s.lineRead cl part line x).mem = s.mem := by
  simp only [Bool.or_eq_false_iff] at away
  obtain ⟨⟨host, llc⟩, queue⟩ := away
  have asks : s.lineRead cl part line x = (s.modCluster cl fun c => { c with icWait := c.icWait ++ [(part, line)] }).hbmTask
      (stackOf (x.pa (128 * line))) ((s.lineTasks cl part (line / 512)).headD 0) 128
      (some (.icacheFill (Fin.ofNat 48 cl) (Fin.ofNat 16 part) line)) := by
    unfold State.lineRead
    extract_lets die pa task filled
    rw [if_neg (by simp [pa, inside]), if_neg (by simp [pa, host]), if_neg (by simp only [pa, die, llc, queue]; decide)]
  have traffic := (s.modCluster cl fun c => { c with icWait := c.icWait ++ [(part, line)] }).hbmTask_traffic
    (stackOf (x.pa (128 * line))) ((s.lineTasks cl part (line / 512)).headD 0) 128
    (some (.icacheFill (Fin.ofNat 48 cl) (Fin.ofNat 16 part) line)) 0
  rw [asks, State.cluster, traffic.clusters, traffic.mem, ← State.cluster, State.cluster_modCluster_same]
  exact ⟨List.mem_append_right _ (List.mem_singleton.2 rfl), rfl, rfl⟩

end

end Sys2Proof.Machine
end

section
/-! PROOFS. What the control core sends (R123, R167, R172 to R178, R202 to R208, R244, R287): O48. -/
namespace Sys2Proof.Machine

open Sys2Proof.Spec

/-- Settles O48: a clause for each event of the control core, from the lemmas about its cycles, drains, restores and fills. -/
theorem sendEvents : Obligations.SendEvents := by
  intro s
  refine ⟨fun id => ⟨fun e h idle => sends_idle s id idle h, fun e h last => goOn_bundle s id last h, ?_,
    fun e h sends more runs => emptyBundle_does s id h sends more runs, contextEligible_waits s id, contextEligible_starts s id,
    drainEnd_idle s id, drainEnd_parks s id, drainEnd_saves s id, drainEnd_evicts s id, restore_idle s id, restore_places s id,
    restore_loads s id, restore_goesOn s id, drainBoundExceeded_does s id, holdBudgetExhausted_does s id⟩,
    fun c part line => ⟨icacheFill_waits s line c part, icacheFill_faults s line c part, fun x hit inside => ⟨fun here room => ?_,
      fun away => ?_⟩⟩⟩
  · intro sends runs started once stays j kj fill hold fault
    exact ⟨_, bundleSend_does s id sends runs started once stays fill hold fault, j.s.sendBundle_sent id j⟩
  · exact ⟨_, icacheFill_reads s line c part x hit, s.lineRead_here c.val part.val line inside here room⟩
  · exact ⟨_, icacheFill_reads s line c part x hit, s.lineRead_asks c.val part.val line inside away⟩

end Sys2Proof.Machine
end
